-- ==== Sys2Proof/Word.lean ====
section
/-! DEFINITION. The word and byte types of the PT-8800 (spec/00_scope.md R4, R5: native word 64 bits, bit 0 least significant). -/
namespace Sys2Proof

/-- One 64-bit word (R4, R5). -/
abbrev Word := BitVec 64

/-- One byte (R5). -/
abbrev Byte := BitVec 8

end Sys2Proof
end

