-- ==== Sys2Proof/Machine/Table.lean ====
section
/-! DEFINITION. Sparse storage in one canonical form: a list of (key, value) pairs with strictly rising keys and
no entry equal to the value an unlisted key reads as. Every register file, memory and per-object record of the model is held so. -/
namespace Sys2Proof.Machine

/-- A sparse table: the keys rise strictly and no listed value is the default. -/
abbrev Tab (α : Type) := List (Nat × α)

/-- The value at a key; an unlisted key reads as `d`. -/
def tabGet {α : Type} (d : α) : Tab α → Nat → α
  | [], _ => d
  | (k, v) :: t, i => if i = k then v else tabGet d t i

/-- The table with a value other than the default put at one key, in the place the order gives it. -/
def tabIns {α : Type} : Tab α → Nat → α → Tab α
  | [], i, v => [(i, v)]
  | (k, w) :: t, i, v => if i < k then (i, v) :: (k, w) :: t else if i = k then (i, v) :: t else (k, w) :: tabIns t i v

/-- The table with the value of one key replaced; writing the default removes the entry. -/
def tabPut {α : Type} [DecidableEq α] (d : α) (t : Tab α) (i : Nat) (v : α) : Tab α :=
  if v = d then t.filter (fun p => p.1 != i) else tabIns t i v

/-- The value at one key replaced by `f` of it. -/
def tabMod {α : Type} [DecidableEq α] (d : α) (t : Tab α) (i : Nat) (f : α → α) : Tab α :=
  tabPut d t i (f (tabGet d t i))

/-- Every key of a list modified by one function of the key and the value. -/
def tabModAll {α : Type} [DecidableEq α] (d : α) (f : Nat → α → α) : List Nat → Tab α → Tab α
  | [], t => t
  | i :: is, t => tabModAll d f is (tabMod d t i (f i))

/-- Every entry of a table mapped, in canonical form. -/
def tabMap {α : Type} [DecidableEq α] (d : α) (f : α → α) (t : Tab α) : Tab α :=
  t.foldr (fun p m => tabPut d m p.1 (f p.2)) []

/-- The canonical form: above `lo`, keys rise strictly and no value is the default. -/
def tabWfFrom {α : Type} [DecidableEq α] (d : α) : Option Nat → Tab α → Bool
  | _, [] => true
  | lo, (k, v) :: t =>
    (match lo with
     | none => true
     | some l => decide (l < k)) && decide (v ≠ d) && tabWfFrom d (some k) t

/-- The canonical form of a table. -/
def tabWf {α : Type} [DecidableEq α] (d : α) (t : Tab α) : Bool := tabWfFrom d none t

/-- A run of values written at consecutive keys. -/
def tabPutMany {α : Type} [DecidableEq α] (d : α) : Tab α → Nat → List α → Tab α
  | t, _, [] => t
  | t, i, v :: vs => tabPutMany d (tabPut d t i v) (i + 1) vs

/-- A run of values read from consecutive keys. -/
def tabGetMany {α : Type} (d : α) (t : Tab α) (i n : Nat) : List α :=
  (List.range n).map fun j => tabGet d t (i + j)

end Sys2Proof.Machine
end

