-- ==== Sys2Proof/Machine/PowerState.lean ====
section
/-! DEFINITION. State of the supplies, pins, power domains, adaptive supply, margin ledger, keep store and check units
(spec/17_check_units.md, spec/18_keep_store_identity.md, spec/19_power_ageing.md, spec/22_electrical_package.md). -/
namespace Sys2Proof.Machine

/-- The nine supply rails (R488). -/
inductive Rail where
  | vddCore | vddSram | vddAon | vddLane | vddLaneHv | vddHbm | vddqHbm | vddIo | vppKeep
deriving DecidableEq, Repr, Inhabited

/-- Which rails are within their operating range (R488). -/
structure Rails where
  vddCore : Bool := true
  vddSram : Bool := true
  vddAon : Bool := true
  vddLane : Bool := true
  vddLaneHv : Bool := true
  vddHbm : Bool := true
  vddqHbm : Bool := true
  vddIo : Bool := true
  vppKeep : Bool := true
deriving DecidableEq, Repr, Inhabited

/-- Clocks and counts of the device. `now` is the model's own monotone count of ticks, the base of every timer. -/
structure Clock where
  /-- The tick count since the last release of RESET_N (R8). -/
  tick : Nat := 0
  /-- Ticks since D0 was powered; never restarts. -/
  now : Nat := 0
  /-- The model's own counter of free values drawn. -/
  free : Nat := 0
  /-- No strobe has come since the release of RESET_N, so the next one is tick 0 (R319). -/
  awaitFirst : Bool := true
deriving DecidableEq, Repr, Inhabited

/-- Pins and board conditions (R488 to R498). -/
structure Pins where
  /-- RESET_N is high (released). -/
  resetReleased : Bool := true
  rails : Rails := {}
  /-- OSC_IN has an edge within 1 us (R494). -/
  oscPresent : Bool := true
  /-- The instant of its last return (R492); none where it has run since before the machine's first instant. -/
  oscSince : Option Nat := none
  /-- Last instant the VDD_CORE monitor flagged (R494, R495). -/
  vddFlagAt : Option Nat := none
  /-- Last instant OSC_IN was lost (R494, R495). -/
  oscLostAt : Option Nat := none
  /-- THERMTRIP_N is asserted and latched (R496). -/
  thermTrip : Bool := false
deriving DecidableEq, Repr, Inhabited

/-- Power-domain states (R446). -/
inductive DomState where
  | off | poweringUp | enabled | draining | poweringDown | absent | fault
deriving DecidableEq, Repr, Inhabited

/-- One power domain (R446 to R450). -/
structure Dom where
  state : DomState := .off
  /-- An accepted request to come up waits for the end of a transition or for the sequencer (R450). -/
  pendUp : Bool := false
  /-- An accepted request to go down waits for the end of a power-up (R450). -/
  pendDown : Bool := false
  /-- The domain is powered and held in reset by RESET_N; the sequence initialises it in place (R447, R493). -/
  inPlace : Bool := false
  /-- The drain has ended and the domain waits for the sequencer (R448). -/
  drained : Bool := false
  /-- An automatic power-cycle of an MP domain is under way (R403, R450). -/
  cycling : Bool := false
  /-- Instant at which the present switching began, or the last one ended (R451). -/
  since : Nat := 0
deriving DecidableEq, Repr, Inhabited

/-- The domain sequencer (R447 to R450). -/
structure Power where
  dom : Tab Dom := [(0, { state := .enabled })]
  /-- DOM_EVENT: DONE_d in bit d, SEQ_DONE in bit 30 (R446). -/
  domEvent : Word := 0
  /-- DEV_STATUS.SEQ_RUNNING: the start-up sequence is in progress (R479). -/
  seqRunning : Bool := true
  /-- Domains still to come in the running sequence, in order (R447). -/
  seqRest : List Nat := []
  /-- The sequence has started since the last release of RESET_N. -/
  seqStarted : Bool := false
  /-- Requests accepted and waiting for the sequencer, in order (R448): domain and whether its switch closes. -/
  waiting : List (Nat × Bool) := []
  /-- The domain that is switching, one at most (R448). -/
  switching : Option Nat := none
  /-- Instant at which the last switch completed (R451). -/
  switchDoneAt : Nat := 0
  /-- BOOT_DOMAINS (R447); a setting of the keep store, every bit set by default. -/
  bootDomains : Word := 0x3FFFFFFF
deriving DecidableEq, Repr, Inhabited

/-- AVS_STATE (R452). -/
inductive AvsState where
  | tracking | held | atLimit | busFault
deriving DecidableEq, Repr, Inhabited

/-- One reading of a PMBus regulator (R452). -/
structure Regulator where
  addr : Nat := 0
  vout : Nat := 0
  iout : Nat := 0
  temp : Nat := 0
  status : Nat := 0
deriving DecidableEq, Repr, Inhabited

/-- The adaptive supply and the junction temperature (R451, R452, R479). -/
structure Avs where
  /-- VDD_CORE set point in units of 2.5 mV: 300 is 0.750 V (R488), 280 to 320 the range of R451. -/
  setPoint : Nat := 300
  /-- The loop has taken over at the end of the start-up sequence (R488). -/
  running : Bool := false
  busFault : Bool := false
  /-- The instant of the loop's last step (R451). -/
  stepAt : Option Nat := none
  /-- Last S_MIN in 1/16 ps and its sensor (R451). -/
  sMin : Int := 0
  sMinSensor : Nat := 0
  /-- Instant since which the set point has stood at 0.800 V with S_MIN below target (R454). -/
  limitSince : Option Nat := none
  /-- DEV_THERMAL: TJ in 1/16 degree and SITE (R479). -/
  tj : Int := 0
  site : Nat := 0
  regs : List Regulator := []
deriving DecidableEq, Repr, Inhabited

/-- One wear sensor's hourly ledger figures (R453). -/
structure Sensor where
  /-- Hourly mean of live slack, 1/16 ps, and the figures derived from it. -/
  s : Int := 0
  now : Int := 0
  needV : Int := 0
  rate : Int := 0
  yearsLeft : Nat := 0xFFFF
deriving DecidableEq, Repr, Inhabited

/-- The margin ledger's live side (R453, R454); its stored side lies in the keep store. -/
structure Ageing where
  sensors : Tab Sensor := []
  /-- HEADROOM in 1/100 mV, and the worst sensor. -/
  headroom : Int := 0
  worst : Nat := 0
  /-- AGEING_LIMIT has been raised and not yet re-armed (R454). -/
  limitRaised : Bool := false
  /-- Hours in a row for which HEADROOM has been positive (R454). -/
  positiveHours : Nat := 0
  /-- Days since first start, as the ledger counts them (R453). -/
  day : Nat := 0
  /-- Cluster under the built-in suite and the instant it started (R456). -/
  testing : Option (Nat × Nat) := none
  /-- Passed runs and the instant of the last one, by retired cluster (R456). -/
  passes : Tab (Nat × Nat) := []
deriving DecidableEq, Repr, Inhabited

/-- One keep-store word: value, wear counter and whether its code reads as uncorrectable (R435 to R437). `holds` is the model's own: what the value says
of the settings packed in it, by the opcode of their command, the packing being internal to the firmware (R440). -/
structure Cell where
  value : Word := 0
  wear : Nat := 0
  corrupt : Bool := false
  holds : Tab (List Int) := []
deriving DecidableEq, Repr, Inhabited

/-- Who asked for a keep-store write (R438). -/
inductive KeepSource where
  | nonce | mp | host
deriving DecidableEq, Repr, Inhabited

/-- A pending keep-store write (R438). `since` starts the 100 ms of R493; `holds` is what it says of the settings packed in
the word, as in Cell. -/
structure KeepWrite where
  source : KeepSource := .mp
  word : Nat := 0
  value : Word := 0
  since : Nat := 0
  holds : List (Nat × List Int) := []
deriving DecidableEq, Repr, Inhabited

/-- The keep store and its host window (R435 to R443). -/
structure Keep where
  /-- Identity word 1 reads SILICON_REV B0 and VARIANT A and word 28 the IDENT_CHECK of words 0 to 27; every other word reads zero and
  unwritten (the log). -/
  cells : Tab Cell := [(1, { value := 0x0000000000580080, wear := 1 }), (28, { value := 0x00000000C80201C4, wear := 1 })]
  nonceQ : List KeepWrite := []
  mpQ : List KeepWrite := []
  hostQ : List KeepWrite := []
  /-- The write in progress and the instant it started (R435). -/
  active : Option KeepWrite := none
  startedAt : Nat := 0
  /-- KS_ADDR.WORD (R443). -/
  addr : Nat := 0
  /-- KS_STATUS.RESULT (R443). -/
  result : Nat := 0
deriving DecidableEq, Repr, Inhabited

/-- One software check unit (R431). -/
structure ChkUnit where
  width : Nat := 32
  compat : Bool := false
  refin : Bool := false
  refout : Bool := false
  bytes : Nat := 8
  poly : Word := 0x1EDC6F41
  init : Word := 0xFFFFFFFF
  xorout : Word := 0xFFFFFFFF
  value : Word := 0
deriving DecidableEq, Repr, Inhabited

/-- The check-value block (R426 to R434). -/
structure Chk where
  units : Tab ChkUnit := []
  /-- CHK_PIPE_CNT: CHECK_FAIL_ALL and CHECK_ONLY (R430). -/
  failAll : Nat := 0
  only : Nat := 0
deriving DecidableEq, Repr, Inhabited

end Sys2Proof.Machine
end

