-- ==== Sys2Proof/Machine/ControlState.lean ====
section
/-! DEFINITION. State of the mailboxes, the management processors, the firmware banks, the event log, interrupts, MCTP,
the AEAD engine and the device's keys (spec/15_mailboxes_firmware.md, spec/16_security_engine.md, spec/21_register_map.md). -/
namespace Sys2Proof.Machine

/-- MB_STATUS.STATE (R378). -/
inductive MbState where
  | idle | done | posted | running
deriving DecidableEq, Repr, Inhabited

/-- One mailbox (R378). -/
structure Mailbox where
  opcode : Nat := 0
  tag : Nat := 0
  paramWords : Nat := 0
  st : MbState := .idle
  status : Nat := 0
  resultWords : Nat := 0
  detail : Nat := 0
  postTick : Nat := 0
  doneTick : Nat := 0
  /-- MB_DATA[0..119]. -/
  data : Tab Word := []
deriving DecidableEq, Repr, Inhabited

/-- A background operation of an L command (R381). -/
inductive Background where
  | xtSurvey (group near since : Nat)
  | planSave (image : List Word)
  | writeBank (bank : Nat)
  | commitBank (bank : Nat)
  | marginScan (lane near : Nat)
  | clusterTest (cluster : Nat)
deriving DecidableEq, Repr, Inhabited

/-- The mailbox block (R376 to R385). -/
structure Mailboxes where
  box : Tab Mailbox := []
  background : List Background := []
  /-- The near-store result of each mailbox: offset, and its words (R385). -/
  results : Tab (Nat × List Word) := []
deriving DecidableEq, Repr, Inhabited

/-- Role of a management processor, coded as R507. -/
inductive Role where
  | off | running | standby | romLoader
deriving DecidableEq, Repr, Inhabited

/-- A firmware image as the device reports it (R399). -/
structure Image where
  release : Nat := 0
  build : Nat := 0
  sec : Nat := 0
  hash : List Word := []
deriving DecidableEq, Repr, Inhabited

/-- Bank states (R401). -/
inductive BankState where
  | empty | invalid | valid | boot | trial
deriving DecidableEq, Repr, Inhabited

/-- A flash bank (R398, R401). -/
structure Bank where
  state : BankState := .empty
  image : Image := {}
deriving DecidableEq, Repr, Inhabited

/-- Where a core's image comes from: bank 0 A or 1 B, or the stage (R401). -/
structure Core where
  role : Role := .off
  ready : Bool := false
  takeovers : Nat := 0
  /-- 0 none, 1 watchdog, 2 hand-over, 3 revert (R507). -/
  lastCause : Nat := 0
  bank : Nat := 0
  fromStage : Bool := false
  image : Image := {}
deriving DecidableEq, Repr, Inhabited

/-- An armed hand-over (R401). -/
structure FwArmed where
  sf : Nat := 0
  source : Nat := 0
  moves : Nat := 0
deriving DecidableEq, Repr, Inhabited

/-- The management processors and their firmware (R376, R377, R398 to R404). -/
structure Mp where
  coreA : Core := {}
  coreB : Core := {}
  /-- The running core serves mailboxes: it has finished booting (R400). -/
  serving : Bool := false
  /-- The core that boots or runs: 0 MP-A, 1 MP-B. -/
  runner : Nat := 0
  lastKick : Nat := 0
  /-- Journal entries posted by the running core and applied by the standby (R377). -/
  journalPosted : Nat := 0
  journalApplied : Nat := 0
  bankA : Bank := { state := .boot, image := { release := 0x0402 } }
  bankB : Bank := {}
  /-- The stage: the image that `firmware.verify` passed, until FW_STAGE is written (R401). -/
  stage : Option Image := none
  armed : Option FwArmed := none
  /-- The running image is on trial from the stage and lies in no bank yet (R401). -/
  stageTrial : Bool := false
  /-- `firmware.revert` waits for the next superframe boundary (R401). -/
  revertDue : Bool := false
  /-- The boot-plan region of the flash (R398); all ones is held as the empty list. -/
  bootPlan : List Word := []
  /-- The next start of the two cores follows a reset, so the boot plan is due (R391). -/
  bootPlanDue : Bool := true
deriving DecidableEq, Repr, Inhabited

/-- One event of the log (R394). -/
structure Event where
  code : Nat := 0
  object : Nat := 0
  tick : Nat := 0
deriving DecidableEq, Repr, Inhabited

/-- One MSI-X table entry (R362, R486). -/
structure Msix where
  addr : Word := 0
  data : Nat := 0
  masked : Bool := true
  pend : Bool := false
deriving DecidableEq, Repr, Inhabited

/-- Interrupts and the event log (R362, R394, R480 to R482). -/
structure Irq where
  /-- The W1C bits 9 to 13 of INT_CAUSE, in place (R480). -/
  cause : Word := 0
  mask : Word := 0x3FFF
  vector : Nat := 0
  mbDone : Word := 0
  msix : Tab Msix := []
  log : List Event := []
  overflow : Nat := 0
  /-- MCTP endpoint identifier (R396). -/
  eid : Nat := 0
  /-- MCTP_ADDR setting (R396). -/
  mctpAddr : Nat := 0x62
deriving DecidableEq, Repr, Inhabited

/-- The register copy of one requester's port (R410). -/
structure AeadPort where
  op : Nat := 0
  ccm : Bool := false
  slot : Nat := 0
  target : Nat := 0
  tagLen : Nat := 0
  adLen : Nat := 0
  textLen : Nat := 0
  src : Word := 0
  dst : Word := 0
  nonceH : Word := 0
  nonceL : Nat := 0
  kEpoch : Nat := 0
  kSize : Bool := false
  kSel : Nat := 0
  key : List Word := [0, 0, 0, 0]
  floor : Word := 0
deriving DecidableEq, Repr, Inhabited

/-- AEAD_STATUS.STATE (R410). -/
inductive AeadState where
  | idle | running | done
deriving DecidableEq, Repr, Inhabited

/-- What a RUNNING operation holds: the registers and the key it copied at its start (R414). -/
structure AeadRun where
  requester : Nat := 0
  port : AeadPort := {}
  key : List Word := []
  size : Bool := false
  epoch : Nat := 0
  /-- Result already decided at START (R412); none: the operation does its work. -/
  verdict : Option Nat := none
  nonceH : Word := 0
  nonceL : Nat := 0
deriving DecidableEq, Repr, Inhabited

/-- One key slot (R413). -/
structure Slot where
  key : Option (List Word) := none
  /-- False AES-128, true AES-256. -/
  size : Bool := false
  epoch : Nat := 0
  counter : Nat := 0
deriving DecidableEq, Repr, Inhabited

/-- The AEAD engine, its key slots and the DRBG (R405 to R423). -/
structure Aead where
  owner : Nat := 0
  /-- QUEUE: bit i - 1 while requester i waits. -/
  queue : List Nat := []
  revoked : Bool := false
  /-- The beacon sequencer's claim holds the lock or waits for the running operation (R408). -/
  claim : Bool := false
  port : Tab AeadPort := []
  st : AeadState := .idle
  result : Nat := 0
  bytesDone : Nat := 0
  run : Option AeadRun := none
  /-- The DONE result's AEAD_STATUS has been read by the owner (R409). -/
  statusRead : Bool := false
  /-- Instant of the owner's last access or of the last operation's end (R409). -/
  lastUse : Nat := 0
  slot : Tab Slot := []
  /-- Ring word the next nonce mark goes to, counted from word 3072 (R417). -/
  markNext : Nat := 0
  /-- Lock grants per requester, revocations, idle releases, AEAD_MISMATCH (R507). -/
  grants : Tab Nat := []
  revocations : Nat := 0
  idleReleases : Nat := 0
  mismatch : Nat := 0
  drbgHalted : Bool := false
  drbgRequests : Nat := 0
deriving DecidableEq, Repr, Inhabited

/-- A pending key rotation of a set of circuits (R420). -/
structure Rotation where
  circuits : List Nat := []
  keyIdx : Nat := 0
  startSf : Nat := 0
deriving DecidableEq, Repr, Inhabited

/-- Circuit keys and join keys (R420, R421). -/
structure Sec where
  /-- Circuit-key index of each circuit; CK1 where none is listed (R420). -/
  circuitKey : Tab Nat := []
  rotations : List Rotation := []
  /-- The circuit keys wrapped under STORE in the records region, by KEY_IDX: KEY_EPOCH, then the wrapping's counter and six words (R420). -/
  wrapped : Tab (List Word) := []
  /-- Device-wide key epoch count, a keep-store setting (R420). -/
  epochCount : Nat := 1
  /-- Join keys wrapped under STORE, by EP_ID (R421). -/
  joinKeys : Tab (List Word) := []
deriving DecidableEq, Repr, Inhabited

end Sys2Proof.Machine
end

