-- ==== Sys2Proof/Machine/HostState.lean ====
section
/-! DEFINITION. State of the host attachment, the device memories, the bulk port and the ledgers
(spec/14_host_attachment.md, spec/20_guarantees_recovery.md). -/
namespace Sys2Proof.Machine

/-- Ring states (R365), coded as R507. -/
inductive RingState where
  | disabled | enabled | draining | fault
deriving DecidableEq, Repr, Inhabited

/-- A MAC frame: the fields of R270 and the bytes between the header and the check. -/
structure Frame where
  ftype : Nat := 0
  dest : Nat := 0
  src : Nat := 0
  seq : Nat := 0
  flags : Nat := 0
  keyIdx : Nat := 0
  body : List Byte := []
deriving DecidableEq, Repr, Inhabited

/-- A received frame as the frame engine holds it (R31, R132, R359). -/
structure RxFrame where
  circuit : Nat := 0
  /-- 1 Class T, 2 Class A, 3 Class D (R359). -/
  cls : Nat := 0
  frame : Frame := {}
  rssi : Int := 0
  snr : Int := 0
  eqSinr : Int := 0
  /-- Low 16 bits of the tick in which the frame was accepted. -/
  tick : Nat := 0
deriving DecidableEq, Repr, Inhabited

/-- A transmit frame accepted from a descriptor (R355, R356). -/
structure TxFrame where
  /-- The ring it came from; 256 once that ring's configuration is lost (R366). -/
  ring : Nat := 0
  index : Nat := 0
  bytes : List Byte := []
  circuit : Nat := 0
  dest : Nat := 0
  ackReq : Bool := false
  express : Bool := false
  /-- Instant of its express doorbell (R266, R363). -/
  rung : Nat := 0
  /-- SEQ of the last transmission, none before the first (R357). -/
  seq : Option Nat := none
  /-- Superframes for which it has not fitted at the endpoint's setting (R358). -/
  unfit : Nat := 0
deriving DecidableEq, Repr, Inhabited

/-- One transmit or receive ring (R354 to R366). -/
structure Ring where
  state : RingState := .disabled
  /-- ENABLE arrived while DRAINING and applies after the drain (R365). -/
  enableDue : Bool := false
  base : Word := 0
  size : Nat := 0
  wb : Word := 0
  vector : Nat := 0
  modCount : Nat := 0
  modTicks : Nat := 0
  xdb : Option Nat := none
  history : Bool := false
  tail : Nat := 0
  /-- FETCH_HEAD of a transmit ring, DONE_HEAD of a receive ring. -/
  head : Nat := 0
  /-- Fault cause coded as R507. -/
  cause : Nat := 0
  unsignalled : Nat := 0
  oldest : Nat := 0
  /-- Accepted receive frames waiting for a buffer (R361). -/
  held : List RxFrame := []
  /-- Accepted transmit frames not yet complete. -/
  accepted : Nat := 0
  /-- Descriptor indices posted by the express doorbell and not yet fetched, with the doorbell's instant (R363). -/
  express : List (Nat × Nat) := []
  noBuf : Nat := 0
deriving DecidableEq, Repr, Inhabited

/-- The host link and rings (R345 to R375). -/
structure HostLink where
  up : Bool := false
  /-- The present link-up chose the PCIe personality (R348). -/
  pcieOnly : Bool := false
  ideActive : Bool := false
  /-- IDE_REQUIRED as it stood at the present link-up (R375, R388). -/
  ideNeeded : Bool := false
  /-- A MAC check has failed since keys were last programmed (R374). -/
  ideFailed : Bool := false
  /-- The HDM decoder is committed, and the host address it begins at (R351, R354). -/
  hdmCommitted : Bool := false
  hdmBase : Nat := 0
  tx : Tab Ring := []
  rx : Tab Ring := []
  /-- Transmit ring bound to each express doorbell. -/
  xdb : Tab (Option Nat) := []
  /-- Receive ring steered for (circuit * 4096 + address), address 0xFFF the circuit default (R360). -/
  steer : Tab (Option Nat) := []
  /-- The ring that the round robin of transmit rings served last (R357). -/
  txTurn : Nat := 255
  /-- HOST_MODE setting: true PCIE_ONLY; IDE_REQUIRED; CAPTURE_GIB; HISTORY_GIB. -/
  hostMode : Bool := false
  ideRequired : Bool := false
  captureGib : Nat := 4
  historyGib : Nat := 1
deriving DecidableEq, Repr, Inhabited

/-- The capture ring (R372). -/
structure Capture where
  armed : Bool := false
  frozen : Bool := false
  /-- Circuits and the directions recorded: bit 0 up, bit 1 down. -/
  circuits : List (Nat × Nat) := []
  trigger : Nat := 0
  trigCircuit : Nat := 0
  postTicks : Nat := 0
  writeIdx : Nat := 0
  triggerTick : Nat := 0
  /-- Instant at which the ring freezes, once triggered. -/
  freezeAt : Option Nat := none
deriving DecidableEq, Repr, Inhabited

/-- Near store, granary, bulk port, capture and history (R351 to R353, R368 to R373). -/
structure Memory where
  /-- Near-store bytes; the near store is cleared when D28 powers up (R447). -/
  near : Tab Byte := []
  /-- PLAN_STAGE, 256 KiB of the near store. -/
  planStage : Tab Byte := []
  /-- Granary bytes by offset. -/
  granary : Tab Byte := []
  /-- Poison markers by 64-byte line (R368). -/
  poison : Tab Bool := []
  /-- GENERATION of the region table, and the sizes in force since the last reset (R352). -/
  generation : Nat := 0
  captureMib : Nat := 4096
  historyMib : Nat := 1024
  /-- BULK_ADDR, BULK_CTL and BULK_STATUS (R370). -/
  target : Nat := 0
  offset : Nat := 0
  autoInc : Bool := false
  err : Bool := false
  errCode : Nat := 0
  /-- A BULK_DATA access came while D28 was not ENABLED (R487). -/
  busyDue : Bool := false
  cap : Capture := {}
  /-- HISTORY header: WRITE_OFFSET and WRAPS (R373). -/
  histOffset : Nat := 0
  histWraps : Nat := 0
  /-- HDM_VIOL_ADDR and HDM_VIOL_CNT (R484). -/
  violValid : Bool := false
  violAddr : Nat := 0
  violCount : Nat := 0
deriving DecidableEq, Repr, Inhabited

/-- PAIR_STATUS roles (R459, R463). -/
inductive PairRole where
  | unpaired | candidate | active | standby | isolated
deriving DecidableEq, Repr, Inhabited

/-- What the partner's journal says of one transmit frame (R466): its acceptance, the SEQ assigned and its completion status. -/
structure TxJournal where
  ring : Nat := 0
  index : Nat := 0
  circuit : Nat := 0
  dest : Nat := 0
  len : Nat := 0
  seq : Option Nat := none
  status : Option Nat := none
deriving DecidableEq, Repr, Inhabited

/-- The delivery point of an endpoint as the partner journals it: every uplink up to this SEQ has been delivered (R466). -/
structure RxJournal where
  circuit : Nat := 0
  src : Nat := 0
  seq : Nat := 0
deriving DecidableEq, Repr, Inhabited

/-- The redundant pair and the ledgers (R459 to R468). -/
structure Pair where
  role : PairRole := .unpaired
  /-- SB_STATE: 1 SYNCING, 2 READY, 0 outside STANDBY (R459). -/
  sbState : Nat := 0
  /-- PAIR_PORTS: peer ports that accepted a peer frame in the last tick (R459). -/
  ports : List Nat := []
  /-- The device has been TRACKING once, so TICK_TAG is checked (R462). -/
  tracked : Bool := false
  /-- Tags of accepted markers, newest first, as far back as R464 looks. -/
  markers : List Nat := []
  takeovers : Nat := 0
  splits : Nat := 0
  cellLost : Nat := 0
  /-- Failed marker checks in a row (R464). -/
  missed : Nat := 0
  /-- The device took over and tests for followers (R468). -/
  afterTakeover : Bool := false
  noFollower : Nat := 0
  /-- Halves of the partner's DEVICE_ID as received (R461). -/
  partnerHi : Option Nat := none
  partnerLo : Option Nat := none
  /-- Instant at which the role was entered (R463). -/
  since : Nat := 0
  /-- Journal cells waiting for the peer frames, and the partner's slot counters as mirrored (R425, R461). -/
  outCells : List (List Word) := []
  mirror : Tab Nat := []
  /-- Instant of the last accepted peer frame since the role was entered (R463). -/
  lastPeerFrame : Option Nat := none
  /-- A checkpoint request goes out in the next peer frame (R462, R463). -/
  request : Bool := false
  /-- Both devices are ACTIVE at once, and SPLITS has counted it (R468). -/
  split : Bool := false
  /-- Cells sent and received per peer port (R462). -/
  txCells : Tab Nat := []
  rxCells : Tab Nat := []
  /-- Journal entries for transmit frames that this device has not fetched yet (R466). -/
  journal : List TxJournal := []
  /-- LEDGER_STATUS[4:0] and CHECK_SF (R459). -/
  ledger : Word := 0
  checkSf : Nat := 0
  /-- LEDGER_CREDIT: CHECKS, FAILS, SKIPPED (R459). -/
  checks : Nat := 0
  fails : Nat := 0
  skipped : Nat := 0
  /-- HF_ACCEPTED, HF_DELIVERED, HF_RETURNED, live, and as latched at the last check (R311, R459). -/
  hfAccepted : Nat := 0
  hfDelivered : Nat := 0
  hfReturned : Nat := 0
  hfHeld : Nat := 0
  /-- HF_LEDGER_FAIL (R311), saturating. -/
  hfFails : Nat := 0
  latched : List Nat := [0, 0, 0, 0]
deriving DecidableEq, Repr, Inhabited

end Sys2Proof.Machine
end

