-- ==== Sys2Proof/Machine/TimeState.lean ====
section
/-! DEFINITION. State of the time-keeping unit, its sources, the evidence ring and the mains-locked superframe
(spec/11_superframe.md, spec/13_time_service.md). Times are in ticks of `Clock.now`, phase errors in 1/16 ns. -/
namespace Sys2Proof.Machine

/-- TKU states (R320, R327). -/
inductive TkuState where
  | acquire | locked | holdover | tracking
deriving DecidableEq, Repr, Inhabited

/-- One time source (R322 to R325, R506). -/
structure Source where
  qualified : Bool := false
  /-- Consecutive good edges, offsets or exchanges towards qualification. -/
  run : Nat := 0
  /-- Phase error, device time minus source time, in 1/16 ns. -/
  phase : Int := 0
  /-- Bound in ns. -/
  bound : Nat := 0
  /-- A measurement has been taken since the last selection (R339). -/
  fresh : Bool := false
  /-- Seconds for which the source has been eligible without a break (R323). -/
  eligibleFor : Nat := 0
  /-- The source has lost qualification, so rule 2 of R323 applies to it. -/
  hadLoss : Bool := false
  /-- Disqualified for 60 s after a jump, and since when (R324). -/
  disq : Bool := false
  disqAt : Nat := 0
  /-- Instant of the last edge, exchange or offset (R322). -/
  lastAt : Nat := 0
  traceable : Bool := false
  /-- HOST: the second of the last offset (R322, R325). -/
  lastSec : Option Nat := none
deriving DecidableEq, Repr, Inhabited

/-- The TOD label counting of one PPS pair (R329, R330, R506). -/
structure Labels where
  /-- TAI seconds of the last edge, once known. -/
  sec : Option Nat := none
  /-- A valid label waiting for its edge: seconds, QUAL. -/
  waiting : Option (Nat × Nat) := none
  /-- Consecutive labels that disagree with the count and agree with each other, and the difference they show. -/
  mismatchRun : Nat := 0
  mismatchBy : Int := 0
  /-- Seconds since the newest accepted message that labels the pair, and bit 5 of its QUAL (R506). -/
  todAge : Nat := 4
  todTrace : Bool := false
deriving DecidableEq, Repr, Inhabited

/-- The oscillator ageing model (R326). -/
structure Model where
  fitTime : Nat := 0
  f0 : Int := 0
  age : Int := 0
  uf : Nat := 0
  ua : Nat := 0
deriving DecidableEq, Repr, Inhabited

/-- The device-scope time settings (R344), in the units of the table's rows as R384 codes them. -/
structure TimeSettings where
  /-- Source codes in order of priority (R392). -/
  priority : List Nat := [1, 2, 3, 4]
  ppsDelay0 : Nat := 0
  ppsDelay1 : Nat := 0
  srcBound0 : Nat := 13
  srcBound1 : Nat := 13
  srcTrace0 : Bool := false
  srcTrace1 : Bool := false
  maxSrcBound : Nat := 50
  hostMaxBound : Nat := 1000
  jumpLimit : Nat := 1000
  loopTc : Nat := 100
  traceLimit : Nat := 20
  ppsWidth : Nat := 100000
  outComp0 : Nat := 0
  outComp1 : Nat := 0
  squelch : Bool := true
deriving DecidableEq, Repr, Inhabited

/-- The time-keeping unit (R317 to R331). -/
structure Tku where
  /-- Device time of the latest tick strobe in whole microseconds. -/
  devUs : Nat := 0
  freqAdj : Int := 0
  state : TkuState := .acquire
  /-- 0 none, 1 PPS0, 2 PPS1, 3 PEER, 4 HOST (R320). -/
  selected : Nat := 0
  events : Word := 0
  holdSeconds : Nat := 0
  src : Tab Source := []
  labels : Tab Labels := []
  /-- Consecutive seconds of ACQUIRE with the phase error within 10 ns (R327). -/
  acqRun : Nat := 0
  /-- PEER is forced: the device joins as a standby (R327, R338). -/
  peerForced : Bool := false
  /-- Consecutive seconds within 2 ns towards TRACKING (R338). -/
  trackRun : Nat := 0
  /-- B_TKU at entry to HOLDOVER in 1/16 ns, whether it was known, the source's traceability then, and U_F and U_A in force (R326). -/
  holdEntry : Option Nat := none
  holdTrace : Bool := false
  model : Option Model := none
  /-- Whole microseconds still to be stepped at the next tick strobe (R318). -/
  stepUs : Int := 0
  /-- `time.set_tai` has set the seconds of device time (R329, R344). -/
  taiSet : Bool := false
  /-- Seconds accepted from `time.set_tai` and not yet applied (R344). -/
  taiDue : Option Nat := none
  utcOffset : Int := 0
  leap : Nat := 0
  leapAt : Nat := 0
  /-- TCAP registers (R320). -/
  capDone : Bool := false
  gpioSel : Nat := 0
  armGpio : Bool := false
  capH : Word := 0
  capL : Word := 0
  capTick : Word := 0
  switches : Nat := 0
  jumps : Nat := 0
  todErr : Nat := 0
  todMismatch : Nat := 0
  steps : Nat := 0
  settings : TimeSettings := {}
  /-- Settings accepted and waiting for the next second (R344). -/
  settingsDue : Option TimeSettings := none
  /-- PEER_ROLE of Q0 to Q3: 0 OFF, 1 PAIR, 2 TIME_PEER (R344). -/
  peerRole : List Nat := [0, 0, 0, 0]
  /-- Roles accepted and waiting for the next second (R344). -/
  peerRoleDue : Option (List Nat) := none
  /-- Offsets of the present second measured on the peer link in 1/16 ns (R338, R341). -/
  peerOffsets : List Int := []
  /-- The partner's TIME_QUAL and SELECTED as last received (R322, R341, R461). -/
  partnerQual : Nat := 0
  partnerSelected : Nat := 0
  /-- Seconds LOCKED on a PPS or PEER source without a break, less 24 hours for each model written since (R326). -/
  lockedFor : Nat := 0
  /-- FREQ_ADJ of the last 100 s, newest first (R326). -/
  freqLog : List Int := []
deriving DecidableEq, Repr, Inhabited

/-- The evidence ring (R342, R343, R485). -/
structure Evidence where
  named : Bool := false
  base : Word := 0
  count : Nat := 0
  prod : Nat := 0
  cons : Nat := 0
  /-- RECORD_SEQ of the next record, and the last mark written (R343). -/
  seq : Nat := 0
  mark : Nat := 0
  started : Bool := false
  prevHash : List Word := []
  /-- Records due, oldest first: the device second and the words that describe it, without RECORD_SEQ, the hash and the signature; and the
  events collected for the second in progress (R342). -/
  due : List (Nat × List Word) := []
  eventsSec : Word := 0
deriving DecidableEq, Repr, Inhabited

/-- Superframe timer states (R263), coded as SYNC_STATE. -/
inductive SfState where
  | free | slewing | locked
deriving DecidableEq, Repr, Inhabited

/-- One grant entry (R281): the slots, the class and the endpoint of a grant on a circuit. -/
structure Grant where
  circuit : Nat := 0
  slot : Nat := 0
  slots : Nat := 0
  gtype : Nat := 0
  addr : Nat := 0
  arg : Nat := 0
deriving DecidableEq, Repr, Inhabited

/-- A reference circuit's rising crossings (R261 to R263), in 1/16 ns on the base of `now`, which a step of device time moves (R318): the last one, the
last valid one and the tick in which it came, the last 8 valid periods with the newest first, and the run of valid ones. -/
structure Crossing where
  last : Option Int := none
  valid : Option Int := none
  validAt : Nat := 0
  periods : List Int := []
  good : Nat := 0
deriving DecidableEq, Repr, Inhabited

/-- The superframe timer and the grant lists (R260 to R288). -/
structure Sf where
  running : Bool := false
  /-- Superframe number; at power-up the stored mark, none, plus 2^20 (R264, R479). -/
  number : Nat := 1048576
  /-- Instant of T0 of the superframe in progress. -/
  t0 : Nat := 0
  len : Nat := 20000
  lenPrev : Nat := 20000
  lenNext : Option Nat := none
  state : SfState := .free
  /-- Last mark written or resumed (R264). -/
  mark : Nat := 0
  refs : Tab Crossing := []
  ref : Option Nat := none
  lockRun : Nat := 0
  phi : Int := 0
  period : Nat := 0
  mainsNom : Nat := 50
  mainsDue : Option Nat := none
  refList : List Nat := []
  anchor : Int := 0
  lockLoss : Nat := 0
  refSwitch : Nat := 0
  /-- The list handed for the next superframe, the list in force, the last list held (R37). -/
  handed : Option (List Grant) := none
  grants : List Grant := []
  grantsNext : List Grant := []
  /-- The beacons of the superframe in progress carried a STATE other than UNTRUSTED (R333). -/
  beaconTrusted : Bool := false
  lastList : List Grant := []
  reuse : Nat := 0
  /-- The grant list of the next superframe has closed (R44). -/
  closed : Bool := false
deriving DecidableEq, Repr, Inhabited

end Sys2Proof.Machine
end

