-- ==== Sys2Proof/Machine/LineState.lean ====
section
/-! DEFINITION. State of the plans and clusters, ports and lanes, circuits, feed links, the LDPC pool and the endpoint records
(spec/01 to spec/12). Times are in ticks of `Clock.now`, path delays in 1/16 ns. -/
namespace Sys2Proof.Machine

/-- Staged-slot states that the slot itself holds (R58); ADMITTING is the slot's state while a command that submits an image runs
(`Sys2Proof.Machine.admitting`). -/
inductive Stage where
  | empty | loaded | armed
deriving DecidableEq, Repr, Inhabited

/-- The plan slots, the substitutions and the clusters (R53 to R63). -/
structure Plans where
  /-- The image of the plan in force; empty when there is none. -/
  active : List Word := []
  staged : List Word := []
  stage : Stage := .empty
  armedSf : Nat := 0
  /-- Active cluster indices moved to a substitute physical cluster (R61). -/
  subst : List (Nat × Nat) := []
  /-- Retired physical clusters (R61, keep-store words 262 to 266). -/
  retired : List Nat := []
  /-- Overruns of each physical cluster in the present superframe (R61). -/
  overruns : Tab Nat := []
  /-- Clusters whose substitution is due at the next boundary (R24, R455). -/
  failing : List Nat := []
  /-- The qualifier queue of each active cluster: circuit and tick of the request (R49). -/
  queue : Tab (List (Nat × Nat)) := []
  /-- A plan has been activated since reset (R86). -/
  activated : Bool := false
  /-- In the first tick of a superframe that a swap began (R59): the image and the substitutions whose placements still run. -/
  old : Option (List Word × List (Nat × Nat)) := none
  /-- The sample-buffer area of each physical cluster's local memory (R18, R19, R55): by the buffer's address over 512, twice BUF_BASE and
  the half, its 250 words of 16 bits, the sample in [13:0]. -/
  localMem : Tab (Tab (List Nat)) := []
deriving DecidableEq, Repr, Inhabited

/-- Port states (R87), coded as R507. -/
inductive PortState where
  | off | bringup | active | standby | dormant | test
deriving DecidableEq, Repr, Inhabited

/-- Bring-up phases (R83). -/
inductive Phase where
  | acquire | exchange | tune | align | step | done
deriving DecidableEq, Repr, Inhabited

/-- Calibration states (R110), coded as R507. -/
inductive CalState where
  | identWait | calWait | measure | ready
deriving DecidableEq, Repr, Inhabited

/-- A downstream control message not answered yet (R105, R106). -/
structure Message where
  mtype : Nat := 0
  seq : Nat := 0
  cells : List (List Word) := []
  sends : Nat := 1
  /-- Instant of its last send (R106). -/
  sentAt : Nat := 0
deriving DecidableEq, Repr, Inhabited

/-- A bring-up that is asked for or under way (R84, R86, R87): by `port.retrain`, a full one at G1, a re-bring at the present
generation with stored presets, or one that a probe has started. -/
inductive Bring where
  | retrain | full | rebring | probe
deriving DecidableEq, Repr, Inhabited

/-- One serial lane (R65 to R91). -/
structure Lane where
  blockLock : Bool := false
  inverted : Bool := false
  /-- The last valid training word of the present phase (R81 to R83). -/
  train : Option Word := none
  /-- The receiver has completed TUNE, or ALIGN, in the present phase (R83). -/
  ready : Bool := false
  /-- The training word last sent in this bring-up (R81, R82). -/
  sentWord : Option Word := none
  /-- TUNE (R80): each preset of the partner's that has been judged with its eye, the request under way, and the words that have come since. -/
  eyes : List (Nat × Nat) := []
  request : Option Nat := none
  waited : Nat := 0
  /-- Latencies in UI and deskew in blocks of the present bring-up (R77). -/
  rxLatency : Nat := 0
  txLatency : Nat := 0
  deskew : Nat := 0
  /-- Stored presets of G1, G2, G3 and the pinned flags (R80), in keep-store word 268 + n. -/
  presets : List Nat := [1, 3, 7]
  pinned : List Bool := [false, false, false]
  blockErr : Nat := 0
  syncErr : Nat := 0
  lockLoss : Nat := 0
  bringupFail : Nat := 0
  prbsErr : Nat := 0
  /-- The PRBS checker (R89): locked, its register of the last 31 bits, and which of the last 64 bits were in error, the last one first. -/
  prbsLocked : Bool := false
  prbsReg : Nat := 0
  prbsSeen : List Bool := []
deriving DecidableEq, Repr, Inhabited

/-- One front-end or peer port; peer port Qm is port 32 + m (R87 to R119). -/
structure Port where
  state : PortState := .off
  /-- A DORMANT port probes, after a failure (R88), and its 10 ms of training frames are under way. -/
  probing : Bool := false
  probeOn : Bool := false
  /-- Present generation: 0 none, 1 to 3 (R70). -/
  gen : Nat := 0
  /-- Bring-up (R83, R84): its kind, phase, failed tries, swap of the lanes, own TAG, and a fall to the generation below. -/
  bring : Bring := .full
  phase : Phase := .acquire
  tries : Nat := 0
  swapped : Bool := false
  tag : Nat := 0
  fallen : Bool := false
  /-- COUNT of STEP (R82, R83). -/
  count : Nat := 7
  /-- PORT_CAPPED, with the generation the cap holds it at (R84). -/
  capped : Bool := false
  capGen : Nat := 3
  /-- Waits for its bring-up (R86). -/
  waiting : Option Bring := none
  /-- PRBS pattern 1 to 3 in TEST (R89). -/
  pattern : Nat := 0
  /-- Settings of the port word (R440): GEN_MAX, and SPREF_DELAY_NOM in 1/16 ns, -1 AUTO (R109). -/
  genMax : Nat := 3
  spref : Int := -1
  /-- TX_FS_LEVEL (R251) and FS_LEVEL (R145) in 0.25 dB steps. -/
  txFs : Nat := 120
  rxFs : Nat := 480
  /-- Last failure reason (R507): 0 none, 1 CLOCK_RULE, 2 MISWIRED, 3 to 8 a timeout. -/
  lastFail : Nat := 0
  /-- Upstream frames (R100): runs of missing and of accepted frames, DEGRADED, the frame of the running tick dealt with. -/
  missRun : Nat := 0
  goodRun : Nat := 0
  degraded : Bool := false
  landed : Bool := false
  /-- ROLE_ACTIVE of the last accepted frame: the front end follows this device (R93). -/
  follows : Bool := false
  frameOk : Nat := 0
  missed : Nat := 0
  tagSlip : Nat := 0
  cellLost : Nat := 0
  ledgerFail : Nat := 0
  pathDrift : Nat := 0
  txConflict : Nat := 0
  /-- Credits (R96, R101 to R104): own TX_CELLS, RX_CELLS, FREED and HELD, and the front end's FREED as last accepted. -/
  txCells : Nat := 0
  rxCells : Nat := 0
  freed : Nat := 0
  held : Nat := 64
  freedSeen : Nat := 0
  /-- Cells held of an upstream message that is not complete (R101, R103). -/
  part : Nat := 0
  /-- CRESET is to go out in the next downstream frame, or its echo is outstanding (R104). -/
  cresetDue : Bool := false
  creset : Bool := false
  /-- Own counters latched at the superframe's first tick, awaiting the front end's (R104): HELD, TX_CELLS, RX_CELLS, FREED,
  and the front end's FREED then seen. -/
  ledgerDue : Option (List Nat) := none
  /-- Cells queued for the downstream frames, and the messages that await an answer (R105, R106). -/
  cells : List (List Word) := []
  messages : List Message := []
  msgSeq : Nat := 0
  /-- The last PORT_CONFIG has been acknowledged as OK (R105, R110). -/
  configOk : Bool := false
  /-- The channel whose gain command was served last (R129). -/
  gainLast : Nat := 23
  /-- Calibration (R107 to R110): state, a calibration queued, one under way, and the record of the keep store. -/
  cal : CalState := .identWait
  calDue : Bool := false
  calRun : Bool := false
  /-- FE_SERIAL of the last IDENTITY, and the record. -/
  seenSerial : Word := 0
  feSerial : Word := 0
  calEpoch : Nat := 0
  calWords : List Word := []
  /-- Calibrated one-way lane delay P and SPREF_OUT delay d_ref, and the sums of the measurement under way, in 1/16 ns. -/
  path : Int := 0
  dRef : Int := 0
  /-- LAUNCH_OFFSET, and the launches L of the last frames by tag, both in 1/16 ns after the frame's strobe (R78, R107); `launch` is L of the frame last
  echoed. -/
  launchOffset : Nat := 0
  launches : List (Nat × Int) := []
  launch : Int := 0
  pathSum : Int := 0
  dRefSum : Int := 0
  pathCount : Nat := 0
  /-- 64 frames have been measured since MEASURE began. -/
  measured : Bool := false
  /-- A peer port's stamps (R338, R340, R461): arrivals of the partner's marks by tag, newest first; TS_TAG, launch and arrival as its last frame gave
  them, on a TIME_PEER port completed to device time. -/
  marks : List (Nat × Int) := []
  farTag : Nat := 0
  farLaunch : Int := 0
  farArrival : Int := 0
deriving DecidableEq, Repr, Inhabited

/-- Every port and lane, and the device-wide settings of chapters 3 and 4. -/
structure Ports where
  port : Tab Port := []
  lane : Tab Lane := []
  /-- Relays: source and destination circuit (R117). -/
  relays : List (Nat × Nat) := []
  /-- SPREAD (R67). -/
  spread : Nat := 0
  /-- RX_LEAD and TX_LAG in ns (R98). -/
  rxLead : Nat := 1600
  txLag : Nat := 1600
deriving DecidableEq, Repr, Inhabited

end Sys2Proof.Machine
end

