-- ==== Sys2Proof/Machine/CircuitState.lean ====
section
/-! DEFINITION. State of the circuits: receive front, receptions, chaff map, shaping, feed links, the LDPC pool and reassembly
(spec/05_receive_front.md to spec/10_transmit_shaping.md). Levels are in 1/16 dB, noise powers linear in 10^-6 square microvolts. -/
namespace Sys2Proof.Machine

/-- Class of an upstream frame (R121, R122). -/
inductive FrameClass where
  | measured | selfTx | stale
deriving DecidableEq, Repr, Inhabited

/-- AGC states (R128). -/
inductive AgcState where
  | acquire | track | frozen | fixed
deriving DecidableEq, Repr, Inhabited

/-- Receiver states (R138). -/
inductive RxState where
  | idle | candidate | preamble | header | payload
deriving DecidableEq, Repr, Inhabited

/-- A complex number: real and imaginary part. -/
abbrev Cx := Int × Int

/-- What is kept of one processed frame (R120, R134, R163, R185): its instant, its samples after the winnower and at gain step 0 (in 10^-6 of a code,
R130), the erasure mask, empty where the frame
was not MEASURED, and whether the whole tick is erased for the Class T or Class D function and for the seat (R24, R122, R126). -/
structure PastTick where
  at_ : Nat := 0
  xs : List Int := []
  mask : List Bool := []
  /-- Whether each of its last 8 samples was over the winnower's threshold (R123). -/
  over8 : List Bool := []
  deadT : Bool := false
  deadA : Bool := false
deriving DecidableEq, Repr, Inhabited

/-- A PPDU on its way (R155, R175): its class, 1 T and 2 A, the instant of the downstream frame at whose sample 0 it begins (R160, R181), its
header, and its payload's coded bits in the order sent. -/
structure Ppdu where
  cls : Nat := 1
  start : Nat := 0
  header : Word := 0
  coded : List Bool := []
deriving DecidableEq, Repr, Inhabited

/-- The candidate held by the shadow search (R139): its level, the instant of its detection, its place (see `Receiver.at_`)
and its phase and amplitude. -/
structure Held where
  level : Int := 0
  since : Nat := 0
  at_ : Nat := 0
  ref : Cx := (0, 0)
deriving DecidableEq, Repr, Inhabited

/-- One receiver: Class T, or the Class A reception on a seat (R132, R138, R139). Instants are `now` ticks. -/
structure Receiver where
  st : RxState := .idle
  /-- Instant of the trigger or detection, and the running preamble level. -/
  since : Nat := 0
  level : Int := 0
  /-- Where the reception lies, in half chips: for Class T the code phase modulo 510, and from sync on the first half chip of the present field; for
  Class A the half chip of chip 0. Half chip i of frame k is number 40 k + i of Class T and 100 k + i of Class A. -/
  at_ : Nat := 0
  /-- The carrier's phase and amplitude for each chip (R169, R185). -/
  ref : Cx := (0, 0)
  /-- Header bits decided, and the next symbol: of the present field for Class T, of the PPDU for Class A. -/
  bits : List Bool := []
  sym : Nat := 0
  /-- Moved onto a candidate, whose form no grant tells (R139, R184). -/
  moved : Bool := false
  /-- Class A: the 192 taps with 14 fraction bits, feed-forward, feedback, cross (R185 to R188), the last 32 decided symbols, newest first, and from
  the sync word on the sums of squared errors for each chip and of squared decided points, with 28 fraction bits, and their count (R186). -/
  taps : List Cx := []
  decided : List Cx := []
  errSum : Nat := 0
  powSum : Nat := 0
  count : Nat := 0
  /-- The stamp of the ranging peak taken at sync, and whether its span was spoiled (R143, R163). -/
  stamp : Option Int := none
  spanBad : Bool := false
  /-- Latched at sync: RSSI and SNR (R132), and for Class A the MSE (R191). -/
  rssi : Int := 0
  snr : Int := 0
  mseSync : Int := 0
  /-- The candidate held by the shadow search (R139). -/
  held : Option Held := none
  /-- The last shadow request of energy mode (R139). -/
  shadowAt : Nat := 0
  /-- The validated header, the training form, and the tick in which the last symbol is due (R140, R157, R177). -/
  header : Word := 0
  train : Bool := false
  endAt : Nat := 0
  /-- Codewords of the reception already queued, its reassembly entry, and the soft bits received after them (R158, R178). -/
  queued : Nat := 0
  entry : Nat := 0
  soft : List Int := []
  /-- A Class A correlator closed by an abort stays closed to this instant, the end of its slot (R136). -/
  closedTo : Nat := 0
deriving DecidableEq, Repr, Inhabited

/-- Settings of a circuit, as coded words of their tables (R145, R195, R216, R239, R252, R288, R316). -/
structure Settings where
  agcTarget : Int := -36
  agcDeadband : Nat := 3
  winFactor : Nat := 16
  winGuard : Nat := 2
  eraseFrac : Nat := 1
  energyThresh : Nat := 12
  qualThresh : Nat := 50
  corrThresh : Nat := 40
  captureMargin : Nat := 6
  caThresh : Nat := 40
  arrivalTol : Nat := 5
  rateMargin : Nat := 6
  cdPamMax : Nat := 2
  cdRateMargin : Nat := 6
  cdLift : Nat := 1
  cdThp : Nat := 1
  chaffMin : Nat := 8
  chaffFactor : Nat := 4
  chaffGuard : Nat := 1
  /-- Base-2 logarithm of CHAFF_AGE (R384). -/
  chaffAge : Nat := 8
  chaffSteer : Nat := 1
  psdT : Int := -120
  psdA : Int := -124
  psdD : Int := -124
  beaconMargin : Nat := 6
  sheetEntry : Nat := 2
  retain : Nat := 3000
  liveness : Nat := 64
  servicePeriod : Nat := 4
  joinPeriod : Nat := 16
deriving DecidableEq, Repr, Inhabited

/-- Counters of a circuit (R146, R196, R217, R240, R259, R288, R316), 32 bits, saturating, cleared on read. `cwBad` is CW_FAIL of R240, the
codewords; `cwFail` is CW_FAIL of R316, the frames. -/
inductive Ctr where
  | detectT | detectA | falseEnergy | qualLate | noSync | headerFail | shadowSwitch | capture | intruder | unseated
  | selfTx | samplesLost | overload | timeout | feedOverload | rangeSpoiled | winnowed | impulses | clippedTicks | gainCmds
  | snapTrain | snapStale | grantMismatch | arrivalOff | xtRefLost | xtRange
  | trainFail | linkLost | tapRevert | cdTimeStep | blockFail
  | cwOk | cwBad | cwIter24 | txClip
  | grantDrop | pollFail | expressSent | expressPreempt | expressOversize
  | joinUnknown | joinAuthFail | joinAbandon | readdressOk | unknownSrc | duplicate | seqOut | gapSkip | reasmTimeout
  | lenErr | checkFail | tagFail | cwFail
deriving DecidableEq, Repr, Inhabited

/-- The place of a counter in its circuit's table. -/
def Ctr.idx (c : Ctr) : Nat := c.ctorIdx

/-- A user notch (R255), in 0.01 MHz: lower edge and width. -/
structure Notch where
  lo : Nat := 0
  width : Nat := 0
deriving DecidableEq, Repr, Inhabited

/-- A class's shaping filter: its taps 0 to 16 as signed values of 14 fraction bits; none, the single centre tap (R242). -/
abbrev Filter := Option (List Int)

/-- One circuit. -/
structure Circuit where
  /-- Samples of the upstream frame of the running tick, landed and valid (R19, R100). -/
  fresh : Option (List Int) := none
  /-- The buffer that the running placements read: samples of the last tick (R19). -/
  buffer : List Int := []
  cls : FrameClass := .stale
  staleRun : Nat := 0
  clipRun : Nat := 0
  /-- Instants of downstream frames with non-zero transmit samples, newest first (R121). -/
  sent : List Nat := []
  /-- AGC (R128, R129): state, the state held before a freeze, step in force, step last commanded and the command not yet sent, with its
  urgency; instant before which no decision is taken; run of ticks within the deadband; the last 64 errors, newest first. -/
  agc : AgcState := .acquire
  agcBack : AgcState := .acquire
  gain : Nat := 24
  gainNext : List (Nat × Nat) := []
  gainCmd : Option (Nat × Bool) := none
  holdTo : Nat := 0
  inBand : Nat := 0
  errs : List Int := []
  /-- Noise model (R131): NOISE_W, NOISE_T, NOISE_A, the idle ticks that have entered, and a re-initialisation under way. -/
  noiseW : Nat := 0
  noiseT : Nat := 0
  noiseA : Nat := 0
  idleTicks : Nat := 0
  reinit : Option (Nat × Nat × Nat × Nat) := none
  /-- RMS_REF of the present reception as a mean square in 1/256, with the gain step it was taken at (R123, R130). -/
  refSq : Nat := 0
  refGain : Nat := 24
  /-- Runs of ticks above the Class T energy trigger and above the Class A level without a seat, and UNSEATED's re-arming (R134, R137). -/
  energyRun : Nat := 0
  unseatedRun : Nat := 0
  unseatedQuiet : Nat := 2
  rxT : Receiver := {}
  rxA : Receiver := {}
  lastRssiT : Int := 0
  lastSnrT : Int := 0
  lastRssiA : Int := 0
  lastSnrA : Int := 0
  /-- The stamp of the last ranging reception in 1/16 ns on the count of ticks (R40, R163); none where it yields none (R143, R164). -/
  stamp : Option Int := none
  /-- The last 16 frames processed, newest first, and whether the last sample of the newest was blanked (R123, R125). -/
  past : List PastTick := []
  /-- The Class T peak of the last symbol period that reached the threshold: the period's number and the code phase (R133). -/
  peakT : Option (Nat × Nat) := none
  /-- The seat's copy of the granted endpoint's snapshot: its taps, and its MSE where VALID (R192); and the last 64 samples of each neighbour's
  frame before (R189), at gain step 0. -/
  seatTaps : List Word := []
  seatMse : Option Int := none
  /-- First instant of the seat whose grant has failed already (R193). -/
  failedSeat : Option Nat := none
  nbrTail : List (List Int) := []
  /-- Last arrival offset in ns and EQ_SINR of Class A (R184, R186). -/
  arrival : Int := 0
  eqSinr : Int := 0
  counters : Tab Nat := []
  /-- Settings in force and as last accepted; the settings from the keep store are those of R316. -/
  set : Settings := {}
  want : Settings := {}
  /-- Chaff map (R236, R237): 64 bins, superframes since halving, NOISY marks. -/
  bins : Tab Nat := []
  sinceHalving : Nat := 0
  noisy : Word := 0
  /-- Shaping (R242, R247, R255): filters in force and loaded, user notches in force and accepted, reductions of a profile in 0.5 dB,
  TX_SATURATE raised in this superframe. -/
  filterT : Filter := none
  filterA : Filter := none
  filterD : Filter := none
  filtersDue : Option (Filter × Filter × Filter) := none
  notches : List Notch := []
  notchesDue : Option (List Notch) := none
  reduced : List Nat := [0, 0, 0]
  saturated : Bool := false
  /-- The region profile that a downlink PPDU in progress at the change keeps to its end (R250). -/
  profileKept : Option Nat := none
  /-- The user notches that such a PPDU keeps likewise (R250, R255). -/
  notchesKept : Option (List Notch) := none
  /-- Beacon form of R278 and NGRANT last sent (R288). -/
  beaconForm : Nat := 0
  ngrant : Nat := 0
  /-- Superframe of the last JOIN grant, and the last one of those that must have one after a JOIN grant used or spoiled (R291). -/
  joinSf : Nat := 0
  joinUntil : Nat := 0
  /-- Downlink PPDUs begun or due (R160, R181), and the state of the notch bank (R243). -/
  ppdus : List Ppdu := []
  bank : List Int := []
  /-- First instants of the express slots in which an express PPDU has begun, the last one (R266). -/
  express : List Nat := []
  /-- The samples of the downstream frame at hand before the limiter; none where the frame carries none for the circuit (R241). -/
  down : Option (List Int) := none
deriving DecidableEq, Repr, Inhabited

/-- Feed link states (R213) and training phases (R211). -/
inductive FeedState where
  | off | training | retrain | up | search
deriving DecidableEq, Repr, Inhabited
inductive FeedPhase where
  | echo | duplex | select | precode | switch
deriving DecidableEq, Repr, Inhabited

/-- A direction's setting: PAM 1 to 3 as in R210, rate as in R156, precoding. -/
structure FeedSetting where
  pam : Nat := 0
  rate : Nat := 0
  thp : Bool := false
deriving DecidableEq, Repr, Inhabited

/-- A stream's open frame (R205): its bytes so far, and whether the channel delivered every block intact (R226, R430). -/
structure OpenFrame where
  bytes : List Byte := []
  clean : Bool := true
  /-- Instant of its first block's decode, and the express blocks received since while it was open (R310). -/
  since : Nat := 0
  express : Nat := 0
deriving DecidableEq, Repr, Inhabited

/-- A stream's open frame on its way down (R205): the bytes not yet in blocks, and whether the next block is its first. -/
structure DownFrame where
  bytes : List Byte := []
  first : Bool := true
deriving DecidableEq, Repr, Inhabited

/-- The tap sets of a Class D receiver (R209), signed 16-bit values with 14 fraction bits: echo canceller, feed-forward filter, feedback filter; and
the timing phase in 1/64 symbol (R203). -/
structure TapSet where
  ec : List Int := List.replicate 192 0
  ff : List Int := (List.range 48).map fun i => if i = 12 then 16384 else 0
  fb : List Int := List.replicate 24 0
  phase : Int := 0
deriving DecidableEq, Repr, Inhabited

/-- The Class D receiver and transmitter of a feed link. Signal values have 14 fraction bits. -/
structure FeedLine where
  /-- Taps, and the trained snapshot of them (R211, R214). -/
  now : TapSet := {}
  trained : TapSet := {}
  /-- Unity for the receiver's values: the mean square of the samples of a training's first frame, at gain step 0 in 10^-6 of a code. -/
  scale : Nat := 0
  /-- Echo-cancelled half symbols of the frames before, the last 72, and the notch bank's state (R209, R258). -/
  tail : List Int := List.replicate 72 0
  bank : List Int := []
  /-- Symbols decided, newest first. -/
  decided : List Int := []
  /-- Half symbol of a frame at which the upstream marker comes, how many ticks its number lies behind, and the signs of the last 8 markers, newest
  first (R201, R202). -/
  mark : Option Nat := none
  lag : Option Nat := none
  signs : List Bool := []
  /-- Timing phase and tap-energy centroid of the last tick received while UP, in 1/64 symbol (R203). -/
  place : Option Int := none
  /-- The frame with which upstream data mode begins, by the endpoint's countdown (R211). -/
  upFrom : Option Nat := none
  /-- Own symbols after precoding, by instant of their downstream frame, newest first (R200, R209), and the precoder's last outputs (R208). -/
  own : List (Nat × List Int) := []
  precoded : List Int := []
  /-- Data mode down (R204, R205, R207, R231): coded bits not yet sent, the interleaver's last bits, newest first, the line register, the blocks
  begun; the frames queued for the two streams, and the open ones. -/
  bits : List Bool := []
  inter : List Bool := []
  reg : Nat := 0
  block : Nat := 0
  queueX : List (List Byte) := []
  queueC : List (List Byte) := []
  queueN : List (List Byte) := []
  downX : Option DownFrame := none
  downN : Option DownFrame := none
deriving DecidableEq, Repr, Inhabited

/-- One feed link (R197 to R217, R231, R232). -/
structure Feed where
  state : FeedState := .off
  phase : FeedPhase := .echo
  /-- 100 MBd; otherwise 25 MBd (R197, R213). -/
  fast : Bool := true
  startedAt : Nat := 0
  phaseAt : Nat := 0
  /-- Restarts of SELECT after a SWITCH that timed out: entries lower on the ladder (R211). -/
  lower : Nat := 0
  dn : FeedSetting := {}
  upw : FeedSetting := {}
  lift : Nat := 1
  /-- SNR own and reported, 1/16 dB; current and trained MSE, echo attenuation (R217). -/
  snrOwn : Int := 0
  snrFar : Int := 0
  /-- THP_CAP and the highest PAM of PAM_CAP in the endpoint's words (R210). -/
  farThp : Bool := false
  farPam : Nat := 0
  mse : Int := 0
  trainedSnr : Int := 0
  trainedMse : Int := 0
  echoAtt : Int := 0
  turnD : Nat := 0
  rssi : Int := 0
  /-- Feedback taps received in PRECODE, by index (R210). -/
  taps : Tab Int := []
  missed : Nat := 0
  mseRun : Nat := 0
  /-- Ticks in a row that meet the threshold of the upstream setting in data mode (R211). -/
  okRun : Nat := 0
  drifted : Bool := false
  reverted : Bool := false
  /-- Span in ticks with which the link trained (R232). -/
  span : Nat := 0
  /-- Blocks received since the switch to data mode (R222), the soft bits from the first bit of the next block on (R231), the register of
  the line sequence (R204), and the open frames of the two streams (R205). -/
  blocks : Nat := 0
  soft : List Int := []
  line : Nat := 0
  /-- The session of data mode, the next block to deliver, and blocks decoded out of turn: information bits where they converged, and whether
  the channel delivered them intact (R205, R226). -/
  session : Nat := 0
  next : Nat := 0
  done : List (Nat × Option (List Bool) × Bool) := []
  openX : Option OpenFrame := none
  openN : Option OpenFrame := none
  /-- The receiver's and the transmitter's own state. -/
  wire : FeedLine := {}
  /-- The last loop measurement in 1/16 ns: upstream marker's arrival less its downstream marker's departure (R203, R335). -/
  loop : Option Int := none
  /-- Ticks for which the time service discards loop measurements (R203). -/
  discard : Nat := 0
deriving DecidableEq, Repr, Inhabited

/-- A codeword of soft bits in the near store (R30, R224): where it belongs, its code and its LLRs for the bits sent. -/
structure Codeword where
  circuit : Nat := 0
  /-- 1 Class T, 2 Class A, 3 Class D. -/
  cls : Nat := 0
  entry : Nat := 0
  index : Nat := 0
  lift : Nat := 0
  rate : Nat := 0
  llr : List Int := []
  since : Nat := 0
deriving DecidableEq, Repr, Inhabited

/-- Decoder states (R227). -/
inductive DecState where
  | active | spare | retired
deriving DecidableEq, Repr, Inhabited

/-- One physical decoder (R227, R228). -/
structure Decoder where
  state : DecState := .active
  busy : Option Codeword := none
  decoded : Nat := 0
  /-- Last test passed, and consecutive failures. -/
  lastOk : Bool := true
  fails : Nat := 0
deriving DecidableEq, Repr, Inhabited

/-- A frame under reassembly (R310): its codewords' information bits by index once decoded. -/
structure Entry where
  id : Nat := 0
  circuit : Nat := 0
  cls : Nat := 0
  ncw : Nat := 1
  parts : List (Nat × List Bool) := []
  allConverged : Bool := true
  clean : Bool := true
  rssi : Int := 0
  snr : Int := 0
  eqSinr : Int := 0
  /-- Class A: the granted endpoint, the training form, and the provisional snapshot at the end of the reception: superframe,
  tick, MSE, FREQ and the 96 words of taps (R192). -/
  addr : Nat := 0
  train : Bool := false
  /-- Expected end: 2 ticks after the tick that works on the last payload symbol (R310). -/
  due : Nat := 0
  provisional : Option (Nat × Nat × Int × Int × List Word) := none
deriving DecidableEq, Repr, Inhabited

/-- The LDPC pool and the reassembly of frames (R30, R31, R224 to R229, R310). -/
structure Ldpc where
  decoder : Tab Decoder := [(32, { state := .spare }), (33, { state := .spare })]
  queue : List Codeword := []
  /-- Highest depth of the queue in ticks (R240). -/
  depth : Nat := 0
  /-- Next decoder of the test's rotation, and the test of this superframe done (R228). -/
  testNext : Nat := 0
  testDone : Bool := false
  /-- LDPC_DEGRADED has been raised (R229). -/
  degraded : Bool := false
  entries : List Entry := []
  nextEntry : Nat := 0
deriving DecidableEq, Repr, Inhabited

/-- Every circuit, and the device-wide settings of chapters 5 and 10. -/
structure Circuits where
  circuit : Tab Circuit := []
  /-- SELF_GUARD in 100 ns (R145). -/
  selfGuard : Nat := 2
  /-- Region profile in force, the pending change with its superframe, LOCK (R246, R250). -/
  profile : Nat := 0
  profileDue : Option (Nat × Nat) := none
  locked : Bool := false
deriving DecidableEq, Repr, Inhabited

/-- Every feed link. -/
structure Feeds where
  feed : Tab Feed := []
deriving DecidableEq, Repr, Inhabited

end Sys2Proof.Machine
end

