-- ==== Sys2Proof/Machine/LinkState.lean ====
section
/-! DEFINITION. State of the endpoint records, joins, windows and ranging (spec/12_link_procedures.md, spec/13_time_service.md R332 to R336,
spec/07_class_a.md R191 to R193). Superframe numbers are those of `Sf.number`. -/
namespace Sys2Proof.Machine

/-- Snapshot states (R191, R193). -/
inductive SnapState where
  | none | valid | stale
deriving DecidableEq, Repr, Inhabited

/-- A Class A receive snapshot (R191): the header's fields and the 96 words of its taps. -/
structure Snapshot where
  state : SnapState := .none
  sf : Nat := 0
  /-- Tick of the reception committed, for the order of commits (R192). -/
  tick : Nat := 0
  nbrs : Word := 0
  calEpoch : Nat := 0
  mse : Int := 0
  eqSinr : Int := 0
  freq : Int := 0
  taps : List Word := []
deriving DecidableEq, Repr, Inhabited

/-- Record states (R289). -/
inductive RecState where
  | active | asleep | absent
deriving DecidableEq, Repr, Inhabited

/-- A sequenced downlink frame of a record (R305 to R307): its frame, the host's descriptor where it is host-posted, its retries
and the superframe of its last transmission. -/
structure Sent where
  seq : Nat := 0
  frame : Frame := {}
  host : Option TxFrame := none
  retries : Nat := 0
  lastSf : Nat := 0
  firstSf : Nat := 0
  /-- What a protected frame carries after its MAC header up to the check, as first sent (R418); empty where it is not protected. -/
  text : List Byte := []
  /-- Its present transmission waits in the transmit path: the ACK timer does not run (R307). -/
  out : Bool := false
  /-- Abandoned or too long: keeps its place in the window until 12 superframes after its first transmission (R305, R358). -/
  gone : Bool := false
deriving DecidableEq, Repr, Inhabited

/-- A frame waiting for its place in the window (R302, R305). -/
structure Waiting where
  frame : Frame := {}
  /-- The SEQ that the active device of a pair journalled for it (R466). -/
  seq : Option Nat := none
  host : Option TxFrame := none
  retries : Nat := 0
deriving DecidableEq, Repr, Inhabited

/-- Ranging of an endpoint (R332 to R336). -/
structure Ranging where
  /-- RANGE_ID of the last request, and t1 in 1/16 ns while its reply is awaited. -/
  id : Nat := 0
  t1 : Option Int := none
  unranged : Bool := true
  misses : Nat := 0
  /-- Last accepted values of D, newest first, at most 5, and rejected ones that agree. -/
  dist : List Int := []
  outliers : List Int := []
  /-- The last four values of theta, newest first. -/
  theta : List Int := []
  missCount : Nat := 0
  outlierCount : Nat := 0
  /-- Superframe of the last exchange. -/
  lastSf : Nat := 0
  /-- Feed circuits: sum and count of D over the 1,024 ticks under way, and D last sent (R335). -/
  sum : Int := 0
  count : Nat := 0
  sentD : Option Int := none
deriving DecidableEq, Repr, Inhabited

/-- One endpoint record (R289). -/
structure Record where
  epId : Nat := 0
  circuit : Nat := 0
  /-- Short address; none while ABSENT. -/
  addr : Option Nat := none
  epoch : Nat := 0
  state : RecState := .active
  caps : Nat := 0
  /-- A repeater's assignment (R313): its relay slot and the EP_IDs of its far endpoints, which are the routes of those. -/
  repeats : Bool := false
  rbSlot : Nat := 0
  far : List Nat := []
  snap : Snapshot := {}
  /-- Reported downlink SNR_T and SINR_A, with the superframe of the report (R183, R278, R304). -/
  snrT : Option Int := none
  sinrA : Option Int := none
  reportSf : Nat := 0
  /-- Last uplink EQ_SINR, RSSI and SNR (R132, R186). -/
  eqSinr : Option Int := none
  rssi : Int := 0
  snr : Int := 0
  /-- Offset in ns of chip 0 of the last Class A uplink from its expected instant (R184). -/
  arrival : Int := 0
  lastHeard : Nat := 0
  /-- Instant at which a frame of the endpoint was last accepted, for the grants it left unused since (R303). -/
  heardAt : Nat := 0
  /-- Sleep (R301, R302): WAKE_SF and the superframe in which the sleep began, and the WAKE_SF of the SLEEP_ACK that awaits its ACK. -/
  wakeSf : Nat := 0
  asleepSf : Nat := 0
  sleepDue : Option Nat := none
  /-- Failures towards re-addressing (R303), and NEW_ADDR with the superframe it started. -/
  polls : Nat := 0
  unused : Nat := 0
  /-- Instant of the last failed poll's grant (R286), and MORE of the last frame (R272). -/
  pollAt : Nat := 0
  more : Bool := false
  badTags : Nat := 0
  newAddr : Option (Nat × Nat) := none
  /-- The record is deleted at the end of this superframe (R289, R304). -/
  leaving : Bool := false
  /-- Two consecutive granted uplinks lost, training form asked for, last training-form downlink (R181, R193, R194). -/
  lost : Nat := 0
  trainReq : Bool := false
  lastTrain : Option Nat := none
  /-- Uplink window (R306, R307, R309): BASE, bitmap, the frames accepted behind a gap with their SEQ and the superframe of their acceptance
  (the frame itself where it goes to a receive ring); an ACK is due. -/
  upBase : Nat := 0
  upMap : Word := 0
  held : List (Nat × Nat × Option RxFrame) := []
  ackDue : Bool := false
  /-- Downlink window (R305). -/
  dnNext : Nat := 0
  sent : List Sent := []
  waiting : List Waiting := []
  sessionEpoch : Nat := 0
  /-- Session key wrapped under STORE: its counter and 6 words (R418, R421). -/
  sessionKey : List Word := []
  /-- KEY_UPDATE is due in the superframe after the ACCEPT (R420). -/
  keyDue : Bool := false
  /-- Superframe of the last grant for its own frames (R298). -/
  grantSf : Nat := 0
  range : Ranging := {}
deriving DecidableEq, Repr, Inhabited

/-- A join attempt (R295). -/
structure Join where
  circuit : Nat := 0
  epId : Nat := 0
  paddr : Nat := 0
  /-- The address was free before the attempt, so its end frees it. -/
  fresh : Bool := true
  en : Nat := 0
  hn : Word := 0
  caps : Nat := 0
  stored : Nat := 0
  firstSf : Nat := 0
  challengeSf : Nat := 0
  /-- EP_ID of the repeater that forwarded the JOIN_REQ (R315). -/
  via : Option Nat := none
deriving DecidableEq, Repr, Inhabited

/-- A released address (R300). -/
structure Quarantine where
  circuit : Nat := 0
  addr : Nat := 0
  untilSf : Nat := 0
deriving DecidableEq, Repr, Inhabited

/-- A frame on its way out (R32): its bytes, on a shared circuit the PPDU that carries it, its start not yet fixed and its bits not yet interleaved
(R234); on a feed circuit the stream that takes it, 0 express, 1 normal ahead of data, 2 normal (R206, R207). An express frame has its earliest start (R266). -/
structure Outgoing where
  circuit : Nat := 0
  express : Option Nat := none
  ppdu : Ppdu := {}
  /-- Class A at ladder entry 5 or above with CHAFF_STEER on: the PPDU at a lower entry, for a superframe without a clear place (R238). -/
  low : Option Ppdu := none
  bytes : List Byte := []
  stream : Nat := 2
  /-- A sequenced frame: its endpoint and SEQ (R305), and whether this is its first transmission; of a broadcast, the host's frame. -/
  owner : Option (Nat × Nat) := none
  first : Bool := false
  cast : Option TxFrame := none
deriving DecidableEq, Repr, Inhabited

/-- A broadcast of the host on its way (R311): on a shared circuit the first instant at which its last chip is out; on a feed circuit it is out once its
bytes are all in blocks. -/
structure Casting where
  frame : TxFrame := {}
  bytes : List Byte := []
  due : Option Nat := none
deriving DecidableEq, Repr, Inhabited

/-- The transmit path (R32, R37): frames encoded whose slots have not come, in the order queued, and the broadcasts that have begun. -/
structure Air where
  outbox : List Outgoing := []
  castings : List Casting := []
deriving DecidableEq, Repr, Inhabited

/-- Every endpoint record and what the link procedures hold beside them. -/
structure Links where
  records : List Record := []
  joins : List Join := []
  quarantine : List Quarantine := []
  /-- Denied identities: circuit and EP_ID (R295, R316). -/
  denied : List (Nat × Nat) := []
  /-- EP_ID and EN of every REJECT sent (R421). -/
  rejected : List (Nat × Nat) := []
  /-- Broadcast SEQ of each circuit (R305). -/
  bcast : Tab Nat := []
  /-- Broadcast host frames waiting, by circuit (R305, R311). -/
  bcastHeld : List (Nat × TxFrame) := []
  /-- RANGE_PERIOD and RANGE_REJECT of each circuit where not 64 and 10 (R344). -/
  rangePeriod : Tab Nat := []
  rangeReject : Tab Nat := []
  /-- Both as accepted, waiting for the next second (R344). -/
  rangeDue : Option (Tab Nat × Tab Nat) := none
deriving DecidableEq, Repr, Inhabited

end Sys2Proof.Machine
end

