-- ==== Sys2Proof/Machine/Observations.lean ====
section
/-! DEFINITION. The observations that a command carries: what the world outside the block (wires, sensors, host memory, partner)
presents to it. Nothing here is state of the block. -/
namespace Sys2Proof.Machine

/-- Outcome of a background operation as its hardware reports it (R381): passed or failed, and the words it produced. -/
structure OpResult where
  ok : Bool := true
  words : List Word := []
deriving DecidableEq, Repr, Inhabited

/-- What the host answered to an AEAD operation's accesses for requester 4 (R367, R412): the bytes read at SRC, none if
the read failed, and whether every write at DST succeeded. -/
structure AeadAccess where
  src : Option (List Byte) := none
  dstOk : Bool := true
deriving DecidableEq, Repr, Inhabited

/-- One sensor's 1 ms measurement (R451): slack in 1/16 ps, junction temperature in 1/16 degree. -/
structure SensorObs where
  sensor : Nat := 0
  slack : Int := 0
  temp : Int := 0
deriving DecidableEq, Repr, Inhabited

/-- One sensor's hourly means (R453): slack in 1/16 ps, VDD_CORE in 1/10 mV, temperature in 1/16 degree. -/
structure MeanObs where
  sensor : Nat := 0
  slack : Int := 0
  volts : Int := 0
  temp : Int := 0
deriving DecidableEq, Repr, Inhabited

/-- What a lane's receiver took in a tick: the blocks that count as errors among those it received, each its sync header and its descrambled payload (R72
to R76), and in TEST the received bits (R89). -/
structure LaneObs where
  lane : Nat := 0
  blocks : List (Nat × Word) := []
  bits : List Bool := []
deriving DecidableEq, Repr, Inhabited

/-- What the tick that ends showed (R21 to R24): each physical cluster with placements not complete, with the plan offset of the first of them
(R47: they run in order of offset, so those after it are abandoned too); the lanes' measurements, the granary lines that a device read of the
tick touched, and those on which such a read or the host's found an uncorrectable error (R368). -/
structure TickObs where
  overran : List (Nat × Nat) := []
  lanes : List LaneObs := []
  granaryReads : List Nat := []
  eccLines : List Nat := []
deriving DecidableEq, Repr, Inhabited

/-- An upstream tick frame as it lands (R92 to R100, R107): its words, whether the lane layer marked one invalid (R76), and the
instant A of its TICK_MARK's arrival, in 1/16 ns after the tick of ECHO_TAG. -/
structure UpFrame where
  words : List Word := []
  valid : Bool := true
  arrival : Int := 0
deriving DecidableEq, Repr, Inhabited

/-- What a lane's receiver shows beside a training word (R77, R80, R83): the measured latencies, the deskew, whether the lane is aligned, and
the eye monitor's reading with the partner's present preset. -/
structure TrainObs where
  rxLatency : Nat := 0
  txLatency : Nat := 0
  deskew : Nat := 0
  ready : Bool := true
  eye : Nat := 0
deriving DecidableEq, Repr, Inhabited

/-- A beacon or sheet as the active device mirrors it (R465): its circuit and superframe, its form in the rows of R278 or, of a sheet, its number
of grants, and its bytes with the tag, empty while they are still to come. -/
structure PeerHead where
  circuit : Nat := 0
  sf : Nat := 0
  sheet : Option Nat := none
  row : Nat := 0
  bytes : List Byte := []
deriving DecidableEq, Repr, Inhabited

/-- A key as it crosses the peer port (R425): its slot, SIZE and EPOCH, and the words of its WRAP under slot 0: the nonce's counter, the encrypted
key and the tag. -/
structure PeerKey where
  slot : Nat := 0
  size : Bool := true
  epoch : Nat := 0
  wrap : List Word := []
deriving DecidableEq, Repr, Inhabited

/-- A peer or time-peer frame as it lands: its words, whether it holds an invalid word (R76), the instant of its TICK_MARK's arrival in 1/16 ns after the
present tick's strobe (R338), and what its cells, whose bodies are internal to the firmware and the frame engine (R462), say: the journals of transmit and
receive frames (R466), beacons and sheets (R465), slot counters and keys (R425). -/
structure PeerFrame where
  words : List Word := []
  valid : Bool := true
  arrival : Int := 0
  tx : List TxJournal := []
  rx : List RxJournal := []
  heads : List PeerHead := []
  counters : List (Nat × Nat) := []
  keys : List PeerKey := []
deriving DecidableEq, Repr, Inhabited

/-- How a host request ended (R367). -/
inductive HostAnswer where
  | ok | failed | poisoned | timeout
deriving DecidableEq, Repr, Inhabited

/-- The host's answers to a descriptor access (R354 to R359): the four descriptor words, the body, and the writes. -/
structure DescFetch where
  desc : HostAnswer := .ok
  words : List Word := []
  body : HostAnswer := .ok
  bytes : List Byte := []
  write : HostAnswer := .ok
deriving DecidableEq, Repr, Inhabited

/-- The kinds of request whose failure R367 tabulates, with the ring where there is one. -/
inductive HostRequest where
  | txDescriptor (q : Nat) | rxDescriptor (q : Nat) | txBody (q : Nat) | rxWrite (q : Nat) | txCompletion (q : Nat)
  | evidence | aead
deriving DecidableEq, Repr, Inhabited

/-- A PPS edge against device time and FREQ_IN (R322): phase in 1/16 ns, the interval from the last edge within 1 us of 1 s,
FREQ_IN within 10 ppm, and the edge within 5 ns of a FREQ_IN edge. -/
structure PpsObs where
  phase : Int := 0
  intervalOk : Bool := true
  freqOk : Bool := true
  alignOk : Bool := true
deriving DecidableEq, Repr, Inhabited

end Sys2Proof.Machine
end

