-- ==== Sys2Proof/Syntax.lean ====
section
/-! DEFINITION. The commands of the block, one constructor per row of spec/opcode_table.json, in the table's order.
A mailbox command names the mailbox `m` that holds it; its parameters lie in that mailbox's MB_DATA. -/
namespace Sys2Proof
open Machine

/-- One command (spec/opcode_table.json). An operand of type Unit tells nothing: what goes with those frames is in the state. -/
inductive Instr where
  /-- MB_POST (R380). -/
  | mbPost (m : Nat)
  /-- MB_RELEASE (R380). -/
  | mbRelease (m : Nat)
  /-- MB_CANCEL (R380). -/
  | mbCancel (m : Nat)
  /-- MB_TAKE (R381). -/
  | mbTake
  /-- MAILBOX_TIMEOUT (R382). -/
  | mailboxTimeout (m : Nat)
  /-- BACKGROUND_OP_DONE (R381). -/
  | backgroundOpDone (k : Nat) (res : OpResult)
  /-- DEVICE_IDENTIFY (R507). -/
  | deviceIdentify (m : Nat)
  /-- DEVICE_STATUS (R507). -/
  | deviceStatus (m : Nat)
  /-- DEVICE_EVENTS (R394). -/
  | deviceEvents (m : Nat)
  /-- DEVICE_RESET (R388). -/
  | deviceReset (m : Nat)
  /-- DEVICE_HOST_MODE (R388). -/
  | deviceHostMode (m : Nat)
  /-- PORT_STATUS (R507). -/
  | portStatus (m : Nat)
  /-- PORT_RETRAIN (R87). -/
  | portRetrain (m : Nat)
  /-- PORT_SET_STATE (R87). -/
  | portSetState (m : Nat)
  /-- PORT_SET_PRESET (R80). -/
  | portSetPreset (m : Nat)
  /-- CLOCK_SET_SPREAD (R67). -/
  | clockSetSpread (m : Nat)
  /-- PORT_FRAME_COUNTERS (R119). -/
  | portFrameCounters (m : Nat)
  /-- PORT_CALIBRATE (R110). -/
  | portCalibrate (m : Nat)
  /-- PORT_CONFIG (R388). -/
  | portConfig (m : Nat)
  /-- DEVICE_SET_REGION (R250). -/
  | deviceSetRegion (m : Nat)
  /-- DEVICE_REGION_STATUS (R259). -/
  | deviceRegionStatus (m : Nat)
  /-- DEVICE_SF_CONFIG (R288). -/
  | deviceSfConfig (m : Nat)
  /-- DEVICE_SF_STATUS (R507). -/
  | deviceSfStatus (m : Nat)
  /-- DEVICE_RING_CONFIG (R364). -/
  | deviceRingConfig (m : Nat)
  /-- DEVICE_RING_STATUS (R507). -/
  | deviceRingStatus (m : Nat)
  /-- DEVICE_RX_STEER (R360). -/
  | deviceRxSteer (m : Nat)
  /-- DEVICE_GRANARY_CONFIG (R352). -/
  | deviceGranaryConfig (m : Nat)
  /-- DEVICE_EVENT_VECTOR (R482). -/
  | deviceEventVector (m : Nat)
  /-- CIRCUIT_SET_CLASS (R389). -/
  | circuitSetClass (m : Nat)
  /-- CIRCUIT_RX_CONFIG (R145). -/
  | circuitRxConfig (m : Nat)
  /-- CIRCUIT_RX_STATUS (R146). -/
  | circuitRxStatus (m : Nat)
  /-- CIRCUIT_RX_COUNTERS (R146). -/
  | circuitRxCounters (m : Nat)
  /-- CIRCUIT_AGC (R128). -/
  | circuitAgc (m : Nat)
  /-- CIRCUIT_CA_STATUS (R196). -/
  | circuitCaStatus (m : Nat)
  /-- CIRCUIT_CA_CONFIG (R195). -/
  | circuitCaConfig (m : Nat)
  /-- CIRCUIT_XT_SURVEY (R190). -/
  | circuitXtSurvey (m : Nat)
  /-- CIRCUIT_CD_CONFIG (R216). -/
  | circuitCdConfig (m : Nat)
  /-- CIRCUIT_CD_STATUS (R217). -/
  | circuitCdStatus (m : Nat)
  /-- CIRCUIT_CD_RETRAIN (R213). -/
  | circuitCdRetrain (m : Nat)
  /-- CIRCUIT_CHAFF_MAP (R240). -/
  | circuitChaffMap (m : Nat)
  /-- CIRCUIT_CHAFF_CONFIG (R239). -/
  | circuitChaffConfig (m : Nat)
  /-- CIRCUIT_CODE_COUNTERS (R240). -/
  | circuitCodeCounters (m : Nat)
  /-- CIRCUIT_TX_CONFIG (R253). -/
  | circuitTxConfig (m : Nat)
  /-- CIRCUIT_TX_FILTER (R259). -/
  | circuitTxFilter (m : Nat)
  /-- CIRCUIT_NOTCH (R255). -/
  | circuitNotch (m : Nat)
  /-- CIRCUIT_RELAY (R117). -/
  | circuitRelay (m : Nat)
  /-- CIRCUIT_RELAY_STATUS (R389). -/
  | circuitRelayStatus (m : Nat)
  /-- CIRCUIT_TX_STATUS (R253). -/
  | circuitTxStatus (m : Nat)
  /-- CIRCUIT_BEACON_CONFIG (R288). -/
  | circuitBeaconConfig (m : Nat)
  /-- CIRCUIT_MAC_COUNTERS (R288). -/
  | circuitMacCounters (m : Nat)
  /-- PLAN_LOAD (R57). -/
  | planLoad (m : Nat)
  /-- PLAN_ACTIVATE (R58). -/
  | planActivate (m : Nat)
  /-- PLAN_ABORT (R58). -/
  | planAbort (m : Nat)
  /-- PLAN_STATUS (R507). -/
  | planStatus (m : Nat)
  /-- PLAN_EDIT (R63). -/
  | planEdit (m : Nat)
  /-- PLAN_READ (R390). -/
  | planRead (m : Nat)
  /-- PLAN_STAGE_WRITE (R390). -/
  | planStageWrite (m : Nat)
  /-- PLAN_SAVE_BOOT (R390). -/
  | planSaveBoot (m : Nat)
  /-- ENDPOINT_LIST (R316). -/
  | endpointList (m : Nat)
  /-- ENDPOINT_STATUS (R316). -/
  | endpointStatus (m : Nat)
  /-- ENDPOINT_EVICT (R289). -/
  | endpointEvict (m : Nat)
  /-- ENDPOINT_READDRESS (R303). -/
  | endpointReaddress (m : Nat)
  /-- ENDPOINT_SET_REPEATER (R313). -/
  | endpointSetRepeater (m : Nat)
  /-- ENDPOINT_LINK_COUNTERS (R316). -/
  | endpointLinkCounters (m : Nat)
  /-- ENDPOINT_LINK_CONFIG (R316). -/
  | endpointLinkConfig (m : Nat)
  /-- ENDPOINT_DENY (R295). -/
  | endpointDeny (m : Nat)
  /-- ENDPOINT_CA_SNAPSHOT (R196). -/
  | endpointCaSnapshot (m : Nat)
  /-- TIME_STATUS (R507). -/
  | timeStatus (m : Nat)
  /-- TIME_SOURCE_CONFIG (R344). -/
  | timeSourceConfig (m : Nat)
  /-- TIME_SET_TAI (R392). -/
  | timeSetTai (m : Nat)
  /-- TIME_HOST_OFFSET (R325). -/
  | timeHostOffset (m : Nat)
  /-- TIME_RESYNC (R327). -/
  | timeResync (m : Nat)
  /-- TIME_EVIDENCE_RING (R343). -/
  | timeEvidenceRing (m : Nat)
  /-- TIME_ENDPOINT_STATUS (R344). -/
  | timeEndpointStatus (m : Nat)
  /-- TIME_RANGE_CONFIG (R344). -/
  | timeRangeConfig (m : Nat)
  /-- TIME_MODEL (R326). -/
  | timeModel (m : Nat)
  /-- TIME_PEER_CONFIG (R344). -/
  | timePeerConfig (m : Nat)
  /-- SECURITY_STATUS (R507). -/
  | securityStatus (m : Nat)
  /-- SECURITY_JOIN_KEY (R421). -/
  | securityJoinKey (m : Nat)
  /-- SECURITY_CIRCUIT_KEY (R420). -/
  | securityCircuitKey (m : Nat)
  /-- SECURITY_ZEROISE (R415). -/
  | securityZeroise (m : Nat)
  /-- SECURITY_ATTEST (R424). -/
  | securityAttest (m : Nat)
  /-- SECURITY_CERT (R392). -/
  | securityCert (m : Nat)
  /-- FIRMWARE_STATUS (R393). -/
  | firmwareStatus (m : Nat)
  /-- FIRMWARE_STAGE_WRITE (R393). -/
  | firmwareStageWrite (m : Nat)
  /-- FIRMWARE_VERIFY (R399). -/
  | firmwareVerify (m : Nat)
  /-- FIRMWARE_WRITE_BANK (R401). -/
  | firmwareWriteBank (m : Nat)
  /-- FIRMWARE_ACTIVATE (R401). -/
  | firmwareActivate (m : Nat)
  /-- FIRMWARE_COMMIT (R401). -/
  | firmwareCommit (m : Nat)
  /-- FIRMWARE_REVERT (R401). -/
  | firmwareRevert (m : Nat)
  /-- FIRMWARE_SET_BOOT (R393). -/
  | firmwareSetBoot (m : Nat)
  /-- DIAG_MP_STATUS (R507). -/
  | diagMpStatus (m : Nat)
  /-- DIAG_NEAR_READ (R393). -/
  | diagNearRead (m : Nat)
  /-- LANE_PRBS (R89). -/
  | lanePrbs (m : Nat)
  /-- LANE_MARGIN_SCAN (R90). -/
  | laneMarginScan (m : Nat)
  /-- LANE_COUNTERS (R91). -/
  | laneCounters (m : Nat)
  /-- LDPC_STATUS (R240). -/
  | ldpcStatus (m : Nat)
  /-- DIAG_CAPTURE (R372). -/
  | diagCapture (m : Nat)
  /-- DIAG_CAPTURE_STATUS (R372). -/
  | diagCaptureStatus (m : Nat)
  /-- POWER_DOMAIN_SET (R450). -/
  | powerDomainSet (m : Nat)
  /-- POWER_DOMAIN_STATUS (R393). -/
  | powerDomainStatus (m : Nat)
  /-- POWER_AVS_STATUS (R452). -/
  | powerAvsStatus (m : Nat)
  /-- AGEING_LEDGER (R453). -/
  | ageingLedger (m : Nat)
  /-- AGEING_CLUSTER_TEST (R456). -/
  | ageingClusterTest (m : Nat)
  /-- MCTP_WRITE (R397). -/
  | mctpWrite (body : List Byte)
  /-- MCTP_READ (R397). -/
  | mctpRead (body : List Byte)
  /-- MCTP_DOORBELL (R397). -/
  | mctpDoorbell (body : List Byte)
  /-- SET_ENDPOINT_ID (R396). -/
  | setEndpointId (eid : Nat)
  /-- GET_ENDPOINT_ID (R396). -/
  | getEndpointId
  /-- GET_MCTP_VERSION_SUPPORT (R396). -/
  | getMctpVersionSupport
  /-- GET_MESSAGE_TYPE_SUPPORT (R396). -/
  | getMessageTypeSupport
  /-- GET_VENDOR_DEFINED_MSG_SUPPORT (R396). -/
  | getVendorDefinedMsgSupport
  /-- JOURNAL_ENTRY (R377). -/
  | journalEntry
  /-- STANDBY_READY (R377). -/
  | standbyReady
  /-- WATCHDOG_KICK (R403). -/
  | watchdogKick
  /-- WATCHDOG_EXPIRY (R403). -/
  | watchdogExpiry
  /-- REGISTER_WRITE (R9). -/
  | registerWrite (agent : Nat) (bar : Nat) (off : Nat) (bytes : Nat) (v : Word)
  /-- INT_CAUSE_WRITE (R481). -/
  | intCauseWrite (v : Word)
  /-- INT_MASK_WRITE (R481). -/
  | intMaskWrite (v : Word)
  /-- MB_DONE_MAP_WRITE (R482). -/
  | mbDoneMapWrite (v : Word)
  /-- EVENT_VECTOR_WRITE (R482). -/
  | eventVectorWrite (v : Word)
  /-- EV_CONS_WRITE (R485). -/
  | evConsWrite (v : Word)
  /-- TX_DB_WRITE (R354). -/
  | txDbWrite (q : Nat) (v : Word)
  /-- RX_DB_WRITE (R354). -/
  | rxDbWrite (q : Nat) (v : Word)
  /-- XDB_WRITE (R363). -/
  | xdbWrite (n : Nat) (v : Word)
  /-- TCAP_CAPTURE (R320). -/
  | tcapCapture (v : Word) (sub : Nat)
  /-- TCAP_DONE_CLEAR (R320). -/
  | tcapDoneClear (v : Word) (sub : Nat)
  /-- TCAP_ARM_GPIO (R320). -/
  | tcapArmGpio (v : Word) (sub : Nat)
  /-- GPIO_EDGE_CAPTURE (R320). -/
  | gpioEdgeCapture (pin : Nat) (sub : Nat)
  /-- KS_DATA_WRITE (R443). -/
  | ksDataWrite (v : Word)
  /-- KS_DATA_READ (R443). -/
  | ksDataRead
  /-- KEEP_WRITE_START (R438). -/
  | keepWriteStart
  /-- KEEP_WRITE_DONE (R435). -/
  | keepWriteDone
  /-- KEEP_WRITE_WAIT_TIMEOUT (R493). -/
  | keepWriteWaitTimeout
  /-- BULK_DATA_READ (R370). -/
  | bulkDataRead (off : Nat) (len : Nat)
  /-- BULK_DATA_WRITE (R370). -/
  | bulkDataWrite (off : Nat) (words : List Word)
  /-- AEAD_LOCK_REQUEST (R407). -/
  | aeadLockRequest (r : Nat)
  /-- AEAD_LOCK_RELEASE (R407). -/
  | aeadLockRelease (r : Nat)
  /-- AEAD_ENCRYPT (R411). -/
  | aeadEncrypt (r : Nat) (v : Word)
  /-- AEAD_DECRYPT (R411). -/
  | aeadDecrypt (r : Nat) (v : Word)
  /-- AEAD_WRAP (R411). -/
  | aeadWrap (r : Nat) (v : Word)
  /-- AEAD_UNWRAP (R411). -/
  | aeadUnwrap (r : Nat) (v : Word)
  /-- AEAD_GENERATE (R411). -/
  | aeadGenerate (r : Nat) (v : Word)
  /-- AEAD_JOIN_MAC (R411). -/
  | aeadJoinMac (r : Nat) (v : Word)
  /-- AEAD_OP_DONE (R412). -/
  | aeadOpDone (res : AeadAccess)
  /-- AEAD_KEY_WRITE (R414). -/
  | aeadKeyWrite (r : Nat) (v : Word)
  /-- AEAD_KEY_ZEROISE (R415). -/
  | aeadKeyZeroise (r : Nat) (v : Word)
  /-- AEAD_IDLE_RELEASE (R409). -/
  | aeadIdleRelease
  /-- ENTROPY_HEALTH_FAIL (R423). -/
  | entropyHealthFail
  /-- DRBG_RESEED (R423). -/
  | drbgReseed
  /-- CHK_START (R431). -/
  | chkStart (fw : Bool) (u : Nat)
  /-- CHK_DATA_WRITE (R432). -/
  | chkDataWrite (fw : Bool) (u : Nat) (v : Word)
  /-- CHK_PIPE_CNT_READ (R430). -/
  | chkPipeCntRead
  /-- LEDGER_CREDIT_READ (R459). -/
  | ledgerCreditRead
  /-- PAIR_STATUS_READ (R459). -/
  | pairStatusRead
  /-- HDM_VIOL_ADDR_READ (R484). -/
  | hdmViolAddrRead
  /-- HDM_VIOL_CNT_READ (R484). -/
  | hdmViolCntRead
  /-- RESET_N_ASSERT (R493). -/
  | resetNAssert
  /-- RESET_N_RELEASE (R319). -/
  | resetNRelease
  /-- SEQUENCE_START (R492). -/
  | sequenceStart (rails : Rails)
  /-- SEQUENCE_DONE (R447). -/
  | sequenceDone
  /-- RAIL_REMOVED (R493). -/
  | railRemoved (r : Rail)
  /-- POWER_GOOD (R448). -/
  | powerGood (d : Nat)
  /-- POWER_GOOD_TIMEOUT (R448). -/
  | powerGoodTimeout (d : Nat)
  /-- DOMAIN_SWITCH_START (R448). -/
  | domainSwitchStart
  /-- DRAIN_END (R449). -/
  | drainEnd (d : Nat)
  /-- POWER_DOWN_DONE (R449). -/
  | powerDownDone (d : Nat)
  /-- VDD_CORE_WINDOW_FLAG (R494). -/
  | vddCoreWindowFlag
  /-- OSC_IN_LOSS (R494). -/
  | oscInLoss
  /-- OSC_IN_RETURN (R494). -/
  | oscInReturn
  /-- THERMAL_TRIP (R496). -/
  | thermalTrip (site : Nat)
  /-- AVS_MEASUREMENT (R451). -/
  | avsMeasurement (obs : List SensorObs)
  /-- AVS_BUS_FAULT (R452). -/
  | avsBusFault
  /-- AVS_BUS_RETRY (R452). -/
  | avsBusRetry (acked : Bool)
  /-- PMBUS_POLL (R452). -/
  | pmbusPoll (readings : List Regulator)
  /-- LEDGER_HOURLY_UPDATE (R453). -/
  | ledgerHourlyUpdate (means : List MeanObs)
  /-- LEDGER_DAILY_WRITE (R453). -/
  | ledgerDailyWrite
  /-- LEDGER_YEARLY_SNAPSHOT (R453). -/
  | ledgerYearlySnapshot
  /-- AVS_AT_LIMIT_EXPIRY (R454). -/
  | avsAtLimitExpiry
  /-- TICK_STROBE (R21). -/
  | tickStrobe (obs : TickObs)
  /-- OVERRUN_LIMIT (R24). -/
  | overrunLimit (cl : Nat)
  /-- QUAL_LATE (R49). -/
  | qualLate (c : Nat)
  /-- NO_SYNC (R138). -/
  | noSync (c : Nat) (cls : Nat)
  /-- SAMPLES_LOST (R140). -/
  | samplesLost (c : Nat)
  /-- OVERLOAD (R140). -/
  | overload (c : Nat)
  /-- RECEPTION_TIMEOUT (R140). -/
  | receptionTimeout (c : Nat) (cls : Nat)
  /-- CAPTURE_FREEZE (R372). -/
  | captureFreeze
  /-- UPSTREAM_TICK_FRAME (R100). -/
  | upstreamTickFrame (p : Nat) (f : UpFrame)
  /-- PORT_DEGRADED (R100). -/
  | portDegraded (p : Nat)
  /-- PORT_READY_AGAIN (R100). -/
  | portReadyAgain (p : Nat)
  /-- PORT_REBRING (R87). -/
  | portRebring (p : Nat)
  /-- CAL_MEASURE_DONE (R110). -/
  | calMeasureDone (p : Nat)
  /-- FE_IDENTITY (R110). -/
  | feIdentity (p : Nat) (ws : List Word)
  /-- FE_CAL_REPORT (R110). -/
  | feCalReport (p : Nat) (ws : List Word)
  /-- FE_ALARM (R105). -/
  | feAlarm (p : Nat) (ws : List Word)
  /-- FE_ACK (R105). -/
  | feAck (p : Nat) (w : Word)
  /-- FE_MESSAGE_RESEND (R106). -/
  | feMessageResend (p : Nat)
  /-- BLOCK_LOCK_ACQUIRED (R74). -/
  | blockLockAcquired (lane : Nat) (inv : Bool)
  /-- BLOCK_LOCK_LOST (R74). -/
  | blockLockLost (lane : Nat)
  /-- TRAIN_WORD_RECEIVED (R83). -/
  | trainWordReceived (lane : Nat) (w : Word) (obs : TrainObs)
  /-- BRINGUP_PHASE_TIMEOUT (R84). -/
  | bringupPhaseTimeout (p : Nat)
  /-- SIGNAL_DETECTED (R87). -/
  | signalDetected (p : Nat)
  /-- DORMANT_PROBE (R88). -/
  | dormantProbe (p : Nat)
  /-- PROBE_WINDOW_END (R88). -/
  | probeWindowEnd (p : Nat)
  /-- BRINGUP_QUEUE_START (R86). -/
  | bringupQueueStart
  /-- PEER_FRAME (R462). -/
  | peerFrame (q : Nat) (f : PeerFrame)
  /-- TIME_PEER_FRAME (R340). -/
  | timePeerFrame (q : Nat) (f : PeerFrame)
  /-- PEER_MARKER_MISSING (R464). -/
  | peerMarkerMissing
  /-- FOLLOWER_TEST_EXPIRY (R468). -/
  | followerTestExpiry
  /-- ISOLATED_EXPIRY (R463). -/
  | isolatedExpiry
  /-- CANDIDATE_EXPIRY (R463). -/
  | candidateExpiry
  /-- CHECKPOINT_COMPLETE (R463). -/
  | checkpointComplete
  /-- LDPC_DISPATCH (R227). -/
  | ldpcDispatch
  /-- LDPC_DECODE_DONE (R226). -/
  | ldpcDecodeDone (d : Nat)
  /-- LDPC_KNOWN_ANSWER_TEST (R228). -/
  | ldpcKnownAnswerTest (pass : Bool)
  /-- REASM_TIMEOUT (R310). -/
  | reasmTimeout (c : Nat)
  /-- DATA_FRAME_RX (R360). -/
  | dataFrameRx (f : RxFrame)
  /-- MGMT_FRAME_RX (R360). -/
  | mgmtFrameRx (f : RxFrame)
  /-- ACK_RX (R306). -/
  | ackRx (f : RxFrame)
  /-- REPORT_RX (R304). -/
  | reportRx (f : RxFrame)
  /-- SLEEP_REQ_RX (R301). -/
  | sleepReqRx (f : RxFrame)
  /-- RELAY_BEACON_RX (R314). -/
  | relayBeaconRx (f : RxFrame)
  /-- LEAVE_RX (R304). -/
  | leaveRx (f : RxFrame)
  /-- JOIN_REQ (R295). -/
  | joinReq (f : RxFrame)
  /-- JOIN_RESPONSE (R295). -/
  | joinResponse (f : RxFrame) (u : Unit)
  /-- JOIN_CHALLENGE_TIMEOUT (R295). -/
  | joinChallengeTimeout (c : Nat) (ep : Nat)
  /-- JOIN_ABANDON (R295). -/
  | joinAbandon (c : Nat) (ep : Nat)
  /-- RANGE_REPLY (R333). -/
  | rangeReply (f : RxFrame) (u : Unit)
  /-- TURN_REPORT (R335). -/
  | turnReport (f : RxFrame)
  /-- RANGE_REPORT (R336). -/
  | rangeReport (f : RxFrame)
  /-- ACK_TIMER_EXPIRY (R307). -/
  | ackTimerExpiry (c : Nat) (a : Nat)
  /-- GAP_SKIP (R309). -/
  | gapSkip (c : Nat) (a : Nat)
  /-- POLL_ANSWER_TIMEOUT (R286). -/
  | pollAnswerTimeout (c : Nat) (a : Nat)
  /-- READDRESS_TIMEOUT (R303). -/
  | readdressTimeout (c : Nat) (a : Nat)
  /-- QUARANTINE_EXPIRY (R300). -/
  | quarantineExpiry (c : Nat) (a : Nat)
  /-- RETAIN_EXPIRY (R289). -/
  | retainExpiry (ep : Nat)
  /-- SLEEP_WAKE (R302). -/
  | sleepWake (c : Nat) (a : Nat)
  /-- TX_DESC_FETCH (R356). -/
  | txDescFetch (q : Nat) (resp : DescFetch)
  /-- TX_TOO_LONG (R358). -/
  | txTooLong (c : Nat) (a : Nat)
  /-- RX_FRAME_DELIVER (R359). -/
  | rxFrameDeliver (q : Nat) (resp : DescFetch)
  /-- MSIX_MOD_COUNT (R362). -/
  | msixModCount (rx : Bool) (q : Nat)
  /-- MSIX_MOD_TICKS (R362). -/
  | msixModTicks (rx : Bool) (q : Nat)
  /-- RING_DRAIN_END (R365). -/
  | ringDrainEnd (rx : Bool) (q : Nat)
  /-- HOST_REQUEST_FAILED (R367). -/
  | hostRequestFailed (req : HostRequest)
  /-- CXL_COMPLETION_TIMEOUT (R347). -/
  | cxlCompletionTimeout (req : HostRequest)
  /-- HOST_LINK_UP (R348). -/
  | hostLinkUp (cxl : Bool)
  /-- HOST_LINK_DOWN (R369). -/
  | hostLinkDown
  /-- HOT_RESET (R369). -/
  | hotReset
  /-- CXLMEM_HOST_READ (R368). -/
  | cxlmemHostRead (a : Nat)
  /-- CXLMEM_HOST_WRITE (R353). -/
  | cxlmemHostWrite (a : Nat) (line : List Byte) (poison : Bool)
  /-- H2D_SNOOP (R346). -/
  | h2dSnoop (a : Nat)
  /-- IDE_MAC_FAIL (R374). -/
  | ideMacFail
  /-- IDE_KEY_PROGRAM (R374). -/
  | ideKeyProgram
  /-- SPDM_REQUEST (R424). -/
  | spdmRequest (body : List Byte)
  /-- GRANT_LIST_HANDOVER (R37). -/
  | grantListHandover (sf : Nat) (grants : List Grant)
  /-- GRANT_LIST_CLOSE (R44). -/
  | grantListClose
  /-- GRANT_LIST_REUSE_EXPIRY (R37). -/
  | grantListReuseExpiry
  /-- SUPERFRAME_BOUNDARY (R262). -/
  | superframeBoundary
  /-- CHAFF_AGE_HALVING (R237). -/
  | chaffAgeHalving (c : Nat)
  /-- SF_MARK_WRITE (R264). -/
  | sfMarkWrite
  /-- ENDPOINT_SUMMARY_WRITE (R441). -/
  | endpointSummaryWrite
  /-- SF_REF_LOST (R263). -/
  | sfRefLost
  /-- PPS_IN_EDGE (R322). -/
  | ppsInEdge (pair : Nat) (obs : PpsObs)
  /-- PPS_IN_LOSS (R322). -/
  | ppsInLoss (pair : Nat)
  /-- FREQ_IN_LOSS (R322). -/
  | freqInLoss (pair : Nat)
  /-- TOD_IN_MESSAGE (R330). -/
  | todInMessage (body : List Byte) (early : Nat)
  /-- TOD_OUT_SEND (R330). -/
  | todOutSend
  /-- TKU_SECOND (R323). -/
  | tkuSecond
  /-- JUMP_DISQUALIFY_END (R324). -/
  | jumpDisqualifyEnd (k : Nat)
  /-- PEER_SOURCE_LOSS (R322). -/
  | peerSourceLoss
  /-- HOST_SOURCE_LOSS (R322). -/
  | hostSourceLoss
  /-- PEER_EXCHANGE (R338). -/
  | peerExchange (base : Nat)
  /-- MODEL_WRITE (R326). -/
  | modelWrite (fit : Model)
  /-- EVIDENCE_RECORD (R342). -/
  | evidenceRecord
  /-- EV_LATE (R343). -/
  | evLate
  /-- RECORD_SEQ_MARK_WRITE (R343). -/
  | recordSeqMarkWrite
  /-- CD_TRAIN_WORD (R211). -/
  | cdTrainWord (c : Nat) (w : Word)
  /-- CD_SWITCH_EXIT (R211). -/
  | cdSwitchExit (c : Nat)
  /-- CD_PHASE_TIMEOUT (R211). -/
  | cdPhaseTimeout (c : Nat)
  /-- CD_TRAINING_TIMEOUT (R213). -/
  | cdTrainingTimeout (c : Nat)
  /-- FEED_SEARCH_RETRY (R213). -/
  | feedSearchRetry (c : Nat)
  /-- LINK_LOST (R213). -/
  | linkLost (c : Nat)
  /-- FEED_OVERLOAD (R144). -/
  | feedOverload (c : Nat)
  /-- TAP_REVERT (R214). -/
  | tapRevert (c : Nat)
  /-- TAP_GUARD_FAIL (R214). -/
  | tapGuardFail (c : Nat)
  /-- PRBS_CHECKER_LOCK (R89). -/
  | prbsCheckerLock (l : Nat)
  /-- PRBS_LOCK_LOSS (R89). -/
  | prbsLockLoss (l : Nat)
  /-- ALERT_N_RELEASE (R495). -/
  | alertNRelease
  /-- MP_BOOT_DONE (R400). -/
  | mpBootDone (aOk : Bool) (bOk : Bool)
  /-- HDM_DECODER_COMMIT (R351). -/
  | hdmDecoderCommit (base : Nat)
  /-- MSIX_VECTOR_UNMASK (R362). -/
  | msixVectorUnmask (v : Nat)
  /-- OFF_BLOCK_READ (R475). -/
  | offBlockRead (off : Nat)
  /-- AEAD_STATUS_READ (R409). -/
  | aeadStatusRead (r : Nat)
deriving DecidableEq, Repr

end Sys2Proof
end

