-- ==== Sys2Proof/Decode.lean ====
section
/-! DEFINITION. Decoding. The block reads no instruction words: spec/opcode_table.json gives none of its rows bits (every row's field
list is empty), so no word spells a command. -/
namespace Sys2Proof

/-- The command a word spells by the table's bits: none, since no row has bits. -/
def decodeTableWord (_nbits _w : Nat) : Option Instr := none

end Sys2Proof
end

