-- ==== Sys2Proof/Machine/Bits.lean ====
section
/-! DEFINITION. Bit fields, sign extension, byte order and saturating counts (spec/00_scope.md R5, R6). -/
namespace Sys2Proof.Machine

/-- The unsigned value of bits [hi:lo] of a word (R5). -/
def fieldOf (w : Word) (hi lo : Nat) : Nat := w.toNat / 2 ^ lo % 2 ^ (hi + 1 - lo)

/-- Bit `i` of a word. -/
def bitOf (w : Word) (i : Nat) : Bool := w.getLsbD i

/-- A word holding `v`, cut to its width, in bits [hi:lo] and zero elsewhere. -/
def fieldAt (hi lo v : Nat) : Word := BitVec.ofNat 64 (v % 2 ^ (hi + 1 - lo) * 2 ^ lo)

/-- One bit at position `i`. -/
def bitAt (i : Nat) (b : Bool) : Word := if b then fieldAt i i 1 else 0

/-- The bits [hi:lo] of `old` replaced by those of `new`. -/
def setField (old : Word) (hi lo v : Nat) : Word :=
  (old &&& ~~~ fieldAt hi lo (2 ^ (hi + 1 - lo) - 1)) ||| fieldAt hi lo v

/-- An unsigned `n`-bit value read as two's complement. -/
def signedOf (n v : Nat) : Int :=
  if v % 2 ^ n < 2 ^ (n - 1) then Int.ofNat (v % 2 ^ n) else Int.ofNat (v % 2 ^ n) - 2 ^ n

/-- An integer as an `n`-bit two's complement pattern. -/
def twosOf (n : Nat) (i : Int) : Nat := (i % (2 ^ n : Int)).toNat

/-- A word read as a 64-bit two's complement integer. -/
def intOf (w : Word) : Int := w.toInt

/-- A 32-bit saturating counter raised by `n` (R9, the counters of every chapter). -/
def sat32 (c n : Nat) : Nat := min (c + n) 0xFFFFFFFF

/-- A 16-bit saturating counter raised by `n`. -/
def sat16 (c n : Nat) : Nat := min (c + n) 0xFFFF

/-- The eight bytes of a word, least significant first (R5: registers are little-endian). -/
def bytesLE (w : Word) : List Byte :=
  (List.range 8).map fun i => BitVec.ofNat 8 (w.toNat / 2 ^ (8 * i))

/-- The eight bytes of a word, most significant first (R5, R6: the wire order). -/
def bytesBE (w : Word) : List Byte := (bytesLE w).reverse

/-- The number whose bytes, least significant first, are the list. -/
def natLE : List Byte → Nat
  | [] => 0
  | b :: bs => b.toNat + 256 * natLE bs

/-- The word whose bytes, least significant first, are the list. -/
def wordLE (bs : List Byte) : Word := BitVec.ofNat 64 (natLE bs)

/-- The word whose bytes, most significant first, are the list. -/
def wordBE (bs : List Byte) : Word := wordLE bs.reverse

/-- Consecutive runs of eight bytes of a list, as words of the byte order `f`; `n` words. -/
def wordsWith (f : List Byte → Word) : Nat → List Byte → List Word
  | 0, _ => []
  | n + 1, bs => f (bs.take 8) :: wordsWith f n (bs.drop 8)

/-- `n` bytes of a number, most significant first. -/
def bytesOfNat (n v : Nat) : List Byte := (List.range n).map fun i => BitVec.ofNat 8 (v / 2 ^ (8 * (n - 1 - i)))

/-- The number that bytes spell, most significant first. -/
def natBE (bs : List Byte) : Nat := natLE bs.reverse

/-- The bits of a byte, most significant first. -/
def bitsBE (b : Byte) : List Bool := (List.range 8).map fun i => b.getLsbD (7 - i)

/-- The `n` low bits of a number, most significant first. -/
def natBits (n v : Nat) : List Bool := (List.range n).map fun i => v / 2 ^ (n - 1 - i) % 2 == 1

/-- The number whose bits, most significant first, are the list. -/
def bitsNat (bs : List Bool) : Nat := bs.foldl (fun a b => 2 * a + (if b then 1 else 0)) 0

/-- The `n` low bits of a number in reverse order. -/
def reflectNat (n v : Nat) : Nat := bitsNat (natBits n v).reverse

end Sys2Proof.Machine
end

