-- ==== Sys2Proof/Machine/Aes.lean ====
section
/-! DEFINITION. AES-128 and AES-256 of FIPS 197, and the modes GCM and CCM of NIST SP 800-38D and SP 800-38C with nonces of 96 bits, which
spec/16_security_engine.md R405 names: PRESUMED, the standards' own constants and steps, which the spec names and does not reprint. -/
namespace Sys2Proof.Machine

/-- The S-box, entry i in bits [8 i + 7 : 8 i]. -/
def aesSbox : Nat :=
  0x16bb54b00f2d99416842e6bf0d89a18cdf2855cee9871e9b948ed9691198f8e19e1dc186b95735610ef6034866b53e708a8bbd4b1f74dde8c6b4a61c2e2578ba08ae7a65eaf4566ca94ed58d6d37c8e779e4959162acd3c25c2406490a3a32e0db0b5ede14b8ee4688902a22dc4f816073195d643d7ea7c41744975fec130ccdd2f3ff1021dab6bcf5389d928f40a351a89f3c507f02f94585334d43fbaaefd0cf584c4a39becb6a5bb1fc20ed00d153842fe329b3d63b52a05a6e1b1a2c830975b227ebe28012079a059618c323c7041531d871f1e5a534ccf73f362693fdb7c072a49cafa2d4adf04759fa7dc982ca76abd7fe2b670130c56f6bf27b777c63
def aesSub (x : Nat) : Nat := aesSbox / 2 ^ (8 * x) % 256

/-- Multiplication by x in the field of AES. -/
def aesDouble (x : Nat) : Nat := if x < 128 then 2 * x else (2 * x) ^^^ 0x11B

/-- A 32-bit word by the S-box, byte by byte, and turned left by a byte. -/
def aesSubWord (w : Nat) : Nat := ((List.range 4).map fun i => aesSub (w / 2 ^ (8 * i) % 256) * 2 ^ (8 * i)).foldl (· + ·) 0
def aesRotWord (w : Nat) : Nat := w % 2 ^ 24 * 256 + w / 2 ^ 24

/-- The key schedule: `n` words more, the newest first; `nk` is the number of words of the key and `rc` the next round constant. -/
def aesExpand (nk : Nat) : Nat → Nat → Nat → List Nat → List Nat
  | 0, _, _, ws => ws
  | n + 1, i, rc, ws =>
    let t := ws.headD 0
    let u := if i % nk = 0 then aesSubWord (aesRotWord t) ^^^ rc * 2 ^ 24 else if nk = 8 ∧ i % 8 = 4 then aesSubWord t else t
    aesExpand nk n (i + 1) (if i % nk = 0 then aesDouble rc else rc) ((ws.getD (nk - 1) 0 ^^^ u) :: ws)

/-- The round keys of a key of 16 or 32 bytes, as numbers of 128 bits. -/
def aesKeys (key : List Nat) : List Nat :=
  let nk := key.length
  let ws := (aesExpand nk (3 * nk + 28) nk 1 key.reverse).reverse
  (List.range (nk + 7)).map fun r => (List.range 4).foldl (fun a i => a * 2 ^ 32 + ws.getD (4 * r + i) 0) 0

/-- The bytes of a block, byte 0 the most significant; and back. -/
def aesBytes (b : Nat) : List Nat := (List.range 16).map fun i => b / 2 ^ (8 * (15 - i)) % 256
def aesBlock (bs : List Nat) : Nat := bs.foldl (fun a x => a * 256 + x) 0

/-- SubBytes and ShiftRows: byte r + 4 c comes from column c + r. -/
def aesShift (bs : List Nat) : List Nat := (List.range 16).map fun i => aesSub (bs.getD ((i + 4 * (i % 4)) % 16) 0)
/-- MixColumns. -/
def aesMix (bs : List Nat) : List Nat :=
  (List.range 16).map fun i =>
    let at_ := fun (k : Nat) => bs.getD (i / 4 * 4 + (i + k) % 4) 0
    aesDouble (at_ 0) ^^^ aesDouble (at_ 1) ^^^ at_ 1 ^^^ at_ 2 ^^^ at_ 3

/-- A block enciphered under round keys. -/
def aesRounds : List Nat → Nat → Nat
  | [], b => b
  | [k], b => aesBlock (aesShift (aesBytes b)) ^^^ k
  | k :: ks, b => aesRounds ks (aesBlock (aesMix (aesShift (aesBytes b))) ^^^ k)
def aesEncrypt (ks : List Nat) (b : Nat) : Nat := aesRounds (ks.drop 1) (b ^^^ ks.headD 0)

/-- A list of bytes in blocks of 16, the last filled with zeros, as numbers. -/
def gcmBlocks : Nat → List Byte → List Nat
  | 0, _ => []
  | n + 1, bs => aesBlock (((bs.take 16).map BitVec.toNat) ++ List.replicate (16 - (bs.take 16).length) 0) :: gcmBlocks n (bs.drop 16)
def blocksOf (bs : List Byte) : List Nat := gcmBlocks ((bs.length + 15) / 16) bs

/-- The bytes of blocks, and a text combined with a key stream. -/
def bytesOfBlocks (bs : List Nat) : List Byte := bs.flatMap fun b => (aesBytes b).map (BitVec.ofNat 8)
def xorBytes (bs ks : List Byte) : List Byte := List.zipWith (· ^^^ ·) bs ks

/-- A product in the field of GCM: bit 0 is the most significant. `n` steps on, of the bits of `x` that are left. -/
def gcmMul : Nat → Nat → Nat → Nat → Nat
  | 0, _, _, z => z
  | n + 1, x, v, z =>
    gcmMul n x (if v % 2 = 1 then v / 2 ^^^ 0xE1 * 2 ^ 120 else v / 2) (if x / 2 ^ n % 2 = 1 then z ^^^ v else z)
def gcmHash (h : Nat) (bs : List Nat) : Nat := bs.foldl (fun y b => gcmMul 128 (y ^^^ b) h 0) 0

/-- The key stream of counter blocks: `top` holds what stands before the counter, in units of 2^32. -/
def ctrStream (ks : List Nat) (top first n : Nat) : List Byte :=
  bytesOfBlocks ((List.range n).map fun i => aesEncrypt ks (top * 2 ^ 32 + (first + i) % 2 ^ 32))

/-- The tag of GCM before it is cut, over associated data and ciphertext. -/
def gcmTag (ks : List Nat) (nonce : Nat) (ad text : List Byte) : List Byte :=
  let y := gcmHash (aesEncrypt ks 0) (blocksOf ad ++ blocksOf text ++ [8 * ad.length * 2 ^ 64 + 8 * text.length])
  bytesOfBlocks [y ^^^ aesEncrypt ks (nonce * 2 ^ 32 + 1)]
def gcmCrypt (ks : List Nat) (nonce : Nat) (text : List Byte) : List Byte :=
  xorBytes text (ctrStream ks nonce 2 ((text.length + 15) / 16))

/-- The tag of CCM before it is cut, over associated data and plain text: a length field of 3 bytes, and associated data under 65,280 bytes. -/
def ccmTag (ks : List Nat) (nonce : Nat) (ad text : List Byte) (tagLen : Nat) : List Byte :=
  let b0 := ((if ad.isEmpty then 0 else 64) + 8 * ((tagLen - 2) / 2) + 2) * 2 ^ 120 + nonce * 2 ^ 24 + text.length
  let head := if ad.isEmpty then [] else blocksOf (BitVec.ofNat 8 (ad.length / 256) :: BitVec.ofNat 8 ad.length :: ad)
  let y := (b0 :: head ++ blocksOf text).foldl (fun y b => aesEncrypt ks (y ^^^ b)) 0
  bytesOfBlocks [y ^^^ aesEncrypt ks (2 * 2 ^ 120 + nonce * 2 ^ 24)]
def ccmCrypt (ks : List Nat) (nonce : Nat) (text : List Byte) : List Byte :=
  xorBytes text (bytesOfBlocks ((List.range ((text.length + 15) / 16)).map fun i => aesEncrypt ks (2 * 2 ^ 120 + nonce * 2 ^ 24 + i + 1)))

/-- The 32-bit words of a key held in 64-bit words. -/
def aesKeyWords (key : List Word) : List Nat := key.flatMap fun w => [fieldOf w 63 32, fieldOf w 31 0]

/-- AES in GCM or, where `ccm`, in CCM (R405): key words, 96-bit nonce, associated data and text to ciphertext and tag of the given length. -/
@[irreducible] def aeadSeal (ccm : Bool) (key : List Word) (nonce : Nat) (ad text : List Byte) (tagLen : Nat) : List Byte × List Byte :=
  let ks := aesKeys (aesKeyWords key)
  if ccm then (ccmCrypt ks nonce text, (ccmTag ks nonce ad text tagLen).take tagLen)
  else
    let c := gcmCrypt ks nonce text
    (c, (gcmTag ks nonce ad c).take tagLen)

/-- The inverse (R405): ciphertext and tag to text, none where the tag does not match. -/
@[irreducible] def aeadOpen (ccm : Bool) (key : List Word) (nonce : Nat) (ad text tag : List Byte) : Option (List Byte) :=
  let ks := aesKeys (aesKeyWords key)
  if ccm then
    let p := ccmCrypt ks nonce text
    if (ccmTag ks nonce ad p tag.length).take tag.length = tag then some p else none
  else if (gcmTag ks nonce ad text).take tag.length = tag then some (gcmCrypt ks nonce text) else none

end Sys2Proof.Machine
end

