-- ==== Sys2Proof/Machine/Crc.lean ====
section
/-! DEFINITION. Cyclic redundancy checks: the native CRC-32C (spec/17_check_units.md R426, R427), the configurable check of the
software units (R432), the header CRC of R156 and the CRC-8 of the training words (R82). -/
namespace Sys2Proof.Machine

/-- One bit into an unreflected register of `width` bits (R432). -/
def crcBit (width poly reg : Nat) (b : Bool) : Nat :=
  let top := reg / 2 ^ (width - 1) % 2 == 1
  let sh := reg * 2 % 2 ^ width
  if top != b then Nat.xor sh (poly % 2 ^ width) else sh

/-- A run of bits into the register, in order. -/
def crcBits (width poly : Nat) (reg : Nat) (bs : List Bool) : Nat := bs.foldl (crcBit width poly) reg

/-- One byte into the register, most significant bit first, or least significant first where `refin` holds. -/
def crcByte (width poly : Nat) (refin : Bool) (reg : Nat) (b : Byte) : Nat :=
  crcBits width poly reg (if refin then (bitsBE b).reverse else bitsBE b)

/-- Bytes into the register. -/
def crcBytes (width poly : Nat) (refin : Bool) (reg : Nat) (bs : List Byte) : Nat :=
  bs.foldl (crcByte width poly refin) reg

/-- The register as a check value (R432). -/
def crcOut (width : Nat) (refout : Bool) (xorout reg : Nat) : Nat :=
  Nat.xor (if refout then reflectNat width reg else reg % 2 ^ width) (xorout % 2 ^ width)

/-- The native check value CRC-32C of a byte string (R426, without the fold). -/
def crc32c (bs : List Byte) : Nat :=
  crcOut 32 true 0xFFFFFFFF (crcBytes 32 0x1EDC6F41 true 0xFFFFFFFF bs)

/-- CRC-16 with polynomial 0x1021, initial value `init`, no reflection (R156, R330). -/
def crc16 (init : Nat) (bs : List Bool) : Nat := crcBits 16 0x1021 init bs

/-- CRC-8 with polynomial 0x07 and initial value 0xFF (R82). -/
def crc8 (bs : List Bool) : Nat := crcBits 8 0x07 0xFF bs

/-- The fold of R427: four bytes formed from the circuit, DEST and SEQ. -/
def foldBytes (circuit dest seq : Nat) : List Byte :=
  let v := (circuit % 16 * 4096 + dest % 4096) * 65536 + seq % 4096
  [BitVec.ofNat 8 (v / 16777216), BitVec.ofNat 8 (v / 65536), BitVec.ofNat 8 (v / 256), BitVec.ofNat 8 v]

end Sys2Proof.Machine
end

