-- ==== Sys2Proof/Config.lean ====
section
/-! DEFINITION. The values the spec leaves open, as constants with no body: nothing can prove a value of them. -/
namespace Sys2Proof.Config

/-- A free value: the n-th one the machine has drawn. Random tags, epochs, offsets the firmware picks and every result the
spec leaves open are taken from it. -/
opaque freeWord : Nat → Word

/-- The packing of a device-wide setting into its configuration word (R440: internal to firmware 4.2): opcode, values. -/
opaque settingWord : Nat → Nat
opaque settingValue : Nat → List Int → Word

/-- The Gwerath firmware key of 96 bytes, of which the device holds the digest (R399, R444). -/
opaque firmwareKey : List Byte

/-- The n-th word drawn from the DRBG (R423). -/
opaque drbg : Nat → Word

/-- Results of the firmware's own computations that the spec names without a formula: which rule, its inputs. -/
opaque derived : Nat → List Int → Int

/-- Filters of the receive and transmit paths for which the spec gives no coefficients, as functions of the samples of the frame before and of the
present one. A class's band (R166: 1 T, 2 A, 3 D): its 250 samples. -/
opaque bandFilter : Nat → List Int → List Int → List Int

/-- The band at baseband, at 2 complex samples for each chip (R134, R185), of the band's power: 40 a tick for Class T, 100 for Class A. -/
opaque baseband : Nat → List Int → List Int → List (Int × Int)

/-- A real signal at 2 samples for each symbol (R209): a rate (1: 100 MBd), the timing phase in 1/64 symbol, two frames. -/
opaque resample : Nat → Int → List Int → List Int → List Int

/-- Expected chips passed through a profile's notches (R256), and the fixed bias of the ranging fit in 1/16 ns (R163, R256). -/
opaque notchRef : Nat → List (Int × Int) → List (Int × Int)
opaque rangeBias : Nat → Int

/-- The notch bank (R243, R258): its bands in kHz, its state and its input; its output and its state. -/
opaque notchBank : List (Nat × Nat) → List Int → List Int → List Int × List Int

/-- The bank's group delay at a class's band centre, in samples (R244): 1 T, 2 A, 3 D. -/
opaque bankDelay : List (Nat × Nat) → Nat → Int

/-- The Class D shaping filter that the device designs for a profile whose notches reach the band's edge (R247): taps 0 to 16. -/
opaque edgeFilter : Nat → List Int

/-- LLR steps for each unit of a class's log-likelihood ratio (R169, R185, R209 give 6 bits and no step). -/
opaque llrSteps : Nat → Nat

/-- NEED_V of a sensor whose slack gain K is zero, in 1/100 mV (R453 divides by K). -/
opaque needVoltageNoGain : Int → Int

/-- Words 32 up of the MCTP control responses that the MCTP base specification defines (R396). -/
opaque mctpControl : Nat → List Byte → List Byte

end Sys2Proof.Config
end

