-- ==== Sys2Proof/Machine/State.lean ====
section
/-! DEFINITION. The state of the block, the reasons a step can stop, and the state after reset. -/
namespace Sys2Proof.Machine

/-- What the block emits: the model's own record, newest first, of everything the world outside can see. No rule names it
as state; it makes emissions comparable data. -/
inductive Out where
  /-- An MSI-X message: vector, address and data (R362). -/
  | msix (vector : Nat) (addr : Word) (data : Nat)
  /-- The words a read returned (R9). -/
  | read (words : List Word)
  /-- The running core is interrupted for a mailbox doorbell, 6 cycles after the write (R34, R380). -/
  | mpIrq (m : Nat)
  /-- A write of bytes into host memory (R346). -/
  | host (addr : Nat) (bytes : List Byte)
  /-- An MCTP response body (R396, R397). -/
  | mctp (body : List Byte)
  /-- A frame queued for sending on a circuit (R32). -/
  | send (circuit : Nat) (f : Frame)
  /-- A frame handed to the running MP (R360). -/
  | toMp (f : RxFrame)
  /-- A downstream control message of a front-end port, or a training or test signal's start or end on a port. -/
  | port (p : Nat) (words : List Word)
  /-- The TICK_MARK block that precedes a port's frame on each of its lanes (R73, R75, R78). -/
  | mark (p : Nat) (block : Word)
  /-- A lane's TRAIN block when its training word changes; it repeats, each followed by 31 IDLE blocks (R81). -/
  | train (lane : Nat) (block : Word)
  /-- The first bits of a lane's PRBS pattern (R89). -/
  | prbs (lane : Nat) (bits : List Bool)
  /-- The head-end's training word on a feed circuit (R210). -/
  | feedWord (circuit : Nat) (w : Word)
  /-- A TOD_OUT message (R330). -/
  | tod (bytes : List Byte)
  /-- PPS_OUT pulses of a whole second: the two advances in 1/16 ns and the width in us (R331). -/
  | pps (comp0 comp1 width : Nat)
  /-- An AVSBus write of a set point in units of 2.5 mV (R452). -/
  | avs (setPoint : Nat)
  /-- A CXL.mem read's data and whether it is poisoned (R368). -/
  | cxl (data : List Byte) (poison : Bool)
  /-- Back-invalidations of granary lines that the device writes (R29): the first line's offset over 64, and how many. -/
  | backInv (line count : Nat)
  /-- A snoop answered as a miss (R346). -/
  | snoopMiss (a : Nat)
  /-- An SPDM response formed from the attestation identity and measurements (R424). -/
  | spdm (words : List Word)
  /-- A beacon or grant sheet of a circuit (R275 to R280). -/
  | beacon (circuit : Nat) (bytes : List Byte)
  /-- A complete received frame that passed every check of R429. -/
  | accepted (f : RxFrame)
deriving DecidableEq, Repr, Inhabited

/-- Why a step ends in a fault. -/
inductive Fault where
  /-- Raised by a command that names an object the device does not have by its numbering (R13): a port above Q3, a ring above
  255, a check unit above 7. Safe: no such command can be sent. -/
  | noSuchObject
deriving DecidableEq, Repr

/-- Why a step refuses a command. -/
inductive Refusal where
  /-- Raised by the dispatch of a command that has no meaning yet. Safe. -/
  | notModelled (mnemonic : String)
deriving DecidableEq, Repr

/-- The state of the block. -/
structure State where
  clk : Clock := {}
  pins : Pins := {}
  pwr : Power := {}
  avs : Avs := {}
  age : Ageing := {}
  keep : Keep := {}
  chk : Chk := {}
  mb : Mailboxes := {}
  mp : Mp := {}
  irq : Irq := {}
  aead : Aead := {}
  sec : Sec := {}
  host : HostLink := {}
  mem : Memory := {}
  pair : Pair := {}
  tku : Tku := {}
  ev : Evidence := {}
  sf : Sf := {}
  plan : Plans := {}
  port : Ports := {}
  circ : Circuits := {}
  feed : Feeds := {}
  ldpc : Ldpc := {}
  link : Links := {}
  air : Air := {}
  /-- The emissions so far, newest first (the model's own). -/
  out : List Out := []
  /-- The commands waiting, first in, first out. -/
  pending : List Instr := []
deriving DecidableEq, Repr, Inhabited

/-- The machine right after reset. Every field's value stands beside its declaration. -/
def State.reset : State := {}

end Sys2Proof.Machine
end

