-- ==== Sys2Proof/Machine/Flags.lean ====
section
/-! DEFINITION. Status words computed from the state: INT_CAUSE and PENDING (R480, R481), DEV_STATUS (R479), the domain status
words (R446), TKU_STATUS and the time quality code (R320, R321), LEDGER_STATUS, PAIR_STATUS (R459), ID_RESOURCES (R478). -/
namespace Sys2Proof.Machine

/-- The device is a PT-8800-H: VARIANT of identity word 1 (R2, R444). -/
def isH (s : State) : Bool := fieldOf (tabGet {} s.keep.cells 1).value 14 7 == 2

/-- The domain record of Dd. -/
def domOf (s : State) (d : Nat) : Dom := tabGet {} s.pwr.dom d

/-- The domain is ENABLED. -/
def domOn (s : State) (d : Nat) : Bool := (domOf s d).state == .enabled

/-- INT_CAUSE (R480): bits 9 to 13 stored, bits 0 to 8 derived from their sources. -/
def intCause (s : State) : Word :=
  s.irq.cause
  ||| bitAt 8 s.aead.revoked
  ||| bitAt 7 s.mem.violValid
  ||| bitAt 6 s.mem.err
  ||| bitAt 5 s.tku.capDone
  ||| bitAt 4 (s.pwr.domEvent != 0)
  ||| bitAt 3 (s.tku.events != 0)
  ||| bitAt 2 (s.pair.ledger != 0)
  ||| bitAt 1 (s.irq.mbDone != 0)
  ||| bitAt 0 (!s.irq.log.isEmpty)

/-- PENDING: INT_CAUSE AND NOT INT_MASK (R481). -/
def intPending (s : State) : Word := intCause s &&& ~~~ s.irq.mask

/-- The code of a domain state (R446). -/
def domCode : DomState → Nat
  | .off => 0
  | .poweringUp => 1
  | .enabled => 2
  | .draining => 3
  | .poweringDown => 4
  | .absent => 5
  | .fault => 6

/-- Domain codes of Da to D(a+n-1), four bits each. -/
def domPack (s : State) (a n : Nat) : Word :=
  (List.range n).foldl (fun w i => w ||| fieldAt (4 * i + 3) (4 * i) (domCode (domOf s (a + i)).state)) 0

/-- DOM_STATUS0 and DOM_STATUS1 (R446). -/
def domStatus0 (s : State) : Word := domPack s 0 16
def domStatus1 (s : State) : Word := domPack s 16 14

/-- Core k: 0 MP-A, 1 MP-B. -/
def coreOf (s : State) (k : Nat) : Core := if k = 0 then s.mp.coreA else s.mp.coreB

/-- RUNNING of DEV_STATUS (R479). -/
def runningCode (s : State) : Nat :=
  if s.mp.coreA.role = .running ∨ s.mp.coreA.role = .romLoader then 1
  else if s.mp.coreB.role = .running ∨ s.mp.coreB.role = .romLoader then 2 else 0

/-- The image the running core executes (R478). -/
def runningImage (s : State) : Image := if runningCode s = 2 then s.mp.coreB.image else s.mp.coreA.image

/-- The running core executes the ROM loader (R400). -/
def romLoader (s : State) : Bool := s.mp.coreA.role == .romLoader || s.mp.coreB.role == .romLoader

/-- The standby core is READY (R377). -/
def standbyReady (s : State) : Bool :=
  (s.mp.coreA.role == .standby && s.mp.coreA.ready) || (s.mp.coreB.role == .standby && s.mp.coreB.ready)

/-- SYNC_STATE code of the superframe timer (R263, R275). -/
def sfCode : SfState → Nat
  | .locked => 1
  | .slewing => 2
  | .free => 3

/-- ID_DEVICE (R478). -/
def idDevice (s : State) : Word :=
  let w1 := (tabGet {} s.keep.cells 1).value
  fieldAt 63 48 0x1F3E ||| fieldAt 47 32 0x8800 ||| fieldAt 31 24 (fieldOf w1 22 15)
  ||| fieldAt 23 16 (fieldOf w1 14 7) ||| fieldAt 15 0 (if runningCode s = 0 ∨ romLoader s then 0 else (runningImage s).release)

/-- ID_BUILD (R478). -/
def idBuild (s : State) : Word :=
  let c := if runningCode s = 2 then s.mp.coreB else s.mp.coreA
  if runningCode s = 0 ∨ romLoader s then 0
  else fieldAt 63 32 c.image.build ||| fieldAt 31 16 c.image.sec ||| fieldAt 15 15 c.bank ||| bitAt 14 c.fromStage

/-- ID_RESOURCES (R478). -/
def idResources (s : State) : Word := if isH s then 0x00000FFF0000FFFF else 0x000FFFFFFFFFFFFF

/-- DEV_STATUS (R479). -/
def devStatus (s : State) : Word :=
  fieldAt 63 62 (runningCode s) ||| bitAt 61 (standbyReady s) ||| bitAt 60 (romLoader s)
  ||| bitAt 59 s.host.pcieOnly ||| bitAt 58 s.host.ideActive ||| bitAt 57 s.host.ideRequired
  ||| bitAt 56 s.pwr.seqRunning ||| bitAt 55 s.mp.armed.isSome
  ||| bitAt 54 (s.mp.bankA.state == .trial || s.mp.bankB.state == .trial)
  ||| bitAt 53 (!s.plan.active.isEmpty) ||| bitAt 52 (s.plan.stage == .armed)
  ||| bitAt 51 (s.circ.profile != 0) ||| fieldAt 50 48 (sfCode s.sf.state) ||| fieldAt 39 0 s.sf.number

/-- DEV_THERMAL (R479). -/
def devThermal (s : State) : Word := fieldAt 63 48 (twosOf 16 s.avs.tj) ||| fieldAt 47 40 s.avs.site

/-- TKU state code (R320). -/
def tkuCode : TkuState → Nat
  | .acquire => 1
  | .locked => 2
  | .holdover => 3
  | .tracking => 4

/-- The least n from `n` on, of at most `fuel` tries, with 64 * 2^n at least the square of the bound: 8 * 2^(n/2) ns reaches
the bound exactly when 64 * 2^n reaches its square. Bounds are in 1/16 ns (R321). -/
def boundFrom : Nat → Nat → Nat → Nat
  | 0, _, n => n
  | fuel + 1, b, n => if b * b ≤ 64 * 256 * 2 ^ n then n else boundFrom fuel b (n + 1)

/-- BOUND of the time quality code for a bound in 1/16 ns; 31 when it exceeds 262,144 ns or is unknown (R321). -/
def boundCode : Option Nat → Nat
  | none => 31
  | some b => if 262144 * 16 < b then 31 else boundFrom 30 b 0

/-- A source (R322): 1 PPS0, 2 PPS1, 3 PEER, 4 HOST. -/
def srcOf (s : State) (k : Nat) : Source := tabGet {} s.tku.src k

/-- The model in force: none where one of its words is found corrupt or WORN (R326). -/
def liveModel (s : State) : Option Model :=
  if [256, 257, 258, 259, 260].any fun w => decide (100000 ≤ (tabGet {} s.keep.cells w).wear) || (tabGet {} s.keep.cells w).corrupt then none else s.tku.model

/-- U_F and U_A in force, as fractions' units: 2^-48 and 2^-56 per day; without a model U_F is 1e-9 (R326). -/
def modelU (s : State) : Nat × Nat :=
  match liveModel s with
  | some m => (m.uf, m.ua)
  | none => (281475, 0)

/-- The holdover bound in 1/16 ns after `t` seconds: B_entry + 3 U_F t + 1.5 U_A t^2 / 86,400 (R326), rounded up. -/
def holdBound (s : State) (entry t : Nat) : Nat :=
  let u := modelU s
  -- U_F in 2^-48 s/s gives U_F * 16e9 / 2^48 sixteenths of a ns per second
  entry + (3 * u.1 * t * 16000000000 + 2 ^ 48 - 1) / 2 ^ 48
    + (3 * u.2 * t * t * 16000000000 + 2 * 86400 * 2 ^ 56 - 1) / (2 * 86400 * 2 ^ 56)

/-- B_TKU in 1/16 ns, none when unknown (R321): the selected source's bound plus 5 ns, or the holdover bound. -/
def bTku (s : State) : Option Nat :=
  match s.tku.state with
  | .holdover =>
    match s.tku.holdEntry with
    | some e => some (holdBound s e s.tku.holdSeconds)
    | none => none
  | _ => if s.tku.selected = 0 then none else some (((srcOf s s.tku.selected).bound + 5) * 16)

/-- The TRACEABLE bit (R321, R506). -/
def traceable (s : State) : Bool :=
  match s.tku.state with
  | .acquire => false
  | .holdover =>
    s.tku.holdTrace && (match bTku s with
      | some b => decide (b ≤ s.tku.settings.traceLimit * 16)
      | none => false)
  | _ => s.tku.selected != 0 && (srcOf s s.tku.selected).traceable

/-- STATE of the time quality code (R321). -/
def qualState : TkuState → Nat
  | .acquire => 0
  | .locked => 1
  | .holdover => 2
  | .tracking => 3

/-- TIME_QUAL (R321). -/
def timeQual (s : State) : Nat :=
  qualState s.tku.state * 64 + (if traceable s then 32 else 0)
    + (if s.tku.state = .acquire then 31 else boundCode (bTku s))

/-- TKU_STATUS (R320). -/
def tkuStatus (s : State) : Word :=
  fieldAt 63 56 (timeQual s) ||| fieldAt 55 52 s.tku.selected ||| fieldAt 51 48 (tkuCode s.tku.state)
  ||| fieldAt 47 32 s.tku.events.toNat ||| fieldAt 31 0 (if s.tku.state = .holdover then s.tku.holdSeconds else 0)

/-- ROLE code (R459). -/
def roleCode : PairRole → Nat
  | .unpaired => 0
  | .candidate => 1
  | .active => 2
  | .standby => 3
  | .isolated => 4

/-- PAIR_STATUS (R459). -/
def pairStatus (s : State) : Word :=
  fieldAt 63 61 (roleCode s.pair.role) ||| fieldAt 60 59 s.pair.sbState
  ||| (s.pair.ports.foldl (fun w m => w ||| bitAt (55 + m) (decide (m < 4))) 0)
  ||| fieldAt 47 32 s.pair.takeovers ||| fieldAt 31 16 s.pair.splits ||| fieldAt 15 0 s.pair.cellLost

/-- LEDGER_STATUS (R459). -/
def ledgerStatus (s : State) : Word := fieldAt 63 24 s.pair.checkSf ||| s.pair.ledger

/-- LEDGER_CREDIT (R459). -/
def ledgerCredit (s : State) : Word :=
  fieldAt 63 32 s.pair.checks ||| fieldAt 31 16 s.pair.fails ||| fieldAt 15 0 s.pair.skipped

/-- AEAD_LOCK (R410). -/
def aeadLock (s : State) : Word :=
  (s.aead.queue.foldl (fun w r => w ||| bitAt (19 + r) (decide (1 ≤ r ∧ r ≤ 4))) 0)
  ||| bitAt 16 s.aead.revoked ||| fieldAt 2 0 s.aead.owner

/-- AEAD_STATUS (R410). -/
def aeadStatus (s : State) : Word :=
  fieldAt 63 62 (match s.aead.st with
    | .idle => 0
    | .running => 1
    | .done => 2) ||| fieldAt 55 48 s.aead.result ||| fieldAt 12 0 s.aead.bytesDone

/-- ALERT_N is asserted (R495). -/
def alertN (s : State) : Bool :=
  ([24, 25, 26, 27].any fun m => (tabGet {} s.mb.box m).st == .done)
  || decide (105 * 16 ≤ s.avs.tj) || s.avs.busFault || s.pins.vddFlagAt.isSome || s.pins.oscLostAt.isSome

/-- LREF_OUT[k] and SPREF_OUT[k] run (R65, R498): while D0 is powered and OSC_IN is present; LREF_OUT[4] to [7] are held low on the PT-8800-H. -/
def lrefRuns (s : State) (k : Nat) : Bool := domOn s 0 && s.pins.oscPresent && !(isH s && decide (4 ≤ k))
def sprefRuns (s : State) : Bool := domOn s 0 && s.pins.oscPresent

/-- Superframes are being counted (R508): from the first superframe until D28 leaves ENABLED. -/
def counting (s : State) : Bool := s.sf.running && domOn s 28

end Sys2Proof.Machine
end

