-- ==== Sys2Proof/Machine/Mem.lean ====
section
/-! DEFINITION. Byte-addressed storage (near store, PLAN_STAGE, granary) over the sparse tables: an unlisted byte reads as zero. -/
namespace Sys2Proof.Machine

/-- The bytes at consecutive addresses. -/
def memRead (m : Tab Byte) (a n : Nat) : List Byte := tabGetMany 0 m a n

/-- Bytes written at consecutive addresses. -/
def memWrite (m : Tab Byte) (a : Nat) (bs : List Byte) : Tab Byte := tabPutMany 0 m a bs

/-- A 64-bit word at an address; byte 0 at the lowest address holds bits [7:0] (R5, R6). -/
def memWord (m : Tab Byte) (a : Nat) : Word := wordLE (memRead m a 8)

/-- `n` consecutive words. -/
def memWords (m : Tab Byte) (a n : Nat) : List Word := (List.range n).map fun i => memWord m (a + 8 * i)

/-- Words written at consecutive word addresses. -/
def memWriteWords : Tab Byte → Nat → List Word → Tab Byte
  | m, _, [] => m
  | m, a, w :: ws => memWriteWords (memWrite m a (bytesLE w)) (a + 8) ws

/-- The bytes of a list of words in memory order. -/
def wordsBytes (ws : List Word) : List Byte := ws.flatMap bytesLE

end Sys2Proof.Machine
end

