-- ==== Sys2Proof/Machine/Ops.lean ====
section
/-! DEFINITION. Shared operations: the outcome of a command with its interrupt signalling (R481), MSI-X (R362), the event log
(R394), free values, keep-store writes by the running MP (R438, R439) and the contents a power domain holds (R445, R449). -/
namespace Sys2Proof.Machine

/-- What a meaning answers. -/
abbrev Result := Host.Outcome State Fault Refusal

/-- An emission recorded. -/
def emit (o : Out) (s : State) : State := { s with out := o :: s.out }

/-- The device writes granary bytes (R29): with the CXL link up the host's copies of their lines are invalidated. -/
def backInv (a n : Nat) (s : State) : State :=
  if s.host.up && !s.host.pcieOnly && decide (0 < n) then emit (.backInv (a / 64) ((a + n + 63) / 64 - a / 64)) s else s

/-- A message due on an MSI-X vector (R362): a masked vector sets its pending bit, an unmasked one sends; without a host
link nothing leaves the device. -/
def signalVector (v : Nat) (s : State) : State :=
  let e := tabGet {} s.irq.msix v
  if e.masked then { s with irq := { s.irq with msix := tabPut {} s.irq.msix v { e with pend := true } } }
  else if s.host.up then emit (.msix v e.addr e.data) s else s

/-- Causes that rose between `s` and `t` signal EVENT_VECTOR once (R481). -/
def signalRise (s t : State) : State :=
  if intPending t &&& ~~~ intPending s = 0 then t else signalVector t.irq.vector t

/-- The outcome of a command whose effect on `s` is `t`: the causes that rose are signalled, and the queue is left as it was. -/
def commit (s t : State) : Result := .next (signalRise s { t with pending := s.pending })

/-- A write to INT_CAUSE, INT_MASK or MB_DONE_MAP signals when PENDING stays non-zero (R481). -/
def commitWrite (t : State) : Result :=
  .next (if intPending t = 0 then t else signalVector t.irq.vector t)

/-- A command on a numbered object: its outcome where the device has the object (R13). -/
def onObject (ok : Bool) (s t : State) : Result := if ok then commit s t else .fault .noSuchObject

/-- A free value drawn (the model's own counter advances). -/
def drawFree (s : State) : Word × State :=
  (Config.freeWord s.clk.free, { s with clk := { s.clk with free := s.clk.free + 1 } })

/-- The circuit named by an event matches the capture trigger's circuit: the circuit itself, the port that holds it for
PORT_DEGRADED, and any circuit for HDM_WRITE_REFUSED, which names none (R372, R394). -/
def triggerMatches (code obj circuit : Nat) : Bool :=
  if code = 0x0002 then obj == circuit / 24 else if code = 0x0040 then true else obj == circuit

/-- The capture ring's trigger fires: POST_TICKS more ticks are written and then the ring freezes (R372). -/
def fireCapture (s : State) : State :=
  { s with mem := { s.mem with cap := { s.mem.cap with
      triggerTick := s.clk.tick, freezeAt := some (s.clk.now + s.mem.cap.postTicks) } } }

/-- An event raised (R394): logged, or counted as overflow when the log is full; it may trigger the capture ring (R372). -/
def raise (code obj : Nat) (s : State) : State :=
  let s1 : State :=
    if s.irq.log.length < 512 then
      { s with irq := { s.irq with log := s.irq.log ++ [{ code := code, object := obj, tick := s.clk.tick }] } }
    else { s with irq := { s.irq with overflow := sat32 s.irq.overflow 1 } }
  if s.mem.cap.armed && !s.mem.cap.frozen && s.mem.cap.freezeAt.isNone && s.mem.cap.trigger == code
      && triggerMatches code obj s.mem.cap.trigCircuit then fireCapture s1 else s1

/-- A W1C bit of INT_CAUSE set (R480): 9 RING_FAULT, 10 AEAD_DONE, 11 KS_DONE, 12 REG_OFF, 13 EV_RING. -/
def setCause (bit : Nat) (s : State) : State :=
  { s with irq := { s.irq with cause := s.irq.cause ||| bitAt bit true } }

/-- An access to a block of domain `d`: its effect where the domain is ENABLED, else ignored with REG_OFF set (R475). -/
def inDomain (d : Nat) (s t : State) : State := if domOn s d then t else setCause 12 s

/-- Port p, and lane l. -/
def portOf (s : State) (p : Nat) : Port := tabGet {} s.port.port p
def laneOf (s : State) (l : Nat) : Lane := tabGet {} s.port.lane l
def setPort (p : Nat) (x : Port) (s : State) : State := { s with port := { s.port with port := tabPut {} s.port.port p x } }
def setLane (l : Nat) (x : Lane) (s : State) : State := { s with port := { s.port with lane := tabPut {} s.port.lane l x } }
def modPort (p : Nat) (f : Port → Port) (s : State) : State := setPort p (f (portOf s p)) s
def modLane (l : Nat) (f : Lane → Lane) (s : State) : State := setLane l (f (laneOf s l)) s

/-- A keep-store cell. -/
def cellOf (s : State) (w : Nat) : Cell := tabGet {} s.keep.cells w

/-- The last completed value of a keep-store word (R11, R438). -/
def keepWord (s : State) (w : Nat) : Word := (cellOf s w).value

/-- A word whose wear counter has reached 100,000 (R436). -/
def worn (s : State) (w : Nat) : Bool := decide (100000 ≤ (cellOf s w).wear)

/-- The value a word will hold once every queued write of the running MP has completed; a CORRUPT word's record is absent and counts as zero
(R437, R505). -/
def keepQueued (s : State) (w : Nat) : Word :=
  match ((s.keep.active.toList ++ s.keep.mpQ).filter fun k => k.source == .mp && k.word == w).getLast? with
  | some k => k.value
  | none => if (cellOf s w).corrupt then 0 else keepWord s w

/-- The running MP queues a keep-store write, only where the value changes (R438, R439). -/
def mpWrite (w : Nat) (v : Word) (s : State) : State :=
  if keepQueued s w = v ∧ (cellOf s w).corrupt = false then s
  else { s with keep := { s.keep with
    mpQ := s.keep.mpQ ++ [{ source := .mp, word := w, value := v, since := s.clk.now }] } }

/-- What a word will say of the settings of command `op` once every queued write has completed (R440). -/
def heldQueued (s : State) (w op : Nat) : List Int :=
  match ((s.keep.active.toList ++ s.keep.mpQ).filterMap fun k =>
      if k.source = .mp ∧ k.word = w then (k.holds.find? fun h => h.1 == op).map (·.2) else none).getLast? with
  | some vs => vs
  | none => tabGet [] (cellOf s w).holds op

/-- The running MP queues the write of a word whose packing is its own, for the settings `vs` of command `op` (R439, R440). -/
def mpHold (w op : Nat) (vs : List Int) (s : State) : State :=
  let v := Config.settingValue op vs
  if keepQueued s w = v ∧ (cellOf s w).corrupt = false ∧ heldQueued s w op = vs then s
  else { s with keep := { s.keep with
    mpQ := s.keep.mpQ ++ [{ source := .mp, word := w, value := v, since := s.clk.now, holds := [(op, vs)] }] } }

/-- What the record of a word says of the settings of command `op`: none where it was never written or reads CORRUPT (R505). -/
def heldSetting (s : State) (w op : Nat) : Option (List Int) :=
  let c := cellOf s w
  if c.corrupt || c.wear == 0 then none else (c.holds.find? fun h => h.1 == op).map (·.2)

/-- A word of the keep store with a record in it (R505). -/
def recorded (s : State) (w : Nat) : Bool := !(cellOf s w).corrupt && (cellOf s w).wear != 0

/-- Several keep-store writes in ascending order (R439). -/
def mpWrites : List (Nat × Word) → State → State
  | [], s => s
  | (w, v) :: r, s => mpWrites r (mpWrite w v s)

/-- None of the words is WORN, so a command that needs to write them may (R439). -/
def writable (s : State) (ws : List Nat) : Bool := ws.all fun w => !worn s w

/-- The configuration word of a device-wide setting of command `op` (R440: its packing is the firmware's). -/
def settingWordOf (op : Nat) : Nat := 1536 + Config.settingWord op % 64

/-- A core's record replaced. -/
def setCore (k : Nat) (c : Core) (s : State) : State :=
  if k = 0 then { s with mp := { s.mp with coreA := c } } else { s with mp := { s.mp with coreB := c } }

/-- A domain's record replaced. -/
def setDom (d : Nat) (x : Dom) (s : State) : State :=
  { s with pwr := { s.pwr with dom := tabPut {} s.pwr.dom d x } }

/-- A transition of Dd completed: DOM_EVENT.DONE_d (R446). -/
def domDone (d : Nat) (s : State) : State :=
  { s with pwr := { s.pwr with domEvent := s.pwr.domEvent ||| bitAt d true } }

/-- A mailbox. -/
def boxOf (s : State) (m : Nat) : Mailbox := tabGet {} s.mb.box m

/-- A mailbox replaced. -/
def setBox (m : Nat) (b : Mailbox) (s : State) : State :=
  { s with mb := { s.mb with box := tabPut {} s.mb.box m b } }

/-- Words as MB_DATA (R378). -/
def boxData (ws : List Word) : Tab Word := tabPutMany 0 [] 0 ws

/-- A mailbox reaches DONE with a status, DETAIL and result words: all of MB_DATA is written, DONE_TICK is latched and a host
mailbox sets its MB_DONE_MAP bit (R378, R380, R383, R482). -/
def finish (m status detail : Nat) (ws : List Word) (s : State) : State :=
  let b := boxOf s m
  let s1 := setBox m { b with
    st := .done, status := status, resultWords := ws.length, detail := detail,
    doneTick := s.clk.tick % 4294967296, data := boxData (ws.take 120) } s
  if m < 24 then { s1 with irq := { s1.irq with mbDone := s1.irq.mbDone ||| bitAt m true } } else s1

/-- Every RUNNING mailbox ends CANCELLED (R380): a takeover, a hand-over or a reset found it before its commit point. -/
def cancelRunning (s : State) : State :=
  (List.range 32).foldl (fun t m => if (boxOf t m).st = .running then finish m 0x02 0 [] t else t) s

end Sys2Proof.Machine
end

