-- ==== Sys2Proof/Machine/CheckUnits.lean ====
section
/-! DEFINITION. The check-value units (spec/17_check_units.md R426 to R434). -/
namespace Sys2Proof.Machine

/-- A unit's record. -/
def chkOf (s : State) (u : Nat) : ChkUnit := tabGet {} s.chk.units u

/-- A unit replaced. -/
def setChk (u : Nat) (x : ChkUnit) (s : State) : State :=
  { s with chk := { s.chk with units := tabPut {} s.chk.units u x } }

/-- The parameters a unit works with: those of R426 in NATIVE mode, its fields in COMPAT mode (R432). -/
def chkWidth (x : ChkUnit) : Nat := if x.compat then x.width else 32
def chkPoly (x : ChkUnit) : Nat := if x.compat then x.poly.toNat else 0x1EDC6F41
def chkRefin (x : ChkUnit) : Bool := !x.compat || x.refin
def chkRefout (x : ChkUnit) : Bool := !x.compat || x.refout
def chkInit (x : ChkUnit) : Word := if x.compat then x.init else 0xFFFFFFFF
def chkXorout (x : ChkUnit) : Nat := if x.compat then x.xorout.toNat else 0xFFFFFFFF

/-- BYTES bytes of a CHK_DATA write, from [63:56] downwards (R431). -/
def chkBytes (x : ChkUnit) (v : Word) : List Byte := (bytesBE v).take x.bytes

/-- Input into VALUE: bits at WIDTH and above are ignored and stay as written (R432). -/
def chkFeed (x : ChkUnit) (bs : List Byte) : ChkUnit :=
  let w := chkWidth x
  let low := crcBytes w (chkPoly x) (chkRefin x) (x.value.toNat % 2 ^ w) bs
  { x with value := BitVec.ofNat 64 (x.value.toNat / 2 ^ w * 2 ^ w + low) }

/-- CHK_RESULT (R432). -/
def chkResult (x : ChkUnit) : Word :=
  BitVec.ofNat 64 (crcOut (chkWidth x) (chkRefout x) (chkXorout x) (x.value.toNat % 2 ^ chkWidth x))

/-- Units 0 to 5 are the host's, units 6 and 7 the running MP's (R431). -/
def chkMine (fw : Bool) (u : Nat) : Bool := if fw then decide (6 ≤ u) else decide (u < 6)

/-- START loads VALUE with INIT; an access to a unit of the other side is ignored (R431). -/
def chkBegin (fw : Bool) (u : Nat) (s : State) : State :=
  if chkMine fw u then setChk u { chkOf s u with value := chkInit (chkOf s u) } s else s

/-- A write of CHK_DATA: BYTES bytes enter the unit's running CRC (R431, R432). -/
def chkTake (fw : Bool) (u : Nat) (v : Word) (s : State) : State :=
  if chkMine fw u then setChk u (chkFeed (chkOf s u) (chkBytes (chkOf s u) v)) s else s

/-- CHK_START (R431). -/
def execChkStart (fw : Bool) (u : Nat) (s : State) : Result :=
  onObject (u < 8) s (inDomain 29 s (chkBegin fw u s))

/-- CHK_DATA_WRITE (R432): BYTES bytes enter the unit's running CRC. -/
def execChkDataWrite (fw : Bool) (u : Nat) (v : Word) (s : State) : Result :=
  onObject (u < 8) s (inDomain 29 s (chkTake fw u v s))

/-- CHK_PIPE_CNT (R430). -/
def chkPipeCnt (s : State) : Word := fieldAt 63 32 s.chk.failAll ||| fieldAt 31 0 s.chk.only

/-- A read that a block's domain answers: the word, or zero with REG_OFF set while it is not ENABLED (R475). -/
def readIn (d : Nat) (w : Word) (s t : State) : State :=
  if domOn s d then emit (.read [w]) t else setCause 12 (emit (.read [0]) s)

/-- CHK_PIPE_CNT_READ (R430): the read returns the counters and clears them. -/
def execChkPipeCntRead (s : State) : Result :=
  commit s (readIn 29 (chkPipeCnt s) s { s with chk := { s.chk with failAll := 0, only := 0 } })

end Sys2Proof.Machine
end

