-- ==== Sys2Proof/Machine/Ecdsa.lean ====
section
/-! DEFINITION. ECDSA on the curve P-384 with SHA-384, of FIPS 186, which spec/13 R342, spec/15 R399 and spec/16 R424 name: PRESUMED, the standard's own
curve and equations, which the spec names and does not reprint. -/
namespace Sys2Proof.Machine

/-- The field's prime, the order of the base point, and the base point. -/
def ecP : Nat := 2 ^ 384 - 2 ^ 128 - 2 ^ 96 + 2 ^ 32 - 1
def ecN : Nat :=
  0xFFFFFFFFFFFFFFFFFFFFFFFFFFFFFFFFFFFFFFFFFFFFFFFFC7634D81F4372DDF581A0DB248B0A77AECEC196ACCC52973
def ecX : Nat :=
  0xAA87CA22BE8B05378EB1C71EF320AD746E1D3B628BA79B9859F741E082542A385502F25DBF55296C3A545E3872760AB7
def ecY : Nat :=
  0x3617DE4A96262C6F5D9E98BF9292DC29F8F41DBD289A147CE9DA3113B5F0B8C00A60B1CE1D7E819D7A431D7C90EA0E5F
def ecB : Nat :=
  0xB3312FA7E23EE7E4988E056BE3F82D19181D9C6EFE8141120314088F5013875AC656398D8A2ED19D2A85C8EDD3EC2AEF

/-- A power modulo `m`, of an exponent of at most so many bits, the most significant first. -/
def powMod (m a e : Nat) : Nat → Nat → Nat
  | 0, r => r
  | n + 1, r => let q := r * r % m; powMod m a e n (if e / 2 ^ n % 2 = 1 then q * a % m else q)
/-- The inverse modulo a prime below 2^384. -/
def invMod (m a : Nat) : Nat := powMod m a (m - 2) 384 1

/-- A point in Jacobian coordinates; z = 0 is the point at infinity. -/
structure EcPoint where
  (x y z : Nat)
deriving DecidableEq, Repr

/-- A difference modulo p. -/
def ecSub (a b : Nat) : Nat := (a + (ecP - b % ecP)) % ecP

def ecDouble (p : EcPoint) : EcPoint :=
  let yy := p.y * p.y % ecP
  let zz := p.z * p.z % ecP
  let s := 4 * p.x * yy % ecP
  let m := 3 * ecSub p.x zz * (p.x + zz) % ecP
  let x := ecSub (m * m) (2 * s)
  { x := x, y := ecSub (m * ecSub s x) (8 * yy * yy), z := 2 * p.y * p.z % ecP }

def ecAdd (p q : EcPoint) : EcPoint :=
  if p.z = 0 then q
  else if q.z = 0 then p
  else
    let zp := p.z * p.z % ecP
    let zq := q.z * q.z % ecP
    let u1 := p.x * zq % ecP
    let u2 := q.x * zp % ecP
    let s1 := p.y * zq % ecP * q.z % ecP
    let s2 := q.y * zp % ecP * p.z % ecP
    if u1 = u2 then (if s1 = s2 then ecDouble p else { x := 1, y := 1, z := 0 })
    else
      let h := ecSub u2 u1
      let r := ecSub s2 s1
      let hh := h * h % ecP
      let hhh := hh * h % ecP
      let v := u1 * hh % ecP
      let x := ecSub (ecSub (r * r) hhh) (2 * v)
      { x := x, y := ecSub (r * ecSub v x) (s1 * hhh), z := h * p.z % ecP * q.z % ecP }

/-- A multiple of a point by the `n` low bits of `k`, the most significant first. -/
def ecMul (k : Nat) (p : EcPoint) : Nat → EcPoint → EcPoint
  | 0, r => r
  | n + 1, r => let d := ecDouble r; ecMul k p n (if k / 2 ^ n % 2 = 1 then ecAdd d p else d)
def ecTimes (k : Nat) (p : EcPoint) : EcPoint := ecMul k p 384 { x := 1, y := 1, z := 0 }
/-- The x coordinate of a point. -/
def ecAffineX (p : EcPoint) : Nat := p.x * invMod ecP (p.z * p.z % ecP) % ecP

/-- The signature of a message under a private scalar with a nonce: r and s, each as 48 bytes, most significant first. -/
@[irreducible] def ecdsaSign (d k : Nat) (msg : List Byte) : List Byte :=
  let r := ecAffineX (ecTimes k { x := ecX, y := ecY, z := 1 }) % ecN
  let s := invMod ecN k * ((natBE (sha384Bytes msg) + r * d) % ecN) % ecN
  bytesOfNat 48 r ++ bytesOfNat 48 s

/-- A signature of 96 bytes verifies under a public key of 96 bytes, the coordinates x and y. -/
@[irreducible] def ecdsaVerify (key msg sig : List Byte) : Bool :=
  let x := natBE (key.take 48)
  let y := natBE (key.drop 48)
  let r := natBE (sig.take 48)
  let s := natBE (sig.drop 48)
  let w := invMod ecN s
  let p := ecAdd (ecTimes (natBE (sha384Bytes msg) % ecN * w % ecN) { x := ecX, y := ecY, z := 1 }) (ecTimes (r * w % ecN) { x := x, y := y, z := 1 })
  decide (x < ecP ∧ y < ecP) && decide (y * y % ecP = (ecSub (x * x % ecP * x) (3 * x) + ecB) % ecP)
    && decide (0 < r ∧ r < ecN ∧ 0 < s ∧ s < ecN) && decide (p.z ≠ 0) && decide (ecAffineX p % ecN = r)

end Sys2Proof.Machine
end

