-- ==== Sys2Proof/Machine/KeepStore.lean ====
section
/-! DEFINITION. The keep store and its host window (spec/18_keep_store_identity.md R435 to R444, spec/22 R493). -/
namespace Sys2Proof.Machine

/-- An identity word reads CORRUPT or IDENT_CHECK fails (R444). -/
def identFault (s : State) : Bool :=
  (List.range 29).any (fun w => (cellOf s w).corrupt)
  || fieldOf (keepWord s 28) 31 0 != crc32c (((List.range 28).map (keepWord s)).flatMap bytesBE)

/-- A host write is pending or in progress (KS_STATUS.BUSY, R443). -/
def ksBusy (s : State) : Bool :=
  !s.keep.hostQ.isEmpty || (match s.keep.active with
    | some k => k.source == .host
    | none => false)

/-- PROV_KEY words (R442). -/
def isProvKey (w : Nat) : Bool := decide (3584 ≤ w ∧ w ≤ 3587)

/-- Words the host may write: HOST_AREA and PROV_KEY (R440, R442). -/
def hostMayWrite (w : Nat) : Bool := decide (2816 ≤ w ∧ w ≤ 3071) || isProvKey w

/-- Words the host may not read: the sealed region and ATTEST_PRIV (R440, R442). -/
def hostSealed (w : Nat) : Bool := decide (3584 ≤ w) || decide (16 ≤ w ∧ w ≤ 21)

/-- KS_STATUS.RESULT set, with KS_DONE where a write completed or was refused (R443, R480). -/
def ksResult (code : Nat) (done : Bool) (s : State) : State :=
  let t := { s with keep := { s.keep with result := code } }
  if done then setCause 11 t else t

/-- A host write of KS_DATA (R438, R443). -/
def ksHostWrite (v : Word) (s : State) : State :=
  if ksBusy s then ksResult 0x01 false s
  else if !hostMayWrite s.keep.addr then ksResult 0x03 true s
  else { s with keep := { s.keep with
    hostQ := [{ source := .host, word := s.keep.addr, value := v, since := s.clk.now }] } }

/-- KS_DATA_WRITE (R443): captures KS_ADDR and queues the write; ignored with BUSY while one is pending; DENIED outside
HOST_AREA and PROV_KEY (R442). -/
def execKsDataWrite (v : Word) (s : State) : Result := commit s (ksHostWrite v s)

/-- KS_DATA_READ (R443): the last completed value, or zero with SEALED; a CORRUPT word is returned as stored. -/
def execKsDataRead (s : State) : Result :=
  let w := s.keep.addr
  commit s
    (if hostSealed w then emit (.read [0]) (ksResult 0x04 false s)
     else emit (.read [keepWord s w]) (ksResult (if (cellOf s w).corrupt then 0x05 else 0x00) false s))

/-- The next write in the order of R438, and the queues without it. -/
def keepNext (k : Keep) : Option (KeepWrite × Keep) :=
  match k.nonceQ, k.mpQ, k.hostQ with
  | w :: r, _, _ => some (w, { k with nonceQ := r })
  | [], w :: r, _ => some (w, { k with mpQ := r })
  | [], [], w :: r => some (w, { k with hostQ := r })
  | [], [], [] => none

/-- The end of a refused write: a host write reports the code and KS_DONE (R443). -/
def keepRefuse (w : KeepWrite) (code : Nat) (s : State) : State :=
  if w.source = .host then ksResult code true s else s

/-- The region owners of R440, as the hardware enforces them: nobody writes the identity region, the AEAD engine alone the nonce region,
the running MP the rest, and the host window HOST_AREA and PROV_KEY. -/
def keepOwned : KeepSource → Nat → Bool
  | .nonce, w => decide (3072 ≤ w ∧ w ≤ 3583)
  | .mp, w => decide (256 ≤ w ∧ w ≤ 3071) || decide (3584 ≤ w ∧ w ≤ 4095)
  | .host, w => hostMayWrite w

/-- What a word holds of its settings once a write lands; nothing of a CORRUPT value remains (R437). -/
def heldAfter (w : KeepWrite) (c : Cell) : Tab (List Int) :=
  w.holds.foldl (fun t h => tabPut [] t h.1 h.2) (if c.corrupt then [] else c.holds)

/-- The cells once a write lands (R435, R437, R440): the new value with a new code, the wear counter raised by one; a write outside its
source's regions changes nothing. -/
def keepLand (w : KeepWrite) (cells : Tab Cell) : Tab Cell :=
  if keepOwned w.source w.word then
    let c := tabGet {} cells w.word
    tabPut {} cells w.word { value := w.value, wear := c.wear + 1, corrupt := false, holds := heldAfter w c }
  else cells

/-- KEEP_WRITE_START (R438): the next write starts while VPP_KEEP is in range and no write is in progress; a WORN word refuses it (R436),
as does a region that its source does not own (R440), and a PROV_KEY word that is not zero refuses a host write with DENIED (R442). -/
def execKeepWriteStart (s : State) : Result :=
  commit s
    (if s.keep.active.isSome || !s.pins.rails.vppKeep then s
     else match keepNext s.keep with
       | none => s
       | some (w, k) =>
         let t := { s with keep := k }
         if worn s w.word then keepRefuse w 0x02 t
         else if !keepOwned w.source w.word then keepRefuse w 0x03 t
         else if w.source = .host ∧ isProvKey w.word = true ∧ keepWord s w.word ≠ 0 then keepRefuse w 0x03 t
         else { t with keep := { k with active := some w, startedAt := s.clk.now } })

/-- KEEP_WRITE_DONE (R435 to R437), 20 µs after the write's start: the new value stands with a new code, the wear counter rises by one, and a host write sets
RESULT OK and KS_DONE. -/
def execKeepWriteDone (s : State) : Result :=
  commit s
    (match s.keep.active with
     | none => s
     | some w =>
       if s.clk.now < s.keep.startedAt + 20 then s else
       let t := { s with keep := { s.keep with active := none, cells := keepLand w s.keep.cells } }
       if w.source = .host then ksResult 0x00 true t else t)

/-- KEEP_WRITE_WAIT_TIMEOUT (R493): the next write has waited over 100 ms for VPP_KEEP and is refused as WORN. -/
def execKeepWriteWaitTimeout (s : State) : Result :=
  commit s
    (if s.keep.active.isSome || s.pins.rails.vppKeep then s
     else match keepNext s.keep with
       | none => s
       | some (w, k) => if s.clk.now ≤ w.since + 100000 then s else keepRefuse w 0x02 { s with keep := k })

/-- KS_STATUS (R443). -/
def ksStatus (s : State) : Word :=
  bitAt 63 (ksBusy s) ||| fieldAt 55 48 s.keep.result ||| fieldAt 19 0 (cellOf s s.keep.addr).wear

end Sys2Proof.Machine
end

