-- ==== Sys2Proof/Machine/Aead.lean ====
section
/-! DEFINITION. The AEAD engine, its lock, key slots, nonces and the DRBG (spec/16_security_engine.md R405 to R423). -/
namespace Sys2Proof.Machine

/-- A requester's port copy (R410). -/
def aeadPort (s : State) (r : Nat) : AeadPort := tabGet {} s.aead.port r

/-- A requester's port copy replaced. -/
def setAeadPort (r : Nat) (p : AeadPort) (s : State) : State :=
  { s with aead := { s.aead with port := tabPut {} s.aead.port r p } }

/-- A key slot (R413). -/
def slotOf (s : State) (k : Nat) : Slot := tabGet {} s.aead.slot k

/-- A key slot replaced. -/
def setSlot (k : Nat) (x : Slot) (s : State) : State :=
  { s with aead := { s.aead with slot := tabPut {} s.aead.slot k x } }

/-- Slots a requester may use (R413). -/
def slotUsable (r k : Nat) : Bool :=
  if r = 4 then decide (24 ≤ k ∧ k ≤ 31)
  else if r = 3 then decide (9 ≤ k ∧ k ≤ 22)
  else decide (k ≤ 3) || decide (9 ≤ k ∧ k ≤ 22)

/-- Slots a requester may load by WRITE or empty by ZEROISE (R410, R413). -/
def slotLoadable (r k : Nat) : Bool := r != 3 && slotUsable r k

/-- The least requester of a queue. -/
def leastOf : List Nat → Option Nat
  | [] => none
  | r :: rs =>
    match leastOf rs with
    | none => some r
    | some q => some (min r q)

/-- The lock granted to a requester (R407); the owner's idle time starts (R409). -/
def lockGrant (r : Nat) (s : State) : State :=
  { s with aead := { s.aead with
      owner := r
      queue := s.aead.queue.filter (fun q => q != r)
      grants := tabPut 0 s.aead.grants r (sat32 (tabGet 0 s.aead.grants r) 1)
      lastUse := s.clk.now } }

/-- The lock becomes FREE and goes to the beacon sequencer's claim or else to the lowest queued requester (R407, R408). -/
def lockFree (s : State) : State :=
  let t := { s with aead := { s.aead with owner := 0 } }
  if s.aead.claim then lockGrant 3 t
  else match leastOf s.aead.queue with
    | none => t
    | some r => lockGrant r t

/-- The host loses the lock: REVOKED (R408, R409). -/
def lockRevoke (s : State) : State :=
  if s.aead.owner = 4 then
    { s with aead := { s.aead with revoked := true, revocations := sat32 s.aead.revocations 1 } }
  else s

/-- The owner's access to its registers restarts the idle time (R409). -/
def aeadTouch (r : Nat) (s : State) : State :=
  if s.aead.owner = r ∧ r ≠ 0 then { s with aead := { s.aead with lastUse := s.clk.now } } else s

/-- The beacon sequencer's claim (R408): an idle holder loses the lock at once, a running one after its operation. -/
def lockClaim (s : State) : State :=
  let t := { s with aead := { s.aead with claim := true } }
  if s.aead.st = .running then t
  else if s.aead.owner = 3 then t
  else lockFree (lockRevoke t)

/-- REQUEST of requester `r` (R407): granted when FREE, queued when another owns it, ignored from the owner. -/
def lockRequest (r : Nat) (s : State) : State :=
  if s.aead.owner = r then aeadTouch r s
  else if s.aead.owner = 0 ∧ s.aead.claim = false then lockGrant r s
  else if s.aead.queue.contains r then s
  else { s with aead := { s.aead with queue := s.aead.queue ++ [r] } }

/-- RELEASE of requester `r` (R407): by the owner while no operation is RUNNING; the sequencer's release ends its claim. -/
def lockRelease (r : Nat) (s : State) : State :=
  if s.aead.owner = r ∧ s.aead.st ≠ .running then
    lockFree { s with aead := { s.aead with claim := if r = 3 then false else s.aead.claim } }
  else s

/-- AEAD_LOCK_REQUEST (R407). -/
def execAeadLockRequest (r : Nat) (s : State) : Result :=
  onObject (decide (1 ≤ r ∧ r ≤ 4)) s (inDomain 29 s (lockRequest r s))

/-- AEAD_LOCK_RELEASE (R407). -/
def execAeadLockRelease (r : Nat) (s : State) : Result :=
  onObject (decide (1 ≤ r ∧ r ≤ 4)) s (inDomain 29 s (lockRelease r s))

/-- Tag lengths allowed in a mode (R405). -/
def tagLenOk (ccm : Bool) (n : Nat) : Bool :=
  if ccm then [4, 6, 8, 10, 12, 14, 16].contains n else [4, 8, 12, 13, 14, 15, 16].contains n

/-- Bytes of a key of the given SIZE. -/
def keyBytes (size : Bool) : Nat := if size then 32 else 16

/-- The highest counter mark saved for a slot in the nonce ring, none where there is none (R417, R505). -/
def savedMark (s : State) (k : Nat) : Option Nat :=
  (List.range 512).foldl (fun m i =>
    let c := cellOf s (3072 + i)
    if c.wear ≠ 0 ∧ c.corrupt = false ∧ fieldOf c.value 63 59 = k then some (max (m.getD 0) (fieldOf c.value 43 0)) else m) none

/-- The counter a slot resumes at after a restart of D29 (R417): its highest saved value plus 2^20, and 0 where none was ever saved. -/
def resumedCounter (s : State) (k : Nat) : Nat := ((savedMark s k).map fun m => (m + 1) * 1048576).getD 0

/-- The next ring word from `i` on that is not WORN, as an index 0 to 511 (R417). -/
def ringFree (s : State) : Nat → Nat → Option Nat
  | 0, _ => none
  | fuel + 1, i => if worn s (3072 + i % 512) then ringFree s fuel (i + 1) else some (i % 512)

/-- The writes that put a mark into the ring at or after `i`: a word that holds the newest value of another slot is copied to
a following word first (R417). Last comes the index after the mark's own word. -/
def ringPlace (s : State) : Nat → Nat → Nat → Word → Option (List (Nat × Word) × Nat)
  | 0, _, _, _ => none
  | fuel + 1, i, k, v =>
    match ringFree s 512 i with
    | none => none
    | some p =>
      let c := cellOf s (3072 + p)
      let o := fieldOf c.value 63 59
      if c.wear ≠ 0 ∧ c.corrupt = false ∧ o ≠ k ∧ some (fieldOf c.value 43 0) = savedMark s o then
        match ringPlace s fuel (p + 1) o c.value with
        | none => none
        | some (ws, _) => some (ws ++ [(3072 + p, v)], p + 1)
      else some ([(3072 + p, v)], p + 1)

/-- Nonce marks queued ahead of every other keep-store write (R417, R438); none where no ring word accepts a write. -/
def queueMark (k counter : Nat) (s : State) : Option State :=
  let v := fieldAt 63 59 k ||| fieldAt 43 0 (counter / 1048576)
  match ringPlace s 33 s.aead.markNext k v with
  | none => none
  | some (ws, nxt) =>
    some { s with
      aead := { s.aead with markNext := nxt % 512 }
      keep := { s.keep with
        nonceQ := s.keep.nonceQ ++ ws.map fun p => { source := .nonce, word := p.1, value := p.2, since := s.clk.now } } }

/-- A nonce mark is still to be written, so the invocation waits (R417). -/
def marksPending (s : State) : Bool :=
  !s.keep.nonceQ.isEmpty || (match s.keep.active with
    | some k => k.source == .nonce
    | none => false)

/-- A slot's mark is saved, or its write is on the way. -/
def markHeld (s : State) (k m : Nat) : Bool :=
  decide (m ≤ (savedMark s k).getD 0 ∧ (savedMark s k).isSome = true)
  || (s.keep.nonceQ ++ s.keep.active.toList).any fun w => w.source == .nonce && fieldOf w.value 63 59 == k && decide (m ≤ fieldOf w.value 43 0)

/-- The slot's counter after an invocation: it rises by one. The invocation that takes it to a multiple of 2^20 waits until that value is saved; none
where the counter is at its maximum or no mark can be written (R416, R417). DEDUCED: the invocation at a multiple that is not saved, with which a slot
starts or resumes, saves that one and waits likewise, since values used before a crash never recur. -/
def useCounter (k : Nat) (s : State) : Option State :=
  let x := slotOf s k
  if x.counter ≥ 0xFFFFFFFFFFFFFFFF then none
  else
    let t := setSlot k { x with counter := x.counter + 1 } s
    if (x.counter + 1) % 1048576 = 0 then queueMark k (x.counter + 1) t
    else if x.counter % 1048576 = 0 ∧ markHeld s k (x.counter / 1048576) = false then queueMark k x.counter t
    else some t

/-- Operation codes of AEAD_CTL.OP (R410). -/
def opEncrypt : Nat := 1
def opDecrypt : Nat := 2
def opWrap : Nat := 3
def opUnwrap : Nat := 4
def opGenerate : Nat := 5
def opJoinMac : Nat := 6

/-- The operation forms an engine nonce (R416). -/
def usesCounter (op : Nat) : Bool := op == opEncrypt || op == opWrap

/-- The operation names TARGET (R411). -/
def usesTarget (op : Nat) : Bool := op == opWrap || op == opUnwrap || op == opGenerate

/-- The result an operation's parameters already decide at START (R405, R411, R412, R413, R423). -/
def aeadVerdict (s : State) (r : Nat) (p : AeadPort) : Option Nat :=
  let x := slotOf s p.slot
  if p.op = 0 ∨ 6 < p.op ∨ 4096 < p.adLen + p.textLen then some 0x05
  else if p.op = opJoinMac ∧ p.ccm = true then some 0x05
  else if p.op ≠ opGenerate ∧ tagLenOk p.ccm p.tagLen = false then some 0x05
  else if p.op = opUnwrap ∧ p.textLen ≠ keyBytes p.kSize then some 0x05
  else if p.op ≠ opGenerate ∧ slotUsable r p.slot = false then some 0x06
  else if usesTarget p.op ∧ slotUsable r p.target = false then some 0x06
  else if p.op = opJoinMac ∧ p.slot ≠ 2 then some 0x06
  else if p.op = opJoinMac ∧ p.nonceH.toNat / 2 ^ 36 ≠ 0xFFFFFFF then some 0x05
  else if s.aead.drbgHalted then some 0x09
  else if p.op ≠ opGenerate ∧ x.key = none then some 0x07
  else if p.op = opWrap ∧ (slotOf s p.target).key = none then some 0x07
  else if p.op = opWrap ∧ p.textLen ≠ keyBytes (slotOf s p.target).size then some 0x05
  else none

/-- The port's AEAD_CTL fields as a write of CTL leaves them (R410). -/
def ctlFields (p : AeadPort) (op : Nat) (v : Word) : AeadPort :=
  { p with op := op, ccm := bitOf v 27, slot := fieldOf v 26 22, target := fieldOf v 21 17, tagLen := fieldOf v 16 12 }

/-- A START by the owner while no operation is RUNNING (R410, R411): the fields of the write apply first, the key and epoch are
copied (R414), and ENCRYPT and WRAP take a nonce and advance the slot's counter (R416, R417). A reserved OP leaves the field as it is and ends
in BAD_PARAM (R7, R412). Any other START is ignored. -/
def aeadStart (op r : Nat) (v : Word) (s : State) : State :=
  if s.aead.owner ≠ r ∨ s.aead.st = .running then s
  else
    let held := ctlFields (aeadPort s r) (if 1 ≤ op ∧ op ≤ 6 then op else (aeadPort s r).op) v
    let p := { held with op := op }
    let x := slotOf s p.slot
    let s1 := aeadTouch r (setAeadPort r held s)
    let run : AeadRun := { requester := r, port := p, key := x.key.getD [], size := x.size, epoch := x.epoch }
    let begin_ := fun (t : State) (a : AeadRun) =>
      { t with aead := { t.aead with st := .running, result := 0, bytesDone := 0, statusRead := false, run := some a } }
    match aeadVerdict s r p with
    | some c => begin_ s1 { run with verdict := some c }
    | none =>
      if usesCounter op then
        match useCounter p.slot s1 with
        | none => begin_ s1 { run with verdict := some 0x03 }
        | some s2 =>
          let h := fieldAt 63 32 x.epoch ||| fieldAt 31 0 (x.counter / 4294967296)
          let l := x.counter % 4294967296
          begin_ (setAeadPort r { p with nonceH := h, nonceL := l } s2) { run with nonceH := h, nonceL := l }
      else begin_ s1 { run with nonceH := p.nonceH, nonceL := p.nonceL }

/-- AEAD_ENCRYPT (R411). -/
def execAeadEncrypt (r : Nat) (v : Word) (s : State) : Result :=
  onObject (decide (1 ≤ r ∧ r ≤ 4)) s (inDomain 29 s (aeadStart opEncrypt r v s))

/-- AEAD_DECRYPT (R411). -/
def execAeadDecrypt (r : Nat) (v : Word) (s : State) : Result :=
  onObject (decide (1 ≤ r ∧ r ≤ 4)) s (inDomain 29 s (aeadStart opDecrypt r v s))

/-- AEAD_WRAP (R411). -/
def execAeadWrap (r : Nat) (v : Word) (s : State) : Result :=
  onObject (decide (1 ≤ r ∧ r ≤ 4)) s (inDomain 29 s (aeadStart opWrap r v s))

/-- AEAD_UNWRAP (R411). -/
def execAeadUnwrap (r : Nat) (v : Word) (s : State) : Result :=
  onObject (decide (1 ≤ r ∧ r ≤ 4)) s (inDomain 29 s (aeadStart opUnwrap r v s))

/-- AEAD_GENERATE (R411). -/
def execAeadGenerate (r : Nat) (v : Word) (s : State) : Result :=
  onObject (decide (1 ≤ r ∧ r ≤ 4)) s (inDomain 29 s (aeadStart opGenerate r v s))

/-- AEAD_JOIN_MAC (R411, R421). -/
def execAeadJoinMac (r : Nat) (v : Word) (s : State) : Result :=
  onObject (decide (1 ≤ r ∧ r ≤ 4)) s (inDomain 29 s (aeadStart opJoinMac r v s))

/-- A slot loaded with a key: its counter never falls (R414). -/
def loadSlot (k : Nat) (key : List Word) (size : Bool) (epoch floor : Nat) (s : State) : State :=
  let x := slotOf s k
  setSlot k { x with key := some key, size := size, epoch := epoch, counter := max x.counter floor } s

/-- The counter floor of a requester's WRITE, GENERATE or UNWRAP: its AEAD_KFLOOR, zero for the host (R414). -/
def floorOf (r : Nat) (p : AeadPort) : Nat := if r = 4 then 0 else p.floor.toNat

/-- Words drawn from the DRBG (R423). -/
def drawDrbg (n : Nat) (s : State) : List Word × State :=
  ((List.range n).map fun i => Config.drbg (s.clk.free + i),
   { s with clk := { s.clk with free := s.clk.free + n },
            aead := { s.aead with drbgRequests := s.aead.drbgRequests + 1 } })

/-- A message signed under the attestation key of words 16 to 21, with a nonce drawn from the DRBG (R342, R423, R424): 12 words, in whose bytes r and s lie
most significant byte first. DESIGN CHOICE: the nonce is six words reduced to 1 to the order less 1. -/
def attestSign (msg : List Byte) (s : State) : List Word × State :=
  let d := drawDrbg 6 s
  let priv := natBE ((List.range 6).flatMap fun i => bytesBE (keepWord s (16 + i)))
  (wordsWith wordLE 12 (ecdsaSign priv (natBE (d.1.flatMap bytesBE) % (ecN - 1) + 1) msg), d.2)

/-- An image's signature of 96 bytes verifies under the Gwerath firmware key, whose digest the identity region holds (R399, R444). -/
def fwSignatureOk (s : State) (msg sig : List Byte) : Bool :=
  sha384 Config.firmwareKey == (List.range 6).map (fun i => keepWord s (22 + i)) && ecdsaVerify Config.firmwareKey msg sig

/-- The output of an operation written at DST: host memory for requester 4, the near store otherwise (R410). -/
def aeadOutput (r : Nat) (dst : Word) (bs : List Byte) (s : State) : State :=
  if bs.isEmpty then s
  else if r = 4 then emit (.host dst.toNat bs) s
  else { s with mem := { s.mem with near := memWrite s.mem.near dst.toNat bs } }

/-- Bytes an operation's output and tag occupy at DST. -/
def aeadOutLen (p : AeadPort) : Nat :=
  if p.op = opEncrypt ∨ p.op = opWrap then p.textLen + p.tagLen
  else if p.op = opDecrypt then p.textLen
  else if p.op = opJoinMac then p.tagLen
  else 0

/-- Bytes an operation reads at SRC: associated data, then text, then the tag for DECRYPT and UNWRAP (R410). -/
def aeadInLen (p : AeadPort) : Nat :=
  if p.op = opDecrypt ∨ p.op = opUnwrap then p.adLen + p.textLen + p.tagLen
  else if p.op = opEncrypt then p.adLen + p.textLen
  else if p.op = opJoinMac then p.adLen + p.textLen
  else if p.op = opGenerate then 0
  else p.adLen

/-- An operation ends with a result (R412): STATUS reads DONE, a host operation sets AEAD_DONE (R480), and a waiting claim
takes the lock (R408). -/
def aeadEnd (a : AeadRun) (result bytes : Nat) (s : State) : State :=
  let t := { s with aead := { s.aead with
    st := .done, result := result, bytesDone := bytes, run := none, lastUse := s.clk.now } }
  let t := if a.requester = 4 then setCause 10 t else t
  if t.aead.claim && t.aead.owner != 3 then lockFree (lockRevoke t) else t

/-- A result other than OK: zeros at DST in place of any output or tag (R412). -/
def aeadFail (a : AeadRun) (result : Nat) (s : State) : State :=
  aeadEnd a result 0 (aeadOutput a.requester a.port.dst (List.replicate (aeadOutLen a.port) 0) s)

/-- The key words of 16 or 32 bytes, byte 0 in [63:56] of the first word. -/
def keyOfBytes (bs : List Byte) : List Word := wordsWith wordBE (bs.length / 8) bs

/-- A failed host access of the engine: ACCESS_FAULT and HOST_ACCESS_FAIL (R367, R412). -/
def aeadAccessFault (a : AeadRun) (s : State) : State := raise 0x0046 0xFFFF (aeadFail a 0x08 s)

/-- The work of an operation whose parameters were good, on the bytes read at SRC (R411). -/
def aeadWork (a : AeadRun) (src : List Byte) (s : State) : State :=
  let p := a.port
  let nonce := a.nonceH.toNat * 4294967296 + a.nonceL
  let ad := src.take p.adLen
  let text := (src.drop p.adLen).take p.textLen
  let tag := src.drop (p.adLen + p.textLen)
  if p.op = opEncrypt then
    let o := aeadSeal p.ccm a.key nonce ad text p.tagLen
    aeadEnd a 0x00 p.textLen (aeadOutput a.requester p.dst (o.1 ++ o.2) s)
  else if p.op = opDecrypt then
    match aeadOpen p.ccm a.key nonce ad text tag with
    | none => aeadFail a 0x01 s
    | some o => aeadEnd a 0x00 p.textLen (aeadOutput a.requester p.dst o s)
  else if p.op = opWrap then
    let key := ((slotOf s p.target).key.getD []).flatMap bytesBE
    let o := aeadSeal p.ccm a.key nonce ad key p.tagLen
    aeadEnd a 0x00 p.textLen (aeadOutput a.requester p.dst (o.1 ++ o.2) s)
  else if p.op = opUnwrap then
    match aeadOpen p.ccm a.key nonce ad text tag with
    | none => aeadFail a 0x01 s
    | some o => aeadEnd a 0x00 p.textLen
        (loadSlot p.target (keyOfBytes o) p.kSize p.kEpoch (floorOf a.requester p) s)
  else if p.op = opGenerate then
    let d := drawDrbg (if p.kSize then 4 else 2) s
    aeadEnd a 0x00 0 (loadSlot p.target d.1 p.kSize p.kEpoch (floorOf a.requester p) d.2)
  else
    let o := aeadSeal p.ccm a.key nonce src [] p.tagLen
    aeadEnd a 0x00 0 (aeadOutput a.requester p.dst o.2 s)

/-- AEAD_OP_DONE (R412): a RUNNING operation ends with its RESULT, unless it still waits for a nonce mark (R417). For the host
the bytes at SRC and the fate of the writes come from outside; requesters 1 to 3 use the near store (R410). -/
def execAeadOpDone (res : AeadAccess) (s : State) : Result :=
  commit s
    (match s.aead.run with
     | none => s
     | some a =>
       if marksPending s then s
       else match a.verdict with
         | some c => aeadFail a c s
         | none =>
           if a.requester = 4 then
             match res.src with
             | none => aeadAccessFault a s
             | some bs => if res.dstOk then aeadWork a bs s else aeadAccessFault a s
           else if 67108864 < a.port.src.toNat + aeadInLen a.port ∨ 67108864 < a.port.dst.toNat + aeadOutLen a.port then
             aeadFail a 0x08 s
           else aeadWork a (memRead s.mem.near a.port.src.toNat (aeadInLen a.port)) s)

/-- The KSLOT fields of a write (R410). -/
def kslotFields (p : AeadPort) (v : Word) : AeadPort :=
  { p with kEpoch := fieldOf v 63 32, kSize := bitOf v 25, kSel := fieldOf v 24 20 }

/-- A write of AEAD_KSLOT with WRITE: its fields are taken and the slot loaded where the requester may load it (R410, R414). -/
def keyLoad (r : Nat) (v : Word) (s : State) : State :=
  let p := kslotFields (aeadPort s r) v
  let t := aeadTouch r (setAeadPort r p s)
  if slotLoadable r p.kSel then
    loadSlot p.kSel (if p.kSize then p.key else p.key.take 2) p.kSize p.kEpoch (floorOf r p) t
  else t

/-- AEAD_KEY_WRITE (R414): loads KEY0 to KEY3 and EPOCH into slot SEL where the writer may load it; never lowers its counter. -/
def execAeadKeyWrite (r : Nat) (v : Word) (s : State) : Result :=
  onObject (decide (1 ≤ r ∧ r ≤ 4)) s (inDomain 29 s (keyLoad r v s))

/-- A slot emptied; an operation RUNNING on it ends with KEY_ERASED (R415). -/
def zeroiseSlot (k : Nat) (s : State) : State :=
  let t := setSlot k { slotOf s k with key := none } s
  match t.aead.run with
  | some a => if a.port.slot = k ∧ a.port.op ≠ opGenerate then aeadFail a 0x02 t else t
  | none => t

/-- A write of AEAD_KSLOT with ZEROISE (R410, R415). -/
def keyErase (r : Nat) (v : Word) (s : State) : State :=
  let p := kslotFields (aeadPort s r) v
  let t := aeadTouch r (setAeadPort r p s)
  if slotLoadable r p.kSel then zeroiseSlot p.kSel t else t

/-- AEAD_KEY_ZEROISE (R415). -/
def execAeadKeyZeroise (r : Nat) (v : Word) (s : State) : Result :=
  onObject (decide (1 ≤ r ∧ r ≤ 4)) s (inDomain 29 s (keyErase r v s))

/-- A DONE result the owner has not read is withdrawn: zeros at DST, its tag with it, STATUS reads ABORTED (R409). -/
def withdrawResult (r : Nat) (s : State) : State :=
  if s.aead.st = .done ∧ s.aead.statusRead = false then
    let p := aeadPort s r
    let t := aeadOutput r p.dst (List.replicate (aeadOutLen p) 0) s
    { t with aead := { t.aead with result := 0x04 } }
  else s

/-- The parameters an owner wrote and did not start are discarded (R409). -/
def discardPort (p : AeadPort) : AeadPort :=
  { p with op := 0, ccm := false, slot := 0, target := 0, tagLen := 0, adLen := 0, textLen := 0,
           src := 0, dst := 0, nonceH := 0, nonceL := 0 }

/-- AEAD_IDLE_RELEASE (R409), due when the lock has been idle for 10 ms. -/
def execAeadIdleRelease (s : State) : Result :=
  commit s
    (if s.aead.owner = 0 ∨ s.aead.owner = 3 ∨ s.aead.st = .running ∨ s.clk.now < s.aead.lastUse + 10000 then s
     else
       let r := s.aead.owner
       let t := withdrawResult r s
       let t := setAeadPort r (discardPort (aeadPort t r)) t
       let t := { t with aead := { t.aead with idleReleases := sat32 t.aead.idleReleases 1 } }
       lockFree (lockRevoke t))

/-- AEAD_STATUS_READ (R409): an owner's read counts as an access, and a read of a DONE result keeps it from being withdrawn. -/
def execAeadStatusRead (r : Nat) (s : State) : Result :=
  let t := aeadTouch r s
  let t := if s.aead.owner = r ∧ s.aead.st = .done then { t with aead := { t.aead with statusRead := true } } else t
  onObject (decide (1 ≤ r ∧ r ≤ 4)) s (readIn 29 (aeadStatus s) s t)

/-- A core that owns the lock is taken over or powered down: its operation ends ABORTED and the lock is FREE (R407). -/
def aeadCoreLost (r : Nat) (s : State) : State :=
  if s.aead.owner = r then
    let t := match s.aead.run with
      | some a => aeadFail a 0x04 s
      | none => s
    if t.aead.owner = r then lockFree t else t
  else { s with aead := { s.aead with queue := s.aead.queue.filter (fun q => q != r) } }

/-- ENTROPY_HEALTH_FAIL (R423): the DRBG halts until the next power-up of D29. -/
def execEntropyHealthFail (s : State) : Result :=
  commit s (if domOn s 29 then { s with aead := { s.aead with drbgHalted := true } } else s)

/-- DRBG_RESEED (R423): after 2^20 requests. -/
def execDrbgReseed (s : State) : Result :=
  commit s
    (if domOn s 29 && !s.aead.drbgHalted && decide (1048576 ≤ s.aead.drbgRequests) then
       { s with aead := { s.aead with drbgRequests := 0 } }
     else s)

/-- The four words of a sealed key at word `w`; none when any of them is zero (R442). -/
def sealedKey (s : State) (w : Nat) : Option (List Word) :=
  let ws := [keepWord s w, keepWord s (w + 1), keepWord s (w + 2), keepWord s (w + 3)]
  if ws.contains 0 then none else some ws

/-- The STORE key drawn once, at the first start that finds its words zero (R442). -/
def drawStore (s : State) : State :=
  if [keepWord s 3588, keepWord s 3589, keepWord s 3590, keepWord s 3591] = [0, 0, 0, 0] then
    let d := drawDrbg 4 s
    loadSlot 1 d.1 true 0 0
      (mpWrites [(3588, d.1.getD 0 0), (3589, d.1.getD 1 0), (3590, d.1.getD 2 0), (3591, d.1.getD 3 0)] d.2)
  else loadSlot 1 [keepWord s 3588, keepWord s 3589, keepWord s 3590, keepWord s 3591] true 0 0 s

/-- The circuit keys held wrapped under STORE in the records region return to their EMPTY slots (R420): each as its KEY_EPOCH, the counter of its
wrapping and six words. -/
def restoreKey (s : State) (k : Nat) : State :=
  match tabGet [] s.sec.wrapped k, (slotOf s (8 + k)).key with
  | e :: c :: ws, none =>
    let bs := ws.flatMap bytesBE
    match aeadOpen false ((slotOf s 1).key.getD []) ((slotOf s 1).epoch * 18446744073709551616 + c.toNat) [] (bs.take 32) (bs.drop 32) with
    | some key => loadSlot (8 + k) (keyOfBytes key) true e.toNat 0 s
    | none => s
  | _, _ => s
def restoreKeys (s : State) : State := if domOn s 28 then ((List.range 14).map (· + 1)).foldl restoreKey s else s

/-- D29 powers up (R413, R417, R423, R431): every slot's counter resumes at its highest saved value plus 2^20, slots 0 and 1
are loaded, the DRBG restarts and the check units take their reset values. -/
def powerUpD29 (s : State) : State :=
  let slots := (List.range 32).foldl
    (fun t k => tabPut {} t k { counter := resumedCounter s k }) ([] : Tab Slot)
  let s1 := { s with chk := {}, aead := { markNext := s.aead.markNext, slot := slots } }
  let s2 := match sealedKey s1 3584 with
    | some k => loadSlot 0 k true 0 0 s1
    | none => s1
  restoreKeys (drawStore s2)

end Sys2Proof.Machine
end

