-- ==== Sys2Proof/Machine/HostFrames.lean ====
section
/-! DEFINITION. Host-posted transmit frames: their completion and the ledger that counts them (spec/12_link_procedures.md R311,
spec/14_host_attachment.md R355, R358, R362, R366, R374, R375). -/
namespace Sys2Proof.Machine

def txRing (s : State) (q : Nat) : Ring := tabGet {} s.host.tx q
def rxRing (s : State) (q : Nat) : Ring := tabGet {} s.host.rx q
def setTxRing (q : Nat) (x : Ring) (s : State) : State := { s with host := { s.host with tx := tabPut {} s.host.tx q x } }
def setRxRing (q : Nat) (x : Ring) (s : State) : State := { s with host := { s.host with rx := tabPut {} s.host.rx q x } }
def modTxRing (q : Nat) (f : Ring → Ring) (s : State) : State := setTxRing q (f (txRing s q)) s
def modRxRing (q : Nat) (f : Ring → Ring) (s : State) : State := setRxRing q (f (rxRing s q)) s

/-- The device may issue requests to the host: the link is up, D3 is ENABLED, and IDE, where it is required or has failed, is established
(R366, R374, R375). With IDE_REQUIRED the PCIe personality serves no rings. -/
def hostReachable (s : State) : Bool := s.host.up && domOn s 3 && !(s.host.ideNeeded && !s.host.ideActive) && !s.host.ideFailed

/-- Completion statuses (R358). -/
def txOk : Nat := 0
def txNoAck : Nat := 1
def txAbsent : Nat := 2
def txNoEndpoint : Nat := 3
def txCancelled : Nat := 4
def txTooLong : Nat := 5
def txBadDesc : Nat := 6
def txHostFault : Nat := 7

/-- One completion not yet signalled on a ring (R362). -/
def unsignal (now : Nat) (x : Ring) : Ring :=
  { x with unsignalled := x.unsignalled + 1, oldest := if x.unsignalled = 0 then now else x.oldest }

/-- Word 3 of a transmit descriptor (R355). -/
def txWord3 (f : TxFrame) (status sf : Nat) : Word :=
  fieldAt 63 56 status ||| fieldAt 55 44 (f.seq.getD 0) ||| fieldAt 43 4 sf ||| fieldAt 0 0 1

/-- A host frame completes (R311, R355, R358): the ledger counts it, and where its ring still has its configuration word 3 is written and the
completion awaits its signal (R366). -/
def completeTx (f : TxFrame) (status : Nat) (s : State) : State :=
  let p := s.pair
  let t := { s with pair := { p with
    hfDelivered := p.hfDelivered + (if status = 0 then 1 else 0), hfReturned := p.hfReturned + (if status = 0 then 0 else 1)
    hfHeld := p.hfHeld - 1 } }
  if 256 ≤ f.ring then t
  else
    let x := txRing t f.ring
    let t := modTxRing f.ring (fun x => { x with accepted := x.accepted - 1 }) t
    if x.state = .disabled ∨ hostReachable s = false then t
    else emit (.host (x.base.toNat + 32 * f.index + 24) (bytesLE (txWord3 f status s.sf.number)))
      (modTxRing f.ring (unsignal t.clk.now) t)

/-- A frame leaves the transmit path without having gone out: those of a circuit, or of an endpoint. -/
def dropOutgoing (p : Outgoing → Bool) (s : State) : State := { s with air := { s.air with outbox := s.air.outbox.filter fun o => !p o } }
/-- The broadcasts of the host that are queued or under way on a circuit. -/
def castFrames (s : State) (c : Nat) : List TxFrame :=
  (s.air.outbox.filter fun o => o.circuit == c).filterMap (·.cast) ++ (s.air.castings.filter fun b => b.frame.circuit == c).map (·.frame)
/-- The SEQ of a record's first frame that has not begun its first transmission (R357): a frame that completes unsent leaves no gap. -/
def firstUnsent (s : State) (r : Record) : Nat :=
  ((s.air.outbox.filter fun o => o.first).findSome? fun o => o.owner.bind fun w => if w.1 = r.epId then some w.2 else none).getD r.dnNext

/-- Host frames of a record, first those sent. -/
def hostFrames (r : Record) : List TxFrame := r.sent.filterMap (fun x => if x.gone then none else x.host) ++ r.waiting.filterMap (·.host)

/-- Frames returned with one status. -/
def returnFrames (fs : List TxFrame) (status : Nat) (s : State) : State := fs.foldl (fun t f => completeTx f status t) s

/-- A record with nothing queued. -/
def emptied (s : State) (r : Record) : Record := { r with sent := r.sent.filter (·.gone), waiting := [], dnNext := firstUnsent s r }

/-- Every queued frame of a circuit returns with a status (R213, R311, R312). -/
def returnCircuit (c status : Nat) (s : State) : State :=
  let fs := (s.link.records.filter fun r => r.circuit == c).flatMap hostFrames ++ (s.link.bcastHeld.filter fun b => b.1 == c).map (·.2)
    ++ castFrames s c
  let t : State := { s with link := { s.link with
    records := s.link.records.map fun r => if r.circuit = c then emptied s r else r
    bcastHeld := s.link.bcastHeld.filter fun b => b.1 != c }}
  returnFrames fs status (dropOutgoing (·.circuit == c) { t with air := { t.air with castings := t.air.castings.filter fun b => b.frame.circuit != c } })

/-- Every queued frame returns with CANCELLED (R449). -/
def returnAllFrames (s : State) : State :=
  let fs := s.link.records.flatMap hostFrames ++ s.link.bcastHeld.map (·.2) ++ s.air.outbox.filterMap (·.cast) ++ s.air.castings.map (·.frame)
  returnFrames fs txCancelled { s with air := {}, link := { s.link with records := s.link.records.map (emptied s), bcastHeld := [] } }

/-- The rings' configuration is lost: frames already accepted complete unwritten (R366). -/
def unbindFrame (f : TxFrame) : TxFrame := { f with ring := 256 }
def unbindFrames (l : Links) : Links :=
  { l with
    records := l.records.map fun r => { r with
      sent := r.sent.map (fun x => { x with host := x.host.map unbindFrame }), waiting := r.waiting.map fun x => { x with host := x.host.map unbindFrame } }
    bcastHeld := l.bcastHeld.map fun b => (b.1, unbindFrame b.2) }
def unbindAir (a : Air) : Air :=
  { outbox := a.outbox.map fun o => { o with cast := o.cast.map unbindFrame }, castings := a.castings.map fun b => { b with frame := unbindFrame b.frame } }

end Sys2Proof.Machine
end

