-- ==== Sys2Proof/Machine/Registers.lean ====
section
/-! DEFINITION. The register space: BAR0 and BAR2 reads, register writes without a row of their own, the interrupt registers, the
read-to-clear ledgers (spec/21_register_map.md R475 to R487, spec/14 R349, R350, spec/20 R459). -/
namespace Sys2Proof.Machine

/-- The domain of a BAR0 block (R349, R477); none outside the blocks that follow R475. -/
def blockDomain (off : Nat) : Option Nat :=
  if off < 0x2000 then some 0
  else if off < 0x2100 then some 28
  else if 0x3000 ≤ off ∧ off < 0x5000 then some 29
  else if 0x5000 ≤ off ∧ off < 0x8000 then some 0
  else if 0x8000 ≤ off ∧ off < 0x9000 then some 28
  else if 0x10000 ≤ off ∧ off < 0x11080 then some 28
  else none

/-- AEAD registers as port `r` reads them (R410). -/
def readAead (s : State) (r off : Nat) : Word :=
  let p := aeadPort s r
  if off = 0x000 then aeadLock s
  else if off = 0x008 then fieldAt 30 28 p.op ||| bitAt 27 p.ccm ||| fieldAt 26 22 p.slot ||| fieldAt 21 17 p.target ||| fieldAt 16 12 p.tagLen
  else if off = 0x010 then fieldAt 44 32 p.adLen ||| fieldAt 12 0 p.textLen
  else if off = 0x018 then p.src
  else if off = 0x020 then p.dst
  else if off = 0x028 then p.nonceH
  else if off = 0x030 then fieldAt 63 32 p.nonceL
  else if off = 0x038 then aeadStatus s
  else if off = 0x040 then fieldAt 63 32 p.kEpoch ||| bitAt 25 p.kSize ||| fieldAt 24 20 p.kSel
  else if off = 0x068 then p.floor
  else if off = 0x070 then BitVec.ofNat 64 (slotOf s p.kSel).counter
  else 0

/-- A check unit's registers (R431). -/
def readChk (s : State) (u off : Nat) : Word :=
  let x := chkOf s u
  if off = 0x00 then fieldAt 15 9 x.width ||| bitAt 8 x.compat ||| bitAt 7 x.refin ||| bitAt 6 x.refout ||| fieldAt 3 0 x.bytes
  else if off = 0x08 then x.poly
  else if off = 0x10 then x.init
  else if off = 0x18 then x.xorout
  else if off = 0x20 then x.value
  else if off = 0x30 then chkResult x
  else 0

/-- The current value of a BAR0 register of an ENABLED block, without the effects of the reading rows (R477). -/
def readReg (s : State) (off : Nat) : Word :=
  if off = 0x0000 then idDevice s
  else if off = 0x0008 then idBuild s
  else if off = 0x0010 then idResources s
  else if off = 0x0018 then keepWord s 0
  else if off = 0x0020 then keepWord s 1
  else if off = 0x0028 then keepWord s 2
  else if off = 0x0030 then keepWord s 3
  else if off = 0x0100 then devStatus s
  else if off = 0x0108 then BitVec.ofNat 64 s.clk.tick
  else if off = 0x0110 then devThermal s
  else if off = 0x1000 then intCause s
  else if off = 0x1008 then s.irq.mask
  else if off = 0x1010 then fieldAt 5 0 s.irq.vector
  else if off = 0x1018 then s.irq.mbDone
  else if off = 0x2000 then fieldAt 63 60 s.mem.target ||| fieldAt 35 0 s.mem.offset
  else if off = 0x2008 then bitAt 0 s.mem.autoInc
  else if off = 0x2010 then fieldAt 7 4 s.mem.errCode ||| bitAt 0 s.mem.err
  else if 0x3000 ≤ off ∧ off < 0x4000 then readAead s 4 (off - 0x3000)
  else if 0x4000 ≤ off ∧ off < 0x4300 then readChk s ((off - 0x4000) / 0x80) ((off - 0x4000) % 0x80)
  else if off = 0x4800 then chkPipeCnt s
  else if off = 0x5000 then fieldAt 11 0 s.keep.addr
  else if off = 0x5008 then (if hostSealed s.keep.addr then 0 else keepWord s s.keep.addr)
  else if off = 0x5010 then ksStatus s
  else if off = 0x6000 then bitAt 8 s.tku.capDone ||| fieldAt 7 4 s.tku.gpioSel ||| bitAt 1 s.tku.armGpio
  else if off = 0x6008 then s.tku.capH
  else if off = 0x6010 then s.tku.capL
  else if off = 0x6018 then s.tku.capTick
  else if off = 0x6020 then tkuStatus s
  else if off = 0x7000 then domStatus0 s
  else if off = 0x7008 then domStatus1 s
  else if off = 0x7010 then s.pwr.domEvent
  else if off = 0x8000 then ledgerStatus s
  else if off = 0x8008 then ledgerCredit s
  else if off = 0x8010 then BitVec.ofNat 64 (s.pair.latched.getD 0 0)
  else if off = 0x8018 then BitVec.ofNat 64 (s.pair.latched.getD 1 0)
  else if off = 0x8020 then BitVec.ofNat 64 (s.pair.latched.getD 2 0)
  else if off = 0x8028 then BitVec.ofNat 64 (s.pair.latched.getD 3 0)
  else if off = 0x8030 then pairStatus s
  else if off = 0x8040 then bitAt 63 s.mem.violValid ||| fieldAt 34 0 s.mem.violAddr
  else if off = 0x8048 then fieldAt 31 0 s.mem.violCount
  else if off = 0x8050 then fieldAt 31 0 s.ev.prod
  else if off = 0x8058 then fieldAt 31 0 s.ev.cons
  else 0

/-- A host read of BAR0 (R350, R475): aligned 8-byte accesses only; a block whose domain is not ENABLED reads zero. -/
def readBar0 (s : State) (off bytes : Nat) : Word :=
  if bytes ≠ 8 ∨ off % 8 ≠ 0 then 0
  else match blockDomain off with
    | none => 0
    | some d => if domOn s d then readReg s off else 0

/-- MB_STATUS.STATE (R378). -/
def mbStateCode : MbState → Nat
  | .idle => 0
  | .done => 1
  | .posted => 2
  | .running => 3

/-- A mailbox register by its offset in the mailbox (R378). -/
def readBox (b : Mailbox) (off : Nat) : Word :=
  if off = 0x000 then fieldAt 63 48 b.opcode ||| fieldAt 47 32 b.tag ||| fieldAt 31 24 b.paramWords
  else if off = 0x008 then fieldAt 63 62 (mbStateCode b.st) ||| fieldAt 55 48 b.status ||| fieldAt 47 40 b.resultWords ||| fieldAt 31 0 b.detail
  else if off = 0x018 then fieldAt 63 32 b.postTick ||| fieldAt 31 0 b.doneTick
  else if 0x040 ≤ off ∧ off < 0x400 then tabGet 0 b.data ((off - 0x40) / 8)
  else 0

/-- A host read of a mailbox register in BAR2 (R379, R487). -/
def readBar2 (s : State) (off bytes : Nat) : Word :=
  if bytes ≠ 8 ∨ off % 8 ≠ 0 ∨ 0x6000 ≤ off then 0 else readBox (boxOf s (off / 0x400)) (off % 0x400)

/-- STATE[1] locks the RWL fields (R378). -/
def boxLocked (b : Mailbox) : Bool := b.st == .posted || b.st == .running

/-- A write to an RWL register of a mailbox: ignored while STATE[1] is set (R379). -/
def boxWrite (m off : Nat) (v : Word) (s : State) : State :=
  let b := boxOf s m
  if boxLocked b then s
  else if off = 0x000 then
    setBox m { b with opcode := fieldOf v 63 48, tag := fieldOf v 47 32, paramWords := fieldOf v 31 24 } s
  else if 0x040 ≤ off ∧ off < 0x400 then setBox m { b with data := tabPut 0 b.data ((off - 0x40) / 8) v } s
  else s

/-- A write to the AEAD block without START, REQUEST, RELEASE, WRITE or ZEROISE, through port `r` (R410): RWL fields only for
the owner while no operation is RUNNING; KSLOT, KEY and KFLOOR are not locked, and KFLOOR ignores the host. -/
def aeadWrite (r off : Nat) (v : Word) (s : State) : State :=
  let p := aeadPort s r
  let t := aeadTouch r s
  let free := s.aead.owner == r && s.aead.st != .running
  if off = 0x000 then
    if r = 4 ∧ bitOf v 16 = true then { t with aead := { t.aead with revoked := false } } else t
  else if off = 0x008 then
    if free then
      let op := fieldOf v 30 28
      setAeadPort r (ctlFields p (if 1 ≤ op ∧ op ≤ 6 then op else p.op) v) t
    else s
  else if off = 0x010 then if free then setAeadPort r { p with adLen := fieldOf v 44 32, textLen := fieldOf v 12 0 } t else s
  else if off = 0x018 then if free then setAeadPort r { p with src := v } t else s
  else if off = 0x020 then if free then setAeadPort r { p with dst := v } t else s
  else if off = 0x028 then if free then setAeadPort r { p with nonceH := v } t else s
  else if off = 0x030 then if free then setAeadPort r { p with nonceL := fieldOf v 63 32 } t else s
  else if off = 0x040 then setAeadPort r (kslotFields p v) t
  else if 0x048 ≤ off ∧ off ≤ 0x060 ∧ off % 8 = 0 then
    setAeadPort r { p with key := p.key.set ((off - 0x48) / 8) v } t
  else if off = 0x068 then if r = 1 ∨ r = 2 then setAeadPort r { p with floor := v } t else s
  else s

/-- A write to a check unit's configuration (R431, R432): a reserved WIDTH or BYTES leaves its field unchanged (R7). -/
def chkWrite (u off : Nat) (v : Word) (s : State) : State :=
  let x := chkOf s u
  if off = 0x00 then
    let w := fieldOf v 15 9
    let b := fieldOf v 3 0
    setChk u { x with
      width := if 8 ≤ w ∧ w ≤ 64 then w else x.width
      compat := bitOf v 8, refin := bitOf v 7, refout := bitOf v 6
      bytes := if 1 ≤ b ∧ b ≤ 8 then b else x.bytes } s
  else if off = 0x08 then setChk u { x with poly := v } s
  else if off = 0x10 then setChk u { x with init := v } s
  else if off = 0x18 then setChk u { x with xorout := v } s
  else if off = 0x20 then setChk u { x with value := v } s
  else s

/-- A vector unmasked: a set pending bit sends the message and clears (R362). -/
def unmaskVector (v : Nat) (s : State) : State :=
  let e := tabGet {} s.irq.msix v
  let t := { s with irq := { s.irq with msix := tabPut {} s.irq.msix v { e with masked := false, pend := false } } }
  if e.pend then signalVector v t else t

/-- A write to the MSI-X table: naturally aligned 4-byte and 8-byte accesses (R486). -/
def msixWrite (off bytes : Nat) (v : Word) (s : State) : State :=
  let k := off / 16
  let o := off % 16
  let e := tabGet {} s.irq.msix k
  let put := fun (x : Msix) (t : State) => { t with irq := { t.irq with msix := tabPut {} t.irq.msix k x } }
  let ctl := fun (masked : Bool) (x : Msix) (t : State) =>
    if masked then put { x with masked := true } t else unmaskVector k (put x t)
  if bytes = 8 ∧ o = 0 then put { e with addr := v } s
  else if bytes = 8 ∧ o = 8 then ctl (bitOf v 32) { e with data := fieldOf v 31 0 } s
  else if bytes = 4 ∧ o = 0 then put { e with addr := setField e.addr 31 0 (fieldOf v 31 0) } s
  else if bytes = 4 ∧ o = 4 then put { e with addr := setField e.addr 63 32 (fieldOf v 31 0) } s
  else if bytes = 4 ∧ o = 8 then put { e with data := fieldOf v 31 0 } s
  else if bytes = 4 ∧ o = 12 then ctl (bitOf v 0) e s
  else s

/-- A write of INT_CAUSE clears W1C causes (R480). -/
def causeWrite (v : Word) (s : State) : State := { s with irq := { s.irq with cause := s.irq.cause &&& ~~~ (v &&& 0x3E00) } }

/-- A write of INT_MASK (R480). -/
def maskWrite (v : Word) (s : State) : State := { s with irq := { s.irq with mask := v &&& 0x3FFF } }

/-- A write of MB_DONE_MAP (R482). -/
def doneMapWrite (v : Word) (s : State) : State := { s with irq := { s.irq with mbDone := s.irq.mbDone &&& ~~~ v } }

/-- A write of EVENT_VECTOR (R482). -/
def vectorWrite (v : Word) (s : State) : State := { s with irq := { s.irq with vector := fieldOf v 5 0 } }

/-- INT_CAUSE_WRITE (R480, R481). -/
def execIntCauseWrite (v : Word) (s : State) : Result := commitWrite (causeWrite v s)

/-- INT_MASK_WRITE (R480, R481). -/
def execIntMaskWrite (v : Word) (s : State) : Result := commitWrite (maskWrite v s)

/-- MB_DONE_MAP_WRITE (R481, R482). -/
def execMbDoneMapWrite (v : Word) (s : State) : Result := commitWrite (doneMapWrite v s)

/-- EVENT_VECTOR_WRITE (R482). -/
def execEventVectorWrite (v : Word) (s : State) : Result := commit s (vectorWrite v s)

/-- PROD minus CONS modulo 2^32 (R485). -/
def ringUse (prod cons : Nat) : Nat := (prod % 4294967296 + 4294967296 - cons % 4294967296) % 4294967296

/-- A write of EV_CONS: ignored with REG_OFF where PROD minus CONS would be negative or above COUNT (R485). -/
def evConsWrite (v : Word) (s : State) : State :=
  if ringUse s.ev.prod (fieldOf v 31 0) ≤ s.ev.count then { s with ev := { s.ev with cons := fieldOf v 31 0 } }
  else setCause 12 s

/-- EV_CONS_WRITE (R485). -/
def execEvConsWrite (v : Word) (s : State) : Result := commit s (inDomain 28 s (evConsWrite v s))

/-- LEDGER_CREDIT_READ (R459): returns the counters and clears them. -/
def execLedgerCreditRead (s : State) : Result :=
  commit s (readIn 28 (ledgerCredit s) s { s with pair := { s.pair with checks := 0, fails := 0, skipped := 0 } })

/-- PAIR_STATUS_READ (R459): returns the word and clears TAKEOVERS, SPLITS and CELL_LOST. -/
def execPairStatusRead (s : State) : Result :=
  commit s (readIn 28 (pairStatus s) s { s with pair := { s.pair with takeovers := 0, splits := 0, cellLost := 0 } })

/-- HDM_VIOL_ADDR_READ (R484). -/
def execHdmViolAddrRead (s : State) : Result :=
  commit s (readIn 28 (bitAt 63 s.mem.violValid ||| fieldAt 34 0 s.mem.violAddr) s
    { s with mem := { s.mem with violValid := false, violAddr := 0 } })

/-- HDM_VIOL_CNT_READ (R484). -/
def execHdmViolCntRead (s : State) : Result :=
  commit s (readIn 28 (fieldAt 31 0 s.mem.violCount) s { s with mem := { s.mem with violCount := 0 } })

/-- OFF_BLOCK_READ (R475): a read of a block whose domain is not ENABLED returns zero and sets REG_OFF; a block that is ENABLED
is not read by this command. -/
def execOffBlockRead (off : Nat) (s : State) : Result :=
  commit s
    (match blockDomain off with
     | none => s
     | some d => if domOn s d then s else setCause 12 (emit (.read [0]) s))

/-- MSIX_VECTOR_UNMASK (R362). -/
def execMsixVectorUnmask (v : Nat) (s : State) : Result := onObject (v < 64) s (unmaskVector v s)

end Sys2Proof.Machine
end

