-- ==== Sys2Proof/Machine/Tku.lean ====
section
/-! DEFINITION. The time-keeping unit: captures, sources, selection, states, time of day and the peer exchange
(spec/13_time_service.md R317 to R331, R338 to R341, R506). -/
namespace Sys2Proof.Machine

/-- Device time as the two words of R320: bits [95:32], and bits [31:0] in [63:32]; `us` whole microseconds and `sub` units of
2^-16 ns after them. -/
def timeHigh (us sub : Nat) : Word :=
  let ns := us % 1000000 * 1000 + sub / 65536 % 1000
  fieldAt 63 16 (us / 1000000) ||| fieldAt 15 0 (ns / 65536)
def timeLow (us sub : Nat) : Word :=
  let ns := us % 1000000 * 1000 + sub / 65536 % 1000
  fieldAt 63 48 ns ||| fieldAt 47 32 sub

/-- A capture latched: device time, tick count and DONE in one cycle (R320). -/
def latchCapture (sub : Nat) (s : State) : State :=
  { s with tku := { s.tku with
      capDone := true
      capH := timeHigh s.tku.devUs sub
      capL := timeLow s.tku.devUs sub
      capTick := BitVec.ofNat 64 s.clk.tick } }

/-- A write of TCAP_CTL (R320): DONE is cleared first, the RW fields are set, then CAPTURE latches unless DONE is set. -/
def tcapWrite (v : Word) (sub : Nat) (s : State) : State :=
  let t := { s with tku := { s.tku with
    capDone := s.tku.capDone && !bitOf v 8, gpioSel := fieldOf v 7 4, armGpio := bitOf v 1 } }
  if bitOf v 0 && !t.tku.capDone then latchCapture sub t else t

/-- TCAP_CAPTURE (R320). -/
def execTcapCapture (v : Word) (sub : Nat) (s : State) : Result := commit s (tcapWrite (v ||| bitAt 0 true) sub s)

/-- TCAP_DONE_CLEAR (R320). -/
def execTcapDoneClear (v : Word) (sub : Nat) (s : State) : Result := commit s (tcapWrite (v ||| bitAt 8 true) sub s)

/-- TCAP_ARM_GPIO (R320). -/
def execTcapArmGpio (v : Word) (sub : Nat) (s : State) : Result := commit s (tcapWrite (v ||| bitAt 1 true) sub s)

/-- GPIO_EDGE_CAPTURE (R320): the armed pin's edge while DONE is clear. -/
def execGpioEdgeCapture (pin sub : Nat) (s : State) : Result :=
  onObject (pin < 16) s
    (if s.tku.armGpio && !s.tku.capDone && s.tku.gpioSel == pin then
       let t := latchCapture sub s
       { t with tku := { t.tku with armGpio := false } }
     else s)

/-- A source's record replaced. -/
def setSrc (k : Nat) (x : Source) (s : State) : State :=
  { s with tku := { s.tku with src := tabPut {} s.tku.src k x } }

/-- A pair's labels. -/
def labelsOf (s : State) (i : Nat) : Labels := tabGet {} s.tku.labels i

/-- A pair's labels replaced. -/
def setLabels (i : Nat) (x : Labels) (s : State) : State :=
  { s with tku := { s.tku with labels := tabPut {} s.tku.labels i x } }

/-- A bit of TKU_STATUS.EVENTS set: 0 SOURCE_SWITCH, 1 SOURCE_JUMP, 2 STEP, 3 HOLDOVER_ENTRY, 4 TAKEOVER, 5 EV_DROP, 6 EV_LATE
(R320); the evidence record of the second carries it (R342). -/
def tkuEvent (b : Nat) (s : State) : State :=
  { s with tku := { s.tku with events := s.tku.events ||| bitAt b true },
           ev := { s.ev with eventsSec := s.ev.eventsSec ||| bitAt b true } }

/-- The TKU returns to ACQUIRE (R327). -/
def toAcquire (s : State) : State :=
  { s with tku := { s.tku with state := .acquire, acqRun := 0, trackRun := 0, lockedFor := 0 } }

/-- A source is lost: its qualification restarts from zero (R322). -/
def sourceLost (k : Nat) (s : State) : State :=
  let x := srcOf s k
  setSrc k { x with qualified := false, run := 0, fresh := false, eligibleFor := 0, hadLoss := x.hadLoss || x.qualified } s

/-- PEER_ROLE of Qm in force (R344). -/
def peerRoleOf (s : State) (m : Nat) : Nat := s.tku.peerRole.getD m 0

/-- The peer port of the PEER source (R322): the first ACTIVE one in role PAIR, else the first in role TIME_PEER. -/
def timePort (s : State) : Option Nat :=
  let on := fun (role m : Nat) => peerRoleOf s m == role && (portOf s (32 + m)).state == .active
  ([0, 1, 2, 3].filter (on 1) ++ [0, 1, 2, 3].filter (on 2)).head?

/-- What a change of the ports from `s` to `t` does to the PEER source: it is lost when its port leaves ACTIVE (R322). -/
def afterPorts (s t : State) : State :=
  if timePort s = none ∨ timePort t = timePort s then t else sourceLost 3 { t with tku := { t.tku with peerOffsets := [] } }

/-- The partner's TIME_QUAL and SELECTED as the PEER source's port brings them (R322, R341); a partner that reports UNTRUSTED loses the source, and so
does a time peer that selects PEER itself. -/
def partnerReports (q qual selected : Nat) (s : State) : State :=
  if timePort s = some q then
    let t := { s with tku := { s.tku with partnerQual := qual, partnerSelected := selected } }
    if (srcOf t 3).qualified && (qual / 64 == 0 || (peerRoleOf t q == 2 && selected == 3)) then sourceLost 3 t else t
  else s

/-- A trusted state, in which R324 watches for jumps. -/
def trusted (s : State) : Bool := s.tku.state != .acquire

/-- A qualified source whose phase error exceeds JUMP_LIMIT while device time is trusted is disqualified for 60 s (R324). -/
def jumpCheck (k : Nat) (s : State) : State :=
  let x := srcOf s k
  if x.qualified && trusted s && decide (s.tku.settings.jumpLimit * 16 < x.phase.natAbs) then
    let t := setSrc k { x with qualified := false, run := 0, disq := true, disqAt := s.clk.now, eligibleFor := 0, hadLoss := true } s
    raise 0x0051 0 (tkuEvent 1 { t with tku := { t.tku with jumps := sat32 t.tku.jumps 1 } })
  else s

/-- Device second nearest an instant `us`. -/
def nearSec (us : Nat) : Nat := (us + 500000) / 1000000

/-- TAI seconds of the present edge of pair i and its labels after it (R329): the waiting label where there is one, else the
count from the last edge, else the second nearest the edge by a PEER source's time, or by device time once `time.set_tai` has set it.
A label that disagrees with the count stands back until three in a row agree with each other. -/
def labelEdge (s : State) (i : Nat) : Labels × Option Nat × Bool :=
  let l := labelsOf s i
  let counted := match l.sec with
    | some n => some (n + 1)
    | none =>
      if (srcOf s 3).qualified then some (nearSec (((s.tku.devUs : Int) * 16000 - (srcOf s 3).phase) / 16000).toNat)
      else if s.tku.taiSet then some (nearSec s.tku.devUs) else none
  match l.waiting, counted with
  | some (n, _), none => ({ l with sec := some n, waiting := none, mismatchRun := 0 }, some n, false)
  | some (n, _), some c =>
    if n = c then ({ l with sec := some c, waiting := none, mismatchRun := 0 }, some c, false)
    else
      let by_ := (n : Int) - c
      let run := if l.mismatchRun ≠ 0 ∧ l.mismatchBy = by_ then l.mismatchRun + 1 else 1
      if 3 ≤ run then ({ l with sec := some n, waiting := none, mismatchRun := 0 }, some n, true)
      else ({ l with sec := some c, waiting := none, mismatchRun := run, mismatchBy := by_ }, some c, true)
  | none, c => ({ l with sec := c, mismatchRun := 0 }, c, false)

/-- Traceability declared for pair i (R506). -/
def ppsTrace (s : State) (i : Nat) : Bool :=
  let l := labelsOf s i
  if l.todAge ≤ 3 then l.todTrace else if i = 0 then s.tku.settings.srcTrace0 else s.tku.settings.srcTrace1

/-- PPS_IN_EDGE (R322, R323, R329): the edge is referred back by PPS_DELAY, labelled, and counts towards qualification. -/
def execPpsInEdge (i : Nat) (obs : PpsObs) (s : State) : Result :=
  let k := i + 1
  let e := labelEdge s i
  let t := setLabels i e.1 s
  let t := if e.2.2 then { t with tku := { t.tku with todMismatch := sat32 t.tku.todMismatch 1 } } else t
  let x := srcOf t k
  let delay : Int := if i = 0 then t.tku.settings.ppsDelay0 else t.tku.settings.ppsDelay1
  let whole : Int := match e.2.1 with
    | some n => ((nearSec t.tku.devUs : Int) - n) * 16000000000
    | none => 0
  let good := obs.freqOk && obs.alignOk && e.2.1.isSome
  let run := if x.disq || !good then 0 else if obs.intervalOk || x.run == 0 then x.run + 1 else 1
  onObject (i < 2) s (jumpCheck k (setSrc k { x with
    run := run
    qualified := x.qualified || decide (4 ≤ run)
    phase := obs.phase - delay + whole
    lastAt := t.clk.now
    bound := (if i = 0 then t.tku.settings.srcBound0 else t.tku.settings.srcBound1) + 2
    fresh := true
    traceable := ppsTrace t i } t))

/-- PPS_IN_LOSS (R322): no edge for 1.1 s. -/
def execPpsInLoss (i : Nat) (s : State) : Result :=
  onObject (i < 2) s
    (if s.clk.now < (srcOf s (i + 1)).lastAt + 1100000 then s
     else setLabels i { labelsOf s i with sec := none, mismatchRun := 0 } (sourceLost (i + 1) s))

/-- FREQ_IN_LOSS (R322): no edge for 1 us. -/
def execFreqInLoss (i : Nat) (s : State) : Result :=
  onObject (i < 2) s (setLabels i { labelsOf s i with sec := none, mismatchRun := 0 } (sourceLost (i + 1) s))

/-- PEER_SOURCE_LOSS (R322): no accepted exchange for 100 ms. -/
def execPeerSourceLoss (s : State) : Result := commit s (if s.clk.now < (srcOf s 3).lastAt + 100000 then s else sourceLost 3 s)

/-- HOST_SOURCE_LOSS (R322): no offset for 3 s. -/
def execHostSourceLoss (s : State) : Result := commit s (if s.clk.now < (srcOf s 4).lastAt + 3000000 then s else sourceLost 4 s)

/-- JUMP_DISQUALIFY_END (R324): 60 s have passed, and the source may qualify again. -/
def execJumpDisqualifyEnd (k : Nat) (s : State) : Result :=
  onObject (decide (1 ≤ k ∧ k ≤ 4)) s
    (if (srcOf s k).disq ∧ (srcOf s k).disqAt + 60000000 ≤ s.clk.now then setSrc k { srcOf s k with disq := false, run := 0 } s else s)

/-- Bytes `a` to `a + n - 1` of a message, most significant first, as a number. -/
def beField (bs : List Byte) (a n : Nat) : Nat := natLE ((bs.drop a).take n).reverse

/-- CRC-16 over bytes 2 to 21 of a time-of-day message (R330). -/
def todCrc (bs : List Byte) : Nat := crc16 0xFFFF (((bs.drop 2).take 20).flatMap bitsBE)

/-- A label for pair i (R330, R506). -/
def todLabel (i sec qual : Nat) (s : State) : State :=
  setLabels i { labelsOf s i with waiting := some (sec, qual), todAge := 0, todTrace := qual / 32 % 2 == 1 } s

/-- TOD_OUT_SEND (R330): the message that labels the next PPS_OUT edge. -/
def execTodOutSend (s : State) : Result :=
  let head := bytesOfNat 2 0x4757 ++ bytesOfNat 1 1 ++ bytesOfNat 1 0x12
    ++ bytesOfNat 6 (s.tku.devUs / 1000000 + 1) ++ bytesOfNat 2 (twosOf 16 s.tku.utcOffset)
    ++ bytesOfNat 1 (s.tku.leap * 64) ++ bytesOfNat 6 s.tku.leapAt
    ++ bytesOfNat 1 (timeQual s) ++ bytesOfNat 1 3 ++ bytesOfNat 1 0
  commit s (emit (.tod (head ++ bytesOfNat 2 (todCrc head))) s)

/-- A source is eligible: qualified with a bound within MAX_SRC_BOUND (R323). -/
def eligible (s : State) (k : Nat) : Bool :=
  (srcOf s k).qualified && decide ((srcOf s k).bound ≤ s.tku.settings.maxSrcBound)

/-- Rule 2 of R323: a source that lost qualification stays eligible for 10 s before it displaces the source in use, as long as that one is
qualified. -/
def mayDisplace (s : State) (k : Nat) : Bool :=
  k == s.tku.selected || !(srcOf s k).hadLoss || decide (10 ≤ (srcOf s k).eligibleFor)
    || s.tku.selected == 0 || !(srcOf s s.tku.selected).qualified

/-- The qualified source of least bound, the first in priority among equals (R323). -/
def leastBound (s : State) : List Nat → Nat
  | [] => 0
  | k :: ks =>
    let r := leastBound s ks
    if (srcOf s k).qualified ∧ (r = 0 ∨ (srcOf s k).bound ≤ (srcOf s r).bound) then k else r

/-- Selection at a second (R323); a device that joins or tracks as a standby takes PEER alone (R327, R338). -/
def selectSource (s : State) : Nat :=
  if s.tku.peerForced ∨ s.tku.state = .tracking then (if (srcOf s 3).qualified then 3 else 0)
  else
    let ks := s.tku.settings.priority.filter (mayDisplace s)
    match ks.filter (eligible s) with
    | k :: _ => k
    | [] => if s.tku.settings.priority.any (eligible s) then s.tku.selected else leastBound s ks

/-- SELECTED changes; every change counts SOURCE_SWITCH (R323). -/
def selects (k : Nat) (s : State) : State :=
  if k = s.tku.selected then s
  else raise 0x0050 0 (tkuEvent 0 { s with tku := { s.tku with selected := k, switches := sat32 s.tku.switches 1 } })

/-- The nearest whole number of microseconds to a phase error in 1/16 ns. -/
def nearestUs (phase : Int) : Int := (phase + 8000) / 16000

/-- FREQ_ADJ's limit of 5 ppm in 2^-48 (R317). -/
def freqLimit : Int := 1407374883

/-- A disciplined FREQ_ADJ: the loop's value is the firmware's and hardware's own, within 5 ppm (R317). -/
def freeFreq (s : State) : Int × State :=
  let d := drawFree s
  ((d.1.toNat : Int) % (2 * freqLimit + 1) - freqLimit, d.2)

/-- The model's prediction f_0 + a (t - FIT_TIME) (R326), AGE in 2^-56 per day. -/
def modelFreq (m : Model) (sec : Nat) : Int := m.f0 + m.age * ((sec : Int) - m.fitTime) / (86400 * 256)

/-- Entry to HOLDOVER (R326, R327): B_TKU and the traceability of the source selected at entry are kept. -/
def enterHoldover (bound : Option Nat) (trace : Bool) (s : State) : State :=
  let t := { s with tku := { s.tku with state := .holdover, holdSeconds := 0, holdEntry := bound, holdTrace := trace, lockedFor := 0 } }
  raise 0x0053 0 (tkuEvent 3 t)

/-- The median of a list of offsets: the middle one in order. -/
def insertInt (x : Int) : List Int → List Int
  | [] => [x]
  | y :: ys => if x ≤ y then x :: y :: ys else y :: insertInt x ys
def sortInts (l : List Int) : List Int := l.foldr insertInt []
def medianInt (l : List Int) : Int := (sortInts l).getD (l.length / 2) 0

/-- The bound in ns that a BOUND code stands for, rounded up; code 31 is unknown and counts as 2^32 (R321, R341). -/
def boundOfCode (n : Nat) : Nat :=
  if n = 31 then 4294967296
  else if n % 2 = 0 then 8 * 2 ^ (n / 2)
  else (11313709 * 2 ^ (n / 2) + 999999) / 1000000

/-- The PEER source at a second: its phase error is the median of the second's exchanges (R338, R341); it qualifies after 10 s of
exchanges with a trusted partner, which on a TIME_PEER port does not itself select PEER (R322, R341). -/
def peerSecond (s : State) : State :=
  if s.tku.peerOffsets.isEmpty then s
  else
    let x := srcOf s 3
    let q := s.tku.partnerQual
    let timePeer := (timePort s).any fun m => peerRoleOf s m == 2
    let ok := decide (10000 ≤ x.run) && q / 64 != 0 && !(timePeer && s.tku.partnerSelected == 3) && !x.disq
    jumpCheck 3 (setSrc 3 { x with
      qualified := x.qualified || ok
      phase := medianInt s.tku.peerOffsets
      bound := boundOfCode (q % 32) + 2
      fresh := true
      traceable := q / 32 % 2 == 1 } { s with tku := { s.tku with peerOffsets := [] } })

/-- Eligibility counted by the second (R323), and the age of the time-of-day labels (R506). -/
def countSecond (s : State) : State :=
  let t := [1, 2, 3, 4].foldl (fun t k =>
    setSrc k { srcOf t k with eligibleFor := if eligible t k then (srcOf t k).eligibleFor + 1 else 0 } t) s
  [0, 1].foldl (fun t i => setLabels i { labelsOf t i with todAge := min ((labelsOf t i).todAge + 1) 4 } t) t

/-- The state table of R327 for one second, in table order. `bound` and `trace` are those of the source in use before selection. -/
def tkuTransition (bound : Option Nat) (trace : Bool) (s : State) : State :=
  let x := srcOf s s.tku.selected
  match s.tku.state with
  | .acquire =>
    if s.tku.selected = 0 ∨ x.fresh = false then { s with tku := { s.tku with acqRun := 0, trackRun := 0 } }
    else if 16000 ≤ x.phase.natAbs then
      let t := { s with tku := { s.tku with
        stepUs := - nearestUs x.phase, steps := sat32 s.tku.steps 1, acqRun := 0, trackRun := 0 } }
      raise 0x0052 0 (tkuEvent 2 t)
    else if s.tku.peerForced then
      let r := if x.phase.natAbs ≤ 32 then s.tku.trackRun + 1 else 0
      { s with tku := { s.tku with trackRun := r, state := if 10 ≤ r then .tracking else .acquire } }
    else
      let r := if x.phase.natAbs ≤ 160 then s.tku.acqRun + 1 else 0
      { s with tku := { s.tku with acqRun := r, state := if 10 ≤ r then .locked else .acquire } }
  | .locked =>
    if s.tku.selected = 0 then enterHoldover bound trace s
    else { s with tku := { s.tku with lockedFor := if s.tku.selected ≤ 3 then s.tku.lockedFor + 1 else 0 } }
  | .holdover =>
    if s.tku.selected ≠ 0 ∧ x.fresh = true ∧ x.phase.natAbs ≤ 160 then
      { s with tku := { s.tku with state := .locked, holdSeconds := 0 } }
    else { s with tku := { s.tku with holdSeconds := min (s.tku.holdSeconds + 1) 0xFFFFFFFF } }
  | .tracking => if s.tku.selected = 0 then enterHoldover bound trace s else s

/-- FREQ_ADJ's mean over the last 100 s, or as many as there have been, rounded down (R326). -/
def meanFreq (s : State) : Int :=
  let l := s.tku.freqLog
  if l.isEmpty then s.tku.freqAdj else l.foldl (· + ·) 0 / l.length
/-- The second's FREQ_ADJ joins the log. -/
def logFreq (s : State) : State := { s with tku := { s.tku with freqLog := (s.tku.freqAdj :: s.tku.freqLog).take 100 } }

/-- FREQ_ADJ for the coming second (R317, R326): without a measurement of the selected source it stands as it is (R339). -/
def steerFreq (s : State) : State :=
  match s.tku.state with
  | .holdover =>
    match liveModel s with
    | some m => { s with tku := { s.tku with freqAdj := modelFreq m (s.tku.devUs / 1000000) } }
    | none => if s.tku.holdSeconds = 0 then { s with tku := { s.tku with freqAdj := meanFreq s } } else s
  | _ => if s.tku.selected = 0 ∨ (srcOf s s.tku.selected).fresh = false then s else let f := freeFreq s; { f.2 with tku := { f.2.tku with freqAdj := f.1 } }

/-- A role entered (R463). -/
def enterRole (r : PairRole) (s : State) : State :=
  { s with pair := { s.pair with
      role := r, since := s.clk.now, sbState := if r = .standby then 1 else 0, lastPeerFrame := none, missed := 0, noFollower := 0
      afterTakeover := false, split := false, request := r == .standby, outCells := [] } }

/-- PEER_ROLE of Q0 to Q3 comes into force (R344, R463): the first port in role PAIR makes a CANDIDATE, and none leaves the device UNPAIRED. -/
def applyPeerRoles (roles : List Nat) (s : State) : State :=
  let t := afterPorts s { s with tku := { s.tku with peerRole := roles, peerRoleDue := none } }
  if roles.contains 1 then (if t.pair.role = .unpaired then enterRole .candidate t else t)
  else if t.pair.role = .unpaired then t
  else enterRole .unpaired { t with tku := { t.tku with peerForced := false } }

/-- The time settings waiting for a second take effect (R344). -/
def settingsSecond (s : State) : State :=
  let t := match s.tku.settingsDue with
    | some n => { s with tku := { s.tku with settings := n, settingsDue := none } }
    | none => s
  let t := match t.link.rangeDue with
    | some r => { t with link := { t.link with rangePeriod := r.1, rangeReject := r.2, rangeDue := none } }
    | none => t
  match t.tku.peerRoleDue with
  | some roles => applyPeerRoles roles t
  | none => t

/-! The peer exchange (R338, R340, R341, R461). Instants are in 1/16 ns of device time. -/

/-- Device time of the strobe of a tick by the present numbering. -/
def strobeOf (s : State) (tag : Nat) : Int := 16000 * ((s.tku.devUs : Int) + tag - s.clk.tick)
/-- The offset of an exchange on a port in role PAIR (R338, R461): the partner's stamps of the frame TS_TAG count from its own T of that tick, `base`
microseconds, and the device's own are of the same tag; none where it holds no arrival of that mark. -/
def pairOffset (s : State) (x : Port) (base : Nat) : Option Int :=
  (x.marks.find? fun m => m.1 == x.farTag).map fun m =>
    ((m.2 - (16000 * (base : Int) + x.farLaunch)) - (16000 * (base : Int) + x.farArrival - (strobeOf s x.farTag + x.launchOffset))) / 2
/-- The offset of an exchange on a port in role TIME_PEER (R341): t2 the arrival of the mark that t1 describes, t3 the launch of the own
whole-millisecond mark nearest to t4; each within 500 us of its partner's stamp. -/
def timePeerOffset (x : Port) : Option Int :=
  let ms : Int := 16000000
  match x.marks.head? with
  | none => none
  | some m =>
    let t3 := (x.farArrival - x.launchOffset + ms / 2) / ms * ms + x.launchOffset
    if (m.2 - x.farLaunch).natAbs ≤ 8000000 ∧ (x.farArrival - t3).natAbs ≤ 8000000 then some (((m.2 - x.farLaunch) - (x.farArrival - t3)) / 2) else none

/-- PEER_EXCHANGE (R338, R341): the offset of one exchange on the PEER source's port. `base` is the partner's device time of the tick TS_TAG in
microseconds, which on a PAIR port its journal tells. -/
def execPeerExchange (base : Nat) (s : State) : Result :=
  commit s
    (match timePort s with
     | none => s
     | some m =>
       let x := portOf s (32 + m)
       match if peerRoleOf s m = 2 then timePeerOffset x else pairOffset s x base with
       | none => s
       | some o =>
         let t := setSrc 3 { srcOf s 3 with run := (srcOf s 3).run + 1, lastAt := s.clk.now } s
         { t with tku := { t.tku with peerOffsets := t.tku.peerOffsets ++ [o] } })

/-- The commit word of a record: the CRC-32C over its other words, most significant byte first (R439). -/
def commitWord (ws : List Word) : Word := BitVec.ofNat 64 (crc32c (ws.flatMap bytesBE))

/-- The model's words (R326, R440). -/
def modelWords (m : Model) : List Word :=
  [BitVec.ofNat 64 m.fitTime, BitVec.ofInt 64 m.f0, BitVec.ofInt 64 m.age, fieldAt 63 32 m.uf ||| fieldAt 31 0 m.ua]

/-- Words paired with consecutive keep-store addresses. -/
def atWords (a : Nat) : List Word → List (Nat × Word)
  | [] => []
  | w :: ws => (a, w) :: atWords (a + 1) ws

/-- The model as the keep store's words give it (R439): none where the commit word does not match. -/
def readModel (s : State) : Option Model :=
  let w := fun (i : Nat) => keepQueued s (256 + i)
  if w 4 = commitWord [w 0, w 1, w 2, w 3] then
    some { fitTime := (w 0).toNat, f0 := (w 1).toInt, age := (w 2).toInt, uf := fieldOf (w 3) 63 32, ua := fieldOf (w 3) 31 0 }
  else none

/-- MODEL_WRITE (R326): LOCKED for 24 hours, and every 24 hours from then on, on a PPS or PEER source, firmware writes the model it fitted, unless a word is WORN (R439). -/
def execModelWrite (fit : Model) (s : State) : Result :=
  let ws := modelWords fit
  commit s
    (if s.tku.state = .locked ∧ 86400 ≤ s.tku.lockedFor ∧ writable s [256, 257, 258, 259, 260] = true then
       mpWrites (atWords 256 (ws ++ [commitWord ws])) { s with tku := { s.tku with model := some fit, lockedFor := s.tku.lockedFor - 86400 } }
     else s)

end Sys2Proof.Machine
end

