-- ==== Sys2Proof/WellFormed.lean ====
section
/-! DEFINITION. Well-formed commands: every object a command names is one the device has (spec/00_scope.md R3, R13, spec/14 R349, R354,
R363, spec/15 R376, spec/16 R407, spec/17 R431, spec/21 R486, R487). -/
namespace Sys2Proof

/-- A circuit the variant has; `h` says PT-8800-H (R3, R13). -/
def circuitInRange (h : Bool) (c : Nat) : Bool := decide (c < if h then 384 else 768)

/-- A front-end port P0 to P31, or a peer port Q0 to Q3 as 32 to 35, of the variant (R3, R13). -/
def portInRange (h : Bool) (p : Nat) : Bool := decide (p < 36) && !(h && decide (16 ≤ p ∧ p < 32))

/-- A front-end port of the variant (R3, R13). -/
def frontInRange (h : Bool) (p : Nat) : Bool := decide (p < 32) && portInRange h p

/-- A physical cluster of the variant (R3, R13). -/
def clusterInRange (h : Bool) (c : Nat) : Bool := decide (c < if h then 136 else 272)

/-- The command names only objects that the variant has. -/
def Instr.wf (h : Bool) : Instr → Bool
  | .mbPost m => decide (m < 32)
  | .mbRelease m => decide (m < 32)
  | .mbCancel m => decide (m < 32)
  | .mbTake => true
  | .mailboxTimeout m => decide (m < 32)
  | .backgroundOpDone _ _ => true
  | .deviceIdentify m => decide (m < 28)
  | .deviceStatus m => decide (m < 28)
  | .deviceEvents m => decide (m < 28)
  | .deviceReset m => decide (m < 28)
  | .deviceHostMode m => decide (m < 28)
  | .portStatus m => decide (m < 28)
  | .portRetrain m => decide (m < 28)
  | .portSetState m => decide (m < 28)
  | .portSetPreset m => decide (m < 28)
  | .clockSetSpread m => decide (m < 28)
  | .portFrameCounters m => decide (m < 28)
  | .portCalibrate m => decide (m < 28)
  | .portConfig m => decide (m < 28)
  | .deviceSetRegion m => decide (m < 28)
  | .deviceRegionStatus m => decide (m < 28)
  | .deviceSfConfig m => decide (m < 28)
  | .deviceSfStatus m => decide (m < 28)
  | .deviceRingConfig m => decide (m < 28)
  | .deviceRingStatus m => decide (m < 28)
  | .deviceRxSteer m => decide (m < 28)
  | .deviceGranaryConfig m => decide (m < 28)
  | .deviceEventVector m => decide (m < 28)
  | .circuitSetClass m => decide (m < 28)
  | .circuitRxConfig m => decide (m < 28)
  | .circuitRxStatus m => decide (m < 28)
  | .circuitRxCounters m => decide (m < 28)
  | .circuitAgc m => decide (m < 28)
  | .circuitCaStatus m => decide (m < 28)
  | .circuitCaConfig m => decide (m < 28)
  | .circuitXtSurvey m => decide (m < 28)
  | .circuitCdConfig m => decide (m < 28)
  | .circuitCdStatus m => decide (m < 28)
  | .circuitCdRetrain m => decide (m < 28)
  | .circuitChaffMap m => decide (m < 28)
  | .circuitChaffConfig m => decide (m < 28)
  | .circuitCodeCounters m => decide (m < 28)
  | .circuitTxConfig m => decide (m < 28)
  | .circuitTxFilter m => decide (m < 28)
  | .circuitNotch m => decide (m < 28)
  | .circuitRelay m => decide (m < 28)
  | .circuitRelayStatus m => decide (m < 28)
  | .circuitTxStatus m => decide (m < 28)
  | .circuitBeaconConfig m => decide (m < 28)
  | .circuitMacCounters m => decide (m < 28)
  | .planLoad m => decide (m < 28)
  | .planActivate m => decide (m < 28)
  | .planAbort m => decide (m < 28)
  | .planStatus m => decide (m < 28)
  | .planEdit m => decide (m < 28)
  | .planRead m => decide (m < 28)
  | .planStageWrite m => decide (m < 28)
  | .planSaveBoot m => decide (m < 28)
  | .endpointList m => decide (m < 28)
  | .endpointStatus m => decide (m < 28)
  | .endpointEvict m => decide (m < 28)
  | .endpointReaddress m => decide (m < 28)
  | .endpointSetRepeater m => decide (m < 28)
  | .endpointLinkCounters m => decide (m < 28)
  | .endpointLinkConfig m => decide (m < 28)
  | .endpointDeny m => decide (m < 28)
  | .endpointCaSnapshot m => decide (m < 28)
  | .timeStatus m => decide (m < 28)
  | .timeSourceConfig m => decide (m < 28)
  | .timeSetTai m => decide (m < 28)
  | .timeHostOffset m => decide (m < 28)
  | .timeResync m => decide (m < 28)
  | .timeEvidenceRing m => decide (m < 28)
  | .timeEndpointStatus m => decide (m < 28)
  | .timeRangeConfig m => decide (m < 28)
  | .timeModel m => decide (m < 28)
  | .timePeerConfig m => decide (m < 28)
  | .securityStatus m => decide (m < 28)
  | .securityJoinKey m => decide (m < 28)
  | .securityCircuitKey m => decide (m < 28)
  | .securityZeroise m => decide (m < 28)
  | .securityAttest m => decide (m < 28)
  | .securityCert m => decide (m < 28)
  | .firmwareStatus m => decide (m < 28)
  | .firmwareStageWrite m => decide (m < 28)
  | .firmwareVerify m => decide (m < 28)
  | .firmwareWriteBank m => decide (m < 28)
  | .firmwareActivate m => decide (m < 28)
  | .firmwareCommit m => decide (m < 28)
  | .firmwareRevert m => decide (m < 28)
  | .firmwareSetBoot m => decide (m < 28)
  | .diagMpStatus m => decide (m < 28)
  | .diagNearRead m => decide (m < 28)
  | .lanePrbs m => decide (m < 28)
  | .laneMarginScan m => decide (m < 28)
  | .laneCounters m => decide (m < 28)
  | .ldpcStatus m => decide (m < 28)
  | .diagCapture m => decide (m < 28)
  | .diagCaptureStatus m => decide (m < 28)
  | .powerDomainSet m => decide (m < 28)
  | .powerDomainStatus m => decide (m < 28)
  | .powerAvsStatus m => decide (m < 28)
  | .ageingLedger m => decide (m < 28)
  | .ageingClusterTest m => decide (m < 28)
  | .mctpWrite _ => true
  | .mctpRead _ => true
  | .mctpDoorbell _ => true
  | .setEndpointId _ => true
  | .getEndpointId => true
  | .getMctpVersionSupport => true
  | .getMessageTypeSupport => true
  | .getVendorDefinedMsgSupport => true
  | .journalEntry => true
  | .standbyReady => true
  | .watchdogKick => true
  | .watchdogExpiry => true
  | .registerWrite agent bar _ _ _ => decide (1 ≤ agent ∧ agent ≤ 4 ∧ (bar = 0 ∨ bar = 2))
  | .intCauseWrite _ => true
  | .intMaskWrite _ => true
  | .mbDoneMapWrite _ => true
  | .eventVectorWrite _ => true
  | .evConsWrite _ => true
  | .txDbWrite q _ => decide (q < 256)
  | .rxDbWrite q _ => decide (q < 256)
  | .xdbWrite n _ => decide (n < 16)
  | .tcapCapture _ _ => true
  | .tcapDoneClear _ _ => true
  | .tcapArmGpio _ _ => true
  | .gpioEdgeCapture pin _ => decide (pin < 16)
  | .ksDataWrite _ => true
  | .ksDataRead => true
  | .keepWriteStart => true
  | .keepWriteDone => true
  | .keepWriteWaitTimeout => true
  | .bulkDataRead off len => decide (off + len ≤ 4096)
  | .bulkDataWrite off words => decide (off + 8 * words.length ≤ 4096)
  | .aeadLockRequest r => decide (1 ≤ r ∧ r ≤ 4)
  | .aeadLockRelease r => decide (1 ≤ r ∧ r ≤ 4)
  | .aeadEncrypt r _ => decide (1 ≤ r ∧ r ≤ 4)
  | .aeadDecrypt r _ => decide (1 ≤ r ∧ r ≤ 4)
  | .aeadWrap r _ => decide (1 ≤ r ∧ r ≤ 4)
  | .aeadUnwrap r _ => decide (1 ≤ r ∧ r ≤ 4)
  | .aeadGenerate r _ => decide (1 ≤ r ∧ r ≤ 4)
  | .aeadJoinMac r _ => decide (1 ≤ r ∧ r ≤ 4)
  | .aeadOpDone _ => true
  | .aeadKeyWrite r _ => decide (1 ≤ r ∧ r ≤ 4)
  | .aeadKeyZeroise r _ => decide (1 ≤ r ∧ r ≤ 4)
  | .aeadIdleRelease => true
  | .entropyHealthFail => true
  | .drbgReseed => true
  | .chkStart _ u => decide (u < 8)
  | .chkDataWrite _ u _ => decide (u < 8)
  | .chkPipeCntRead => true
  | .ledgerCreditRead => true
  | .pairStatusRead => true
  | .hdmViolAddrRead => true
  | .hdmViolCntRead => true
  | .resetNAssert => true
  | .resetNRelease => true
  | .sequenceStart _ => true
  | .sequenceDone => true
  | .railRemoved _ => true
  | .powerGood d => decide (1 ≤ d ∧ d < 30)
  | .powerGoodTimeout d => decide (1 ≤ d ∧ d < 30)
  | .domainSwitchStart => true
  | .drainEnd d => decide (1 ≤ d ∧ d < 30)
  | .powerDownDone d => decide (1 ≤ d ∧ d < 30)
  | .vddCoreWindowFlag => true
  | .oscInLoss => true
  | .oscInReturn => true
  | .thermalTrip site => decide (site < 49)
  | .avsMeasurement _ => true
  | .avsBusFault => true
  | .avsBusRetry _ => true
  | .pmbusPoll _ => true
  | .ledgerHourlyUpdate _ => true
  | .ledgerDailyWrite => true
  | .ledgerYearlySnapshot => true
  | .avsAtLimitExpiry => true
  | .tickStrobe _ => true
  | .overrunLimit cl => clusterInRange h cl
  | .qualLate c => circuitInRange h c
  | .noSync c _ => circuitInRange h c
  | .samplesLost c => circuitInRange h c
  | .overload c => circuitInRange h c
  | .receptionTimeout c _ => circuitInRange h c
  | .captureFreeze => true
  | .upstreamTickFrame p _ => frontInRange h p
  | .portDegraded p => frontInRange h p
  | .portReadyAgain p => frontInRange h p
  | .portRebring p => portInRange h p
  | .calMeasureDone p => frontInRange h p
  | .feIdentity p _ => frontInRange h p
  | .feCalReport p _ => frontInRange h p
  | .feAlarm p _ => frontInRange h p
  | .feAck p _ => frontInRange h p
  | .feMessageResend p => frontInRange h p
  | .blockLockAcquired lane _ => portInRange h (lane / 2)
  | .blockLockLost lane => portInRange h (lane / 2)
  | .trainWordReceived lane _ _ => portInRange h (lane / 2)
  | .bringupPhaseTimeout p => portInRange h p
  | .signalDetected p => portInRange h p
  | .dormantProbe p => portInRange h p
  | .probeWindowEnd p => portInRange h p
  | .bringupQueueStart => true
  | .peerFrame q _ => decide (q < 4)
  | .timePeerFrame q _ => decide (q < 4)
  | .peerMarkerMissing => true
  | .followerTestExpiry => true
  | .isolatedExpiry => true
  | .candidateExpiry => true
  | .checkpointComplete => true
  | .ldpcDispatch => true
  | .ldpcDecodeDone d => decide (d < 34)
  | .ldpcKnownAnswerTest _ => true
  | .reasmTimeout c => circuitInRange h c
  | .dataFrameRx f => circuitInRange h f.circuit
  | .mgmtFrameRx f => circuitInRange h f.circuit
  | .ackRx f => circuitInRange h f.circuit
  | .reportRx f => circuitInRange h f.circuit
  | .sleepReqRx f => circuitInRange h f.circuit
  | .relayBeaconRx f => circuitInRange h f.circuit
  | .leaveRx f => circuitInRange h f.circuit
  | .joinReq f => circuitInRange h f.circuit
  | .joinResponse f _ => circuitInRange h f.circuit
  | .joinChallengeTimeout c _ => circuitInRange h c
  | .joinAbandon c _ => circuitInRange h c
  | .rangeReply f _ => circuitInRange h f.circuit
  | .turnReport f => circuitInRange h f.circuit
  | .rangeReport f => circuitInRange h f.circuit
  | .ackTimerExpiry c _ => circuitInRange h c
  | .gapSkip c _ => circuitInRange h c
  | .pollAnswerTimeout c _ => circuitInRange h c
  | .readdressTimeout c _ => circuitInRange h c
  | .quarantineExpiry c _ => circuitInRange h c
  | .retainExpiry _ => true
  | .sleepWake c _ => circuitInRange h c
  | .txDescFetch q _ => decide (q < 256)
  | .txTooLong c _ => circuitInRange h c
  | .rxFrameDeliver q _ => decide (q < 256)
  | .msixModCount _ q => decide (q < 256)
  | .msixModTicks _ q => decide (q < 256)
  | .ringDrainEnd _ q => decide (q < 256)
  | .hostRequestFailed _ => true
  | .cxlCompletionTimeout _ => true
  | .hostLinkUp _ => true
  | .hostLinkDown => true
  | .hotReset => true
  | .cxlmemHostRead a => decide (a < 25769803776)
  | .cxlmemHostWrite a _ _ => decide (a < 25769803776)
  | .h2dSnoop _ => true
  | .ideMacFail => true
  | .ideKeyProgram => true
  | .spdmRequest _ => true
  | .grantListHandover _ _ => true
  | .grantListClose => true
  | .grantListReuseExpiry => true
  | .superframeBoundary => true
  | .chaffAgeHalving c => circuitInRange h c
  | .sfMarkWrite => true
  | .endpointSummaryWrite => true
  | .sfRefLost => true
  | .ppsInEdge pair _ => decide (pair < 2)
  | .ppsInLoss pair => decide (pair < 2)
  | .freqInLoss pair => decide (pair < 2)
  | .todInMessage _ _ => true
  | .todOutSend => true
  | .tkuSecond => true
  | .jumpDisqualifyEnd k => decide (1 ≤ k ∧ k ≤ 4)
  | .peerSourceLoss => true
  | .hostSourceLoss => true
  | .peerExchange _ => true
  | .modelWrite _ => true
  | .evidenceRecord => true
  | .evLate => true
  | .recordSeqMarkWrite => true
  | .cdTrainWord c _ => circuitInRange h c
  | .cdSwitchExit c => circuitInRange h c
  | .cdPhaseTimeout c => circuitInRange h c
  | .cdTrainingTimeout c => circuitInRange h c
  | .feedSearchRetry c => circuitInRange h c
  | .linkLost c => circuitInRange h c
  | .feedOverload c => circuitInRange h c
  | .tapRevert c => circuitInRange h c
  | .tapGuardFail c => circuitInRange h c
  | .prbsCheckerLock l => portInRange h (l / 2)
  | .prbsLockLoss l => portInRange h (l / 2)
  | .alertNRelease => true
  | .mpBootDone _ _ => true
  | .hdmDecoderCommit _ => true
  | .msixVectorUnmask v => decide (v < 64)
  | .offBlockRead _ => true
  | .aeadStatusRead r => decide (1 ≤ r ∧ r ≤ 4)

end Sys2Proof
end

