-- ==== Sys2Proof/Machine/PlanQuery.lean ====
section
/-! DEFINITION. What a plan image says: its header, its records, the circuits and clusters it uses (spec/02_tick_and_plan.md R53, R54, R61). -/
namespace Sys2Proof.Machine

/-- A header word of an image. -/
def hdr (img : List Word) (i : Nat) : Word := img.getD i 0
/-- PLAN_ID and PARENT_ID (R53); 0 where there is no image. -/
def planId (img : List Word) : Nat := fieldOf (hdr img 1) 63 32
def parentId (img : List Word) : Nat := fieldOf (hdr img 4) 63 32
/-- The records (R53). -/
def records (img : List Word) : List Word := (img.drop 8).take (fieldOf (hdr img 1) 31 16)
/-- A record's type and the records of one type (R54). -/
def recType (w : Word) : Nat := fieldOf w 63 60
def ofType (k : Nat) (img : List Word) : List Word := (records img).filter fun w => recType w == k
/-- Record fields (R54). -/
def mapActive (w : Word) : Nat := fieldOf w 59 52
def mapPhysical (w : Word) : Nat := fieldOf w 51 43
def placeFunc (w : Word) : Nat := fieldOf w 59 56
def placeActive (w : Word) : Nat := fieldOf w 55 48
def placeCircuit (w : Word) : Nat := fieldOf w 47 38
def placeOffset (w : Word) : Nat := fieldOf w 37 26
def placeLength (w : Word) : Nat := fieldOf w 25 14
def placeCap (w : Word) : Nat := fieldOf w 13 11
def routeSlot (w : Word) : Nat := fieldOf w 59 57
def routeCircuit (w : Word) : Nat := fieldOf w 56 47
def routeActive (w : Word) : Nat := fieldOf w 46 39
def routeBase (w : Word) : Nat := fieldOf w 38 31
def circCircuit (w : Word) : Nat := fieldOf w 59 50
def circMode (w : Word) : Nat := fieldOf w 49 48
def circClassA (w : Word) : Bool := bitOf w 47
def circNbrCount (w : Word) : Nat := fieldOf w 46 44
def circNbrs (w : Word) : List Nat :=
  [fieldOf w 43 34, fieldOf w 33 24, fieldOf w 23 14, fieldOf w 13 4].take (circNbrCount w)
def spanCircuit (w : Word) : Nat := fieldOf w 59 50
def spanTicks (w : Word) : Nat := fieldOf w 49 30

/-- The CIRCUIT record of a circuit in an image. -/
def circuitRec (img : List Word) (c : Nat) : Option Word := (ofType 4 img).find? fun w => circCircuit w == c
/-- Circuits the plan in force keeps active (R54). -/
def activeCircuits (s : State) : List Nat := (ofType 4 s.plan.active).map circCircuit
def circuitActive (s : State) (c : Nat) : Bool := (circuitRec s.plan.active c).isSome
/-- The circuit's mode under the plan in force: 0 off, 1 shared, 2 shared with Class A, 3 feed (R389). -/
def circuitMode (s : State) (c : Nat) : Nat :=
  match circuitRec s.plan.active c with
  | none => 0
  | some w => if circMode w = 2 then 3 else if circClassA w then 2 else 1
def isFeed (s : State) (c : Nat) : Bool := circuitMode s c == 3
/-- A circuit's span under the plan in force (R54). -/
def circuitSpan (s : State) (c : Nat) : Nat :=
  match (ofType 5 s.plan.active).find? fun w => spanCircuit w == c with
  | none => 0
  | some w => spanTicks w
/-- The physical cluster an active index runs on, by the plan's map and the substitutions (R61). -/
def physicalOf (img : List Word) (subst : List (Nat × Nat)) (a : Nat) : Option Nat :=
  match subst.find? fun p => p.1 == a with
  | some p => some p.2
  | none => ((ofType 1 img).find? fun w => mapActive w == a).map mapPhysical
/-- Physical clusters in use by the plan in force. -/
def usedClusters (s : State) : List Nat :=
  (ofType 1 s.plan.active).filterMap fun w => physicalOf s.plan.active s.plan.subst (mapActive w)
/-- A port of an active circuit (R13). -/
def portBusy (s : State) (p : Nat) : Bool := (activeCircuits s).any fun c => c / 24 == p
/-- Physical clusters on which the plan in force places a function (R16). -/
def placedClusters (s : State) : List Nat :=
  (ofType 2 s.plan.active).filterMap fun w => physicalOf s.plan.active s.plan.subst (placeActive w)

/-- Numbers in ascending order. -/
def insertNat (n : Nat) : List Nat → List Nat
  | [] => [n]
  | m :: ms => if n ≤ m then n :: m :: ms else m :: insertNat n ms
def sortNats (ns : List Nat) : List Nat := ns.foldr insertNat []

/-- A circuit, port, front-end port and cluster the variant has (R3). -/
def circuitExists (s : State) (c : Nat) : Bool := circuitInRange (isH s) c
def portExists (s : State) (p : Nat) : Bool := portInRange (isH s) p
def frontExists (s : State) (p : Nat) : Bool := frontInRange (isH s) p
def clusterExists (s : State) (c : Nat) : Bool := clusterInRange (isH s) c

end Sys2Proof.Machine
end

