-- ==== Sys2Proof/Machine/PortOps.lean ====
section
/-! DEFINITION. Operations on ports and lanes: bring-up (spec/03_serial_lanes.md R80 to R88), the control channel and its credits, and
the calibration of a front end (spec/04_tick_frames.md R101 to R110). -/
namespace Sys2Proof.Machine

/-- A peer port; the rest are front-end ports (R13). -/
def isPeer (p : Nat) : Bool := decide (32 ≤ p)
def frontPorts : List Nat := List.range 32
def peerPorts : List Nat := [32, 33, 34, 35]
/-- The lanes of port p (R13). -/
def lanesOf (p : Nat) : List Nat := [2 * p, 2 * p + 1]
def modLanes (p : Nat) (f : Lane → Lane) (s : State) : State :=
  { s with port := { s.port with lane := tabModAll {} (fun _ => f) (lanesOf p) s.port.lane } }
/-- The domain of port p's octet (R13). -/
def portDomain (p : Nat) : Nat := if isPeer p then 11 else 4 + p / 4

/-- The lanes' first and second word of the present phase, after the swap of R85. -/
def trainWords (s : State) (p : Nat) : Option Word × Option Word :=
  let a := (laneOf s (2 * p)).train
  let b := (laneOf s (2 * p + 1)).train
  if (portOf s p).swapped then (b, a) else (a, b)

/-- Fields of a training word (R82), and its CHECK. -/
def trPhase (w : Word) : Nat := fieldOf w 55 52
def trCap (w : Word) (g : Nat) : Bool := bitOf w (48 + g)
def trRole (w : Word) : Nat := fieldOf w 38 37
def trLane (w : Word) : Nat := fieldOf w 36 36
def trPort (w : Word) : Nat := fieldOf w 35 30
def trTag (w : Word) : Nat := fieldOf w 29 14
def trSpref (w : Word) : Bool := bitOf w 13
def trReady (w : Word) : Bool := bitOf w 11
def trCount (w : Word) : Nat := fieldOf w 10 8
def trTarget (w : Word) : Nat := fieldOf w 48 47
def trRequest (w : Word) : Nat := fieldOf w 46 43
def trPreset (w : Word) : Nat := fieldOf w 42 39
def trainCheckOk (w : Word) : Bool := crc8 (natBits 48 (fieldOf w 55 8)) == fieldOf w 7 0

/-- Phase codes (R82). -/
def phaseCode : Phase → Nat
  | .acquire => 1
  | .exchange => 2
  | .tune => 3
  | .align => 4
  | .step => 5
  | .done => 6

/-- The highest generation the port may step to (R83, R84). -/
def genLimit (p : Port) : Nat := if p.capped then min p.genMax p.capGen else p.genMax

/-- A control message queued for a port (R101, R105): header and 7 payload words a cell. -/
def messageCells (mtype seq : Nat) (ws : List Word) : List (List Word) :=
  let n := max 1 ((ws.length + 6) / 7)
  (List.range n).map fun i =>
    (fieldAt 63 56 mtype ||| fieldAt 55 48 i ||| fieldAt 47 40 n ||| fieldAt 39 24 seq)
      :: ((ws.drop (7 * i)).take 7 ++ List.replicate 7 0).take 7

/-- A message sent; it awaits its answer (R106). -/
def sendMessage (p mtype : Nat) (ws : List Word) (s : State) : State :=
  modPort p (fun x =>
    let cs := messageCells mtype x.msgSeq ws
    { x with cells := x.cells ++ cs, msgSeq := (x.msgSeq + 1) % 65536
             messages := x.messages ++ [{ mtype := mtype, seq := x.msgSeq, cells := cs, sentAt := s.clk.now }] }) s

/-- A message answered. -/
def answered (p mtype : Nat) (s : State) : State :=
  modPort p (fun x => { x with messages := x.messages.filter fun g => g.mtype != mtype }) s

/-- SPREF_DELAY_NOM in 1/16 ns (R109): AUTO takes the cable part of P, for which no rule gives a formula. -/
def sprefNom (x : Port) : Int := if x.spref < 0 then Config.derived 109 [x.path] else x.spref

/-- ZC_MASK of a port: the channels of its circuits in REF_LIST (R105, R261). -/
def zcMask (s : State) (p : Nat) : Nat :=
  (s.sf.refList.filter fun c => c / 24 == p).foldl (fun m c => m ||| 2 ^ (c % 24)) 0

/-- PORT_CONFIG sent (R105, R109); its EFFECTIVE_TAG is the firmware's choice. -/
def sendPortConfig (p : Nat) (s : State) : State :=
  let x := portOf s p
  sendMessage p 0x01
    [fieldAt 63 48 s.port.rxLead ||| fieldAt 47 32 s.port.txLag ||| fieldAt 31 16 (twosOf 16 (x.launch + x.path - sprefNom x)),
     fieldAt 63 40 (zcMask s p), BitVec.ofInt 64 (Config.derived 105 [s.clk.tick])] (modPort p (fun x => { x with configOk := false }) s)

/-- CHAN_CONFIG (R105): the channels whose couplers the plan in force uses, and those that sense the mains. No rule says when it goes out: the model sends
it with the PORT_CONFIG of MEASURE (DESIGN CHOICE). -/
def sendChanConfig (p : Nat) (s : State) : State :=
  let used := ((List.range 24).filter fun ch => circuitActive s (24 * p + ch)).foldl (fun m ch => m + 2 ^ ch) 0
  sendMessage p 0x03 [fieldAt 63 40 used ||| fieldAt 39 16 (zcMask s p)] s

/-- MEASURE begins (R110). -/
def beginMeasure (p : Nat) (s : State) : State :=
  modPort p (fun x => { x with cal := .measure, measured := false, pathSum := 0, dRefSum := 0, pathCount := 0 }) s

/-- The next queued calibration starts, one port at a time (R110): CAL_REQUEST for delays and gain of every channel. -/
def calNext (s : State) : State :=
  if frontPorts.any fun p => (portOf s p).calRun then s
  else match frontPorts.find? fun p => (portOf s p).calDue && (portOf s p).state == .active with
    | none => s
    | some p =>
      sendMessage p 0x02 [fieldAt 63 40 0xFFFFFF ||| fieldAt 39 32 2]
        (modPort p (fun x => { x with calDue := false, calRun := true }) s)

/-- Ports have left what they did, from `s` to `t`: where the port of the calibration under way is among them, the next one has its turn (R110). -/
def passTurn (s t : State) : State :=
  if (frontPorts.any fun p => (portOf s p).calRun) && !(frontPorts.any fun p => (portOf t p).calRun) then calNext t else t

/-- What EXCHANGE finds (R83, R85, R68). -/
inductive Exchange where
  | consistent | swapped | miswired | clockRule | sameTag | wait
deriving DecidableEq, Repr

/-- EXCHANGE compares the two lanes' words: `spread` while SPREAD is on (R68, R83, R85). -/
def exchangeCheck (p : Nat) (spread : Bool) (tag : Nat) (a b : Word) : Exchange :=
  if trTag a ≠ trTag b then .miswired
  else if isPeer p = false ∧ (trPort a ≠ p ∨ trPort b ≠ p) then .miswired
  else if trLane a = 1 ∧ trLane b = 0 then .swapped
  else if trLane a ≠ 0 ∨ trLane b ≠ 1 then .wait
  else if isPeer p = true ∧ trTag a = tag then .sameTag
  else if trRole a ≠ (if isPeer p then 3 else 2) ∨ trRole b ≠ trRole a then .wait
  else if isPeer p = false ∧ spread = true ∧ (trSpref a && trSpref b) = false then .clockRule
  else .consistent

/-- The next generation that both ends accept, within the limit (R83); none after a fall or on a re-bring. -/
def nextGen (x : Port) (a : Word) : Option Nat :=
  if x.bring = .rebring ∨ x.fallen then none
  else ([1, 2, 3].filter fun g => decide (x.gen < g ∧ g ≤ genLimit x) && trCap a g).head?

/-- This end leads STEP: on a front-end port, and on a peer port with the lower TAG. -/
def leads (p : Nat) (x : Port) (a : Word) : Bool := !isPeer p || decide (x.tag < trTag a)

/-- The receiver of a lane has completed the present phase (R82, RX_READY). -/
def rxReady (s : State) (p l : Nat) : Bool :=
  let x := portOf s p
  match x.phase, trainWords s p with
  | .acquire, (some _, some _) => (lanesOf p).all fun l => (laneOf s l).blockLock
  | .exchange, (some a, some b) => exchangeCheck p (s.port.spread != 0) x.tag a b == .consistent
  | .tune, _ => (laneOf s l).ready
  | .align, _ => (laneOf s l).ready
  | .step, _ => true
  | .done, _ => true
  | _, _ => false

/-- A training word with its CHECK (R82). -/
def trainWithCheck (w : Word) : Word := w ||| fieldAt 7 0 (crc8 (natBits 48 (fieldOf w 55 8)))

/-- The training word that lane l of port p sends (R82): a port that probes sends ACQUIRE of G1 (R88). Outside STEP its COUNT is 0 (DESIGN CHOICE: R82 gives
it a meaning in STEP and TEST only), and LANE is the lane as numbered, the exchange of R85 being made at the receiver (DEDUCED). -/
def trainWordOf (s : State) (p l : Nat) : Word :=
  let x := portOf s p
  let y := laneOf s l
  let up := x.state == .bringup
  let g := max x.gen 1
  let a := (trainWords s p).1.getD 0
  trainWithCheck (fieldAt 55 52 (if up then phaseCode x.phase else 1)
    ||| fieldAt 51 49 (2 ^ genLimit x - 1)
    ||| fieldAt 48 47 (if up ∧ x.phase = .step ∧ leads p x a = true then (nextGen x a).getD g else g)
    ||| fieldAt 46 43 (if up ∧ x.phase = .tune then y.request.getD 15 else 15)
    ||| fieldAt 42 39 (y.presets.getD (g - 1) 0)
    ||| fieldAt 38 37 (if isPeer p then 3 else 1) ||| fieldAt 36 36 (l % 2) ||| fieldAt 35 30 p ||| fieldAt 29 14 x.tag
    ||| bitAt 12 (s.port.spread != 0) ||| bitAt 11 (up && rxReady s p l) ||| fieldAt 10 8 (if up ∧ x.phase = .step then x.count else 0))

/-- The payload of a TRAIN block (R73), and of a TICK_MARK. -/
def trainBlock (w : Word) : Word := fieldAt 63 56 0x5A ||| w
def markBlock (tag : Nat) : Word := fieldAt 63 56 0xA5 ||| fieldAt 55 32 (tag % 16777216)

/-- A lane's training word goes out when it has changed (R81). -/
def sendTrainLane (p : Nat) (s : State) (l : Nat) : State :=
  let w := trainWordOf s p l
  if (laneOf s l).sentWord = some w then s else emit (.train l (trainBlock w)) (modLane l (fun y => { y with sentWord := some w }) s)

/-- The training words of a port that sends them (R81, R83, R88). -/
def sendTrain (p : Nat) (s : State) : State :=
  let x := portOf s p
  if x.state = .bringup ∨ (x.state = .dormant ∧ x.probeOn = true) then (lanesOf p).foldl (sendTrainLane p) s else s

/-- Phase and lanes restart (R83). -/
def enterPhase (p : Nat) (ph : Phase) (s : State) : State :=
  modLanes p (fun l => { l with ready := false, eyes := [], request := none, waited := 0 }) (modPort p (fun x => { x with phase := ph, count := 7 }) s)

/-- A try starts: a new TAG, and ACQUIRE at a generation (R82, R84). -/
def startTry (p gen : Nat) (s : State) : State :=
  let d := drawFree s
  let t := modPort p (fun x => { x with gen := gen, phase := .acquire, swapped := false, tag := d.1.toNat % 65536 }) d.2
  sendTrain p (modLanes p (fun l => { l with blockLock := false, inverted := false, train := none, ready := false, sentWord := none }) t)

/-- What a port forgets when it leaves ACTIVE: its frames' runs, its control channel, and the measurement under way (R101, R110). -/
def portQuiet (x : Port) : Port :=
  { x with missRun := 0, goodRun := 0, degraded := false, landed := false, follows := false
           txCells := 0, rxCells := 0, freed := 0, held := 64, freedSeen := 0, part := 0, cresetDue := false, creset := false, ledgerDue := none
           cells := [], messages := [], configOk := false, gainLast := 23, cal := .identWait, calDue := false, calRun := false
           launches := [], pathSum := 0, dRefSum := 0, pathCount := 0, measured := false }

/-- A bring-up begins (R83, R87): at G1, or at the present generation for a re-bring. -/
def beginBring (k : Bring) (p : Nat) (s : State) : State :=
  let x := portOf s p
  let t := passTurn s <| afterPorts s <| modPort p (fun x => { portQuiet x with
    state := .bringup, bring := k, tries := 0, fallen := false, waiting := none, probing := false, probeOn := false, pattern := 0
    capped := x.capped && k != .retrain }) s
  startTry p (if k = .rebring ∧ x.gen ≠ 0 then x.gen else 1) t

/-- The ports of p's kind, and those of them that are in bring-up (R86). -/
def kindOf (p : Nat) : List Nat := if isPeer p then peerPorts else frontPorts
def bringing (s : State) (p : Nat) : List Nat := (kindOf p).filter fun q => q != p && (portOf s q).state == .bringup

/-- The waiting port of a kind that comes next (R86): ascending, but a retrain ahead of a bring-up that a probe started. -/
def nextWaiting (s : State) (ps : List Nat) : Option Nat :=
  match ps.filter fun p => (portOf s p).waiting.isSome with
  | [] => none
  | p :: r =>
    if (portOf s p).waiting = some .probe then
      match r.find? fun q => (portOf s q).waiting == some .retrain with
      | some q => some q
      | none => some p
    else some p

/-- A bring-up asked for (R86): until the first plan every port comes up in parallel; after it one port of each kind at a time, in ascending order, a
retrain taking the place of a bring-up that a probe started. A port that waits keeps the state it is in, and a waiting retrain stays one. -/
def requestBring (k : Bring) (p : Nat) (s : State) : State :=
  let k := if (portOf s p).waiting = some .retrain then .retrain else k
  if !s.plan.activated ∨ (portOf s p).state = .bringup then beginBring k p s
  else
    let t := modPort p (fun x => { x with waiting := some k }) s
    match bringing s p with
    | [] => if nextWaiting t (kindOf p) = some p then beginBring k p t else t
    | q :: _ =>
      if k = .retrain ∧ (portOf s q).bring = .probe then
        beginBring k p (modPort q (fun x => { x with state := .dormant, probing := true, gen := 0, waiting := some .probe }) t)
      else t

/-- The port enters CAL_WAIT (R110). -/
def calibrate (p : Nat) (s : State) : State :=
  calNext (modPort p (fun x => { x with cal := .calWait, calDue := true, calRun := false }) s)

/-- Bring-up reaches DONE (R78, R83, R84, R110): ACTIVE with the credits of R101 and a LAUNCH_OFFSET of at most 30 ns (R99; a free value); a fall raises
PORT_CAPPED; IDENT_REQUEST goes to a front end. -/
def bringupDone (p : Nat) (s : State) : State :=
  let fell := (portOf s p).fallen
  let d := drawFree s
  let t := afterPorts s <| modPort p (fun x => { portQuiet x with
    state := .active, capped := x.capped || fell, capGen := if fell then x.gen else x.capGen, fallen := false, tries := 0
    launchOffset := d.1.toNat % 481 }) d.2
  let t := if fell then raise 0x0001 p t else t
  if isPeer p then t else sendMessage p 0x04 [] t

/-- A port goes DORMANT after a failure and probes (R84, R85, R88). -/
def failDormant (p reason : Nat) (s : State) : State :=
  let t := passTurn s <| afterPorts s <| modPort p (fun x => { portQuiet x with
    state := .dormant, probing := true, probeOn := false, gen := 0, lastFail := reason, tries := 0, fallen := false }) s
  modLanes p (fun l => { l with blockLock := false, train := none, ready := false, bringupFail := sat32 l.bringupFail 1 }) t

/-- A try has failed (R84, R87): a re-bring goes on with a full bring-up at G1, the first two tries repeat, the third falls a generation
or leaves the port DORMANT. BRINGUP_FAIL counts one on both lanes for each failed try (DESIGN CHOICE: R91 names the counter and does not say what it
counts). -/
def failTry (p reason : Nat) (s : State) : State :=
  let x := portOf s p
  let t := modLanes p (fun l => { l with bringupFail := sat32 l.bringupFail 1 }) (modPort p (fun x => { x with lastFail := reason }) s)
  if x.bring = .rebring then beginBring .full p t
  else if x.tries < 2 then startTry p x.gen (modPort p (fun x => { x with tries := x.tries + 1 }) t)
  else if x.gen ≤ 1 then failDormant p reason s
  else startTry p (x.gen - 1) (modPort p (fun x => { x with tries := 0, fallen := true }) t)

/-- The partner's word shows that its receiver has completed a phase, or that it has gone beyond it (R82). -/
def partnerPast (ph : Phase) (w : Word) : Bool :=
  (trPhase w == phaseCode ph && trReady w) || decide (phaseCode ph < trPhase w ∧ trPhase w ≤ 6)

/-- TUNE is skipped on a re-bring, after a fall, and where both lanes are pinned at the generation (R80, R84, R87). -/
def skipsTune (s : State) (p : Nat) : Bool :=
  let x := portOf s p
  x.bring == .rebring || x.fallen || (lanesOf p).all fun l => (laneOf s l).pinned.getD (x.gen - 1) false

/-- A lane's stored presets as keep-store word 268 + n (R440). -/
def laneWord (l : Lane) : Word :=
  fieldAt 3 0 (l.presets.getD 0 1) ||| fieldAt 7 4 (l.presets.getD 1 3) ||| fieldAt 11 8 (l.presets.getD 2 7)
  ||| bitAt 16 (l.pinned.getD 0 false) ||| bitAt 17 (l.pinned.getD 1 false) ||| bitAt 18 (l.pinned.getD 2 false)

/-- The chosen presets of TUNE go to the keep store (R80, R440). -/
def storePresets (p : Nat) (s : State) : State :=
  (lanesOf p).foldl (fun t l => mpWrite (268 + l) (laneWord (laneOf t l)) t) s

/-- The best of the presets judged (R80): the largest eye, the first of equals (DESIGN CHOICE: no rule gives the eye monitor's measure). -/
def bestEye (es : List (Nat × Nat)) : Nat := (es.foldl (fun b e => if b.2 < e.2 then e else b) (es.headD (0, 0))).1

/-- A training word of TUNE (R80) at a lane whose eye monitor reads `eye`: the partner's request sets the own preset unless it is pinned; the own
search judges the partner's present preset, then requests the others in ascending order and last the best one, 12 requests at most (DESIGN CHOICE: the order).
A request not applied in 2 words is passed over with no eye; a partner that has left TUNE ends the search. -/
def tuneLane (gen : Nat) (w : Word) (eye : Nat) (l : Lane) : Lane :=
  let l := if trPhase w = 3 ∧ trRequest w < 12 ∧ l.pinned.getD (gen - 1) false = false then { l with presets := l.presets.set (gen - 1) (trRequest w) } else l
  let now := trPreset w
  if l.ready then l
  else if 3 < trPhase w then { l with ready := true }
  else if l.request.any (· != now) ∧ l.waited < 1 then { l with waited := l.waited + 1 }
  else
    let seen := if l.eyes.any (·.1 == now) then l.eyes else l.eyes ++ [(now, eye)]
    let eyes := match l.request with
      | some r => if seen.any (·.1 == r) then seen else seen ++ [(r, 0)]
      | none => seen
    match (List.range 12).find? fun r => !eyes.any (·.1 == r) with
    | some r => { l with eyes := eyes, request := some r, waited := 0 }
    | none =>
      let best := bestEye eyes
      if now = best ∨ l.request = some best then { l with eyes := eyes, ready := true } else { l with eyes := eyes, request := some best, waited := 0 }

/-- The leader of STEP counts down by a frame with each word it receives on the first lane, and switches after its COUNT = 0 (R83; DESIGN CHOICE: the
partner's words pace the frames). -/
def stepCount (p lane : Nat) (s : State) : State :=
  let x := portOf s p
  match x.state, x.phase, trainWords s p with
  | .bringup, .step, (some a, some _) =>
    if !leads p x a || (lane % 2 == 1) != x.swapped then s
    else if x.count = 0 then startTry p ((nextGen x a).getD x.gen) (modPort p (fun x => { x with tries := 0 }) s)
    else modPort p (fun x => { x with count := x.count - 1 }) s
  | _, _, _ => s

/-- The exit conditions of the phases (R83), taken in order after each event. -/
def exitPhase (p : Nat) (s : State) : State :=
  let x := portOf s p
  match x.state, trainWords s p with
  | .bringup, (some a, some b) =>
    if !(lanesOf p).all fun l => (laneOf s l).blockLock then s
    else
      let ready := (lanesOf p).all fun l => (laneOf s l).ready
      match x.phase with
      | .acquire => enterPhase p .exchange s
      | .exchange =>
        match exchangeCheck p (s.port.spread != 0) x.tag a b with
        | .miswired => failDormant p 2 s
        | .clockRule => failDormant p 1 s
        | .sameTag => startTry p x.gen s
        | .swapped => modPort p (fun x => { x with swapped := !x.swapped }) s
        | .wait => s
        | .consistent =>
          if partnerPast .exchange a && partnerPast .exchange b then enterPhase p (if skipsTune s p then .align else .tune) s else s
      | .tune => if ready && partnerPast .tune a && partnerPast .tune b then enterPhase p .align (storePresets p s) else s
      | .align =>
        if ready && partnerPast .align a && partnerPast .align b then
          enterPhase p (if (nextGen x a).isSome then .step else .done) s
        else s
      | .step =>
        let last := fun w => trPhase w == 5 && trCount w == 0
        if !leads p x a && (last a || last b) then
          let g := trTarget (if last a then a else b)
          startTry p (if g = 0 then (nextGen x a).getD x.gen else g) (modPort p (fun x => { x with tries := 0 }) s)
        else s
      | .done => if trPhase a == 6 && trPhase b == 6 then bringupDone p s else s
  | _, _ => s

/-- A port in bring-up goes on after an event, and sends what has changed (R81, R83). -/
def advancePhase (p : Nat) (s : State) : State := sendTrain p (exitPhase p s)

/-- A port that goes OFF: everything but its settings and calibration record returns to its start (R87, R110). -/
def portOff (x : Port) : Port :=
  { genMax := x.genMax, spref := x.spref, txFs := x.txFs, rxFs := x.rxFs, feSerial := x.feSerial, calEpoch := x.calEpoch, calWords := x.calWords }

/-- A lane whose octet loses power: its stored presets stay (R80). -/
def laneOff (l : Lane) : Lane := { presets := l.presets, pinned := l.pinned }

/-- Both lanes of a port deliver (R74). -/
def portLocked (s : State) (p : Nat) : Bool := (lanesOf p).all fun l => (laneOf s l).blockLock

/-- A circuit's channel is carried at its port's present generation (R14, R71, R116). -/
def channelCarried (s : State) (c : Nat) : Bool :=
  let x := portOf s (c / 24)
  !((x.state == .active || x.state == .standby) && (x.gen == 1 || (x.gen == 2 && decide (12 ≤ c % 24))))

end Sys2Proof.Machine
end

