-- ==== Sys2Proof/Machine/DomainOps.lean ====
section
/-! DEFINITION. What each power domain's contents are and how they are lost and initialised (spec/19_power_ageing.md R445 to R449,
spec/14 R351, R366, spec/22 R493). -/
namespace Sys2Proof.Machine

/-- A circuit whose receive functions lose their local state: the accepted settings outlive it, in force from then on, and so does the notch bank's state, which
is never reset (R60, R145, R243, R445). -/
def circuitRestart (x : Circuit) : Circuit :=
  { set := x.want, want := x.want, notches := x.notches, notchesDue := x.notchesDue, filterT := x.filterT, filterA := x.filterA,
    filterD := x.filterD, filtersDue := x.filtersDue, reduced := x.reduced, counters := x.counters, bank := x.bank }

/-- The pool after a loss of D28 (R227, R229): retired decoders stay retired, as keep-store word 267 has them; the lowest 32 others are ACTIVE
and the rest SPARE. -/
def ldpcRestart (retired : Word) (_l : Ldpc) : Ldpc :=
  let live := (List.range 34).filter fun d => !bitOf retired d
  let put := fun (t : Tab Decoder) (d : Nat) =>
    tabPut {} t d { state := if bitOf retired d then .retired else if (live.take 32).contains d then .active else .spare }
  { decoder := (List.range 34).foldl put [] }

/-- The records in the granary are lost with D28 (R351, R420); the settings of the keep store stay. -/
def linksRestart (l : Links) : Links :=
  let r := l.rangeDue.getD (l.rangePeriod, l.rangeReject)
  { rangePeriod := r.1, rangeReject := r.2 }

/-- Records through a reset with D28 powered (R290, R420): what the granary holds stays, what the near store held is gone. -/
def linksHeld (l : Links) : Links :=
  let r := l.rangeDue.getD (l.rangePeriod, l.rangeReject)
  { l with
    joins := [], bcastHeld := [], rangePeriod := r.1, rangeReject := r.2, rangeDue := none
    records := l.records.map fun r => { r with held := [], sent := [], waiting := [], sleepDue := none, newAddr := none, ackDue := false
                                               range := { r.range with t1 := none } } }

/-- The low 25 bits of the CRC-32C of the record table (R441): over each record's identity, circuit, address and epoch, the part of a record
that a restart must find unchanged. The table's layout in the granary is the firmware's, so the value is free. -/
def tableCrc (s : State) : Nat :=
  (Config.derived 441 (s.link.records.flatMap fun r =>
    [(r.epId : Int), (r.circuit : Int), (match r.addr with
      | some a => (a : Int)
      | none => -1), (r.epoch : Int)])).natAbs % 33554432

/-- Where the next word of the endpoint summary ring goes: one word each 2^10 superframes, past WORN ones (R439 to R441). -/
def summaryPlace (s : State) : Nat :=
  let i := s.sf.number / 1024 % 256
  1603 + (((List.range 256).map fun k => (i + k) % 256).find? fun k => !worn s (1603 + k)).getD i

/-- The word of the endpoint summary ring for the present table (R441). -/
def summaryWord (s : State) : Word :=
  fieldAt 63 40 (s.sf.number / 1024) ||| fieldAt 39 25 s.link.records.length ||| fieldAt 24 0 (tableCrc s)

/-- The newest word of the ring (R440, R441): the one with the largest superframe number. -/
def newestSummary (s : State) : Word :=
  (List.range 256).foldl (fun (w : Word) i => let v := keepQueued s (1603 + i); if fieldOf w 63 40 < fieldOf v 63 40 then v else w) (keepQueued s 1603)

/-- Records after a reset with D28 powered (R441): kept only where the newest summary matches the table. -/
def recordsAfterReset (s : State) : Links :=
  let w := newestSummary s
  if fieldOf w 39 25 = s.link.records.length ∧ fieldOf w 24 0 = tableCrc s then linksHeld s.link
  else linksRestart s.link

/-- The circuits after a reset: every setting of a circuit returns to its default but the link settings of the keep store (R145, R316); the
region profile and the device's own settings are the keep store's (R250, R505). -/
def circuitKept (x : Circuit) : Circuit :=
  let w : Settings := { retain := x.want.retain, liveness := x.want.liveness, servicePeriod := x.want.servicePeriod, joinPeriod := x.want.joinPeriod }
  { set := w, want := w }

/-- Domains ABSENT on the variant (R3). -/
def domAbsent (h : Bool) (d : Nat) : Bool := h && (decide (8 ≤ d ∧ d ≤ 10) || decide (20 ≤ d ∧ d ≤ 27))

/-- A ring as the loss of the host link leaves it (R366): DISABLED, configuration cleared, accepted frames kept. -/
def ringCleared (r : Ring) : Ring := { held := r.held, noBuf := r.noBuf }

/-- Every circuit reset. -/
def circuitsReset (c : Circuits) : Circuits :=
  { circuit := tabMap {} circuitKept c.circuit, selfGuard := c.selfGuard, profile := c.profile, locked := c.locked }

/-- The keep-store word of a port's settings (R440). -/
def portSettingWord (p : Nat) : Nat := 2627 + p

/-- A port's calibration record (R110, R439, R440): FE_SERIAL, CAL_EPOCH and the channel words; none where a word is absent or the commit word does
not match. -/
def calLoaded (s : State) (p : Nat) : Option (Word × Nat × List Word) :=
  let w := fun (i : Nat) => keepWord s (340 + 27 * p + i)
  let body := (List.range 26).map w
  if p < 32 ∧ ((List.range 27).all fun i => recorded s (340 + 27 * p + i)) = true ∧ w 26 = commitWord body then
    some (w 0, fieldOf (w 1) 15 0, body.drop 2)
  else none

/-- What the keep store says of a port and of a lane (R80, R109, R110, R440, R505). -/
def portLoaded (s : State) (p : Nat) : Port :=
  let v := (heldSetting s (portSettingWord p) 0x0117).getD [3, -1, 120, 480]
  let c := (calLoaded s p).getD (0, 0, [])
  { genMax := (v.getD 0 3).toNat, spref := v.getD 1 (-1), txFs := (v.getD 2 120).toNat, rxFs := (v.getD 3 480).toNat
    feSerial := c.1, calEpoch := c.2.1, calWords := c.2.2 }
def laneLoaded (s : State) (l : Nat) : Lane :=
  let w := keepWord s (268 + l)
  if recorded s (268 + l) then
    { presets := [fieldOf w 3 0, fieldOf w 7 4, fieldOf w 11 8], pinned := [bitOf w 16, bitOf w 17, bitOf w 18] }
  else {}

/-- The link settings of the circuits whose words have been written (R316, R440). -/
def circuitsLoaded (s : State) : Tab Circuit :=
  (s.keep.cells.filter fun e => decide (1859 ≤ e.1 ∧ e.1 < 2627) && recorded s e.1).foldl (fun t e =>
    let v := e.2.value
    let w : Settings := { retain := fieldOf v 63 48, liveness := fieldOf v 41 32 + 1, servicePeriod := fieldOf v 29 24 + 1, joinPeriod := fieldOf v 23 16 + 1 }
    tabPut {} t (e.1 - 1859) { set := w, want := w }) []

/-- Numbers that the bits of words from w on name. -/
def bitNumbers (s : State) (w n : Nat) : List Nat :=
  (List.range n).filter fun i => recorded s (w + i / 64) && bitOf (keepWord s (w + i / 64)) (i % 64)

/-- Pairs of a table written out flat. -/
def pairsOf : List Int → List (Nat × Nat)
  | a :: b :: r => (a.toNat, b.toNat) :: pairsOf r
  | _ => []

/-- The time settings as their word says them (R344). -/
def timeLoaded (v : List Int) : TimeSettings :=
  let n := fun (i : Nat) => (v.getD i 0).toNat
  { priority := [n 0, n 1, n 2, n 3], ppsDelay0 := n 4, ppsDelay1 := n 5, srcBound0 := n 6, srcBound1 := n 7, srcTrace0 := n 8 == 1
    srcTrace1 := n 9 == 1, maxSrcBound := n 10, hostMaxBound := n 11, jumpLimit := n 12, loopTc := n 13, traceLimit := n 14, ppsWidth := n 15
    outComp0 := n 16, outComp1 := n 17, squelch := n 18 == 1 }

/-- What the keep store holds is loaded at a power-up (R12, R435, R440, R505): the settings of every chapter, the stored presets and calibrations, the
retired clusters and decoders, the ageing model, each at its default where its record is absent. -/
def loadSettings (t : State) : State :=
  let held := fun (op : Nat) => heldSetting t (settingWordOf op) op
  let at_ := fun (op i : Nat) (d : Int) => ((held op).getD []).getD i d
  let range := (held 0x0508).getD [0]
  let pairs := pairsOf (range.drop 1)
  { t with
    host := { t.host with hostMode := at_ 0x0105 0 0 == 1, ideRequired := at_ 0x0105 1 0 == 1, captureGib := (at_ 0x0133 0 4).toNat, historyGib := (at_ 0x0133 1 1).toNat }
    port := { spread := (at_ 0x0114 0 0).toNat, rxLead := (at_ 0x0117 0 1600).toNat, txLag := (at_ 0x0117 1 1600).toNat
              port := (List.range 36).foldl (fun m p => tabPut {} m p (portLoaded t p)) []
              lane := (List.range 72).foldl (fun m l => tabPut {} m l (laneLoaded t l)) [] }
    circ := { circuit := circuitsLoaded t, selfGuard := (at_ 0x0230 0 2).toNat, profile := (at_ 0x0120 0 0).toNat, locked := at_ 0x0120 1 0 == 1 }
    sf := { t.sf with number := ((keepQueued t 1600).toNat + 1048576) % 1099511627776, mainsNom := (at_ 0x0122 0 50).toNat, anchor := at_ 0x0122 1 0
                      refList := (((held 0x0122).getD []).drop 2).map Int.toNat }
    tku := { t.tku with settings := ((held 0x0502).map timeLoaded).getD {}, peerRole := ((held 0x050A).map fun v => v.map Int.toNat).getD [0, 0, 0, 0]
                        model := readModel t }
    link := { t.link with rangePeriod := pairs.take (range.headD 0).toNat, rangeReject := pairs.drop (range.headD 0).toNat }
    sec := { t.sec with epochCount := max 1 (keepQueued t 1602).toNat }
    plan := { t.plan with retired := bitNumbers t 262 272 }
    ldpc := ldpcRestart (keepQueued t 267) t.ldpc
    ev := { t.ev with mark := (keepQueued t 1601).toNat } }

/-- The host link is lost (R366, R369): every ring is DISABLED and cleared, nothing of the link-up's choices stays. -/
def linkLost (s : State) : State :=
  { s with
    link := unbindFrames s.link
    air := unbindAir s.air
    host := { s.host with
      up := false, ideActive := false, ideNeeded := false, ideFailed := false, hdmCommitted := false, hdmBase := 0, pcieOnly := false
      tx := tabMap {} ringCleared s.host.tx, rx := tabMap {} ringCleared s.host.rx, xdb := [] } }

/-- Ports and lanes of octet k: front-end ports 4k to 4k+3, and the peer ports with octet 7 (R13). -/
def octetPorts (k : Nat) : List Nat := [4 * k, 4 * k + 1, 4 * k + 2, 4 * k + 3] ++ (if k = 7 then [32, 33, 34, 35] else [])
def octetLanes (k : Nat) : List Nat := (octetPorts k).flatMap fun p => [2 * p, 2 * p + 1]

/-- Octet k's ports go OFF (R449). -/
def octetLost (k : Nat) (s : State) : State :=
  passTurn s <| afterPorts s { s with port := { s.port with
      port := tabModAll {} (fun _ p => portOff p) (octetPorts k) s.port.port
      lane := tabModAll {} (fun _ l => laneOff l) (octetLanes k) s.port.lane } }

/-- Cluster group g loses its local memories: the receive state of its circuits restarts (R60, R445). -/
def groupLost (g : Nat) (s : State) : State :=
  { s with
    circ := { s.circ with circuit := tabModAll {} (fun _ c => circuitRestart c) ((List.range 48).map (48 * g + ·)) s.circ.circuit }
    plan := { s.plan with overruns := s.plan.overruns.filter (fun p => p.1 / 17 != g) } }

/-- D28 loses its contents: near store, granary, plan slots, rings, ledgers, decoders, superframe counting and the records held in the
granary (R351, R391, R421, R445, R458, R508). -/
def d28Lost (s : State) : State :=
  { s with
    mem := { captureMib := s.mem.captureMib, historyMib := s.mem.historyMib, generation := s.mem.generation, busyDue := s.mem.busyDue }
    plan := { retired := s.plan.retired, overruns := s.plan.overruns, activated := s.plan.activated }
    feed := {}
    irq := { s.irq with log := [], overflow := 0 }
    host := { s.host with tx := [], rx := [], xdb := [], steer := [] }
    pair := { s.pair with ledger := 0, checkSf := 0, checks := 0, fails := 0, skipped := 0, hfAccepted := 0, hfDelivered := 0,
                          hfReturned := 0, hfHeld := 0, hfFails := 0, latched := [0, 0, 0, 0], takeovers := 0, splits := 0, cellLost := 0 }
    ev := { s.ev with named := false, base := 0, count := 0, prod := 0, cons := 0, due := [] }
    sf := { s.sf with running := false, handed := none, grants := [], grantsNext := [], lastList := [], reuse := 0, closed := false,
                      state := .free, ref := none, refs := [], lenNext := none }
    ldpc := ldpcRestart (keepQueued s 267) s.ldpc
    link := linksRestart s.link
    air := {}
    sec := { epochCount := s.sec.epochCount }
    age := { s.age with testing := none }
    mb := { s.mb with background := [], results := [] } }

/-- The contents of domain d are lost (R446, R449). -/
def loseDomain (d : Nat) (s : State) : State :=
  if d = 1 ∨ d = 2 then
    let k := d - 1
    let t := setCore k { takeovers := (coreOf s k).takeovers, lastCause := (coreOf s k).lastCause } (aeadCoreLost d s)
    if t.mp.runner = k then { t with mp := { t.mp with serving := false } } else t
  else if d = 3 then { linkLost s with irq := { s.irq with msix := [] } }
  else if 4 ≤ d ∧ d ≤ 11 then octetLost (d - 4) s
  else if 12 ≤ d ∧ d ≤ 27 then groupLost (d - 12) s
  else if d = 28 then d28Lost s
  else if d = 29 then { s with chk := {}, aead := { markNext := s.aead.markNext } }
  else s

/-- The region table that firmware writes at every reset (R352): header, GENERATION and the seven default regions. -/
def regionRows (capMib histMib : Nat) : List (Nat × Nat × Nat × Nat) :=
  let sizes : List (Nat × Nat × Nat) := [(2, 1, 0), (64, 2, 0), (1024, 3, 0), (64, 4, 0), (capMib, 5, 0), (histMib, 6, 0),
    (24576 - 2 - 64 - 1024 - 64 - capMib - histMib, 7, 1)]
  (sizes.foldl (fun (acc : Nat × List (Nat × Nat × Nat × Nat)) r => (acc.1 + r.1, acc.2 ++ [(acc.1, r.1, r.2.1, r.2.2)])) (0, [])).2

/-- The table's words (R352). -/
def regionWords (gen capMib histMib : Nat) : List Word :=
  [fieldAt 63 32 0x47524E59 ||| fieldAt 31 16 1 ||| fieldAt 15 8 7, BitVec.ofNat 64 gen]
  ++ (regionRows capMib histMib).flatMap fun r =>
    [BitVec.ofNat 64 (r.1 * 1048576), fieldAt 63 32 r.2.1 ||| fieldAt 31 24 r.2.2.1 ||| fieldAt 23 16 r.2.2.2]

/-- Base in bytes and size in MiB of the region of a kind (R352). -/
def regionBase (s : State) (kind : Nat) : Nat :=
  match (regionRows s.mem.captureMib s.mem.historyMib).find? fun r => r.2.2.1 == kind with
  | some r => r.1 * 1048576
  | none => 0
def regionMib (s : State) (kind : Nat) : Nat :=
  match (regionRows s.mem.captureMib s.mem.historyMib).find? fun r => r.2.2.1 == kind with
  | some r => r.2.1
  | none => 0

/-- Firmware rewrites the region table at a reset, with the sizes stored for it (R351, R352). -/
def rewriteRegions (s : State) : State :=
  let gen := s.mem.generation + 1
  let m := { s.mem with generation := gen, captureMib := s.host.captureGib * 1024, historyMib := s.host.historyGib * 1024 }
  let ws := regionWords gen m.captureMib m.historyMib
  backInv 0 (8 * ws.length) { s with mem := { m with granary := memWriteWords m.granary 0 ws } }

/-- The superframe mark and number at D28's power-up: the stored mark plus 2^20, written as the new mark (R264, R505). -/
def resumeNumber (s : State) : State :=
  let n := (keepQueued s 1600).toNat % 1099511627776 + 1048576
  mpWrite 1600 (BitVec.ofNat 64 n) { s with sf := { s.sf with number := n % 1099511627776, mark := n } }

/-- A domain's contents are initialised at its power-up (R447, R448). -/
def initDomain (d : Nat) (s : State) : State :=
  if d = 29 then powerUpD29 s
  else if 4 ≤ d ∧ d ≤ 11 then
    (octetPorts (d - 4)).foldl (fun t p => if portExists s p then requestBring .full p t else t) s
  else if d = 28 then
    let t := rewriteRegions (resumeNumber s)
    if t.mem.busyDue then { t with mem := { t.mem with err := true, errCode := 4, busyDue := false } } else t
  else s

end Sys2Proof.Machine
end

