-- ==== Sys2Proof/Machine/Power.lean ====
section
/-! DEFINITION. Resets, rails, the domain sequencer and the domains' transitions (spec/19_power_ageing.md R446 to R450, spec/22_electrical_package.md
R488 to R496, spec/13 R319). -/
namespace Sys2Proof.Machine

/-- Domains a rail feeds apart from VDD_CORE, VDD_SRAM and VDD_AON (R488, R493). -/
def railFeeds : Rail → List Nat
  | .vddLane => (List.range 9).map (3 + ·)
  | .vddLaneHv => (List.range 9).map (3 + ·)
  | .vddHbm => [28]
  | .vddqHbm => [28]
  | _ => []

/-- Every rail domain d draws from is in range (R488). -/
def railsFor (r : Rails) (d : Nat) : Bool :=
  if 3 ≤ d ∧ d ≤ 11 then r.vddLane && r.vddLaneHv
  else if d = 28 then r.vddCore && r.vddSram && r.vddHbm && r.vddqHbm
  else if d = 29 then r.vddCore
  else r.vddCore && r.vddSram

/-- The rails with one out of range. -/
def railOut (r : Rail) (x : Rails) : Rails :=
  match r with
  | .vddCore => { x with vddCore := false }
  | .vddSram => { x with vddSram := false }
  | .vddAon => { x with vddAon := false }
  | .vddLane => { x with vddLane := false }
  | .vddLaneHv => { x with vddLaneHv := false }
  | .vddHbm => { x with vddHbm := false }
  | .vddqHbm => { x with vddqHbm := false }
  | .vddIo => { x with vddIo := false }
  | .vppKeep => { x with vppKeep := false }

/-- Domains D1 to D29. -/
def switched : List Nat := (List.range 29).map (1 + ·)

/-- The order of the start-up sequence (R447). -/
def seqOrder : List Nat := [29, 3, 28, 1, 2] ++ (List.range 24).map (4 + ·)

/-- The domain is powered in some way (R496). -/
def domPowered (x : DomState) : Bool := x == .enabled || x == .poweringUp || x == .draining || x == .poweringDown

/-- A domain begins to power up: its switch closes, or it is initialised in place (R447, R448). -/
def beginUp (d : Nat) (s : State) : State :=
  let t := setDom d { domOf s d with state := .poweringUp, pendUp := false, since := s.clk.now } s
  { t with pwr := { t.pwr with switching := some d } }

/-- A domain whose drain has ended begins to power down (R448, R449). -/
def beginDown (d : Nat) (s : State) : State :=
  let t := setDom d { domOf s d with state := .poweringDown, drained := false, since := s.clk.now } s
  { t with pwr := { t.pwr with switching := some d } }

/-- The sequence goes on with its next domain (R447). -/
def seqNext (s : State) : State :=
  match s.pwr.seqRest with
  | [] => s
  | d :: r => if s.pwr.seqRunning then beginUp d { s with pwr := { s.pwr with seqRest := r } } else s

/-- The sequencer is free (R448). -/
def seqFree (s : State) : Bool := !s.pwr.seqRunning && s.pwr.switching.isNone && s.pwr.waiting.isEmpty

/-- A request joins the sequencer's queue; an MP power-cycle goes ahead (R448). -/
def enqueue (d : Nat) (up ahead : Bool) (s : State) : State :=
  { s with pwr := { s.pwr with waiting := if ahead then (d, up) :: s.pwr.waiting else s.pwr.waiting ++ [(d, up)] } }

/-- The end of a switching: the sequencer is free, and a running sequence goes on (R447, R448). -/
def switchEnd (s : State) : State :=
  seqNext { s with pwr := { s.pwr with switching := none, switchDoneAt := s.clk.now } }

/-- An accepted Down on an ENABLED domain: DRAINING (R449, R450). -/
def beginDrain (d : Nat) (s : State) : State := setDom d { domOf s d with state := .draining, pendDown := false, since := s.clk.now } s

/-- The transition of Dd ends in a state, with DONE_d (R446). -/
def domEnds (d : Nat) (st : DomState) (s : State) : State :=
  domDone d (setDom d { domOf s d with state := st, inPlace := false, drained := false } s)

/-- POWER_GOOD (R448): the switching domain is initialised and ENABLED; a Down accepted meanwhile drains it at once (R450). -/
def execPowerGood (d : Nat) (s : State) : Result :=
  onObject (decide (1 ≤ d ∧ d < 30)) s
    (if s.pwr.switching = some d ∧ (domOf s d).state = .poweringUp ∧ railsFor s.pins.rails d = true then
       let t := domEnds d .enabled (initDomain d s)
       let t := setDom d { domOf t d with cycling := false, since := s.clk.now } t
       let t := if (domOf t d).pendDown then beginDrain d t else t
       switchEnd t
     else s)

/-- The switch time of a domain in ticks (R447). -/
def switchTicks (d : Nat) : Nat := if d = 29 ∨ d = 3 ∨ d = 28 then 500 else if d = 1 ∨ d = 2 then 300 else 200

/-- POWER_GOOD_TIMEOUT (R448), due when twice the switch time has passed since the switch closed: it opens and the domain is FAULT. -/
def execPowerGoodTimeout (d : Nat) (s : State) : Result :=
  onObject (decide (1 ≤ d ∧ d < 30)) s
    (if s.pwr.switching = some d ∧ (domOf s d).state = .poweringUp ∧ (domOf s d).inPlace = false ∧ (domOf s d).since + 2 * switchTicks d ≤ s.clk.now then
       let t := domEnds d .fault (loseDomain d s)
       switchEnd (setDom d { domOf t d with pendDown := false, cycling := false } t)
     else s)

/-- A drained domain that an Up called back is ENABLED again without switching off (R450); the ports of an octet come up at G1 (R87). -/
def calledBack (d : Nat) (s : State) : State :=
  let t := { s with pwr := { s.pwr with waiting := s.pwr.waiting.filter fun p => p.1 != d } }
  let t := domEnds d .enabled (setDom d { domOf t d with pendUp := false } t)
  if 4 ≤ d ∧ d ≤ 11 then initDomain d t else t

/-- DOMAIN_SWITCH_START (R448): the sequencer, free again, takes the next waiting domain. -/
def execDomainSwitchStart (s : State) : Result :=
  commit s
    (match s.pwr.seqRunning, s.pwr.switching, s.pwr.waiting with
     | false, none, (d, up) :: r =>
       let t := { s with pwr := { s.pwr with waiting := r } }
       if up then beginUp d t
       else if (domOf t d).pendUp ∧ (domOf t d).state = .draining then calledBack d t
       else beginDown d t
     | _, _, _ => s)

/-- What the drain of a domain completes (R449): a link whose domain drains has its rings DISABLED, ports of an octet go OFF, frames of
D28 return with CANCELLED, a standby core stops. -/
def drainWork (d : Nat) (s : State) : State :=
  if d = 28 then returnAllFrames s
  else if d = 3 then linkLost s
  else if 4 ≤ d ∧ d ≤ 11 then octetLost (d - 4) s
  else s

/-- The drain of D29 waits for a RUNNING operation (R449). -/
def drainBusy (d : Nat) (s : State) : Bool := d == 29 && s.aead.st == .running

/-- DRAIN_END (R449, R450), at the tick strobe that follows the end of the work: back to ENABLED where an Up was accepted, else POWERING_DOWN once the sequencer is free. -/
def execDrainEnd (d : Nat) (s : State) : Result :=
  onObject (decide (1 ≤ d ∧ d < 30)) s
    (if (domOf s d).state = .draining ∧ (domOf s d).drained = true ∧ (domOf s d).pendUp = true then calledBack d s
     else if (domOf s d).state = .draining ∧ (domOf s d).drained = false ∧ drainBusy d s = false ∧ (domOf s d).since < s.clk.now then
       let t := drainWork d s
       if (domOf t d).pendUp then calledBack d t
       else if seqFree t then beginDown d t
       else enqueue d false false (setDom d { domOf t d with drained := true } t)
     else s)

/-- POWER_DOWN_DONE (R449, R450), one tick and the switch time after POWERING_DOWN began: the domain is OFF; an Up accepted meanwhile, or a power-cycle, brings it up again. -/
def execPowerDownDone (d : Nat) (s : State) : Result :=
  onObject (decide (1 ≤ d ∧ d < 30)) s
    (if s.pwr.switching = some d ∧ (domOf s d).state = .poweringDown ∧ (domOf s d).since + 1 + switchTicks d ≤ s.clk.now then
       let again := (domOf s d).pendUp || (domOf s d).cycling
       let t := loseDomain d s
       let t := if (domOf s d).cycling then setDom d { domOf t d with state := .off } t else domEnds d .off t
       let t := if again then enqueue d true (domOf s d).cycling t else t
       switchEnd t
     else s)

/-- A rail or reset takes every switched domain to a state at once: contents lost, transitions abandoned (R493). -/
def forceDomain (st : DomState) (s : State) (d : Nat) : State :=
  if (domOf s d).state = .absent ∨ ((domOf s d).state = .off ∧ st = .fault) then s
  else setDom d { state := st } (loseDomain d s)

/-- The registers of D0 that RESET_N returns to their reset values (R12, R319, R394): interrupts, mailboxes, captures, requests; the
keep store, the flash banks, device time and every setting stay. A write in progress or queued by hardware or firmware goes on (R435). -/
def resetD0 (s : State) : State :=
  { s with
    irq := { mctpAddr := s.irq.mctpAddr }
    mb := {}
    keep := { s.keep with hostQ := [], addr := 0, result := 0 }
    mp := { bankA := s.mp.bankA, bankB := s.mp.bankB, bootPlan := s.mp.bootPlan }
    avs := { setPoint := s.avs.setPoint, tj := s.avs.tj, site := s.avs.site, regs := s.avs.regs }
    age := { s.age with limitRaised := false, testing := none }
    ev := { seq := s.ev.seq, mark := s.ev.mark, prevHash := s.ev.prevHash }
    pair := {}
    plan := { s.plan with activated := false }
    circ := circuitsReset s.circ
    tku := { s.tku with events := 0, capDone := false, gpioSel := 0, armGpio := false, capH := 0, capL := 0, capTick := 0 }
    pwr := { s.pwr with domEvent := 0, seqRunning := true, seqStarted := false, seqRest := [], waiting := [], switching := none } }

/-- A bank in TRIAL reads VALID after a reset (R401). -/
def endTrial (b : Bank) : Bank := if b.state = .trial then { b with state := .valid } else b

/-- RESET_N takes hold (R493): once the start-up sequence has begun and until it ends every switched domain goes OFF; after it, powered domains are held in reset
with the granary in self-refresh, and read POWERING_UP until the sequence initialises them in place. -/
def takeReset (s : State) : State :=
  let held := fun (t : State) (d : Nat) =>
    if domPowered (domOf t d).state then
      let g := t.mem.granary
      let p := t.mem.poison
      let u := loseDomain d t
      let u := if d = 28 then { u with link := recordsAfterReset t, sec := t.sec } else u
      setDom d { state := .poweringUp, inPlace := true } { u with mem := { u.mem with granary := g, poison := p } }
    else setDom d { state := (domOf t d).state } t
  let t := if s.pwr.seqRunning && s.pwr.seqStarted then switched.foldl (forceDomain .off) s else switched.foldl held s
  resetD0 { t with mp := { t.mp with bankA := endTrial t.mp.bankA, bankB := endTrial t.mp.bankB }
                   clk := { t.clk with awaitFirst := true } }

/-- RESET_N_ASSERT (R493). -/
def execResetNAssert (s : State) : Result :=
  commit s (if s.pins.resetReleased then (let t := takeReset s; { t with pins := { t.pins with resetReleased := false } }) else s)

/-- The release of RESET_N (R8, R12, R319): what was set while RESET_N was low goes with it, the tick count restarts at the first strobe, and the TKU returns to
ACQUIRE. -/
def releaseReset (s : State) : State :=
  toAcquire { resetD0 s with
    pins := { s.pins with resetReleased := true }
    clk := { s.clk with tick := 0, awaitFirst := true } }

/-- RESET_N_RELEASE (R319). -/
def execResetNRelease (s : State) : Result :=
  commit s (if s.pins.resetReleased then s else releaseReset s)

/-- SEQUENCE_START (R447, R492): RESET_N released, the D0 rails in range and OSC_IN running. Domains to come are the boot domains and
those powered in place; `rails` are the rails as the board has them. -/
def execSequenceStart (rails : Rails) (s : State) : Result :=
  let s1 := { s with pins := { s.pins with rails := rails } }
  commit s
    (if s.pins.resetReleased && s.pins.oscPresent && s.pins.oscSince.all (fun t => decide (t + 100 ≤ s.clk.now)) && rails.vddAon && rails.vddIo && rails.vppKeep
        && !s.pwr.seqStarted && !s.pins.thermTrip then
       let rest := seqOrder.filter fun d =>
         (domOf s d).state != .absent && !domAbsent (isH s) d && ((domOf s d).inPlace || bitOf s.pwr.bootDomains d)
       let t := switched.foldl (fun t d => if domAbsent (isH s) d then setDom d { state := .absent } t else t) s1
       seqNext { t with pwr := { t.pwr with seqRunning := true, seqStarted := true, seqRest := rest } }
     else s1)

/-- The fate of a keep-store write cut short by its supply: the old or the new value (R435, R493), which of the two being free. -/
def keepCut (s : State) : State :=
  match s.keep.active with
  | none => s
  | some w =>
    let f := drawFree s
    let t := { f.2 with keep := { f.2.keep with active := none } }
    if bitOf f.1 0 then
      { t with keep := { t.keep with cells := keepLand w t.keep.cells } }
    else t

/-- VDD_AON is removed: D0 and everything else lose power; the keep store, the flash and the board's conditions remain (R435, R493, R496). -/
def powerLost (s : State) : State :=
  let s := keepCut s
  let t : State := { (default : State) with
    clk := { free := s.clk.free }
    pins := { rails := s.pins.rails, resetReleased := false, oscPresent := s.pins.oscPresent, oscSince := s.pins.oscSince.map fun _ => 0 }
    keep := { cells := s.keep.cells }
    mp := { bankA := endTrial s.mp.bankA, bankB := endTrial s.mp.bankB, bootPlan := s.mp.bootPlan }
    age := { day := s.age.day }
    aead := { markNext := s.aead.markNext }
    out := s.out, pending := s.pending }
  loadSettings t

/-- VDD_CORE or VDD_SRAM is lost (R493): as RESET_N asserted during the sequence; where RESET_N is released, the tick count starts anew at once. -/
def coreRailLost (s : State) : State :=
  let t := takeReset { s with pwr := { s.pwr with seqRunning := true, seqStarted := true } }
  if s.pins.resetReleased then releaseReset t else t

/-- RAIL_REMOVED (R493). -/
def execRailRemoved (r : Rail) (s : State) : Result :=
  let s1 := { s with pins := { s.pins with rails := railOut r s.pins.rails } }
  commit s
    (match r with
     | .vddCore => coreRailLost s1
     | .vddSram => coreRailLost s1
     | .vddAon => powerLost s1
     | .vppKeep => keepCut s1
     | r =>
       let ds := (railFeeds r).filter fun d => (domOf s d).state != .absent && (domOf s d).state != .off && (domOf s d).state != .fault
       let t := ds.foldl (fun t d => domDone d (forceDomain .fault t d)) s1
       let cut := match t.pwr.switching with
         | some d => ds.contains d
         | none => false
       let t := { t with pwr := { t.pwr with waiting := t.pwr.waiting.filter fun p => !ds.contains p.1 || p.2 } }
       if cut then switchEnd t else t)

/-- VDD_CORE_WINDOW_FLAG (R494, R495). -/
def execVddCoreWindowFlag (s : State) : Result :=
  commit s { s with pins := { s.pins with vddFlagAt := some s.clk.now } }

/-- OSC_IN_LOSS (R494): the synthesiser holds its frequency and the TKU enters ACQUIRE. -/
def execOscInLoss (s : State) : Result :=
  commit s (toAcquire { s with pins := { s.pins with oscPresent := false, oscSince := none, oscLostAt := some s.clk.now } })

/-- OSC_IN_RETURN (R494): the synthesiser relocks without a phase step. -/
def execOscInReturn (s : State) : Result := commit s { s with pins := { s.pins with oscPresent := true, oscSince := some s.clk.now } }

/-- ALERT_N_RELEASE (R495): a flag or loss that lies 1 s back is a cause no more. -/
def execAlertNRelease (s : State) : Result :=
  let fresh := fun (x : Option Nat) => x.filter fun t => decide (s.clk.now < t + 1000000)
  commit s { s with pins := { s.pins with vddFlagAt := fresh s.pins.vddFlagAt, oscLostAt := fresh s.pins.oscLostAt } }

/-- The domain of a wear sensor (R445); site 48 is the HBM3E stack's sensor, measured while D28 is powered (R496). -/
def sensorDomain (n : Nat) : Nat :=
  if n < 32 then 12 + n / 2
  else if n < 40 then 4 + (n - 32)
  else if n < 44 then 28
  else if n = 44 then 1
  else if n = 45 then 2
  else if n = 46 then 3
  else if n = 47 then 29
  else 28

/-- THERMAL_TRIP (R496): THERMTRIP_N is latched and the switches of D1 to D29 open. -/
def execThermalTrip (site : Nat) (s : State) : Result :=
  onObject (site < 49) s
    (if domPowered (domOf s (sensorDomain site)).state then
       let t := switched.foldl (fun t d => if domPowered (domOf s d).state then domDone d (forceDomain .off t d) else t) s
       { t with pins := { t.pins with thermTrip := true }
                pwr := { t.pwr with switching := none, waiting := [], seqRest := [] } }
     else s)

/-- A power-down the rules refuse (R16, R449): the status of the refusal, 0 where there is none. -/
def downRefused (s : State) (d : Nat) : Nat :=
  let firmwareBusy := s.mp.armed.isSome || s.mp.bankA.state == .trial || s.mp.bankB.state == .trial
  if d = 0 then 0x08
  else if d = 1 ∨ d = 2 then
    if runningCode s = d then 0x08 else if firmwareBusy then 0x01 else 0
  else if 4 ≤ d ∧ d ≤ 11 then if (octetPorts (d - 4)).any (portBusy s) then 0x08 else 0
  else if 12 ≤ d ∧ d ≤ 27 then if (placedClusters s).any (fun c => 12 + c / 17 == d) then 0x08 else 0
  else if d = 28 ∨ d = 29 then if s.plan.active.isEmpty || (activeCircuits s).isEmpty then 0 else 0x08
  else 0

/-- A request of `power.domain_set` (R450): its status, and the state once it is accepted. -/
def powerRequest (d : Nat) (up : Bool) (s : State) : Nat × State :=
  let x := domOf s d
  if s.pwr.seqRunning then (0x01, s)
  else if x.state = .absent then (0x08, s)
  else if x.cycling then (0x01, s)
  else if up then
    match x.state with
    | .off | .fault =>
      if x.pendUp then (0, s)
      else if seqFree s then (0, beginUp d s)
      else (0, enqueue d true false (setDom d { x with pendUp := true } s))
    | .draining => (0, setDom d { x with pendUp := true } s)
    | .poweringDown => (0, setDom d { x with pendUp := true } s)
    | .poweringUp => if x.pendDown then (0x01, s) else (0, s)
    | _ => (0, s)
  else
    match x.state with
    | .enabled =>
      let r := downRefused s d
      if r ≠ 0 then (r, s) else (0, beginDrain d s)
    | .draining | .poweringDown => if x.pendUp then (0x01, s) else (0, s)
    | .poweringUp => if downRefused s d ≠ 0 then (downRefused s d, s) else (0, setDom d { x with pendDown := true } s)
    | _ => if x.pendUp then (0x01, s) else (0, s)

/-- The automatic power-cycle of an MP domain (R403, R450): requests of that domain still waiting are dropped, and it goes ahead of
every waiting one. -/
def powerCycle (d : Nat) (s : State) : State :=
  let t := { s with pwr := { s.pwr with waiting := s.pwr.waiting.filter fun p => p.1 != d } }
  let t := setDom d { state := .draining, cycling := true, drained := true } (loseDomain d t)
  if !t.pwr.seqRunning && t.pwr.switching.isNone then beginDown d t else enqueue d false true t

end Sys2Proof.Machine
end

