-- ==== Sys2Proof/Machine/Avs.lean ====
section
/-! DEFINITION. The adaptive supply, the regulator readings and the margin ledger (spec/19_power_ageing.md R451 to R454). Slack is in 1/16 ps,
temperature in 1/16 degree, the set point in steps of 2.5 mV, ledger voltages in 1/100 mV. -/
namespace Sys2Proof.Machine

/-- AVS_TARGET, 12.0 ps, and the upper edge of the band, 4.0 ps above it (R451). -/
def avsTarget : Int := 192
def avsUpper : Int := 256

/-- Measurements of sensors whose domain is ENABLED (R445, R451, R479). -/
def liveObs (s : State) (obs : List SensorObs) : List SensorObs :=
  obs.filter fun o => decide (o.sensor < 48) && domOn s (sensorDomain o.sensor)

/-- Those that S_MIN is formed of: a newly ENABLED domain's count from the first measurement 1 ms after its switch (R451). -/
def loopObs (s : State) (obs : List SensorObs) : List SensorObs :=
  (liveObs s obs).filter fun o => decide ((domOf s (sensorDomain o.sensor)).since + 1000 ≤ s.clk.now)

/-- The measurement of least slack, and the one of highest temperature; the first among equals. -/
def leastSlack : List SensorObs → Option SensorObs
  | [] => none
  | o :: os =>
    match leastSlack os with
    | none => some o
    | some q => if o.slack ≤ q.slack then some o else some q
def hottest : List SensorObs → Option SensorObs
  | [] => none
  | o :: os =>
    match hottest os with
    | none => some o
    | some q => if q.temp ≤ o.temp then some o else some q

/-- The loop takes no step while a domain switches, during the 1 ms after a switch completes, or in the 1 ms after a step (R451). -/
def avsHeld (s : State) : Bool :=
  s.pwr.switching.isSome || decide (s.clk.now < s.pwr.switchDoneAt + 1000) || s.avs.stepAt.any fun t => decide (s.clk.now < t + 1000)

/-- The set point after one step of the loop (R451): 0.700 to 0.800 V. -/
def avsStep (sp : Nat) (sMin : Int) : Nat :=
  if sMin < avsTarget ∧ sp < 320 then sp + 1 else if avsUpper < sMin ∧ 280 < sp then sp - 1 else sp

/-- AVS_MEASUREMENT (R451, R479): TJ and SITE are updated, S_MIN formed, and the loop steps the set point at most once. -/
def execAvsMeasurement (obs : List SensorObs) (s : State) : Result :=
  let live := liveObs s obs
  let t := match hottest live with
    | some o => { s with avs := { s.avs with tj := o.temp, site := o.sensor } }
    | none => s
  commit s
    (match leastSlack (loopObs s obs) with
     | none => t
     | some o =>
       let t := { t with avs := { t.avs with sMin := o.slack, sMinSensor := o.sensor } }
       let sp := if t.avs.running && !t.avs.busFault && !avsHeld t then avsStep t.avs.setPoint o.slack else t.avs.setPoint
       let lim := if sp = 320 ∧ o.slack < avsTarget then some (t.avs.limitSince.getD t.clk.now) else none
       let u := { t with avs := { t.avs with setPoint := sp, limitSince := lim, stepAt := if sp = t.avs.setPoint then t.avs.stepAt else some t.clk.now } }
       if sp = t.avs.setPoint then u else emit (.avs sp) u)

/-- AVS_BUS_FAULT (R452): three writes in a row not acknowledged. -/
def execAvsBusFault (s : State) : Result := commit s { s with avs := { s.avs with busFault := true } }

/-- AVS_BUS_RETRY (R452): the held set point is written again. -/
def execAvsBusRetry (acked : Bool) (s : State) : Result :=
  commit s
    (if s.avs.busFault then
       emit (.avs s.avs.setPoint) { s with avs := { s.avs with busFault := !acked } }
     else s)

/-- PMBUS_POLL (R452): readings of up to 8 regulators. -/
def execPmbusPoll (readings : List Regulator) (s : State) : Result :=
  commit s { s with avs := { s.avs with regs := readings.take 8 } }

/-- AVS_STATE (R452): 0 TRACKING, 1 HELD, 2 AT_LIMIT, 3 BUS_FAULT. -/
def avsState (s : State) : Nat :=
  if s.avs.busFault then 3 else if s.pwr.switching.isSome then 1 else if s.avs.setPoint = 320 then 2 else 0

/-- The three words of a sensor's ledger record (R453). -/
def ledgerWords (s : State) (n : Nat) : List Word :=
  [keepQueued s (1204 + 4 * n), keepQueued s (1205 + 4 * n), keepQueued s (1206 + 4 * n)]

/-- A record that R439 does not call absent: none of its words CORRUPT, and the commit word matches, queued writes counted. -/
def recordPresent (s : State) (first n commitAt : Nat) : Bool :=
  let ws := (List.range n).map (first + ·)
  (ws.all fun w => !(cellOf s w).corrupt) && !(cellOf s commitAt).corrupt
    && fieldOf (keepQueued s commitAt) 31 0 == crc32c ((ws.map (keepQueued s)).flatMap bytesBE)
def ledgerPresent (s : State) (n : Nat) : Bool := recordPresent s (1204 + 4 * n) 3 (1207 + 4 * n)

/-- FRESH in 1/16 ps, K in 1/256 ps per 10 mV, TC in 1/256 ps per degree (R453). -/
def ledgerFresh (s : State) (n : Nat) : Int := fieldOf (keepQueued s (1204 + 4 * n)) 63 48
def ledgerK (s : State) (n : Nat) : Int := fieldOf (keepQueued s (1204 + 4 * n)) 47 32
def ledgerTc (s : State) (n : Nat) : Int := signedOf 16 (fieldOf (keepQueued s (1204 + 4 * n)) 31 16)

/-- NOW in 1/16 ps from a sensor's means (R453): S - K (V - 0.750 V)/10 mV - TC (T - 85), rounded down. -/
def ledgerNow (k tc : Int) (m : MeanObs) : Int :=
  (6400 * m.slack - 4 * k * (m.volts - 7500) - 25 * tc * (m.temp - 1360)) / 6400

/-- NEED_V in 1/100 mV (R453): 0.750 V + 10 mV (AVS_TARGET - (NOW + 20 TC))/K. -/
def ledgerNeed (k tc now : Int) : Int :=
  if k = 0 then Config.needVoltageNoGain now else 75000 + 1000 * (3072 - 16 * now - 20 * tc) / k

/-- The fall of NOW per year in 1/16 ps (R453): since the yearly snapshot, or since first start with FRESH until there is one. -/
def ledgerRate (s : State) (n : Nat) (now : Int) : Int :=
  let snap := keepQueued s (1206 + 4 * n)
  let day0 : Int := fieldOf snap 31 0
  let useSnap := decide (90 ≤ s.age.day) && snap != 0
  let ref := if useSnap then signedOf 16 (fieldOf snap 63 48) else ledgerFresh s n
  let days : Int := if useSnap then (s.age.day : Int) - day0 else s.age.day
  if days ≤ 0 then Config.derived 453 [n, now, s.age.day] else (ref - now) * 365 / days

/-- YEARS_LEFT in whole years, 0xFFFF when RATE is not positive (R453); no rule gives the form of a negative one. -/
def ledgerYears (k tc now rate : Int) : Nat :=
  let left := 16 * now + 20 * tc + 5 * k - 3072
  if rate ≤ 0 then 0xFFFF else if left < 0 then (Config.derived 455 [k, tc, now, rate]).toNat else (left / (16 * rate)).toNat

/-- One sensor's hourly entry (R453). -/
def hourlySensor (s : State) (m : MeanObs) : State :=
  let n := m.sensor
  if n < 48 ∧ domOn s (sensorDomain n) = true ∧ ledgerPresent s n = true then
    let k := ledgerK s n
    let tc := ledgerTc s n
    let now := ledgerNow k tc m
    let rate := ledgerRate s n now
    let e : Sensor := { s := m.slack, now := now, needV := ledgerNeed k tc now, rate := rate, yearsLeft := ledgerYears k tc now rate }
    { s with age := { s.age with sensors := tabPut {} s.age.sensors n e } }
  else s

/-- The sensor of the largest NEED_V among present entries of ENABLED domains (R453). -/
def worstSensor (s : State) : List Nat → Option Nat
  | [] => none
  | n :: ns =>
    let r := worstSensor s ns
    if domOn s (sensorDomain n) && ledgerPresent s n && (tabGet {} s.age.sensors n != {}) then
      match r with
      | none => some n
      | some q => if (tabGet {} s.age.sensors q).needV ≤ (tabGet {} s.age.sensors n).needV then some n else some q
    else r

/-- AGEING_LIMIT raised once (R454). -/
def ageingLimit (sensor : Nat) (s : State) : State :=
  if s.age.limitRaised then s
  else raise 0x0070 sensor { s with age := { s.age with limitRaised := true } }

/-- LEDGER_HOURLY_UPDATE (R453, R454). -/
def execLedgerHourlyUpdate (means : List MeanObs) (s : State) : Result :=
  let t := means.foldl hourlySensor s
  commit s
    (match worstSensor t (List.range 48) with
     | none => t
     | some n =>
       let h := 80000 - (tabGet {} t.age.sensors n).needV
       let hours := if 0 < h then t.age.positiveHours + 1 else 0
       let u := { t with age := { t.age with
         headroom := h, worst := n, positiveHours := hours
         limitRaised := t.age.limitRaised && decide (hours < 24) } }
       if h < 0 then ageingLimit n u else u)

/-- A sensor's NOW and the day, as a ledger word (R453). -/
def ledgerEntryWord (now : Int) (day : Nat) : Word := fieldAt 63 48 (twosOf 16 now) ||| fieldAt 31 0 day

/-- One sensor's ledger word `j` (1 daily, 2 yearly) and commit word queued, unless a word is WORN (R439, R453). -/
def ledgerWrite (j : Nat) (s : State) (n : Nat) : State :=
  let x := tabGet {} s.age.sensors n
  let at_ := 1204 + 4 * n + j
  if x = {} ∨ ledgerPresent s n = false ∨ writable s [at_, 1207 + 4 * n] = false then s
  else
    let v := ledgerEntryWord x.now s.age.day
    mpWrites [(at_, v), (1207 + 4 * n, commitWord ((ledgerWords s n).set j v))] s

/-- LEDGER_DAILY_WRITE (R453): a day has passed, and each sensor's NOW is written. -/
def execLedgerDailyWrite (s : State) : Result :=
  commit s ((List.range 48).foldl (ledgerWrite 1) { s with age := { s.age with day := s.age.day + 1 } })

/-- LEDGER_YEARLY_SNAPSHOT (R453). -/
def execLedgerYearlySnapshot (s : State) : Result := commit s ((List.range 48).foldl (ledgerWrite 2) s)

/-- AVS_AT_LIMIT_EXPIRY (R454): the set point has stood at 0.800 V with S_MIN below target for 1 s. -/
def execAvsAtLimitExpiry (s : State) : Result :=
  commit s (if s.avs.limitSince.any (fun t => decide (t + 1000000 ≤ s.clk.now)) && s.avs.setPoint == 320 then ageingLimit s.avs.sMinSensor s else s)

end Sys2Proof.Machine
end

