-- ==== Sys2Proof/Machine/Bands.lean ====
section
/-! DEFINITION. Notched bands in kHz (spec/10_transmit_shaping.md R243, R247, R255). -/
namespace Sys2Proof.Machine

/-- The notched bands of a profile (R247). -/
def profileBands (profile : Nat) : List (Nat × Nat) :=
  let both : List (Nat × Nat) := [(3500, 4000), (7000, 7300), (10100, 10150), (14000, 14350), (18068, 18168), (21000, 21450), (24890, 24990),
    (28000, 29700)]
  if profile = 1 then (1810, 2000) :: both ++ [(50000, 52000), (70000, 70500), (87500, 100000)]
  else if profile = 2 then (1800, 2000) :: both ++ [(5330, 5405), (50000, 54000), (88000, 100000)]
  else []

/-- The bands of user notches, and the sections that a width takes: one for each 0.5 MHz begun (R243, R255). -/
def notchBand (n : Notch) : Nat × Nat := (10 * n.lo, 10 * (n.lo + n.width))
def notchSections (n : Notch) : Nat := (n.width + 49) / 50
/-- The bands that a circuit's bank notches (R247): all but those that reach the upper edge of the Class D band, which its shaping filter realises. -/
def bankList (profile : Nat) (ns : List Notch) : List (Nat × Nat) := (profileBands profile).filter (fun b => decide (b.2 < 100000)) ++ ns.map notchBand
/-- Every band notched on a circuit. -/
def notchBands (profile : Nat) (ns : List Notch) : List (Nat × Nat) := profileBands profile ++ ns.map notchBand

end Sys2Proof.Machine
end

