-- ==== Sys2Proof/Machine/Coding.lean ====
section
/-! DEFINITION. Forward error correction, scrambling, interleaving and the m-sequences (spec/09_coding_interleaving.md R218 to R233,
spec/06_class_t.md R150 to R152, spec/07_class_a.md R172). -/
namespace Sys2Proof.Machine

/-- Row i of the base matrix H_b (R218): its columns that are not the zero block, with their shifts. -/
def hbRow : Nat → List (Nat × Nat)
  | 0 => [(0, 137), (1, 402), (3, 58), (7, 291), (12, 466), (16, 110), (17, 0)]
  | 1 => [(1, 23), (2, 310), (4, 175), (8, 444), (13, 96), (17, 0), (18, 0)]
  | 2 => [(2, 381), (3, 209), (5, 12), (9, 330), (14, 157), (18, 0), (19, 0)]
  | 3 => [(3, 66), (4, 497), (6, 240), (10, 118), (15, 373), (19, 0), (20, 0)]
  | 4 => [(0, 415), (4, 81), (5, 296), (7, 162), (11, 29), (20, 0), (21, 0)]
  | 5 => [(1, 258), (5, 453), (6, 104), (8, 37), (12, 311), (21, 0), (22, 0)]
  | 6 => [(2, 190), (6, 365), (7, 5), (9, 427), (13, 244), (22, 0), (23, 0)]
  | 7 => [(3, 482), (7, 131), (8, 356), (10, 73), (14, 218), (16, 0), (23, 0), (24, 0)]
  | 8 => [(4, 299), (8, 61), (9, 184), (11, 392), (15, 17), (24, 0), (25, 0)]
  | 9 => [(0, 44), (5, 338), (9, 471), (10, 226), (12, 150), (25, 0), (26, 0)]
  | 10 => [(1, 317), (6, 89), (10, 405), (11, 263), (13, 33), (26, 0), (27, 0)]
  | 11 => [(2, 98), (7, 446), (11, 171), (12, 19), (14, 384), (27, 0), (28, 0)]
  | 12 => [(3, 203), (8, 500), (12, 273), (13, 142), (15, 68), (28, 0), (29, 0)]
  | 13 => [(0, 359), (4, 126), (9, 7), (13, 398), (14, 285), (29, 0), (30, 0)]
  | 14 => [(1, 476), (5, 193), (10, 334), (14, 51), (15, 420), (30, 0), (31, 0)]
  | _ => [(0, 266), (2, 14), (6, 437), (11, 302), (15, 179), (16, 110), (31, 0)]

/-- Bits of two lists added modulo 2. -/
def xorBits (a b : List Bool) : List Bool := List.zipWith Bool.xor a b

/-- The permutation with shift x of a block vector (R219): w[i] = v[(i + x) mod Z]. -/
def permBlock (x : Nat) (v : List Bool) : List Bool := v.drop (x % v.length) ++ v.take (x % v.length)

/-- Codeword lengths by LIFT, and rates as numerator and denominator by RATE (R156). -/
def liftN (l : Nat) : Nat := if l = 0 then 576 else if l = 1 then 2304 else 9216
def rateNum (r : Nat) : Nat × Nat :=
  if r = 0 then (1, 2) else if r = 1 then (2, 3) else if r = 2 then (3, 4) else if r = 3 then (5, 6) else (8, 9)
/-- Information bits K and lifting Z of a length and rate (R220). -/
def infoBits (l r : Nat) : Nat := liftN l * (rateNum r).1 / (rateNum r).2
def liftZ (l r : Nat) : Nat := infoBits l r / 16

/-- Parity columns in the order they are sent (R221). -/
def parityOrder : List Nat := [16, 24, 20, 28, 18, 26, 22, 30, 17, 25, 21, 29, 19, 27, 23, 31]

/-- The scrambler's sequence of n bits from its register (R222). -/
def scrambleSeq : Nat → Nat → List Bool
  | 0, _ => []
  | n + 1, s =>
    let u := (s / 16384 + s / 8192) % 2
    (u == 1) :: scrambleSeq n (s * 2 % 32768 + u)

/-- The seed for a codeword of a circuit, and the scrambled bits (R222). -/
def scrambleSeed (circuit index : Nat) : Nat := 16384 + circuit % 1024 * 16 + index % 16
def scramble (circuit index : Nat) (bs : List Bool) : List Bool := xorBits bs (scrambleSeq bs.length (scrambleSeed circuit index))

/-- Block j of Z bits of a bit string. -/
def blockOf (z j : Nat) (u : List Bool) : List Bool := (u.drop (j * z)).take z

/-- The product of block row i with the information blocks (R223). -/
def rowProduct (z : Nat) (u : List Bool) (i : Nat) : List Bool :=
  ((hbRow i).filter fun e => decide (e.1 < 16)).foldl
    (fun a e => xorBits a (permBlock (e.2 % z) (blockOf z e.1 u))) (List.replicate z false)

/-- The parity blocks from p[k] on, n of them (R223). -/
def parityFrom (z : Nat) (u p0 : List Bool) : Nat → Nat → List Bool → List (List Bool)
  | 0, _, _ => []
  | n + 1, k, pk =>
    let next := xorBits (xorBits (rowProduct z u k) pk) (if k = 7 then p0 else List.replicate z false)
    next :: parityFrom z u p0 n (k + 1) next

/-- All sixteen parity blocks p[0] to p[15] (R223). -/
def parityBlocks (z : Nat) (u : List Bool) : List (List Bool) :=
  let p0 := (List.range 16).foldl (fun a i => xorBits a (rowProduct z u i)) (List.replicate z false)
  let p1 := xorBits (rowProduct z u 0) (permBlock (110 % z) p0)
  p0 :: p1 :: parityFrom z u p0 14 1 p1

/-- One codeword of N coded bits from its K information bits, already scrambled (R220, R221, R223). -/
def ldpcEncode (l r : Nat) (u : List Bool) : List Bool :=
  let ps := parityBlocks (liftZ l r) u
  (u ++ parityOrder.flatMap fun c => ps.getD (c - 16) []).take (liftN l)

/-- Consecutive runs of k bits, zero filled; n of them (R223). -/
def chunkBits (k : Nat) : Nat → List Bool → List (List Bool)
  | 0, _ => []
  | n + 1, bs => ((bs.take k) ++ List.replicate (k - bs.length) false) :: chunkBits k n (bs.drop k)

/-- The codewords of a frame's bytes on a circuit (R223). -/
def encodeFrame (circuit l r ncw : Nat) (bytes : List Byte) : List (List Bool) :=
  let us := chunkBits (infoBits l r) ncw (bytes.flatMap bitsBE)
  (List.range ncw).map fun i => ldpcEncode l r (scramble circuit i (us.getD i []))

/-- The 32 Z channel values of a codeword from the LLRs of the bits sent; punctured bits are 0 (R220, R221, R224). -/
def depuncture (l r : Nat) (llr : List Int) : Array Int :=
  let z := liftZ l r
  let k := infoBits l r
  let sent := (llr.take (liftN l)).toArray
  let info := (List.range k).map fun i => sent.getD i 0
  let par := (List.range 16).flatMap fun c =>
    let place := (parityOrder.findIdx? fun x => x == c + 16).getD 0
    (List.range z).map fun i => let n := k + place * z + i; if n < liftN l then sent.getD n 0 else 0
  (info ++ par).toArray

/-- Saturation of a posterior to 8 bits (R225). -/
def sat8 (x : Int) : Int := if x < -128 then -128 else if 127 < x then 127 else x

/-- Messages and posteriors of the decoder: one message for each edge of each check. -/
structure DecodeRun where
  post : Array Int
  msg : Array Int

/-- The bit of edge (column, shift) in check row y (R219). -/
def edgeBit (z y : Nat) (e : Nat × Nat) : Nat := e.1 * z + (y + e.2 % z) % z

/-- One check row: each bit's new message is 3/4 of the least magnitude among the others, truncated, with the product of their signs
(R225). `base` is the place of the row's first message. -/
def checkRow (z y base : Nat) (es : List (Nat × Nat)) (d : DecodeRun) : DecodeRun :=
  let q := (List.range es.length).map fun i => d.post.getD (edgeBit z y (es.getD i (0, 0))) 0 - d.msg.getD (base + i) 0
  (List.range es.length).foldl (fun d i =>
    let others := q.eraseIdx i
    let least := others.foldl (fun m x => min m x.natAbs) 1000000
    let neg := (others.filter fun x => decide (x < 0)).length % 2 == 1
    let m : Int := if neg then -((3 * least / 4 : Nat) : Int) else ((3 * least / 4 : Nat) : Int)
    { post := d.post.setIfInBounds (edgeBit z y (es.getD i (0, 0))) (sat8 (q.getD i 0 + m))
      msg := d.msg.setIfInBounds (base + i) m }) d

/-- One iteration: the 16 layers in ascending order (R225); 12 message places are kept for each check row. -/
def iterate (z : Nat) (d : DecodeRun) : DecodeRun :=
  (List.range 16).foldl (fun d i => (List.range z).foldl (fun d y => checkRow z y ((i * z + y) * 12) (hbRow i) d) d) d

/-- The syndrome of the hard decisions is zero. -/
def syndromeZero (z : Nat) (post : Array Int) : Bool :=
  (List.range 16).all fun i => (List.range z).all fun y =>
    ((hbRow i).filter fun e => decide (post.getD (edgeBit z y e) 0 < 0)).length % 2 == 0

/-- Iterations until the first zero syndrome, 24 at most (R225): the count used and the posteriors. -/
def decodeLoop (z : Nat) : Nat → Nat → DecodeRun → Nat × Bool × Array Int
  | 0, n, d => (n, false, d.post)
  | fuel + 1, n, d =>
    let d := iterate z d
    if syndromeZero z d.post then (n + 1, true, d.post) else decodeLoop z fuel (n + 1) d

/-- What a decoder passes with a codeword (R226): CONVERGED, ITER, FLIPS and the information bits, still scrambled. -/
structure Decoded where
  converged : Bool
  iter : Nat
  flips : Nat
  bits : List Bool

/-- The decoder (R224 to R226). -/
def ldpcDecode (l r : Nat) (llr : List Int) : Decoded :=
  let z := liftZ l r
  let chan := depuncture l r llr
  let out := decodeLoop z 24 0 { post := chan, msg := Array.replicate (16 * z * 12) 0 }
  let hard := out.2.2.toList.map fun x => decide (x < 0)
  let flips := ((List.zip hard chan.toList).filter fun p => p.2 != 0 && p.1 != decide (p.2 < 0)).length
  { converged := out.2.1, iter := out.1, flips := min flips 65535, bits := hard.take (infoBits l r) }

/-- The information bits of a decoded codeword, descrambled (R222). -/
def descramble (circuit index : Nat) (bs : List Bool) : List Bool := scramble circuit index bs

/-- The branch delay of a Class A PPDU of `l` coded bits, m bits a symbol at spreading factor 2^sf, at an effective span (R230, R233). -/
def branchA (span m sf l : Nat) : Nat := min (span * 50 * m / (240 * 2 ^ sf)) ((l / 16 - 1) / 15)

/-- The wire position of coded bit i of `l` at a branch delay `d` (R233). -/
def wirePos (d l i : Nat) : Nat := 16 * ((i / 16 + i % 16 * d) % max (l / 16) 1) + i % 16

/-- A Class A PPDU's soft bits in the order of its coded bits (R233). -/
def deinterleaveA (l d : Nat) (bs : List Int) : List Int :=
  let a := bs.toArray
  (List.range l).map fun i => a.getD (wirePos d l i) 0

/-- The m-sequence of a polynomial given as the set of exponents below m with coefficient 1: its first n elements (R150). -/
def mSeqFrom (taps : List Nat) : Nat → List Bool → List Bool
  | 0, _ => []
  | n + 1, w => w.headD true :: mSeqFrom taps n (w.tail ++ [taps.foldl (fun b k => b != w.getD k false) false])
def mSeq (m : Nat) (taps : List Nat) (n : Nat) : List Bool := mSeqFrom taps n (List.replicate m true)

/-- Base sequence of length 31, 63, 127 or 255 (R150), and the Class A scrambler's of length 511 (R172). -/
def baseSeq (len : Nat) : List Bool :=
  if len = 31 then mSeq 5 [2, 0] 31 else if len = 63 then mSeq 6 [1, 0] 63 else if len = 127 then mSeq 7 [1, 0] 127
  else if len = 511 then mSeq 9 [4, 0] 511 else mSeq 8 [4, 3, 2, 0] 255

/-- The exponents below 8 of a beacon code channel's polynomial (R152), and its sequence. -/
def beaconPoly (i : Nat) : Nat :=
  [0x11D, 0x12B, 0x12D, 0x14D, 0x15F, 0x163, 0x165, 0x169, 0x171, 0x187, 0x18D, 0x1A9, 0x1C3, 0x1CF, 0x1E7, 0x1F5].getD i 0x11D
def beaconSeq (i : Nat) : List Bool := mSeq 8 ((List.range 8).filter fun k => beaconPoly i / 2 ^ k % 2 == 1) 255

/-- The k-th chip of a symbol of a length-L sequence on circuit c: true for chip value -1 (R150, R151). -/
def chipNeg (seq : List Bool) (c k : Nat) : Bool := seq.getD ((k + c % seq.length) % seq.length) false

/-- The sign of the marker of block k is negative (R201). -/
def markerNeg (k : Nat) : Bool := (baseSeq 255).getD (k % 255) false

end Sys2Proof.Machine
end

