-- ==== Sys2Proof/Machine/Levels.lean ====
section
/-! DEFINITION. Levels in 1/16 dB from linear powers by integer arithmetic (spec/15 R385), and the sample words of a tick frame
(spec/04_tick_frames.md R94, R95). -/
namespace Sys2Proof.Machine

/-- The number of decimal digits after the first: the whole part of log10, for n below 10^fuel. -/
def log10From : Nat → Nat → Nat
  | 0, _ => 0
  | fuel + 1, n => if n < 10 then 0 else 1 + log10From fuel (n / 10)

/-- 10 log10 of a power in 1/16 dB, rounded down: the whole part of log10 of p^160. Zero reads as power 1. -/
def db16 (p : Nat) : Int := log10From 20000 ((max p 1) ^ 160)

/-- 10 log10 (a / b) in 1/16 dB, rounded down, down to -125 dB. -/
def ratio16 (a b : Nat) : Int := (log10From 20000 ((max a 1) ^ 160 * 10 ^ 2000 / (max b 1) ^ 160) : Int) - 2000

/-- The largest p below 2^n whose level does not exceed l, by its bits from the top. -/
def powerFrom : Nat → Nat → Nat → Nat
  | 0, acc, _ => acc
  | n + 1, acc, l => if (acc + 2 ^ n) ^ 160 ≤ 10 ^ l then powerFrom n (acc + 2 ^ n) l else powerFrom n acc l

/-- The power of a level in 1/16 dB over 10^-6: the inverse of `db16`, 60 dB up. -/
def powerOf (l : Int) : Nat := powerFrom 64 0 (l + 960).toNat
/-- The level in 1/16 dB of such a power. -/
def levelOf (p : Nat) : Int := db16 p - 960

/-- A 14-bit code as a signed value (R94). -/
def sampleOf (v : Nat) : Int := signedOf 14 v

/-- The code that marks a clipped sample, as the cluster buffer holds it (R94). -/
def clipCode : Int := -8192

/-- Sample i of the channel whose 56 words are given (R95): group i / 9, position i mod 9 of the 128 bits of its two words. -/
def unpackSample (ws : List Word) (i : Nat) : Int :=
  let g := i / 9
  let v := (ws.getD (2 * g) 0).toNat * 18446744073709551616 + (ws.getD (2 * g + 1) 0).toNat
  sampleOf (v / 2 ^ (114 - 14 * (i % 9)) % 16384)

/-- The 250 samples of a channel's 56 words. -/
def unpackSamples (ws : List Word) : List Int := (List.range 250).map (unpackSample ws)

/-- A channel's 56 words from its samples (R95); reserved bits and positions zero. -/
def packSamples (xs : List Int) : List Word :=
  (List.range 28).flatMap fun g =>
    let v := (List.range 9).foldl (fun a p => a + twosOf 14 (xs.getD (9 * g + p) 0) * 2 ^ (114 - 14 * p)) 0
    [BitVec.ofNat 64 (v / 18446744073709551616), BitVec.ofNat 64 v]

/-- Limited to the sample range (R241, R245). -/
def limit14 (x : Int) : Int := if x < -8191 then -8191 else if 8191 < x then 8191 else x

/-- Sum of squares of a list of samples. -/
def sumSquares (xs : List Int) : Nat := xs.foldl (fun a x => a + x.natAbs * x.natAbs) 0

end Sys2Proof.Machine
end

