-- ==== Sys2Proof/Machine/Signal.lean ====
section
/-! DEFINITION. Complex samples, pulses, symbol mappings and the chips of a PPDU (spec/06_class_t.md R147 to R161, spec/07_class_a.md R170 to R178,
spec/10_transmit_shaping.md R242, R251, R252). Complex values of unit size have 14 fraction bits; angles are multiples of pi. -/
namespace Sys2Proof.Machine

def cxAdd (a b : Cx) : Cx := (a.1 + b.1, a.2 + b.2)
def cxSub (a b : Cx) : Cx := (a.1 - b.1, a.2 - b.2)
def cxMul (a b : Cx) : Cx := (a.1 * b.1 - a.2 * b.2, a.1 * b.2 + a.2 * b.1)
def cxConj (a : Cx) : Cx := (a.1, -a.2)
def cxScale (k : Int) (a : Cx) : Cx := (k * a.1, k * a.2)
def cxDiv (a : Cx) (k : Int) : Cx := (a.1 / k, a.2 / k)
/-- The squared magnitude. -/
def cxSq (a : Cx) : Nat := a.1.natAbs * a.1.natAbs + a.2.natAbs * a.2.natAbs
def cxSum (xs : List Cx) : Cx := xs.foldl cxAdd (0, 0)
/-- The sum of x times the conjugate of y. -/
def cxDot (xs ys : List Cx) : Cx := cxSum (List.zipWith (fun x y => cxMul x (cxConj y)) xs ys)
def cxEnergy (xs : List Cx) : Nat := xs.foldl (fun a x => a + cxSq x) 0

/-- The whole part of a square root. -/
def rootFrom : Nat → Nat → Nat → Nat
  | 0, acc, _ => acc
  | n + 1, acc, v => if (acc + 2 ^ n) * (acc + 2 ^ n) ≤ v then rootFrom n (acc + 2 ^ n) v else rootFrom n acc v
def rootOf (v : Nat) : Nat := rootFrom (Nat.log2 v / 2 + 1) 0 v

/-! Sines, with 40 fraction bits. -/

/-- Pi. -/
def piFix : Int := 3454217652358
/-- The terms of the cosine's series from the k-th on, the k-th being given. -/
def cosTerms : Nat → Int → Int → Int → Int
  | 0, _, _, _ => 0
  | n + 1, k, term, sq => term + cosTerms n (k + 2) (-(term * sq / 2 ^ 40) / ((k + 1) * (k + 2))) sq
/-- The cosine of pi a / b, for b positive. -/
def cosPi (a b : Int) : Int :=
  let r := a % (2 * b)
  let r := if b < r then 2 * b - r else r
  let neg := decide (b < 2 * r)
  let r := if neg then b - r else r
  let x := piFix * r / b
  let c := cosTerms 12 0 (2 ^ 40) (x * x / 2 ^ 40)
  if neg then -c else c
/-- The sine of pi a / b. -/
def sinPi (a b : Int) : Int := cosPi (b - 2 * a) (2 * b)

/-- The root-raised-cosine pulse of unit energy per chip, with roll-off bn / bd, at a / b chips from its peak, with 14 fraction bits
(R148, R170, R197). Its value at a quarter of 1 / roll-off from the peak, where the quotient has no value, is never asked for on the grids of
samples and chips. -/
def rrc (bn bd a b : Int) : Int :=
  if a = 0 then 2 ^ 14 * (bd - bn) / bd + 4 * bn * 2 ^ 54 / (bd * piFix)
  else
    let num := sinPi (a * (bd - bn)) (b * bd) + 4 * bn * a * cosPi (a * (bd + bn)) (b * bd) / (bd * b)
    num * b ^ 3 * bd ^ 2 * 2 ^ 14 / (piFix * a * (bd ^ 2 * b ^ 2 - 16 * bn ^ 2 * a ^ 2))

/-! Symbols. -/

/-- A bit's sign (R153). -/
def signOf (b : Bool) : Int := if b then -1 else 1
/-- BPSK and QPSK points (R153). -/
def bpsk (b : Bool) : Cx := (2 ^ 14 * signOf b, 0)
def qpsk (b0 b1 : Bool) : Cx := (11585 * signOf b0, 11585 * signOf b1)

/-- The index whose label i xor i/2 is the given one (R174). -/
def grayIndex (n v : Nat) : Nat := ((List.range n).find? fun k => k ^^^ (k / 2) == v).getD 0
/-- A point at a radius in 1/10,000 and an angle of pi a / b. -/
def polar (radius : Int) (a b : Int) : Cx := (radius * cosPi a b / (10000 * 2 ^ 26), radius * sinPi a b / (10000 * 2 ^ 26))

/-- The point of a Class A constellation, code 0 to 5, for its bits, the earlier first (R174). -/
def pointOf (m : Nat) (bs : List Bool) : Cx :=
  let ring := fun (k : Nat) (rs : List Int) (half : Int) =>
    let r := grayIndex (2 ^ k) (bitsNat (bs.take k))
    let i := grayIndex (2 ^ (bs.length - k)) (bitsNat (bs.drop k))
    polar (rs.getD r 0) (2 * i + r % 2) half
  if m = 0 then bpsk (bs.getD 0 false)
  else if m = 1 then qpsk (bs.getD 0 false) (bs.getD 1 false)
  else if m = 2 then polar 10000 (2 * grayIndex 8 (bitsNat bs) + 1) 8
  else if m = 3 then ring 1 [6868, 12362] 8
  else if m = 4 then ring 1 [7170, 12190] 16
  else ring 2 [5443, 8165, 10887, 13608] 16

/-- Every point of a constellation with its bits. -/
def pointsOf (m : Nat) : List (List Bool × Cx) := (List.range (2 ^ (m + 1))).map fun v => (natBits (m + 1) v, pointOf m (natBits (m + 1) v))

/-! PPDUs. -/

/-- Class T header fields (R156). -/
def tType (w : Word) : Nat := fieldOf w 47 45
def tPsf (w : Word) : Nat := fieldOf w 44 43
def tNb (w : Word) : Nat := 2 ^ fieldOf w 42 40
def tLift (w : Word) : Nat := fieldOf w 39 38
def tRate (w : Word) : Nat := fieldOf w 37 35
def tNcw (w : Word) : Nat := fieldOf w 34 29 + 1
def tTxp (w : Word) : Nat := fieldOf w 28 24
/-- The spreading factor of a control payload. -/
def psfChips (p : Nat) : Nat := if p = 1 then 127 else if p = 2 then 63 else 31
/-- Payload chips of a control PPDU (R158). -/
def tPayload (w : Word) : Nat := tNcw w * liftN (tLift w) / 2 * psfChips (tPsf w)
/-- Chips of a Class T PPDU before its payload (R155), and in all (R158, R161). -/
def tLead : Nat := 8391
def tChips (w : Word) : Nat := tLead + (if tType w = 1 then tNcw w * liftN (tLift w) / tNb w * 255 else tPayload w)
/-- Ticks that the chips of a Class T PPDU fill (R147). -/
def tTicks (w : Word) : Nat := (tChips w + 19) / 20

/-- A Class T header with its HCRC (R156): type, PSF, NCODE, LIFT, RATE, codewords, TXP. -/
def tHeader (ptype psf ncode lift rate ncw txp : Nat) : Word :=
  let w := fieldAt 47 45 ptype ||| fieldAt 44 43 psf ||| fieldAt 42 40 ncode ||| fieldAt 39 38 lift ||| fieldAt 37 35 rate
    ||| fieldAt 34 29 (ncw - 1) ||| fieldAt 28 24 txp
  w ||| fieldAt 15 0 (crc16 0xFFFF (natBits 32 (fieldOf w 47 16)))

/-- Class A header fields (R176). -/
def aMod (w : Word) : Nat := fieldOf w 49 47
def aSf (w : Word) : Nat := fieldOf w 46 44
def aLift (w : Word) : Nat := fieldOf w 43 42
def aRate (w : Word) : Nat := fieldOf w 41 39
def aNcw (w : Word) : Nat := fieldOf w 38 33 + 1
def aTrain (w : Word) : Bool := bitOf w 32
def aTxp (w : Word) : Nat := fieldOf w 31 27
/-- Bits per symbol of a constellation code (R174). -/
def modBits (m : Nat) : Nat := m + 1
/-- Symbols before the payload (R175), and the length of a PPDU in chips and ticks (R179). -/
def preSymbols (train : Bool) : Nat := if train then 250 else 100
def aChips (w : Word) : Nat :=
  2 ^ aSf w * (preSymbols (aTrain w) + (aNcw w * liftN (aLift w) + modBits (aMod w) - 1) / modBits (aMod w))
def aTicks (w : Word) : Nat := (aChips w + 49) / 50
/-- Ticks from chip 0 to the payload. -/
def aHeadTicks (w : Word) : Nat := 2 ^ aSf w * preSymbols (aTrain w) / 50

/-- A Class A header with its HCRC, seeded with the circuit (R176): constellation, SF code, LIFT, RATE, codewords, TRAIN, TXP. -/
def aHeader (c m sf lift rate ncw : Nat) (train : Bool) (txp : Nat) : Word :=
  let w := fieldAt 49 47 m ||| fieldAt 46 44 sf ||| fieldAt 43 42 lift ||| fieldAt 41 39 rate ||| fieldAt 38 33 (ncw - 1) ||| bitAt 32 train
    ||| fieldAt 31 27 txp
  w ||| fieldAt 15 0 (crc16 (0xFFFF ^^^ c) (natBits 34 (fieldOf w 49 16)))

/-- Its chips, and the ticks they fill. -/
def ppduChips (p : Ppdu) : Nat := if p.cls = 1 then tChips p.header else aChips p.header
def ppduTicks (p : Ppdu) : Nat := if p.cls = 1 then tTicks p.header else aTicks p.header

/-- A symbol value on the chip of a spreading sequence (R153). -/
def onChip (neg : Bool) (d : Cx) : Cx := cxScale (signOf neg) d

/-- Chip n of a Class T PPDU on circuit c (R151 to R155, R158, R159): each code channel of a beacon's payload carries 1/NB of the power. -/
def tChip (c : Nat) (p : Ppdu) (n : Nat) : Cx :=
  let bit := fun i => p.coded.getD i false
  if n < 2040 then onChip (chipNeg (baseSeq 255) c (n % 255)) (bpsk false)
  else if n < 2295 then onChip (chipNeg (baseSeq 255) c (n % 255)) (bpsk true)
  else if n < tLead then
    let k := (n - 2295) / 127
    onChip (chipNeg (baseSeq 127) c ((n - 2295) % 127)) (bpsk (bitOf p.header (47 - k)))
  else
    let m := n - tLead
    if tType p.header = 1 then
      let nb := tNb p.header
      let v := cxSum ((List.range nb).map fun i => onChip (chipNeg (beaconSeq i) c (m % 255)) (bpsk (bit (m / 255 * nb + i))))
      if nb = 16 then cxDiv v 4 else cxDiv (cxScale 5793 v) (2 ^ 14)
    else
      let sf := psfChips (tPsf p.header)
      let k := m / sf
      onChip (chipNeg (baseSeq sf) c (m % sf)) (qpsk (bit (2 * k)) (bit (2 * k + 1)))

/-- Symbol k of a Class A PPDU (R175, R176, R178). -/
def aSymbol (p : Ppdu) (k : Nat) : Cx :=
  let w := p.header
  let pre := preSymbols (aTrain w)
  if k < pre - 50 then bpsk false
  else if k < pre - 25 then bpsk true
  else if k < pre then
    let i := 2 * (k - (pre - 25))
    qpsk (bitOf w (49 - i)) (bitOf w (48 - i))
  else
    let m := modBits (aMod w)
    pointOf (aMod w) ((List.range m).map fun j => p.coded.getD ((k - pre) * m + j) false)

/-- The chip scrambler of a circuit (R172). -/
def zNeg (c n : Nat) : Bool := chipNeg (baseSeq 511) c (n % 511)
/-- Chip n of a Class A PPDU on circuit c (R172, R173). -/
def aChip (c : Nat) (p : Ppdu) (n : Nat) : Cx := onChip (zNeg c n) (aSymbol p (n / 2 ^ aSf p.header))

def chipAt (c : Nat) (p : Ppdu) (n : Nat) : Cx := if p.cls = 1 then tChip c p n else aChip c p n

/-! Waveforms, at 250 MS/s. -/

/-- Chips on each side of an instant whose pulses are summed. DESIGN CHOICE: the spec's pulse has no end. -/
def pulseSpan : Nat := 8

/-- The baseband signal at sample i after the nominal instant of chip 0, with 28 fraction bits (R148, R170): chips last r / q samples, and the
pulse has roll-off bn / bd. -/
def baseSignal (chip : Nat → Cx) (count : Nat) (r q bn bd : Nat) (i : Int) : Cx :=
  let mid := (i * q / r).toNat
  cxSum ((List.range (2 * pulseSpan + 1)).map fun k =>
    let n := mid + k - pulseSpan
    if pulseSpan ≤ mid + k ∧ n < count then cxScale (rrc bn bd (i * q - n * r) r) (chip n) else (0, 0))

/-- On a carrier of fn / fd turns a sample: the real part, with 28 fraction bits. -/
def onCarrier (x : Cx) (fn fd : Int) (i : Int) : Int := (x.1 * cosPi (2 * fn * i) fd - x.2 * sinPi (2 * fn * i) fd) / 2 ^ 40

/-- The waveform of a PPDU at sample i from sample 0 of its first frame (R148, R170), and the first sample past its last chip. -/
def ppduWave (c : Nat) (p : Ppdu) (i : Int) : Int :=
  let n := ppduChips p
  if p.cls = 1 then onCarrier (baseSignal (chipAt c p) n 25 2 1 5 i) 3 50 i
  else onCarrier (baseSignal (chipAt c p) n 5 1 1 10 i) 29 125 i

def ppduEnd (p : Ppdu) : Nat := if p.cls = 1 then (25 * ppduChips p + 1) / 2 else 5 * ppduChips p

/-- A shaping filter at one sample (R242, R244), its waveform advanced by the filter's 16 samples: taps 0 to 16 of 33. -/
def shapedAt (taps : Option (List Int)) (x : Int → Int) (i : Int) : Int :=
  match taps with
  | none => x i
  | some h => (List.range 33).foldl (fun a k => a + h.getD (min k (32 - k)) 0 * x (i + 16 - k)) 0 / 2 ^ 14

/-- The samples of a PPDU that go out (R244), shaped and advanced by `lead` samples: from 32 before sample 0 of its first frame to 32 after its last
chip's end. -/
def ppduSample (c : Nat) (taps : Option (List Int)) (lead : Int) (p : Ppdu) (i : Int) : Int :=
  if i < -32 ∨ (ppduEnd p : Int) + 32 ≤ i then 0 else shapedAt taps (ppduWave c p) (i + lead)

end Sys2Proof.Machine
end

