-- ==== Sys2Proof/Machine/RxSignal.lean ====
section
/-! DEFINITION. The receivers' arithmetic: correlation, despreading, the ranging fit, and the Class A equaliser with its cross filters
(spec/05_receive_front.md R124, R133 to R136, spec/06_class_t.md R163, R169, spec/07_class_a.md R184 to R189, spec/10 R256). -/
namespace Sys2Proof.Machine

/-- The factor, times 10^6, that brings the samples of a frame at gain step g to step 0 (R97, R130). -/
def gainScale (g : Nat) : Nat := rootOf (powerOf (960 - 8 * (g : Int)))
/-- A squared value of such samples as a mean square in 1/256 of a code. -/
def codesSq (v : Nat) : Nat := v * 256 / 10 ^ 12

/-! Streams: the values of each frame kept, by instant; zero where none is kept. -/

abbrev Stream := List (Nat × List Cx)
/-- Value i of a stream with n values a frame. -/
def streamAt (n : Nat) (st : Stream) (i : Nat) : Cx :=
  match st.find? fun e => e.1 == i / n with
  | some e => e.2.getD (i % n) (0, 0)
  | none => (0, 0)

/-- What a filter of two frames gives for each frame kept, newest first. -/
def overPast {α : Type} (f : List Int → List Int → α) : List PastTick → List (Nat × α)
  | [] => []
  | p :: ps => (p.at_, f (match ps with
      | q :: _ => if q.at_ + 1 = p.at_ then q.xs else []
      | [] => []) p.xs) :: overPast f ps
/-- Half chips of a class's band (R134, R185): 40 a tick for Class T, 100 for Class A. -/
def halfChips (cls : Nat) (past : List PastTick) : Stream := overPast (Config.baseband cls) past
def tAt (past : List PastTick) : Nat → Cx := let st := halfChips 1 past; fun i => streamAt 40 st i
def aAt (past : List PastTick) : Nat → Cx := let st := halfChips 2 past; fun i => streamAt 100 st i

/-! Erasures (R124, R126). -/

/-- Blanked samples among those from `a` on, before `b`; sample i of frame k is number 250 k + i. -/
def blankedIn (past : List PastTick) (a b : Nat) : Nat :=
  past.foldl (fun n p => n + (((p.mask.take (b - 250 * p.at_)).drop (a - 250 * p.at_)).filter (· == true)).length) 0
/-- A frame of the span is erased whole. -/
def deadIn (sel : PastTick → Bool) (past : List PastTick) (a b : Nat) : Bool :=
  past.any fun p => sel p && decide (a < 250 * (p.at_ + 1) ∧ 250 * p.at_ < b)
/-- A symbol's erasure: at least ERASE_FRAC, in eighths less one, of its samples blanked, or a sample in an erased tick (R124, R126). -/
def erased (frac : Nat) (sel : PastTick → Bool) (past : List PastTick) (a b : Nat) : Bool :=
  decide ((frac + 1) * (b - a) ≤ 8 * blankedIn past a b ∧ a < b) || deadIn sel past a b
/-- The first sample at or after half chip h of Class T (6.25 samples each) and of Class A (2.5). -/
def tSample (h : Nat) : Nat := (25 * h + 3) / 4
def aSample (h : Nat) : Nat := (5 * h + 1) / 2
/-- Mean square of the values of a span, blanked samples excluded (R127, R132): `sum` over `n` values of `total` samples, `gone` of them blanked. -/
def spanSq (sum n total gone : Nat) : Nat := codesSq (sum * total / (max n 1 * max (total - gone) 1))

/-! Soft decisions. -/

/-- 6 bits. -/
def clamp31 (x : Int) : Int := if x < -31 then -31 else if 31 < x then 31 else x
/-- The least of some distances. -/
def leastDist (v : Cx) (ps : List (List Bool × Cx)) : Nat := ps.foldl (fun m p => min m (cxSq (cxSub v p.2))) (2 ^ 80)
/-- The max-log LLRs of a symbol's bits (R185), positive for 0: by their points and the mean squared error. -/
def maxLog (cls : Nat) (ps : List (List Bool × Cx)) (mse : Nat) (v : Cx) : List Int :=
  (List.range ((ps.headD ([], (0, 0))).1.length)).map fun i =>
    let d := fun (b : Bool) => (leastDist v (ps.filter fun p => p.1.getD i false == b) : Int)
    clamp31 ((d true - d false) * Config.llrSteps cls / (max mse 1 : Nat))
/-- The point decided, with its bits. -/
def nearestPoint (ps : List (List Bool × Cx)) (v : Cx) : List Bool × Cx :=
  ps.foldl (fun b p => if cxSq (cxSub v p.2) < cxSq (cxSub v b.2) then p else b) (ps.headD ([], (0, 0)))

/-! Class T (R133, R135, R163, R169). -/

/-- A preamble found in a tick (R133 to R136, R139, R184): its level at the coupler in 1/16 dBuV, the tick's wideband level in 1/16 dBFS, its
place, its phase and amplitude, and for Class A the offset of chip 0 from its expected instant in ns. -/
structure Peak where
  level : Int := 0
  wide : Int := 0
  at_ : Nat := 0
  ref : Cx := (0, 0)
  arrival : Int := 0
deriving DecidableEq, Repr, Inhabited

/-- A correlation: its place, its value, its reference's energy and the samples'. -/
structure Corr where
  at_ : Nat := 0
  value : Cx := (0, 0)
  refSq : Nat := 0
  sumSq : Nat := 0
/-- Its normalised peak reaches a threshold in percent of the ideal one. -/
def reaches (pct : Nat) (k : Corr) : Bool := decide (pct * pct * k.refSq * k.sumSq ≤ 10000 * cxSq k.value ∧ 0 < k.sumSq * k.refSq)
/-- The carrier's phase and amplitude for each chip; its squared amplitude. -/
def corrRef (k : Corr) : Cx := cxDiv (cxScale (2 ^ 14) k.value) (max k.refSq 1 : Nat)
def stronger (a b : Corr) : Corr := if cxSq a.value < cxSq b.value then b else a

/-- The expected chips of a preamble period through the profile's notches, if it has any (R256). -/
def notchedRef (profile : Nat) (ref : List Cx) : List Cx := if profile = 1 ∨ profile = 2 then Config.notchRef profile ref else ref
def refT (profile c : Nat) : Array Cx :=
  (notchedRef profile ((List.range 255).map fun k => onChip (chipNeg (baseSeq 255) c k) (bpsk false))).toArray

/-- The correlation at code phase `ph` of `count` chips from half chip `a` on (R133, R135). -/
def corrT (y : Nat → Cx) (ref : Array Cx) (ph a count : Nat) : Corr :=
  let a := a + (a + ph) % 2
  (List.range count).foldl (fun k m =>
    let v := y (a + 2 * m)
    let r := ref.getD ((a + 2 * m + 510 - ph) / 2 % 255) (0, 0)
    { k with value := cxAdd k.value (cxMul v (cxConj r)), refSq := k.refSq + cxSq r, sumSq := k.sumSq + cxSq v }) { at_ := ph }
/-- The strongest of all 255 phases at half-chip resolution. -/
def searchT (y : Nat → Cx) (ref : Array Cx) (a count : Nat) : Corr :=
  (List.range 510).foldl (fun k ph => stronger k (corrT y ref ph a count)) {}
/-- The distance of two code phases in half chips. -/
def phaseGap (a b : Nat) : Nat := let d := (a + 510 - b % 510) % 510; min d (510 - d)

/-- The despread value, for each chip, of a symbol of a base sequence that begins at half chip `a`. -/
def despread (y : Nat → Cx) (c len a : Nat) : Cx :=
  cxDiv (cxSum ((List.range len).map fun m => onChip (chipNeg (baseSeq len) c m) (y (a + 2 * m)))) len
/-- The end of the last preamble symbol of a phase that frame k completes. -/
def symbolEnd (ph k : Nat) : Option Nat :=
  let e := 40 * (k + 1) - (40 * (k + 1) + 510 - ph % 510) % 510
  if 40 * k < e ∧ 510 ≤ e then some e else none
/-- Real part of x times the conjugate of y: its sign tells whether the carrier is reversed. -/
def along (x y : Cx) : Int := x.1 * y.1 + x.2 * y.2

/-- The reference of the ranging window (R163, R256): its 50 inverted chips on the carrier, 625 samples. -/
def rangeRef (profile c : Nat) : List Cx :=
  notchedRef profile ((List.range 625).map fun (i : Nat) =>
    let x := baseSignal (fun n => onChip (chipNeg (baseSeq 255) c n) (bpsk true)) 50 25 2 1 5 i
    cxDiv (cxMul x (cosPi (6 * (i : Int)) 50, sinPi (6 * (i : Int)) 50)) (2 ^ 54))

/-- The ranging peak (R163): from the sample at which the sync symbol is expected, the offset of the fitted peak in 1/64 sample; none where the
peak falls on either end of the search. -/
def rangePeak (band : Nat → Int) (ref : List Cx) (start : Nat) : Option Int :=
  let mag := fun (o : Nat) => rootOf (cxSq (cxSum ((List.range 625).map fun i => cxScale (band (start + o + i - 12)) (cxConj (ref.getD i (0, 0))))))
  let ys := (List.range 25).map mag
  let k := (List.range 25).foldl (fun b o => if ys.getD b 0 < ys.getD o 0 then o else b) 0
  if k = 0 ∨ k = 24 then none
  else
    let a : Int := ys.getD (k - 1) 0
    let b : Int := ys.getD k 0
    let d : Int := ys.getD (k + 1) 0
    some (64 * ((k : Int) - 12) + (if a - 2 * b + d = 0 then 0 else 32 * (a - d) / (a - 2 * b + d)))

/-! Class A (R184 to R189). -/

/-- The correlation of 25 preamble symbols of 2^sf chips from symbol k on, for a chip 0 at half chip `a`. -/
def corrA (y : Nat → Cx) (c sf k a : Nat) : Corr :=
  (List.range (25 * 2 ^ sf)).foldl (fun r m =>
    let n := k * 2 ^ sf + m
    let v := y (a + 2 * n)
    { r with value := cxAdd r.value (onChip (zNeg c n) (cxScale (2 ^ 14) v)), refSq := r.refSq + 2 ^ 28, sumSq := r.sumSq + cxSq v }) { at_ := a }
/-- The strongest of some timings whose window of the first 25 symbols ends in frame k. -/
def searchA (y : Nat → Cx) (c sf k : Nat) (allowed : Nat → Bool) : Corr :=
  (List.range 100).foldl (fun r i =>
    let e := 100 * k + i + 1
    if 50 * 2 ^ sf ≤ e ∧ allowed (e - 50 * 2 ^ sf) then stronger r (corrA y c sf 0 (e - 50 * 2 ^ sf)) else r) {}

/-- Taps as words (R185, R191): two taps a word, the earlier one in the upper half, I above Q. -/
def tapWords (ts : List Cx) : List Word :=
  (List.range 96).map fun i =>
    let a := ts.getD (2 * i) (0, 0)
    let b := ts.getD (2 * i + 1) (0, 0)
    fieldAt 63 48 (twosOf 16 a.1) ||| fieldAt 47 32 (twosOf 16 a.2) ||| fieldAt 31 16 (twosOf 16 b.1) ||| fieldAt 15 0 (twosOf 16 b.2)
def tapsOf (ws : List Word) : List Cx :=
  ws.flatMap fun w => [(signedOf 16 (fieldOf w 63 48), signedOf 16 (fieldOf w 47 32)), (signedOf 16 (fieldOf w 31 16), signedOf 16 (fieldOf w 15 0))]
/-- The taps without a snapshot (R187). -/
def defaultTaps : List Cx := (List.range 192).map fun i => if i = 16 then (2 ^ 14, 0) else (0, 0)

/-- 16 bits, saturating. -/
def sat16s (x : Int) : Int := if x < -32768 then -32768 else if 32767 < x then 32767 else x

/-- A value in the units of the carrier, with 14 fraction bits. -/
def perRef (ref v : Cx) : Cx := cxDiv (cxScale (2 ^ 14) (cxMul v (cxConj ref))) (max (cxSq ref) 1 : Nat)

/-- What a seat's filters read: its circuit's half chips and each neighbour's. -/
structure SeatIn where
  own : Nat → Cx
  nbrs : List (Nat → Cx) := []

/-- The 192 inputs for chip n of symbol k (R185, R188): the feed-forward window of 64 half chips whose tap 16 lies on the chip, the decided chips
at lags 1 to 32 but for those of the symbol being decided, and each neighbour's window of 24. -/
def chipInputs (inp : SeatIn) (c sf k n : Nat) (r : Receiver) : List Cx :=
  let s := 2 ^ sf
  let h := r.at_ + 2 * n
  (List.range 64).map (fun i => if i ≤ h + 16 then perRef r.ref (inp.own (h + 16 - i)) else (0, 0))
  ++ (List.range 32).map (fun j => if j + 1 ≤ n ∧ (n - (j + 1)) / s < k then
        cxScale (-1) (onChip (zNeg c (n - (j + 1))) (r.decided.getD (k - 1 - (n - (j + 1)) / s) (0, 0))) else (0, 0))
  ++ (List.range 4).flatMap fun q => match inp.nbrs[q]? with
      | some y => (List.range 24).map fun i => if i ≤ h + 12 then perRef r.ref (y (h + 12 - i)) else (0, 0)
      | none => List.replicate 24 (0, 0)

/-- Normalised LMS with a step of 2^-mu (R187): the error and the inputs in the units of the carrier. -/
def lms (mu : Nat) (err : Cx) (xs ts : List Cx) : List Cx :=
  let e := cxEnergy xs
  if e = 0 then ts
  else List.zipWith (fun t x =>
    let d := cxDiv (cxScale (2 ^ 14) (cxMul err (cxConj x))) (2 ^ mu * (e : Int))
    (sat16s (t.1 + d.1), sat16s (t.2 + d.2))) ts xs

/-- One symbol of 2^sf chips equalised, despread and decided among `ps` (R185 to R187): the receiver after it, and its despread value. -/
def equalise (inp : SeatIn) (c sf mu : Nat) (ps : List (List Bool × Cx)) (clean counted : Bool) (r : Receiver) : Receiver × Cx × List Bool :=
  let s := 2 ^ sf
  let ns := (List.range s).map (r.sym * s + ·)
  let ins := ns.map fun n => chipInputs inp c sf r.sym n r
  let outs := ins.map fun xs => cxDiv (cxSum (List.zipWith cxMul r.taps xs)) (2 ^ 14)
  let d := cxDiv (cxSum (List.zipWith (fun n e => onChip (zNeg c n) e) ns outs)) s
  let p := nearestPoint ps d
  let err := (List.zipWith (fun n e => cxSq (cxSub e (onChip (zNeg c n) p.2))) ns outs).foldl (· + ·) 0 / s
  let x := (List.range 192).map fun i => cxDiv (cxSum (List.zipWith (fun n xs => onChip (zNeg c n) (List.getD xs i (0, 0))) ns ins)) s
  ({ r with sym := r.sym + 1, decided := (p.2 :: r.decided).take 32
            taps := if clean then lms mu (cxSub p.2 d) x r.taps else r.taps
            errSum := if counted then r.errSum + err else r.errSum, powSum := if counted then r.powSum + cxSq p.2 else r.powSum
            count := if counted then r.count + 1 else r.count }, d, p.1)

/-- The mean squared error of a despread symbol so far (R185). -/
def symbolMse (sf : Nat) (r : Receiver) : Nat := r.errSum / (max r.count 1 * 2 ^ sf)
/-- EQ_SINR (R186) and the MSE for each chip (R191), in 1/16 dB. -/
def eqSinrOf (r : Receiver) : Int := ratio16 r.powSum r.errSum
def mseOf (r : Receiver) : Int := ratio16 r.errSum (max r.count 1 * 2 ^ 28)

/-- A symbol's span in samples. -/
def aSpan (sf k : Nat) (r : Receiver) : Nat × Nat := (aSample (r.at_ + 2 ^ (sf + 1) * k), aSample (r.at_ + 2 ^ (sf + 1) * (k + 1)))
/-- Symbol k has landed with frame `now`. -/
def landed (sf k now : Nat) (r : Receiver) : Bool := decide (r.at_ + 2 ^ (sf + 1) * (k + 1) ≤ 100 * (now + 1))

/-- The symbols before the payload, to symbol `stop`, that have landed (R175, R176, R187): preamble and sync word known, header decided; the
last despread preamble value's square goes with them. -/
def runLead (inp : SeatIn) (past : List PastTick) (frac c sf now stop : Nat) : Nat → Receiver → Nat → Receiver × Nat
  | 0, r, mag => (r, mag)
  | fuel + 1, r, mag =>
    if stop ≤ r.sym ∨ landed sf r.sym now r = false then (r, mag)
    else
      let pre := preSymbols r.train
      let span := aSpan sf r.sym r
      let dead := erased frac (·.deadA) past span.1 span.2
      let clean := !dead && blankedIn past span.1 span.2 == 0
      let head := decide (pre - 25 ≤ r.sym)
      let ps := if r.sym < pre - 50 then [([false], bpsk false)] else if head then pointsOf 1 else [([true], bpsk true)]
      let r0 := if r.sym = pre - 50 then { r with errSum := 0, powSum := 0, count := 0 } else r
      let e := equalise inp c sf (if head then 8 else 4) ps clean (decide (pre - 50 ≤ r.sym) && !dead) r0
      let r1 := if head then { e.1 with bits := r.bits ++ e.2.2 } else e.1
      let r1 := if r1.sym = pre - 25 then { r1 with mseSync := mseOf r1 } else r1
      runLead inp past frac c sf now stop fuel r1 (if r.sym < pre - 50 then cxSq e.2.1 else mag)

/-- The payload symbols that have landed (R185 to R187): soft bits, those of an erased symbol 0 (R124, R126). -/
def runPayload (inp : SeatIn) (past : List PastTick) (frac c sf now stop : Nat) (ps : List (List Bool × Cx)) : Nat → Receiver → List Int → Receiver × List Int
  | 0, r, out => (r, out)
  | fuel + 1, r, out =>
    if stop ≤ r.sym ∨ landed sf r.sym now r = false then (r, out)
    else
      let span := aSpan sf r.sym r
      let dead := erased frac (·.deadA) past span.1 span.2
      let clean := !dead && blankedIn past span.1 span.2 == 0
      let e := equalise inp c sf 8 ps clean (!dead) r
      let llr := maxLog 2 ps (symbolMse sf e.1) e.2.1
      runPayload inp past frac c sf now stop ps fuel e.1 (out ++ if dead then llr.map (fun _ => 0) else llr)

/-! Neighbours (R188, R189). -/

/-- A neighbour's half chips of a frame and of the part kept of the frame before, from its samples at the circuit's own instants: `shift` whole
samples, `tail` the last 64 of the frame before. -/
def nbrStream (now : Nat) (tail xs : List Int) (shift : Int) : Stream :=
  let all := tail ++ xs
  let get := fun (i : Int) => if i < 0 then 0 else all.getD i.toNat 0
  let cut := fun (a n : Nat) => (List.range n).map fun (i : Nat) => get ((a : Int) + i + shift)
  [(now, Config.baseband 2 (cut 0 64) (cut 64 250)), (now - 1, List.replicate 74 (0, 0) ++ (Config.baseband 2 [] (cut 0 64)).take 26)]

end Sys2Proof.Machine
end

