-- ==== Sys2Proof/Machine/FeedSignal.lean ====
section
/-! DEFINITION. The arithmetic of a Class D link: levels, symbols and pulses, echo cancelling and equalising, markers and the timing loop, precoding,
the training symbols and the coded stream (spec/08_class_d.md R197 to R214, spec/09 R231, spec/10 R258). -/
namespace Sys2Proof.Machine

/-- Symbols of a tick, markers included (R197, R200). -/
def perTick (fast : Bool) : Nat := if fast then 100 else 25

/-! Levels (R198, R201). -/

/-- Levels of a PAM setting, and its sigma with 14 fraction bits; training has the values of PAM-2. -/
def pamLevels (pam : Nat) : Nat := if pam = 3 then 8 else if pam = 2 then 4 else 2
def pamSigma (pam : Nat) : Int := if pam = 3 then 75080 else if pam = 2 then 36635 else 16384
/-- The value of level index k. -/
def pamValue (pam k : Nat) : Int := (2 * (k : Int) - (pamLevels pam - 1 : Nat)) * 2 ^ 28 / pamSigma pam
/-- A symbol's value from its bits. -/
def pamBits (pam : Nat) : Nat := if pam = 3 then 3 else if pam = 2 then 2 else 1
def pamSymbol (pam : Nat) (bs : List Bool) : Int := pamValue pam (grayIndex (pamLevels pam) (bitsNat bs))
/-- The values with their bits, as points. -/
def pamPoints (pam : Nat) : List (List Bool × Cx) :=
  (List.range (pamLevels pam)).map fun v => (natBits (pamBits pam) v, (pamSymbol pam (natBits (pamBits pam) v), 0))
/-- The outer level, and the marker of block k (R201). -/
def outerLevel (pam : Nat) : Int := pamValue pam (pamLevels pam - 1)
def markerValue (pam k : Nat) : Int := if markerNeg k then -outerLevel pam else outerLevel pam

/-! Training symbols (R210). -/

/-- Non-marker symbol p of a span on circuit c: its sequence alone, and with a word's bit. -/
def trainSeq (c p : Nat) : Bool := chipNeg (baseSeq 511) c p
def trainSymbol (c : Nat) (w : Word) (p : Nat) : Int := 2 ^ 14 * signOf (trainSeq c p != (decide (p < 64) && bitOf w (63 - p)))
/-- The non-marker symbols of a tick of a span. -/
def trainTick (fast : Bool) (c : Nat) (w : Word) (tick : Nat) : List Int :=
  (List.range (perTick fast - 1)).map fun i => trainSymbol c w (if fast then i else 24 * tick + i)
/-- Symbols of a tick, by place, that every training word leaves as they are: p = 64 to 98 at 100 MBd, and 64 to 71 in the third tick of a span. -/
def knownSymbols (fast : Bool) (c : Nat) : List (Nat × Int) :=
  (if fast then (List.range 35).map (· + 64) else (List.range 8).map (· + 64)).map fun p =>
    (if fast then p + 1 else p - 47, trainSymbol c 0 p)

/-! Precoding (R208). -/

/-- Reduced modulo 2M into [-M, M), in level units. -/
def thpFold (pam : Nat) (v : Int) : Int :=
  let m : Int := (pamLevels pam : Nat) * 2 ^ 28 / pamSigma pam
  (v + m) % (2 * m) - m
/-- Symbols through a precoder of 24 taps; `mem` its last outputs, newest first. -/
def precode (pam : Nat) (taps : List Int) : List Int → List Int → List Int × List Int
  | mem, [] => ([], mem)
  | mem, d :: ds =>
    let y := thpFold pam (d - (List.zipWith (· * ·) taps mem).foldl (· + ·) 0 / 2 ^ 14)
    let r := precode pam taps ((y :: mem).take 24) ds
    (y :: r.1, r.2)

/-! Waveform (R197, R200, R244). -/

/-- Sample i of a frame, before the shaping filter, from the symbols of the frame before, of its own and of the next, with 28 fraction bits: a symbol
lasts r / q samples. -/
def feedSample (fast : Bool) (prev cur next : Array Int) (i : Int) : Int :=
  let n : Int := perTick fast
  let mid := i * n / 250
  (List.range (2 * pulseSpan + 1)).foldl (fun a (k : Nat) =>
    let m := mid + k - pulseSpan
    let v := if m < 0 then prev.getD (m + n).toNat 0 else if m < n then cur.getD m.toNat 0 else next.getD (m - n).toNat 0
    a + v * rrc 1 1 (i * n - 250 * m) 250) 0

/-! The receiver (R203, R209). -/

/-- Inner product of taps and inputs, with 14 fraction bits. -/
def dot (ts xs : List Int) : Int := (List.zipWith (· * ·) ts xs).foldl (· + ·) 0 / 2 ^ 14
/-- Normalised LMS over several sets with one step of 2^-mu. -/
def energyOf (xs : List Int) : Nat := xs.foldl (fun a x => a + x.natAbs * x.natAbs) 0
def lmsReal (mu : Nat) (err : Int) (energy : Nat) (xs ts : List Int) : List Int :=
  if energy = 0 then ts else List.zipWith (fun t x => sat16s (t + err * x * 2 ^ 14 / (2 ^ mu * (energy : Int)))) ts xs

/-- Value q of the own symbols at two for each symbol, zeros between them: half symbol 0 of downstream frame j is number 2 n j. -/
def ownHalf (n : Nat) (own : List (Nat × List Int)) (q : Int) : Int :=
  if q < 0 ∨ q % 2 = 1 then 0
  else
    let m := q.toNat / 2
    ((own.find? fun e => e.1 == m / n).map fun e => e.2.getD (m % n) 0).getD 0
/-- The inputs of the echo canceller at a half symbol. -/
def echoInputs (n : Nat) (own : List (Nat × List Int)) (q : Int) : List Int := (List.range 192).map fun (i : Nat) => ownHalf n own (q - i)

/-- A tick's reception on a feed circuit: what has been gathered so far. -/
structure FeedRun where
  line : FeedLine
  /-- Soft bits and, for a marker completed, whether it is accepted. -/
  soft : List Int := []
  marker : Option Bool := none
  errSum : Nat := 0
  count : Nat := 0

/-- How the tick is received: symbols a tick, circuit, frame, the constellation in use, precoding bypass, adaptation allowed, the fraction of
`erased`, the frames kept, and the half symbols: `base` is the number of half symbol 0 of the frame on the own symbols' count,
`skew` how far the tags of ticks are ahead of instants. -/
structure FeedIn where
  n : Nat
  now : Nat
  pam : Nat
  data : Bool
  thp : Bool
  mu : Nat
  frac : Nat
  past : List PastTick
  base : Int
  skew : Int := 0

/-- One upstream symbol at half symbol h of the frame, whose feed-forward window has landed (R209): filters, decision, soft bits, update. `res` gives the
echo-cancelled half symbols, and `pos` is the symbol's place in its block. -/
def feedSymbol (i : FeedIn) (res : Int → Int) (pos : Nat) (block : Option Nat) (h : Int) (e : FeedRun) : FeedRun :=
  let t := e.line.now
  let xf := (List.range 48).map fun (k : Nat) => res (h + 12 - k)
  let xb := (List.range 24).map fun k => -(e.line.decided.getD k 0)
  let y0 := dot t.ff xf + (if i.thp then 0 else dot t.fb xb)
  let y := if i.thp then thpFold i.pam y0 else y0
  let a := (250 * (i.now : Int) + h * 125 / i.n).toNat
  let b := (250 * (i.now : Int) + (h + 2) * 125 / i.n).toNat
  let dead := erased i.frac (·.deadT) i.past a b
  let isMark := pos == 0
  let ps := pamPoints i.pam
  let expect := block.map fun k => markerValue i.pam k
  let right := match expect with
    | some v => decide ((0 < v) = (0 < y)) && decide (outerLevel i.pam ≤ 2 * y.natAbs)
    | none => false
  let d := if isMark then (if 0 < y then outerLevel i.pam else -outerLevel i.pam) else (nearestPoint ps (y, 0)).2.1
  let err := d - y
  let mse := if e.count = 0 then 2 ^ 20 else max (e.errSum / e.count) 1
  let llr := if isMark || !i.data then [] else if dead then List.replicate (pamBits i.pam) 0 else maxLog 3 ps mse (y, 0)
  let update := !dead && (!isMark || right)
  let xe := (List.range 192).map fun (k : Nat) =>
    -((List.range 48).foldl (fun s (j : Nat) => s + t.ff.getD j 0 * ownHalf i.n e.line.own (i.base + h + 12 - j - k)) 0 / 2 ^ 14)
  let en := energyOf xf + (if i.thp then 0 else energyOf xb) + energyOf xe
  let t2 : TapSet := if update then
      { t with ff := lmsReal i.mu err en xf t.ff, fb := if i.thp then t.fb else lmsReal i.mu err en xb t.fb, ec := lmsReal i.mu err en xe t.ec }
    else t
  let signs := if isMark then (decide (y < 0) :: e.line.signs).take 8 else e.line.signs
  { line := { e.line with now := t2, decided := (d :: e.line.decided).take 24, signs := signs }
    soft := e.soft ++ llr, marker := if isMark then some right else e.marker
    errSum := if dead then e.errSum else e.errSum + err.natAbs * err.natAbs, count := if dead then e.count else e.count + 1 }

/-- The symbols of a frame whose window has landed: those of half symbols -12 to 2 n - 13. -/
def feedSymbols (i : FeedIn) (res : Int → Int) (mark : Nat) (lag : Option Nat) (e : FeedRun) : FeedRun :=
  (List.range (2 * i.n)).foldl (fun e (k : Nat) =>
    let h : Int := (k : Int) - 12
    let off := h - mark
    if off % 2 ≠ 0 then e
    else
      let q := off / 2
      let pos := (q % (i.n : Int)).toNat
      let frame := (i.now : Int) + q / (i.n : Int)
      feedSymbol i res pos (lag.map fun l => (frame - l + i.skew).toNat) h e) e

/-- Where upstream markers come: the half symbol of a frame at which the known symbols fit best; none below half of the ideal. `res` reaches back over
the frame before. -/
def findMark (fast : Bool) (c : Nat) (res : Int → Int) : Option Nat :=
  let n := perTick fast
  let ks := knownSymbols fast c
  let score := fun (m : Nat) =>
    let vs := ks.map fun k => (k.2, res ((m : Int) + 2 * k.1 - 2 * n))
    let dotp := (vs.foldl (fun a v => a + v.1 * v.2) 0 : Int)
    (dotp.natAbs * dotp.natAbs, vs.foldl (fun a v => a + v.2.natAbs * v.2.natAbs) 0 * (ks.length * 2 ^ 28))
  let best := (List.range (2 * n)).foldl (fun b m => if (score b).1 < (score m).1 then m else b) 0
  let s := score best
  if 0 < s.2 ∧ s.2 ≤ 4 * s.1 then some best else none
/-- How many ticks the marker numbers lie behind the frames': the one lag, up to 63 ticks, that gives the last 8 signs (R201, R202). -/
def findLag (now : Nat) (signs : List Bool) : Option Nat :=
  if signs.length < 8 then none
  else (List.range 64).find? fun l => (List.range 8).all fun i => decide (l + i ≤ now) && markerNeg (now - l - i) == signs.getD i false

/-- The tap-energy centroid of the feed-forward filter from its cursor, in 1/64 symbol (R203). -/
def centroid (ff : List Int) : Int :=
  let sq := ff.map fun w => (w.natAbs * w.natAbs : Int)
  let sum := sq.foldl (· + ·) 0
  if sum = 0 then 0 else 32 * ((List.range 48).foldl (fun a (i : Nat) => a + ((i : Int) - 12) * sq.getD i 0) 0) / sum
/-- The timing loop: one step of 1/64 symbol toward the cursor. -/
def steer (t : TapSet) : TapSet :=
  let z := centroid t.ff
  { t with phase := if 1 < z then t.phase + 1 else if z < -1 then t.phase - 1 else t.phase }

/-- A tap set has drifted (R214): its squared distance from the trained one exceeds a quarter of that one's energy. -/
def driftedFrom (a b : List Int) : Bool := decide (energyOf b < 4 * energyOf (List.zipWith (· - ·) a b))
def tapsDrifted (a b : TapSet) : Bool := driftedFrom a.ec b.ec || driftedFrom a.ff b.ff || driftedFrom a.fb b.fb

/-! The coded stream down (R204, R205, R207, R231). -/

/-- A block's information bytes: header and up to K / 8 - 2 bytes of a frame, zero filled; an idle block has none. -/
def blockBytes (cap : Nat) (xp : Bool) (d : DownFrame) : List Byte × Option DownFrame :=
  let part := d.bytes.take cap
  let rest := d.bytes.drop cap
  let head := 32768 + (if xp then 16384 else 0) + (if d.first then 8192 else 0) + (if rest.isEmpty then 4096 else 0) + part.length
  (BitVec.ofNat 8 (head / 256) :: BitVec.ofNat 8 head :: part, if rest.isEmpty then none else some { bytes := rest, first := false })

/-- The next block in the order of R207: the open express frame, a new one, the open normal frame, a new one, an idle block. -/
def nextBlock (cap : Nat) (l : FeedLine) : List Byte × FeedLine :=
  match l.downX, l.queueX, l.downN, l.queueC, l.queueN with
  | some d, _, _, _, _ => let b := blockBytes cap true d; (b.1, { l with downX := b.2 })
  | none, f :: fs, _, _, _ => let b := blockBytes cap true { bytes := f }; (b.1, { l with downX := b.2, queueX := fs })
  | none, [], some d, _, _ => let b := blockBytes cap false d; (b.1, { l with downN := b.2 })
  | none, [], none, f :: fs, _ => let b := blockBytes cap false { bytes := f }; (b.1, { l with downN := b.2, queueC := fs })
  | none, [], none, [], f :: fs => let b := blockBytes cap false { bytes := f }; (b.1, { l with downN := b.2, queueN := fs })
  | none, [], none, [], [] => ([], l)

/-- The line sequence (R204): the seeds of the two directions, a step of the register. -/
def lineSeedOf (up : Bool) (c : Nat) : Nat := (if up then 2 ^ 57 else 0) + (2 ^ 57 - 2 ^ 10) + c % 1024
def lineStep (r : Nat) : Nat × Bool :=
  let u := (r / 2 ^ 57 + r / 2 ^ 38) % 2
  (r * 2 % 2 ^ 58 + u, u == 1)

/-- Coded bits through the interleaver, branch after branch from bit `n` on, and the line sequence (R204 steps 2 and 3): `mem` the last bits in,
newest first. -/
def sendBits (d : Nat) : List Bool → Nat → Nat → List Bool → List Bool × Nat × List Bool
  | [], _, r, mem => ([], r, mem)
  | b :: bs, n, r, mem =>
    let mem := b :: mem
    let x := mem.getD (16 * (n % 16 * d)) false
    let u := lineStep r
    let t := sendBits d bs (n + 1) u.1 mem
    ((x != u.2) :: t.1, t.2)

/-- Bits for a tick's data symbols: blocks are begun until there are `want` of them. -/
def fillBits (c lift rate d want : Nat) : Nat → FeedLine → FeedLine
  | 0, l => l
  | fuel + 1, l =>
    if want ≤ l.bits.length then l
    else
      let k := infoBits lift rate
      let b := nextBlock (k / 8 - 2) l
      let info := (b.1.flatMap bitsBE ++ List.replicate k false).take k
      let coded := ldpcEncode lift rate (scramble c l.block info)
      let o := sendBits d coded (l.block * liftN lift) l.reg l.inter
      fillBits c lift rate d want fuel { b.2 with
        bits := l.bits ++ o.1, reg := o.2.1, inter := o.2.2.take (240 * d + 1), block := l.block + 1 }

end Sys2Proof.Machine
end

