-- ==== Sys2Proof/Machine/Operands.lean ====
section
/-! DEFINITION. The parameter forms of the mailbox commands (spec/15_mailboxes_firmware.md R384, R386, R387), the reply a command forms and its
completion (R378, R380, R385), and the checks every command passes first (R387, R400, R465). -/
namespace Sys2Proof.Machine

/-- Status codes (R386). -/
def stOk : Nat := 0x00
def stBusy : Nat := 0x01
def stCancelled : Nat := 0x02
def stTimeout : Nat := 0x03
def stUnknown : Nat := 0x04
def stOwner : Nat := 0x05
def stParam : Nat := 0x06
def stRange : Nat := 0x07
def stResource : Nat := 0x08
def stState : Nat := 0x09
def stNoEndpoint : Nat := 0x0A
def stWorn : Nat := 0x20

/-- What a command answers at its commit point: status, DETAIL, result words, and the state its effects leave. -/
structure Reply where
  status : Nat := 0
  detail : Nat := 0
  words : List Word := []
  after : State

/-- A command that completes OK. -/
def okay (ws : List Word) (t : State) : Reply := { words := ws, after := t }
/-- A command refused without effect. -/
def refuse (status detail : Nat) (s : State) : Reply := { status := status, detail := detail, after := s }

/-- A parameter word of the mailbox. -/
def prm (b : Mailbox) (i : Nat) : Word := tabGet 0 b.data i
def prmN (b : Mailbox) (i : Nat) : Nat := (prm b i).toNat
/-- Consecutive parameter words. -/
def prms (b : Mailbox) (i n : Nat) : List Word := (List.range n).map fun j => prm b (i + j)

/-- Checks in order: a condition, the status and the DETAIL of its failure. The first failure decides. -/
def firstFail : List (Bool × Nat × Nat) → Option (Nat × Nat)
  | [] => none
  | (ok, st, d) :: r => if ok then firstFail r else some (st, d)

/-- A reply formed once the checks in order pass. -/
def checked (cs : List (Bool × Nat × Nat)) (s : State) (r : Reply) : Reply :=
  match firstFail cs with
  | some (st, d) => refuse st d s
  | none => r

/-- The status of a scalar out of its range (R384, R386): REFUSED_PARAM where a bit above those that its largest value `hi` needs is set, for these
are reserved (R7), else REFUSED_RANGE. DESIGN CHOICE: the spec does not give a scalar's number of bits; the model takes the least that hold it. -/
def scalarStatus (hi v : Nat) : Nat := if v < 2 ^ (Nat.log2 hi + 1) then stRange else stParam

/-- A scalar of which `ok` says whether the command takes it, at its word (R384, R386). -/
def scalarIs (b : Mailbox) (i hi : Nat) (ok : Nat → Bool) : Bool × Nat × Nat := (ok (prmN b i), scalarStatus hi (prmN b i), i)

/-- A scalar within a range (R386). -/
def inRange (b : Mailbox) (i lo hi : Nat) : Bool × Nat × Nat := scalarIs b i hi fun v => decide (lo ≤ v ∧ v ≤ hi)

/-- The DETAIL of a wrong PARAM_WORDS: the first word missing or in excess (R378). -/
def wordsDetail (words : Nat → Bool) (n : Nat) : Nat := ((List.range n).reverse.find? words).getD n

/-- PARAM_WORDS is the number that the parameters call for. -/
def countIs (b : Mailbox) (n : Nat) : Bool × Nat × Nat := (b.paramWords == n, stParam, min b.paramWords n)

/-- A PSET word (R384): its reserved bits, and the ports it names in ascending order. -/
def psetOk (b : Mailbox) (i : Nat) : Bool × Nat × Nat := (decide (prmN b i < 2 ^ 36), stParam, i)
def portsOf (w : Word) : List Nat := (List.range 36).filter fun p => bitOf w p
/-- Every port of the set exists on the variant (R3). -/
def psetExists (s : State) (b : Mailbox) (i : Nat) : Bool × Nat × Nat := ((portsOf (prm b i)).all (portExists s), stResource, 0)

/-- The circuits of a CSET of 12 words from word `i`, ascending (R384). -/
def circuitsOf (b : Mailbox) (i : Nat) : List Nat := (List.range 768).filter fun c => bitOf (prm b (i + c / 64)) (c % 64)

/-- A circuit is available to a command: the variant has it (R3) and its channel is carried at the port's generation (R14). -/
def circuitAvailable (s : State) (c : Nat) : Bool :=
  circuitExists s c && channelCarried s c

/-- Every circuit of a CSET is available. -/
def csetExists (s : State) (b : Mailbox) (i : Nat) : Bool × Nat × Nat := ((circuitsOf b i).all (circuitAvailable s), stResource, 0)

/-- An EP word (R384): reserved bits, circuit and address. -/
def epOk (b : Mailbox) (i : Nat) : Bool × Nat × Nat := (decide (prmN b i < 2 ^ 22), stParam, i)
def epCircuit (w : Word) : Nat := fieldOf w 21 12
def epAddr (w : Word) : Nat := fieldOf w 11 0
def epWord (c a : Nat) : Word := fieldAt 21 12 c ||| fieldAt 11 0 a

/-- An SF word (R384). -/
def sfOk (b : Mailbox) (i : Nat) : Bool × Nat × Nat := (decide (prmN b i < 2 ^ 40), stParam, i)

/-- The rows a SETTINGS mask selects, ascending (R384). -/
def maskRows (w : Word) (n : Nat) : List Nat := (List.range n).filter fun r => bitOf w r

/-- The value of row `r` in a SETTINGS parameter at word `i`, as a signed integer; none where the mask leaves it out (R384). -/
def settingOf (b : Mailbox) (i n r : Nat) : Option Int :=
  if r < n ∧ bitOf (prm b i) r = true then some (intOf (prm b (i + 1 + (maskRows (prm b i) r).length))) else none

/-- The checks of a SETTINGS parameter with the ranges of its rows (R384): no bit beyond the table, one value word for each
selected row, each within its range. -/
def settingsOk (b : Mailbox) (i : Nat) (rows : List (Int × Int)) : List (Bool × Nat × Nat) :=
  let n := rows.length
  (decide (prmN b i < 2 ^ n), stParam, i)
  :: countIs b (i + 1 + (maskRows (prm b i) n).length)
  :: ((List.range n).filterMap fun r =>
        match settingOf b i n r with
        | none => none
        | some v =>
          some (decide ((rows.getD r (0, 0)).1 ≤ v ∧ v ≤ (rows.getD r (0, 0)).2), stRange, i + 1 + (maskRows (prm b i) r).length))

/-- A setting's new value where it was selected. -/
def pick {α : Type} (o : Option Int) (f : Int → α) (old : α) : α :=
  match o with
  | some v => f v
  | none => old

/-- Owner codes of the command tables (R387): 0 any of 0 to 27, 1 host, 2 baseboard. -/
def ownerOk (owner m : Nat) : Bool :=
  if owner = 0 then decide (m < 28) else if owner = 1 then decide (m < 24) else decide (24 ≤ m ∧ m < 28)

/-- Opcodes the ROM loader serves (R400). -/
def romServes (op : Nat) : Bool := [0x0101, 0x0104, 0x0701, 0x0702, 0x0703, 0x0704].contains op

/-- Commands a standby device refuses with REFUSED_STATE (R465): those that change plans, circuits, endpoints, keys, the region
profile, superframe, time or link settings. -/
def standbyRefuses (op : Nat) : Bool :=
  [0x0120, 0x0122, 0x0201, 0x0230, 0x0233, 0x0235, 0x0237, 0x0239, 0x023B, 0x023D, 0x023E, 0x023F, 0x0244,
   0x0301, 0x0302, 0x0303, 0x0305, 0x0403, 0x0404, 0x0405, 0x0407, 0x0408, 0x0502, 0x0503, 0x0504, 0x0505,
   0x0508, 0x050A, 0x0602, 0x0603, 0x0604].contains op

/-- A result longer than 120 words goes to the near store at an offset the firmware picks (free); its inline result is the
offset and the length in bytes (R385). -/
def nearResult (m : Nat) (ws : List Word) (s : State) : List Word × State :=
  let f := drawFree s
  let off := f.1.toNat % 8388608 * 8
  ([BitVec.ofNat 64 off, BitVec.ofNat 64 (8 * ws.length)],
   { f.2 with mb := { f.2.mb with results := tabPut (0, []) f.2.mb.results m (off, ws) }
              mem := { f.2.mem with near := memWriteWords f.2.mem.near off ws } })

/-- A command's completion (R378, R380, R385). A result for the near store is refused without effect where D28 is not ENABLED. -/
def complete (m : Nat) (s : State) (r : Reply) : State :=
  if 120 < r.words.length then
    if domOn s 28 then
      let n := nearResult m r.words r.after
      finish m r.status r.detail n.1 n.2
    else finish m stResource 0 [] s
  else finish m r.status r.detail r.words r.after

/-- The checks that come before a command's own (R387, R400, R465): the ROM loader's set, the owner, PARAM_WORDS and a standby's refusals. -/
abbrev gate (op owner : Nat) (words : Nat → Bool) (m : Nat) (s : State) (b : Mailbox) : List (Bool × Nat × Nat) :=
  [(!(romLoader s && !romServes op), stState, 0), (ownerOk owner m, stOwner, 0), (words b.paramWords, stParam, wordsDetail words b.paramWords),
   (!(s.pair.role == .standby && standbyRefuses op), stState, 0)]

/-- A mailbox command: due only in mailbox m while it is RUNNING with the command's opcode. The ROM loader's set (R400), the owner
(R387), PARAM_WORDS and a standby's refusals (R465) are checked in that order, then the command's own checks and effect. -/
def mailboxCommand (op owner : Nat) (words : Nat → Bool) (m : Nat) (s : State) (body : Mailbox → Reply) : Result :=
  let b := boxOf s m
  onObject (m < 28) s
    (if b.st ≠ .running ∨ b.opcode ≠ op then s
     else complete m s
       (checked (gate op owner words m s b) s (body b)))

/-- A change word's kind and fields (R390). -/
def chgKind (w : Word) : Nat := fieldOf w 63 60
def chgGroup (w : Word) : Nat := fieldOf w 59 56
def chgCap (w : Word) : Nat := fieldOf w 55 53
def chgSeats (w : Word) : Nat := fieldOf w 52 45
/-- Reserved kinds and bits (R7, R390). -/
def changeEncoded (w : Word) : Bool :=
  if 1 ≤ chgKind w ∧ chgKind w ≤ 3 then fieldOf w 3 0 == 0
  else if chgKind w = 4 ∨ chgKind w = 5 then fieldOf w 44 0 == 0
  else if chgKind w = 6 then fieldOf w 29 0 == 0
  else false

/-- The near store is there (R445). -/
def nearOn (s : State) : Bool × Nat × Nat := (domOn s 28, stResource, 0)

/-- The own checks of `plan.load`, `plan.edit` and `circuit.set_class` that come before admission (R58, R389, R390, R508). -/
def loadChecks (s : State) : List (Bool × Nat × Nat) := [nearOn s, (s.plan.stage != .armed, stBusy, 0)]
def editChecks (b : Mailbox) (s : State) : List (Bool × Nat × Nat) :=
  let ws := prms b 1 (b.paramWords - 1)
  [inRange b 0 1 112, countIs b (prmN b 0 + 1)]
    ++ ((List.range ws.length).map fun i => (changeEncoded (ws.getD i 0), stParam, i + 1))
    ++ [nearOn s, (s.plan.stage != .armed, stBusy, 0)]
def classChecks (b : Mailbox) (s : State) : List (Bool × Nat × Nat) :=
  [inRange b 0 0 767, inRange b 1 0 3, sfOk b 2, (circuitAvailable s (prmN b 0), stResource, 0), (counting s, stState, 0),
   (s.plan.stage != .armed, stBusy, 0)]

/-- The parameter counts of the three. -/
def noWords (n : Nat) : Bool := n == 0
def exactly (k n : Nat) : Bool := n == k
def editWords (n : Nat) : Bool := decide (2 ≤ n ∧ n ≤ 113)

/-- The staged slot is ADMITTING (R58): a mailbox is RUNNING a command that submits an image, its checks before admission passing. The slot's
contents are kept until the commit point, for a CANCEL or TIMEOUT before it has no effect (R380, R382). -/
def admitting (s : State) : Bool :=
  (List.range 28).any fun m =>
    let b := boxOf s m
    let on := fun (op : Nat) (words : Nat → Bool) (cs : List (Bool × Nat × Nat)) =>
      b.opcode == op && (firstFail (gate op 0 words m s b)).isNone && (firstFail cs).isNone
    b.st == .running && (on 0x0301 noWords (loadChecks s) || on 0x0305 editWords (editChecks b s) || on 0x0201 (exactly 3) (classChecks b s))

/-- Two 32-bit counters in a word, the first in [63:32] (R385). -/
def twoCounts (a b : Nat) : Word := fieldAt 63 32 a ||| fieldAt 31 0 b

/-- Counters two to a word (R385). -/
def packCounts : List Nat → List Word
  | [] => []
  | [a] => [twoCounts a 0]
  | a :: b :: r => twoCounts a b :: packCounts r

/-- A device-wide setting of command `op` changes: WORN without effect where its word is worn, else the word is queued (R386, R439). -/
def storeSetting (op : Nat) (vs : List Int) (s t : State) : Reply :=
  if worn s (settingWordOf op) then refuse stWorn 0 s
  else okay [] (mpHold (settingWordOf op) op vs t)

end Sys2Proof.Machine
end

