-- ==== Sys2Proof/Machine/Admission.lean ====
section
/-! DEFINITION. Plan admission, activation and spare substitution (spec/02_tick_and_plan.md R46 to R62, spec/01_architecture.md R24, R25,
R28, spec/19_power_ageing.md R455). -/
namespace Sys2Proof.Machine

/-- The cost of a function in cycles (R46); none for a reserved code. -/
def funcCost (f cap : Nat) : Option Nat :=
  if f = 1 then some 1150 else if f = 2 then some 160 else if f = 3 then some 900 else if f = 4 then some 60
  else if f = 5 then some (1400 + 300 * cap) else if f = 6 then some 180 else if f = 7 then some 2400
  else if f = 8 then some 40 else none

/-- The refusal of an image: status, failing record, active cluster, demand (R57). -/
structure PlanRefusal where
  status : Nat
  record : Nat := 0xFFFFFFFF
  active : Option Nat := none
  demand : Option Nat := none

/-- The three refusal words (R57, R390); items that do not exist for the failure are left open. DESIGN CHOICE: a failure that no record causes, of
the granary's bandwidth (step 10) or of the planner itself, has the index 0xFFFF_FFFF that R57 gives for the header and the digest. -/
def refusalWords (r : PlanRefusal) : List Word :=
  [BitVec.ofNat 64 r.record,
   match r.active with
   | some a => BitVec.ofNat 64 a
   | none => BitVec.ofInt 64 (Config.derived 57 [r.status, r.record, 0]),
   match r.demand with
   | some d => BitVec.ofNat 64 d
   | none => BitVec.ofInt 64 (Config.derived 57 [r.status, r.record, 1])]

/-- The active cluster a record names. -/
def recActive (w : Word) : Option Nat :=
  if recType w = 1 then some (mapActive w) else if recType w = 2 then some (placeActive w)
  else if recType w = 3 then some (routeActive w) else none

/-- The first record, in image order, for which a check fails. -/
def firstBad (f : Nat → Word → Bool) : Nat → List Word → Option (Nat × Word)
  | _, [] => none
  | i, w :: ws => if f i w then firstBad f (i + 1) ws else some (i, w)

/-- A check of every record. -/
def eachRecord (status : Nat) (img : List Word) (f : Nat → Word → Bool) : Option PlanRefusal :=
  match firstBad f 0 (records img) with
  | none => none
  | some (i, w) => some { status := status, record := i, active := recActive w }

/-- Encodings and reserved bits of one record (R54, R7). -/
def recEncoded (w : Word) : Bool :=
  if recType w = 1 then fieldOf w 42 0 == 0 && decide (mapPhysical w ≤ 271)
  else if recType w = 2 then
    fieldOf w 10 0 == 0 && decide (1 ≤ placeFunc w ∧ placeFunc w ≤ 8 ∧ placeOffset w ≤ 2903)
    && (if placeFunc w = 3 ∨ placeFunc w = 5 then placeCircuit w == 0x3FF else decide (placeCircuit w < 768))
  else if recType w = 3 then fieldOf w 30 0 == 0 && decide (routeSlot w ≤ 4 ∧ routeCircuit w < 768)
  else if recType w = 4 then
    fieldOf w 3 0 == 0 && decide (circCircuit w < 768) && (circMode w == 1 || circMode w == 2) && decide (circNbrCount w ≤ 4)
    && (circNbrs w).all (fun n => decide (n < 768))
    && ([fieldOf w 43 34, fieldOf w 33 24, fieldOf w 23 14, fieldOf w 13 4].drop (circNbrCount w)).all (· == 0)
  else if recType w = 5 then fieldOf w 29 0 == 0 && decide (spanCircuit w < 768)
  else false

/-- The key that makes a record unique, and the order of PLACE records (R54). -/
def recKey (w : Word) : Nat :=
  if recType w = 1 then mapActive w else if recType w = 3 then routeCircuit w * 8 + routeSlot w
  else if recType w = 4 then circCircuit w else spanCircuit w
def placeOrder (w : Word) : Nat := placeActive w * 4096 + placeOffset w

/-- Order and uniqueness of a record against those before it (R54). DESIGN CHOICE: two PLACE records of one cluster with the same offset are in
order, "ascending" being read as never descending; step 7 then finds their overlap. -/
def recOrdered (before : List Word) (w : Word) : Bool :=
  before.all fun v =>
    decide (recType v ≤ recType w)
    && (recType v != recType w
        || (if recType w = 2 then decide (placeOrder v ≤ placeOrder w) else recKey v != recKey w))

/-- Step 1 for the header (R53, R1, R7). -/
def headerOk (s : State) (img : List Word) : Bool :=
  fieldOf (hdr img 0) 63 32 == 0x53484546 && fieldOf (hdr img 0) 31 16 == 4 && fieldOf (hdr img 0) 15 0 == 0
  && planId img != 0 && decide (1 ≤ fieldOf (hdr img 1) 31 16 ∧ fieldOf (hdr img 1) 31 16 ≤ 16384) && fieldOf (hdr img 1) 15 0 == 0
  && fieldOf (hdr img 2) 63 48 == 0x8800 && decide (fieldOf (hdr img 2) 47 40 ≤ fieldOf (keepWord s 1) 22 15)
  && fieldOf (hdr img 2) 39 32 == (if isH s then 2 else 1)
  && decide (fieldOf (hdr img 2) 31 16 ≤ (runningImage s).release) && fieldOf (hdr img 2) 15 0 == 0
  && (fieldOf (hdr img 3) 63 62 == 1 || fieldOf (hdr img 3) 63 62 == 2) && fieldOf (hdr img 3) 61 48 == 0
  && hdr img 5 == 0 && hdr img 6 == 0 && hdr img 7 == 0

/-- Step 1. -/
def step1 (s : State) (img : List Word) : Option PlanRefusal :=
  if !headerOk s img then some { status := 0x10 }
  else eachRecord 0x10 img fun i w => recEncoded w && recOrdered ((records img).take i) w

/-- The digest of an image (R56): its words after the last record against the hash of all before them. -/
def digestOk (img : List Word) : Bool :=
  let n := 8 + fieldOf (hdr img 1) 31 16
  (img.drop n).take 6 == sha384 (wordsBytes (img.take n))

/-- Seats, shared-mode and feed-mode circuits of an image. -/
def seatsOf (img : List Word) : List Word := (ofType 2 img).filter fun w => placeFunc w == 5
def sharedOf (img : List Word) : List Word := (ofType 4 img).filter fun w => circMode w == 1
def feedsOf (img : List Word) : List Word := (ofType 4 img).filter fun w => circMode w == 2

/-- Step 3. -/
def countsOk (img : List Word) : Bool :=
  fieldOf (hdr img 3) 47 32 == (seatsOf img).length && fieldOf (hdr img 3) 31 16 == (sharedOf img).length
  && fieldOf (hdr img 3) 15 0 == (feedsOf img).length

/-- Step 4 (R3, R57, R61): cluster maps; a group with too few healthy spares fails at its first mapped retired cluster. -/
def step4 (s : State) (img : List Word) : Option PlanRefusal :=
  let maps := ofType 1 img
  let spareOk := fun (w : Word) =>
    let g := mapPhysical w / 17
    let mapped := (maps.map mapPhysical).filter fun c => c / 17 == g
    let bad := mapped.filter s.plan.retired.contains
    let spare := ((List.range 17).map (17 * g + ·)).filter fun c => !mapped.contains c && !s.plan.retired.contains c
    !s.plan.retired.contains (mapPhysical w) || decide (bad.length ≤ spare.length)
  match eachRecord 0x08 img fun i w =>
      recType w != 1
      || (mapPhysical w / 17 == mapActive w / 16 && clusterExists s (mapPhysical w) && domOn s (12 + mapPhysical w / 17)
          && ((records img).take i).all fun v => recType v != 1 || mapPhysical v != mapPhysical w) with
  | some r => some r
  | none =>
    match eachRecord 0x08 img fun _ w => recType w != 1 || spareOk w with
    | some r => some r
    | none => eachRecord 0x08 img fun _ w =>
        if recType w = 2 then (maps.map mapActive).contains (placeActive w)
        else if recType w = 3 then (maps.map mapActive).contains (routeActive w) else true

/-- The generation that step 5 judges a port by (R57): the one at which it carries tick frames, else its GEN_MAX. -/
def planGen (s : State) (p : Nat) : Nat :=
  let x := portOf s p
  if x.state = .active ∨ x.state = .standby then x.gen else x.genMax

/-- Step 5 (R3, R14, R57, R71). -/
def step5 (s : State) (img : List Word) : Option PlanRefusal :=
  eachRecord 0x08 img fun _ w =>
    let c := circCircuit w
    let g := planGen s (c / 24)
    recType w != 4
    || (portExists s (c / 24) && (g == 3 || (g == 2 && decide (c % 24 < 12)))
        && decide (circNbrs w).Nodup && !(circNbrs w).contains c
        && (circNbrs w).all (fun n => n / 48 == c / 48 && (circuitRec img n).isSome)
        && (circMode w != 2 || (!circClassA w && circNbrCount w == 0)))

/-- The placements of a circuit with a function among `fs`. -/
def placesOf (img : List Word) (c : Nat) (fs : List Nat) : List Word :=
  (ofType 2 img).filter fun w => placeCircuit w == c && fs.contains (placeFunc w)
/-- The active index of a circuit's SLOT 0 route. -/
def slotZero (img : List Word) (c : Nat) : Option Nat :=
  ((ofType 3 img).find? fun w => routeCircuit w == c && routeSlot w == 0).map routeActive

/-- A circuit carries exactly its functions (R46): shared 1 or 2, 4, 8, and 6 with Class A; feed 7 and 8. -/
def functionsOk (img : List Word) (w : Word) : Bool :=
  let n := fun fs => (placesOf img (circCircuit w) fs).length
  if circMode w = 2 then n [7] == 1 && n [8] == 1 && n [1, 2, 4, 6] == 0
  else n [1, 2] == 1 && n [4] == 1 && n [8] == 1 && n [7] == 0 && n [6] == (if circClassA w then 1 else 0)

/-- Step 6 (R18, R46, R54, R55). -/
def step6 (img : List Word) : Option PlanRefusal :=
  eachRecord 0x10 img fun i w =>
    if recType w = 2 then
      funcCost (placeFunc w) (placeCap w) == some (placeLength w)
      && (if placeFunc w = 5 then decide (placeCap w ≤ 4) else placeCap w == 0)
      && (placeCircuit w == 0x3FF || (circuitRec img (placeCircuit w)).isSome)
      && (!([1, 2, 7, 8].contains (placeFunc w)) || slotZero img (placeCircuit w) == some (placeActive w))
    else if recType w = 3 then
      (circuitRec img (routeCircuit w)).isSome && routeActive w / 16 == routeCircuit w / 48 && decide (routeBase w ≤ 63)
      && ((records img).take i).all fun v => recType v != 3 || routeActive v != routeActive w || routeBase v != routeBase w
    else if recType w = 4 then functionsOk img w && (slotZero img (circCircuit w)).isSome
    else if recType w = 5 then (circuitRec img (spanCircuit w)).isSome
    else true

/-- The placements on an active cluster, and their demand (R57). -/
def placedOn (img : List Word) (a : Nat) : List Word := (ofType 2 img).filter fun w => placeActive w == a
def sumLengths (ws : List Word) : Nat := ws.foldl (fun n w => n + placeLength w) 0
def placeEnd (w : Word) : Nat := placeOffset w + placeLength w
def clusterDemand (img : List Word) (a : Nat) : Nat :=
  (placedOn img a).foldl (fun n w => max n (placeEnd w)) (sumLengths (placedOn img a))

/-- Step 7 (R23): the first placement, in image order, at which its cluster is overspent. -/
def step7 (img : List Word) : Option PlanRefusal :=
  match eachRecord 0x12 img fun i w =>
      recType w != 2
      || (let prev := ((records img).take i).filter fun v => recType v == 2 && placeActive v == placeActive w
          decide (placeEnd w ≤ 2904) && decide (sumLengths prev + placeLength w ≤ 2904)
          && prev.all fun v => decide (placeEnd v ≤ placeOffset w)) with
  | some r => some { r with demand := r.active.map (clusterDemand img) }
  | none => none

/-- DETECT_MODE is correlation (R53). -/
def correlationMode (img : List Word) : Bool := fieldOf (hdr img 3) 63 62 == 1

/-- Step 8 (R48). -/
def step8 (img : List Word) : Option PlanRefusal :=
  eachRecord 0x13 img fun i w =>
    if correlationMode img then
      if recType w = 2 then placeFunc w != 2 && placeFunc w != 3
      else if recType w = 4 then
        circMode w != 1
        || decide ((((records img).take i).filter fun v => recType v == 4 && circMode v == 1).length < 256)
      else true
    else if recType w = 2 then
      let on := placedOn img (placeActive w)
      let quals := (on.filter fun v => placeFunc v == 3).length
      placeFunc w != 1
      && (placeFunc w != 2 || quals == 1)
      && (placeFunc w != 3 || (quals == 1 && on.any fun v => placeFunc v == 2))
    else true

/-- Step 9 (R52). -/
def step9 (img : List Word) : Option PlanRefusal :=
  eachRecord 0x14 img fun _ w =>
    recType w != 4 || !(circMode w == 1 && circClassA w)
    || (seatsOf img).any fun v => placeActive v / 16 == circCircuit w / 48 && decide (circNbrCount w ≤ placeCap v)

/-- L_nom of the configured superframe (R57, R260). -/
def mainsCycle (s : State) : Nat := if (s.sf.mainsDue.getD s.sf.mainsNom) = 60 then 16667 else 20000

/-- The effective span of a SPAN record (R230). -/
def effectiveSpan (ticks : Nat) : Nat := ticks / 16 * 16

/-- Granary bandwidth of the feed circuits' spans over 1,000 ticks in MB/s, rounded up: 668.25 each (R27, R235). -/
def granaryDemand (img : List Word) : Nat :=
  let n := ((ofType 5 img).filter fun w =>
    decide (1000 < effectiveSpan (spanTicks w)) && ((feedsOf img).map circCircuit).contains (spanCircuit w)).length
  (66825 * n + 99) / 100

/-- Step 10 (R28, R235). -/
def step10 (s : State) (img : List Word) : Option PlanRefusal :=
  match firstBad (fun _ w => recType w != 5 || decide (spanTicks w ≤ mainsCycle s)) 0 (records img) with
  | some (i, w) => some { status := 0x12, record := i, demand := some (spanTicks w) }
  | none =>
    if 768000 < granaryDemand img then some { status := 0x12, demand := some (granaryDemand img) } else none

/-- The first refusal of a list of checks. -/
def firstRefusal : List (Option PlanRefusal) → Option PlanRefusal
  | [] => none
  | some r :: _ => some r
  | none :: rs => firstRefusal rs

/-- Admission (R57): the checks in order, the first failure deciding. -/
def admission (s : State) (img : List Word) : Option PlanRefusal :=
  firstRefusal
    [step1 s img, if digestOk img then none else some { status := 0x11 }, if countsOk img then none else some { status := 0x10 },
     step4 s img, step5 s img, step6 img, step7 img, step8 img, step9 img, step10 s img]

/-- Checks 4 and 5, repeated at arming and at the grant-list close (R57). -/
def recheck (s : State) (img : List Word) : Option PlanRefusal := firstRefusal [step4 s img, step5 s img]

/-- The image whose header stands at the start of some words, cut to its own length (R53). -/
def imageOf (ws : List Word) : List Word := ws.take (14 + fieldOf (hdr ws 1) 31 16)

/-- Physical cluster c marked retired, in the keep store too (R61). -/
def retireCluster (c : Nat) (s : State) : State :=
  if s.plan.retired.contains c then s
  else
    let w := 262 + c / 64
    mpWrite w (setField (keepQueued s w) (c % 64) (c % 64) 1) { s with plan := { s.plan with retired := c :: s.plan.retired } }

/-- The keep-store word and bit of a retired cluster (R440). -/
def clusterWordOf (s : State) (c : Nat) (retired : Bool) : Nat × Word :=
  let w := 262 + c / 64
  (w, setField (keepQueued s w) (c % 64) (c % 64) (if retired then 1 else 0))

/-- The outcome of a run of the built-in suite (R456): CLUSTER_TESTED; a retired cluster returns to service after 3 passes, each at
least 24 hours after the one before, and a failed run restarts the count. -/
def clusterTested (c : Nat) (pass : Bool) (s : State) : State :=
  let t := raise 0x0016 (c % 512 + (if pass then 65536 else 0)) { s with age := { s.age with testing := none } }
  if !s.plan.retired.contains c then t
  else
    let p := tabGet (0, 0) s.age.passes c
    if !pass then { t with age := { t.age with passes := tabPut (0, 0) t.age.passes c (0, 0) } }
    else if p.1 ≠ 0 ∧ s.clk.now < p.2 + 86400000000 then t
    else if 2 ≤ p.1 then
      let w := clusterWordOf t c false
      mpWrite w.1 w.2 { t with plan := { t.plan with retired := t.plan.retired.filter (· != c) }
                               age := { t.age with passes := tabPut (0, 0) t.age.passes c (0, 0) } }
    else { t with age := { t.age with passes := tabPut (0, 0) t.age.passes c (p.1 + 1, s.clk.now) } }

/-- A cluster under test that the plan in force now runs on is tested no more: the run reports a fail (R456). -/
def abandonTest (s : State) : State :=
  match s.age.testing with
  | none => s
  | some (c, _) =>
    if (usedClusters s).contains c then
      clusterTested c false { s with mb := { s.mb with background := s.mb.background.filter (· != .clusterTest c) } }
    else s

/-- Clusters occupied under the plan in force: mapped by it, or serving as a substitute (R61). -/
def occupied (s : State) : List Nat := (ofType 1 s.plan.active).map mapPhysical ++ s.plan.subst.map (·.2)

/-- The lowest-numbered free physical cluster of a group (R61). -/
def freeCluster (s : State) (g : Nat) : Option Nat :=
  ((List.range 17).map (17 * g + ·)).find? fun c => !(occupied s).contains c && !s.plan.retired.contains c

/-- Active index `a` moves to a free cluster of the group of `c`, its present cluster (R61): CLUSTER_SWAP, with NO_SPARE and another try
at every later boundary where there is none (R455). -/
def substitute (a c : Nat) (s : State) : State :=
  match freeCluster s (c / 17) with
  | none => raise 0x0011 (c + 65536) { s with plan := { s.plan with failing := if s.plan.failing.contains c then s.plan.failing else s.plan.failing ++ [c] } }
  | some q =>
    raise 0x0011 c
      { s with plan := { s.plan with
          subst := (a, q) :: s.plan.subst.filter (fun p => p.1 != a), failing := s.plan.failing.filter (· != c) } }

/-- The index that runs on physical cluster c under the plan in force. -/
def indexOn (s : State) (c : Nat) : Option Nat :=
  ((ofType 1 s.plan.active).map mapActive).find? fun a => physicalOf s.plan.active s.plan.subst a == some c

/-- The substitution due for a failing cluster at a boundary (R24, R61, R455): one that no index runs on is retired and stays unmapped; one
without a spare stays in service and is tried again, NO_SPARE having been raised once. -/
def failingCluster (s : State) (c : Nat) : State :=
  match indexOn s c with
  | none => retireCluster c { s with plan := { s.plan with failing := s.plan.failing.filter (· != c) } }
  | some a =>
    match freeCluster s (c / 17) with
    | none => s
    | some _ => substitute a c (retireCluster c s)

/-- Clusters that reached 8 overruns in the superframe that ends join the failing ones (R24, R61). -/
def newFailing (s : State) : List Nat :=
  (s.plan.overruns.filter fun p => decide (8 ≤ p.2) && !s.plan.failing.contains p.1).map (·.1)

/-- The counts restart at a boundary, and the clusters that reached the limit are failing (R24, R61). -/
def noteOverruns (s : State) : State :=
  { s with plan := { s.plan with failing := s.plan.failing ++ newFailing s, overruns := [] } }

/-- Overruns at a boundary (R24, R25, R61, R455): every failing cluster's substitution on the map of the plan then in force, and CLUSTER_SWAP
with NO_SPARE for those of `fresh`, failing since this boundary, that find none. DESIGN CHOICE: where one free cluster is left for several
failing ones of its group, the one that failed first takes it; the spec gives no order. -/
def overrunBoundary (fresh : List Nat) (s : State) : State :=
  let t := s.plan.failing.foldl failingCluster s
  (fresh.filter fun c => t.plan.failing.contains c).foldl (fun t c => raise 0x0011 (c + 65536) t) t

/-- A circuit's functions that a plan gives: its mode and detection mode, which decide what is carried over (R60). -/
def functionsOf (img : List Word) (c : Nat) : List Nat := ((ofType 2 img).filter fun w => placeCircuit w == c).map placeFunc

/-- A qualifier queue with a request put in its place by age, one of the same age in ascending circuit order (R49). -/
def queuePut (e : Nat × Nat) : List (Nat × Nat) → List (Nat × Nat)
  | [] => [e]
  | f :: q => if e.2 < f.2 ∨ (e.2 = f.2 ∧ e.1 < f.1) then e :: f :: q else f :: queuePut e q

/-- The qualifier queues that a plan change carries over (R60): the request of a circuit that keeps its CT_RX_ENERGY goes to the queue of the
index that now runs it, with its age. DEDUCED: the request is part of the function's state. -/
def carriedQueue (img : List Word) (q : Tab (List (Nat × Nat))) : Tab (List (Nat × Nat)) :=
  (q.flatMap (·.2)).foldl (fun t e =>
    match placesOf img e.1 [2] with
    | [] => t
    | w :: _ => tabPut [] t (placeActive w) (queuePut e (tabGet [] t (placeActive w)))) []

/-- The failing clusters that the plan in force leaves unmapped are retired, before any substitute is chosen (R61 step 1). -/
def retireUnmapped (s : State) : State :=
  s.plan.failing.foldl (fun t c => if (indexOn t c).isNone then failingCluster t c else t) s

/-- A plan takes effect (R59, R61): substitutes are chosen for its indices on retired clusters. DESIGN CHOICE: the indices choose in the order of
the image's CLUSTER_MAP records; the spec gives none. -/
def takeEffect (img : List Word) (s : State) : State :=
  let t := retireUnmapped { s with plan := { s.plan with active := img, subst := [], activated := true } }
  (ofType 1 img).foldl (fun t w =>
    if t.plan.retired.contains (mapPhysical w) then substitute (mapActive w) (mapPhysical w) t else t) t

/-- The swap at the boundary of the armed superframe (R58, R59): the former plan is held as LOADED. -/
def planSwap (s : State) : State :=
  let old := s.plan.active
  let t := takeEffect s.plan.staged s
  { t with plan := { t.plan with
      staged := old, stage := if old.isEmpty then .empty else .loaded, armedSf := 0, old := some (old, s.plan.subst) } }

/-- A substitution without a new plan follows the swap's timing (R61 step 4): the old placements run on through the boundary's tick. -/
def noteSubst (before : State) (s : State) : State :=
  if s.plan.old.isNone ∧ s.plan.subst ≠ before.plan.subst then { s with plan := { s.plan with old := some (before.plan.active, before.plan.subst) } }
  else s

/-- The state as the clusters see it while the placements before a swap still run (R59). -/
def underOld (s : State) : State :=
  match s.plan.old with
  | none => s
  | some o => { s with plan := { s.plan with active := o.1, subst := o.2 } }

/-- The grant-list close for the armed superframe (R57, R58): checks 4 and 5 again; a failure disarms with PLAN_DISARMED. -/
def planClose (s : State) : State :=
  if s.plan.stage = .armed ∧ s.plan.armedSf = s.sf.number + 1 then
    match recheck s s.plan.staged with
    | none => s
    | some _ => raise 0x0010 (planId s.plan.staged) { s with plan := { s.plan with stage := .loaded, armedSf := 0 } }
  else s

end Sys2Proof.Machine
end

