-- ==== Sys2Proof/Machine/LocalMem.lean ====
section
/-! DEFINITION. The clusters' local memories that the lane receivers write (spec/01_architecture.md R18 to R20, spec/02_tick_and_plan.md R51, R55). -/
namespace Sys2Proof.Machine

/-- The half buffer of a pair that frame k uses: buffer k mod 2 of pair BUF_BASE, in 512 bytes (R19, R55). -/
def halfOf (base k : Nat) : Nat := 2 * base + k % 2

/-- The lane receiver writes a circuit's samples of frame k into the local memory of every consumer that the plan routes them to (R18, R20): each
route's physical cluster, at its BUF_BASE, as 14-bit codes in words of 16 bits. -/
def routeSamples (c k : Nat) (xs : List Int) (s : State) : State :=
  let put := fun (m : Tab (Tab (List Nat))) (w : Word) =>
    match physicalOf s.plan.active s.plan.subst (routeActive w) with
    | none => m
    | some p => tabPut [] m p (tabPut [] (tabGet [] m p) (halfOf (routeBase w) k) (xs.map (twosOf 14)))
  { s with plan := { s.plan with
      localMem := ((ofType 3 s.plan.active).filter fun w => routeCircuit w == c).foldl put s.plan.localMem } }

/-- What a route's consumer reads of frame k. -/
def routeRead (s : State) (w : Word) (k : Nat) : List Int :=
  match physicalOf s.plan.active s.plan.subst (routeActive w) with
  | none => []
  | some p => (tabGet [] (tabGet [] s.plan.localMem p) (halfOf (routeBase w) k)).map sampleOf

/-- The samples of frame k that a circuit's receive functions read on their own cluster: its SLOT 0 route (R46, R55). -/
def localSamples (s : State) (c k : Nat) : List Int :=
  match (ofType 3 s.plan.active).find? fun w => routeCircuit w == c && routeSlot w == 0 with
  | none => []
  | some w => routeRead s w k

/-- The samples of frame k of circuit c that a seat on active index `a` reads: from its own local memory where R18 routes a copy there, else
across the group's crossbar from the circuit's SLOT 0 cluster (R51). -/
def seatSamples (s : State) (a c k : Nat) : List Int :=
  match (ofType 3 s.plan.active).find? fun w => routeCircuit w == c && routeActive w == a with
  | some w => routeRead s w k
  | none => localSamples s c k

end Sys2Proof.Machine
end

