-- ==== Sys2Proof/Machine/Front.lean ====
section
/-! DEFINITION. The receive front of a circuit: sample classes, winnower, gain, noise model, detection and receptions
(spec/05_receive_front.md R120 to R146, spec/06_class_t.md R155 to R162, spec/07_class_a.md R175 to R187, spec/02 R49). -/
namespace Sys2Proof.Machine

/-- Circuit c. -/
def circOf (s : State) (c : Nat) : Circuit := tabGet {} s.circ.circuit c
def setCirc (c : Nat) (x : Circuit) (s : State) : State := { s with circ := { s.circ with circuit := tabPut {} s.circ.circuit c x } }
def modCirc (c : Nat) (f : Circuit → Circuit) (s : State) : State := setCirc c (f (circOf s c)) s

/-- A counter raised, and read. -/
def bumpBy (k : Ctr) (n : Nat) (x : Circuit) : Circuit :=
  { x with counters := tabPut 0 x.counters k.idx (sat32 (tabGet 0 x.counters k.idx) n) }
def bump (k : Ctr) (x : Circuit) : Circuit := bumpBy k 1 x
def ctrOf (x : Circuit) (k : Ctr) : Nat := tabGet 0 x.counters k.idx
/-- Counters cleared by their read (R146). -/
def clearCtrs (ks : List Ctr) (x : Circuit) : Circuit :=
  { x with counters := ks.foldl (fun t k => tabPut 0 t k.idx 0) x.counters }

/-- FS_LEVEL of the circuit's port and GAIN_TRIM of its channel, in 1/16 dB (R105, R127, R145). -/
def fsLevel16 (s : State) (c : Nat) : Int := 4 * (portOf s (c / 24)).rxFs
def gainTrim16 (s : State) (c : Nat) : Int := signedOf 16 (fieldOf ((portOf s (c / 24)).calWords.getD (c % 24) 0) 15 0) / 16

/-- dBFS of a mean square in 1/256 code squared, in 1/16 dB (R127). -/
def dbfs16 (ms : Nat) : Int := ratio16 ms (8191 * 8191 * 256)
/-- The level at the coupler in 1/16 dBuV of such a mean square at a gain step (R127). -/
def coupler16 (s : State) (c gain ms : Nat) : Int := fsLevel16 s c + dbfs16 ms - 8 * gain - gainTrim16 s c
/-- The mean square in 1/256 at a gain step of a level at the coupler: the inverse. -/
def meanSquareOf (s : State) (c gain : Nat) (l : Int) : Nat :=
  8191 * 8191 * 256 * powerOf (l - fsLevel16 s c + 8 * gain + gainTrim16 s c + 1600) / 10000000000000000
/-- A mean square taken at gain step g0 as the samples of step g1 show it (R130). -/
def rescale (sq g0 g1 : Nat) : Nat := if g0 = g1 then sq else sq * powerOf (8 * ((g1 : Int) - g0)) / 1000000

/-- The noise model is initialised (R131). -/
def noiseReady (x : Circuit) : Bool := decide (16 ≤ x.idleTicks)
def receiving (x : Circuit) : Bool := x.rxT.st != .idle || x.rxA.st != .idle

/-- The seat or grant that a circuit holds at an instant (R42, R43, R281): its grant entry and its first and last instant. -/
structure Seat where
  grant : Grant
  first : Nat
  last : Nat
def grantAt (s : State) (c now : Nat) (kinds : List Nat) : Option Seat :=
  (s.sf.grants.find? fun g => g.circuit == c && kinds.contains g.gtype
      && decide (s.sf.t0 + 25 * g.slot ≤ now ∧ now < s.sf.t0 + 25 * (g.slot + g.slots))).map fun g =>
    { grant := g, first := s.sf.t0 + 25 * g.slot, last := s.sf.t0 + 25 * (g.slot + g.slots) - 1 }
/-- A Class A seat: CA_UP or POLL. -/
def seatAt (s : State) (c now : Nat) : Option Seat := grantAt s c now [1, 4]
/-- Fields of a Class A setting (R281, R176). -/
def setMod (a : Nat) : Nat := a / 8192 % 8
def setSf (a : Nat) : Nat := a / 1024 % 8
def setRate (a : Nat) : Nat := a / 128 % 8
def setLift (a : Nat) : Nat := a / 32 % 4
def setTrain (a : Nat) : Bool := a / 16 % 2 == 1

/-! Winnower (R123 to R126). -/

/-- A sample over the threshold WIN_FACTOR x RMS_REF; none before the noise model is initialised. -/
def overThreshold (win : Nat) (ref : Option Nat) (x : Int) : Bool :=
  match ref with
  | none => false
  | some sq => decide (win * win * sq < x.natAbs * x.natAbs * 4096)

/-- The positions blanked: clipped samples, and those within the guard of a sample over the threshold (R123); `before` tells of the 8 samples
before them. -/
def blanked (guard : Nat) (before over_ : List Bool) (xs : List Int) : List Bool :=
  let ovr := (List.replicate 8 false ++ before).drop before.length ++ over_
  (List.range xs.length).map fun i =>
    xs.getD i 0 == clipCode || (List.range (2 * guard + 1)).any fun j => decide (guard ≤ i + j + 8) && ovr.getD (i + j + 8 - guard) false

/-- Maximal runs of blanked samples: the impulse events (R125); `prev` tells whether the sample before was blanked, whose run goes on. -/
def runsOf : Bool → List Bool → Nat
  | _, [] => 0
  | prev, b :: bs => (if b && !prev then 1 else 0) + runsOf b bs

/-- RMS_REF in force on a circuit, as a mean square in 1/256 at the gain of the frame (R123, R130). -/
def rmsRef (s : State) (c : Nat) (x : Circuit) : Option Nat :=
  if receiving x then some (rescale x.refSq x.refGain x.gain)
  else if noiseReady x then some (meanSquareOf s c x.gain (levelOf x.noiseW)) else none

/-- One winnowed tick: the samples kept, those not clipped, which are blanked, which were over the threshold, how many were clipped, and the
impulse events. -/
structure Winnowed where
  kept : List Int
  whole : List Int
  mask : List Bool
  over8 : List Bool
  clips : Nat
  events : Nat
/-- The frame processed just before that of instant `now`, where it was MEASURED. -/
def frameBefore (now : Nat) (x : Circuit) : Option PastTick := x.past.head?.filter fun p => p.at_ + 1 == now && !p.mask.isEmpty
def winnowWith (ref : Option Nat) (now : Nat) (x : Circuit) : Winnowed :=
  let over_ := x.buffer.map (overThreshold x.set.winFactor ref)
  let before := ((frameBefore now x).map (·.over8)).getD []
  let m := blanked x.set.winGuard before over_ x.buffer
  { kept := ((List.zip x.buffer m).filter fun p => !p.2).map (·.1), whole := x.buffer.filter (· != clipCode), mask := m
    over8 := over_.drop (over_.length - 8), clips := (x.buffer.filter (· == clipCode)).length
    events := runsOf (((frameBefore now x).map fun p => p.mask.getLastD false).getD false) m }
def winnow (s : State) (c now : Nat) (x : Circuit) : Winnowed := winnowWith (rmsRef s c x) now x

/-- Mean square of samples in 1/256; zero of none. -/
def meanSq (xs : List Int) : Nat := if xs.isEmpty then 0 else sumSquares xs * 256 / xs.length

/-- A frame's samples after the winnower, blanked ones 0, at gain step 0 (R123, R130). -/
def scaled (x : Circuit) (mask : List Bool) : List Int :=
  let g : Int := gainScale x.gain
  List.zipWith (fun v b => if b then 0 else g * v) x.buffer mask
/-- A processed frame joins those kept. -/
def keepTick (p : PastTick) (x : Circuit) : Circuit := { x with past := (p :: x.past).take 16 }
/-- The mean square of a class's band over the newest frame's samples that are not blanked, at gain step 0 (R127, R131, R137). -/
def bandSq (cls : Nat) (x : Circuit) : Nat :=
  match (overPast (Config.bandFilter cls) (x.past.take 2)).head?, x.past.head? with
  | some b, some p =>
    let kept := (List.zip (b.2.take 250) p.mask).filter fun e => !e.2
    codesSq (sumSquares (kept.map (·.1)) / max kept.length 1)
  | _, _ => 0

/-- The superframe that holds an instant: the one in progress or the one before. -/
def sfOf (s : State) (now : Nat) : Nat := if s.sf.t0 ≤ now then s.sf.number else s.sf.number - 1

/-- The chaff bin of an instant (R236), in the superframe that holds it. -/
def chaffBin (s : State) (now : Nat) : Nat :=
  let start := if s.sf.t0 ≤ now then s.sf.t0 else s.sf.t0 - s.sf.lenPrev
  let len := if s.sf.t0 ≤ now then s.sf.len else s.sf.lenPrev
  min (64 * (now - start) / max len 1) 63

/-- Impulse events go to the chaff map and the counters (R125, R236). -/
def countImpulses (s : State) (now : Nat) (w : Winnowed) (x : Circuit) : Circuit :=
  let b := chaffBin s now
  let x := bumpBy .winnowed (w.mask.filter (· == true)).length (bumpBy .impulses w.events x)
  { x with bins := tabPut 0 x.bins b (min (tabGet 0 x.bins b + w.events) 65535) }

/-! Gain (R127 to R130). -/

/-- A command decided for the circuit (R129). -/
def command (step : Nat) (urgent : Bool) (x : Circuit) : Circuit := { x with gainCmd := some (step, urgent) }
/-- The step a change of `d` steps leads to, within 0 to 47 and 24 steps. -/
def stepBy (gain : Nat) (d : Int) : Nat :=
  let d := if d < -24 then -24 else if 24 < d then 24 else d
  let g := (gain : Int) + d
  if g < 0 then 0 else min g.toNat 47
/-- Half decibels of an error, to the nearest. -/
def halfDb (e : Int) : Int := (e + 4) / 8

/-- The AGC freezes on a trigger or a detection, and any unsent command is cancelled (R128). -/
def freeze (x : Circuit) : Circuit :=
  match x.agc with
  | .acquire => { x with agc := .frozen, agcBack := .acquire, gainCmd := none }
  | .track => { x with agc := .frozen, agcBack := .track, gainCmd := none }
  | _ => x
/-- The state held before the freeze returns once no reception or candidate is left (R128). -/
def thaw (x : Circuit) : Circuit := if x.agc = .frozen ∧ receiving x = false then { x with agc := x.agcBack } else x

/-- The mean of the last 64 errors; none before there are 64. -/
def meanError (es : List Int) : Option Int := if es.length < 64 then none else some ((es.foldl (· + ·) 0) / 64)

/-- The AGC's decision in a MEASURED tick with wideband level `wide` in 1/16 dBFS (R128); `now` is the frame measured. -/
def agcTick (now : Nat) (wide : Int) (clips : Nat) (x : Circuit) : Circuit :=
  let e := wide - 8 * x.set.agcTarget
  let db : Int := 8 * x.set.agcDeadband
  let x := { x with errs := (e :: x.errs).take 64 }
  if now < x.holdTo then x
  else
    match x.agc with
    | .acquire =>
      if 0 < clips then command (x.gain - 12) true { x with inBand := 0 }
      else if db < e.natAbs then
        let g := stepBy x.gain (- halfDb e)
        if g = x.gain then { x with inBand := 0 } else command g false { x with inBand := 0 }
      else if 3 ≤ x.inBand then { x with agc := .track, inBand := 0 }
      else { x with inBand := x.inBand + 1 }
    | .track =>
      if 0 < clips then command (x.gain - 12) true { x with agc := .acquire, inBand := 0 }
      else match meanError x.errs with
        | none => x
        | some m =>
          if db < m then (if x.gain = 0 then x else command (x.gain - 1) false x)
          else if m < - db then (if 47 ≤ x.gain then x else command (x.gain + 1) false x)
          else x
    | _ => x

/-! Noise model (R131). -/

/-- Weight 1/1,024. -/
def ewma (n p : Nat) : Nat := ((n : Int) + ((p : Int) - n) / 1024).toNat

/-- An idle tick enters the model with its wideband, Class T and Class A powers at the coupler. -/
def noiseTick (w t a : Nat) (x : Circuit) : Circuit :=
  let x := if noiseReady x then { x with noiseW := ewma x.noiseW w, noiseT := ewma x.noiseT t, noiseA := ewma x.noiseA a } else x
  match (if noiseReady x then x.reinit else some (x.reinit.getD (0, 0, 0, 0))) with
  | none => x
  | some (n, sw, st, sa) =>
    if 15 ≤ n then
      { x with noiseW := (sw + w) / 16, noiseT := (st + t) / 16, noiseA := (sa + a) / 16, idleTicks := 16, reinit := none }
    else { x with reinit := some (n + 1, sw + w, st + t, sa + a), idleTicks := if noiseReady x then 16 else n + 1 }

/-! Detection without a seat, and the energy trigger (R134, R137). -/

/-- UNSEATED in a MEASURED tick (R137). -/
def unseatedTick (seated high : Bool) (x : Circuit) : Circuit :=
  if high && !seated then
    let x := { x with unseatedRun := x.unseatedRun + 1, unseatedQuiet := if x.unseatedQuiet < 2 then 0 else 2 }
    if 2 ≤ x.unseatedRun ∧ x.unseatedQuiet = 2 then { bump .unseated x with unseatedQuiet := 0 } else x
  else if high then { x with unseatedRun := 0, unseatedQuiet := if x.unseatedQuiet < 2 then 0 else 2 }
  else { x with unseatedRun := 0, unseatedQuiet := min (x.unseatedQuiet + 1) 2 }

/-! Headers (R156, R157, R176, R177). -/

/-- The check of an uplink Class T header apart from the granted slots (R157, R162): CONTROL or RANGE only. -/
def headTOk (w : Word) : Bool :=
  crc16 0xFFFF (natBits 32 (fieldOf w 47 16)) == fieldOf w 15 0
  && fieldOf w 63 48 == 0 && fieldOf w 23 16 == 0
  && (tType w == 2 || tType w == 3) && decide (1 ≤ tPsf w) && fieldOf w 42 40 == 0
  && decide (tLift w ≤ 2 ∧ tRate w ≤ 4) && decide (tNcw w * liftN (tLift w) ≤ 18432)

/-- A Class T PPDU whose payload begins at a half chip ends within the slots of the grant that its header falls in (R157, R162). DESIGN CHOICE:
without such a grant there are no slots that it could run past. -/
def endsInGrant (s : State) (c now at_ : Nat) (w : Word) : Bool :=
  match grantAt s c now [2, 3, 5] with
  | some q => decide ((at_ + 2 * tPayload w - 1) / 40 ≤ q.last)
  | none => true

/-- What of a Class A header's check needs no grant (R177): `sf` the spreading factor despread, `train` the form found. -/
def headAOk (c sf : Nat) (train : Bool) (w : Word) : Bool :=
  crc16 (0xFFFF ^^^ c) (natBits 34 (fieldOf w 49 16)) == fieldOf w 15 0
  && fieldOf w 63 50 == 0 && fieldOf w 26 16 == 0
  && decide (aMod w ≤ 5 ∧ aSf w ≤ 4 ∧ aLift w ≤ 2 ∧ aRate w ≤ 4) && aSf w == sf && aTrain w == train && decide (aTicks w ≤ 800)

/-- The header agrees with its grant and fits its slots (R177), for a chip 0 at half chip `at_`: where it does not, GRANT_MISMATCH is counted, whatever
else the check finds. -/
def headGranted (seat : Seat) (at_ : Nat) (w : Word) : Bool :=
  let a := seat.grant.arg
  aMod w == setMod a && aSf w == setSf a && aLift w == setLift a && aRate w == setRate a
  && decide ((at_ + 2 * aChips w - 1) / 100 ≤ seat.last)

/-! Receptions (R138 to R142). -/

/-- A receiver that leaves a reception; the correlator closed by an abort stays closed. -/
def restart (r : Receiver) : Receiver := { closedTo := r.closedTo }
/-- A Class A reception that reached PAYLOAD leaves its EQ_SINR, however it ends (R186). -/
def leaveSinr (x : Circuit) : Circuit := if x.rxA.st = .payload then { x with eqSinr := eqSinrOf x.rxA } else x
/-- Every reception and candidate of the circuit ends by an abort (R136, R140); the seat's correlator closes to `close`. -/
def abortAll (close : Nat) (x : Circuit) : Circuit :=
  { leaveSinr x with rxT := restart x.rxT
                     rxA := if x.rxA.st = .idle then x.rxA else { closedTo := close } }

/-- What one tick's work on a circuit's receptions has at hand: the circuit, the frame's instant, whether detection runs, the mean squares that RMS_REF
latches at a detection and at a sync (R123), and the wideband level in 1/16 dBFS. -/
structure RxIn where
  c : Nat
  now : Nat
  detect : Bool
  detSq : Nat
  syncSq : Nat
  wide : Int

/-- A receiver in the course of a tick's events (R141): itself, its circuit, the preamble found and not yet used, a request raised, a header failed. -/
structure RxStep where
  r : Receiver
  x : Circuit
  found : Option Peak
  req : Bool := false
  fell : Bool := false

/-- RMS_REF latched (R123). -/
def latchRef (sq : Nat) (x : Circuit) : Circuit := { x with refSq := sq, refGain := x.gain }

/-- A preamble found: PREAMBLE at its place (R138). -/
def enterPreamble (now : Nat) (p : Peak) (r : Receiver) : Receiver :=
  { restart r with st := .preamble, since := now, level := p.level, at_ := p.at_, ref := p.ref, taps := r.taps }

/-- The stronger of a candidate held and one found (R139). -/
def hold (now : Nat) (h : Option Held) (p : Peak) : Option Held :=
  match h with
  | some h => if h.level < p.level then some { level := p.level, since := now, at_ := p.at_, ref := p.ref } else some h
  | none => some { level := p.level, since := now, at_ := p.at_, ref := p.ref }

/-- The strength a candidate is compared with (R139): RSSI in HEADER, the running preamble level in PREAMBLE. -/
def strength (r : Receiver) : Int := if r.st = .header then r.rssi else r.level

/-- The urgent command of a capture (R139): the candidate's wideband level more than 6 dB above AGC_TARGET. -/
def captureGain (p : Peak) (x : Circuit) : Circuit :=
  let excess := p.wide - 8 * x.set.agcTarget
  if 96 < excess ∧ x.agc ≠ .fixed then command (stepBy x.gain (- halfDb excess)) true x else x

/-- Steps 5 and 6 of R141: a preamble found by the shadow search; a nearer one is an echo of the reception. -/
def shadowStep (i : RxIn) (apart : Peak → Receiver → Bool) (e : RxStep) : RxStep :=
  match e.found, e.r.st with
  | some p, .payload => { e with x := if apart p e.r then bump .intruder e.x else e.x, found := none }
  | some p, .preamble | some p, .header =>
    if !apart p e.r then { e with found := none }
    else if strength e.r + 16 * e.x.set.captureMargin ≤ p.level then
      { e with r := { enterPreamble i.now p e.r with moved := true }, x := latchRef i.detSq (captureGain p (bump .capture e.x)), found := none }
    else { e with r := { e.r with held := hold i.now e.r.held p }, found := none }
  | _, _ => { e with found := none }

/-- A header that fails (R138, R141): PREAMBLE on the held candidate, a find of this tick included, or IDLE. DESIGN CHOICE: RMS_REF is that of the present tick, the detection tick's not being kept. -/
def headerFails (i : RxIn) (apart : Peak → Receiver → Bool) (e : RxStep) : RxStep :=
  let x := bump .headerFail e.x
  let h := match e.found with
    | some p => if apart p e.r then hold i.now e.r.held p else e.r.held
    | none => e.r.held
  match h with
  | none => { e with r := restart e.r, x := x, found := none, fell := true }
  | some h => { e with r := { enterPreamble h.since { level := h.level, at_ := h.at_, ref := h.ref } e.r with moved := true }
                       x := latchRef i.detSq (bump .shadowSwitch x), found := none, fell := true }

/-- A header that passes (R138, R141): PAYLOAD; a held candidate is dropped as INTRUDER. `due` is the tick that works on the last symbol. -/
def headerPasses (w : Word) (due : Nat) (e : RxStep) : RxStep :=
  { e with r := { e.r with st := .payload, header := w, endAt := due, held := none, queued := 0, soft := [] }
           x := if e.r.held.isSome then bump .intruder e.x else e.x }

/-- The RSSI and SNR latched at sync (R132), and RMS_REF (R123). -/
def latchSync (s : State) (i : RxIn) (ms noise : Nat) (e : RxStep) : RxStep :=
  let rssi := coupler16 s i.c 0 ms
  { e with r := { e.r with st := .header, rssi := rssi, snr := rssi - levelOf noise }, x := latchRef i.syncSq e.x }

/-- Detection: PREAMBLE, RMS_REF of the detection tick, AGC frozen (R123, R128, R138). -/
def detected (k : Ctr) (i : RxIn) (p : Peak) (e : RxStep) : RxStep :=
  { e with r := enterPreamble i.now p e.r, x := freeze (bump k (latchRef i.detSq e.x)), found := none }

/-- A correlation as a find. -/
def peakOf (s : State) (i : RxIn) (k : Corr) (arrival : Int) : Peak :=
  { level := coupler16 s i.c 0 (codesSq (cxSq (corrRef k))), wide := i.wide, at_ := k.at_, ref := corrRef k, arrival := arrival }

/-- Codewords complete in a run of soft bits: cut into N bits each, `n` of them at most; the rest stays (R158). -/
def cutWords : Nat → Nat → List Int → List (List Int) × List Int
  | 0, _, bs => ([], bs)
  | n + 1, len, bs =>
    if len = 0 ∨ bs.length < len then ([], bs)
    else
      let r := cutWords n len (bs.drop len)
      (bs.take len :: r.1, r.2)

/-- Codewords handed to the pool's queue (R30). -/
def queueWords (c cls entry lift rate now : Nat) (first : Nat) (ws : List (List Int)) (s : State) : State :=
  let new := (List.range ws.length).map fun i =>
    ({ circuit := c, cls := cls, entry := entry, index := first + i, lift := lift, rate := rate, llr := ws.getD i [], since := now } : Codeword)
  { s with ldpc := { s.ldpc with queue := s.ldpc.queue ++ new } }

/-- A reassembly entry opened for a frame (R310). -/
def openEntry (e : Entry) (s : State) : State :=
  { s with ldpc := { s.ldpc with entries := s.ldpc.entries ++ [{ e with id := s.ldpc.nextEntry }], nextEntry := s.ldpc.nextEntry + 1 } }

/-- An entry changed. -/
def modEntry (id : Nat) (f : Entry → Entry) (s : State) : State :=
  { s with ldpc := { s.ldpc with entries := s.ldpc.entries.map fun e => if e.id = id then f e else e } }

/-! The qualifier reserve (R49, R135, R164). -/

/-- The active index that runs a circuit's receive function. -/
def rxIndex (s : State) (c : Nat) : Option Nat := slotZero s.plan.active c
/-- A request enters the queue of its cluster; a circuit already there is not entered twice (R49). -/
def request (c now : Nat) (s : State) : State :=
  match rxIndex s c with
  | none => s
  | some a =>
    let q := tabGet [] s.plan.queue a
    if q.any fun e => e.1 == c then s
    else { s with plan := { s.plan with queue := tabPut [] s.plan.queue a (q ++ [(c, now)]) } }
/-- RX_OFFSET of a circuit in 1/16 ns (R108). -/
def rxOffset (s : State) (c : Nat) : Int :=
  (portOf s (c / 24)).dRef - fieldOf ((portOf s (c / 24)).calWords.getD (c % 24) 0) 63 48

/-- TX_OFFSET of a circuit (R108). -/
def txOffset (s : State) (c : Nat) : Int :=
  (portOf s (c / 24)).dRef + fieldOf ((portOf s (c / 24)).calWords.getD (c % 24) 0) 47 32

/-- The neighbours of a circuit that lie too far from it in time (R189): more than 256 ns, both ports being READY. -/
def farNeighbours (s : State) (c : Nat) : List Nat :=
  match circuitRec s.plan.active c with
  | none => []
  | some w => (circNbrs w).filter fun n =>
      (portOf s (c / 24)).cal == .ready && (portOf s (n / 24)).cal == .ready && decide (4096 < (rxOffset s c - rxOffset s n).natAbs)

/-- XT_REF_LOST (R189): a Class A reception's neighbours in use whose frame is STALE or holds a clipped sample. -/
def lostRefs (s : State) (c : Nat) : Nat :=
  match circuitRec s.plan.active c with
  | none => 0
  | some w => ((circNbrs w).filter fun n => !(farNeighbours s c).contains n && ((circOf s n).cls == .stale || (circOf s n).buffer.contains clipCode)).length

/-- The functions of a circuit whose placements an overrun abandoned in a tick (R24, R47): its Class T or Class D receiver, its seat, HK, and
CT_TX and CA_TX. -/
structure Abandoned where
  rx : Bool := false
  seat : Bool := false
  hk : Bool := false
  txT : Bool := false
  txA : Bool := false

/-- A PLACE record is among those abandoned: its cluster overran at its offset or an earlier one (R47). -/
def placeLost (ovr : List (Nat × Nat)) (s : State) (w : Word) : Bool :=
  match physicalOf s.plan.active s.plan.subst (placeActive w) with
  | some p => ovr.any fun o => o.1 == p && decide (o.2 ≤ placeOffset w)
  | none => false

/-- The CA_SEAT placements of a circuit's group, in the order of the plan (R50). -/
def groupSeats (s : State) (c : Nat) : List Word :=
  (ofType 2 s.plan.active).filter fun w => placeFunc w == 5 && placeActive w / 16 == c / 48

/-! Class T (R133 to R135, R138, R139, R143, R163, R164, R169). -/

/-- CT_RX_CORR's search (R133), once in a symbol period: a peak at the threshold in two periods in a row, within one half chip. -/
def corrFind (s : State) (i : RxIn) (x : Circuit) : Option Peak × Option (Nat × Nat) :=
  let n := 20 * (i.now + 1) / 255
  if n = 20 * i.now / 255 ∨ n = 0 then (none, x.peakT)
  else
    let k := searchT (tAt x.past) (refT s.circ.profile i.c) (510 * (n - 1)) 255
    if reaches x.set.corrThresh k then
      (if x.peakT.any fun p => p.1 + 1 == n && decide (phaseGap p.2 k.at_ ≤ 1) then some (peakOf s i k 0) else none, some (n, k.at_))
    else (none, none)

/-- The qualifier's correlation of the last 63 chips for a request that it serves (R135). -/
def qualFind (s : State) (i : RxIn) (x : Circuit) : Option Peak :=
  let k := searchT (tAt x.past) (refT s.circ.profile i.c) (40 * (i.now + 1) - 126) 63
  if reaches x.set.qualThresh k then some (peakOf s i k 0) else none

/-- The find of a Class T receiver, and its circuit after the search. -/
def findT (s : State) (i : RxIn) (energy served : Bool) (x : Circuit) : Option Peak × Circuit :=
  if !i.detect then (none, x)
  else if energy then (if served then qualFind s i x else none, x)
  else
    let f := corrFind s i x
    (f.1, { x with peakT := f.2 })

/-- The code phase of a reception: from its header, which begins on it, and from its payload, 12,192 half chips on. -/
def phaseOf (r : Receiver) : Nat := if r.st = .payload then r.at_ + 510 * 25 - 12192 else r.at_
/-- A Class T candidate lies at least 2 chips from the reception (R139). -/
def apartT (p : Peak) (r : Receiver) : Bool := decide (4 ≤ phaseGap p.at_ (phaseOf r % 510))

/-- IDLE and CANDIDATE rows of a Class T receiver (R138): a request is raised with a candidate. -/
def startT (i : RxIn) (energy served trigger : Bool) (e : RxStep) : RxStep :=
  match e.r.st with
  | .idle =>
    if energy then
      if i.detect && trigger then
        { e with r := { restart e.r with st := .candidate, since := i.now }, x := freeze (latchRef i.detSq e.x), found := none, req := true }
      else { e with found := none }
    else match e.found with
      | some p => detected .detectT i p e
      | none => e
  | .candidate =>
    if !served || !i.detect then e
    else match e.found with
      | some p => { e with r := { enterPreamble i.now p e.r with since := e.r.since }, x := bump .detectT (latchRef i.detSq e.x), found := none }
      | none => { e with r := restart e.r, x := bump .falseEnergy e.x }
  | _ => e

/-- The mean square over a span of half chips of Class T, blanked samples excluded (R127, R132). -/
def spanPower (x : Circuit) (a b : Nat) : Nat :=
  let y := tAt x.past
  spanSq (((List.range (b - a)).map fun j => cxSq (y (a + j))).foldl (· + ·) 0) (b - a) (tSample b - tSample a)
    (blankedIn x.past (tSample a) (tSample b))

/-- How late an endpoint's reply comes for want of its correction, in 1/16 ns (R164, R334). DESIGN CHOICE: twice its last D while it is UNRANGED and
does not place its uplinks by it, else nothing. -/
def rangeShift (s : State) (g : Grant) : Int :=
  match s.link.records.find? fun r => r.circuit == g.circuit && r.addr == some g.addr with
  | some r => if r.range.unranged then 2 * r.range.dist.headD 0 else 0
  | none => 0

/-- The reserve of an index is booked for ranging in the tick that processes the frame of instant `now` (R49, R164): its 4 frames begin with that
which holds the correlation span of a reply whose chip 0 falls where the grant and the endpoint's last correction put it. -/
def booked (s : State) (a now : Nat) : Bool :=
  s.sf.grants.any fun g =>
    g.gtype == 3 && rxIndex s g.circuit == some a
    && (let reply := 16000 * ((s.sf.t0 + 25 * (g.slot + g.arg / 4 % 128) : Nat) : Int)
        let first := ((reply + 16 * 101950 + rangeShift s g) / 16000).toNat
        decide (first ≤ now ∧ now < first + 4))

/-- The stamp of a sync symbol that begins at half chip `a` (R143, R163, R164), and whether a sample of its 52 chips was spoiled. -/
def stampAt (s : State) (i : RxIn) (energy : Bool) (x : Circuit) (a : Nat) : Option Int × Bool :=
  let start := tSample a
  let from_ := start - 13
  let bad := blankedIn x.past from_ (start + 638) != 0 || deadIn (·.deadT) x.past from_ (start + 638)
  let open_ := !energy || ((List.range ((start + 637) / 250 + 1 - from_ / 250)).all fun k =>
    (rxIndex s i.c).any fun ix => booked s ix (from_ / 250 + k))
  let band := overPast (Config.bandFilter 1) x.past
  let at_ := fun (j : Nat) => ((band.find? fun e => e.1 == j / 250).map fun e => e.2.getD (j % 250) 0).getD 0
  let k := if open_ && !bad then rangePeak at_ (rangeRef s.circ.profile i.c) start else none
  (k.map fun k => 64 * (start : Int) + k - 16 * s.port.rxLead + rxOffset s i.c - Config.rangeBias s.circ.profile, bad && open_)

/-- PREAMBLE of a Class T receiver: each preamble symbol moves the reference; one reversed is the sync symbol (R138, R169), and the shadow search
begins, in energy mode with a request (R139). On a candidate moved onto, the first symbol gives the reference. -/
def syncT (s : State) (i : RxIn) (energy : Bool) (e : RxStep) : RxStep :=
  match e.r.st, symbolEnd e.r.at_ i.now with
  | .preamble, some z =>
    let v := despread (tAt e.x.past) i.c 255 (z - 510)
    if along v e.r.ref < 0 ∧ (e.r.moved && e.r.sym == 0) = false then
      let t := stampAt s i energy e.x (z - 510)
      let f := latchSync s i (spanPower e.x (z - 510) z) e.x.noiseT e
      { f with r := { f.r with shadowAt := i.now, at_ := z, ref := cxScale (-1) v, bits := [], sym := 0, stamp := t.1, spanBad := t.2 }
               req := f.req || energy }
    else { e with r := { e.r with ref := v, sym := 1, level := coupler16 s i.c 0 (codesSq (cxSq v)) } }
  | _, _ => e

/-- The header symbols that frame `now` completes, decided (R169): the phase follows the decisions. -/
def headBits (x : Circuit) (c now : Nat) : Nat → Receiver → Receiver
  | 0, r => r
  | fuel + 1, r =>
    let a := r.at_ + 254 * r.bits.length
    if 48 ≤ r.bits.length ∨ 40 * (now + 1) < a + 254 then r
    else
      let v := despread (tAt x.past) c 127 a
      let b := decide (along v r.ref < 0)
      let dead := erased x.set.eraseFrac (·.deadT) x.past (tSample a) (tSample (a + 254))
      headBits x c now fuel { r with bits := r.bits ++ [b], ref := if dead then r.ref else if b then cxScale (-1) v else v }

/-- HEADER of a Class T receiver (R138, R157): its result in the tick that works on its last chip, and a shadow request every 16 ticks (R139). A
RANGE header whose span was spoiled counts RANGE_SPOILED (R143). -/
def headerT (s : State) (i : RxIn) (energy : Bool) (e : RxStep) : RxStep :=
  if e.r.st ≠ .header then e
  else
    let r := headBits e.x i.c i.now 4 e.r
    if r.bits.length < 48 then
      if energy ∧ i.detect = true ∧ r.shadowAt + 16 ≤ i.now then { e with r := { r with shadowAt := i.now }, req := true } else { e with r := r }
    else
      let w := BitVec.ofNat 64 (bitsNat r.bits)
      let at_ := r.at_ + 254 * 48
      if headTOk w && endsInGrant s i.c i.now at_ w then
        let f := headerPasses w ((at_ + 2 * tPayload w - 1) / 40 + 1) { e with r := { r with at_ := at_ } }
        { f with x := if tType w = 3 ∧ r.spanBad = true then bump .rangeSpoiled f.x else f.x }
      else headerFails i apartT { e with r := r }

/-- A Class T receiver's tick: events 2 to 6 of R141. -/
def classTTick (s : State) (i : RxIn) (energy served trigger : Bool) (x : Circuit) : RxStep :=
  let f := findT s i energy served x
  let e : RxStep := { r := f.2.rxT, x := f.2, found := f.1 }
  shadowStep i apartT (headerT s i energy (syncT s i energy (startT i energy served trigger e)))

/-- The payload symbols that frame `now` completes (R158, R169): soft bits, 0 where erased (R124, R126). -/
def payBits (x : Circuit) (c now sf total noise : Nat) : Nat → Receiver → List Int → Receiver × List Int
  | 0, r, out => (r, out)
  | fuel + 1, r, out =>
    let a := r.at_ + 2 * sf * r.sym
    if total ≤ r.sym ∨ 40 * (now + 1) < a + 2 * sf then (r, out)
    else
      let v := despread (tAt x.past) c sf a
      let ps := (pointsOf 1).map fun p => (p.1, cxDiv (cxMul p.2 r.ref) (2 ^ 14))
      let dead := erased x.set.eraseFrac (·.deadT) x.past (tSample a) (tSample (a + 2 * sf))
      let llr := maxLog 1 ps (noise / sf) v
      let p := (nearestPoint ps v).1
      let ref := cxDiv (cxMul v (cxConj (qpsk (p.getD 0 false) (p.getD 1 false)))) (2 ^ 14)
      payBits x c now sf total noise fuel { r with sym := r.sym + 1, ref := if dead then r.ref else ref }
        (out ++ if dead then llr.map (fun _ => 0) else llr)

/-- The payload of a Class T reception in a tick: soft bits to the queue, and IDLE after the last symbol (R138, R158); a ranging reception leaves
its stamp (R40, R163). -/
def payloadT (c now : Nat) (s : State) : State :=
  let x := circOf s c
  if x.rxT.st ≠ .payload then s
  else
    let w := x.rxT.header
    let total := tNcw w * liftN (tLift w) / 2
    let noise := meanSquareOf s c 0 (levelOf x.noiseT) * 10 ^ 12 / 256
    let g := payBits x c now (psfChips (tPsf w)) total noise 64 x.rxT []
    let r := g.1
    let cut := cutWords (tNcw w - r.queued) (liftN (tLift w)) (r.soft ++ g.2)
    let s := queueWords c 1 r.entry (tLift w) (tRate w) now r.queued cut.1 s
    let r := { r with soft := cut.2, queued := r.queued + cut.1.length }
    setCirc c (if total ≤ r.sym then
        thaw { x with rxT := restart r, lastRssiT := r.rssi, lastSnrT := r.snr, stamp := if tType w = 3 then r.stamp else x.stamp }
      else { x with rxT := r }) s

/-- The indices that carry a qualifier reserve. -/
def qualIndices (s : State) : List Nat := ((ofType 2 s.plan.active).filter fun w => placeFunc w == 3).map placeActive
/-- The circuits whose requests the reserves serve in a tick, and the queues after it (R49). The head stays where its circuit has no samples in the
tick, or its receive function was abandoned (`lost`): its qualifier is not run (R122). -/
def serveQueues (now : Nat) (blocked lost : Nat → Bool) (s : State) : List Nat × State :=
  (qualIndices s).foldl (fun acc a =>
    let t := acc.2
    if booked t a now || blocked a then acc
    else match tabGet [] t.plan.queue a with
      | [] => acc
      | e :: q => if (circOf t e.1).cls != .measured || lost e.1 then acc else (acc.1 ++ [e.1], { t with plan := { t.plan with queue := tabPut [] t.plan.queue a q } })) ([], s)

/-! Class A on a seat (R41 to R43, R136, R177 to R179, R184 to R193). -/

/-- The expected half chip of chip 0 (R180, R184, R285): the first tick granted, and for a POLL's answer the sixth tick after the POLL's last chip. -/
def expectA (x : Circuit) (q : Seat) : Option Nat :=
  if q.grant.gtype = 1 then some (100 * q.first)
  else (x.ppdus.find? fun p => p.cls == 2 && p.start == q.first).map fun p => 100 * (p.start + ppduTicks p + 5)

/-- Circuits of a group in ascending order that hold a Class A seat at an instant, and the seats that serve them (R41, R42): DESIGN CHOICE: each in
turn takes the first free one of the least capacity that its neighbours need. -/
def takeSeat (nbrs : Nat) (free : List Word) : Option Word :=
  (free.filter fun w => decide (nbrs ≤ placeCap w)).foldl (fun b w => match b with
    | some v => if placeCap w < placeCap v then some w else b
    | none => some w) none
def seatPlaces (s : State) (g now : Nat) : List (Nat × Word) :=
  (((activeCircuits s).filter fun c => decide (c / 48 = g) && (seatAt s c now).isSome).foldr insertNat []).foldl (fun acc c =>
    let n := ((circuitRec s.plan.active c).map fun w => (circNbrs w).length).getD 0
    match takeSeat n ((groupSeats s (48 * g)).filter fun w => !acc.any fun e => e.2 == w) with
    | some w => acc ++ [(c, w)]
    | none => acc) []
/-- The CA_SEAT placement that serves a circuit in the tick of a frame. -/
def seatPlace (s : State) (c now : Nat) : Option Word := ((seatPlaces s (c / 48) now).find? fun e => e.1 == c).map (·.2)

/-- What an overrun took from a circuit. -/
def lostOf (ovr : List (Nat × Nat)) (s : State) (c now : Nat) : Abandoned :=
  if ovr.isEmpty then {}
  else
    let lost := fun (fs : List Nat) => (ofType 2 s.plan.active).any fun w =>
      placeCircuit w == c && fs.contains (placeFunc w) && placeLost ovr s w
    { rx := lost [1, 2, 7], hk := lost [8], txT := lost [4], txA := lost [6]
      seat := match seatPlace s c now with
        | some w => placeLost ovr s w
        | none => false }

/-- A declared neighbour serves in a tick (R189): not too far in time, its frame neither STALE nor with a clipped sample. -/
def nbrUsable (s : State) (c n : Nat) : Bool :=
  !(farNeighbours s c).contains n && (circOf s n).cls != .stale && !(circOf s n).buffer.contains clipCode
/-- A neighbour's samples of frame `now` on a seat's cluster (R18, R51), at gain step 0; clip codes read as 0. -/
def nbrSamples (s : State) (w : Word) (n now : Nat) : List Int :=
  (seatSamples s (placeActive w) n now).map fun v => if v = clipCode then 0 else (gainScale (circOf s n).gain : Int) * v
/-- What the seat's filters read (R185, R188, R189): a neighbour that does not serve reads as zeros. -/
def seatIn (s : State) (c now : Nat) (place : Option Word) (x : Circuit) : SeatIn :=
  let ns := ((circuitRec s.plan.active c).map circNbrs).getD []
  { own := aAt x.past
    nbrs := (List.range ns.length).map fun i =>
      let n := ns.getD i 0
      match place with
      | some w => if nbrUsable s c n then
          let st := nbrStream now ((x.nbrTail.getD i []) ++ List.replicate (64 - (x.nbrTail.getD i []).length) 0) (nbrSamples s w n now)
            ((rxOffset s c - rxOffset s n) / 64)
          fun h => streamAt 100 st h
        else fun _ => (0, 0)
      | none => fun _ => (0, 0) }
/-- The last 64 samples of each neighbour stay for the next tick (R189). -/
def keepTails (s : State) (c now : Nat) (place : Option Word) (x : Circuit) : Circuit :=
  match place with
  | none => if x.nbrTail.isEmpty then x else { x with nbrTail := [] }
  | some w => { x with nbrTail := (((circuitRec s.plan.active c).map circNbrs).getD []).map fun n => (nbrSamples s w n now).drop 186 }

/-- The find of a seat's correlator (R136, R184): while the seat waits, within 12 chips of the expected start; afterwards over all timings of the
slot; after an abort it stays closed for the slot. -/
def findA (s : State) (i : RxIn) (seat : Option Seat) (x : Circuit) : Option Peak :=
  match seat with
  | none => none
  | some q =>
    match expectA x q with
    | none => none
    | some e =>
      if !i.detect || decide (i.now < x.rxA.closedTo) || decide (100 * (i.now + 1) < e) then none
      else
        let near := fun (a : Nat) => decide (e ≤ a + 24 ∧ a ≤ e + 24)
        let k := searchA (aAt x.past) i.c (setSf q.grant.arg) i.now
          (if x.rxA.st = .idle then near else fun a => decide (100 * q.first ≤ a + 24))
        if reaches x.set.caThresh k then some (peakOf s i k (10 * ((k.at_ : Int) - e))) else none

/-- A Class A candidate's timing differs by at least 2 symbols (R139). -/
def apartA (sf : Nat) (p : Peak) (r : Receiver) : Bool := decide (2 ^ (sf + 2) ≤ ((p.at_ : Int) - r.at_).natAbs)

/-- Detection on a seat (R136, R184, R187): the granted form is expected, the seat's taps are loaded, the arrival offset is recorded. -/
def startA (i : RxIn) (seat : Option Seat) (e : RxStep) : RxStep :=
  match e.r.st, e.found, seat with
  | .idle, some p, some q =>
    let x := { e.x with arrival := p.arrival }
    let f := detected .detectA i p { e with x := if 20 * x.set.arrivalTol < p.arrival.natAbs then bump .arrivalOff x else x }
    { f with r := { f.r with train := setTrain q.grant.arg, taps := if x.seatTaps.isEmpty then defaultTaps else tapsOf x.seatTaps } }
  | _, _, _ => e

/-- PREAMBLE of a Class A reception (R138, R184, R187): the taps adapt, and the 25 inverted symbols after the preamble are the sync word. A candidate
moved onto may have either form. -/
def syncA (s : State) (i : RxIn) (sf : Nat) (inp : SeatIn) (e : RxStep) : RxStep :=
  if e.r.st ≠ .preamble then e
  else
    let pre := preSymbols e.r.train - 50
    let g := runLead inp e.x.past e.x.set.eraseFrac i.c sf i.now pre 400 e.r 0
    let r := if g.2 = 0 then g.1 else { g.1 with level := coupler16 s i.c 0 (codesSq (cxSq g.1.ref * g.2 / 2 ^ 28)) }
    if landed sf (pre + 24) i.now r = false then { e with r := r }
    else
      let k := corrA (aAt e.x.past) i.c sf pre r.at_
      if i.detect && reaches e.x.set.caThresh k && decide (along k.value r.ref < 0) then
        let a := aSample (r.at_ + 2 ^ (sf + 1) * pre)
        let b := aSample (r.at_ + 2 ^ (sf + 1) * (pre + 25))
        latchSync s i (spanSq k.sumSq (25 * 2 ^ sf) (b - a) (blankedIn e.x.past a b)) e.x.noiseA { e with r := r }
      else if r.moved && !r.train then { e with r := { r with train := true } }
      else { e with r := r }

/-- The header of a Class A reception (R138, R177): its result in the tick that works on its last chip. -/
def headerA (i : RxIn) (sf : Nat) (inp : SeatIn) (seat : Option Seat) (e : RxStep) : RxStep :=
  if e.r.st ≠ .header then e
  else
    let pre := preSymbols e.r.train
    let r := (runLead inp e.x.past e.x.set.eraseFrac i.c sf i.now pre 400 e.r 0).1
    if r.sym < pre then { e with r := r }
    else
      let w := BitVec.ofNat 64 (bitsNat r.bits)
      match seat with
      | none => headerFails i (apartA sf) { e with r := r }
      | some q =>
        let fits := headGranted q r.at_ w
        let told := crc16 (0xFFFF ^^^ i.c) (natBits 34 (fieldOf w 49 16)) == fieldOf w 15 0
        if headAOk i.c sf r.train w && fits then headerPasses w ((r.at_ + 2 * aChips w - 1) / 100 + 1) { e with r := r }
        else headerFails i (apartA sf) { e with r := r, x := if told && !fits then bump .grantMismatch e.x else e.x }

/-- A Class A reception's tick on a seat (R136, R141, R184). -/
def classATick (s : State) (i : RxIn) (seat : Option Seat) (inp : SeatIn) (x : Circuit) : RxStep :=
  let sf := ((seat.map fun q => setSf q.grant.arg).getD 0)
  let e : RxStep := { r := x.rxA, x := x, found := findA s i seat x }
  shadowStep i (apartA sf) (headerA i sf inp seat (syncA s i sf inp (startA i seat e)))

/-- What a tick tells of the granted endpoint's uplink (R193): the MSE at a sync word found, and a header's result. -/
structure SeatNews where
  mse : Option Int := none
  judged : Option Bool := none

/-- The payload of a Class A reception in a tick (R178, R186, R192, R233). With a span every codeword completes at the last symbol. -/
def payloadA (c now : Nat) (inp : SeatIn) (s : State) : State :=
  let x := circOf s c
  if x.rxA.st ≠ .payload then s
  else
    let w := x.rxA.header
    let n := liftN (aLift w)
    let l := aNcw w * n
    let m := modBits (aMod w)
    let stop := preSymbols (aTrain w) + (l + m - 1) / m
    let g := runPayload inp x.past x.set.eraseFrac c (aSf w) now stop (pointsOf (aMod w)) 400 x.rxA []
    let r := g.1
    let d := branchA (effectiveSpan (circuitSpan s c)) m (aSf w) l
    let soft := (r.soft ++ g.2).take (l - r.queued * n)
    let last := decide (stop ≤ r.sym)
    let cut := if d = 0 then cutWords (aNcw w - r.queued) n soft
      else if last then cutWords (aNcw w) n (deinterleaveA l d soft) else ([], soft)
    let s := queueWords c 2 r.entry (aLift w) (aRate w) now r.queued cut.1 s
    let r := { r with soft := cut.2, queued := r.queued + cut.1.length }
    if last then
      let s := modEntry r.entry (fun e => { e with
        eqSinr := eqSinrOf r, provisional := some (sfOf s now, s.clk.tick, r.mseSync, Config.derived 191 [(c : Int), (now : Int)], tapWords r.taps) }) s
      let y := leaveSinr { x with rxA := r }
      setCirc c (thaw { y with rxA := restart r, lastRssiA := r.rssi, lastSnrA := r.snr }) s
    else setCirc c { x with rxA := r } s

/-- A reception that reaches PAYLOAD opens its reassembly entry (R310). -/
def openIfNew (c : Nat) (before after : Receiver) (cls addr : Nat) (s : State) : State × Receiver :=
  if before.st ≠ .payload ∧ after.st = .payload then
    let ncw := if cls = 1 then tNcw after.header else aNcw after.header
    let id := s.ldpc.nextEntry
    (openEntry { circuit := c, cls := cls, ncw := ncw, rssi := after.rssi, snr := after.snr, addr := addr, train := after.train, due := after.endAt + 2 } s,
     { after with entry := id })
  else (s, after)

/-! The tick of a shared-mode circuit (R120). -/

/-- The levels of a MEASURED tick, HK's work (R120 steps 2 to 4, R125, R126, R128, R131), on a circuit whose newest frame is kept. -/
def houseTick (s : State) (c now : Nat) (w : Winnowed) (clipped : Bool) (x : Circuit) : Circuit :=
  let wideSq := meanSq w.kept
  let x := countImpulses s now w (if clipped then bump .clippedTicks x else x)
  let x := if w.kept.isEmpty && w.clips == 0 then x else agcTick now (if w.kept.isEmpty then 0 else dbfs16 wideSq) w.clips x
  let idle := !clipped && !receiving x && (grantAt s c now [1, 2, 3, 4, 5]).isNone && !w.kept.isEmpty
  if idle then noiseTick (powerOf (coupler16 s c x.gain wideSq)) (powerOf (coupler16 s c 0 (bandSq 1 x))) (powerOf (coupler16 s c 0 (bandSq 2 x))) x
  else x

/-- The receptions of a circuit in a tick (R120 steps 5 and 6, R141): none where an abort comes first. `lost` names the functions whose outputs an
overrun abandoned (R24). -/
def receive (i : RxIn) (lost : Abandoned) (served trigger : Bool) (s : State) : SeatNews × State :=
  let c := i.c
  let x := circOf s c
  let energy := !correlationMode s.plan.active
  let seat := seatAt s c i.now
  let place := seatPlace s c i.now
  let inp := seatIn s c i.now place x
  let a := if lost.rx then { r := x.rxT, x := x, found := none } else classTTick s i energy served trigger x
  let oT := openIfNew c x.rxT a.r 1 0 s
  let y := { a.x with rxT := oT.2 }
  let b := if lost.seat || place.isNone then { r := y.rxA, x := y, found := none } else classATick s i seat inp y
  let oA := openIfNew c y.rxA b.r 2 ((seat.map fun q => q.grant.addr).getD 0) oT.1
  let z := thaw { b.x with rxA := oA.2 }
  let z := if z.rxA.st = .idle then z else bumpBy .xtRefLost (lostRefs s c) z
  let t := setCirc c (keepTails s c i.now place z) oA.1
  let t := if a.req then request c i.now t else t
  let synced := x.rxA.st == .preamble && (b.r.st == .header || b.r.st == .payload)
  ({ mse := if synced then some b.r.mseSync else none
     judged := if b.fell then some false else if y.rxA.st != .payload && b.r.st == .payload then some true else none },
   payloadA c i.now inp (payloadT c i.now t))

/-- A MEASURED tick of a shared-mode circuit (R120). `now` is the instant of the frame worked on. -/
def measuredTick (c now : Nat) (lost : Abandoned) (served : Bool) (s : State) : SeatNews × State :=
  let x := circOf s c
  let ready := noiseReady x
  let w := winnow s c now x
  let clipped := decide (13 ≤ w.clips)
  let x := keepTick { at_ := now, xs := scaled x w.mask, mask := w.mask, over8 := w.over8, deadT := clipped || lost.rx, deadA := clipped || lost.seat } x
  let x := if lost.hk then { x with unseatedRun := 0, unseatedQuiet := if x.unseatedQuiet < 2 then 0 else 2 } else houseTick s c now w clipped x
  let x : Circuit := { x with staleRun := 0, clipRun := if lost.rx then x.clipRun else if clipped then x.clipRun + 1 else 0 }
  let over_ := fun (noise cls : Nat) => ready && decide (levelOf noise + 8 * x.set.energyThresh < coupler16 s c 0 (bandSq cls x))
  let x := if lost.hk then x else unseatedTick (seatAt s c now).isSome (over_ x.noiseA 2) x
  let x : Circuit := { x with energyRun := if !lost.rx && !clipped && over_ x.noiseT 1 then x.energyRun + 1 else 0 }
  if 9 ≤ x.clipRun ∧ receiving x = true then ({}, setCirc c x s)
  else
    receive { c := c, now := now, detect := ready, detSq := meanSq w.whole, syncSq := meanSq w.kept, wide := dbfs16 (meanSq w.kept) }
      lost served (decide (2 ≤ x.energyRun)) (setCirc c x s)

/-- A frame without usable samples: nothing detected, runs broken (R121, R122, R134, R137). -/
def blankTick (now : Nat) (x : Circuit) : Circuit :=
  keepTick { at_ := now, deadT := true, deadA := true }
    { x with energyRun := 0, unseatedRun := 0, unseatedQuiet := if x.unseatedQuiet < 2 then 0 else 2 }

/-- A SELF frame aborts every reception and candidate (R121, R140). -/
def selfTick (c now : Nat) (s : State) : State :=
  let x := blankTick now (circOf s c)
  let close := match seatAt s c now with
    | some q => q.last + 1
    | none => 0
  let y := if receiving x then thaw (abortAll close (bump .selfTx x)) else x
  setCirc c { y with staleRun := 0, clipRun := 0 } s

/-- A STALE frame (R122): no detection; the receptions in progress go on with every symbol of the frame erased. The ninth in a row aborts them
before anything else happens in its tick (R141). -/
def staleTick (c now : Nat) (lost : Abandoned) (s : State) : SeatNews × State :=
  let x := blankTick now (circOf s c)
  let x : Circuit := { x with staleRun := if lost.rx then x.staleRun else x.staleRun + 1, clipRun := if lost.rx then x.clipRun else 0 }
  if 9 ≤ x.staleRun ∧ receiving x = true then ({}, setCirc c x s)
  else receive { c := c, now := now, detect := false, detSq := 0, syncSq := 0, wide := 0 } lost false false (setCirc c x s)

/-- The tick of one active shared-mode circuit (R120). -/
def sharedTick (c now : Nat) (lost : Abandoned) (served : Bool) (s : State) : SeatNews × State :=
  match (circOf s c).cls with
  | .measured => measuredTick c now lost served s
  | .selfTx => ({}, selfTick c now s)
  | .stale => staleTick c now lost s

/-- Settings accepted take effect once every receiver of the circuit is IDLE (R145, R239), those of Class A once there is no Class A reception (R195);
those of Class D and of the link have instants of their own. -/
def adoptSettings (x : Circuit) : Circuit :=
  let x := if x.rxA.st ≠ .idle then x
    else { x with set := { x.set with caThresh := x.want.caThresh, arrivalTol := x.want.arrivalTol, rateMargin := x.want.rateMargin } }
  if receiving x then x
  else { x with set := { x.want with
    cdPamMax := x.set.cdPamMax, cdRateMargin := x.set.cdRateMargin, cdLift := x.set.cdLift, cdThp := x.set.cdThp
    retain := x.set.retain, liveness := x.set.liveness, servicePeriod := x.set.servicePeriod, joinPeriod := x.set.joinPeriod } }

/-- The link settings accepted take effect at a superframe boundary (R316). -/
def adoptLink (x : Circuit) : Circuit :=
  { x with set := { x.set with
    retain := x.want.retain, liveness := x.want.liveness, servicePeriod := x.want.servicePeriod, joinPeriod := x.want.joinPeriod } }

end Sys2Proof.Machine
end

