-- ==== Sys2Proof/Machine/Feed.lean ====
section
/-! DEFINITION. Class D feed links: training, data mode, the tap-wander guard (spec/08_class_d.md R197 to R217, spec/05 R144,
spec/09 R230 to R232). -/
namespace Sys2Proof.Machine

def feedOf (s : State) (c : Nat) : Feed := tabGet {} s.feed.feed c
def setFeed (c : Nat) (x : Feed) (s : State) : State := { s with feed := { s.feed with feed := tabPut {} s.feed.feed c x } }
def modFeed (c : Nat) (f : Feed → Feed) (s : State) : State := setFeed c (f (feedOf s c)) s

/-- Training-word fields (R210). -/
def cdPhase (w : Word) : Nat := fieldOf w 63 60
def cdRole (w : Word) : Bool := bitOf w 59
/-- The highest PAM of PAM_CAP, as in CD_PAM_MAX. -/
def cdPamCap (w : Word) : Nat := if bitOf w 58 then 2 else if bitOf w 57 then 1 else 0
def cdThpCap (w : Word) : Bool := bitOf w 55
def cdReady (w : Word) : Bool := bitOf w 54
def cdSnr (w : Word) : Int := signedOf 16 (fieldOf w 53 38)
/-- The selection a word carries: PAM_DN, RATE_DN, LIFT, THP_DN, THP_UP. -/
def cdChoice (w : Word) : Nat := fieldOf w 37 29
def cdCount (w : Word) : Nat := fieldOf w 28 24
def cdValue (w : Word) : Nat := fieldOf w 23 8
def cdCheckOk (w : Word) : Bool := crc8 (natBits 56 (fieldOf w 63 8)) == fieldOf w 7 0

def feedPhaseCode : FeedPhase → Nat
  | .echo => 1
  | .duplex => 2
  | .select => 3
  | .precode => 4
  | .switch => 5

/-- The 100 MBd ladder (R212): PAM code, RATE code, threshold in 1/16 dB; and the PAM-2 rates. -/
def cdLadder : List (Nat × Nat × Int) :=
  [(2, 0, 136), (2, 2, 192), (2, 3, 216), (3, 1, 272), (3, 2, 296), (3, 3, 320), (3, 4, 360)]
def pam2Ladder : List (Nat × Int) := [(0, -100000), (2, 64), (3, 96), (4, 128)]

/-- The entry of the 100 MBd ladder for an SNR less margin, `lower` entries down (R211, R212). -/
def pickFast (snr : Int) (pamMax lower : Nat) : Option (Nat × Nat) :=
  let ok := cdLadder.filter fun e => decide (e.2.2 ≤ snr ∧ e.1 ≤ pamMax + 1)
  if ok.length ≤ lower then none else (ok[ok.length - 1 - lower]?).map fun e => (e.1, e.2.1)
/-- The PAM-2 rate. -/
def pickSlow (snr : Int) (lower : Nat) : Nat :=
  let ok := pam2Ladder.filter fun e => decide (e.2 ≤ snr)
  (ok.getD (ok.length - 1 - lower) (0, 0)).1

/-- SELECT (R212): the settings of both directions from the head-end's own and the endpoint's reported SNR. DEDUCED: entries above the endpoint's
PAM_CAP (R210) are not selected. DESIGN CHOICE: a link that meets no 100 MBd entry goes over to 25 MBd at once. -/
def selectSettings (x : Circuit) (f : Feed) : Feed :=
  let m : Int := 8 * x.set.cdRateMargin
  let up := f.snrOwn - m
  let dn := f.snrFar - m
  let thp := fun (pam : Nat) => x.set.cdThp == 1 && f.farThp && decide (2 ≤ pam)
  let most := min x.set.cdPamMax f.farPam
  match (if f.fast then pickFast up most f.lower else none), (if f.fast then pickFast dn most f.lower else none) with
  | some u, some d =>
    { f with upw := { pam := u.1, rate := u.2, thp := thp u.1 }, dn := { pam := d.1, rate := d.2, thp := thp d.1 }, lift := x.set.cdLift }
  | _, _ =>
    let b : Int := if f.fast then 96 else 0
    { f with upw := { pam := 1, rate := pickSlow (up + b) f.lower }, dn := { pam := 1, rate := pickSlow (dn + b) f.lower }
             lift := x.set.cdLift, fast := false }

/-- The selection as a training word carries it (R210). -/
def choiceOf (f : Feed) : Nat :=
  f.dn.pam * 128 + f.dn.rate * 16 + f.lift * 4 + (if f.dn.thp then 2 else 0) + (if f.upw.thp then 1 else 0)

/-- Ticks of a training span, and the span that a tick of a phase belongs to (R210). -/
def spanLen (f : Feed) : Nat := if f.fast then 1 else 3
def spanOf (f : Feed) (now : Nat) : Nat := (now - f.phaseAt) / spanLen f
/-- All 24 feedback taps have come in (R211). -/
def tapsComplete (f : Feed) : Bool := !f.dn.thp || (List.range 24).all fun i => f.taps.any fun t => t.1 == i
/-- The head-end's training word of span `k` of a phase (R210, R211, R232): the feedback taps in turn in PRECODE, the countdown in SWITCH. -/
def spanWord (f : Feed) (k : Nat) : Word :=
  let value := match f.phase with
    | .select => f.upw.pam * 16384 + f.upw.rate * 2048 + f.span / 16 % 2048
    | .precode => if f.upw.thp then twosOf 16 (f.wire.now.fb.getD (k % 24) 0) else 0
    | _ => 0
  let count := match f.phase with
    | .switch => 31 - k
    | .precode => k % 24
    | _ => 0
  let chosen := decide (3 ≤ feedPhaseCode f.phase)
  let ready := match f.phase with
    | .duplex => decide (32 ≤ f.snrOwn)
    | .precode => tapsComplete f
    | .switch => decide (100 ≤ f.okRun)
    | _ => false
  let body := fieldAt 63 60 (feedPhaseCode f.phase) ||| fieldAt 58 56 7 ||| bitAt 55 true ||| bitAt 54 ready
    ||| fieldAt 53 38 (twosOf 16 f.snrOwn) ||| fieldAt 37 29 (if chosen then choiceOf f else 0)
    ||| fieldAt 28 24 count ||| fieldAt 23 8 value
  body ||| fieldAt 7 0 (crc8 (natBits 56 (fieldOf body 63 8)))
/-- The word on entering a phase. -/
def headWord (f : Feed) : Word := spanWord f 0

/-- A phase entered, its word sent. The AGC freezes with SELECT (R211). -/
def enterFeedPhase (c : Nat) (ph : FeedPhase) (s : State) : State :=
  let t := modFeed c (fun f => { f with phase := ph, phaseAt := s.clk.now, taps := if ph = .precode then [] else f.taps, wire := { f.wire with upFrom := none } }) s
  let t := if ph = .select then modCirc c (fun x => if x.agc = .fixed then x else { x with agc := .frozen, agcBack := .track, gainCmd := none }) t else t
  emit (.feedWord c (headWord (feedOf t c))) t

/-- Everything of data mode is cleared when the link leaves UP (R232): blocks inside the interleavers and open frames are lost. -/
def leaveData (f : Feed) : Feed :=
  { f with session := f.session + 1, next := 0, done := [], blocks := 0, soft := [], openX := none, openN := none, missed := 0, mseRun := 0, okRun := 0, drifted := false, reverted := false, line := 0 }

/-- The open frames of a link that leaves UP are discarded (R232, R310). -/
def dropOpen (c : Nat) (s : State) : State :=
  let f := feedOf s c
  modCirc c (bumpBy .reasmTimeout (f.openX.toList.length + f.openN.toList.length)) (setFeed c { f with openX := none, openN := none } s)

/-- A training begins (R211, R213, R216, R232): settings, span and the Class D filter waiting take effect; RETRAIN keeps the symbol rate and
loads the taps of the trained snapshot. -/
def beginTraining (c : Nat) (st : FeedState) (fast : Bool) (s : State) : State :=
  let t := modFeed c (fun f => { leaveData f with
    state := st, fast := fast, startedAt := s.clk.now, lower := 0, span := effectiveSpan (circuitSpan s c)
    wire := { now := if st = .retrain then f.wire.trained else {}, trained := f.wire.trained, own := f.wire.own, place := if st = .retrain then f.wire.place else none
              queueX := f.wire.queueX, queueC := f.wire.queueC, queueN := f.wire.queueN } }) (dropOpen c s)
  let t := modCirc c (fun x => { x with
    set := { x.set with cdPamMax := x.want.cdPamMax, cdRateMargin := x.want.cdRateMargin, cdLift := x.want.cdLift, cdThp := x.want.cdThp }
    agc := if x.agc = .fixed then .fixed else .acquire, inBand := 0, clipRun := 0, staleRun := 0
    filterD := match x.filtersDue with
      | some d => d.2.2
      | none => x.filterD }) t
  enterFeedPhase c .echo t

/-- TRAINING from scratch, and RETRAIN (R213). -/
def train (c : Nat) (s : State) : State := beginTraining c .training true s
def retrain (c : Nat) (s : State) : State := beginTraining c .retrain (feedOf s c).fast s

/-- A training failed (R213): FEED_SEARCH. -/
def trainFails (c : Nat) (s : State) : State :=
  modCirc c (bump .trainFail) (modFeed c (fun f => { leaveData f with state := .search }) (dropOpen c s))

/-- A training or retrain is under way. -/
def inTraining (f : Feed) : Bool := f.state == .training || f.state == .retrain

/-- CD_TRAIN_WORD (R210, R211): the endpoint's word; exit conditions of DUPLEX, SELECT and PRECODE, and in SWITCH the
endpoint's countdown, the span of whose 0 is the last before data. A word whose CHECK fails is ignored. -/
def trainWord (c : Nat) (w : Word) (s : State) : State :=
  let f := feedOf s c
  if !inTraining f || !cdCheckOk w || !cdRole w then s
  else
    let t := modFeed c (fun f => { f with snrFar := cdSnr w, farThp := cdThpCap w, farPam := cdPamCap w }) s
    let f := feedOf t c
    if cdPhase w ≠ feedPhaseCode f.phase then t
    else match f.phase with
      | .duplex =>
        if cdReady w && decide (32 ≤ cdSnr w) && decide (32 ≤ f.snrOwn) then
          enterFeedPhase c .select (setFeed c (selectSettings (circOf t c) f) t)
        else t
      | .select =>
        if cdChoice w = choiceOf f then enterFeedPhase c (if f.dn.thp || f.upw.thp then .precode else .switch) t else t
      | .precode =>
        let f := if f.dn.thp && decide (cdCount w < 24) then
            { f with taps := (cdCount w, signedOf 16 (cdValue w)) :: f.taps.filter fun e => e.1 != cdCount w } else f
        let t := setFeed c f t
        if cdReady w && tapsComplete f then enterFeedPhase c .switch t else t
      | .switch => modFeed c (fun f => { f with wire := { f.wire with upFrom := some (t.clk.now + cdCount w * spanLen f) } }) t
      | .echo => t

/-- The seed of the upstream line sequence (R204), and a run of soft bits freed from it. -/
def lineSeed (c : Nat) : Nat := lineSeedOf true c
def unline : Nat → List Int → Nat × List Int
  | r, [] => (r, [])
  | r, x :: xs =>
    let n := lineStep r
    let rest := unline n.1 xs
    (rest.1, (if n.2 then -x else x) :: rest.2)

/-- Coded bits per tick of a setting (R207), and the branch delay of a direction (R231). -/
def bitsPerTick (pam : Nat) : Nat := if pam = 3 then 297 else if pam = 2 then 198 else 24
def branchD (f : Feed) : Nat := f.span * bitsPerTick f.upw.pam / 240

/-- The blocks complete in the soft bits held, deinterleaved (R231): the block whose first bit is held first, then the next. -/
def cutBlocks : Nat → Nat → Nat → List Int → List (List Int) × List Int
  | 0, _, _, bs => ([], bs)
  | fuel + 1, n, d, bs =>
    if n = 0 ∨ bs.length < n + 240 * d then ([], bs)
    else
      let a := bs.toArray
      let blk := (List.range n).map fun i => a.getD (i + 16 * (i % 16) * d) 0
      let r := cutBlocks fuel n d (bs.drop n)
      (blk :: r.1, r.2)

/-- The threshold of a direction's setting (R212), in 1/16 dB of SNR. -/
def settingThreshold (d : FeedSetting) : Int :=
  if d.pam = 1 then ((pam2Ladder.find? fun e => e.1 == d.rate).map (·.2)).getD 0
  else ((cdLadder.find? fun e => e.1 == d.pam && e.2.1 == d.rate).map (·.2.2)).getD 0

/-- SWITCH's exit (R211, R213), once the upstream SNR has met its threshold for 100 ticks in a row: UP, with the trained snapshot, RMS_REF and RSSI latched over the samples not clipped (R123, R144). -/
def switchExit (c : Nat) (s : State) : State :=
  let f := feedOf s c
  if !inTraining f || f.phase != .switch || decide (f.okRun < 100) then s
  else
    let x := circOf s c
    let ms := meanSq (x.buffer.filter (· != clipCode))
    let t := setFeed c { f with
      state := .up, trainedSnr := f.snrOwn, trainedMse := f.mse, missed := 0, mseRun := 0, drifted := false, reverted := false
      wire := { f.wire with trained := f.wire.now }, rssi := coupler16 s c x.gain ms } s
    setCirc c { x with refSq := ms, refGain := x.gain, agc := if x.agc = .fixed then .fixed else .frozen, agcBack := .track } t

/-- A phase of 5 ms has passed (R211, R213). DESIGN CHOICE: a SELECT or PRECODE that times out at 100 MBd fails as at 25 MBd; R213 states that of 25 MBd only. -/
def phaseTimeout (c : Nat) (s : State) : State :=
  let f := feedOf s c
  match f.state with
  | .retrain => train c s
  | .training =>
    match f.phase with
    | .switch =>
      let t := modFeed c (fun f => { f with lower := f.lower + 1 }) s
      enterFeedPhase c .select (setFeed c (leaveData (selectSettings (circOf t c) (feedOf t c))) t)
    | .echo | .duplex =>
      if f.fast then
        let at_ := f.startedAt
        modFeed c (fun g => { g with startedAt := at_ }) (beginTraining c .training false s)
      else trainFails c s
    | _ => trainFails c s
  | _ => s

/-- Data mode down, and up: from the end of each end's countdown in SWITCH on (R204, R211). -/
def sendsData (f : Feed) (k : Nat) : Bool := f.state == .up || (inTraining f && f.phase == .switch && decide (32 ≤ spanOf f k))
def dataMode (f : Feed) (now : Nat) : Bool := f.state == .up || (inTraining f && f.phase == .switch && f.wire.upFrom.any (decide <| · ≤ now))
/-- Data mode begins upstream: the stream starts anew (R204, R231). -/
def startData (c : Nat) (f : Feed) : Feed := { leaveData f with line := lineSeed c }

/-- The soft bits of a tick in data mode (R204, R209, R231): freed from the line sequence, and cut into the blocks they complete. -/
def feedSoft (c now : Nat) (soft : List Int) (s : State) : State :=
  let f := feedOf s c
  let u := unline f.line soft
  let n := liftN f.lift
  let cut := cutBlocks 64 n (branchD f) (f.soft ++ u.2)
  setFeed c { f with soft := cut.2, line := u.1, blocks := f.blocks + cut.1.length }
    (queueWords c 3 f.session f.lift f.upw.rate now f.blocks cut.1 s)

/-- The half symbols of the frame kept last, in units of full scale (R209), and the echo's replica at each. -/
def feedHalves (x : Circuit) (f : Feed) : List Int :=
  let at_ := fun (i : Nat) => ((x.past[i]?).map (·.xs)).getD []
  let r : Int := max (rootOf f.wire.scale) 1
  ((Config.resample (if f.fast then 1 else 0) f.wire.now.phase (at_ 1) (at_ 0)).take (2 * perTick f.fast)).map fun v => v * 2 ^ 14 / r
/-- The number of half symbol 0 of frame `now` on the own symbols' count: how far the emission of that instant lies ahead (R98, R209). -/
def echoBase (s : State) (n now : Nat) : Int := 2 * (n : Int) * now - 2 * n * (s.port.rxLead + s.port.txLag : Nat) / 1000

/-- ECHO: the canceller adapts on the device's own echo, the far end being silent (R211); the attenuation is measured outside notched bands (R258). -/
def echoTick (base : Int) (bands : List (Nat × Nat)) (rs : List Int) (f : Feed) : Feed :=
  let n := perTick f.fast
  let g := (List.range rs.length).foldl (fun (acc : List Int × List Int) (h : Nat) =>
    let a := echoInputs n f.wire.own (base + h)
    let e := rs.getD h 0 - dot acc.1 a
    (lmsReal 4 e (energyOf a) a acc.1, acc.2 ++ [e])) (f.wire.now.ec, [])
  let clean := fun (xs : List Int) => if bands.isEmpty then xs else (Config.notchBank bands [] xs).1
  { f with echoAtt := ratio16 (energyOf (clean rs)) (energyOf (clean g.2)), wire := { f.wire with now := { f.wire.now with ec := g.1 } } }

/-- The stamp of the marker of a frame in 1/16 ns on the count of ticks (R203), less its downstream marker's departure (R98, R200, R335): `h` its half
symbol, `lag` how far its number lies behind. -/
def markerLoop (s : State) (c n now lag : Nat) (h phase : Int) : Int :=
  16000 * (now : Int) + h * 8000 / n + phase * 250 / n - 16 * s.port.rxLead + rxOffset s c
    - (16000 * ((now - lag : Nat) : Int) + 16 * s.port.txLag + txOffset s c)

/-- From DUPLEX on: the echo-cancelled samples pass the notch bank (R258) and are equalised, decided and tracked (R203, R209, R211). What it gives: the
link, the tick's soft bits, whether a marker was accepted, and a move of the centroid by more than 1 ns. -/
structure FeedHeard where
  feed : Feed
  soft : List Int := []
  marker : Option Bool := none
  moved : Bool := false
/-- A tick's upstream SNR meets the setting's threshold in data mode (R211). -/
def noteOk (dead data : Bool) (f : Feed) : Feed :=
  if dead then f else { f with okRun := if data && decide (settingThreshold f.upw ≤ f.snrOwn) then f.okRun + 1 else 0 }
def hearTick (s : State) (c now : Nat) (past : List PastTick) (frac : Nat) (bands : List (Nat × Nat)) (rs : List Int) (f : Feed) : FeedHeard :=
  let n := perTick f.fast
  let base := echoBase s n now
  let es := (List.range (2 * n)).map fun (h : Nat) => rs.getD h 0 - dot f.wire.now.ec (echoInputs n f.wire.own (base + h))
  let b := if bands.isEmpty then (es, f.wire.bank) else Config.notchBank bands f.wire.bank es
  let all := f.wire.tail ++ b.1
  let res := fun (h : Int) => if h + 72 < 0 then 0 else all.getD (h + 72).toNat 0
  let data := dataMode f now
  let pam := if data then f.upw.pam else 1
  let mark := f.wire.mark.orElse fun _ => if f.state = .up then none else findMark f.fast c res
  let l0 := { f.wire with mark := mark, tail := all.drop (all.length - 72), bank := b.2 }
  match mark with
  | none => { feed := { f with wire := l0 } }
  | some m =>
    let i : FeedIn := { n := n, now := now, pam := pam, data := data, thp := data && f.upw.thp, mu := if f.state = .up then 8 else 4
                        frac := frac, past := past, base := base, skew := s.clk.tick - s.clk.now }
    let r := feedSymbols i res m f.wire.lag { line := l0 }
    let frame := if 2 * n ≤ m + 12 then now - 1 else now
    let lag := f.wire.lag.orElse fun _ => findLag ((frame : Int) + s.clk.tick - s.clk.now).toNat r.line.signs
    let t := steer r.line.now
    let is_ := t.phase + centroid t.ff
    let place := if f.state = .up then some is_ else l0.place
    let mse := if r.count = 0 then f.mse else ratio16 r.errSum (r.count * 2 ^ 28)
    { feed := { f with
        wire := { r.line with lag := lag, now := t, place := place }, mse := mse, snrOwn := -mse
        loop := if r.marker = some true then lag.map fun l => markerLoop s c n frame l m t.phase else none }
      soft := r.soft, marker := r.marker, moved := f.state == .up && l0.place.any fun p => decide (64 * n < 1000 * (is_ - p).natAbs) }

/-- HK's work on a feed circuit's MEASURED frame (R123 to R126, R144): winnower, clipping, chaff, and the AGC while training. -/
def feedHouse (s : State) (now : Nat) (w : Winnowed) (clipped : Bool) (f : Feed) (x : Circuit) : Circuit :=
  let y := countImpulses s now w (if clipped then bump .clippedTicks x else x)
  if inTraining f && !w.kept.isEmpty then agcTick now (dbfs16 (meanSq w.kept)) w.clips y else y

/-- The guard's measures of a tick (R203, R213, R214). A STALE or clipped tick pauses the count of high MSE. -/
def guardTick (clipped : Bool) (h : FeedHeard) : Feed :=
  let f := h.feed
  let high := decide (f.trainedMse + 48 < f.mse)
  { f with
    missed := match h.marker with
      | some true => 0
      | some false => f.missed + 1
      | none => f.missed
    mseRun := if clipped then f.mseRun else if high then f.mseRun + 1 else 0
    reverted := f.reverted && (clipped || high)
    drifted := f.drifted || tapsDrifted f.wire.now f.wire.trained
    discard := if h.moved then 64 else f.discard - 1 }

/-- The tick of a feed circuit (R144, R203, R209, R211, R214): HK's work, ECHO's training and exit, and from DUPLEX on the receiver; in data mode the
blocks received. -/
def feedTick (c now : Nat) (lost : Abandoned) (s : State) : State :=
  let x := circOf s c
  let f := if (feedOf s c).phase = .switch ∧ inTraining (feedOf s c) = true ∧ (feedOf s c).wire.upFrom = some now then startData c (feedOf s c)
    else feedOf s c
  let stale := x.cls == .stale
  let w := winnowWith (if f.state = .up then some (rescale x.refSq x.refGain x.gain) else rmsRef s c { x with rxT := {}, rxA := {} }) now x
  let clipped := !stale && decide (13 ≤ w.clips)
  let dead := stale || clipped || lost.rx
  let x := keepTick { at_ := now, xs := if stale then [] else scaled x w.mask, mask := if stale then [] else w.mask
                      over8 := if stale then [] else w.over8, deadT := dead, deadA := dead } x
  let x : Circuit := if lost.rx then x else { x with staleRun := if stale then x.staleRun + 1 else 0, clipRun := if clipped then x.clipRun + 1 else 0 }
  let x := if lost.hk || stale then x else feedHouse s now w clipped f x
  let s := setCirc c x s
  let f := if f.wire.scale = 0 ∧ dead = false then
      { f with wire := { f.wire with scale := sumSquares ((x.past.head?.map (·.xs)).getD []) / 250 } } else f
  let bands := bankList ((x.profileKept).getD s.circ.profile) x.notches
  if !(f.state == .up || inTraining f) then setFeed c f s
  else if f.phase = .echo ∧ inTraining f = true then
    if dead then setFeed c f s
    else
      let g := echoTick (echoBase s (perTick f.fast) now) bands (feedHalves x f) f
      let s := setFeed c g s
      if 1000 ≤ s.clk.now - g.phaseAt ∧ 480 ≤ g.echoAtt then enterFeedPhase c .duplex s else s
  else
    let h := hearTick s c now x.past x.set.eraseFrac bands (if dead then [] else feedHalves x f) f
    let h := if dead then { h with feed := { h.feed with wire := { h.feed.wire with now := f.wire.now } } } else h
    let g := if stale || lost.rx then { f with wire := h.feed.wire } else if f.state = .up then guardTick clipped h else noteOk dead (dataMode f now) h.feed
    let s := if !(stale || lost.rx) && h.moved then modCirc c (bump .cdTimeStep) s else s
    let s := setFeed c g s
    if dataMode f now then feedSoft c now h.soft s else s

/-- CD_TRAIN_WORD (R210, R211). -/
def execCdTrainWord (c : Nat) (w : Word) (s : State) : Result := onObject (circuitExists s c) s (trainWord c w s)

/-- CD_SWITCH_EXIT (R211). -/
def execCdSwitchExit (c : Nat) (s : State) : Result := onObject (circuitExists s c) s (switchExit c s)

/-- CD_PHASE_TIMEOUT (R211, R213). -/
def execCdPhaseTimeout (c : Nat) (s : State) : Result :=
  onObject (circuitExists s c) s (if (feedOf s c).phaseAt + 5000 ≤ s.clk.now then phaseTimeout c s else s)

/-- CD_TRAINING_TIMEOUT (R211, R213): 200 ms. -/
def execCdTrainingTimeout (c : Nat) (s : State) : Result :=
  onObject (circuitExists s c) s
    (if inTraining (feedOf s c) = true ∧ (feedOf s c).startedAt + 200000 ≤ s.clk.now then trainFails c s else s)

/-- FEED_SEARCH_RETRY (R213, R248): a second after the last training began; with profile NONE the link stays in FEED_SEARCH. -/
def execFeedSearchRetry (c : Nat) (s : State) : Result :=
  onObject (circuitExists s c) s (if (feedOf s c).state = .search ∧ s.circ.profile ≠ 0 ∧ (feedOf s c).startedAt + 1000000 ≤ s.clk.now then train c s else s)

/-- LINK_LOST (R213): the eighth missed marker in a row. -/
def execLinkLost (c : Nat) (s : State) : Result :=
  onObject (circuitExists s c) s
    (if (feedOf s c).state = .up ∧ 8 ≤ (feedOf s c).missed then raise 0x0045 c (retrain c (modCirc c (bump .linkLost) s)) else s)

/-- FEED_OVERLOAD (R144, R213): the ninth clipped tick in a row. -/
def execFeedOverload (c : Nat) (s : State) : Result :=
  onObject (circuitExists s c) s
    (if (feedOf s c).state = .up ∧ 9 ≤ (circOf s c).clipRun then raise 0x0044 c (retrain c (modCirc c (bump .feedOverload) s)) else s)

/-- TAP_REVERT (R214): every tap set is the trained one again. -/
def execTapRevert (c : Nat) (s : State) : Result :=
  let f := feedOf s c
  onObject (circuitExists s c) s
    (if f.state = .up ∧ (f.drifted = true ∨ (1000 ≤ f.mseRun ∧ f.reverted = false)) then
       modCirc c (bump .tapRevert) (setFeed c { f with drifted := false, mseRun := 0, reverted := true, wire := { f.wire with now := f.wire.trained } } s)
     else s)

/-- TAP_GUARD_FAIL (R213, R214): 1,000 further ticks after a revert. -/
def execTapGuardFail (c : Nat) (s : State) : Result :=
  let f := feedOf s c
  onObject (circuitExists s c) s (if f.state = .up ∧ f.reverted = true ∧ 1000 ≤ f.mseRun then retrain c s else s)

end Sys2Proof.Machine
end

