-- ==== Sys2Proof/Machine/Records.lean ====
section
/-! DEFINITION. Access to the endpoint records, and the Class A snapshots they hold (spec/12_link_procedures.md R289, spec/07_class_a.md R191 to
R193). -/
namespace Sys2Proof.Machine

/-- The record whose address on a circuit is `a`; an ABSENT record holds none (R289). -/
def recordAt (s : State) (c a : Nat) : Option Record := s.link.records.find? fun r => r.circuit == c && r.addr == some a
/-- The record of an endpoint identity. -/
def recordId (s : State) (id : Nat) : Option Record := s.link.records.find? fun r => r.epId == id

/-- Records changed. -/
def modRecords (f : Record → Record) (s : State) : State := { s with link := { s.link with records := s.link.records.map f } }
def modRecordAt (c a : Nat) (f : Record → Record) (s : State) : State :=
  modRecords (fun r => if r.circuit = c ∧ r.addr = some a then f r else r) s
def modRecordId (id : Nat) (f : Record → Record) (s : State) : State := modRecords (fun r => if r.epId = id then f r else r) s

/-- The repeater an endpoint is reached through; none where its route is direct (R289, R313). -/
def viaOf (s : State) (r : Record) : Option Record := s.link.records.find? fun x => x.circuit == r.circuit && x.far.contains r.epId
/-- The route as reports and ACCEPT give it: the repeater's address, 0 where direct (R294, R392); 0xFFF for one that has none. -/
def routeWord (s : State) (r : Record) : Nat := ((viaOf s r).map fun x => x.addr.getD 0xFFF).getD 0
/-- The addresses of a repeater's far endpoints, in the order of its assignment. -/
def farAddrs (s : State) (r : Record) : List Nat := r.far.filterMap fun ep => (recordId s ep).bind (·.addr)

/-- A VALID snapshot becomes STALE (R193). -/
def staleSnap (r : Record) : Record :=
  if r.snap.state = .valid then { r with snap := { r.snap with state := .stale } } else r

/-- A granted uplink that ends in NO_SYNC or HEADER_FAIL; the second in a row makes the snapshot STALE (R193). -/
def uplinkLost (c a : Nat) (s : State) : State :=
  modRecordAt c a (fun r => let x := { r with lost := r.lost + 1 }; if 2 ≤ x.lost then staleSnap x else x) s

/-- A grant's failure counts once (R193). -/
def grantLost (c : Nat) (q : Seat) (s : State) : State :=
  if (circOf s c).failedSeat = some q.first then s
  else uplinkLost c q.grant.addr (modCirc c (fun x => { x with failedSeat := some q.first }) s)

/-- The MSE at a sync word against that of the seat's copy (R192, R193): more than 6 dB above it makes the snapshot STALE, and SNAP_STALE is counted. -/
def syncMse (c a : Nat) (stored : Option Int) (mse : Int) (s : State) : State :=
  match stored with
  | none => s
  | some m => if m + 96 < mse then modCirc c (bump .snapStale) (modRecordAt c a staleSnap s) else s

/-- The copies that the seats of the next tick's grants work with (R192): taps where there is a snapshot, and the MSE of a VALID one. -/
def prefetchSeats (next : Nat) (s : State) : State :=
  (s.sf.grants.filter fun g => (g.gtype == 1 || g.gtype == 4) && decide (s.sf.t0 + 25 * g.slot = next)).foldl (fun t g =>
    let r := recordAt t g.circuit g.addr
    modCirc g.circuit (fun x => { x with
      seatTaps := (r.map fun r => if r.snap.state = .none then [] else r.snap.taps).getD []
      seatMse := r.bind fun r => if r.snap.state = .valid then some r.snap.mse else none }) t) s

/-- NBRS and NBR_COUNT of a circuit as the snapshot header's word 1 holds them (R191); unused entries are 0. -/
def nbrsWord (s : State) (c : Nat) : Word :=
  match circuitRec s.plan.active c with
  | none => 0
  | some w =>
    let ns := circNbrs w
    fieldAt 63 54 (ns.getD 0 0) ||| fieldAt 53 44 (ns.getD 1 0) ||| fieldAt 43 34 (ns.getD 2 0) ||| fieldAt 33 24 (ns.getD 3 0)
      ||| fieldAt 23 16 ns.length

/-- The commit of a provisional snapshot (R192, R193): none for a short-form reception without a snapshot, none where the stored one is newer. -/
def commitSnap (e : Entry) (s : State) : State :=
  match e.provisional, recordAt s e.circuit e.addr with
  | some (sf, tick, mse, freq, taps), some r =>
    let n := r.snap
    if (n.state = .none ∧ e.train = false) ∨ sf < n.sf ∨ (sf = n.sf ∧ tick < n.tick) then s
    else
      let x : Snapshot := {
        state := if n.state = .stale ∧ e.train = false then .stale else .valid
        sf := sf, tick := tick, nbrs := nbrsWord s e.circuit, calEpoch := (portOf s (e.circuit / 24)).calEpoch
        mse := mse, eqSinr := e.eqSinr, freq := freq, taps := taps }
      let t := modRecordAt e.circuit e.addr (fun r => { r with snap := x }) s
      if n.state = .none then modCirc e.circuit (bump .snapTrain) t else t
  | _, _ => s

/-- What a tick's Class A reception tells the granted endpoint's record (R184, R193): one failure at most for each grant. -/
def seatOutcome (c now : Nat) (news : SeatNews) (before : Circuit) (s : State) : State :=
  match seatAt s c now with
  | none => s
  | some q =>
    let a := q.grant.addr
    let x := circOf s c
    let s := if before.rxA.st = .idle ∧ x.rxA.st ≠ .idle then modRecordAt c a (fun r => { r with arrival := x.arrival }) s else s
    let t := match news.mse with
      | some m => syncMse c a x.seatMse m s
      | none => s
    match news.judged with
    | none => t
    | some true => modRecordAt c a (fun r => { r with lost := 0 }) t
    | some false => grantLost c q t

end Sys2Proof.Machine
end

