-- ==== Sys2Proof/Machine/Outbox.lean ====
section
/-! DEFINITION. The transmit path up to the coded bits: settings of downlinks, frames as bytes, protection, PPDUs (spec/01_architecture.md R32, R33,
spec/06_class_t.md R155 to R162, spec/07_class_a.md R175 to R183, spec/11 R266, R269 to R272, R279, spec/16 R418, R419, spec/17 R426 to R428). -/
namespace Sys2Proof.Machine

/-! Frames as bytes (R270, R426 to R428). -/

/-- Bytes of a bit string, most significant bit first; an incomplete last byte is dropped. -/
def bytesOfBits : Nat → List Bool → List Byte
  | 0, _ => []
  | n + 1, bs => if bs.length < 8 then [] else BitVec.ofNat 8 (bitsNat (bs.take 8)) :: bytesOfBits n (bs.drop 8)

/-- The MAC header of a frame whose LENGTH is given (R270), and the frame a header begins. -/
def macHeader (f : Frame) (len : Nat) : Word :=
  fieldAt 63 60 f.ftype ||| fieldAt 59 48 f.dest ||| fieldAt 47 36 f.src ||| fieldAt 35 24 f.seq ||| fieldAt 23 10 len
    ||| fieldAt 9 4 f.flags ||| fieldAt 3 0 f.keyIdx
def frameOf (w : Word) (body : List Byte) : Frame :=
  { ftype := fieldOf w 63 60, dest := fieldOf w 59 48, src := fieldOf w 47 36, seq := fieldOf w 35 24
    flags := fieldOf w 9 4, keyIdx := fieldOf w 3 0, body := body }
/-- LENGTH of a header. -/
def macLength (w : Word) : Nat := fieldOf w 23 10

/-- The native check of a frame on a circuit: over the fold, the header and all bytes up to the check (R426, R427). -/
def nativeCheck (c : Nat) (w : Word) (rest : List Byte) : Nat :=
  crc32c (foldBytes c (fieldOf w 59 48) (fieldOf w 35 24) ++ bytesBE w ++ rest)

/-- The bytes of a frame as sent (R270, R428): header, body, check. -/
def frameBytes (c : Nat) (f : Frame) : List Byte :=
  let w := macHeader f (f.body.length + 4)
  bytesBE w ++ f.body ++ bytesOfNat 4 (nativeCheck c w f.body)

/-! Downlink settings (R181, R183). -/

/-- The rate ladder: MOD, RATE, threshold in 1/16 dB (R183). -/
def rateLadder : List (Nat × Nat × Int) :=
  [(0, 0, 16), (1, 0, 48), (1, 2, 96), (2, 1, 144), (2, 3, 192), (3, 2, 216), (3, 4, 256), (4, 2, 264), (4, 4, 304), (5, 2, 320), (5, 3, 352),
   (5, 4, 384)]

/-- MOD, SF code and RATE for an SINR less margin (R183); QPSK 1/2 at SF 4 where there is no figure. -/
def ladderSetting (sinr : Option Int) (margin : Int) : Nat × Nat × Nat :=
  match sinr with
  | none => (1, 2, 0)
  | some e =>
    match (rateLadder.filter fun x => decide (x.2.2 ≤ e - margin)).getLast? with
    | some x => (x.1, 0, x.2.1)
    | none => (0, if -32 ≤ e - margin then 1 else if -80 ≤ e - margin then 2 else if -128 ≤ e - margin then 3 else 4, 0)

/-- The ladder's entry for an SINR less margin, 0 below entry 1 (R183). -/
def entryFor (sinr : Option Int) (margin : Int) : Nat :=
  match sinr with
  | none => 0
  | some e => (rateLadder.filter fun x => decide (x.2.2 ≤ e - margin)).length
/-- RATE_MARGIN of a circuit in 1/16 dB. -/
def marginOf (s : State) (c : Nat) : Int := 8 * (circOf s c).set.rateMargin

/-- LIFT and NCW for a frame of so many bytes (R183). -/
def liftFor (rate bytes : Nat) : Nat × Nat :=
  let need := fun (l : Nat) => (8 * bytes + infoBits l rate - 1) / infoBits l rate
  if need 0 ≤ 2 then (0, need 0) else if need 1 ≤ 2 then (1, need 1) else (2, need 2)

/-- The next Class A downlink goes in the training form (R181, R183). -/
def trainForm (s : State) (r : Record) : Bool :=
  r.trainReq || r.sinrA.isNone || (match r.lastTrain with
    | none => true
    | some n => decide (10000 < s.sf.number - n))

/-- Class A carries the endpoint's downlinks: the circuit is shared with Class A and the endpoint has it (R389, R293). -/
def overClassA (s : State) (r : Record) : Bool := circuitMode s r.circuit == 2 && decide (r.caps / 64 % 2 = 1)

/-- Bytes of a frame as sent (R270, R418): header, body and check; a protected one carries a nonce word and a tag. -/
def frameSize (f : Frame) : Nat := 12 + f.body.length + (if f.keyIdx = 0 then 0 else 24)

/-! Steering (R238). -/

/-- A tick of a superframe of so many ticks touches a NOISY bin, or one within CHAFF_GUARD bins of it (R236 to R238). -/
def binNoisy (s : State) (c len j : Nat) : Bool :=
  let x := circOf s c
  let b := min (64 * j / max len 1) 63
  (List.range 64).any fun k => bitOf x.noisy k && decide (k ≤ b + x.set.chaffGuard ∧ b ≤ k + x.set.chaffGuard)
/-- Ticks j to j + n - 1 touch such a bin. A bin is longer than 16 ticks, so every 16th tick and the last tell. -/
def ticksNoisy (s : State) (c len j n : Nat) : Bool :=
  (List.range (n / 16 + 1)).any (fun i => binNoisy s c len (min (j + 16 * i) (j + n - 1))) || binNoisy s c len (j + n - 1)

/-- Ticks of the Class A downlink PPDU that carries a frame to an endpoint (R179, R183). -/
def downTicks (s : State) (r : Record) (f : Frame) : Nat :=
  let g := ladderSetting r.sinrA (marginOf s r.circuit)
  let l := liftFor g.2.2 (frameSize f)
  (2 ^ g.2.1 * (preSymbols (trainForm s r) + (l.2 * liftN l.1 + g.1) / (g.1 + 1)) + 49) / 50

/-- The frame fits at the endpoint's setting (R358); only a Class A downlink has that limit. -/
def fitsDown (s : State) (r : Record) (f : Frame) : Bool := !overClassA s r || decide (downTicks s r f ≤ 175)

/-! Protection (R33, R413, R418, R419). -/

/-- An identity as associated data. -/
def idBytes (ep : Nat) : List Byte := bytesOfNat 16 ep

/-- The engine serves firmware's frames: D29 is ENABLED and the DRBG runs (R15, R423). -/
def engineReady (s : State) : Bool := domOn s 29 && !s.aead.drbgHalted

/-- A key wrapped under a slot (R411, R413): its counter's word, the encrypted key and a tag of 16 bytes. -/
def unwrapUnder (k : Nat) (ad : List Byte) (ws : List Word) (s : State) : Option (List Byte) :=
  let x := slotOf s k
  let bs := (ws.drop 1).flatMap bytesBE
  match x.key with
  | none => none
  | some key => aeadOpen false key (x.epoch * 18446744073709551616 + (ws.getD 0 0).toNat) ad (bs.take (bs.length - 16)) (bs.drop (bs.length - 16))
/-- A key that the device wrapped under STORE. -/
def unwrapStore (ad : List Byte) (ws : List Word) (s : State) : Option (List Byte) := unwrapUnder 1 ad ws s
/-- A key wrapped under a slot: the counter and the words. -/
def wrapUnder (k : Nat) (ad key : List Byte) (s : State) : List Word × State :=
  let x := slotOf s k
  let w := aeadSeal false (x.key.getD []) (x.epoch * 18446744073709551616 + x.counter) ad key 16
  (BitVec.ofNat 64 x.counter :: keyOfBytes (w.1 ++ w.2), (useCounter k s).getD s)
/-- An endpoint's session key. -/
def sessionKeyOf (s : State) (r : Record) : Option (List Word) := (unwrapStore (idBytes r.epId) r.sessionKey s).map fun b => keyOfBytes (b.take 32)

/-- The associated data of a protected frame: its MAC header and its nonce word (R418). -/
def frameAd (f : Frame) (len : Nat) (nonce : Word) : List Byte := bytesBE (macHeader f len) ++ bytesBE nonce

/-- A unicast frame under its endpoint's session key (R418, R419): the nonce word, the encrypted message and the tag; none where the engine cannot make
them. -/
def sealFrame (r : Record) (f : Frame) (s : State) : Option (List Byte) × State :=
  let x := slotOf s 3
  match sessionKeyOf s r, useCounter 3 s with
  | some key, some t =>
    if engineReady s then
      let nonce := BitVec.ofNat 64 x.counter
      let o := aeadSeal false key (r.sessionEpoch * 18446744073709551616 + x.counter) (frameAd f (f.body.length + 28) nonce) f.body 16
      (some (bytesBE nonce ++ o.1 ++ o.2), t)
    else (none, s)
  | _, _ => (none, s)

/-- The message of a protected frame from an endpoint (R418): its bytes from the MAC header to the tag, under the session key, with bit 31 of the
epoch inverted; none where the tag fails. -/
def openFrame (r : Record) (bytes : List Byte) (s : State) : Option (List Byte) :=
  match sessionKeyOf s r with
  | none => none
  | some key =>
    if engineReady s then
      let nonce := (r.sessionEpoch ^^^ 2147483648) * 18446744073709551616 + (wordBE ((bytes.drop 8).take 8)).toNat
      let rest := bytes.drop 16
      aeadOpen false key nonce (bytes.take 16) (rest.take (rest.length - 16)) (rest.drop (rest.length - 16))
    else none

/-- What a frame carries after its MAC header up to its check: its body, or that protected (R418). -/
def protect (r : Record) (f : Frame) (s : State) : Option (List Byte) × State :=
  if f.keyIdx = 15 then sealFrame r f s else (some f.body, s)

/-! PPDUs (R158, R178, R183). -/

/-- Coded bits in the order of the wire (R233): bit i goes to position `wirePos d l i`. -/
def interleaveA (l d : Nat) (bs : List Bool) : List Bool :=
  ((List.zip (List.range l) bs).foldl (fun (a : Array Bool) e => a.setIfInBounds (wirePos d l e.1) e.2) (Array.replicate l false)).toList

/-- The ACK of a record's uplinks (R306, R307): every acceptance so far. -/
def ackFrame (r : Record) : Frame :=
  { ftype := 8, dest := r.addr.getD 0, body := bytesBE (fieldAt 63 52 r.upBase) ++ bytesBE r.upMap }
/-- A frame's bytes as they go out: an ACK holds every acceptance up to then (R307). -/
def atSending (s : State) (c : Nat) (bytes : List Byte) : List Byte :=
  let w := wordBE (bytes.take 8)
  if fieldOf w 63 60 = 8 then ((recordAt s c (fieldOf w 59 48)).map fun r => frameBytes c (ackFrame r)).getD bytes else bytes
/-- A PPDU's coded bits for other bytes. -/
def recode (c : Nat) (bytes : List Byte) (p : Ppdu) : Ppdu :=
  let h := p.header
  { p with coded := (if p.cls = 1 then encodeFrame c (tLift h) (tRate h) (tNcw h) bytes else encodeFrame c (aLift h) (aRate h) (aNcw h) bytes).flatten }
/-- A Class A PPDU that begins in the present superframe is interleaved at the span of its beacon (R233, R234). -/
def interleaved (s : State) (c : Nat) (p : Ppdu) : Ppdu :=
  let l := p.coded.length
  if p.cls = 2 then { p with coded := interleaveA l (branchA (effectiveSpan (circuitSpan s c)) (modBits (aMod p.header)) (aSf p.header) l) p.coded } else p

/-- A Class A PPDU at a setting. -/
structure SettingA where
  mod : Nat := 0
  sf : Nat := 0
  rate : Nat := 0
  lift : Nat := 0
  ncw : Nat := 1
  train : Bool := false
def headA (c : Nat) (g : SettingA) : Word := aHeader c g.mod g.sf g.lift g.rate g.ncw g.train 0
def ppduA (c : Nat) (g : SettingA) (bytes : List Byte) : Ppdu :=
  { cls := 2, header := headA c g, coded := (encodeFrame c g.lift g.rate g.ncw bytes).flatten }

/-- PSF and rate with which the head-end sends a Class T PPDU that is no beacon, within the limit of R162: DESIGN CHOICE: the spec gives no rule for
them, so that they are a free value of the circuit and the count of ticks. -/
def rateT (s : State) (c bytes : Nat) : Nat × Nat :=
  let free := fun (i n : Nat) => (Config.derived 162 [(c : Int), (s.clk.now : Int), (i : Int)] % (n : Int)).toNat
  let rate := ((List.range 5).find? fun r => decide (free 1 5 ≤ r) && decide ((liftFor r bytes).2 * liftN (liftFor r bytes).1 ≤ 18432)).getD 4
  (1 + free 0 3, rate)
/-- A Class T PPDU of a type. -/
def ppduT (s : State) (c ptype : Nat) (bytes : List Byte) : Ppdu :=
  let g := rateT s c bytes.length
  let l := liftFor g.2 bytes.length
  { cls := 1, header := tHeader ptype g.1 0 l.1 g.2 l.2 0, coded := (encodeFrame c l.1 g.2 l.2 bytes).flatten }

/-- The setting of a circuit's grant sheet, in the training form (R279): ladder entry SHEET_ENTRY at spreading factor 1. -/
def sheetSetting (s : State) (c : Nat) : SettingA :=
  let e := rateLadder.getD ((circOf s c).set.sheetEntry - 1) (0, 0, 0)
  { mod := e.1, rate := e.2.1, train := true }

/-- How a frame travels: to an endpoint, in the training form or not; broadcast; or in Class T whatever the endpoint has (R181, R271, R295). -/
inductive Way where
  | endpoint (r : Record) (train : Bool)
  | broadcast
  | classT

/-- The PPDU that carries a frame's bytes on a shared circuit (R181, R183, R266). -/
def ppduFor (s : State) (c : Nat) (way : Way) (bytes : List Byte) : Ppdu :=
  let classA := fun (g : SettingA) => let l := liftFor g.rate bytes.length; ppduA c { g with lift := l.1, ncw := l.2 } bytes
  match way with
  | .classT => ppduT s c 2 bytes
  | .broadcast => if circuitMode s c = 2 then classA (sheetSetting s c) else ppduT s c 2 bytes
  | .endpoint r train =>
    if overClassA s r then
      let g := ladderSetting r.sinrA (marginOf s c)
      classA { mod := g.1, sf := g.2.1, rate := g.2.2, train := train }
    else ppduT s c 2 bytes

/-- The PPDU of a frame that is steered, at ladder entry 4, the highest from 1 to 4 where the SINR allows 5 (R238); SHEET_ENTRY, by which broadcasts
go, is never above 4. -/
def lowPpdu (s : State) (c : Nat) (way : Way) (bytes : List Byte) : Option Ppdu :=
  let e := rateLadder.getD 3 (0, 0, 0)
  let l := liftFor e.2.1 bytes.length
  match way with
  | .classT => none
  | .broadcast => none
  | .endpoint r train =>
    if overClassA s r ∧ 5 ≤ entryFor r.sinrA (marginOf s c) ∧ (circOf s c).set.chaffSteer = 1 then
      some (ppduA c { mod := e.1, rate := e.2.1, lift := l.1, ncw := l.2, train := train } bytes)
    else none

/-! Express slots (R266, R269). -/

/-- The express slots of a superframe of so many ticks: first superframe tick and length. The last 25 ticks and a slot that they overlap form one interval
(DESIGN CHOICE: in it the last chip lies at or before tick 18 of those 25). -/
def expressSlots (len : Nat) : List (Nat × Nat) :=
  let bs := ((List.range (len / 200 + 1)).map fun i => 175 + 200 * i).filter fun b => decide (b + 25 ≤ len)
  match bs.find? fun b => decide (len < b + 50) with
  | some b => (bs.filter (· != b)).map (·, 25) ++ [(b, len - b)]
  | none => bs.map (·, 25) ++ [(len - 25, 25)]

/-- A Class T grant of the circuit covers a superframe tick (R269). -/
def inClassT (s : State) (c at_ : Nat) : Bool :=
  s.sf.grants.any fun g => g.circuit == c && [2, 3, 5].contains g.gtype && decide (25 * g.slot ≤ at_ ∧ at_ < 25 * (g.slot + g.slots))

/-- A JOIN grant of the circuit covers an instant (R281). -/
def inJoin (s : State) (c k : Nat) : Bool :=
  s.sf.grants.any fun g => g.circuit == c && g.gtype == 5 && decide (s.sf.t0 + 25 * g.slot ≤ k ∧ k < s.sf.t0 + 25 * (g.slot + g.slots))
/-- A JOIN grant in each of the next 8 superframes (R291). -/
def joinsFollow (c : Nat) (s : State) : State := modCirc c (fun x => { x with joinUntil := s.sf.number + 8 }) s
/-- Class T receptions lost by NO_SYNC, HEADER_FAIL or an abort. -/
def lossesT (x : Circuit) : Nat := [Ctr.noSync, .headerFail, .samplesLost, .overload, .timeout].foldl (fun n k => n + tabGet 0 x.counters k.idx) 0
/-- A reception that began in a JOIN grant has been lost since the circuit was `x` (R291). -/
def watchJoin (c : Nat) (x : Circuit) (s : State) : State :=
  if x.rxT.st ≠ .idle ∧ lossesT x < lossesT (circOf s c) ∧ inJoin s c x.rxT.since = true then joinsFollow c s else s

/-- The stream of a frame on a feed circuit (R207): host frames, and all others ahead of them. -/
def streamOf (f : Frame) (express : Bool) : Nat := if express then 0 else if f.ftype = 4 then 2 else 1

/-- The earliest start of a host frame from an express doorbell (R266): 3 ticks after the doorbell, where it has been fetched by the end of the tick after
it, and otherwise so much later; none for any other. -/
def expressFrom (s : State) (h : Option TxFrame) : Option Nat :=
  h.bind fun h => if h.express then some (max (h.rung + 3) (s.clk.now + 2)) else none

/-- A frame joins the transmit path with what it carries between its header and its check; without that, where the engine could not protect it, nothing
goes out. A Class A express PPDU of more than 12 ticks is a normal downlink, and EXPRESS_OVERSIZE is counted (R32, R206, R266). `o` tells whose frame it is
and from when it may go out as an express frame. -/
def sendOut (c : Nat) (f : Frame) (text : Option (List Byte)) (o : Outgoing) (way : Way) (s : State) : State :=
  let express := o.express.isSome
  let t := match text with
    | none => s
    | some bs =>
      let bytes := frameBytes c { f with body := bs }
      if isFeed s c then
        { s with air := { s.air with outbox := s.air.outbox ++ [{ o with circuit := c, bytes := bytes, stream := streamOf f express }] } }
      else
        let p := ppduFor s c way bytes
        let long := express && p.cls == 2 && decide (12 < aTicks p.header)
        let fast := express && p.cls == 2 && !long
        let o := { o with circuit := c, bytes := bytes, ppdu := p, express := if fast then o.express else none, low := if fast then none else lowPpdu s c way bytes }
        let t := { s with air := { s.air with outbox := s.air.outbox ++ [o] } }
        if long then modCirc c (bump .expressOversize) t else t
  emit (.send c f) t

end Sys2Proof.Machine
end

