-- ==== Sys2Proof/Machine/Downlink.lean ====
section
/-! DEFINITION. What the head-end sends an endpoint and when a record ends: the downlink queue and its window, express frames, addresses,
re-addressing and deletion (spec/07_class_a.md R179 to R183, spec/11 R266, R269, spec/12 R289, R300 to R308, spec/14 R357 to R363). -/
namespace Sys2Proof.Machine

/-! The downlink queue (R305, R307, R357, R358). -/

/-- A standby sends nothing of its own (R465). -/
def sendsAllowed (s : State) : Bool := s.pair.role != .standby

/-- The next SEQ is within 63 of the oldest unacknowledged one (R305). -/
def windowOpen (r : Record) : Bool :=
  match r.sent with
  | [] => true
  | x :: _ => decide ((r.dnNext + 4096 - x.seq) % 4096 < 64)

/-- The SEQ of a frame at its first transmission: the next one, or the one journalled for it before a takeover (R305, R466). -/
def seqFor (r : Record) (w : Waiting) : Nat := w.seq.getD r.dnNext

/-- A frame of the queue as it goes out first: DEST, SEQ and the flags (R272, R357). -/
def outgoing (r : Record) (w : Waiting) : Frame :=
  { w.frame with
    dest := r.addr.getD 0, seq := seqFor r w
    flags := match w.host with
      | none => w.frame.flags
      | some h => (if h.express then 32 else 0) + (if h.ackReq then 4 else 0) }

/-- The first frame of an endpoint's queue goes out, with the next SEQ. -/
def sendFirst (ep : Nat) (w : Waiting) (r : Record) (s : State) : State :=
  let f := outgoing r w
  let p := protect r f s
  let x : Sent := { seq := seqFor r w, frame := f, host := w.host.map fun h => { h with seq := some (seqFor r w) }, retries := w.retries
                    lastSf := s.sf.number, firstSf := s.sf.number, out := !isFeed s r.circuit && p.1.isSome, text := if f.keyIdx = 0 then [] else p.1.getD [] }
  let train := overClassA s r && trainForm s r
  sendOut r.circuit f p.1 { express := expressFrom s w.host, owner := some (ep, seqFor r w), first := true } (.endpoint r train) (modRecordId ep (fun r => { r with
    dnNext := if w.seq.isSome then r.dnNext else (r.dnNext + 1) % 4096, sent := r.sent ++ [x], waiting := r.waiting.drop 1
    trainReq := if train then false else r.trainReq, lastTrain := if train then some s.sf.number else r.lastTrain }) p.2)

/-- Frames go out while the window is open and the first of the queue fits. -/
def pumpFrom : Nat → Nat → State → State
  | 0, _, s => s
  | n + 1, ep, s =>
    match recordId s ep with
    | none => s
    | some r =>
      match r.waiting with
      | [] => s
      | w :: _ =>
        if r.state = .active ∧ sendsAllowed s = true ∧ windowOpen r = true ∧ fitsDown s r (outgoing r w) = true then
          pumpFrom n ep (sendFirst ep w r s)
        else s
def pump (ep : Nat) (s : State) : State := pumpFrom (((recordId s ep).map (·.waiting.length)).getD 0) ep s

/-- A frame joins an endpoint's queue. -/
def queueDown (ep : Nat) (w : Waiting) (s : State) : State :=
  pump ep (modRecordId ep (fun r => { r with waiting := r.waiting ++ [w] }) s)

/-- A CONTROL or TIME frame to an endpoint, under its session key (R419). -/
def controlFrame (ws : List Word) : Frame := { ftype := 5, keyIdx := 15, body := ws.flatMap bytesBE }
def timeFrame (ws : List Word) : Frame := { ftype := 7, keyIdx := 15, body := ws.flatMap bytesBE }
def sendControl (ep : Nat) (ws : List Word) (s : State) : State := queueDown ep { frame := controlFrame ws } s
def sendTime (ep : Nat) (ws : List Word) (s : State) : State := queueDown ep { frame := timeFrame ws } s

/-! Repeaters (R313). -/

/-- RELAY_ASSIGN for a repeater's present set (R304, R313). -/
def relayAssign (slot : Nat) (far : List Nat) : List Word :=
  let w := fun (i : Nat) => fieldAt 63 52 (far.getD i 0) ||| fieldAt 51 40 (far.getD (i + 1) 0) ||| fieldAt 39 28 (far.getD (i + 2) 0)
    ||| fieldAt 27 16 (far.getD (i + 3) 0)
  [fieldAt 63 56 5 ||| fieldAt 55 46 slot ||| fieldAt 45 42 far.length, w 0, w 4]
def sendRelay (ep : Nat) (s : State) : State :=
  match recordId s ep with
  | none => s
  | some r => sendControl ep (relayAssign r.rbSlot (farAddrs s r)) s

/-- The repeaters whose set of far addresses has changed since `old`. -/
def relaysChanged (old s : State) : List Nat :=
  (s.link.records.filter fun r => r.repeats && (match recordId old r.epId with
    | some x => farAddrs old x != farAddrs s r
    | none => false)).map (·.epId)
/-- They hear of it. -/
def refreshRelays (old s : State) : State := (relaysChanged old s).foldl (fun t ep => sendRelay ep t) s

/-- The route of an endpoint: through a repeater, or direct. -/
def setRoute (ep : Nat) (via : Option Nat) (s : State) : State :=
  modRecords (fun x =>
    if via = some x.epId then { x with far := if x.far.contains ep then x.far else x.far ++ [ep] }
    else { x with far := x.far.filter (· != ep) }) s

def sendAck (ep : Nat) (s : State) : State :=
  match recordId s ep with
  | none => s
  | some r =>
    if sendsAllowed s then
      sendOut r.circuit (ackFrame r) (some (ackFrame r).body) {} (.endpoint r (overClassA s r && trainForm s r))
        (modRecordId ep (fun r => { r with ackDue := false }) s)
    else s

/-! Delivery to the receive rings (R309, R360). -/

/-- The ring a DATA frame from an endpoint goes to (R360). -/
def steerRing (s : State) (c a : Nat) : Nat :=
  ((tabGet none s.host.steer (c * 4096 + a)).orElse fun _ => tabGet none s.host.steer (c * 4096 + 0xFFF)).getD 0

/-- A frame joins its ring's held frames. -/
def toRing (f : RxFrame) (s : State) : State :=
  modRxRing (steerRing s f.circuit f.frame.src) (fun x => { x with held := x.held ++ [f] }) s
def toRings (fs : List RxFrame) (s : State) : State := fs.foldl (fun t f => toRing f t) s

/-- The frames a record holds behind gaps, in SEQ order from BASE (R309). -/
def heldInOrder (r : Record) : List RxFrame :=
  (List.range 4096).filterMap fun d => (r.held.find? fun h => h.1 == (r.upBase + d) % 4096).bind (·.2.2)
/-- They are delivered as if the gaps had been skipped (R297). -/
def releaseHeld (ep : Nat) (s : State) : State :=
  match recordId s ep with
  | none => s
  | some r => if r.held.isEmpty then s else toRings (heldInOrder r) (modRecordId ep (fun r => { r with held := [], upMap := 0 }) s)

/-! Addresses (R295, R300, R303). -/

/-- An address is free: no record or join holds it and it is not in quarantine. -/
def addrFree (s : State) (c a : Nat) : Bool :=
  !(s.link.records.any fun r => r.circuit == c && (r.addr == some a || r.newAddr.any (·.1 == a)))
  && !(s.link.joins.any fun j => j.circuit == c && j.paddr == a) && !(s.link.quarantine.any fun q => q.circuit == c && q.addr == a)
/-- The lowest free address, 0x001 to 0xEFF (R273). -/
def lowestFree (s : State) (c : Nat) : Option Nat := ((List.range 0xEFF).find? fun i => addrFree s c (i + 1)).map (· + 1)

/-- An address goes to quarantine (R300). -/
def release (c : Nat) (a : Option Nat) (s : State) : State :=
  match a with
  | none => s
  | some a => { s with link := { s.link with
      quarantine := s.link.quarantine ++ [{ circuit := c, addr := a, untilSf := s.sf.number + 2 * (circOf s c).set.liveness }] } }

/-- Re-addressing starts for an ACTIVE record (R303). -/
def startReaddress (ep : Nat) (s : State) : State :=
  match recordId s ep with
  | none => s
  | some r =>
    if r.state ≠ .active ∨ r.newAddr.isSome = true then s
    else match lowestFree s r.circuit with
      | none => s
      | some n =>
        sendControl ep [fieldAt 63 56 4 ||| fieldAt 55 44 n]
          (modRecordId ep (fun r => { r with newAddr := some (n, s.sf.number), polls := 0, unused := 0, badTags := 0 }) s)

/-- A sleeping endpoint's record becomes ACTIVE (R297, R302): the ACK timers go on from where they paused, and its queue goes out. -/
def wakeRecord (ep wake : Nat) (s : State) : State :=
  pump ep (modRecordId ep (fun r => { r with
    state := .active, wakeSf := wake, sent := r.sent.map fun x => { x with lastSf := x.lastSf + (s.sf.number - r.asleepSf) } }) s)

/-- A frame of the transmit path that goes to a record's endpoint and is sequenced, or is its ACK. -/
def toRecord (r : Record) (o : Outgoing) : Bool :=
  o.owner.any (·.1 == r.epId)
  || (o.circuit == r.circuit && (o.bytes.headD 0).toNat / 16 == 8 && r.addr == some (fieldOf (wordBE (o.bytes.take 8)) 59 48))

/-- A record ends (R289, R313): its address goes to quarantine, its frames return NO_ENDPOINT, its repeater's set loses it, and the far endpoints
of a repeater have direct routes. -/
def deleteRecord (ep : Nat) (s : State) : State :=
  match recordId s ep with
  | none => s
  | some r =>
    let t := releaseHeld ep s
    let t := release r.circuit (r.newAddr.map (·.1)) (release r.circuit r.addr t)
    let t := returnFrames (hostFrames r) txNoEndpoint t
    let t := setRoute ep none (dropOutgoing (toRecord r) t)
    refreshRelays s { t with link := { t.link with records := t.link.records.filter fun x => x.epId != ep } }

/-- A record becomes ABSENT (R289, R303): both addresses go to quarantine and its host frames return ABSENT (R311). -/
def absentRecord (ep : Nat) (s : State) : State :=
  match recordId s ep with
  | none => s
  | some r =>
    let t := release r.circuit (r.newAddr.map (·.1)) (release r.circuit r.addr s)
    refreshRelays s (returnFrames (hostFrames r) txAbsent (dropOutgoing (toRecord r)
      (modRecordId ep (fun r => { r with state := .absent, addr := none, newAddr := none, sent := [], waiting := r.waiting.filter (·.host.isNone) }) t)))

end Sys2Proof.Machine
end

