-- ==== Sys2Proof/Machine/Ranging.lean ====
section
/-! DEFINITION. Ranging and time frames (spec/13_time_service.md R330 to R337; times in 1/16 ns of device time, R8). -/
namespace Sys2Proof.Machine

/-- When sample 0 of the downstream frame of a tick leaves the coupler, the tick so many after the present one (R98, R108, R200). -/
def departure (s : State) (c : Nat) (ahead : Int) : Int := 16000 * ((s.tku.devUs : Int) + ahead) + 16 * s.port.txLag + txOffset s c
/-- The TRP departure of a PPDU that begins there (R160). -/
def trpDeparture (s : State) (c : Nat) (ahead : Int) : Int := departure s c ahead + 16 * 102000

/-- An instant in the device-time format (R8): bits [95:32], and [31:0] in [63:32]. -/
def instantHigh (x : Int) : Word := timeHigh (x.toNat / 16000) (x.toNat % 16000 * 4096)
def instantLow (x : Int) : Word := timeLow (x.toNat / 16000) (x.toNat % 16000 * 4096)
/-- Bits [63:0] of an instant as a number of 1/16 ns, modulo 65,536 s, and the difference of two such nearest to zero. -/
def shortOf (w : Word) : Int := (fieldOf w 63 48 * 1000000000 + fieldOf w 47 16) * 16 + fieldOf w 15 0 / 4096
def shortSpan : Int := 65536 * 16 * 1000000000
def nearest (x : Int) : Int := (x + shortSpan / 2) % shortSpan - shortSpan / 2

/-- TIME_CORR for an accepted measurement (R334). -/
def sendTimeCorr (ep : Nat) (d theta : Int) (s : State) : State :=
  let id := ((recordId s ep).map (·.range.id)).getD 0
  sendTime ep [fieldAt 63 56 1 ||| fieldAt 55 48 id ||| fieldAt 31 0 (twosOf 32 d), fieldAt 63 16 (twosOf 48 theta) ||| fieldAt 15 8 (timeQual s)] s

/-- FEED_TIME for the marker of the present tick (R335). -/
def sendFeedTime (ep : Nat) (s : State) : State :=
  match recordId s ep with
  | none => s
  | some r =>
    match r.range.dist.head? with
    | none => s
    | some d =>
      let at_ := departure s r.circuit 0
      let t := modRecordId ep (fun r => { r with range := { r.range with sentD := some d, lastSf := s.sf.number } }) s
      sendTime ep [fieldAt 63 56 2 ||| fieldAt 31 0 (twosOf 32 d), BitVec.ofNat 64 s.clk.tick, instantHigh at_,
        (instantLow at_ &&& fieldAt 63 32 0xFFFFFFFF) ||| fieldAt 7 0 (timeQual s)] t

/-- ACTIVE records that a condition names. -/
def activeWhere (p : Record → Bool) (s : State) : List Nat := (s.link.records.filter fun r => r.state == .active && p r).map (·.epId)

/-- TIME_INFO (R330, R336). -/
def sendTimeInfo (ep : Nat) (s : State) : State :=
  sendTime ep [fieldAt 63 56 3 ||| fieldAt 55 40 (twosOf 16 s.tku.utcOffset) ||| fieldAt 39 38 s.tku.leap, fieldAt 63 16 s.tku.leapAt] s

/-- An exchange stays unanswered (R333, R334): the eighth in a row makes the endpoint UNRANGED. -/
def rangeMiss (ep : Nat) (s : State) : State :=
  modRecordId ep (fun r => let g := r.range; { r with range := { g with
    t1 := none, misses := g.misses + 1, missCount := sat32 g.missCount 1, unranged := g.unranged || decide (8 ≤ g.misses + 1) } }) s

/-- RANGE_REJECT of a circuit in 1/16 ns (R344). -/
def rangeReject16 (s : State) (c : Nat) : Nat := 16 * tabGet 10 s.link.rangeReject c
def rangePeriodOf (s : State) (c : Nat) : Nat := tabGet 64 s.link.rangePeriod c

/-- The stored values after a new D (R333): none where it is an outlier; the third outlier in agreement replaces them. -/
def newDist (reject : Nat) (g : Ranging) (d : Int) : Option Ranging :=
  if g.dist.isEmpty ∨ (d - medianInt g.dist).natAbs ≤ reject then some { g with dist := (d :: g.dist).take 5, outliers := [] }
  else
    let o := (d :: g.outliers).take 3
    if 3 ≤ o.length ∧ o.all (fun x => o.all fun y => decide ((x - y).natAbs ≤ reject)) = true then
      some { g with dist := o, outliers := [] }
    else none

/-- A measurement: accepted, with TIME_CORR, or an outlier (R333, R334). -/
def rangeResult (ep : Nat) (d theta : Int) (s : State) : State :=
  match recordId s ep with
  | none => s
  | some r =>
    match newDist (rangeReject16 s r.circuit) r.range d with
    | none => modRecordId ep (fun r => let g := r.range; { r with range := { g with
        t1 := none, misses := 0, outliers := (d :: g.outliers).take 3, outlierCount := sat32 g.outlierCount 1 } }) s
    | some g =>
      let g : Ranging := { g with t1 := none, unranged := false, misses := 0, theta := (theta :: g.theta).take 4, lastSf := s.sf.number }
      sendTimeCorr ep (medianInt g.dist) theta (modRecordId ep (fun r => { r with range := g }) s)

/-- One tick's loop measurement of a feed circuit (R335): the mean of 1,024 is D. -/
def feedLoop (c : Nat) (s : State) : State :=
  let f := feedOf s c
  match f.loop, s.link.records.find? fun r => r.circuit == c && r.state == .active with
  | some l, some r =>
    if f.state ≠ .up ∨ f.discard ≠ 0 ∨ (circOf s c).cls = .stale then s
    else
      let g := r.range
      let g : Ranging := { g with sum := g.sum + (l - f.turnD) / 2, count := g.count + 1 }
      if g.count < 1024 then modRecordId r.epId (fun r => { r with range := g }) s
      else
        let d := g.sum / 1024
        let t := modRecordId r.epId (fun r => { r with range := { g with sum := 0, count := 0, dist := [d] } }) s
        if g.sentD.all fun x => decide (16 < (d - x).natAbs) then sendFeedTime r.epId t else t
  | _, _ => s

/-- W of an endpoint in 1/16 ns (R337); none while B_TKU is unknown. -/
def worstError (s : State) (r : Record) : Option Nat :=
  (bTku s).map fun b => b + 16 * (30 + 20 + 10 * (if (viaOf s r).isSome then 1 else 0)) + r.range.theta.foldl (fun m x => max m x.natAbs) 0

end Sys2Proof.Machine
end

