-- ==== Sys2Proof/Machine/Evidence.lean ====
section
/-! DEFINITION. The TKU's second, time-of-day messages received, and the time evidence records (spec/13_time_service.md R323, R327, R337, R342 to R344, spec/21_register_map.md R485). -/
namespace Sys2Proof.Machine

/-- A valid time-of-day message (R329, R330): labels and leap announcement; an announced change goes to every endpoint in TIME_INFO (R336). -/
def todAccepted (body : List Byte) (s : State) : State :=
  let sec := beField body 4 6
  let qual := beField body 19 1
  let pair := beField body 20 1
  let t := { s with tku := { s.tku with
    utcOffset := signedOf 16 (beField body 10 2), leap := beField body 12 1 / 64, leapAt := beField body 13 6 } }
  let t := if pair % 2 = 1 then todLabel 0 sec qual t else t
  let t := if pair / 2 % 2 = 1 then todLabel 1 sec qual t else t
  if (t.tku.utcOffset = s.tku.utcOffset ∧ t.tku.leap = s.tku.leap ∧ t.tku.leapAt = s.tku.leapAt) ∨ sendsAllowed t = false then t
  else (activeWhere (fun _ => true) t).foldl (fun t ep => sendTimeInfo ep t) t

/-- TOD_IN_MESSAGE (R330): `early` milliseconds lie between the message's end and the edge it labels. -/
def execTodInMessage (body : List Byte) (early : Nat) (s : State) : Result :=
  let ok := body.length == 24 && beField body 0 2 == 0x4757 && beField body 22 2 == todCrc body
    && decide (10 ≤ early ∧ early ≤ 900)
  commit s
    (if !ok then { s with tku := { s.tku with todErr := sat32 s.tku.todErr 1 } }
     else if beField body 2 1 ≠ 0x01 ∨ beField body 3 1 ≠ 0x12 then s
     else todAccepted body s)

/-- A source's word (R342): its state, bound code and phase error. The bound of a source that has measured nothing is unknown. -/
def sourceWord (s : State) (k : Nat) : Word :=
  let x := srcOf s k
  let st := if x.disq then 4 else if eligible s k then 3 else if x.qualified then 2 else if 0 < x.run then 1 else 0
  fieldAt 63 60 st ||| fieldAt 59 55 (boundCode (if st = 0 then none else some (16 * x.bound))) ||| fieldAt 47 0 (twosOf 48 x.phase)

/-- W of each endpoint with a record that is not ABSENT, none where it is UNRANGED (R337, R342). A W that is unknown because B_TKU is lies
beyond every bin. -/
def errors (s : State) : List (Option Nat) :=
  (s.link.records.filter fun r => r.state != .absent).map fun r => if r.range.unranged then none else some ((worstError s r).getD 4294967295)

/-- The histogram's bin of an endpoint, in steps of 5 ns (R342). -/
def errorBin : Option Nat → Nat
  | none => 31
  | some w => min (w / 80) 30

/-- Sixteen-bit counts, four to a word, the first in [63:48]. -/
def countWords : Nat → List Nat → List Word
  | 0, _ => []
  | n + 1, cs =>
    (fieldAt 63 48 (cs.getD 0 0) ||| fieldAt 47 32 (cs.getD 1 0) ||| fieldAt 31 16 (cs.getD 2 0) ||| fieldAt 15 0 (cs.getD 3 0))
      :: countWords n (cs.drop 4)

/-- ROLE of a record (R342); CANDIDATE and ISOLATED, for which it has no code, are neither active nor standby. -/
def evidenceRole : PairRole → Nat
  | .active => 1
  | .standby => 2
  | _ => 0

/-- Words 2 to 31 of the record of a device second (R342). -/
def draftWords (s : State) (sec : Nat) : List Word :=
  let hold := if s.tku.state = .holdover then (bTku s).getD (16 * 4294967295) else 0
  let es := errors s
  let bins := (List.range 32).map fun i => (es.filter fun e => errorBin e == i).length
  let worst := es.foldl (fun m e => max m (e.getD 0)) 0
  [keepWord s 2, keepWord s 3, timeHigh (sec * 1000000) 0, (timeLow (sec * 1000000) 0 &&& fieldAt 63 32 0xFFFFFFFF) ||| fieldAt 7 0 (timeQual s),
   BitVec.ofNat 64 s.clk.tick,
   fieldAt 63 24 s.sf.number ||| fieldAt 23 16 (evidenceRole s.pair.role) ||| fieldAt 15 8 s.tku.selected ||| fieldAt 7 0 (tkuCode s.tku.state),
   sourceWord s 1, sourceWord s 2, sourceWord s 3, sourceWord s 4,
   fieldAt 63 32 (if s.tku.state = .holdover then s.tku.holdSeconds else 0) ||| fieldAt 31 0 (min ((hold + 15) / 16) 4294967295),
   BitVec.ofInt 64 s.tku.freqAdj,
   fieldAt 63 32 (((liveModel s).map (·.fitTime)).getD 0) ||| fieldAt 31 0 (twosOf 32 (((liveModel s).map (·.age)).getD 0)),
   fieldAt 63 48 (twosOf 16 s.tku.utcOffset) ||| fieldAt 47 46 s.tku.leap ||| fieldAt 45 32 s.ev.eventsSec.toNat]
  ++ countWords 8 bins
  ++ [fieldAt 63 32 (es.filter fun e => e.isSome).length ||| fieldAt 31 0 (min worst 4294967295)] ++ List.replicate 7 0

/-- The second's record falls due (R342): it describes the state at the tick of S; without a named ring none is produced. -/
def recordDue (s : State) : State :=
  let sec := s.tku.devUs / 1000000
  { s with ev := { s.ev with
      due := if s.ev.named then s.ev.due ++ [(sec, draftWords s sec)] else s.ev.due, eventsSec := 0 } }

/-- The seconds of `time.set_tai` apply at a whole second, by a step at the next tick strobe, while the TKU is still in ACQUIRE (R318, R344). -/
def applyTai (s : State) : State :=
  match s.tku.taiDue with
  | none => s
  | some n =>
    let t := { s with tku := { s.tku with taiDue := none } }
    if t.tku.state = .acquire then
      { t with tku := { t.tku with taiSet := true, stepUs := ((n : Int) - (t.tku.devUs / 1000000 : Nat)) * 1000000 } }
    else t

/-- The pulses of a whole second (R331): PPS_OUT stays low while STATE is UNTRUSTED and PPS_SQUELCH is on (R328). -/
def ppsOut (s : State) : State :=
  let w := s.tku.settings
  if s.tku.state = .acquire ∧ w.squelch = true then s else emit (.pps w.outComp0 w.outComp1 w.ppsWidth) s

/-- TKU_SECOND (R323, R326, R327, R342, R344): settings take effect, sources are counted, one is selected, the state moves, the rate
is steered, and the second's evidence record falls due. -/
def execTkuSecond (s : State) : Result :=
  let s := ppsOut s
  let bound := bTku s
  let trace := traceable s
  let t := countSecond (peerSecond (settingsSecond s))
  let t := selects (selectSource t) t
  let t := logFreq (steerFreq (tkuTransition bound trace t))
  let t := [1, 2, 3, 4].foldl (fun t k => setSrc k { srcOf t k with fresh := false } t) t
  commit s (applyTai (recordDue t))

/-! Writing (R343, R485). -/

/-- The spacing of the marks of RECORD_SEQ. -/
def markStep : Nat := 1048576

/-- Before the first record after a start, numbering resumes at the mark plus 2^20, which becomes the new mark. -/
def resumeRecords (s : State) : State :=
  if s.ev.started then s
  else
    let n := (keepQueued s 1601).toNat + markStep
    mpWrite 1601 (BitVec.ofNat 64 n) { s with ev := { s.ev with started := true, seq := n, mark := n } }

/-- The record of a draft with its number, the hash of the record before it and its signature (R342); the firmware signs none while the identity region
fails its check (R444). -/
def recordOf (s : State) (draft : List Word) : List Word × State :=
  let pad := fun (k : Nat) (ws : List Word) => (ws ++ List.replicate k 0).take k
  let body := [fieldAt 63 32 0x54455652 ||| fieldAt 31 16 1 ||| fieldAt 15 0 64, BitVec.ofNat 64 s.ev.seq] ++ pad 30 draft ++ pad 6 s.ev.prevHash
    ++ List.replicate 14 0
  let g := if identFault s then (List.replicate 12 0, s) else attestSign (wordsBytes body) s
  (body ++ g.1, g.2)

/-- The oldest record due is produced: RECORD_SEQ advances, whether it is written or not. -/
def produce (draft : List Word) (s : State) : List Word × State :=
  let t := resumeRecords s
  let r := recordOf t draft
  let ws := r.1
  let t := r.2
  (ws, { t with ev := { t.ev with seq := t.ev.seq + 1, prevHash := sha384 (wordsBytes ws), due := t.ev.due.drop 1 } })

/-- The ring is full (R485). -/
def evidenceFull (s : State) : Bool := (s.ev.prod + 4294967296 - s.ev.cons) % 4294967296 == s.ev.count

/-- A record that cannot be written: EV_DROP. -/
def dropRecord (s : State) : State :=
  match s.ev.due with
  | [] => s
  | d :: _ => raise 0x0054 0 (tkuEvent 5 (produce d.2 s).2)

/-- EVIDENCE_RECORD (R342, R343, R485): the oldest record due goes to slot PROD mod COUNT, then PROD advances. -/
def execEvidenceRecord (s : State) : Result :=
  commit s
    (match s.ev.due with
     | [] => s
     | d :: _ =>
       if evidenceFull s || !hostReachable s then dropRecord s
       else
         let r := produce d.2 s
         let t := emit (.host (s.ev.base.toNat + 512 * (s.ev.prod % max s.ev.count 1)) (wordsBytes r.1)) r.2
         setCause 13 { t with ev := { t.ev with prod := (t.ev.prod + 1) % 4294967296 } })

/-- EV_LATE (R343): a record not written by the tick of S + 2 is abandoned. -/
def execEvLate (s : State) : Result :=
  commit s
    (match s.ev.due with
     | [] => s
     | d :: _ => if d.1 + 2 ≤ s.tku.devUs / 1000000 then raise 0x0055 0 (tkuEvent 6 (produce d.2 s).2) else s)

/-- RECORD_SEQ_MARK_WRITE (R343). -/
def execRecordSeqMarkWrite (s : State) : Result :=
  commit s
    (if s.ev.started = true ∧ s.ev.mark + markStep ≤ s.ev.seq then
       mpWrite 1601 (BitVec.ofNat 64 s.ev.seq) { s with ev := { s.ev with mark := s.ev.seq } }
     else s)

end Sys2Proof.Machine
end

