-- ==== Sys2Proof/Machine/MailboxCore.lean ====
section
/-! DEFINITION. The mailbox state machine, MCTP access, and the management processors' journal, watchdog and boot
(spec/15_mailboxes_firmware.md R376 to R383, R396, R397, R400 to R404). -/
namespace Sys2Proof.Machine

/-- POST of mailbox `m` (R380): from IDLE or DONE the command is POSTED and the running core interrupted; else ignored. -/
def boxPost (m : Nat) (s : State) : State :=
  let b := boxOf s m
  let posted := { b with st := .posted, postTick := s.clk.tick % 4294967296 }
  let go := fun (x : Mailbox) =>
    let t := setBox m x s
    emit (.mpIrq m) { t with mb := { t.mb with results := tabPut (0, []) t.mb.results m (0, []) } }
  match b.st with
  | .idle => go posted
  | .done =>
    let t := go { posted with status := 0, resultWords := 0, detail := 0, doneTick := 0 }
    { t with irq := { t.irq with mbDone := t.irq.mbDone &&& ~~~ bitAt m true } }
  | _ => s

/-- RELEASE of mailbox `m` (R380): from DONE to IDLE. -/
def boxRelease (m : Nat) (s : State) : State :=
  let b := boxOf s m
  if b.st = .done then
    let t := setBox m { b with st := .idle } s
    { t with irq := { t.irq with mbDone := t.irq.mbDone &&& ~~~ bitAt m true } }
  else s

/-- CANCEL of mailbox `m` (R380): a POSTED mailbox, or a RUNNING one before its commit point. -/
def boxCancel (m : Nat) (s : State) : State := if boxLocked (boxOf s m) then finish m stCancelled 0 [] s else s

/-- ACTION written to MB_DOORBELL (R379, R380). -/
def boxAct (m act : Nat) (s : State) : State :=
  if act = 1 then boxPost m s else if act = 2 then boxRelease m s else if act = 3 then boxCancel m s else s

/-- MB_POST (R380). -/
def execMbPost (m : Nat) (s : State) : Result := onObject (m < 32) s (boxPost m s)

/-- MB_RELEASE (R380). -/
def execMbRelease (m : Nat) (s : State) : Result := onObject (m < 32) s (boxRelease m s)

/-- MB_CANCEL (R380). -/
def execMbCancel (m : Nat) (s : State) : Result := onObject (m < 32) s (boxCancel m s)

/-- The mailbox's 500 ms timer has run out: that many ticks have passed since POST (R380). -/
def boxExpired (m : Nat) (s : State) : Bool :=
  boxLocked (boxOf s m) && decide (500000 ≤ (s.clk.tick + 4294967296 - (boxOf s m).postTick) % 4294967296)

/-- MAILBOX_TIMEOUT (R380, R382): due when the timer has run 500 ms before the commit point. -/
def execMailboxTimeout (m : Nat) (s : State) : Result :=
  onObject (m < 32) s (if boxExpired m s then finish m stTimeout 0 [] s else s)

/-- Opcodes shipped in firmware 4.2 (R388 to R393). -/
def knownOpcode (op : Nat) : Bool :=
  [0x0101, 0x0102, 0x0103, 0x0104, 0x0105, 0x0110, 0x0111, 0x0112, 0x0113, 0x0114, 0x0115, 0x0116, 0x0117,
   0x0120, 0x0121, 0x0122, 0x0123, 0x0130, 0x0131, 0x0132, 0x0133, 0x0134,
   0x0201, 0x0230, 0x0231, 0x0232, 0x0233, 0x0234, 0x0235, 0x0236, 0x0237, 0x0238, 0x0239, 0x023A, 0x023B,
   0x023C, 0x023D, 0x023E, 0x023F, 0x0240, 0x0241, 0x0243, 0x0244, 0x0245].contains op
  || [0x0301, 0x0302, 0x0303, 0x0304, 0x0305, 0x0306, 0x0307, 0x0308,
   0x0401, 0x0402, 0x0403, 0x0404, 0x0405, 0x0406, 0x0407, 0x0408, 0x0420,
   0x0501, 0x0502, 0x0503, 0x0504, 0x0505, 0x0506, 0x0507, 0x0508, 0x0509, 0x050A,
   0x0601, 0x0602, 0x0603, 0x0604, 0x0605, 0x0606, 0x0701, 0x0702, 0x0703, 0x0704, 0x0705, 0x0706, 0x0707, 0x0708,
   0x0801, 0x0802, 0x0820, 0x0821, 0x0822, 0x0830, 0x0840, 0x0841, 0x0901, 0x0902, 0x0903, 0x0904, 0x0905].contains op

/-- Commands marked L (R381). -/
def isL (op : Nat) : Bool := [0x0236, 0x0308, 0x0704, 0x0706, 0x0821, 0x0905].contains op

/-- A hand-over has closed its grant list, so the old core takes no more mailboxes (R402). -/
def handingOver (s : State) : Bool :=
  match s.mp.armed with
  | some a => s.sf.closed && decide (a.sf = s.sf.number + 1) && standbyReady s
  | none => false

/-- The mailbox the running core takes next: the lowest POSTED one, an L command only while fewer than 4 run in the background (R381). -/
def nextPosted (s : State) : Option Nat :=
  (List.range 28).find? fun m => (boxOf s m).st == .posted && !(isL (boxOf s m).opcode && decide (4 ≤ s.mb.background.length))

/-- MB_TAKE (R381): an opcode that firmware 4.2 does not ship completes with UNKNOWN_OPCODE. -/
def execMbTake (s : State) : Result :=
  commit s
    (if !s.mp.serving || handingOver s || (List.range 28).any (fun m => (boxOf s m).st == .running) then s
     else match nextPosted s with
       | none => s
       | some m =>
         let b := boxOf s m
         if knownOpcode b.opcode then setBox m { b with st := .running } s else finish m stUnknown 0 [] s)

/-- The word offset of a baseboard mailbox's register by word (R378, R397). -/
def mctpWords (body : List Byte) : Nat := (body.getD 3 0).toNat

/-- A response: OP with bit 7 set, RESULT, and the words read (R397). -/
def mctpReply (op : Nat) (result : Nat) (ws : List Word) (s : State) : State :=
  emit (.mctp (BitVec.ofNat 8 (op % 128 + 128) :: BitVec.ofNat 8 result :: ws.flatMap bytesBE)) s

/-- The RESULT of a request by the causes in their order (R397): BAD_REQUEST, BAD_MAILBOX, BAD_RANGE, LOCKED. -/
def mctpResult (op : Nat) (body : List Byte) (s : State) : Nat :=
  let n := mctpWords body
  let need := if op = 1 then 4 + 8 * n else if op = 2 then 4 else 5
  let off := (body.getD 2 0).toNat
  let m := 24 + (body.getD 1 0).toNat
  if body.length ≠ need ∨ (body.getD 0 0).toNat ≠ op then 4
  else if 28 ≤ m then 1
  else if op ≠ 3 ∧ (n = 0 ∨ 14 < n ∨ 128 < off + n) then 2
  else if op = 1 ∧ boxLocked (boxOf s m) ∧ ((List.range n).any fun i => off + i = 0 ∨ 8 ≤ off + i) then 3
  else 0

/-- One word written into a mailbox by its word offset: offset 2 is MB_DOORBELL (R378, R397). -/
def mctpWord (m off : Nat) (v : Word) (s : State) : State := if off = 2 then boxAct m (fieldOf v 1 0) s else boxWrite m (8 * off) v s

/-- MCTP_WRITE (R397): words written into a baseboard mailbox. -/
def execMctpWrite (body : List Byte) (s : State) : Result :=
  let r := mctpResult 1 body s
  let m := 24 + (body.getD 1 0).toNat
  let off := (body.getD 2 0).toNat
  commit s
    (if r ≠ 0 then mctpReply (body.getD 0 0).toNat r [] s
     else
       let ws := wordsWith wordBE (mctpWords body) (body.drop 4)
       mctpReply 1 0 [] ((List.range ws.length).foldl (fun t i => mctpWord m (off + i) (ws.getD i 0) t) s))

/-- MCTP_READ (R397). -/
def execMctpRead (body : List Byte) (s : State) : Result :=
  let r := mctpResult 2 body s
  let m := 24 + (body.getD 1 0).toNat
  let off := (body.getD 2 0).toNat
  commit s
    (if r ≠ 0 then mctpReply (body.getD 0 0).toNat r [] s
     else mctpReply 2 0 ((List.range (mctpWords body)).map fun i => readBox (boxOf s m) (8 * (off + i))) s)

/-- MCTP_DOORBELL (R397): ACTION on a baseboard mailbox, as R380 has it. -/
def execMctpDoorbell (body : List Byte) (s : State) : Result :=
  let r := mctpResult 3 body s
  let m := 24 + (body.getD 1 0).toNat
  commit s
    (if r ≠ 0 then mctpReply (body.getD 0 0).toNat r [] s else mctpReply 3 0 [] (boxAct m ((body.getD 4 0).toNat % 4) s))

/-- SET_ENDPOINT_ID (R396). -/
def execSetEndpointId (eid : Nat) (s : State) : Result :=
  commit s (emit (.mctp (Config.mctpControl 1 [BitVec.ofNat 8 eid])) { s with irq := { s.irq with eid := eid % 256 } })

/-- GET_ENDPOINT_ID (R396). -/
def execGetEndpointId (s : State) : Result :=
  commit s (emit (.mctp (Config.mctpControl 2 [BitVec.ofNat 8 s.irq.eid])) s)

/-- GET_MCTP_VERSION_SUPPORT (R396). -/
def execGetMctpVersionSupport (s : State) : Result := commit s (emit (.mctp (Config.mctpControl 4 [])) s)

/-- GET_MESSAGE_TYPE_SUPPORT (R396): mailbox traffic uses type 0x7E. -/
def execGetMessageTypeSupport (s : State) : Result := commit s (emit (.mctp (Config.mctpControl 5 [0x7E])) s)

/-- GET_VENDOR_DEFINED_MSG_SUPPORT (R396, R478): the PCI vendor identifier 0x1F3E. -/
def execGetVendorDefinedMsgSupport (s : State) : Result := commit s (emit (.mctp (Config.mctpControl 6 [0x1F, 0x3E])) s)

/-- The core that does not run: 1 MP-B while MP-A runs, else 0. -/
def standbyIndex (s : State) : Nat := if runningCode s = 2 then 0 else 1

/-- JOURNAL_ENTRY (R377): a change posted by the running core through mailboxes 28 to 31 and applied by the standby in order. -/
def execJournalEntry (s : State) : Result :=
  let k := standbyIndex s
  commit s
    (if runningCode s = 0 then s
     else
       let p := s.mp.journalPosted + 1
       { s with mp := { s.mp with
           journalPosted := p
           journalApplied := if (coreOf s k).role = .standby ∧ domOn s (k + 1) = true then p else s.mp.journalApplied } })

/-- STANDBY_READY (R377): the standby's image is loaded and verified and its journal applied. -/
def execStandbyReady (s : State) : Result :=
  let k := standbyIndex s
  commit s
    (if (coreOf s k).role = .standby ∧ domOn s (k + 1) = true then
       { setCore k { coreOf s k with ready := true } s with mp := { (setCore k { coreOf s k with ready := true } s).mp with
           journalApplied := s.mp.journalPosted } }
     else s)

/-- WATCHDOG_KICK (R403). -/
def execWatchdogKick (s : State) : Result := commit s { s with mp := { s.mp with lastKick := s.clk.now } }

/-- The bank a core's image lies in: 0 A, 1 B. -/
def bankOf (s : State) (k : Nat) : Bank := if k = 0 then s.mp.bankA else s.mp.bankB
def setBank (k : Nat) (b : Bank) (s : State) : State :=
  if k = 0 then { s with mp := { s.mp with bankA := b } } else { s with mp := { s.mp with bankB := b } }

/-- BOOT_BANK and FW_SEC_MIN of keep-store word 261 (R399, R400, R440). -/
def bootBank (s : State) : Nat := fieldOf (keepQueued s 261) 16 16
def fwSecMin (s : State) : Nat := fieldOf (keepQueued s 261) 15 0

/-- A plan in ADMITTING is dropped at a takeover (R58): the slot is EMPTY, the plan it held before being discarded too. -/
def dropAdmitting (s : State) : State :=
  if admitting s then { s with plan := { s.plan with stage := .empty, staged := [], armedSf := 0 } } else s

/-- The other core becomes the running core: RUNNING mailboxes end CANCELLED, POSTED ones wait (R380, R403); the lost core's AEAD work
ends (R407). `cause` is coded as R507. -/
def switchCore (cause : Nat) (s : State) : State :=
  let old := if runningCode s = 2 then 1 else 0
  let new := 1 - old
  let t := cancelRunning (dropAdmitting (aeadCoreLost (old + 1) s))
  let t := setCore new { coreOf t new with role := .running, ready := false,
                                           takeovers := min ((coreOf t new).takeovers + 1) 65535, lastCause := cause } t
  { t with mp := { t.mp with serving := true, runner := new, lastKick := t.clk.now } }

/-- The running image is on trial: a bank is TRIAL, or the image runs from the stage and lies in no bank yet (R401). -/
def inTrial (s : State) : Bool := s.mp.bankA.state == .trial || s.mp.bankB.state == .trial || s.mp.stageTrial

/-- The hand-over's new bank becomes TRIAL (R401), and the core that runs from now on has its image; an image from the stage runs from the stage
and has no bank until it is written to one. -/
def beginTrial (source : Nat) (s : State) : State :=
  let other := 1 - bootBank s
  let k := s.mp.runner
  if source = 0 then
    let t := setCore k { coreOf s k with fromStage := true, image := s.mp.stage.getD (coreOf s k).image } s
    { t with mp := { t.mp with stageTrial := true } }
  else
    let t := setCore k { coreOf s k with fromStage := false, bank := other, image := (bankOf s other).image } s
    setBank other { bankOf s other with state := .trial } t

/-- The trial ends in the old image: TRIAL becomes VALID and FW_REVERTED names the bank (R401). -/
def endOfTrial (s : State) : State :=
  let k := 1 - bootBank s
  let t := { s with mp := { s.mp with revertDue := false, stageTrial := false } }
  raise 0x0062 k (setBank k (endTrial (bankOf t k)) t)

/-- WATCHDOG_EXPIRY (R403, R404), due once 50 ms have passed without a kick: a READY standby takes over within a tick and the failed core's domain is power-cycled; else the failed
core boots again as running core. While a hand-over is armed and the standby READY on the new image, it takes over as if at T0; during
TRIAL the standby takes over on the old image and FW_REVERTED is raised. -/
def execWatchdogExpiry (s : State) : Result :=
  let old := if runningCode s = 2 then 1 else 0
  let trial := inTrial s
  commit s
    (if runningCode s = 0 ∨ s.clk.now < s.mp.lastKick + 50000 then s
     else if standbyReady s then
       let t := switchCore 1 s
       let t := setCore old { coreOf t old with role := .standby, ready := false } t
       let t := powerCycle (old + 1) t
       let t := setCore old { coreOf t old with role := .standby, bank := bootBank t } t
       let t := raise 0x0060 (old + 1) t
       match s.mp.armed with
       | some a => raise 0x0061 (1 - bootBank t) (beginTrial a.source { t with mp := { t.mp with armed := none } })
       | none => if trial then endOfTrial t else t
     else
       let t := cancelRunning (dropAdmitting (aeadCoreLost (old + 1) s))
       let t := powerCycle (old + 1) { t with mp := { t.mp with serving := false, runner := old, lastKick := t.clk.now } }
       if trial then endOfTrial t else t)

/-- MP_BOOT_DONE (R376, R400): the booting core has loaded and checked its bank; the other bank serves where that one fails, with
FW_REVERTED; with both bad MP-A runs the ROM loader and MP-B stays off. `aOk` and `bOk` say whether each bank passes R399. -/
def execMpBootDone (aOk bOk : Bool) (s : State) : Result :=
  let k := s.mp.runner
  let want := bootBank s
  let good := fun b => (if b = 0 then aOk else bOk) && (bankOf s b).state != .empty && (bankOf s b).state != .invalid
  let start := fun (b : Nat) =>
    let t := setCore k { coreOf s k with role := .running, ready := false, bank := b, fromStage := false, image := (bankOf s b).image } s
    let o := 1 - k
    let t := if domOn t (o + 1) then setCore o { coreOf t o with role := .standby, ready := false, bank := b, image := (bankOf s b).image } t else t
    { t with mp := { t.mp with serving := true, lastKick := t.clk.now } }
  commit s
    (if s.mp.serving || !domOn s (k + 1) then s
     else if good want then start want
     else if good (1 - want) then raise 0x0062 want (start (1 - want))
     else
       let t := setCore 1 { coreOf s 1 with role := .off, ready := false } (setCore 0 { coreOf s 0 with role := .romLoader, ready := false } s)
       { t with mp := { t.mp with serving := true, runner := 0, lastKick := t.clk.now } })

end Sys2Proof.Machine
end

