-- ==== Sys2Proof/Machine/CmdSystem.lean ====
section
/-! DEFINITION. Mailbox commands of the device, power, ageing, firmware, diagnostic and security families that touch no port, circuit,
plan or endpoint (spec/15 R388, R392, R393, R399, R401, R507; spec/16 R415, R421, R424; spec/19 R450 to R456). -/
namespace Sys2Proof.Machine


/-- DEVICE_IDENTIFY (R507). -/
def execDeviceIdentify (m : Nat) (s : State) : Result :=
  mailboxCommand 0x0101 0 noWords m s fun _ =>
    okay [keepWord s 0, keepWord s 1, keepWord s 2, keepWord s 3, idDevice s, idBuild s,
      fieldAt 63 62 (runningCode s) ||| bitAt 61 (standbyReady s) ||| fieldAt 60 60 (bootBank s) ||| bitAt 59 (identFault s)] s

/-- DEVICE_STATUS (R507). -/
def execDeviceStatus (m : Nat) (s : State) : Result :=
  mailboxCommand 0x0102 0 noWords m s fun _ =>
    okay [devStatus s, domStatus0 s, domStatus1 s,
      fieldAt 63 32 (planId s.plan.active) ||| fieldAt 31 0 (planId s.plan.staged), tkuStatus s,
      fieldAt 63 61 (roleCode s.pair.role) ||| fieldAt 60 59 s.pair.sbState ||| fieldAt 15 0 s.irq.log.length] s

/-- DEVICE_EVENTS (R394): the oldest events, removed, with the overflow count, which clears. -/
def execDeviceEvents (m : Nat) (s : State) : Result :=
  mailboxCommand 0x0103 0 (exactly 1) m s fun b =>
    checked [inRange b 0 1 56] s
      (let es := s.irq.log.take (prmN b 0)
       okay ([BitVec.ofNat 64 es.length, BitVec.ofNat 64 s.irq.overflow]
         ++ es.flatMap fun e => [fieldAt 63 48 e.code ||| fieldAt 47 0 e.object, BitVec.ofNat 64 e.tick])
         { s with irq := { s.irq with log := s.irq.log.drop (prmN b 0), overflow := 0 } })

/-- A firmware update is in progress: a bank is being written or committed, or a hand-over is armed (R371, R388). -/
def flashBusy (s : State) : Bool :=
  s.mb.background.any fun g => match g with
    | .planSave _ => true
    | .writeBank _ => true
    | .commitBank _ => true
    | _ => false
def updateInProgress (s : State) : Bool :=
  s.mp.armed.isSome || s.mb.background.any fun g => match g with
    | .writeBank _ => true
    | .commitBank _ => true
    | _ => false

/-- The standby core restarts, and both cores restart (R388): the running core boots again under R400. -/
def restartStandby (s : State) : State :=
  let k := standbyIndex s
  if (coreOf s k).role = .standby then setCore k { coreOf s k with ready := false } s else s
def restartCores (s : State) : State :=
  let t := restartStandby (cancelRunning (dropAdmitting (aeadCoreLost (runningCode s) s)))
  { t with mp := { t.mp with serving := false } }

/-- DEVICE_RESET (R388, R493): scope 3 completes before the reset. -/
def execDeviceReset (m : Nat) (s : State) : Result :=
  let b := boxOf s m
  let scope := prmN b 0
  match mailboxCommand 0x0104 0 (exactly 2) m s fun b =>
      checked [inRange b 0 1 3, (prm b 1 == 0x52455345, stRange, 1), (!updateInProgress s, stState, 0)] s
        (okay [] (if scope = 1 then restartStandby s else s)) with
  | .next t =>
    if m < 28 ∧ b.st = .running ∧ b.opcode = 0x0104 ∧ (boxOf t m).status = 0 then
      if scope = 3 then commit s (releaseReset (takeReset t))
      else if scope = 2 then commit s (restartCores t) else .next t
    else .next t
  | r => r

/-- DEVICE_HOST_MODE (R348, R375, R388): stored for the next link-up. -/
def execDeviceHostMode (m : Nat) (s : State) : Result :=
  mailboxCommand 0x0105 0 (exactly 2) m s fun b =>
    checked [inRange b 0 0 1, inRange b 1 0 1] s
      (storeSetting 0x0105 [intOf (prm b 0), intOf (prm b 1)] s
        { s with host := { s.host with hostMode := prmN b 0 == 1, ideRequired := prmN b 1 == 1 } })

/-- DEVICE_GRANARY_CONFIG (R352): applies at the next reset. -/
def execDeviceGranaryConfig (m : Nat) (s : State) : Result :=
  mailboxCommand 0x0133 1 (exactly 2) m s fun b =>
    checked [inRange b 0 0 8, inRange b 1 0 4] s
      (storeSetting 0x0133 [intOf (prm b 0), intOf (prm b 1)] s
        { s with host := { s.host with captureGib := prmN b 0, historyGib := prmN b 1 } })

/-- DEVICE_EVENT_VECTOR (R482). -/
def execDeviceEventVector (m : Nat) (s : State) : Result :=
  mailboxCommand 0x0134 1 (exactly 1) m s fun b =>
    checked [inRange b 0 0 63] s (okay [] { s with irq := { s.irq with vector := prmN b 0 } })

/-- POWER_DOMAIN_SET (R450). -/
def execPowerDomainSet (m : Nat) (s : State) : Result :=
  mailboxCommand 0x0901 0 (exactly 2) m s fun b =>
    checked [inRange b 0 0 29, inRange b 1 1 2] s
      (let r := powerRequest (prmN b 0) (prmN b 1 == 1) s
       { status := r.1, after := r.2 })

/-- POWER_DOMAIN_STATUS (R393): one word for each domain. -/
def execPowerDomainStatus (m : Nat) (s : State) : Result :=
  mailboxCommand 0x0902 0 noWords m s fun _ =>
    okay ((List.range 30).map fun d => BitVec.ofNat 64 (domCode (domOf s d).state)) s

/-- POWER_AVS_STATUS (R452). -/
def execPowerAvsStatus (m : Nat) (s : State) : Result :=
  mailboxCommand 0x0903 0 noWords m s fun _ =>
    okay ([BitVec.ofNat 64 (s.avs.setPoint * 5 / 2), BitVec.ofNat 64 (avsState s), BitVec.ofInt 64 s.avs.sMin,
        BitVec.ofNat 64 s.avs.sMinSensor, BitVec.ofInt 64 (s.age.headroom / 100)]
      ++ s.avs.regs.flatMap fun r =>
        [fieldAt 63 56 r.addr ||| fieldAt 55 40 r.vout ||| fieldAt 39 24 r.iout ||| fieldAt 23 16 r.temp, fieldAt 15 0 r.status]) s

/-- AGEING_LEDGER (R453): HEADROOM, the worst sensor and its YEARS_LEFT, then each sensor's figures; an absent record's state reads
CORRUPT, whose code no rule gives. -/
def execAgeingLedger (m : Nat) (s : State) : Result :=
  mailboxCommand 0x0904 0 noWords m s fun _ =>
    okay ([BitVec.ofInt 64 (s.age.headroom / 100), BitVec.ofNat 64 s.age.worst,
        BitVec.ofNat 64 (tabGet {} s.age.sensors s.age.worst).yearsLeft]
      ++ (List.range 48).flatMap fun n =>
        let x := tabGet {} s.age.sensors n
        [if ledgerPresent s n then BitVec.ofNat 64 (domCode (domOf s (sensorDomain n)).state) else BitVec.ofInt 64 (Config.derived 454 []),
         BitVec.ofInt 64 x.s, BitVec.ofInt 64 x.now, BitVec.ofInt 64 (ledgerFresh s n - x.now), BitVec.ofInt 64 x.rate,
         BitVec.ofInt 64 (x.needV / 100)]) s

/-- A background operation added (R381). -/
def addBackground (g : Background) (s : State) : State :=
  { s with mb := { s.mb with background := s.mb.background ++ [g] } }

/-- AGEING_CLUSTER_TEST (R456). -/
def execAgeingClusterTest (m : Nat) (s : State) : Result :=
  mailboxCommand 0x0905 0 (exactly 1) m s fun b =>
    checked
      [inRange b 0 0 271, (clusterExists s (prmN b 0), stResource, 0),
       (domOn s (12 + prmN b 0 / 17), stResource, 0),
       (!(usedClusters s).contains (prmN b 0), stState, 0), (s.age.testing.isNone, stBusy, 0)] s
      (okay [] (addBackground (.clusterTest (prmN b 0)) { s with age := { s.age with testing := some (prmN b 0, s.clk.now) } }))

/-- BACKGROUND_OP_DONE (R190, R381): the k-th background operation ends and its completion event is raised; a survey takes 48 superframes, a
cluster's test one (R456). -/
def execBackgroundOpDone (k : Nat) (res : OpResult) (s : State) : Result :=
  let t := { s with mb := { s.mb with background := s.mb.background.eraseIdx k } }
  commit s
    (match s.mb.background[k]? with
     | none => s
     | some (.xtSurvey g near n) =>
       if s.sf.number < n + 48 then s else raise 0x0023 g { t with mem := { t.mem with near := memWriteWords t.mem.near near res.words } }
     | some (.planSave img) => raise 0x0014 (planId img) { t with mp := { t.mp with bootPlan := img } }
     | some (.writeBank k) =>
       let img := (bankOf t k).image
       let t := setBank k { state := if s.mp.stageTrial ∧ img = runningImage s then .trial else .valid, image := img } t
       raise 0x0063 k { t with mp := { t.mp with stageTrial := s.mp.stageTrial && img != runningImage s } }
     | some (.commitBank _) => t
     | some (.marginScan _ near) => { t with mem := { t.mem with near := memWriteWords t.mem.near near res.words } }
     | some (.clusterTest c) => if s.age.testing.any (fun p => decide (s.clk.now < p.2 + s.sf.len)) then s else clusterTested c res.ok t)

/-- Bank state codes by their place in R401. -/
def bankCode : BankState → Nat
  | .empty => 0
  | .invalid => 1
  | .valid => 2
  | .boot => 3
  | .trial => 4

/-- FIRMWARE_STATUS (R393): each bank's state, release, build and SEC_VERSION, the stage, the running core, the standby, and the
background progress, which no rule gives a unit. -/
def execFirmwareStatus (m : Nat) (s : State) : Result :=
  mailboxCommand 0x0701 0 noWords m s fun _ =>
    okay ([s.mp.bankA, s.mp.bankB].flatMap (fun k =>
        [BitVec.ofNat 64 (bankCode k.state), BitVec.ofNat 64 k.image.release, BitVec.ofNat 64 k.image.build, BitVec.ofNat 64 k.image.sec])
      ++ [bitAt 0 s.mp.stage.isSome, BitVec.ofNat 64 (runningCode s), bitAt 0 (standbyReady s),
          BitVec.ofInt 64 (Config.derived 701 [s.mb.background.length])]) s

/-- Granary bytes written: poison markers of the lines clear (R368). -/
def granaryWrite (a : Nat) (bs : List Byte) (s : State) : State :=
  let lines := (List.range ((bs.length + 127) / 64)).map fun i => a / 64 + i
  let lines := lines.filter fun l => decide (l * 64 < a + bs.length)
  { s with mem := { s.mem with
      granary := memWrite s.mem.granary a bs
      poison := lines.foldl (fun t l => tabPut false t l false) s.mem.poison } }

/-- A write of the device's own, with its back-invalidations (R29). -/
def ownWrite (a : Nat) (bs : List Byte) (s : State) : State := backInv a bs.length (granaryWrite a bs s)

/-- FW_STAGE's base in the granary: the first 16 MiB of the FIRMWARE region (R352). -/
def stageBase (s : State) : Nat := regionBase s 4

/-- A write to FW_STAGE makes the stage UNVERIFIED (R401). -/
def stageWrite (off : Nat) (bs : List Byte) (s : State) : State :=
  let t := ownWrite (stageBase s + off) bs s
  { t with mp := { t.mp with stage := none } }

/-- FIRMWARE_STAGE_WRITE (R371, R393). -/
def execFirmwareStageWrite (m : Nat) (s : State) : Result :=
  mailboxCommand 0x0702 0 (fun n => decide (1 ≤ n ∧ n ≤ 119)) m s fun b =>
    let n := b.paramWords - 1
    checked
      [(decide (prmN b 0 % 8 = 0 ∧ prmN b 0 + 8 * n ≤ 16777216), stRange, 0), (domOn s 28, stResource, 0), (!updateInProgress s, stBusy, 0)] s
      (okay [] (stageWrite (prmN b 0) (wordsBytes (prms b 1 n)) s))

/-- The header of a firmware image keeps R399's table. -/
def fwFormatOk (h : List Word) : Bool :=
  fieldOf (hdr h 0) 63 32 == 0x4657494D && fieldOf (hdr h 0) 31 16 == 1 && fieldOf (hdr h 0) 15 0 == 0
  && fieldOf (hdr h 2) 39 0 == 0 && decide (1 ≤ (hdr h 3).toNat ∧ (hdr h 3).toNat ≤ 16773120)
  && (h.drop 22).all (· == 0)

/-- The silicon revision and variant of the device (R444, R478). -/
def siliconRev (s : State) : Nat := fieldOf (keepWord s 1) 22 15

/-- FIRMWARE_VERIFY (R399): the image in FW_STAGE against its header's table, the device and its signature. -/
def execFirmwareVerify (m : Nat) (s : State) : Result :=
  mailboxCommand 0x0703 0 noWords m s fun _ =>
    let h := memWords s.mem.granary (stageBase s) 512
    let body := memRead s.mem.granary (stageBase s + 4096) (hdr h 3).toNat
    let hb := wordsBytes h
    checked
      [(domOn s 28, stResource, 0), (fwFormatOk h, 0x10, 0),
       (fieldOf (hdr h 2) 63 48 == 0x8800 && decide (fieldOf (hdr h 2) 47 40 ≤ siliconRev s)
          && decide (fwSecMin s ≤ fieldOf (hdr h 1) 47 32), 0x16, 0),
       (fwSignatureOk s (hb.take 80) ((hb.drop 80).take 96) && sha384 body == (h.drop 4).take 6, 0x15, 0)] s
      (let img : Image := { release := fieldOf (hdr h 1) 63 48, build := fieldOf (hdr h 1) 31 0, sec := fieldOf (hdr h 1) 47 32,
                            hash := (h.drop 4).take 6 }
       okay [BitVec.ofNat 64 img.release, BitVec.ofNat 64 img.sec, BitVec.ofNat 64 img.build]
         { s with mp := { s.mp with stage := some img } })

/-- FIRMWARE_WRITE_BANK (R401): the bank that is not booted goes INVALID while it is written. -/
def execFirmwareWriteBank (m : Nat) (s : State) : Result :=
  mailboxCommand 0x0704 0 noWords m s fun _ =>
    let k := 1 - bootBank s
    checked [(s.mp.stage.isSome, stState, 0), ((bankOf s k).state != .trial, stState, 0), (!flashBusy s, stBusy, 0)] s
      (okay [BitVec.ofNat 64 k]
        (addBackground (.writeBank k) (setBank k { state := .invalid, image := s.mp.stage.getD {} } s)))

/-- FIRMWARE_ACTIVATE (R401, R508). -/
def execFirmwareActivate (m : Nat) (s : State) : Result :=
  mailboxCommand 0x0705 0 (exactly 2) m s fun b =>
    checked
      [sfOk b 0, inRange b 1 0 1, (counting s, stState, 0),
       (if prmN b 1 = 0 then s.mp.stage.isSome else (bankOf s (1 - bootBank s)).state == .valid, stState, 0),
       (!inTrial s, stState, 0), (s.mp.armed.isNone, stBusy, 0), (decide (s.sf.number + 2 ≤ prmN b 0), stBusy, 0)] s
      (okay [] (restartStandby { s with mp := { s.mp with armed := some { sf := prmN b 0, source := prmN b 1 } } }))

/-- Keep-store word 261 with a boot bank and floor (R440). -/
def bootWord (bank sec : Nat) : Word := fieldAt 16 16 bank ||| fieldAt 15 0 sec

/-- FIRMWARE_COMMIT (R401). -/
def execFirmwareCommit (m : Nat) (s : State) : Result :=
  mailboxCommand 0x0706 0 noWords m s fun _ =>
    let k := 1 - bootBank s
    checked [((bankOf s k).state == .trial, stState, 0), (!flashBusy s, stBusy, 0), (writable s [261], stWorn, 0)] s
      (let sec := max (fwSecMin s) (bankOf s k).image.sec
       let t := setBank k { bankOf s k with state := .boot } (setBank (1 - k) { bankOf s (1 - k) with state := .valid } s)
       okay [] (addBackground (.commitBank k) (restartStandby (mpWrite 261 (bootWord k sec) t))))

/-- FIRMWARE_REVERT (R401): the standby takes over at the next superframe boundary. -/
def execFirmwareRevert (m : Nat) (s : State) : Result :=
  mailboxCommand 0x0707 0 noWords m s fun _ =>
    checked [(inTrial s, stState, 0)] s (okay [] { s with mp := { s.mp with revertDue := true } })

/-- FIRMWARE_SET_BOOT (R393): from a baseboard mailbox. -/
def execFirmwareSetBoot (m : Nat) (s : State) : Result :=
  mailboxCommand 0x0708 2 (exactly 1) m s fun b =>
    let k := prmN b 0
    checked [inRange b 0 0 1, ((bankOf s k).state == .valid, stState, 0), (writable s [261], stWorn, 0)] s
      (let t := setBank k { bankOf s k with state := .boot } (setBank (1 - k) { bankOf s (1 - k) with state := .valid } s)
       okay [] (mpWrite 261 (bootWord k (fwSecMin s)) t))

/-- Role codes (R507). -/
def mpRoleCode : Role → Nat
  | .off => 0
  | .running => 1
  | .standby => 2
  | .romLoader => 3

/-- One core's word of `diag.mp_status` (R507). -/
def coreWord (s : State) (k : Nat) : Word :=
  let c := coreOf s k
  let margin := if c.role = .running then 50000 - (s.clk.now - s.mp.lastKick) else 0
  fieldAt 63 62 (mpRoleCode c.role) ||| bitAt 61 (c.role == .standby && c.ready) ||| fieldAt 55 32 margin
    ||| fieldAt 31 16 c.takeovers ||| fieldAt 15 0 c.lastCause

/-- DIAG_MP_STATUS (R507). -/
def execDiagMpStatus (m : Nat) (s : State) : Result :=
  mailboxCommand 0x0801 0 noWords m s fun _ => okay [coreWord s 0, coreWord s 1] s

/-- DIAG_NEAR_READ (R393). -/
def execDiagNearRead (m : Nat) (s : State) : Result :=
  mailboxCommand 0x0802 0 (exactly 2) m s fun b =>
    checked [(decide (prmN b 0 + 8 * prmN b 1 ≤ 67108864), stRange, 0), inRange b 1 1 120, (domOn s 28, stResource, 0)] s
      (okay (memWords s.mem.near (prmN b 0) (prmN b 1)) s)

/-- CAPACITY of the capture ring in records (R372). -/
def captureCapacity (s : State) : Nat := (s.mem.captureMib * 1048576 - 4096) / 576

/-- DIAG_CAPTURE (R372): arms the ring; a command trigger fires at once. -/
def execDiagCapture (m : Nat) (s : State) : Result :=
  mailboxCommand 0x0840 0 (fun n => decide (5 ≤ n ∧ n ≤ 20)) m s fun b =>
    let n := prmN b 0
    let cs := prms b 1 n
    checked
      [inRange b 0 1 16, countIs b (n + 4),
       (cs.all fun w => decide (w.toNat < 4096 ∧ fieldOf w 11 10 ≠ 0), stParam, 1),
       (cs.all (fun w => circuitAvailable s (fieldOf w 9 0)) && circuitAvailable s (prmN b (n + 2)), stResource, 0),
       scalarIs b (n + 1) 0xFFFF [0, 0x0043, 0x0044, 0x0045, 0x0002, 0x0020, 0x0040].contains,
       inRange b (n + 2) 0 767, inRange b (n + 3) 0 4294967295] s
      (let t := { s with mem := { s.mem with cap := {
          armed := true, circuits := cs.map fun w => (fieldOf w 9 0, fieldOf w 11 10), trigger := prmN b (n + 1)
          trigCircuit := prmN b (n + 2), postTicks := prmN b (n + 3) } } }
       okay [] (if prmN b (n + 1) = 0 then fireCapture t else t))

/-- DIAG_CAPTURE_STATUS (R372). -/
def execDiagCaptureStatus (m : Nat) (s : State) : Result :=
  mailboxCommand 0x0841 0 noWords m s fun _ =>
    okay [BitVec.ofNat 64 s.mem.cap.writeIdx, bitAt 0 s.mem.cap.armed ||| bitAt 1 s.mem.cap.frozen,
      BitVec.ofNat 64 s.mem.cap.triggerTick, BitVec.ofNat 64 (captureCapacity s)] s

/-- CAPTURE_FREEZE (R372): POST_TICKS after the trigger the ring freezes. -/
def execCaptureFreeze (s : State) : Result :=
  commit s
    (if s.mem.cap.armed && s.mem.cap.freezeAt.any (fun at_ => decide (at_ ≤ s.clk.now)) then
       { s with mem := { s.mem with cap := { s.mem.cap with armed := false, frozen := true, freezeAt := none } } }
     else s)

/-- SECURITY_STATUS (R507). -/
def execSecurityStatus (m : Nat) (s : State) : Result :=
  let g := fun r => tabGet 0 s.aead.grants r
  mailboxCommand 0x0601 0 noWords m s fun _ =>
    okay ((List.range 32).map (fun k =>
        let x := slotOf s k
        bitAt 63 x.key.isSome ||| bitAt 62 x.size ||| fieldAt 31 0 x.epoch)
      ++ [twoCounts (g 1) (g 2), twoCounts (g 3) (g 4), twoCounts s.aead.revocations s.aead.idleReleases, fieldAt 63 32 s.aead.mismatch])
      { s with aead := { s.aead with grants := [], revocations := 0, idleReleases := 0, mismatch := 0 } }

/-- The EP_ID of two words as a number (R384). -/
def epIdOf (b : Mailbox) (i : Nat) : Nat := prmN b i * 18446744073709551616 + prmN b (i + 1)

/-- SECURITY_JOIN_KEY (R421): the wrapped key is opened under PROV_KEY and kept wrapped under STORE; slot 2 ends EMPTY. -/
def execSecurityJoinKey (m : Nat) (s : State) : Result :=
  mailboxCommand 0x0602 0 (exactly 8) m s fun b =>
    let id := epIdOf b 0
    let ad := bytesBE (prm b 0) ++ bytesBE (prm b 1)
    checked [inRange b 2 1 2] s
      (if prmN b 2 = 2 then okay [] { s with sec := { s.sec with joinKeys := tabPut [] s.sec.joinKeys id [] } }
       else
         match (slotOf s 0).key with
         | none => refuse 0x15 0 s
         | some k =>
           match aeadOpen false k (0xFFFFFFF0 * 18446744073709551616 + prmN b 3) ad
               (bytesBE (prm b 4) ++ bytesBE (prm b 5)) (bytesBE (prm b 6) ++ bytesBE (prm b 7)) with
           | none => refuse 0x15 0 s
           | some key =>
             let x := slotOf s 1
             match useCounter 1 s with
             | none => refuse 0x21 0 s
             | some t =>
               let w := aeadSeal false (x.key.getD []) (x.epoch * 18446744073709551616 + x.counter) ad key 16
               let t := { t with sec := { t.sec with
                 joinKeys := tabPut [] t.sec.joinKeys id (BitVec.ofNat 64 x.counter :: keyOfBytes (w.1 ++ w.2)) } }
               okay [] (zeroiseSlot 2 t))

/-- SECURITY_ZEROISE (R415): one slot; or every slot, the PROV_KEY words and the join keys. -/
def execSecurityZeroise (m : Nat) (s : State) : Result :=
  mailboxCommand 0x0604 0 (exactly 1) m s fun b =>
    let k := prmN b 0
    checked [scalarIs b 0 0xFF (fun k => decide (k < 32 ∨ k = 0xFF)), (k != 0xFF || writable s [3584, 3585, 3586, 3587], stWorn, 0)] s
      (if k = 0xFF then
         let t := (List.range 32).foldl (fun t i => zeroiseSlot i t) s
         okay [] (mpWrites [(3584, 0), (3585, 0), (3586, 0), (3587, 0)] { t with sec := { t.sec with joinKeys := [] } })
       else okay [] (zeroiseSlot k s))

/-- A report placed in the near store at an offset the firmware picks (free), with the offset as the result (R424). -/
def nearReport (m : Nat) (ws : List Word) (s : State) : Reply :=
  let r := nearResult m ws s
  okay (r.1.take 1) r.2

/-- The attestation report (R424), signed over bytes 0 to 415; and the state after the draw of the signature's nonce. -/
def attestReport (s : State) (nonce : List Word) : List Word × State :=
  let i := runningImage s
  let img := s.plan.active
  let n := 8 + fieldOf (hdr img 1) 31 16
  let pad := fun (k : Nat) (ws : List Word) => (ws ++ List.replicate k 0).take k
  let body := [fieldAt 63 32 0x41545354 ||| fieldAt 31 16 1 ||| fieldAt 15 0 64, keepWord s 2, keepWord s 3,
      fieldAt 63 48 i.release ||| fieldAt 47 32 i.sec ||| fieldAt 31 0 i.build,
      fieldAt 63 32 (planId img) ||| fieldAt 31 16 (fwSecMin s) ||| fieldAt 15 0 (bootBank s)]
    ++ pad 6 i.hash ++ pad 6 (img.drop n)
    ++ [timeHigh s.tku.devUs 0, timeLow s.tku.devUs 0 ||| fieldAt 7 0 (timeQual s)] ++ pad 6 nonce ++ List.replicate 27 0
  let g := attestSign (wordsBytes body) s
  (body ++ g.1, g.2)

/-- SECURITY_ATTEST (R424): refused while the identity region fails its check (R444). -/
def execSecurityAttest (m : Nat) (s : State) : Result :=
  mailboxCommand 0x0605 0 (exactly 6) m s fun b =>
    checked [(!identFault s, stState, 0), (domOn s 28, stResource, 0)] s
      (let r := attestReport s (prms b 0 6); nearReport m r.1 r.2)

/-- SECURITY_CERT (R392, R444): the public key and the certificate chain. -/
def execSecurityCert (m : Nat) (s : State) : Result :=
  mailboxCommand 0x0606 0 noWords m s fun _ =>
    checked [(domOn s 28, stResource, 0)] s
      (nearReport m ((List.range 12).map (fun i => keepWord s (4 + i)) ++ (List.range 224).map (fun i => keepWord s (32 + i))) s)

end Sys2Proof.Machine
end

