-- ==== Sys2Proof/Machine/LaneRows.lean ====
section
/-! DEFINITION. What lanes, ports and front ends do of themselves: bring-up, probes, tests (spec/03_serial_lanes.md R74 to R89), the front
end's messages, frame timeouts and calibration (spec/04_tick_frames.md R100 to R110). -/
namespace Sys2Proof.Machine

/-- The receiver of a port works (R87): its domain is powered and it is not silent in DORMANT. -/
def portListens (x : Port) : Bool :=
  match x.state with
  | .off => false
  | .dormant => x.probeOn
  | _ => true

/-- BLOCK_LOCK_ACQUIRED (R74, R85): a consistently inverted header found in ACQUIRE inverts the lane. -/
def execBlockLockAcquired (lane : Nat) (inv : Bool) (s : State) : Result :=
  let x := portOf s (lane / 2)
  onObject (portExists s (lane / 2)) s
    (if portListens x && !(laneOf s lane).blockLock && x.state != .test then
       advancePhase (lane / 2) (modLane lane (fun l => { l with
         blockLock := true, inverted := if x.state = .bringup ∧ x.phase = .acquire then inv else l.inverted }) s)
     else s)

/-- BLOCK_LOCK_LOST (R74): LOCK_LOSS rises; the port stays as it is (R87). -/
def execBlockLockLost (lane : Nat) (s : State) : Result :=
  onObject (portExists s (lane / 2)) s
    (if (laneOf s lane).blockLock then
       modLane lane (fun l => { l with blockLock := false, lockLoss := sat32 l.lockLoss 1 }) s
     else s)

/-- The taps of a PRBS pattern (R89): 1 PRBS7, 2 PRBS15, 3 PRBS31. -/
def prbsTaps (pattern : Nat) : Nat × Nat := if pattern = 1 then (6, 7) else if pattern = 2 then (14, 15) else (28, 31)

/-- The next bit of a pattern after the register's bits, the last one in bit 0; PRBS15 and PRBS31 are sent inverted (PRESUMED from ITU-T O.150, which R89
names). -/
def prbsNext (pattern reg : Nat) : Bool :=
  let t := prbsTaps pattern
  (reg.testBit (t.1 - 1) != reg.testBit (t.2 - 1)) != decide (pattern ≠ 1)
def prbsShift (reg : Nat) (b : Bool) : Nat := (reg * 2 + (if b then 1 else 0)) % 2147483648

/-- The first n bits that a generator sends from a register. -/
def prbsRun (pattern : Nat) : Nat → Nat → List Bool
  | 0, _ => []
  | n + 1, reg => prbsNext pattern reg :: prbsRun pattern n (prbsShift reg (prbsNext pattern reg))

/-- TEST begins on a port (R89): the pattern replaces the block coding on both lanes, each generator from a register of its own (a free value). -/
def enterTest (p pattern : Nat) (s : State) : State :=
  let t := modLanes p (fun l => { l with blockLock := false, prbsLocked := false, prbsReg := 0, prbsSeen := [] })
    (passTurn s <| afterPorts s <| modPort p (fun x => { portQuiet x with state := .test, pattern := pattern, probing := false, probeOn := false, waiting := none }) s)
  let d := drawFree t
  (lanesOf p).foldl (fun t l => emit (.prbs l (prbsRun pattern 64 (d.1.toNat / 2 ^ (l % 2) % 2147483648))) t) d.2

/-- The words that announce TEST (R89): PHASE TEST, the pattern's code, COUNT from 7 to 0, a word on each lane for each count. -/
def announceTest (p pattern : Nat) (s : State) : State :=
  let word := fun (l n : Nat) => trainWithCheck
    ((trainWordOf s p l &&& ~~~ (fieldAt 55 52 15 ||| fieldAt 46 43 15 ||| fieldAt 10 0 2047)) ||| fieldAt 55 52 7 ||| fieldAt 46 43 pattern ||| fieldAt 10 8 n)
  [7, 6, 5, 4, 3, 2, 1, 0].foldl (fun t n => (lanesOf p).foldl (fun t l => emit (.train l (trainBlock (word l n))) t) t) s

/-- A bit at the checker (R89): a locked one predicts from its own register, an unlocked one from what it has received. -/
def checkBit (pattern : Nat) (l : Lane) (b : Bool) : Lane :=
  let want := prbsNext pattern l.prbsReg
  { l with
    prbsReg := prbsShift l.prbsReg (if l.prbsLocked then want else b), prbsSeen := ((b != want) :: l.prbsSeen).take 64
    prbsErr := if l.prbsLocked && b != want then sat32 l.prbsErr 1 else l.prbsErr }

/-- TRAIN_WORD_RECEIVED (R81, R83, R87, R88, R89): a word that passes its CHECK advances the phase of a port in BRINGUP, starts one on an
ACTIVE or STANDBY port and on a probing port, or takes both ends into TEST. -/
def execTrainWordReceived (lane : Nat) (w : Word) (obs : TrainObs) (s : State) : Result :=
  let p := lane / 2
  let x := portOf s p
  onObject (portExists s (lane / 2)) s
    (if !(laneOf s lane).blockLock || !trainCheckOk w then s
     else if trPhase w = 7 then
       if trCount w = 0 ∧ 1 ≤ fieldOf w 46 43 ∧ fieldOf w 46 43 ≤ 3 ∧ portBusy s p = false ∧ (x.state = .active ∨ x.state = .standby)
       then enterTest p (fieldOf w 46 43) s else s
     else
       match x.state with
       | .active => requestBring .full p s
       | .standby => requestBring .full p s
       | .dormant => if x.probeOn then requestBring .probe p s else s
       | .bringup =>
         let t := modLane lane (fun l => { l with
           train := some (w &&& fieldAt 55 0 0xFFFFFFFFFFFFFF)
           ready := l.ready || (x.phase == .align && obs.ready && decide (obs.deskew ≤ 32))
           rxLatency := if x.phase = .align then obs.rxLatency else l.rxLatency
           txLatency := if x.phase = .align then obs.txLatency else l.txLatency
           deskew := if x.phase = .align then obs.deskew else l.deskew }) s
         let t := if x.phase = .tune then modLane lane (tuneLane x.gen w obs.eye) t else t
         advancePhase p (stepCount p lane t)
       | _ => s)

/-- BRINGUP_PHASE_TIMEOUT (R83, R84): 10 ms in a phase end the try. -/
def execBringupPhaseTimeout (p : Nat) (s : State) : Result :=
  let x := portOf s p
  onObject (portExists s p) s (if x.state = .bringup then failTry p (2 + phaseCode x.phase) s else s)

/-- SIGNAL_DETECTED (R87): a DORMANT port enters BRINGUP at G1, subject to R86. -/
def execSignalDetected (p : Nat) (s : State) : Result :=
  onObject (portExists s p) s (if (portOf s p).state = .dormant then requestBring .full p s else s)

/-- DORMANT_PROBE (R88): training frames of G1 for 10 ms, under a TAG of their own. -/
def execDormantProbe (p : Nat) (s : State) : Result :=
  let x := portOf s p
  onObject (portExists s p) s
    (if x.state = .dormant ∧ x.probing = true ∧ x.probeOn = false then
       let d := drawFree s
       sendTrain p (modLanes p (fun l => { l with sentWord := none })
         (modPort p (fun x => { x with probeOn := true, tag := d.1.toNat % 65536 }) d.2))
     else s)

/-- PROBE_WINDOW_END (R88): the port falls silent until its next probe. -/
def execProbeWindowEnd (p : Nat) (s : State) : Result :=
  onObject (portExists s p) s
    (if (portOf s p).probeOn then
       modLanes p (fun l => { l with blockLock := false, train := none }) (modPort p (fun x => { x with probeOn := false }) s)
     else s)

/-- The next bring-up of one kind of port starts when none of that kind is under way (R86). -/
def startWaiting (ps : List Nat) (s : State) : State :=
  if s.plan.activated && (ps.any fun p => (portOf s p).state == .bringup) then s
  else match nextWaiting s ps with
    | none => s
    | some p => beginBring ((portOf s p).waiting.getD .full) p s

/-- BRINGUP_QUEUE_START (R86). -/
def execBringupQueueStart (s : State) : Result := commit s (startWaiting peerPorts (startWaiting frontPorts s))

/-- PRBS_CHECKER_LOCK (R89): after 64 error-free bits in a row. -/
def execPrbsCheckerLock (l : Nat) (s : State) : Result :=
  let x := laneOf s l
  onObject (portExists s (l / 2)) s
    (if (portOf s (l / 2)).state = .test ∧ x.prbsLocked = false ∧ x.prbsSeen = List.replicate 64 false then
       modLane l (fun x => { x with prbsLocked := true }) s
     else s)

/-- PRBS_LOCK_LOSS (R89): after 32 errors within 64 bits the locked checker drops lock, counts one LOCK_LOSS and seeks it again. -/
def execPrbsLockLoss (l : Nat) (s : State) : Result :=
  onObject (portExists s (l / 2)) s
    (if (portOf s (l / 2)).state = .test ∧ (laneOf s l).prbsLocked = true ∧ 32 ≤ ((laneOf s l).prbsSeen.filter id).length then
       modLane l (fun x => { x with prbsLocked := false, prbsSeen := [], lockLoss := sat32 x.lockLoss 1 }) s
     else s)

/-- Cells of a received message freed (R102). -/
def freeCells (p n : Nat) (s : State) : State := modPort p (fun x => { x with freed := (x.freed + n) % 65536 }) s

/-- A front-end port that carries frames. -/
def feActive (s : State) (p : Nat) : Bool := decide (p < 32) && (portOf s p).state == .active

/-- FE_IDENTITY (R105, R110): w1 FE_SERIAL, w2 with CAL_EPOCH in [23:8]. -/
def execFeIdentity (p : Nat) (ws : List Word) (s : State) : Result :=
  let serial := ws.getD 0 0
  let x := portOf s p
  onObject (frontExists s p) s
    (if !feActive s p then s
     else
       let t := modPort p (fun x => { x with seenSerial := serial }) (answered p 0x04 (freeCells p 1 s))
       if x.cal ≠ .identWait then t
       else if !x.calWords.isEmpty && x.feSerial == serial && x.calEpoch == fieldOf (ws.getD 1 0) 23 8 then beginMeasure p t
       else calibrate p t)

/-- The words of a port's calibration record from keep-store word 340 + 27 n, the commit word last (R439, R440). -/
def calRecord (p : Nat) (serial : Word) (epoch : Nat) (ws : List Word) : List (Nat × Word) :=
  let body := serial :: BitVec.ofNat 64 epoch :: (ws ++ List.replicate 24 0).take 24
  let all := body ++ [BitVec.ofNat 64 (crc32c (body.flatMap bytesBE))]
  (List.range 27).map fun i => (340 + 27 * p + i, all.getD i 0)

/-- FE_CAL_REPORT (R110): the report is stored and the port measures. -/
def execFeCalReport (p : Nat) (ws : List Word) (s : State) : Result :=
  let x := portOf s p
  let epoch := fieldOf (ws.getD 0 0) 63 48
  let cw := (ws.drop 1 ++ List.replicate 24 0).take 24
  onObject (frontExists s p) s
    (if !feActive s p then s
     else
       let t := answered p 0x02 (freeCells p 4 s)
       if x.cal = .calWait then
         let t := modPort p (fun x => { x with feSerial := x.seenSerial, calEpoch := epoch, calWords := cw }) t
         beginMeasure p (mpWrites (calRecord p x.seenSerial epoch cw) t)
       else t)

/-- FE_ALARM (R105): the event's two words (R394) carry the port and the tick; the message's cause and channels have no place in them. -/
def execFeAlarm (p : Nat) (_ws : List Word) (s : State) : Result :=
  onObject (frontExists s p) s (if feActive s p then raise 0x0006 p (freeCells p 1 s) else s)

/-- FE_ACK (R105): answers the message of its MSG_SEQ, whatever its status, but for those that IDENTITY and CAL_REPORT answer; a PORT_CONFIG counts as
acknowledged (R110) with status OK only (DESIGN CHOICE: R105 names the statuses and does not say what one but OK leads to). -/
def execFeAck (p : Nat) (w : Word) (s : State) : Result :=
  onObject (frontExists s p) s
    (if feActive s p then
       let mine := fun (g : Message) => g.seq == fieldOf w 63 48 && g.mtype != 0x02 && g.mtype != 0x04
       modPort p (fun x => { x with
         messages := x.messages.filter fun g => !mine g
         configOk := x.configOk || (fieldOf w 47 40 == 0 && x.messages.any fun g => mine g && g.mtype == 0x01) }) (freeCells p 1 s)
     else s)

/-- One message that has waited 100 ticks for its answer (R106): it goes out again, or after its third send raises FE_NORESP. A CAL_REQUEST given up
ends its port's turn (DESIGN CHOICE: R110 does not say when the turn of a calibration without an answer ends); the port stays in its state. -/
def resendOne (p : Nat) (s : State) (g : Message) : State :=
  if g.sends < 3 then
    modPort p (fun x => { x with
      messages := x.messages.map fun h => if h.seq = g.seq ∧ h.mtype = g.mtype then { h with sends := h.sends + 1, sentAt := s.clk.now } else h
      cells := x.cells ++ g.cells }) s
  else
    let t := modPort p (fun x => { x with
      messages := x.messages.filter fun h => !(h.seq == g.seq && h.mtype == g.mtype), calRun := x.calRun && g.mtype != 0x02 }) s
    raise 0x0004 p (passTurn s t)

/-- FE_MESSAGE_RESEND (R106): every message that has waited its 100 ticks, in the order they were sent. -/
def execFeMessageResend (p : Nat) (s : State) : Result :=
  onObject (frontExists s p) s
    (if feActive s p then ((portOf s p).messages.filter fun g => decide (g.sentAt + 100 ≤ s.clk.now)).foldl (resendOne p) s else s)

/-- PORT_DEGRADED (R100). -/
def execPortDegraded (p : Nat) (s : State) : Result :=
  onObject (frontExists s p) s
    (if feActive s p && decide (3 ≤ (portOf s p).missRun) && !(portOf s p).degraded then
       raise 0x0002 p (modPort p (fun x => { x with degraded := true }) s)
     else s)

/-- PORT_READY_AGAIN (R100). -/
def execPortReadyAgain (p : Nat) (s : State) : Result :=
  onObject (frontExists s p) s
    (if feActive s p && decide (8 ≤ (portOf s p).goodRun) then modPort p (fun x => { x with degraded := false }) s else s)

/-- PORT_REBRING (R87, R100). -/
def execPortRebring (p : Nat) (s : State) : Result :=
  onObject (portExists s p) s
    (if (portOf s p).state = .active ∧ 100 ≤ (portOf s p).missRun then requestBring .rebring p s else s)

end Sys2Proof.Machine
end

