-- ==== Sys2Proof/Machine/CmdPort.lean ====
section
/-! DEFINITION. Mailbox commands of ports and lanes (spec/15_mailboxes_firmware.md R388, R393, R507; spec/03 R67, R80, R87 to R91; spec/04 R98,
R109, R110, R119). -/
namespace Sys2Proof.Machine

/-- Generation code (R507). -/
def genCode (g : Nat) : Nat := g % 4

/-- Port and calibration state codes (R507). -/
def portStateCode : PortState → Nat
  | .off => 0
  | .bringup => 1
  | .active => 2
  | .standby => 3
  | .dormant => 4
  | .test => 5
def calCode : CalState → Nat
  | .identWait => 0
  | .calWait => 1
  | .measure => 2
  | .ready => 3

/-- A lane's word of `port.status` (R507). -/
def laneStatus (s : State) (p l : Nat) : Word :=
  let x := laneOf s l
  let g := (portOf s p).gen
  fieldAt 63 60 (if g = 0 then 0 else x.presets.getD (g - 1) 0) ||| bitAt 59 (g != 0 && x.pinned.getD (g - 1) false)
  ||| fieldAt 55 32 x.rxLatency ||| fieldAt 31 8 x.txLatency ||| fieldAt 7 0 x.deskew

/-- A port's words of `port.status` (R507). -/
def portStatus (s : State) (p : Nat) : List Word :=
  let x := portOf s p
  [fieldAt 63 60 (portStateCode x.state) ||| fieldAt 59 58 (genCode x.gen) ||| bitAt 57 x.capped ||| fieldAt 56 55 (genCode x.genMax)
    ||| fieldAt 54 52 (if isPeer p then 0 else calCode x.cal) ||| bitAt 51 x.degraded ||| fieldAt 50 47 x.lastFail,
   laneStatus s p (if x.swapped then 2 * p + 1 else 2 * p), laneStatus s p (if x.swapped then 2 * p else 2 * p + 1)]

/-- The checks of a PSET parameter at word 0. -/
def psetChecks (s : State) (b : Mailbox) : List (Bool × Nat × Nat) := [psetOk b 0, psetExists s b 0]

/-- PORT_STATUS (R77, R91, R507). -/
def execPortStatus (m : Nat) (s : State) : Result :=
  mailboxCommand 0x0110 0 (exactly 1) m s fun b =>
    checked (psetChecks s b) s (okay ((portsOf (prm b 0)).flatMap (portStatus s)) s)

/-- Every port of the set is powered; a port whose domain is off is unavailable (R386). -/
def portsOn (s : State) (w : Word) : Bool := (portsOf w).all fun p => domOn s (portDomain p)

/-- PORT_RETRAIN (R86, R87). -/
def execPortRetrain (m : Nat) (s : State) : Result :=
  mailboxCommand 0x0111 0 (exactly 1) m s fun b =>
    checked (psetChecks s b ++ [(portsOn s (prm b 0), stResource, 0)]) s
      (okay [] ((portsOf (prm b 0)).foldl (fun t p => requestBring .retrain p t) s))

/-- A peer port that carries the mirror (R87, R459). -/
def carriesMirror (s : State) (p : Nat) : Bool :=
  isPeer p && (s.pair.role == .active || s.pair.role == .standby) && s.pair.ports.contains (p - 32)

/-- One port's move by `port.set_state` (R87). -/
def setPortState (code p : Nat) (s : State) : State :=
  let x := portOf s p
  afterPorts s <| match x.state, code with
  | .standby, 0 => modPort p (fun x => { x with state := .active, missRun := 0, goodRun := 0, landed := false }) s
  | .dormant, 0 => if x.probing then s else requestBring .rebring p s
  | .active, 1 => modPort p (fun x => { x with state := .standby }) s
  | .active, 2 =>
    passTurn s (modLanes p (fun l => { l with blockLock := false })
      (modPort p (fun x => { portQuiet x with state := .dormant, probing := false, probeOn := false }) s))
  | _, _ => s

/-- PORT_SET_STATE (R87): one port that may not leave ACTIVE refuses the command whole. -/
def execPortSetState (m : Nat) (s : State) : Result :=
  mailboxCommand 0x0112 0 (exactly 2) m s fun b =>
    checked
      (psetChecks s b ++ [inRange b 1 0 2, (portsOn s (prm b 0), stResource, 0),
        (prmN b 1 == 0 || (portsOf (prm b 0)).all fun p =>
          !((portOf s p).state == .active && (portBusy s p || carriesMirror s p)), stBusy, 0)]) s
      (okay [] ((portsOf (prm b 0)).foldl (fun t p => setPortState (prmN b 1) p t) s))

/-- PORT_SET_PRESET (R80): pins or releases a preset of one lane at one generation, in the lane's own word. -/
def execPortSetPreset (m : Nat) (s : State) : Result :=
  mailboxCommand 0x0113 0 (exactly 4) m s fun b =>
    let l := 2 * prmN b 0 + prmN b 1
    let g := prmN b 2 - 1
    checked
      [inRange b 0 0 35, inRange b 1 0 1, inRange b 2 1 3, scalarIs b 3 15 (fun v => decide (v < 12 ∨ v = 15)),
       (portExists s (prmN b 0), stResource, 0), (writable s [268 + l], stWorn, 0)] s
      (let pin := prmN b 3 != 15
       let x := laneOf s l
       let y := { x with pinned := x.pinned.set g pin, presets := if pin then x.presets.set g (prmN b 3) else x.presets }
       okay [] (mpWrite (268 + l) (laneWord y) (setLane l y s)))

/-- CLOCK_SET_SPREAD (R67). -/
def execClockSetSpread (m : Nat) (s : State) : Result :=
  mailboxCommand 0x0114 0 (exactly 1) m s fun b =>
    checked
      [inRange b 0 0 3,
       (frontPorts.all fun p => (portOf s p).state == .off || (portOf s p).state == .dormant, stBusy, 0)] s
      (storeSetting 0x0114 [intOf (prm b 0)] s { s with port := { s.port with spread := prmN b 0 } })

/-- PORT_FRAME_COUNTERS (R119): read and cleared. -/
def execPortFrameCounters (m : Nat) (s : State) : Result :=
  mailboxCommand 0x0115 0 (exactly 1) m s fun b =>
    let ps := portsOf (prm b 0)
    checked (psetChecks s b) s
      (okay (ps.flatMap fun p =>
          let x := portOf s p
          packCounts [x.frameOk, x.missed, x.tagSlip, x.cellLost, x.ledgerFail, x.pathDrift, x.txConflict])
        (ps.foldl (fun t p => modPort p (fun x => { x with
          frameOk := 0, missed := 0, tagSlip := 0, cellLost := 0, ledgerFail := 0, pathDrift := 0, txConflict := 0 }) t) s))

/-- PORT_CALIBRATE (R110): a READY front-end port queues a calibration. -/
def execPortCalibrate (m : Nat) (s : State) : Result :=
  mailboxCommand 0x0116 0 (exactly 1) m s fun b =>
    checked (psetChecks s b ++ [(portsOn s (prm b 0), stResource, 0)]) s
      (okay [] ((portsOf (prm b 0)).foldl (fun t p =>
        if feActive t p && (portOf t p).cal == .ready then calibrate p t else t) s))

/-- What a port's word says of its settings (R440). -/
def portSettings (x : Port) : List Int := [x.genMax, x.spref, x.txFs, x.rxFs]

/-- Port-scope settings changed on several ports and stored (R384, R440). -/
def storePorts (ps : List Nat) (f : Nat → Port → Port) (s : State) : State :=
  ps.foldl (fun t p => mpHold (portSettingWord p) 0x0117 (portSettings (f p (portOf t p))) (modPort p (f p) t)) s

/-- PORT_CONFIG (R98, R109, R388): RX_LEAD and TX_LAG in steps of 4 ns for the device, SPREF_DELAY_NOM and GEN_MAX for the ports of the set. -/
def execPortConfig (m : Nat) (s : State) : Result :=
  mailboxCommand 0x0117 0 (fun n => decide (2 ≤ n)) m s fun b =>
    let lead := settingOf b 1 4 0
    let lag := settingOf b 1 4 1
    let ps := portsOf (prm b 0)
    let portScope := bitOf (prm b 1) 2 || bitOf (prm b 1) 3
    let devScope := lead.isSome || lag.isSome
    checked
      (psetChecks s b ++ settingsOk b 1 [(300, 499), (300, 499), (-1, 1048575), (1, 3)]
        ++ [(!devScope || frontPorts.all fun p => !portBusy s p, stBusy, 0),
            ((!devScope || !worn s (settingWordOf 0x0117)) && (!portScope || writable s (ps.map portSettingWord)), stWorn, 0)]) s
      (let t := if portScope then
          storePorts ps (fun p x => { x with
            spref := if isPeer p then x.spref else pick (settingOf b 1 4 2) id x.spref
            genMax := pick (settingOf b 1 4 3) Int.toNat x.genMax }) s else s
       let t := { t with port := { t.port with
         rxLead := pick lead (fun v => v.toNat * 4) t.port.rxLead, txLag := pick lag (fun v => v.toNat * 4) t.port.txLag } }
       okay [] (if devScope then mpHold (settingWordOf 0x0117) 0x0117 [t.port.rxLead, t.port.txLag] t else t))

/-- LANE_PRBS (R87, R89): the words that announce TEST go out and both lanes switch. -/
def execLanePrbs (m : Nat) (s : State) : Result :=
  mailboxCommand 0x0820 0 (exactly 3) m s fun b =>
    let ps := portsOf (prm b 0)
    let start := prmN b 2 == 1
    checked
      (psetChecks s b ++ [inRange b 1 1 3, inRange b 2 1 2, (portsOn s (prm b 0), stResource, 0),
        (!start || ps.all fun p => !portBusy s p && (portOf s p).state != .bringup, stBusy, 0)]) s
      (okay [] (ps.foldl (fun t p =>
        if start then enterTest p (prmN b 1) (announceTest p (prmN b 1) t)
        else if (portOf t p).state = .test then requestBring .rebring p t else t) s))

/-- LANE_MARGIN_SCAN (R90): the scan runs in the background and its grid goes to the near store at an offset the firmware picks. One scan of each octet domain
runs at a time: L56 to L71, the lanes of D11, are one octet here (DESIGN CHOICE: R65's table gives D11 two groups of eight lanes and R90 says `octet`). -/
def execLaneMarginScan (m : Nat) (s : State) : Result :=
  mailboxCommand 0x0821 0 (exactly 2) m s fun b =>
    let l := prmN b 0
    let d := portDomain (l / 2)
    checked
      [inRange b 0 0 71, inRange b 1 6 10, (portExists s (l / 2) && domOn s d && domOn s 28, stResource, 0),
       (!(s.mb.background.any fun g => match g with
          | .marginScan q _ => portDomain (q / 2) == d
          | _ => false), stBusy, 0)] s
      (let f := drawFree s
       let near := f.1.toNat % 8388608 * 8
       okay [BitVec.ofNat 64 near] (addBackground (.marginScan l near) f.2))

/-- LANE_COUNTERS (R91): read and cleared. -/
def execLaneCounters (m : Nat) (s : State) : Result :=
  mailboxCommand 0x0822 0 (exactly 1) m s fun b =>
    let ls := (portsOf (prm b 0)).flatMap lanesOf
    checked (psetChecks s b) s
      (okay (ls.flatMap fun l =>
          let x := laneOf s l
          packCounts [x.blockErr, x.syncErr, x.lockLoss, x.bringupFail, x.prbsErr])
        (ls.foldl (fun t l => modLane l (fun x => { x with
          blockErr := 0, syncErr := 0, lockLoss := 0, bringupFail := 0, prbsErr := 0 }) t) s))

end Sys2Proof.Machine
end

