-- ==== Sys2Proof/Machine/PlanSwap.lean ====
section
/-! DEFINITION. What a plan swap does to the circuits (spec/02_tick_and_plan.md R58 to R62, spec/07 R193, spec/08 R213, spec/12 R313). -/
namespace Sys2Proof.Machine

/-- A repeater's assignment is cleared on a circuit that enters feed mode (R313). -/
def clearRepeater (c : Nat) (s : State) : State :=
  modRecords (fun r => if r.circuit = c then { r with repeats := false, far := [], rbSlot := 0 } else r) s

/-- A feed link begins with the mode: TRAINING, and no training while transmission is disabled (R213, R248). -/
def enterFeed (c : Nat) (s : State) : State :=
  let t := clearRepeater c s
  if s.circ.profile = 0 then modFeed c (fun f => { leaveData f with state := .search }) t else train c t
/-- A feed link ends: OFF, and queued frames return with CANCELLED. -/
def leaveFeed (c : Nat) (s : State) : State :=
  returnCircuit c txCancelled (setFeed c { session := (feedOf s c).session + 1 } s)

/-- The receive function code of a circuit under an image: 1, 2 or 7 (R46). -/
def receiveCode (img : List Word) (c : Nat) : Option Nat := (functionsOf img c).find? fun f => f == 1 || f == 2 || f == 7

/-- What a swap does to one circuit: functions new to it start from their initial state, those it keeps go on (R60). Between two active modes HK
goes on, with its AGC, noise model and chaff map; a Class T receiver of another code, and a Class A one that leaves, start anew. -/
def swapCircuit (old : State) (s : State) (c : Nat) : State :=
  let was := circuitMode old c
  let now := circuitMode s c
  let t := if was = 3 ∧ now ≠ 3 then leaveFeed c s else if was ≠ 0 ∧ now = 0 then returnCircuit c txCancelled s else s
  let t := if was = 0 ∨ now = 0 then modCirc c circuitRestart t
    else if receiveCode old.plan.active c ≠ receiveCode s.plan.active c then
      modCirc c (fun x => thaw { x with rxT := {}, rxA := if (was = 3) ≠ (now = 3) then {} else x.rxA, energyRun := 0 }) t
    else t
  let t := if nbrsWord old c ≠ nbrsWord s c then modRecords (fun r => if r.circuit = c then staleSnap r else r) t else t
  if was ≠ 3 ∧ now = 3 then enterFeed c t else t

/-- At the end of the tick T0 of a swap the new placements take over (R59): the functions' state is copied, and the qualifier queues follow
their circuits (R60). `s` is the state before the tick's work, `worked` the state after it under the old placements. -/
def settleSwap (s worked : State) : State :=
  match s.plan.old with
  | none => worked
  | some _ =>
    let t := { worked with plan := { worked.plan with active := s.plan.active, subst := s.plan.subst, old := none
                                                      queue := carriedQueue s.plan.active worked.plan.queue } }
    (activeCircuits worked ++ (activeCircuits t).filter (fun c => !circuitActive worked c)).foldl (swapCircuit worked) t

end Sys2Proof.Machine
end

