-- ==== Sys2Proof/Machine/SfTimer.lean ====
section
/-! DEFINITION. The mains crossings, the reference and the superframe timer's events (spec/11_superframe.md R260 to R263). Crossing
instants are in 1/16 ns on the base of `Clock.now`. -/
namespace Sys2Proof.Machine

/-- L_nom, N_FIX and the limits of L_s for a MAINS_NOM (R260). -/
def lNomOf (mains : Nat) : Nat := if mains = 60 then 16667 else 20000
def nFixOf (mains : Nat) : Nat := if mains = 60 then 634 else 768
def lMinOf (mains : Nat) : Nat := if mains = 60 then 16350 else 19700
def lMaxOf (mains : Nat) : Nat := if mains = 60 then 17350 else 20800
def lNom (s : State) : Nat := lNomOf s.sf.mainsNom

def crossingOf (s : State) (c : Nat) : Crossing := tabGet {} s.sf.refs c

/-- A valid crossing within the last 3 x L_nom ticks (R261). -/
def crossingLive (s : State) (c : Nat) : Bool :=
  (crossingOf s c).valid.isSome && decide (s.clk.now ≤ (crossingOf s c).validAt + 3 * lNom s)

/-- A step of device time by so many microseconds (R318): the crossings stay where they were in device time. -/
def stepCrossings (us : Int) (t : Tab Crossing) : Tab Crossing :=
  if us = 0 then t else t.map fun e => (e.1, { e.2 with last := e.2.last.map (· - 16000 * us), valid := e.2.valid.map (· - 16000 * us) })

/-- The reference that R261 chooses. -/
def chosenRef (s : State) : Option Nat := s.sf.refList.find? (crossingLive s)

/-- The reference follows the choice (R261, R263): a move from one circuit to another counts REF_SWITCH and leads to SLEWING. -/
def followRef (s : State) : State :=
  match chosenRef s with
  | none => s
  | some c =>
    if s.sf.ref = some c then s
    else
      let moved := s.sf.ref.isSome
      { s with sf := { s.sf with
          ref := some c, refSwitch := if moved then sat32 s.sf.refSwitch 1 else s.sf.refSwitch
          state := if moved && s.sf.state != .free then .slewing else s.sf.state, lockRun := 0 } }

/-- A rising crossing of a circuit of REF_LIST (R261, R263). -/
def crossing (c : Nat) (at_ : Int) (s : State) : State :=
  if !s.sf.refList.contains c then s
  else
    let x := crossingOf s c
    let m := s.sf.mainsDue.getD s.sf.mainsNom
    let ok := match x.last with
      | some l => decide (16000 * (lMinOf m : Int) ≤ at_ - l ∧ at_ - l ≤ 16000 * lMaxOf m)
      | none => false
    let y : Crossing := match ok, x.last with
      | true, some l => { last := some at_, valid := some at_, validAt := s.clk.now, periods := ((at_ - l) :: x.periods).take 8, good := x.good + 1 }
      | _, _ => { x with last := some at_, good := 0 }
    let t := followRef { s with sf := { s.sf with refs := tabPut {} s.sf.refs c y } }
    if t.sf.state = .free ∧ 8 ≤ y.good then { t with sf := { t.sf with state := .slewing, lockRun := 0 } } else t

/-- SF_REF_LOST (R263): no valid crossing on any circuit of REF_LIST for 3 x L_nom ticks. -/
def execSfRefLost (s : State) : Result :=
  commit s
    (if s.sf.state = .free ∨ (chosenRef s).isSome = true then s
     else raise 0x0022 0 { s with sf := { s.sf with state := .free, ref := none, lockRun := 0, lockLoss := sat32 s.sf.lockLoss 1 } })

end Sys2Proof.Machine
end

