-- ==== Sys2Proof/Machine/Beacons.lean ====
section
/-! DEFINITION. Beacon forms, the dealing of grants to beacons and sheets, and their PPDUs (spec/11_superframe.md R278 to R280, spec/06_class_t.md R156, R161). -/
namespace Sys2Proof.Machine

/-- Class bands: 1 Class A, 0 Class T. -/
def grantBand (g : Grant) : Nat := if g.gtype = 1 ∨ g.gtype = 4 then 1 else 0

/-! Beacon forms (R278, R279). -/

/-- The rows of R278: whether one codeword, grants held, threshold in 1/160 dB. The last row is the compact form. -/
def beaconRows : List (Bool × Nat × Int) :=
  [(true, 1, -1328), (true, 0, -1488), (false, 12, -1328), (false, 10, -1488), (false, 8, -1648), (false, 6, -1808), (false, 2, -2048), (true, 0, -2528)]
def rowHolds (r : Nat) : Nat := (beaconRows.getD r (true, 0, 0)).2.1
def rowThreshold (r : Nat) : Int := (beaconRows.getD r (true, 0, 0)).2.2

/-- The lowest Class T SNR reported on a circuit in the 256 superframes before superframe n, in 1/16 dB. -/
def lowestSnr (s : State) (n c : Nat) : Option Int :=
  (s.link.records.filter fun r => r.circuit == c && decide (n ≤ r.reportSf + 256)).foldl (fun m r =>
    match m, r.snrT with
    | none, x => x
    | some a, some b => some (min a b)
    | some a, none => some a) none

/-- The row for k inline grants in superframe n (R278). -/
def beaconRow (s : State) (n c k : Nat) : Nat :=
  match lowestSnr s n c with
  | none => 6
  | some v =>
    let met := fun (r : Nat) => decide (rowThreshold r ≤ 10 * v - 80 * (circOf s c).set.beaconMargin)
    (([0, 1].find? fun r => met r && decide (k ≤ rowHolds r)).orElse fun _ => [2, 3, 4, 5, 6].find? met).getD 7

/-- The rate ladder's entry of an endpoint's downlinks, 0 below entry 1 (R183). -/
def ladderEntry (s : State) (r : Record) : Nat := entryFor r.sinrA (marginOf s r.circuit)

/-- Grants that go inline before any other (R279): Class T grants, and Class A ones to an endpoint below SHEET_ENTRY. -/
def inlineFirst (s : State) (g : Grant) : Bool :=
  grantBand g == 0 || (match recordAt s g.circuit g.addr with
    | none => true
    | some r => decide (ladderEntry s r < (circOf s g.circuit).set.sheetEntry))

/-- A circuit's beacon: its row, the inline grants and those of its sheet (R278, R279). Grants that find no place are not issued. -/
structure Dealt where
  row : Nat := 0
  inline : List Grant := []
  sheet : List Grant := []
deriving DecidableEq, Repr, Inhabited

def dealGrants (s : State) (n c : Nat) (gs : List Grant) : Dealt :=
  let row := beaconRow s n c gs.length
  if row = 7 then { row := 7 }
  else if gs.length ≤ rowHolds row then { row := row, inline := gs }
  else if circuitMode s c = 2 then
    let first := gs.filter (inlineFirst s)
    let row := beaconRow s n c first.length
    let inline := first.take (rowHolds row)
    { row := row, inline := inline, sheet := (gs.filter fun g => !inlineFirst s g).take (64 - inline.length) }
  else { row := row, inline := gs.take (rowHolds row) }

/-! The limits of tagging (R280). -/

/-- Tagged bytes of a sheet and of a beacon (R275, R276, R279); 8 more are the tag. -/
def sheetTagged (d : Dealt) : Nat := if d.sheet.isEmpty then 0 else 24 + 6 * d.sheet.length
def beaconTagged (d : Dealt) : Nat := if d.row = 7 then 28 else 48 + 6 * d.inline.length
/-- Time of the engine for so many tagged bytes, in 1/240 us. -/
def tagCost (n : Nat) : Nat := if n = 0 then 0 else 144 + n
def sumOf (f : Dealt → Nat) (ds : List (Nat × Dealt)) : Nat := ds.foldl (fun a p => a + f p.2) 0
/-- Within the limits after a rejoin window of j ticks: the sheets' time, the time of all, and 112 KiB. -/
def tagFits (j : Nat) (ds : List (Nat × Dealt)) : Bool :=
  let sheets := sumOf (fun d => tagCost (sheetTagged d)) ds
  let sent := fun (n : Nat) => if n = 0 then 0 else n + 8
  decide (sheets + 240 * 25 ≤ 240 * j ∧ sheets + sumOf (fun d => tagCost (beaconTagged d)) ds ≤ 240 * (j + 375)
    ∧ sumOf (fun d => sent (sheetTagged d) + sent (beaconTagged d)) ds ≤ 114688)
/-- Circuits lose part of their grants, one at a time, until the limits hold. -/
def shedUntil (j : Nat) (drop : Dealt → Dealt) : List Nat → List (Nat × Dealt) → List (Nat × Dealt)
  | [], ds => ds
  | c :: cs, ds => if tagFits j ds then ds else shedUntil j drop cs (ds.map fun p => if p.1 = c then (c, drop p.2) else p)
/-- DESIGN CHOICE: the rotating order of superframe n begins with the n-th circuit, modulo their number. -/
def rotated (n : Nat) (cs : List Nat) : List Nat := let k := n % max cs.length 1; cs.drop k ++ cs.take k
/-- What the beacons and sheets of superframe n carry (R278 to R280); `prev` is the length of the superframe before it. -/
def dealAll (s : State) (n prev : Nat) : List (Nat × Dealt) :=
  let j := prev - 25 * nFixOf s.sf.mainsNom
  let cs := activeCircuits s
  let ds := cs.map fun c => (c, if isFeed s c then ({ row := 6 } : Dealt) else dealGrants s n c (s.sf.grantsNext.filter fun g => g.circuit == c))
  shedUntil j (fun d => { d with inline := [] }) (rotated n cs) (shedUntil j (fun d => { d with sheet := [] }) (rotated n cs) ds)

/-! Their PPDUs (R156, R161, R278, R279). -/

/-- NCODE, codewords and RATE of a beacon's row. -/
def beaconCode (row : Nat) : Nat × Nat × Nat :=
  [(4, 1, 4), (4, 1, 3), (4, 2, 4), (4, 2, 3), (4, 2, 2), (4, 2, 1), (4, 2, 0), (3, 1, 0)].getD row (3, 1, 0)
def beaconPpdu (c row start : Nat) (bytes : List Byte) : Ppdu :=
  let b := beaconCode row
  { cls := 1, start := start, header := tHeader 1 0 b.1 0 b.2.2 b.2.1 0, coded := (encodeFrame c 0 b.2.2 b.2.1 bytes).flatten }
/-- A sheet of so many grants: the fewest codewords of N = 2,304 that hold its bytes. -/
def sheetCode (s : State) (c grants : Nat) : SettingA :=
  let g := sheetSetting s c
  { g with lift := 1, ncw := (8 * (32 + 6 * grants) + infoBits 1 g.rate - 1) / infoBits 1 g.rate }
def sheetPpdu (s : State) (c start grants : Nat) (bytes : List Byte) : Ppdu := { interleaved s c (ppduA c (sheetCode s c grants) bytes) with start := start }

/-- A PPDU takes the place of one of its class that begins in the same frame. -/
def putPpdu (p : Ppdu) (x : Circuit) : Circuit := { x with ppdus := (x.ppdus.filter fun q => !(q.cls == p.cls && q.start == p.start)) ++ [p] }

/-- What begins with the first frame of a superframe whose bytes are not tagged yet: the fields ahead of the payloads of a circuit's beacon and
sheet (R280). -/
def beaconHeads (start : Nat) (s : State) (p : Nat × Dealt) : State :=
  if isFeed s p.1 then s
  else
    let t := modCirc p.1 (putPpdu (beaconPpdu p.1 p.2.row start [])) s
    if p.2.sheet.isEmpty then t else modCirc p.1 (putPpdu (sheetPpdu s p.1 start p.2.sheet.length [])) t
def dropHeads (start : Nat) (c : Nat) (s : State) : State := modCirc c (fun x => { x with ppdus := x.ppdus.filter fun p => p.start != start }) s

end Sys2Proof.Machine
end

