-- ==== Sys2Proof/Machine/Shaping.lean ====
section
/-! DEFINITION. Region profiles, notches, shaping filters and the limits on spectral density (spec/10_transmit_shaping.md R241 to R259).
Frequencies are in kHz, densities in 0.5 dB steps of dBm/Hz; classes are 0 T, 1 A, 2 D. -/
namespace Sys2Proof.Machine

/-- A class's occupied band (R148, R170, R197): Class D at 100 MBd, above the couplers' 0.5 MHz. -/
def classBand (k : Nat) : Nat × Nat := if k = 0 then (3000, 27000) else if k = 1 then (30500, 85500) else (500, 100000)

/-- The PSD cap of a profile over a class's band (R246), the lower one where the band holds both. Without transmission there is none
below the range of R252. -/
def psdCap (profile k : Nat) : Int := if k = 0 then -110 else if profile = 1 then -124 else if profile = 2 then -120 else -110

/-- Sections in use (R243, R247). -/
def profileSections (profile : Nat) : Nat := if profile = 1 then 17 else if profile = 2 then 21 else 0
def sectionsOf (profile : Nat) (ns : List Notch) : Nat := profileSections profile + ns.foldl (fun m n => m + notchSections n) 0

/-- Bands in ascending order of their lower edges. -/
def insertBand (b : Nat × Nat) : List (Nat × Nat) → List (Nat × Nat)
  | [] => [b]
  | x :: xs => if b.1 ≤ x.1 then b :: x :: xs else x :: insertBand b xs
/-- The width within [lo, hi] that some band covers. -/
def coveredFrom : Nat → Nat → List (Nat × Nat) → Nat
  | _, _, [] => 0
  | at_, hi, b :: bs =>
    let a := max at_ b.1
    let e := min hi b.2
    (e - a) + coveredFrom (max at_ e) hi bs
def covered (lo hi : Nat) (bs : List (Nat × Nat)) : Nat := coveredFrom lo hi (bs.foldr insertBand [])
/-- A class's occupied band less its notched bands, in kHz (R253). -/
def openWidth (k : Nat) (bs : List (Nat × Nat)) : Nat := let b := classBand k; b.2 - b.1 - covered b.1 b.2 bs

/-! The response of a shaping filter (R242), on a grid of 0.25 MHz: the cosines of whole multiples of 2 pi / 1,000 in 60 fraction bits. -/

def cosStep : Nat → Int → Int → List Int
  | 0, _, _ => []
  | n + 1, a, b => a :: cosStep n b (2 * 1152898746923404945 * b / 2 ^ 60 - a)
def cosTable : Array Int := (cosStep 1000 (2 ^ 60) 1152898746923404945).toArray
/-- The response at i x 0.25 MHz, with 74 fraction bits. -/
def filterAt (taps : List Int) (i : Nat) : Int :=
  (List.range 16).foldl (fun a j => a + 2 * taps.getD j 0 * cosTable.getD ((16 - j) * i % 1000) 0) (taps.getD 16 0 * 2 ^ 60)
/-- Grid points of a class's band. -/
def gridOf (k : Nat) : List Nat := let b := classBand k; (List.range 401).filter fun i => decide (b.1 ≤ 250 * i ∧ 250 * i ≤ b.2)

/-- The largest squared response over the class's band outside the notches, with 148 fraction bits. -/
def peakGain (k : Nat) (bs : List (Nat × Nat)) (f : Filter) : Nat :=
  match f with
  | none => 2 ^ 148
  | some taps =>
    ((gridOf k).filter fun i => !bs.any fun b => decide (b.1 ≤ 250 * i ∧ 250 * i ≤ b.2)).foldl (fun m i => max m ((filterAt taps i).natAbs ^ 2)) 0

/-- A density in linear measure, ten powers of ten up from `powerOf`. -/
def densityOf (psd : Int) : Nat := powerOf (8 * psd + 1600)

/-- A class's level: its density, shaped, over its occupied band less its notched bands, in Hz x 2^148. -/
def classLevel (k : Nat) (bs : List (Nat × Nat)) (psd : Int) (f : Filter) : Nat :=
  match f with
  | none => openWidth k bs * 1000 * densityOf psd * 2 ^ 148
  | some taps =>
    densityOf psd * ((gridOf k).filter fun i => !bs.any fun b => decide (b.1 ≤ 250 * i ∧ 250 * i ≤ b.2)).foldl
      (fun m i => m + 250000 * (filterAt taps i).natAbs ^ 2) 0

/-- The user's Class D filter is ignored while a broadcast band applies (R247). -/
def filterUsed (profile k : Nat) (f : Filter) : Filter := if k = 2 ∧ (profile = 1 ∨ profile = 2) then none else f

/-- A class's density keeps its cap in every part of its band (R253). -/
def withinCap (profile k : Nat) (bs : List (Nat × Nat)) (psd : Int) (f : Filter) : Bool :=
  decide (peakGain k bs (filterUsed profile k f) * densityOf psd ≤ 2 ^ 148 * densityOf (psdCap profile k))

/-- The total level keeps TX_FS_LEVEL - 10 dB (R253): Class T and Class A together on a shared circuit, Class D on a feed circuit, and
both on a circuit that is neither yet. -/
def withinLevel (mode profile txFs : Nat) (bs : List (Nat × Nat)) (psd : List Int) (f : List Filter) : Bool :=
  let l := fun (k : Nat) => classLevel k bs (psd.getD k 0) (filterUsed profile k (f.getD k none))
  let limit := powerOf (4 * txFs + 1440) * 2 ^ 148
  (mode == 3 || decide (l 0 + l 1 ≤ limit)) && (mode == 1 || mode == 2 || decide (l 2 ≤ limit))

/-- What is accepted on a circuit: its densities less reductions, its filters and its user notches. -/
def wantedPsd (x : Circuit) : List Int := [x.want.psdT - (x.reduced.getD 0 0 : Nat), x.want.psdA - (x.reduced.getD 1 0 : Nat), x.want.psdD - (x.reduced.getD 2 0 : Nat)]
def wantedFilters (x : Circuit) : List Filter :=
  match x.filtersDue with
  | some d => [d.1, d.2.1, d.2.2]
  | none => [x.filterT, x.filterA, x.filterD]
def wantedNotches (x : Circuit) : List Notch := x.notchesDue.getD x.notches

/-- The limits of R253 on a circuit with densities, filters and a TX_FS_LEVEL: the cap of each class, and the total. -/
def capsKept (s : State) (c : Nat) (psd : List Int) (f : List Filter) : List Bool :=
  let bs := notchBands s.circ.profile (wantedNotches (circOf s c))
  (List.range 3).map fun k => withinCap s.circ.profile k bs (psd.getD k 0) (f.getD k none)
def levelKept (s : State) (c txFs : Nat) (psd : List Int) (f : List Filter) : Bool :=
  withinLevel (circuitMode s c) s.circ.profile txFs (notchBands s.circ.profile (wantedNotches (circOf s c))) psd f

/-! Changes that take effect (R250, R255, R257, R258). -/

/-- A downlink PPDU is in progress: the frame just launched carries samples of the circuit. -/
def downBusy (s : State) (x : Circuit) : Bool := match x.sent with
  | t :: _ => decide (s.clk.now ≤ t + 1)
  | [] => false

/-- The next Class A downlink to each endpoint of a circuit goes in the training form (R257). -/
def trainNext (c : Nat) (s : State) : State := modRecords (fun r => if r.circuit = c then { r with trainReq := true } else r) s
/-- A feed link that is UP retrains (R258). -/
def retrainUp (c : Nat) (s : State) : State := if isFeed s c && (feedOf s c).state == .up then retrain c s else s

/-- User notches, and Class T and A filters, take effect on a circuit at a superframe boundary (R255, R257 to R259). -/
def applyShaping (c : Nat) (s : State) : State :=
  let x := circOf s c
  if x.notchesDue.isNone && x.filtersDue.isNone then s
  else
    let d := x.filtersDue.getD (x.filterT, x.filterA, x.filterD)
    let ns := x.notchesDue.getD x.notches
    let y := { x with
      filterT := d.1, filterA := d.2.1, filtersDue := if d.2.2 = x.filterD then none else some d
      notches := ns, notchesDue := none, notchesKept := if ns ≠ x.notches ∧ downBusy s x = true then some (x.notchesKept.getD x.notches) else x.notchesKept }
    let t := setCirc c y s
    let t := if ns ≠ x.notches ∨ d.2.1 ≠ x.filterA then trainNext c t else t
    if ns ≠ x.notches then retrainUp c t else t

/-- A circuit's densities under a new profile (R253): lowered to its caps, with the reductions kept for `circuit.tx_status`. -/
def reduceTo (profile : Nat) (x : Circuit) : Circuit :=
  let psd := [x.want.psdT, x.want.psdA, x.want.psdD]
  { x with reduced := (List.range 3).map fun k => max (x.reduced.getD k 0) (psd.getD k 0 - psdCap profile k).toNat }

/-- The stored profile and LOCK (R246, R250). -/
def regionSetting (profile : Nat) (locked : Bool) : List Int := [(profile : Int), if locked then 1 else 0]

/-- A profile comes into force (R248, R250, R253, R257, R258): a circuit with a downlink in progress keeps the old one to its end. -/
def applyProfile (profile : Nat) (s : State) : State :=
  let old := s.circ.profile
  let t := { s with circ := { s.circ with profile := profile, profileDue := none } }
  if old = profile then t
  else
    let t := { t with circ := { t.circ with circuit := tabMap {} (fun x =>
      reduceTo profile { x with profileKept := if downBusy s x then some (x.profileKept.getD old) else none }) t.circ.circuit } }
    let t := modRecords (fun r => { staleSnap r with trainReq := true }) t
    let feeds := (activeCircuits t).filter (isFeed t)
    let t := feeds.foldl (fun t c => if profile = 0 then modFeed c (fun f => { leaveData f with state := .search }) t else retrainUp c t) t
    mpHold (settingWordOf 0x0120) 0x0120 (regionSetting profile t.circ.locked) t

end Sys2Proof.Machine
end

