-- ==== Sys2Proof/Machine/Transmit.lean ====
section
/-! DEFINITION. The transmit functions: where PPDUs begin, the Class D symbols sent, and the samples of a downstream frame (spec/01_architecture.md R22, R32,
R35, spec/06_class_t.md R160, R161, spec/07_class_a.md R181, spec/08_class_d.md R200 to R208, spec/10_transmit_shaping.md R241 to R248,
spec/11_superframe.md R266 to R269). -/
namespace Sys2Proof.Machine

/-! Where PPDUs begin (R266 to R268). -/

/-- The superframe tick of a frame in the superframe in progress; none past its end. -/
def sfTickOf (s : State) (k : Nat) : Option Nat :=
  if s.sf.running && decide (s.sf.t0 ≤ k ∧ k < s.sf.t0 + s.sf.len) then some (k - s.sf.t0) else none
/-- No PPDU of a class is on the way or due in the n frames from frame k on. -/
def airFree (x : Circuit) (cls k n : Nat) : Bool :=
  !x.ppdus.any fun p => p.cls == cls && decide (p.start < k + n ∧ k < p.start + ppduTicks p)
/-- A downlink of n ticks from superframe tick j on keeps clear of a circuit's uplink grants, its last chip 6 ticks before the next (R267). -/
def clearOfGrants (s : State) (c j n : Nat) : Bool :=
  s.sf.grants.all fun g => g.circuit != c || decide (j + n + 5 ≤ 25 * g.slot ∨ 25 * (g.slot + g.slots) ≤ j)
/-- A normal downlink fits there (R268): not in the rejoin window, clear of uplink grants, and in Class A between express slots. -/
def normalFits (s : State) (c cls j n : Nat) : Bool :=
  decide (j + n ≤ 25 * nFixOf s.sf.mainsNom) && clearOfGrants s c j n
  && (cls == 1 || (expressSlots s.sf.len).all fun b => decide (j + n ≤ b.1 ∨ b.1 + b.2 ≤ j))
/-- The express slot that an express PPDU of n ticks from superframe tick j on uses: one for each slot, its last chip in tick 18 at the latest (R266). -/
def expressFor (s : State) (x : Circuit) (j n : Nat) : Option Nat :=
  ((expressSlots s.sf.len).map fun b => (b.1, b.1 + b.2 - 6)).findSome? fun b =>
    if b.1 ≤ j ∧ j + n ≤ b.2 ∧ x.express.contains (s.sf.t0 + b.1) = false then some b.1 else none

/-- A frame that is steered finds a clear place in superframe tick j or later (R238). -/
def clearLater (s : State) (o : Outgoing) (j : Nat) : Bool :=
  let n := ppduTicks o.ppdu
  (List.range (25 * nFixOf s.sf.mainsNom - j)).any fun i =>
    normalFits s o.circuit o.ppdu.cls (j + i) n && !ticksNoisy s o.circuit s.sf.len (j + i) n
/-- The frame as it goes out from superframe tick j: one that is steered, where the superframe has no clear place left, at the lower entry (R238). -/
def steeredAs (s : State) (o : Outgoing) (j : Nat) : Outgoing :=
  match o.low with
  | none => o
  | some p => if clearLater s o j then o else { o with ppdu := p, low := none }

/-- A frame of the transmit path may begin with frame k on its circuit. -/
def mayStart (s : State) (k : Nat) (o : Outgoing) : Bool :=
  match sfTickOf s k with
  | none => false
  | some j =>
    let o := steeredAs s o j
    let x := circOf s o.circuit
    let n := ppduTicks o.ppdu
    airFree x o.ppdu.cls k n
    && match o.express with
      | some t => decide (t ≤ k) && (expressFor s x j n).isSome
      | none => normalFits s o.circuit o.ppdu.cls j n && (o.low.isNone || !ticksNoisy s o.circuit s.sf.len j n)
/-- Its endpoint takes frames now (R302), and no earlier frame to the endpoint waits for its first transmission too (R357): frames to one endpoint go out
in acceptance order, express ones too (DEDUCED). -/
def inTurn (s : State) (earlier : List Outgoing) (o : Outgoing) : Bool :=
  match o.owner with
  | none => true
  | some w => (recordId s w.1).any (fun r => r.state == .active) && !(o.first && earlier.any fun p => p.first && p.owner.any (·.1 == w.1))
/-- The first frame of a list that may begin, behind those given. -/
def nextOf (s : State) (k c : Nat) : List Outgoing → List Outgoing → Option Nat
  | _, [] => none
  | earlier, o :: rest => if o.circuit == c && mayStart s k o && inTurn s earlier o then some earlier.length else nextOf s k c (earlier ++ [o]) rest
/-- A sequenced frame begins (R305, R307): its ACK timer counts from the present superframe. -/
def noteBegun (o : Outgoing) (s : State) : State :=
  match o.owner with
  | none => s
  | some w => modRecordId w.1 (fun r => { r with sent := r.sent.map fun x =>
      if x.seq = w.2 then { x with out := false, lastSf := s.sf.number, firstSf := if o.first then s.sf.number else x.firstSf } else x }) s
/-- A broadcast of the host takes the circuit's next broadcast SEQ as it begins (R305, R357), and is delivered when its last chip or block is out (R311). -/
def castBegun (o : Outgoing) (due : Option Nat) (s : State) : List Byte × State :=
  match o.cast with
  | none => (o.bytes, s)
  | some h =>
    let n := tabGet 0 s.link.bcast o.circuit
    let bytes := frameBytes o.circuit { frameOf (wordBE (o.bytes.take 8)) ((o.bytes.drop 8).take (o.bytes.length - 12)) with seq := n }
    (bytes, { s with link := { s.link with bcast := tabPut 0 s.link.bcast o.circuit ((n + 1) % 4096) }
                     air := { s.air with castings := s.air.castings ++ [{ frame := { h with seq := some n }, bytes := bytes, due := due }] } })
/-- A broadcast is out: its last frame is launched, or all its bytes are in Class D blocks. -/
def castOut (s : State) (k : Nat) (b : Casting) : Bool :=
  match b.due with
  | some n => decide (n ≤ k)
  | none =>
    let l := (feedOf s b.frame.circuit).wire
    !(l.queueX ++ l.queueN).contains b.bytes && !(([l.downX, l.downN] : List (Option DownFrame)).any fun d => d.any fun f => !f.bytes.isEmpty && f.bytes.isSuffixOf b.bytes)
/-- The broadcasts that are out by the launch of the frame before frame k are delivered (R311). -/
def castsDelivered (k : Nat) (s : State) : State :=
  returnFrames ((s.air.castings.filter (castOut s k)).map (·.frame)) txOk { s with air := { s.air with castings := s.air.castings.filter fun b => !castOut s k b } }
/-- It begins: EXPRESS_SENT, and EXPRESS_PREEMPT inside a Class T grant (R269). -/
def beginPpdu (k : Nat) (o : Outgoing) (s : State) : State :=
  let j := k - s.sf.t0
  let b := castBegun o (some (k + ppduTicks o.ppdu)) (noteBegun o s)
  let s := b.2
  modCirc o.circuit (fun x =>
    let bytes := atSending s o.circuit b.1
    let p := if bytes = o.bytes then o.ppdu else recode o.circuit bytes o.ppdu
    let y := putPpdu { interleaved s o.circuit p with start := k } x
    match o.express with
    | none => y
    | some _ =>
      let y := bump .expressSent { y with express := ((expressFor s x j (ppduTicks o.ppdu)).map (s.sf.t0 + ·)).toList }
      if inClassT s o.circuit j then bump .expressPreempt y else y) s
/-- DESIGN CHOICE: the frames of a circuit begin in the order queued, each in the first frame that the rules leave free for it; a frame with no such
place lets later ones pass. -/
def beginNext (k c : Nat) (s : State) : State :=
  match nextOf s k c [] s.air.outbox with
  | none => s
  | some i =>
    let o := steeredAs s (s.air.outbox.getD i {}) (k - s.sf.t0)
    beginPpdu k o { s with air := { s.air with outbox := s.air.outbox.eraseIdx i } }

/-- A feed circuit's frames join its streams (R206, R207): those of an express doorbell at the head of the express stream, with EXPRESS_SENT, the beacon
behind it. -/
def toStreams (c : Nat) (s : State) : State :=
  let mine := s.air.outbox.filter fun o => o.circuit == c
  if mine.isEmpty then s
  else
    let s := { s with air := { s.air with outbox := s.air.outbox.filter fun o => o.circuit != c } }
    let made := mine.foldl (fun (e : List (Nat × List Byte) × State) o => let b := castBegun o none e.2; (e.1 ++ [(o.stream, b.1)], b.2)) ([], s)
    let s := made.2
    let of := fun (i : Nat) => (made.1.filter fun e => e.1 == i).map (·.2)
    let rung := (of 0).filter fun b => decide (3 < (b.headD 0).toNat / 16)
    let t := modFeed c (fun f => { f with wire := { f.wire with
      queueX := rung ++ f.wire.queueX ++ (of 0).filter (fun b => decide ((b.headD 0).toNat / 16 ≤ 3)), queueC := f.wire.queueC ++ of 1, queueN := f.wire.queueN ++ of 2 } }) s
    modCirc c (bumpBy .expressSent rung.length) t

/-- Frame k begins a superframe: the beacons and sheets then due (R161, R279, R280). -/
def headsDue (s : State) (k : Nat) : Bool := s.sf.running && s.sf.closed && k == s.sf.t0 + s.sf.len
/-- What a circuit's transmit functions have for frame k (R32, R161, R181, R206): at most one frame of each class, and none with the frame that begins a
superframe. PPDUs long past are dropped. -/
def schedule (k : Nat) (s : State) (c : Nat) : State :=
  if isFeed s c then toStreams c s
  else
    let t := modCirc c (fun x => { x with ppdus := x.ppdus.filter fun p => decide (k < p.start + ppduTicks p + 200) }) s
    if s.circ.profile = 0 ∨ sendsAllowed s = false ∨ headsDue s k = true then t
    else beginNext k c (beginNext k c t)

/-! Class D symbols (R200, R201, R204, R207, R208). -/

/-- The number of a tick of the state's count by the ticks' tags. -/
def tagAt (s : State) (k : Nat) : Nat := ((k : Int) + s.clk.tick - s.clk.now).toNat
/-- Branch delay down (R231). -/
def branchDown (f : Feed) : Nat := f.span * bitsPerTick f.dn.pam / 240
/-- A tick's data symbols, from the coded bits (R198, R205): the line after them, and their values. -/
def dataSymbols (c : Nat) (f : Feed) : FeedLine × List Int :=
  let n := perTick f.fast - 1
  let b := pamBits f.dn.pam
  let l := fillBits c f.lift f.dn.rate (branchDown f) (n * b) (n * b) f.wire
  ({ l with bits := l.bits.drop (n * b) }, (chunkBits b n l.bits).map (pamSymbol f.dn.pam))
/-- The symbols of downstream frame k (R200, R201): its marker, and data, or a span's training symbols. Data mode begins with the frame after SWITCH's
countdown (R211). -/
def feedSend (s : State) (c k : Nat) : Feed → Feed := fun f =>
  if !(f.state == .up || inTraining f) then f
  else
    let first := inTraining f && f.phase == .switch && decide (k = f.phaseAt + 32 * spanLen f)
    let f := if first then { f with wire := { f.wire with bits := [], inter := [], reg := lineSeedOf false c, block := 0, downX := none, downN := none, precoded := [] } }
      else f
    let keep := fun (l : FeedLine) (ys : List Int) => { l with own := (k, ys) :: l.own.take 12 }
    if sendsData f k then
      let d := dataSymbols c { f with wire := { f.wire with queueC := f.wire.queueC.map (atSending s c) } }
      let xs := markerValue f.dn.pam (tagAt s k) :: d.2
      if f.dn.thp then
        let p := precode f.dn.pam ((List.range 24).map fun i => tabGet 0 f.taps i) f.wire.precoded xs
        { f with wire := keep { d.1 with precoded := p.2 } p.1 }
      else { f with wire := keep d.1 xs }
    else
      { f with wire := keep f.wire (markerValue 1 (tagAt s k) :: trainTick f.fast c (spanWord f (spanOf f k)) ((k - f.phaseAt) % spanLen f)) }

/-! Samples (R241 to R248). -/

/-- The region profile in force on a circuit, its notches, and every band its bank notches (R247, R250, R255). -/
def profileOf (s : State) (c : Nat) : Nat := (circOf s c).profileKept.getD s.circ.profile
def notchesOf (s : State) (c : Nat) : List Notch := (circOf s c).notchesKept.getD (circOf s c).notches
def bankBands (s : State) (c : Nat) : List (Nat × Nat) := bankList (profileOf s c) (notchesOf s c)

/-- A class's level before the notch bank as an amplitude in 1/256 of a code (R241, R251, R252): 0 T, 1 A on a carrier, 2 D at baseband. A sine of peak
8,191 has the port's TX_FS_LEVEL. -/
def ampOf (s : State) (c k : Nat) : Nat :=
  let x := circOf s c
  let psd := [x.set.psdT, x.set.psdA, x.set.psdD].getD k 0 - (x.reduced.getD k 0 : Nat)
  let width := (if k = 2 ∧ !(feedOf s c).fast then 25000 - (classBand k).1 else (classBand k).2 - (classBand k).1) * 1000
  rootOf (8191 * 8191 * width * densityOf psd * 65536 / (if k = 2 then 2 else 1) / max (powerOf (4 * (portOf s (c / 24)).txFs + 1600)) 1)

/-- The samples of a shared circuit's frame j before its bank, in 1/256 of a code (R241 steps 1 to 4); a class whose function was abandoned is silent (R24). -/
def sharedSamples (lost : Abandoned) (s : State) (c j : Nat) : List Int :=
  let x := circOf s c
  let lead := fun (k : Nat) => if (bankBands s c).isEmpty then 0 else Config.bankDelay (bankBands s c) k
  let live := x.ppdus.filter fun p => (p.cls == 1 && !lost.txT || p.cls == 2 && !lost.txA) && decide (p.start ≤ j + 1 ∧ j < p.start + ppduTicks p + 1)
  let part := fun (p : Ppdu) => (ampOf s c (p.cls - 1), if p.cls = 1 then x.filterT else x.filterA, lead p.cls, p)
  let ps := live.map part
  (List.range 250).map fun (i : Nat) => ps.foldl (fun a p => a + ppduSample c p.2.1 p.2.2.1 p.2.2.2 (250 * ((j : Int) - p.2.2.2.start) + i) * p.1 / 2 ^ 28) 0

/-- The samples of a feed circuit's frame j before its bank (R197, R200, R247). -/
def feedSamples (lost : Abandoned) (s : State) (c j : Nat) : List Int :=
  let f := feedOf s c
  if lost.rx || !(f.state == .up || inTraining f) then List.replicate 250 0
  else
    let at_ := fun (k : Nat) => (((f.wire.own.find? fun e => e.1 == k).map (·.2)).getD []).toArray
    let p := profileOf s c
    let taps := if p = 1 ∨ p = 2 then some (Config.edgeFilter p) else (circOf s c).filterD
    let lead := if (bankBands s c).isEmpty then 0 else Config.bankDelay (bankBands s c) 3
    let amp := ampOf s c 2
    (List.range 250).map fun (i : Nat) => shapedAt taps (feedSample f.fast (at_ (j - 1)) (at_ j) (at_ (j + 1))) (i + lead) * amp / 2 ^ 28

/-- The relay whose destination is a circuit (R117). -/
def relayTo (s : State) (c : Nat) : Option Nat := (s.port.relays.find? fun r => r.2 == c).map (·.1)
/-- A list of 250 samples. -/
def pad250 (xs : List Int) : List Int := (xs ++ List.replicate 250 0).take 250
/-- Relayed samples (R94, R117): clip markers and a stale source are zeros. -/
def relaySamples (s : State) (src : Nat) : List Int :=
  (pad250 ((circOf s src).fresh.getD [])).map fun v => if v = clipCode then 0 else v

/-- The notch bank and the rounding of steps 5 and 6 (R241, R243): samples in 1/256 of a code to whole codes, and the bank's state. -/
def throughBank (bands : List (Nat × Nat)) (st : List Int) (xs : List Int) : List Int × List Int :=
  let o := if bands.isEmpty then (xs, st) else Config.notchBank bands st xs
  (o.1.map fun v => (v + 128) / 256, o.2)

/-- The samples of frame j for a circuit, before the limiter (R94, R118, R241, R248): a relay's in place of the plan's, which counts TX_CONFLICT. `old` is
the state after the work of the tick that ends, whose placements and whose received frames count. A standby sends its mirrored beacons and sheets and
nothing else (R465). -/
def formDown (ovr : List (Nat × Nat)) (old : State) (j : Nat) (s : State) (c : Nat) : State :=
  let lost := lostOf ovr old c (old.clk.now - 1)
  let own := if circuitActive old c then
      some (if isFeed old c then (if sendsAllowed s then feedSamples lost s c j else List.replicate 250 0) else sharedSamples lost s c j) else none
  let raw := match if sendsAllowed s then relayTo s c else none with
    | some src => some ((relaySamples old src).map (256 * ·))
    | none => own
  match raw with
  | none => modCirc c (fun x => { x with down := none }) s
  | some xs =>
    let b := throughBank (bankBands s c) (circOf s c).bank (if profileOf s c = 0 then List.replicate 250 0 else xs)
    let t := modCirc c (fun x => { x with down := some b.1, bank := b.2 }) s
    if (relayTo s c).isSome ∧ (own.getD []).any (· != 0) = true ∧ profileOf s c ≠ 0 then modPort (c / 24) (fun x => { x with txConflict := sat32 x.txConflict 1 }) t
    else t

/-- The circuits whose transmit functions the tick that ends ran, and what they had for the next frame (R22): `k` the frame after the one launched. -/
def prepare (k : Nat) (old s : State) : State :=
  let s := castsDelivered k s
  let s := if headsDue s k ∧ s.circ.profile ≠ 0 ∧ sendsAllowed s then
    (dealAll s (s.sf.number + 1) s.sf.len).foldl (beaconHeads k) s else s
  let shared := (activeCircuits old).foldl (schedule k) s
  ((activeCircuits old).filter (isFeed old)).foldl (fun t c => modFeed c (feedSend t c k) t) shared

/-- The samples of frame j on every circuit that the frame may carry (R22, R117). -/
def formFrames (ovr : List (Nat × Nat)) (old : State) (s : State) : State :=
  let j := s.clk.now
  let t := prepare (j + 1) old s
  let idle := (t.circ.circuit.filter fun e => e.2.down.isSome).map (·.1)
  (activeCircuits old ++ s.port.relays.map (·.2) ++ idle).eraseDups.foldl (formDown ovr old j) t

end Sys2Proof.Machine
end

