-- ==== Sys2Proof/Machine/Tick.lean ====
section
/-! DEFINITION. The tick strobe and the tick frames (spec/01_architecture.md R17 to R26, spec/04_tick_frames.md R92 to R118, spec/10 R241, R245,
R248, spec/14 R368, R372, spec/20 R461, R464, R468). -/
namespace Sys2Proof.Machine

/-! Frame layouts (R92, R93, R96). -/

/-- Words, channels with samples and control cells of a generation (R92). -/
def frameLen (g : Nat) : Nat := if g = 3 then 1512 else if g = 2 then 752 else 136
def frameChans (g : Nat) : Nat := if g = 3 then 24 else if g = 2 then 12 else 0
def frameCells (g : Nat) : Nat := if g = 3 then 20 else if g = 2 then 9 else 16
/-- FTYPE: `up` toward the device (R93). -/
def frameType (g : Nat) (up : Bool) : Nat := g * 16 + (if up then 2 else 1)
/-- The CHECK of a frame: CRC-32C, unreflected, over the words before it in transmission order (R96). -/
def frameCrc (ws : List Word) : Nat := crcOut 32 false 0xFFFFFFFF (crcBytes 32 0x1EDC6F41 false 0xFFFFFFFF (ws.flatMap bytesBE))
def diff16 (a b : Nat) : Nat := (a % 65536 + 65536 - b % 65536) % 65536

/-! Upstream frames (R100 to R107). -/

/-- The acceptance of an upstream frame (R100). -/
def upAccepted (s : State) (p : Nat) (f : UpFrame) : Bool :=
  let g := (portOf s p).gen
  let w := fun i => f.words.getD i 0
  f.words.length == frameLen g && fieldOf (w 0) 63 56 == frameType g true && fieldOf (w 0) 55 50 == p
  && (w 1).toNat == s.clk.tick && f.valid
  && fieldOf (w (frameLen g - 1)) 31 0 == frameCrc (f.words.take (frameLen g - 1))

/-- Non-empty cells of a frame (R101). -/
def cellsIn (g : Nat) (ws : List Word) : Nat :=
  ((List.range (frameCells g)).filter fun i => fieldOf (ws.getD (4 + 56 * frameChans g + 8 * i) 0) 63 56 != 0).length

/-- Circuits whose received frames something reads: the active ones, the sources of relays, and those a capture records. -/
def heardCircuits (s : State) : List Nat :=
  (activeCircuits s ++ s.port.relays.map (·.1) ++ (if s.mem.cap.armed then s.mem.cap.circuits.map (·.1) else [])).eraseDups

/-- The samples of a frame go to the lane receiver's store and to the local memories of their consumers (R18, R94, R100, R110, R122). -/
def landSamples (p : Nat) (ws : List Word) (s : State) : State :=
  let g := (portOf s p).gen
  let ambig := bitOf (ws.getD 3 0) 2
  let ready := (portOf s p).cal == .ready && !(portOf s p).degraded
  ((heardCircuits s).filter fun c => c / 24 == p).foldl (fun t c =>
    let ch := c % 24
    let ok := decide (ch < frameChans g) && bitOf (ws.getD 0 0) (26 + ch) && !ambig && ready
    let xs := unpackSamples ((ws.drop (4 + 56 * ch)).take 56)
    modCirc c (fun x => { x with fresh := if ok then some xs else none }) (if ok then routeSamples c t.clk.now xs t else t)) s

/-- The credit ledger's two equations with the device's counters HELD, TX_CELLS, RX_CELLS, FREED and the returns it had received, and the front
end's TX_CELLS, RX_CELLS, FREED, HELD (R104): down, up. -/
def ledgerOk (own : List Nat) (tx rx fr held : Nat) : Bool × Bool :=
  let o := fun i => own.getD i 0
  let dBuf := diff16 rx fr
  let dFly := diff16 (o 1) rx
  let dRet := diff16 fr (o 4)
  let uBuf := diff16 (o 2) (o 3)
  let uFly := diff16 tx (o 2)
  let uRet := diff16 (o 3) (diff16 (held + tx) 128)
  (decide (dBuf ≤ 64 ∧ dFly ≤ 60 ∧ dRet ≤ 60 ∧ (o 0 + dBuf + dFly + dRet) % 65536 = 64),
   decide (uBuf ≤ 128 ∧ uFly ≤ 60 ∧ uRet ≤ 60 ∧ (held + uBuf + uFly + uRet) % 65536 = 128))

/-- The check due on a port is made with an accepted frame, or recorded as SKIPPED while a CRESET is outstanding; a check counts one for each
direction (R104, R459). -/
def ledgerCheck (p tx rx fr held : Nat) (s : State) : State :=
  let x := portOf s p
  match x.ledgerDue with
  | none => s
  | some own =>
    let t := modPort p (fun x => { x with ledgerDue := none }) s
    if x.creset || x.cresetDue then
      { t with pair := { t.pair with skipped := sat16 t.pair.skipped 2, ledger := t.pair.ledger ||| bitAt 1 true } }
    else
      let r := ledgerOk own tx rx fr held
      let fails := (if r.1 then 0 else 1) + (if r.2 then 0 else 1)
      let t := { t with pair := { t.pair with checks := sat32 t.pair.checks 2, fails := sat16 t.pair.fails fails } }
      if fails = 0 then t
      else
        let t := { t with pair := { t.pair with ledger := t.pair.ledger ||| bitAt 0 true } }
        raise 0x0005 p (modPort p (fun x => { x with ledgerFail := sat32 x.ledgerFail 1, cresetDue := true }) t)

/-- The non-empty cells of a frame, their CELL_IDX and CELL_COUNT (R101). -/
def cellHeads (g : Nat) (ws : List Word) : List (Nat × Nat) :=
  ((List.range (frameCells g)).map fun i => ws.getD (4 + 56 * frameChans g + 8 * i) 0).filterMap fun w =>
    if fieldOf w 63 56 = 0 then none else some (fieldOf w 55 48, fieldOf w 47 40)

/-- A cell joins the message it belongs to (R101, R103): the cells held of an unfinished message, and those freed because their message is discarded. -/
def joinCell (a : Nat × Nat) (c : Nat × Nat) : Nat × Nat :=
  let done := fun (n : Nat) => if n = c.2 then 0 else n
  if c.1 = a.1 then (done (a.1 + 1), a.2)
  else if c.1 = 0 then (done 1, a.2 + a.1)
  else (0, a.2 + a.1 + 1)

/-- The cells held and freed by a frame after `lost` cells: a loss discards the unfinished message (R103). -/
def joinCells (part lost : Nat) (cs : List (Nat × Nat)) : Nat × Nat :=
  cs.foldl joinCell (if lost = 0 then (part, 0) else (0, part))

/-- The credits of an accepted frame (R102, R103, R104). While a CRESET is outstanding only its echo counts. -/
def landCredits (p : Nat) (ws : List Word) (s : State) : State :=
  let x := portOf s p
  let n := frameLen x.gen
  let w := ws.getD (n - 4) 0
  let tx := fieldOf w 63 48
  let rx := fieldOf w 47 32
  let fr := fieldOf w 31 16
  let held := fieldOf w 15 8
  let t := ledgerCheck p tx rx fr held s
  let echo := bitOf (ws.getD 0 0) 8
  if x.creset && !echo then t
  else
    let full := cellsIn x.gen ws
    modPort p (fun x =>
      let lost := diff16 tx (x.rxCells + full)
      let j := joinCells x.part lost (cellHeads x.gen ws)
      { x with creset := false, held := x.held + diff16 fr x.freedSeen, freedSeen := fr, rxCells := tx, part := j.1
               freed := (x.freed + lost + j.2) % 65536, cellLost := sat32 x.cellLost lost }) t

/-- The figures of one frame (R107): L of frame ECHO_TAG, and P; none when the device no longer holds that frame's launch. -/
def pathOf (x : Port) (f : UpFrame) : Option (Int × Int) :=
  (x.launches.find? fun e => e.1 == (f.words.getD 2 0).toNat).map fun e =>
    (e.2, (f.arrival - e.2 - fieldOf (f.words.getD 3 0) 63 32) / 2)

/-- The two delays of R107: each frame's figures are summed, and averaged over 64 frames. The first average of a MEASURE calibrates; a later one that
has moved by more than 1 ns is a drift, whatever the calibration state, and the new average takes the calibrated value's place, from which
the next drift counts (DESIGN CHOICE: R107 does not say that the calibrated value moves). -/
def landPath (p : Nat) (f : UpFrame) (s : State) : State :=
  match pathOf (portOf s p) f with
  | none => s
  | some (launch, d) =>
    let ref := launch + d - signedOf 16 (fieldOf (f.words.getD 3 0) 31 16)
    let t := modPort p (fun x => { x with launch := launch, pathSum := x.pathSum + d, dRefSum := x.dRefSum + ref, pathCount := x.pathCount + 1 }) s
    let x := portOf t p
    if x.pathCount < 64 then t
    else
      let avg := x.pathSum / 64
      let t := modPort p (fun x => { x with dRef := x.dRefSum / 64, pathSum := 0, dRefSum := 0, pathCount := 0 }) t
      if x.measured = false then
        if x.cal = .measure then sendChanConfig p (sendPortConfig p (modPort p (fun x => { x with path := avg, measured := true }) t)) else t
      else if 16 < (avg - x.path).natAbs then
        raise 0x0003 p (sendPortConfig p (modPort p (fun x => { x with path := avg, pathDrift := sat32 x.pathDrift 1 }) t))
      else t

/-- A zero-crossing stamp in device time: T_k - RX_LEAD + ZC_OFFSET + d_ref - SENSE_DELAY (R111). -/
def landCrossing (p : Nat) (w : Word) (s : State) : State :=
  let ch := fieldOf w 61 57
  let x := portOf s p
  let sense := (fieldOf (x.calWords.getD ch 0) 31 16 : Int)
  if bitOf w 63 && bitOf w 62 && decide (ch < 24) then
    crossing (24 * p + ch) (16000 * (s.clk.now : Int) - 16 * s.port.rxLead + signedOf 28 (fieldOf w 27 0) + x.dRef - sense) s
  else s

/-- A port's frame is accepted. -/
def acceptFrame (p : Nat) (f : UpFrame) (s : State) : State :=
  let ws := f.words
  let n := frameLen (portOf s p).gen
  let t := modPort p (fun x => { x with
    landed := true, frameOk := sat32 x.frameOk 1, missRun := 0, goodRun := x.goodRun + 1, follows := bitOf (ws.getD 0 0) 9 }) s
  let t := landPath p f (landCredits p ws (landSamples p ws t))
  let t := landCrossing p (ws.getD (n - 3) 0) t
  if (portOf t p).cal = .ready ∧ fieldOf (ws.getD 0 0) 25 10 ≠ (portOf t p).calEpoch then calibrate p t else t

/-- UPSTREAM_TICK_FRAME (R19, R74, R100 to R107, R111). A port delivers nothing while a lane of it has lost block lock. A frame not accepted leaves the port's tick to be
counted missing at the strobe. -/
def execUpstreamTickFrame (p : Nat) (f : UpFrame) (s : State) : Result :=
  onObject (frontExists s p) s
    (if !feActive s p || (portOf s p).landed || !portLocked s p then s
     else
       let t := if (f.words.getD 1 0).toNat = s.clk.tick then s else modPort p (fun x => { x with tagSlip := sat32 x.tagSlip 1 }) s
       if upAccepted s p f then acceptFrame p f t else t)

/-! Downstream frames (R78, R93 to R97, R117, R118, R129, R241, R245, R248). -/

/-- The circuits of a port whose channels its generation carries. -/
def portCircuits (s : State) (p : Nat) : List Nat := (List.range (frameChans (portOf s p).gen)).map (24 * p + ·)

/-- A circuit's downstream samples leave in the frame of instant `j`: TX_CLIP, TX_SATURATE once a superframe, and the record of non-zero frames
(R121, R245); a downlink that ends lets a pending profile in (R250). -/
def noteSent (j c : Nat) (raw : List Int) (s : State) : State :=
  let clips := (raw.filter fun v => limit14 v != v).length
  let x := circOf s c
  let busy := raw.any (· != 0)
  let t := setCirc c (bumpBy .txClip clips { x with
    sent := if busy then (j :: x.sent).take 8 else x.sent
    saturated := x.saturated || decide (2 < clips), profileKept := if busy then x.profileKept else none
    notchesKept := if busy then x.notchesKept else none }) s
  if 2 < clips ∧ x.saturated = false then raise 0x0020 c t else t

/-- Gain commands of a port in the order they are served (R129). -/
def gainOrder (s : State) (p : Nat) : List Nat :=
  let chans := (List.range 24).filter fun ch => (circOf s (24 * p + ch)).gainCmd.isSome
  let urgent := chans.filter fun ch => ((circOf s (24 * p + ch)).gainCmd.map (·.2)) == some true
  let rest := chans.filter fun ch => !urgent.contains ch
  let last := (portOf s p).gainLast
  urgent ++ rest.filter (fun ch => decide (last < ch)) ++ rest.filter (fun ch => decide (ch ≤ last))

/-- A command sent in the frame of instant j applies from upstream frame j + 2 (R97, R129). -/
def sendGain (j p ch : Nat) (s : State) : State :=
  modCirc (24 * p + ch) (fun x => match x.gainCmd with
    | none => x
    | some g => bump .gainCmds { x with gainCmd := none, gainNext := x.gainNext ++ [(j + 2, g.1)], holdTo := j + 2 }) s

/-- One gain command's fields in the GAIN word (R96). -/
def gainField (s : State) (p : Nat) (i : Nat) (ch : Option Nat) : Word :=
  match ch with
  | none => 0
  | some ch =>
    let g := ((circOf s (24 * p + ch)).gainCmd.map (·.1)).getD 0
    if i = 0 then bitAt 63 true ||| fieldAt 62 58 ch ||| fieldAt 57 52 g else bitAt 51 true ||| fieldAt 50 46 ch ||| fieldAt 45 40 g

/-- The block time in 1/16 ns, rounded up (R70), and the launch L of the frame of instant j (R78): LAUNCH_OFFSET and the quantisation of 0 to 1 block, a free
value. -/
def blockSixteenths (g : Nat) : Nat := if g = 3 then 21 else if g = 2 then 41 else 103
def launchOf (x : Port) (p j : Nat) : Int := x.launchOffset + Config.derived 78 [p, j] % blockSixteenths x.gen

/-- ROLE_ACTIVE of the downstream frames (R93). -/
def roleActive (s : State) : Bool := s.pair.role == .unpaired || s.pair.role == .active

/-- The downstream frame of a port at the strobe of the state's tick, and the state after it (R78, R93, R95, R96), the circuits' samples being
formed. -/
def launchFrame (s : State) (p : Nat) : State :=
  let x := portOf s p
  if x.state ≠ .active then s
  else
    let j := s.clk.now
    let cs := portCircuits s p
    let raws := cs.map fun c => (c, (circOf s c).down)
    let valid := (raws.filter fun r => r.2.isSome).foldl (fun m r => m + 2 ^ (r.1 % 24)) 0
    let samples := raws.flatMap fun r => match r.2 with
      | some xs => packSamples (xs.map limit14)
      | none => List.replicate 56 0
    let x := if x.cresetDue then
        { x with cresetDue := false, creset := true, txCells := 0, rxCells := 0, freed := 0, held := 64, freedSeen := 0, part := 0, cells := [] } else x
    let resetting := (portOf s p).cresetDue
    let n := if x.creset then 0 else min (frameCells x.gen) (min x.held x.cells.length)
    let cells := (x.cells.take n).flatMap id ++ List.replicate (8 * (frameCells x.gen - n)) 0
    let y := { x with launches := ((s.clk.tick, launchOf x p j) :: x.launches).take 8, cells := x.cells.drop n, txCells := (x.txCells + n) % 65536, held := x.held - n }
    let picks := (gainOrder s p).take 2
    let y := { y with gainLast := picks.getLastD y.gainLast }
    let active := ((List.range 24).filter fun ch => circuitActive s (24 * p + ch)).foldl (fun m ch => m + 2 ^ ch) 0
    let head := [fieldAt 63 56 (frameType x.gen false) ||| fieldAt 55 50 p ||| fieldAt 49 26 valid ||| fieldAt 25 10 x.calEpoch
        ||| bitAt 9 (roleActive s) ||| bitAt 8 resetting, BitVec.ofNat 64 s.clk.tick, timeHigh s.tku.devUs 0,
        (timeLow s.tku.devUs 0) ||| fieldAt 31 24 (timeQual s)]
    let tail := [fieldAt 63 48 y.txCells ||| fieldAt 47 32 y.rxCells ||| fieldAt 31 16 y.freed ||| fieldAt 15 8 y.held,
        fieldAt 63 40 active, gainField s p 0 picks[0]? ||| gainField s p 1 picks[1]?]
    let body := head ++ samples ++ cells ++ tail
    let t := emit (.port p (body ++ [fieldAt 31 0 (frameCrc body)])) (emit (.mark p (markBlock s.clk.tick)) (setPort p y s))
    let t := picks.foldl (fun t ch => sendGain j p ch t) t
    raws.foldl (fun t r => match r.2 with
      | some xs => noteSent j r.1 xs t
      | none => t) t

/-! Peer frames (R461). -/

/-- A device's identity, its halves (R461). -/
def deviceIdHigh (s : State) : Word := keepWord s 2
def deviceIdLow (s : State) : Word := keepWord s 3

/-- SF_TICK of the state's tick. -/
def sfTick (s : State) : Nat := s.clk.now - s.sf.t0

/-- The peer frame of an ACTIVE port in role PAIR with its cells (R461, R463): an active withholds its marker, and its frame shows CANDIDATE's code, while
D28 is not ENABLED. The stamps are those of the last mark that came with a tag in whole milliseconds, zeros before any. -/
def peerFrameWords (cells : List (List Word)) (s : State) (m : Nat) : List Word :=
  let x := portOf s (32 + m)
  let n := frameLen x.gen
  let role := if s.pair.role = .active ∧ domOn s 28 = false then 1 else roleCode s.pair.role
  let ts := (x.marks.head?.map (·.1)).getD 0
  let arrival := (x.marks.head?.map fun e => e.2 - strobeOf s ts).getD 0
  let body := [fieldAt 63 56 (x.gen * 16 + 3) ||| fieldAt 55 50 (32 + m) ||| fieldAt 49 47 role ||| fieldAt 46 45 s.pair.sbState
      ||| fieldAt 39 0 s.sf.number, BitVec.ofNat 64 s.clk.tick,
      fieldAt 63 48 (sfTick s) ||| fieldAt 47 32 s.sf.len ||| fieldAt 31 24 (timeQual s),
      if s.clk.tick % 2 = 0 then deviceIdHigh s else deviceIdLow s]
    ++ (cells.flatten ++ List.replicate (n - 8) 0).take (n - 8)
    ++ [fieldAt 63 32 x.launchOffset ||| fieldAt 31 0 (twosOf 32 arrival), BitVec.ofNat 64 ts,
        fieldAt 63 40 (tabGet 0 s.pair.txCells m) ||| fieldAt 39 16 (tabGet 0 s.pair.rxCells m)]
  body ++ [fieldAt 31 0 (frameCrc body)]

/-- An instant in 1/16 ns as bits [63:0] of the device-time format (R8, R340). -/
def shortWord (x : Int) : Word := fieldAt 63 32 (instantHigh x).toNat ||| fieldAt 31 0 (fieldOf (instantLow x) 63 32)

/-- The time-peer frame of an ACTIVE port in role TIME_PEER (R340): the launch of its last mark at a whole millisecond, and the arrival of the partner's. -/
def timePeerFrameWords (s : State) (m : Nat) : List Word :=
  let x := portOf s (32 + m)
  let n := frameLen x.gen
  let body := [fieldAt 63 56 (x.gen * 16 + 4) ||| fieldAt 55 50 (32 + m) ||| fieldAt 39 0 s.sf.number, BitVec.ofNat 64 s.clk.tick,
      fieldAt 63 48 (sfTick s) ||| fieldAt 47 32 s.sf.len ||| fieldAt 31 24 (timeQual s) ||| fieldAt 23 20 s.tku.selected,
      if s.clk.tick % 2 = 0 then deviceIdHigh s else deviceIdLow s]
    ++ List.replicate (n - 8) 0
    ++ [shortWord (16000000 * (s.tku.devUs / 1000 : Nat) + x.launchOffset), shortWord ((x.marks.head?.map (·.2)).getD 0), 0]
  body ++ [fieldAt 31 0 (frameCrc body)]

/-- A peer port's frame behind its TICK_MARK (R75). -/
def launchPeer (m : Nat) (ws : List Word) (s : State) : State := emit (.port (32 + m) ws) (emit (.mark (32 + m) (markBlock s.clk.tick)) s)

/-- A journal cell of a KIND (R462): 8 words. -/
def peerCell (s : State) (kind idx count : Nat) (body : List Word) : List Word :=
  (fieldAt 63 56 kind ||| fieldAt 55 48 idx ||| fieldAt 47 40 count ||| fieldAt 39 0 s.sf.number) :: (body ++ List.replicate 7 0).take 7
/-- The slot counters as an active device mirrors them with each superframe (R425). DESIGN CHOICE: how often, and seven to a cell: the bodies are internal
to the firmware. -/
def counterCells (s : State) : List (List Word) :=
  (List.range 5).map fun j => peerCell s 4 j 5 ((List.range 7).map fun i => BitVec.ofNat 64 (slotOf s (7 * j + i)).counter)
/-- The cells that join those waiting at a strobe: a checkpoint request, and an active device's counters at a superframe's first tick. -/
def moreCells (s : State) : State :=
  let t := if s.pair.request then { s with pair := { s.pair with request := false, outCells := s.pair.outCells ++ [peerCell s 6 0 1 []] } } else s
  if t.pair.role = .active ∧ domOn t 28 = true ∧ domOn t 29 = true ∧ t.sf.running ∧ t.clk.now = t.sf.t0 then
    { t with pair := { t.pair with outCells := t.pair.outCells ++ counterCells t } }
  else t
/-- Peer frames launched on every ACTIVE port in role PAIR, the first of them with as many of the waiting cells as it holds, and time-peer frames (R340,
R461). -/
def launchPeers (s : State) : State :=
  let on := fun (role m : Nat) => peerRoleOf s m == role && (portOf s (32 + m)).state == .active
  let pairs := [0, 1, 2, 3].filter (on 1)
  let t := if pairs.isEmpty then s else moreCells s
  let t := pairs.foldl (fun t m =>
    let cells := if pairs.head? = some m then t.pair.outCells.take ((frameLen (portOf t (32 + m)).gen - 8) / 8) else []
    let t := { t with pair := { t.pair with
      outCells := t.pair.outCells.drop cells.length, txCells := tabPut 0 t.pair.txCells m ((tabGet 0 t.pair.txCells m + cells.length) % 16777216) } }
    launchPeer m (peerFrameWords cells t m) t) t
  ([0, 1, 2, 3].filter (on 2)).foldl (fun t m => launchPeer m (timePeerFrameWords t m) t) t

/-! The strobe (R19, R21 to R24). -/

/-- The tick's work of one active circuit. -/
def circuitTick (obs : TickObs) (now : Nat) (served : List Nat) (s : State) (c : Nat) : State :=
  let lost := lostOf obs.overran s c now
  let t := if isFeed s c then feedLoop c (feedTick c now lost s)
    else
      let r := sharedTick c now lost (served.contains c) s
      watchJoin c (circOf s c) (seatOutcome c now r.1 (circOf s c) r.2)
  modCirc c adoptSettings t

/-- The work of the tick that ends, on the frame before (R22, R120), circuit by circuit in ascending order (R49), and its overruns (R24). -/
def tickWork (obs : TickObs) (s : State) : State :=
  let now := s.clk.now - 1
  let blocked := fun a => (ofType 2 s.plan.active).any fun w => placeFunc w == 3 && placeActive w == a && placeLost obs.overran s w
  let q := serveQueues now blocked (fun c => (lostOf obs.overran s c now).rx) s
  let t := (sortNats (activeCircuits s)).foldl (circuitTick obs now q.1) q.2
  let hit := ((obs.overran.map (·.1)).filter (usedClusters s).contains).eraseDups
  { t with plan := { t.plan with overruns := hit.foldl (fun m c => tabPut 0 m c (tabGet 0 m c + 1)) t.plan.overruns } }

/-- The clocks go on by a tick (R8, R318, R319): the first strobe after the release of RESET_N is tick 0. -/
def advanceClock (s : State) : State :=
  { s with
    clk := { s.clk with now := s.clk.now + 1, tick := if s.clk.awaitFirst then 0 else s.clk.tick + 1, awaitFirst := false }
    tku := { s.tku with devUs := ((s.tku.devUs : Int) + 1 + s.tku.stepUs).toNat, stepUs := 0 }
    sf := { s.sf with refs := stepCrossings s.tku.stepUs s.sf.refs } }

/-- The sampling interval of upstream frame k overlaps the emission interval of downstream frame j (R121); SELF_GUARD in 100 ns. -/
def overlapsSelf (s : State) (k j : Nat) : Bool :=
  let d : Int := 1000 * ((k : Int) - j)
  let lead : Int := s.port.rxLead
  let lag : Int := s.port.txLag
  decide (d - lead < lag + 1000 + 100 * s.circ.selfGuard ∧ lag < d - lead + 1000)

/-- The gain of upstream frame k (R97): the last command that applies by then. -/
def gainAt (k : Nat) (x : Circuit) : Circuit :=
  { x with gain := ((x.gainNext.filter fun g => decide (g.1 ≤ k)).getLast?.map (·.2)).getD x.gain
           gainNext := x.gainNext.filter fun g => decide (k < g.1) }

/-- The buffers change over (R19, R121, R122): the frame of instant k becomes what the next tick works on, which a circuit of the plan reads from its
own cluster's local memory. -/
def rotate (k : Nat) (s : State) (c : Nat) : State :=
  let self := !isFeed s c && (circOf s c).sent.any (overlapsSelf s k)
  modCirc c (fun x => gainAt k { x with
    buffer := if x.fresh.isSome && circuitActive s c then localSamples s c k else x.fresh.getD [], fresh := none, cls := if self then .selfTx else if x.fresh.isNone then .stale else .measured }) s

/-- Ports without an accepted frame in the tick that ends have missed it (R100). -/
def countMissing (s : State) : State :=
  let miss := fun (t : State) (p : Nat) =>
    let x := portOf t p
    if x.state ≠ .active then t
    else if x.landed then setPort p { x with landed := false } t
    else setPort p { x with missed := sat32 x.missed 1, missRun := x.missRun + 1, goodRun := 0 } t
  (frontPorts ++ (peerPorts.filter fun p => peerRoleOf s (p - 32) != 0)).foldl miss s

/-- A received block is a control block of no known type, which counts in BLOCK_ERR and is treated as IDLE (R72, R73). -/
def blockUnknown (b : Nat × Word) : Bool := b.1 == 2 && !(([0x1E, 0xA5, 0x5A] : List Nat).contains (fieldOf b.2 63 56))
/-- A received block with an invalid sync header, which counts in SYNC_ERR (R72, R76). -/
def blockInvalid (b : Nat × Word) : Bool := b.1 != 1 && b.1 != 2

/-- What a lane received in a tick (R73, R76, R89): the errors of its blocks, and in TEST its bits at the checker. -/
def countLane (s : State) (o : LaneObs) (l : Lane) : Lane :=
  let x := portOf s (o.lane / 2)
  let l := { l with
    blockErr := sat32 l.blockErr (o.blocks.filter blockUnknown).length, syncErr := sat32 l.syncErr (o.blocks.filter blockInvalid).length }
  if x.state = .test then o.bits.foldl (checkBit x.pattern) l else l
def countLanes (os : List LaneObs) (s : State) : State :=
  os.foldl (fun t o => if o.lane < 72 then modLane o.lane (countLane s o) t else t) s

/-- Word 1 of a capture record (R372). -/
def captureHead (s : State) (k c : Nat) (down : Bool) : Word :=
  let x := circOf s c
  fieldAt 63 54 c ||| bitAt 53 down
  ||| (if down then 0 else fieldAt 52 51 (match x.cls with
        | .measured => 0
        | .selfTx => 1
        | .stale => 2))
  ||| fieldAt 50 45 x.gain ||| bitAt 44 (s.mem.cap.freezeAt.isSome && s.mem.cap.triggerTick == k)

/-- A capture record's 576 bytes (R372); the reserved ones are zero. -/
def captureRecord (tick : Nat) (head : Word) (xs : List Int) : List Byte :=
  bytesLE (BitVec.ofNat 64 tick) ++ bytesLE head
  ++ (pad250 xs).flatMap (fun v => [BitVec.ofNat 8 (twosOf 16 v), BitVec.ofNat 8 (twosOf 16 v / 256)]) ++ List.replicate 60 0

/-- The capture region's header words (R372). -/
def captureHeader (s : State) : List Word :=
  [BitVec.ofNat 64 s.mem.cap.writeIdx, bitAt 0 s.mem.cap.armed ||| bitAt 1 s.mem.cap.frozen, BitVec.ofNat 64 s.mem.cap.triggerTick,
   BitVec.ofNat 64 (captureCapacity s)]

/-- A record written (R372). -/
def writeCapture (bs : List Byte) (s : State) : State :=
  let base := regionBase s 5
  let t := ownWrite (base + 4096 + 576 * s.mem.cap.writeIdx) bs s
  { t with mem := { t.mem with cap := { t.mem.cap with writeIdx := (t.mem.cap.writeIdx + 1) % max (captureCapacity s) 1 } } }

/-- The records of a tick: the upstream frame of the tick that ends, and the downstream frame launched at the strobe (R372). What a STALE buffer holds
is not stated. -/
def captureTick (old : State) (s : State) : State :=
  let go := s.mem.cap.armed && domOn s 28 && !(s.mem.cap.circuits.isEmpty) && (match s.mem.cap.freezeAt with
    | some a => decide (s.clk.now ≤ a + 1)
    | none => true)
  if !go then s
  else
    let one := fun (t : State) (e : Nat × Nat) =>
      let x := circOf t e.1
      let up := if x.cls = .stale then (List.range 250).map (fun (i : Nat) => Config.derived 372 [(e.1 : Int), (old.clk.now : Int), (i : Int)]) else x.buffer
      let t := if e.2 % 2 = 1 then writeCapture (captureRecord old.clk.tick (captureHead t old.clk.tick e.1 false) up) t else t
      if e.2 / 2 = 1 then
        writeCapture (captureRecord t.clk.tick (captureHead t t.clk.tick e.1 true) ((x.down.getD []).map limit14)) t
      else t
    let t := s.mem.cap.circuits.foldl one s
    ownWrite (regionBase t 5) (wordsBytes (captureHeader t)) t

/-- Kind of the region that holds a granary offset (R352). -/
def regionKindAt (s : State) (a : Nat) : Nat :=
  match (regionRows s.mem.captureMib s.mem.historyMib).find? fun r => decide (r.1 * 1048576 ≤ a ∧ a < (r.1 + r.2.1) * 1048576) with
  | some r => r.2.2.1
  | none => 0

/-- A device read finds a marked line (R368): GRANARY_POISON; the endpoint record it holds is deleted, the layout of the records being the firmware's;
of a span, the soft bits it holds become LLR 0 (which, the layout of the spans being the firmware's too, is a free choice of 64 in one feed circuit's);
a FIRMWARE entry is rebuilt, which clears the marker. -/
def poisonRead (s : State) (line : Nat) : State :=
  if tabGet false s.mem.poison line = false then s
  else
    let t := raise 0x0047 line s
    match regionKindAt s (64 * line) with
    | 2 =>
      let k := (Config.derived 368 [line]).toNat % max t.link.records.length 1
      match t.link.records[k]? with
      | some r => deleteRecord r.epId t
      | none => t
    | 3 =>
      let cs := (activeCircuits t).filter fun c => isFeed t c && decide (1000 < (feedOf t c).span)
      match cs[(Config.derived 368 [line, 1]).toNat % max cs.length 1]? with
      | some c => modFeed c (fun f =>
          let k := (Config.derived 368 [line, 2]).toNat % max f.soft.length 1
          { f with soft := f.soft.take k ++ List.replicate (min 64 (f.soft.length - k)) 0 ++ f.soft.drop (k + 64) }) t
      | none => t
    | 4 => { t with mem := { t.mem with poison := tabPut false t.mem.poison line false } }
    | _ => t
/-- An uncorrectable error found on a granary read sets the line's marker (R368). -/
def eccMark (s : State) (line : Nat) : State := { s with mem := { s.mem with poison := tabPut false s.mem.poison line true } }

/-- A standby's check of the marker of frame t - 2 at strobe t (R464), its fall to SYNCING once its TKU leaves TRACKING (R463), and the test for
followers after a takeover (R468). -/
def pairStrobe (s : State) : State :=
  let missed := if s.pair.role = .standby then
      (if decide (2 ≤ s.clk.tick) && s.pair.markers.contains (s.clk.tick - 2) then 0 else s.pair.missed + 1) else 0
  let fs := frontPorts.filter fun p => (portOf s p).follows
  let tracking := s.tku.state == .tracking
  let lapse := s.pair.role == .standby && s.pair.sbState == 2 && !tracking
  { s with pair := { s.pair with
      tracked := s.pair.tracked || tracking
      sbState := if lapse then 1 else s.pair.sbState, request := s.pair.request || lapse
      missed := missed
      noFollower := if s.pair.afterTakeover && fs.isEmpty then s.pair.noFollower + 1 else 0 } }

/-- TICK_STROBE (R19 to R24, R78, R100, R117 to R129, R241, R245, R368, R372, R461, R464, R468): the work of the tick that ends, then the strobe. -/
def execTickStrobe (obs : TickObs) (s : State) : Result :=
  let before := countLanes obs.lanes (obs.granaryReads.foldl poisonRead (obs.eccLines.foldl eccMark s))
  let worked := tickWork obs (underOld before)
  let t := advanceClock (settleSwap before worked)
  let t := formFrames obs.overran worked t
  let t := frontPorts.foldl launchFrame t
  let peers := [0, 1, 2, 3].filter fun m => peerRoleOf s m == 1 && (portOf s (32 + m)).landed
  let moving := (t.circ.circuit.filter fun e => !e.2.gainNext.isEmpty).map (·.1)
  let t := (heardCircuits t ++ moving).eraseDups.foldl (rotate worked.clk.now) (countMissing t)
  let t := captureTick worked t
  let t := launchPeers (pairStrobe { t with pair := { t.pair with ports := peers } })
  commit s (prefetchSeats (t.clk.now + 1) t)

/-- XT_RANGE of a port's calibration (R189): once for each pair of a circuit and a neighbour that it concerns. -/
def raiseRange (p : Nat) (s : State) : State :=
  (activeCircuits s).foldl (fun t c =>
    ((farNeighbours s c).filter fun n => c / 24 == p || n / 24 == p).foldl (fun t _ => raise 0x0021 c (modCirc c (bump .xtRange) t)) t) s

/-- CAL_MEASURE_DONE (R110, R189): 64 frames measured and PORT_CONFIG acknowledged. -/
def execCalMeasureDone (p : Nat) (s : State) : Result :=
  let x := portOf s p
  onObject (frontExists s p) s
    (if feActive s p && x.cal == .measure && x.measured && x.configOk then
       calNext (raiseRange p (modPort p (fun x => { x with cal := .ready, calRun := false }) s))
     else s)

/-! Events of the tick that state alone decides. -/

/-- OVERRUN_LIMIT (R24, R61): 8 overruns of a cluster in one superframe. -/
def execOverrunLimit (cl : Nat) (s : State) : Result :=
  onObject (clusterExists s cl) s
    (if 8 ≤ tabGet 0 s.plan.overruns cl ∧ s.plan.failing.contains cl = false then
       let t := { s with plan := { s.plan with failing := s.plan.failing ++ [cl] } }
       if (freeCluster s (cl / 17)).isNone && (indexOn s cl).isSome then raise 0x0011 (cl + 65536) t else t
     else s)

/-- A candidate dropped: the receiver is IDLE and the AGC as before the freeze (R128, R138). -/
def dropT (x : Circuit) : Circuit := thaw { x with rxT := restart x.rxT }

/-- QUAL_LATE (R49, R138): a request that has waited 16 ticks is dropped, its candidate with it. -/
def execQualLate (c : Nat) (s : State) : Result :=
  let late := fun (q : List (Nat × Nat)) => q.any fun e => e.1 == c && decide (e.2 + 16 ≤ s.clk.now)
  onObject (circuitExists s c) s
    (match rxIndex s c with
     | none => s
     | some a =>
       let q := tabGet [] s.plan.queue a
       if late q then
         let t := { s with plan := { s.plan with queue := tabPut [] s.plan.queue a (q.filter fun e => e.1 != c) } }
         modCirc c (fun x => let y := bump .qualLate x; if y.rxT.st = .candidate then dropT y else y) t
       else s)

/-- The frame that holds a Class A reception's sync deadline (R184): chip 75 s + 12 after its start, 225 s + 12 in the training form and for a
candidate moved onto. -/
def syncDeadline (sf : Nat) (r : Receiver) : Nat := (r.at_ + 2 * ((if r.train || r.moved then 225 else 75) * 2 ^ sf + 12)) / 100

/-- NO_SYNC (R138, R184): no sync within 128 ticks of the trigger or detection for Class T, or by the deadline for Class A; `cls` 1 or 2. The frame last
processed is that of two ticks ago. -/
def execNoSync (c cls : Nat) (s : State) : Result :=
  let x := circOf s c
  onObject (circuitExists s c) s
    (if cls = 1 then
       if x.rxT.st = .preamble ∧ x.rxT.since + 128 ≤ s.clk.now then watchJoin c x (setCirc c (thaw (bump .noSync { x with rxT := restart x.rxT })) s) else s
     else if x.rxA.st = .preamble then
       match seatAt s c (s.clk.now - 2) with
       | some q =>
         if syncDeadline (setSf q.grant.arg) x.rxA + 2 ≤ s.clk.now then
           grantLost c q (setCirc c (thaw (bump .noSync { x with rxA := restart x.rxA })) s)
         else s
       | none => setCirc c (thaw (bump .noSync { x with rxA := restart x.rxA })) s
     else s)

/-- SAMPLES_LOST (R122, R140): the ninth STALE frame in a row. -/
def execSamplesLost (c : Nat) (s : State) : Result :=
  let x := circOf s c
  let close := match seatAt s c (s.clk.now - 2) with
    | some q => q.last + 1
    | none => 0
  onObject (circuitExists s c) s
    (if 9 ≤ x.staleRun ∧ receiving x = true ∧ isFeed s c = false then watchJoin c x (setCirc c (thaw (abortAll close (bump .samplesLost x))) s) else s)

/-- OVERLOAD (R128, R131, R140): the ninth clipped tick in a row. -/
def execOverload (c : Nat) (s : State) : Result :=
  let x := circOf s c
  let close := match seatAt s c (s.clk.now - 2) with
    | some q => q.last + 1
    | none => 0
  onObject (circuitExists s c) s
    (if 9 ≤ x.clipRun ∧ receiving x = true ∧ isFeed s c = false then
       let y := abortAll close (bump .overload { x with clipRun := 0, reinit := some (0, 0, 0, 0) })
       let y := if y.agc = .fixed then y else command (y.gain - 12) true { y with agc := .acquire, inBand := 0 }
       raise 0x0043 c (watchJoin c x (setCirc c y s))
     else s)

/-- RECEPTION_TIMEOUT (R136, R140): 4 ticks past the tick in which the last symbol was due; SAMPLES_LOST or OVERLOAD due at once comes before it. -/
def execReceptionTimeout (c cls : Nat) (s : State) : Result :=
  let x := circOf s c
  let due := fun (r : Receiver) => r.st == .payload && decide (r.endAt + 4 < s.clk.now) && decide (x.staleRun < 9 ∧ x.clipRun < 9)
  onObject (circuitExists s c) s
    (if cls = 1 then if due x.rxT then watchJoin c x (setCirc c (thaw (bump .timeout { x with rxT := restart x.rxT })) s) else s
     else if due x.rxA then
       let y := leaveSinr x
       let close := match seatAt s c (s.clk.now - 2) with
         | some q => q.last + 1
         | none => 0
       setCirc c (thaw (bump .timeout { y with rxA := { closedTo := close } })) s
     else s)

end Sys2Proof.Machine
end

