-- ==== Sys2Proof/Machine/LdpcRows.lean ====
section
/-! DEFINITION. The LDPC pool and the frame engine's reassembly and checks (spec/01_architecture.md R30, R31, spec/08 R205, spec/09 R224 to R229,
spec/12 R310, spec/17 R426 to R430). -/
namespace Sys2Proof.Machine

def decoderOf (s : State) (d : Nat) : Decoder := tabGet {} s.ldpc.decoder d
def setDecoder (d : Nat) (x : Decoder) (s : State) : State := { s with ldpc := { s.ldpc with decoder := tabPut {} s.ldpc.decoder d x } }

/-- Words waiting leave in the order of the tick in which they completed, within a tick in ascending circuit order (R30). -/
def before (a b : Codeword) : Bool := decide (a.since < b.since ∨ (a.since = b.since ∧ a.circuit ≤ b.circuit))
def firstWord : List Codeword → Option Codeword
  | [] => none
  | w :: ws => match firstWord ws with
    | none => some w
    | some v => if before w v then some w else some v
/-- The queue without its first word. -/
def withoutWord (w : Codeword) (ws : List Codeword) : List Codeword :=
  match ws.findIdx? fun v => v == w with
  | some i => ws.eraseIdx i
  | none => ws

/-- The lowest-numbered idle ACTIVE decoder (R227); none while the pool's domain is not ENABLED (R15). -/
def idleDecoder (s : State) : Option Nat :=
  if !domOn s 28 then none else (List.range 34).find? fun d => (decoderOf s d).state == .active && (decoderOf s d).busy.isNone

/-- LDPC_DISPATCH (R30, R227). -/
def execLdpcDispatch (s : State) : Result :=
  commit s
    (match firstWord s.ldpc.queue, idleDecoder s with
     | some w, some d =>
       setDecoder d { decoderOf s d with busy := some w }
         { s with ldpc := { s.ldpc with queue := withoutWord w s.ldpc.queue, depth := max s.ldpc.depth (s.clk.now - w.since) } }
     | _, _ => s)

/-! The checks of received frames (R310, R428 to R430). -/

/-- Types that end in a native check and that the frame engine takes (R271). -/
def takenType (t : Nat) : Bool := decide (4 ≤ t ∧ t ≤ 11)

/-- The checks of a complete frame in their order, the first failure counted (R310, R357, R429, R430): CONVERGED, LENGTH, the native check, the tag.
`bytes` are the bytes carried from the MAC header on, `lenOk` that LENGTH agrees with them. -/
def judgeFrame (c : Nat) (converged clean : Bool) (lenOk : Nat → Bool) (bytes : List Byte) (s : State) : Option Frame × State :=
  let w := wordBE (bytes.take 8)
  let n := macLength w
  let rest := (bytes.drop 8).take (n - 4)
  if !converged then (none, modCirc c (bump .cwFail) s)
  else if bytes.length < 8 ∨ n < 4 ∨ lenOk n = false ∨ (fieldOf w 63 60 = 4 ∧ 1492 < n) then (none, modCirc c (bump .lenErr) s)
  else if takenType (fieldOf w 63 60) = false ∨ natLE ((bytes.drop (n + 4)).take 4).reverse ≠ nativeCheck c w rest then
    let t := modCirc c (bump .checkFail) s
    (none, { t with chk := { t.chk with failAll := sat32 t.chk.failAll 1, only := if clean then sat32 t.chk.only 1 else t.chk.only } })
  else if fieldOf w 3 0 = 0 then (some (frameOf w rest), s)
  else
    let a := fieldOf w 47 36
    match (recordAt s c a).bind fun r => openFrame r (bytes.take (8 + n - 4)) s with
    | some m => (some (frameOf w m), s)
    | none =>
      let t := modRecordAt c a (fun r => { r with badTags := r.badTags + 1 }) (modCirc c (bump .tagFail) s)
      (none, match recordAt t c a with
        | some r => if 2 ≤ r.badTags then startReaddress r.epId t else t
        | none => t)

/-- A frame that passed: handed on with what the reception measured (R31, R132). -/
def acceptRx (c cls : Nat) (rssi snr eq : Int) (f : Frame) (s : State) : State :=
  emit (.accepted { circuit := c, cls := cls, frame := f, rssi := rssi, snr := snr, eqSinr := if cls = 2 then eq else -32768
                    tick := s.clk.tick % 65536 }) s

/-! Frames of Class T and Class A PPDUs (R310). -/

/-- The bits of an entry's codewords in order. -/
def entryBits (e : Entry) : List Bool :=
  (List.range e.ncw).flatMap fun i => ((e.parts.find? fun p => p.1 == i).map (·.2)).getD []

/-- A complete entry: its checks, and with the accepted check the snapshot's commit (R192, R310). LENGTH agrees with the bytes carried where the
frame ends in its last codeword. -/
def finishEntry (e : Entry) (s : State) : State :=
  let bits := entryBits e
  let bytes := bytesOfBits bits.length bits
  let per := bytes.length / max e.ncw 1
  let fits := fun (n : Nat) => decide (8 + n ≤ bytes.length ∧ per * (e.ncw - 1) < 8 + n)
  let t := { s with ldpc := { s.ldpc with entries := s.ldpc.entries.filter fun x => x.id != e.id } }
  let j := judgeFrame e.circuit e.allConverged e.clean fits bytes t
  match j.1 with
  | none => j.2
  | some f => acceptRx e.circuit e.cls e.rssi e.snr e.eqSinr f (if e.cls = 2 then commitSnap e j.2 else j.2)

/-- A decoded codeword enters its entry. -/
def addPart (w : Codeword) (d : Decoded) (e : Entry) : Entry :=
  { e with parts := (w.index, descramble w.circuit w.index d.bits) :: e.parts, allConverged := e.allConverged && d.converged
           clean := e.clean && d.converged && d.flips == 0 }

/-! Class D blocks (R205). -/

/-- The fields of a block header. -/
def blkData (bs : List Bool) : Bool := bs.getD 0 false
def blkXp (bs : List Bool) : Bool := bs.getD 1 false
def blkFirst (bs : List Bool) : Bool := bs.getD 2 false
def blkLast (bs : List Bool) : Bool := bs.getD 3 false
def blkBytes (bs : List Bool) : Nat := bitsNat ((bs.drop 4).take 12)

/-- A block of a stream: the stream's open frame after it, and a frame complete with it; none where the header breaks R205. -/
def blockStep (opened : Option OpenFrame) (now : Nat) (clean : Bool) (bs : List Bool) : Option (Option OpenFrame × Option OpenFrame) :=
  let n := blkBytes bs
  let bytes := bytesOfBits n (bs.drop 16)
  if n = 0 ∨ bs.length / 8 - 2 < n ∨ blkFirst bs = opened.isSome then none
  else
    let o := opened.getD { since := now }
    let o : OpenFrame := { o with bytes := o.bytes ++ bytes, clean := o.clean && clean }
    some (if blkLast bs then (none, some o) else (some o, none))

/-- BLOCK_FAIL, and the open frame of a stream discarded with its block (R205, R310): `xp` the express stream. -/
def blockFails (c : Nat) (xp : Bool) (s : State) : State :=
  let f := feedOf s c
  let n := (if xp then f.openX else f.openN).toList.length
  modCirc c (fun x => bumpBy .reasmTimeout n (bump .blockFail x)) (setFeed c (if xp then { f with openX := none } else { f with openN := none }) s)

/-- One block of a feed circuit, in turn: idle blocks carry nothing. A block that fails to decode is taken as one of the stream whose frame is open, the
express stream first (R207; DESIGN CHOICE: its own XP is not known). -/
def takeBlock (c : Nat) (bits : Option (List Bool)) (clean : Bool) (s : State) : State :=
  match bits with
  | none => blockFails c (feedOf s c).openX.isSome s
  | some bs =>
    let f := feedOf s c
    if blkData bs = false then (if bs.any (· == true) then blockFails c (blkXp bs) s else s)
    else
      match blockStep (if blkXp bs then f.openX else f.openN) s.clk.now clean bs with
      | none => blockFails c (blkXp bs) s
      | some (o, whole) =>
        let t := setFeed c (if blkXp bs then { f with openX := o, openN := f.openN.map fun n => { n with express := n.express + 1 } } else { f with openN := o }) s
        match whole with
        | none => t
        | some w =>
          let j := judgeFrame c true w.clean (fun n => 8 + n == w.bytes.length) w.bytes t
          match j.1 with
          | none => j.2
          | some g => acceptRx c 3 f.rssi f.snrOwn (-32768) g j.2

/-- Blocks that have become next in turn. -/
def takeBlocks : Nat → Nat → State → State
  | 0, _, s => s
  | fuel + 1, c, s =>
    let f := feedOf s c
    match f.done.find? fun d => d.1 == f.next with
    | none => s
    | some d =>
      let t := setFeed c { f with next := f.next + 1, done := f.done.filter fun e => e.1 != d.1 } s
      takeBlocks fuel c (takeBlock c d.2.1 d.2.2 t)

/-- A decoded codeword reaches the frame engine (R31, R226, R240). -/
def deliverWord (w : Codeword) (d : Decoded) (s : State) : State :=
  let t := modCirc w.circuit (fun x =>
    let y := bump (if d.converged then .cwOk else .cwBad) x
    if d.iter = 24 then bump .cwIter24 y else y) s
  if w.cls = 3 then
    let f := feedOf t w.circuit
    if f.session ≠ w.entry then t
    else
      let bits := if d.converged then some (descramble w.circuit w.index d.bits) else none
      let g := { f with done := f.done ++ [(w.index, bits, d.converged && d.flips == 0)] }
      takeBlocks g.done.length w.circuit (setFeed w.circuit g t)
  else
    let t := modEntry w.entry (addPart w d) t
    match t.ldpc.entries.find? fun e => e.id == w.entry with
    | none => t
    | some e => if e.ncw ≤ e.parts.length then finishEntry e t else t

/-- LDPC_DECODE_DONE (R225, R226, R310): decoder d stops, and passes its codeword on. -/
def execLdpcDecodeDone (d : Nat) (s : State) : Result :=
  let x := decoderOf s d
  onObject (decide (d < 34)) s
    (match x.busy with
     | none => s
     | some w => deliverWord w (ldpcDecode w.lift w.rate w.llr) (setDecoder d { x with busy := none, decoded := sat32 x.decoded 1 } s))

/-- Decoders of the test's rotation: ACTIVE and SPARE (R228); none while the pool's domain is not ENABLED (R15). -/
def testable (s : State) : List Nat := if !domOn s 28 then [] else (List.range 34).filter fun d => (decoderOf s d).state != .retired
/-- The decoder whose turn it is. -/
def testDecoder (s : State) : Option Nat :=
  let ds := testable s
  match ds.find? fun d => decide (s.ldpc.testNext ≤ d) with
  | some d => some d
  | none => ds.head?

def activeDecoders (s : State) : Nat := ((List.range 34).filter fun d => (decoderOf s d).state == .active).length

/-- A decoder retires (R228, R229): the lowest-numbered SPARE takes its place, the retirement is recorded, LDPC_RETIRED is raised, and LDPC_DEGRADED
with fewer than 18 ACTIVE. -/
def retireDecoder (d : Nat) (s : State) : State :=
  let was := (decoderOf s d).state
  let t := setDecoder d { decoderOf s d with state := .retired } s
  let t := if was = .active then
      match (List.range 34).find? fun k => (decoderOf t k).state == .spare with
      | some k => setDecoder k { decoderOf t k with state := .active } t
      | none => t
    else t
  let t := raise 0x0012 d (mpWrite 267 (setField (keepQueued t 267) d d 1) t)
  if activeDecoders t < 18 ∧ t.ldpc.degraded = false then raise 0x0013 d { t with ldpc := { t.ldpc with degraded := true } } else t

/-- LDPC_KNOWN_ANSWER_TEST (R228): once in a superframe, on an idle decoder while no codeword waits. -/
def execLdpcKnownAnswerTest (pass : Bool) (s : State) : Result :=
  commit s
    (match testDecoder s with
     | none => s
     | some d =>
       let x := decoderOf s d
       if s.ldpc.testDone || !s.ldpc.queue.isEmpty || x.busy.isSome then s
       else
         let y := { x with lastOk := pass, fails := if pass then 0 else x.fails + 1 }
         let t := setDecoder d y { s with ldpc := { s.ldpc with testDone := true, testNext := d + 1 } }
         if 2 ≤ y.fails then retireDecoder d t else t)

/-- A frame's reception was aborted (R142, R310): no receiver has it any more, and its codewords do not all come. -/
def entryAborted (s : State) (e : Entry) : Bool :=
  let x := circOf s e.circuit
  let mine := fun (w : Codeword) => w.cls != 3 && w.entry == e.id
  let waiting := (s.ldpc.queue.filter mine).length + ((List.range 34).filter fun d => (decoderOf s d).busy.any mine).length
  !(x.rxT.st == .payload && x.rxT.entry == e.id) && !(x.rxA.st == .payload && x.rxA.entry == e.id) && decide (e.parts.length + waiting < e.ncw)
/-- The expected end of a frame in Class D blocks (R310): a block time for each block that its LENGTH calls for after the first, and for each express
block received in between. -/
def frameEnd (f : Feed) (o : OpenFrame) : Nat :=
  let cap := infoBits f.lift f.upw.rate / 8 - 2
  let n := if o.bytes.length < 8 then 2 else (8 + macLength (wordBE (o.bytes.take 8)) + cap - 1) / cap
  let per := bitsPerTick f.upw.pam
  o.since + ((n - 1 + o.express) * liftN f.lift + per - 1) / per
/-- An open frame that is not complete 4 ticks after its expected end. -/
def frameLate (s : State) (f : Feed) (o : Option OpenFrame) : Bool := o.any fun o => decide (frameEnd f o + 4 < s.clk.now)

/-- REASM_TIMEOUT (R205, R310): a frame not complete 4 ticks after its expected end, or whose reception was aborted, is discarded: the oldest such entry of
the circuit, or the open frame of a feed circuit, that of the express stream first. -/
def execReasmTimeout (c : Nat) (s : State) : Result :=
  onObject (circuitExists s c) s
    (match s.ldpc.entries.find? fun e => e.circuit == c && (decide (e.due + 4 < s.clk.now) || entryAborted s e) with
     | some e =>
       modCirc c (bump .reasmTimeout) { s with ldpc := { s.ldpc with entries := s.ldpc.entries.filter fun x => x.id != e.id } }
     | none =>
       let f := feedOf s c
       if frameLate s f f.openX then modCirc c (bump .reasmTimeout) (setFeed c { f with openX := none } s)
       else if frameLate s f f.openN then modCirc c (bump .reasmTimeout) (setFeed c { f with openN := none } s)
       else s)

/-- Decoder states coded as R507. -/
def decCode : DecState → Nat
  | .active => 0
  | .spare => 1
  | .retired => 2

end Sys2Proof.Machine
end

