-- ==== Sys2Proof/Machine/Uplink.lean ====
section
/-! DEFINITION. Accepted frames from endpoints: their record, the sequence windows, the ACKs and what each type does (spec/12_link_procedures.md R289,
R301 to R309, spec/13_time_service.md R333 to R336, spec/14 R360, R361). -/
namespace Sys2Proof.Machine

/-- Word i of a frame's body (R6). -/
def bodyWord (f : RxFrame) (i : Nat) : Word := wordBE ((f.frame.body.drop (8 * i)).take 8)
/-- CTYPE, TTYPE, RTYPE or JTYPE of a frame. -/
def bodyType (f : RxFrame) : Nat := fieldOf (bodyWord f 0) 63 56

/-- The record a frame's SRC names: its address or, in re-addressing, NEW_ADDR (R304). -/
def senderOf (f : RxFrame) (s : State) : Option Record :=
  s.link.records.find? fun r =>
    r.circuit == f.circuit && r.state != .absent && (r.addr == some f.frame.src || r.newAddr.any (·.1 == f.frame.src))

/-- A frame from NEW_ADDR completes the change (R303), and a repeater hears of its far endpoint's (R313). -/
def arriveAt (f : RxFrame) (r : Record) (s : State) : State :=
  if r.newAddr.any (·.1 == f.frame.src) then
    let t := modRecordId r.epId (fun x => { x with addr := some f.frame.src, newAddr := none }) (release r.circuit r.addr s)
    modCirc r.circuit (bump .readdressOk) (refreshRelays s t)
  else s

/-- The endpoint is heard (R132, R272, R289, R303). -/
def heard (f : RxFrame) (r : Record) (s : State) : State :=
  modRecordId r.epId (fun x => { x with
    lastHeard := s.sf.number, heardAt := s.clk.now, polls := 0, unused := 0, rssi := f.rssi, snr := f.snr
    eqSinr := if f.cls = 2 then some f.eqSinr else x.eqSinr
    more := decide (f.frame.flags / 8 % 2 = 1), trainReq := x.trainReq || decide (f.frame.flags / 16 % 2 = 1) }) (arriveAt f r s)

/-- A frame from a known sender (R304): one to another DEST is dropped, one without a record counts UNKNOWN_SRC. -/
def fromSender (f : RxFrame) (s : State) (act : Nat → State → State) : State :=
  if f.frame.dest ≠ 0 then s
  else match senderOf f s with
    | none => modCirc f.circuit (bump .unknownSrc) s
    | some r => act r.epId (heard f r s)

/-! The uplink window (R306, R307, R309). -/

/-- Frames the ring of an endpoint holds, waiting for buffers or for their turn (R361). -/
def ringHeld (s : State) (q : Nat) : Nat :=
  (rxRing s q).held.length
  + (s.link.records.flatMap fun r => r.held.filter fun h => h.2.2.any fun f => steerRing s f.circuit f.frame.src == q).length

/-- The receive ring of a DATA frame takes it (R361). -/
def ringTakes (s : State) (f : RxFrame) : Bool :=
  let q := steerRing s f.circuit f.frame.src
  (rxRing s q).state == .enabled && decide (ringHeld s q < 64)

/-- BASE advances past every received SEQ, whose frame is delivered. -/
def advanceBase : Nat → Nat → State → State
  | 0, _, s => s
  | n + 1, ep, s =>
    match recordId s ep with
    | none => s
    | some r =>
      if bitOf r.upMap 0 then
        let fs := (r.held.filter fun h => h.1 == r.upBase).filterMap (·.2.2)
        advanceBase n ep (toRings fs (modRecordId ep (fun r => { r with
          upBase := (r.upBase + 1) % 4096, upMap := r.upMap >>> 1, held := r.held.filter fun h => h.1 != r.upBase }) s))
      else s

/-- A sequenced frame classified (R307), and whether it is accepted. `data`: it goes to a receive ring, which must take it (R361); a standby
holds what its ring takes and delivers nothing (R465, R466). -/
def classify (f : RxFrame) (data : Bool) (ep : Nat) (s : State) : Bool × State :=
  match recordId s ep with
  | none => (false, s)
  | some r =>
    let d := (f.frame.seq % 4096 + 4096 - r.upBase) % 4096
    let dup := (false, sendAck ep (modCirc r.circuit (bump .duplicate) s))
    if d < 64 then
      if bitOf r.upMap d then dup
      else if data && sendsAllowed s && !ringTakes s f then
        (false, modRxRing (steerRing s f.circuit f.frame.src) (fun x => { x with noBuf := sat32 x.noBuf 1 }) s)
      else
        let keep := if data && ringTakes s f then some f else none
        let t := modRecordId ep (fun r => { r with
          upMap := r.upMap ||| fieldAt d d 1, held := r.held ++ [(f.frame.seq % 4096, s.sf.number, keep)], ackDue := true }) s
        let t := advanceBase 64 ep t
        (true, if f.frame.flags / 4 % 2 = 1 then sendAck ep t else t)
    else if 4032 ≤ d then dup
    else (false, modCirc r.circuit (bump .seqOut) s)

/-- Passed to the running MP (R360). -/
def toMp (f : RxFrame) (s : State) : State := emit (.toMp f) s

/-- A sequenced frame for the MP: accepted once, then acted on. -/
def mpFrame (f : RxFrame) (act : Nat → State → State) (s : State) : State :=
  fromSender f s fun ep t =>
    let r := classify f false ep t
    if r.1 then act ep (toMp f r.2) else r.2

/-- DATA_FRAME_RX (R307, R360, R361). -/
def execDataFrameRx (f : RxFrame) (s : State) : Result :=
  onObject (circuitExists s f.circuit) s (if f.frame.ftype = 4 then fromSender f s fun ep t => (classify f true ep t).2 else s)

/-- MGMT_FRAME_RX (R305, R360): a frame of another type; CONTROL, MGMT and TIME frames are sequenced. -/
def execMgmtFrameRx (f : RxFrame) (s : State) : Result :=
  onObject (circuitExists s f.circuit) s
    (if 5 ≤ f.frame.ftype ∧ f.frame.ftype ≤ 7 then mpFrame f (fun _ t => t) s
     else if 9 ≤ f.frame.ftype ∧ f.frame.ftype ≤ 11 then fromSender f s fun _ t => toMp f t
     else s)

/-! Acknowledgements of downlinks (R301, R306, R307). -/

/-- The frame is a SLEEP_ACK that grants sleep (R301, R304). -/
def isSleepAck (f : Frame) : Bool :=
  f.ftype == 5 && f.body.head? == some 3 && decide (fieldOf (wordBE (f.body.take 8)) 55 16 ≠ 0)

/-- The record falls ASLEEP (R301). -/
def fallAsleep (ep : Nat) (s : State) : State :=
  modRecordId ep (fun r => match r.sleepDue with
    | some w => { r with state := if r.state = .active then .asleep else r.state, wakeSf := w, asleepSf := s.sf.number, sleepDue := none }
    | none => r) s

/-- An ACK frame covers a SEQ (R306): below BASE, or its bit set. -/
def covers (base : Nat) (map : Word) (seq : Nat) : Bool :=
  let d := (seq + 4096 - base) % 4096
  if d < 64 then bitOf map d else decide (4032 ≤ d)

/-- The frames an ACK covers are delivered (R311); the endpoint may sleep once its SLEEP_ACK is covered. -/
def takeAck (base : Nat) (map : Word) (ep : Nat) (s : State) : State :=
  match recordId s ep with
  | none => s
  | some r =>
    let done := r.sent.filter fun x => covers base map x.seq
    let t := modRecordId ep (fun r => { r with sent := r.sent.filter fun x => !covers base map x.seq }) s
    let t := returnFrames (done.filterMap fun x => if x.gone then none else x.host) txOk t
    let t := if done.any fun x => isSleepAck x.frame then fallAsleep ep t else t
    pump ep t

/-- ACK_RX (R306). -/
def execAckRx (f : RxFrame) (s : State) : Result :=
  onObject (circuitExists s f.circuit) s
    (if f.frame.ftype = 8 ∧ f.frame.body.length = 16 then
       fromSender f s fun ep t => takeAck (fieldOf (bodyWord f 0) 63 52) (bodyWord f 1) ep t
     else s)

/-! CONTROL frames (R301, R304, R314). -/

/-- A CONTROL frame of one type. -/
def controlRx (ctype : Nat) (f : RxFrame) (act : Nat → State → State) (s : State) : Result :=
  onObject (circuitExists s f.circuit) s (if f.frame.ftype = 5 ∧ bodyType f = ctype then mpFrame f act s else s)

/-- REPORT_RX (R278, R304). -/
def execReportRx (f : RxFrame) (s : State) : Result :=
  controlRx 1 f (fun ep t => modRecordId ep (fun r => { r with
    snrT := some (signedOf 16 (fieldOf (bodyWord f 0) 55 40)), sinrA := some (signedOf 16 (fieldOf (bodyWord f 0) 39 24))
    reportSf := t.sf.number }) t) s

/-- The answer to a SLEEP_REQ (R301): WAKE_SF, 0 for a duration out of range. -/
def sleepAnswer (d ep : Nat) (s : State) : State :=
  match recordId s ep with
  | none => s
  | some r =>
    let x := (circOf s r.circuit).set
    let ok := decide (1 ≤ d ∧ d + 2 * x.liveness ≤ x.retain)
    let wake := if ok then s.sf.number + 1 + d else 0
    let t := if ok then modRecordId ep (fun r => { r with sleepDue := some wake }) s else s
    sendControl ep [fieldAt 63 56 3 ||| fieldAt 55 16 wake] t

/-- SLEEP_REQ_RX (R301). -/
def execSleepReqRx (f : RxFrame) (s : State) : Result :=
  controlRx 2 f (fun ep t => sleepAnswer (fieldOf (bodyWord f 0) 55 40) ep t) s

/-- RELAY_BEACON_RX (R314): received and acknowledged; it is meant for the far endpoints. -/
def execRelayBeaconRx (f : RxFrame) (s : State) : Result := controlRx 6 f (fun _ t => t) s

/-- LEAVE_RX (R304): the record is deleted at the end of the superframe. -/
def execLeaveRx (f : RxFrame) (s : State) : Result :=
  controlRx 7 f (fun ep t => modRecordId ep (fun r => { r with leaving := true }) t) s

/-! Ranging (R332 to R336). -/

/-- The stamp of a circuit's last ranging reception, in device time (R8, R40, R163). -/
def rangeStamp (s : State) (c : Nat) : Option Int := (circOf s c).stamp.map fun x => x + 16000 * ((s.tku.devUs : Int) - s.clk.now)

/-- RANGE_REPLY (R332, R333): D and theta from the reply to the request awaited; without a stamp, or while device time is UNTRUSTED, the exchange
is unanswered. The stamp is the circuit's own, so nothing comes with the frame. -/
def execRangeReply (f : RxFrame) (_ : Unit) (s : State) : Result :=
  onObject (circuitExists s f.circuit) s
    (if f.frame.ftype = 11 ∧ bodyType f = 2 then
       fromSender f s fun ep t =>
         match recordId t ep with
         | none => t
         | some r =>
           match r.range.t1, rangeStamp t f.circuit with
           | some t1, some t4 =>
             if fieldOf (bodyWord f 0) 55 48 = r.range.id ∧ t.sf.beaconTrusted = true then
               let d := (t4 - t1 - fieldOf (bodyWord f 0) 47 0) / 2
               rangeResult ep d (nearest (shortOf (bodyWord f 1) - (t1 + d))) t
             else rangeMiss ep t
           | some _, none => rangeMiss ep t
           | none, _ => t
     else s)

/-- A TIME frame of one type. -/
def timeRx (ttype : Nat) (f : RxFrame) (act : Nat → State → State) (s : State) : Result :=
  onObject (circuitExists s f.circuit) s (if f.frame.ftype = 7 ∧ bodyType f = ttype then mpFrame f act s else s)

/-- TURN_REPORT (R335): TURN_D, and theta from the endpoint's stamp of a marker, once D exists. -/
def execTurnReport (f : RxFrame) (s : State) : Result :=
  timeRx 0x10 f (fun ep t =>
    let c := f.circuit
    let t := modFeed c (fun x => { x with turnD := fieldOf (bodyWord f 0) 47 0 }) t
    match recordId t ep with
    | none => t
    | some r =>
      match r.range.dist.head? with
      | none => t
      | some d =>
        let t1 := departure t c 0 + 16000 * ((bodyWord f 1).toNat - t.clk.tick : Int)
        let theta := nearest (shortOf (bodyWord f 2) - (t1 + d))
        modRecordId ep (fun r => { r with range := { r.range with
          theta := (theta :: r.range.theta).take 4, unranged := false } }) t) s

/-- RANGE_REPORT (R336): a repeater's exchange with one of its far endpoints. -/
def execRangeReport (f : RxFrame) (s : State) : Result :=
  timeRx 0x11 f (fun _ t =>
    match recordAt t f.circuit (fieldOf (bodyWord f 0) 47 36) with
    | none => t
    | some r =>
      let t1 := shortOf (bodyWord f 1)
      let d := (nearest (shortOf (bodyWord f 2) - t1) - fieldOf (bodyWord f 3) 47 0) / 2
      if t.sf.beaconTrusted then rangeResult r.epId d (nearest (shortOf (bodyWord f 4) - (t1 + d))) t else rangeMiss r.epId t) s

/-! Timers of a record. -/

/-- One unacknowledged frame whose timer has lapsed (R307): sent again with RETRY to the endpoint's present address, or abandoned. -/
def retryOne (ep : Nat) (x : Sent) (s : State) : State :=
  match recordId s ep with
  | none => s
  | some r =>
    let put := fun (y : Sent) (t : State) => modRecordId ep (fun r => { r with sent := r.sent.map fun z => if z.seq = x.seq then y else z }) t
    if x.retries < 4 then
      let f := { x.frame with dest := r.addr.getD x.frame.dest, flags := x.frame.flags / 2 * 2 + 1 }
      let text := if x.frame.keyIdx = 0 then some x.frame.body else if x.text.isEmpty then none else some x.text
      sendOut r.circuit f text { express := expressFrom s x.host, owner := some (ep, x.seq) } (.endpoint r (overClassA s r && trainForm s r))
        (put { x with frame := f, retries := x.retries + 1, lastSf := s.sf.number, out := !isFeed s r.circuit && text.isSome } s)
    else
      let t := put { x with gone := true } s
      let t := match x.host with
        | some h => completeTx h txNoAck t
        | none => t
      if isSleepAck x.frame then fallAsleep ep t else t

/-- Abandoned frames leave the window 12 superframes after their first transmission (R305). -/
def closeGone (s : State) (r : Record) : Record := { r with sent := r.sent.filter fun x => !(x.gone && decide (x.firstSf + 12 ≤ s.sf.number)) }

/-- ACK_TIMER_EXPIRY (R302, R307, R465): at T0 of the second superframe after the last transmission. -/
def execAckTimerExpiry (c a : Nat) (s : State) : Result :=
  onObject (circuitExists s c) s
    (match recordAt s c a with
     | none => s
     | some r =>
       if r.state ≠ .active ∨ sendsAllowed s = false then s
       else
         let due := r.sent.filter fun x => !x.gone && !x.out && decide (x.lastSf + 2 ≤ s.sf.number)
         pump r.epId (modRecordId r.epId (closeGone s) (due.foldl (fun t x => retryOne r.epId x t) s)))

/-- The acceptance from which the present gap is timed (R309): the earliest of the frames held. -/
def gapSince (r : Record) : Option Nat := leastOf (r.held.map fun h => h.2.1)

/-- GAP_SKIP (R309): BASE passes the missing SEQ, and what becomes contiguous is delivered. -/
def execGapSkip (c a : Nat) (s : State) : Result :=
  onObject (circuitExists s c) s
    (match recordAt s c a with
     | none => s
     | some r =>
       match gapSince r with
       | none => s
       | some n =>
         if s.sf.number < n + 12 then s
         else
           let t := modRecordId r.epId (fun r => { r with upBase := (r.upBase + 1) % 4096, upMap := r.upMap >>> 1 }) s
           modCirc c (bump .gapSkip) (advanceBase 64 r.epId t))

/-- The instant at which a POLL grant of the endpoint that has ended unanswered began, once for each grant (R285, R286): a poll is answered by a frame
accepted from its address. -/
def pollUnanswered (s : State) (r : Record) (a : Nat) : Option Nat :=
  ((s.sf.grants.filter fun g => g.circuit == r.circuit && g.addr == a && g.gtype == 4).map fun g => (s.sf.t0 + 25 * g.slot, s.sf.t0 + 25 * (g.slot + g.slots))).findSome?
    fun g => if g.2 ≤ s.clk.now ∧ r.heardAt < g.1 ∧ r.pollAt < g.1 then some g.1 else none

/-- POLL_ANSWER_TIMEOUT (R286, R303): the third failure in a row starts re-addressing. -/
def execPollAnswerTimeout (c a : Nat) (s : State) : Result :=
  onObject (circuitExists s c) s
    (match recordAt s c a with
     | none => s
     | some r =>
       match pollUnanswered s r a with
       | none => s
       | some k =>
         let t := modRecordId r.epId (fun x => { x with polls := x.polls + 1, pollAt := k }) (modCirc c (bump .pollFail) s)
         if 3 ≤ r.polls + 1 then startReaddress r.epId t else t)

/-- READDRESS_TIMEOUT (R303): nothing heard from NEW_ADDR in 4 superframes. -/
def execReaddressTimeout (c a : Nat) (s : State) : Result :=
  onObject (circuitExists s c) s
    (match recordAt s c a with
     | none => s
     | some r =>
       match r.newAddr with
       | some (_, n) => if n + 4 < s.sf.number then absentRecord r.epId s else s
       | none => s)

/-- QUARANTINE_EXPIRY (R300). -/
def execQuarantineExpiry (c a : Nat) (s : State) : Result :=
  onObject (circuitExists s c) s
    { s with link := { s.link with
        quarantine := s.link.quarantine.filter fun q => !(q.circuit == c && q.addr == a && decide (q.untilSf ≤ s.sf.number)) } }

/-- RETAIN_EXPIRY (R289): RETAIN superframes without being heard, from WAKE_SF where the endpoint sleeps or has slept since. -/
def execRetainExpiry (ep : Nat) (s : State) : Result :=
  commit s
    (match recordId s ep with
     | none => s
     | some r =>
       let since := max r.lastHeard r.wakeSf
       if since + (circOf s r.circuit).set.retain ≤ s.sf.number then
         raise 0x0030 (epWord r.circuit (r.addr.getD 0xFFF)).toNat (deleteRecord ep s)
       else s)

/-- SLEEP_WAKE (R302): at T0 of WAKE_SF; the ACK timers go on from where they paused. -/
def execSleepWake (c a : Nat) (s : State) : Result :=
  onObject (circuitExists s c) s
    (match recordAt s c a with
     | none => s
     | some r =>
       if r.state = .asleep ∧ r.wakeSf ≤ s.sf.number then wakeRecord r.epId r.wakeSf s else s)

/-- TX_TOO_LONG (R358): the first frame of the queue has not fitted for 4 superframes. -/
def execTxTooLong (c a : Nat) (s : State) : Result :=
  onObject (circuitExists s c) s
    (match recordAt s c a with
     | none => s
     | some r =>
       match r.waiting with
       | { host := some h, .. } :: _ =>
         if 4 ≤ h.unfit then
           pump r.epId (completeTx h txTooLong (modRecordId r.epId (fun r => { r with waiting := r.waiting.drop 1 }) s))
         else s
       | _ => s)

end Sys2Proof.Machine
end

