-- ==== Sys2Proof/Machine/Joins.lean ====
section
/-! DEFINITION. The join exchange as the head-end runs it (spec/12_link_procedures.md R289 to R297, spec/16_security_engine.md R418 to R421). -/
namespace Sys2Proof.Machine

/-- The EP_ID of words J1 and J2 (R293). -/
def joinId (f : RxFrame) : Nat := (bodyWord f 1).toNat * 18446744073709551616 + (bodyWord f 2).toNat
def idHigh (ep : Nat) : Word := BitVec.ofNat 64 (ep / 18446744073709551616)
def idLow (ep : Nat) : Word := BitVec.ofNat 64 ep
/-- The join key of an identity as its record holds it, wrapped under STORE, and as the engine uses it in slot 2 (R421). -/
def joinKey (s : State) (ep : Nat) : List Word := tabGet [] s.sec.joinKeys ep
def joinKeyOf (s : State) (ep : Nat) : List Word := keyOfBytes ((unwrapStore (idBytes ep) (joinKey s ep) s).getD [])
/-- A GMAC of 8 bytes under it, with a nonce that the caller gives (R411, R421). -/
def joinMac (s : State) (ep nonce : Nat) (ad : List Byte) : List Byte := (aeadSeal false (joinKeyOf s ep) nonce ad [] 8).2

/-- A JOIN frame of the head-end (R293): unsequenced and not protected as a frame. -/
def joinFrame (dest : Nat) (body : List Byte) : Frame := { ftype := 10, dest := dest, body := body }
/-- It goes out, in Class T on a shared circuit (R271). -/
def sendJoin (c dest : Nat) (body : List Byte) (s : State) : State := sendOut c (joinFrame dest body) (some body) {} .classT s

/-- The attempt of an identity on a circuit. -/
def joinOf (s : State) (c ep : Nat) : Option Join := s.link.joins.find? fun j => j.circuit == c && j.epId == ep
def endJoin (c ep : Nat) (s : State) : State :=
  { s with link := { s.link with joins := s.link.joins.filter fun j => !(j.circuit == c && j.epId == ep) } }

/-- CHALLENGE (R293, R295): a fresh HN, in the present superframe. -/
def challenge (j : Join) (s : State) : State :=
  let d := drawDrbg 1 s
  let j : Join := { j with hn := d.1.getD 0 0, challengeSf := s.sf.number }
  let t := endJoin j.circuit j.epId d.2
  sendJoin j.circuit 0xFFF ([fieldAt 63 56 2 ||| fieldAt 55 44 j.paddr ||| fieldAt 31 0 j.en, idHigh j.epId, idLow j.epId, j.hn].flatMap bytesBE)
    { t with link := { t.link with joins := t.link.joins ++ [j] } }

/-- REJECT (R293, R421): at most one for each EN of an EP_ID. DESIGN CHOICE: its DEST is 0xFFF, since no PADDR has been reserved. -/
def reject (c ep en reason : Nat) (s : State) : State :=
  if s.link.rejected.contains (ep, en) then s
  else
    let j0 := fieldAt 63 56 5 ||| fieldAt 55 48 reason
    let tag := joinMac s ep ((0xFFFFFFFE * 4294967296 + en) * 4294967296) (bytesBE j0 ++ idBytes ep ++ bytesOfNat 4 en)
    sendJoin c 0xFFF (bytesBE j0 ++ tag) { s with link := { s.link with rejected := s.link.rejected ++ [(ep, en)] } }

/-- The repeater of a circuit taken to have forwarded an endpoint's JOIN_REQ (R315): the one it is reached through, otherwise the first that has room
for it. -/
def repeaterOf (s : State) (c ep : Nat) : Option Nat :=
  (((s.link.records.find? fun r => r.circuit == c && r.repeats && r.far.contains ep).orElse fun _ =>
    s.link.records.find? fun r => r.circuit == c && r.repeats && decide (r.far.length < 8))).map (·.epId)

/-- The address a join reserves (R295): the record's on that circuit, otherwise the lowest free one; and whether it was free. -/
def joinAddr (s : State) (c ep : Nat) : Option (Nat × Bool) :=
  match (recordId s ep).bind fun r => if r.circuit = c then r.addr else none with
  | some a => some (a, false)
  | none => (lowestFree s c).map fun a => (a, true)

/-- A JOIN_REQ by the rows of R295. -/
def joinRequest (f : RxFrame) (s : State) : State :=
  let c := f.circuit
  let ep := joinId f
  let j0 := bodyWord f 0
  let en := fieldOf j0 31 0
  let known := recordId s ep
  match joinOf s c ep with
  | some j => challenge { j with en := en } s
  | none =>
    if joinKey s ep = [] then raise 0x0031 (epWord c 0xFFF).toNat (modCirc c (bump .joinUnknown) s)
    else if known.isNone ∧ 16384 ≤ s.link.records.length then reject c ep en 1 s
    else if known.isNone ∧ 64 ≤ (s.link.records.filter fun r => r.circuit == c).length then reject c ep en 2 s
    else if s.link.denied.contains (c, ep) then reject c ep en 3 s
    else match joinAddr s c ep with
      | none => s
      | some (a, fresh) =>
        let t := if known.any fun r => r.state == .asleep then wakeRecord ep 0 s else s
        challenge { circuit := c, epId := ep, paddr := a, fresh := fresh, en := en, caps := fieldOf j0 55 48, stored := fieldOf j0 47 32
                    firstSf := s.sf.number, via := if f.frame.flags / 2 % 2 = 1 then repeaterOf s c ep else none } t

/-- JOIN_REQ (R291, R295, R297): one that no repeater forwarded came in a JOIN grant. -/
def execJoinReq (f : RxFrame) (s : State) : Result :=
  onObject (circuitExists s f.circuit) s
    (if f.frame.ftype = 10 ∧ bodyType f = 1 ∧ f.frame.src = 0xFFF ∧ f.frame.dest = 0 ∧ sendsAllowed s = true then
       joinRequest f (if f.frame.flags / 2 % 2 = 1 then s else joinsFollow f.circuit s)
     else s)

/-- A new epoch (R290): drawn, not 0 and not the one presented. -/
def newEpoch (w : Word) (stored : Nat) : Nat :=
  (((List.range 3).map fun k => (w.toNat + k) % 65536).find? fun e => e != 0 && e != stored).getD 1

/-- A key wrapped under STORE, with EP_ID as associated data: the counter and the words (R418, R421). -/
def wrapStore (ad key : List Byte) (s : State) : List Word × State := wrapUnder 1 ad key s

/-- The circuit key of a circuit (R420). -/
def keyIdxOf (s : State) (c : Nat) : Nat := tabGet 1 s.sec.circuitKey c

/-- A class maximum as beacons and ACCEPT carry it (R275): 0.5 dB steps below -55 dBm/Hz, with the reductions of a profile. -/
def psdCode (psd : Int) (reduced : Nat) : Nat := (-110 - psd + reduced).toNat

/-- UL_LEAD in ns (R98, R108, R180). -/
def ulLead (s : State) (c : Nat) : Int := rxOffset s c / 16 - s.port.rxLead

/-- The ACCEPT parameters (R294). -/
def acceptWords (s : State) (r : Record) (key : List Word) : List Word :=
  let c := r.circuit
  let x := circOf s c
  let k := keyIdxOf s c
  let slot := slotOf s (8 + k)
  [fieldAt 63 48 r.epoch ||| fieldAt 47 32 x.want.retain ||| fieldAt 31 20 x.want.liveness ||| fieldAt 19 14 (x.want.servicePeriod - 1)
     ||| bitAt 13 (viaOf s r).isSome ||| fieldAt 12 1 (routeWord s r),
   fieldAt 63 32 (twosOf 32 (ulLead s c)) ||| fieldAt 31 27 x.set.arrivalTol
     ||| fieldAt 26 17 (((viaOf s r).map (·.rbSlot)).getD 0),
   fieldAt 63 60 k ||| fieldAt 59 28 slot.epoch, BitVec.ofNat 64 (slot.counter - 1)]
  ++ (key ++ List.replicate 4 0).take 4
  ++ [fieldAt 63 60 15 ||| fieldAt 59 28 r.sessionEpoch,
      fieldAt 63 57 (psdCode x.set.psdT (x.reduced.getD 0 0)) ||| fieldAt 56 50 (psdCode x.set.psdA (x.reduced.getD 1 0))
        ||| fieldAt 49 43 (psdCode x.set.psdD (x.reduced.getD 2 0)) ||| fieldAt 42 39 s.circ.profile ||| fieldAt 38 28 (circuitSpan s c / 16)]

/-- ACCEPT (R293): J0, the engine's nonce, the encrypted parameters and their tag. -/
def sendAccept (r : Record) (key : List Word) (s : State) : State :=
  let x := slotOf s 2
  let j0 := fieldAt 63 56 4 ||| fieldAt 55 44 (r.addr.getD 0)
  let j12 := [BitVec.ofNat 64 (x.counter / 4294967296), fieldAt 63 32 x.counter]
  let ad := bytesBE j0 ++ j12.flatMap bytesBE ++ idBytes r.epId
  let w := aeadSeal false (joinKeyOf s r.epId) x.counter ad ((acceptWords s r key).flatMap bytesBE) 16
  sendJoin r.circuit (r.addr.getD 0) (bytesBE j0 ++ j12.flatMap bytesBE ++ w.1 ++ w.2) ((useCounter 2 s).getD s)

/-- The record after a join (R289, R297, R313, R334): windows at SEQ 0, no snapshot, UNRANGED, the downlinks held renumbered with their retry counts, and
a repeater's assignment kept on its own circuit only. -/
def joinedRecord (j : Join) (old : Record) (epoch sessionEpoch : Nat) (wrapped : List Word) : Record :=
  { old with
    epId := j.epId, circuit := j.circuit, addr := some j.paddr, epoch := epoch, state := .active, caps := j.caps, wakeSf := 0
    repeats := old.repeats && old.circuit == j.circuit, rbSlot := if old.circuit = j.circuit then old.rbSlot else 0
    far := if old.circuit = j.circuit then old.far else []
    snap := {}, lost := 0, lastTrain := none, trainReq := false, polls := 0, unused := 0, badTags := 0, newAddr := none, leaving := false
    sleepDue := none, upBase := 0, upMap := 0, held := [], ackDue := false, dnNext := 0, sent := []
    waiting := (old.sent.filter fun x => !x.gone).map (fun x => { frame := x.frame, host := x.host, retries := x.retries }) ++ old.waiting
    sessionEpoch := sessionEpoch, sessionKey := wrapped, keyDue := true, range := {} }

/-- The RESPONSE verifies (R295, R297): ACCEPT is sent and the record is ACTIVE; its queue goes out with new numbers. -/
def joinAccepted (j : Join) (s : State) : State :=
  let ep := j.epId
  let was := s
  let s := endJoin j.circuit ep (releaseHeld ep s)
  let old := recordId s ep
  let moved := match old with
    | some r => if r.circuit = j.circuit ∧ r.addr = some j.paddr then none else r.addr
    | none => none
  let s := match old with
    | some r => dropOutgoing (toRecord r) (release r.circuit (r.newAddr.map (·.1)) (release r.circuit moved s))
    | none => s
  let d := drawDrbg 6 s
  let epoch := match old with
    | some r => if r.epoch = j.stored then r.epoch else newEpoch (d.1.getD 0 0) j.stored
    | none => newEpoch (d.1.getD 0 0) j.stored
  let key := (d.1.drop 2).take 4
  let w := wrapStore (idBytes ep) (key.flatMap bytesBE) d.2
  let r := joinedRecord j (old.getD {}) epoch ((d.1.getD 1 0).toNat % 2147483648) w.1
  let r := { r with lastHeard := s.sf.number, heardAt := s.clk.now }
  let t := w.2
  let t := setRoute ep j.via { t with link := { t.link with records := (t.link.records.filter fun x => x.epId != ep) ++ [r] } }
  refreshRelays was (sendTimeInfo ep (pump ep (sendAccept r key t)))

/-- The TAG of a RESPONSE verifies (R293, R421): a GMAC over EP_ID, EN, HN, PADDR and the circuit index, with HN as the nonce. PADDR takes 16 bits
(DESIGN CHOICE: its width in the tag is not stated). -/
def responseOk (s : State) (j : Join) (f : RxFrame) : Bool :=
  engineReady s && (f.frame.body.drop 24).take 8 ==
    joinMac s j.epId (0xFFFFFFFF * 18446744073709551616 + j.hn.toNat)
      (idBytes j.epId ++ bytesOfNat 4 j.en ++ bytesBE j.hn ++ bytesOfNat 2 j.paddr ++ bytesOfNat 2 j.circuit)

/-- JOIN_RESPONSE (R295): a RESPONSE to the present challenge. The engine verifies its TAG, so nothing comes with the frame. -/
def execJoinResponse (f : RxFrame) (_ : Unit) (s : State) : Result :=
  let c := f.circuit
  onObject (circuitExists s c) s
    (if f.frame.ftype ≠ 10 ∨ bodyType f ≠ 3 ∨ f.frame.dest ≠ 0 ∨ sendsAllowed s = false then s
     else match joinOf s c (joinId f) with
       | none => if (senderOf f s).isNone then modCirc c (bump .unknownSrc) s else s
       | some j =>
         if j.paddr ≠ f.frame.src then s
         else if responseOk s j f then joinAccepted j s
         else modCirc c (bump .joinAuthFail) (endJoin c j.epId s))

/-- JOIN_CHALLENGE_TIMEOUT (R295): no RESPONSE in the 2 superframes after the challenge. -/
def execJoinChallengeTimeout (c ep : Nat) (s : State) : Result :=
  onObject (circuitExists s c) s
    (match joinOf s c ep with
     | none => s
     | some j => if j.challengeSf + 2 < s.sf.number ∧ s.sf.number < j.firstSf + 8 ∧ sendsAllowed s = true then challenge j s else s)

/-- JOIN_ABANDON (R295): the attempt reaches 8 superframes. -/
def execJoinAbandon (c ep : Nat) (s : State) : Result :=
  onObject (circuitExists s c) s
    (match joinOf s c ep with
     | none => s
     | some j => if j.firstSf + 8 ≤ s.sf.number then modCirc c (bump .joinAbandon) (endJoin c ep s) else s)

end Sys2Proof.Machine
end

