-- ==== Sys2Proof/Machine/Rings.lean ====
section
/-! DEFINITION. The rings, the host link and the device memory as the host reaches them (spec/14_host_attachment.md R346 to R375). -/
namespace Sys2Proof.Machine

/-- OBJECT of a ring event: direction in bit 8, ring in [7:0] (R394). -/
def ringObject (rx : Bool) (q : Nat) : Nat := (if rx then 256 else 0) + q

/-- A ring enters FAULT with its cause; RING_FAULT is raised and INT_CAUSE[9] set (R365, R480). A ring that drains keeps draining, with the cause
latched. -/
def ringFault (rx : Bool) (q cause : Nat) (s : State) : State :=
  let f := fun (x : Ring) => { x with state := if x.state = .enabled then .fault else x.state, cause := cause }
  setCause 9 (raise 0x0042 (ringObject rx q) (if rx then modRxRing q f s else modTxRing q f s))

/-- A failed host request (R367, R395). -/
def hostFail (obj : Nat) (s : State) : State := raise 0x0046 obj s

/-! Doorbells (R354, R363, R365). -/

/-- Bits [15:0] of a doorbell (R483) move an ENABLED ring's tail; one at or above the size is ignored and faults the ring. -/
def doorbell (rx : Bool) (q : Nat) (v : Word) (s : State) : State :=
  let x := if rx then rxRing s q else txRing s q
  let n := fieldOf v 15 0
  if x.state ≠ .enabled then s
  else if x.size ≤ n then ringFault rx q 1 s
  else if rx then setRxRing q { x with tail := n } s else setTxRing q { x with tail := n } s

/-- TX_DB_WRITE (R354). -/
def execTxDbWrite (q : Nat) (v : Word) (s : State) : Result :=
  onObject (decide (q < 256)) s (inDomain 28 s (doorbell false q v s))

/-- RX_DB_WRITE (R354). -/
def execRxDbWrite (q : Nat) (v : Word) (s : State) : Result :=
  onObject (decide (q < 256)) s (inDomain 28 s (doorbell true q v s))

/-- Indices from `a` up to `b` on a ring of `n`. -/
def indicesTo (n a b : Nat) : List Nat := (List.range ((b + n - a) % max n 1)).map fun i => (a + i) % max n 1

/-- An express doorbell (R35, R363, R483): the bound ring's tail moves and the newly posted descriptors are express; an unbound XDB
raises XDB_UNBOUND. -/
def xdbPost (n : Nat) (v : Word) (s : State) : State :=
  match tabGet none s.host.xdb n with
  | none => raise 0x0041 n s
  | some q =>
    let x := txRing s q
    let t := doorbell false q v s
    if x.state = .enabled ∧ fieldOf v 15 0 < x.size then
      modTxRing q (fun y => { y with express := y.express ++ (indicesTo x.size x.tail (fieldOf v 15 0)).map (·, s.clk.now) }) t
    else t

/-- XDB_WRITE (R363). -/
def execXdbWrite (n : Nat) (v : Word) (s : State) : Result :=
  onObject (decide (n < 16)) s (inDomain 28 s (xdbPost n v s))

/-! Transmit descriptors (R354 to R358). -/

/-- Fields of a transmit descriptor's word 1 (R355). -/
def descLen (w : Word) : Nat := fieldOf w 63 50
def descCircuit (w : Word) : Nat := fieldOf w 49 40
def descDest (w : Word) : Nat := fieldOf w 39 28

/-- An address range meets the device's own HDM range (R354). -/
def inHdm (s : State) (a n : Nat) : Bool :=
  s.host.hdmCommitted && decide (a < s.host.hdmBase + 25769803776 ∧ s.host.hdmBase < a + n)

/-- The checks of a descriptor at acceptance (R354, R356): OK, BAD_DESC or NO_ENDPOINT. -/
def descStatus (s : State) (w0 w1 w3 : Word) : Nat :=
  let dest := descDest w1
  let most := if dest = 0xFFF then 420 else 1488
  if fieldOf w1 26 0 ≠ 0 ∨ fieldOf w3 3 1 ≠ 0 ∨ descLen w1 = 0 ∨ most < descLen w1 ∨ circuitActive s (descCircuit w1) = false
      ∨ dest = 0 ∨ (0xF00 ≤ dest ∧ dest ≤ 0xFFE) ∨ inHdm s w0.toNat (descLen w1) = true then txBadDesc
  else if dest ≠ 0xFFF ∧ (recordAt s (descCircuit w1) dest).isNone = true then txNoEndpoint
  else txOk

/-- A broadcast frame goes out; it takes its SEQ as it begins (R305, R357). -/
def sendBroadcast (f : TxFrame) (s : State) : State :=
  let g : Frame := { ftype := 4, dest := 0xFFF, flags := (if f.express then 32 else 0) + (if f.ackReq then 4 else 0), body := f.bytes }
  sendOut f.circuit g (some g.body) { express := expressFrom s (some f), cast := some f } .broadcast s

/-- An accepted frame joins its endpoint's queue, or goes out as a broadcast; a standby holds it (R356, R357, R466). -/
def queueHost (f : TxFrame) (s : State) : State :=
  if f.dest = 0xFFF then
    if sendsAllowed s then sendBroadcast f s else { s with link := { s.link with bcastHeld := s.link.bcastHeld ++ [(f.circuit, f)] } }
  else match recordAt s f.circuit f.dest with
    | none => completeTx f txNoEndpoint s
    | some r => queueDown r.epId { frame := { ftype := 4, body := f.bytes }, host := some f } s

/-- HF_ACCEPTED rises and the ring's head passes the descriptor; FETCH_HEAD is written back (R356). -/
def acceptTx (q : Nat) (s : State) : State :=
  let x := txRing s q
  let head := (x.head + 1) % max x.size 1
  let t := setTxRing q { x with head := head, accepted := x.accepted + 1, express := x.express.filter (·.1 != x.head) } s
  emit (.host x.wb.toNat (bytesLE (BitVec.ofNat 64 head)))
    { t with pair := { t.pair with hfAccepted := t.pair.hfAccepted + 1, hfHeld := t.pair.hfHeld + 1 } }

/-- The cause of a failed fetch (R507). -/
def fetchCause : HostAnswer → Nat
  | .timeout => 3
  | .poisoned => 4
  | _ => 5

/-- A device write failed as the device sees it (R367): by an error indication or no response; in the PCIe personality writes are posted. -/
def writeFailed (s : State) (a : HostAnswer) : Bool := !s.host.pcieOnly && (a == .failed || a == .timeout)

/-- The journal's entry for a descriptor of this device (R466). -/
def journalFor (s : State) (q index : Nat) : Option TxJournal := s.pair.journal.find? fun j => j.ring == q && j.index == index
def dropJournal (q index : Nat) (s : State) : State :=
  { s with pair := { s.pair with journal := s.pair.journal.filter fun j => !(j.ring == q && j.index == index) } }

/-- A frame of this device that the journal's entry describes in other words (R466). -/
def mismatched (j : TxJournal) (w1 : Word) : Bool := descCircuit w1 != j.circuit || descDest w1 != j.dest || descLen w1 != j.len

/-- The next SEQ of an endpoint moves past one the active device has assigned (R466). -/
def pastSeq (circuit dest n : Nat) (s : State) : State :=
  match recordAt s circuit dest with
  | none => s
  | some r => modRecordId r.epId (fun r => { r with dnNext := (n + 1) % 4096 }) s

/-- A frame that a standby holds, by its ring and index: in its endpoint's queue, or among the broadcasts. -/
def isFrame (q index : Nat) (f : TxFrame) : Bool := f.ring == q && f.index == index
def heldFrame (s : State) (q index : Nat) : Option TxFrame :=
  ((s.link.records.flatMap fun r => r.waiting.filterMap (·.host)) ++ s.link.bcastHeld.map (·.2)).find? (isFrame q index)
def dropHeld (q index : Nat) (s : State) : State :=
  { s with link := { s.link with
    records := s.link.records.map fun r => { r with waiting := r.waiting.filter fun w => !w.host.any (isFrame q index) }
    bcastHeld := s.link.bcastHeld.filter fun b => !isFrame q index b.2 } }

/-- The descriptor's place lies ahead of the ring's head: this device has not fetched it yet. -/
def aheadOf (x : Ring) (index : Nat) : Bool := decide (0 < x.size ∧ 2 * ((index + x.size - x.head) % x.size) < x.size)

/-- One entry of the active device's journal at a standby (R466): a held frame takes its SEQ or completes with its status; one not fetched yet waits
for its fetch. -/
def journalTx (j : TxJournal) (s : State) : State :=
  match heldFrame s j.ring j.index with
  | some f =>
    let t := j.seq.elim s fun n => pastSeq f.circuit f.dest n s
    match j.status with
    | some st => completeTx { f with seq := j.seq } st (dropHeld j.ring j.index t)
    | none =>
      { t with link := { t.link with records := t.link.records.map fun r => { r with
          waiting := r.waiting.map fun w => if w.host.any (isFrame j.ring j.index) then { w with seq := j.seq } else w } } }
  | none =>
    let t := dropJournal j.ring j.index s
    if aheadOf (txRing s j.ring) j.index then { t with pair := { t.pair with journal := t.pair.journal ++ [j] } } else t

/-- A delivery point journalled: the standby lets go of the frames it holds up to there (R466). -/
def journalRx (j : RxJournal) (s : State) : State :=
  modRxRing (steerRing s j.circuit j.src) (fun x => { x with held := x.held.filter fun f =>
    !(f.circuit == j.circuit && f.frame.src == j.src && decide ((j.seq + 4096 - f.frame.seq) % 4096 < 2048)) }) s

/-- A standby's own fetch of a frame whose entry came first (R466). -/
def journalled (f : TxFrame) (s : State) : State :=
  match journalFor s f.ring f.index with
  | none => s
  | some j => journalTx j (dropJournal f.ring f.index s)

/-- A descriptor fetched (R356): accepted, checked, its body copied; a write-back that fails faults the ring (R367). -/
def takeDesc (q : Nat) (d : DescFetch) (s : State) : State :=
  let x := txRing s q
  let w := fun i => d.words.getD i 0
  let f : TxFrame := { ring := q, index := x.head, bytes := d.bytes.take (descLen (w 1)), circuit := descCircuit (w 1), dest := descDest (w 1)
                       ackReq := bitOf (w 1) 27, express := (x.express.find? (·.1 == x.head)).isSome
                       rung := ((x.express.find? (·.1 == x.head)).map (·.2)).getD 0 }
  let t := acceptTx q s
  let t := if !writeFailed s d.write then t else hostFail (ringObject false q) (ringFault false q 7 t)
  let st := descStatus s (w 0) (w 1) (w 3)
  if s.pair.role = .standby ∧ (journalFor s q x.head).any (mismatched · (w 1)) = true then ringFault false q 8 (dropJournal q x.head s)
  else if st ≠ txOk then completeTx f st t
  else if d.body ≠ .ok then completeTx f txHostFault (hostFail (ringObject false q) (ringFault false q 6 t))
  else journalled f (queueHost f t)

/-- A fetch of a transmit ring may be under way: ENABLED, with a descriptor posted, and the link up (R356, R365). -/
def fetching (s : State) (q : Nat) : Bool :=
  (txRing s q).state == .enabled && (txRing s q).head != (txRing s q).tail && s.host.up && domOn s 3 && domOn s 28

/-- A transmit ring may fetch: the host is within reach too (R374, R375). -/
def mayFetch (s : State) (q : Nat) : Bool := fetching s q && hostReachable s

/-- The ring's turn (R357): rings with descriptors of an express doorbell pending come first; the others in round robin, one descriptor a turn. -/
def isExpress (s : State) (q : Nat) : Bool := !(txRing s q).express.isEmpty
def turnOf (s : State) (q : Nat) : Bool :=
  let qs := (s.host.tx.map (·.1)).filter (mayFetch s)
  isExpress s q || (!qs.any (isExpress s) && qs.all fun r => decide ((q + 255 - s.host.txTurn) % 256 ≤ (r + 255 - s.host.txTurn) % 256))

/-- The turn passes on from a ring that is not served as express. -/
def takeTurn (q : Nat) (s : State) : State := if isExpress s q then s else { s with host := { s.host with txTurn := q } }

/-- TX_DESC_FETCH (R354 to R357, R365, R367). -/
def execTxDescFetch (q : Nat) (resp : DescFetch) (s : State) : Result :=
  onObject (decide (q < 256)) s
    (if !mayFetch s q || !turnOf s q then s
     else if resp.desc ≠ .ok then hostFail (ringObject false q) (ringFault false q (fetchCause resp.desc) (takeTurn q s))
     else takeDesc q resp (takeTurn q s))

/-! Receive descriptors (R359, R361, R373). -/

/-- Words 2 and 3 of a receive descriptor (R359). -/
def rxWord2 (f : RxFrame) : Word :=
  fieldAt 63 50 (8 + f.frame.body.length) ||| fieldAt 49 40 f.circuit ||| fieldAt 39 28 f.frame.src ||| fieldAt 27 16 f.frame.seq
  ||| fieldAt 15 10 f.frame.flags ||| fieldAt 9 8 f.cls ||| fieldAt 0 0 1
def rxWord3 (f : RxFrame) : Word :=
  fieldAt 63 48 (twosOf 16 f.rssi) ||| fieldAt 47 32 (twosOf 16 f.snr)
  ||| fieldAt 31 16 (if f.cls = 2 then twosOf 16 f.eqSinr else 0x8000) ||| fieldAt 15 0 f.tick

/-- The bytes written to the buffer: MAC header and body, in wire order (R6, R359). -/
def rxBytes (f : RxFrame) : List Byte := bytesBE (macHeader f.frame (f.frame.body.length + 4)) ++ f.frame.body

/-- A frame appended to HISTORY (R373): the next record offset, or the first one where the record would cross the region's end. -/
def appendHistory (q : Nat) (f : RxFrame) (s : State) : State :=
  let bytes := rxBytes f
  let size := (16 + bytes.length + 63) / 64 * 64
  let limit := regionMib s 6 * 1048576
  let off := max s.mem.histOffset 4096
  let wraps := decide (limit < off + size)
  let off := if wraps then 4096 else off
  if limit < 4096 + size then s
  else
    let head := fieldAt 63 54 f.circuit ||| fieldAt 53 42 f.frame.src ||| fieldAt 41 30 f.frame.seq ||| fieldAt 29 16 bytes.length ||| fieldAt 15 8 q
    let rec_ := bytesLE (BitVec.ofNat 64 s.clk.tick) ++ bytesLE head ++ bytes
    let t := ownWrite (regionBase s 6 + off) (rec_ ++ List.replicate (size - rec_.length) 0) s
    let t := { t with mem := { t.mem with histOffset := off + size, histWraps := t.mem.histWraps + (if wraps then 1 else 0) } }
    ownWrite (regionBase s 6) (wordsBytes [BitVec.ofNat 64 t.mem.histOffset, BitVec.ofNat 64 t.mem.histWraps]) t

/-- A posted buffer breaks R359, or lies in the device's own HDM range (R354). -/
def badBuffer (s : State) (w0 w1 : Word) : Bool :=
  decide (fieldOf w1 49 0 ≠ 0 ∨ fieldOf w1 63 50 < 1536 ∨ fieldOf w1 63 50 % 64 ≠ 0 ∨ w0.toNat % 64 ≠ 0) || inHdm s w0.toNat (fieldOf w1 63 50)

/-- A held frame is delivered into a buffer: data, words 2 and 3 with DONE last, DONE_HEAD (R346, R359). -/
def deliverInto (q : Nat) (w0 : Word) (f : RxFrame) (s : State) : State :=
  let x := rxRing s q
  let head := (x.head + 1) % max x.size 1
  let t := setRxRing q (unsignal s.clk.now { x with head := head, held := x.held.drop 1 }) s
  let t := emit (.host w0.toNat (rxBytes f)) t
  let t := emit (.host (x.base.toNat + 32 * x.head + 16) (bytesLE (rxWord2 f) ++ bytesLE (rxWord3 f))) t
  let t := emit (.host x.wb.toNat (bytesLE (BitVec.ofNat 64 head))) t
  if x.history then appendHistory q f t else t

/-- RX_FRAME_DELIVER (R359, R361, R365, R367). -/
def execRxFrameDeliver (q : Nat) (resp : DescFetch) (s : State) : Result :=
  let x := rxRing s q
  onObject (decide (q < 256)) s
    (match x.held with
     | [] => s
     | f :: _ =>
       if (x.state ≠ .enabled ∧ x.state ≠ .draining) ∨ x.head = x.tail ∨ hostReachable s = false ∨ sendsAllowed s = false then s
       else if resp.desc ≠ .ok then hostFail (ringObject true q) (ringFault true q (fetchCause resp.desc) s)
       else if badBuffer s (resp.words.getD 0 0) (resp.words.getD 1 0) then ringFault true q 2 s
       else if writeFailed s resp.write then hostFail (ringObject true q) (ringFault true q 7 s)
       else deliverInto q (resp.words.getD 0 0) f s)

/-! Signals and drains (R362, R365). -/

/-- A ring signals its vector: its completions are signalled. -/
def signalRing (rx : Bool) (q : Nat) (s : State) : State :=
  let f := fun (x : Ring) => { x with unsignalled := 0 }
  signalVector (if rx then rxRing s q else txRing s q).vector (if rx then modRxRing q f s else modTxRing q f s)
def ringOf (rx : Bool) (s : State) (q : Nat) : Ring := if rx then rxRing s q else txRing s q

/-- MSIX_MOD_COUNT (R362): MOD_COUNT completions are unsignalled. -/
def execMsixModCount (rx : Bool) (q : Nat) (s : State) : Result :=
  let x := ringOf rx s q
  onObject (decide (q < 256)) s (if 0 < x.unsignalled ∧ x.modCount ≤ x.unsignalled ∧ 0 < x.modCount then signalRing rx q s else s)

/-- MSIX_MOD_TICKS (R362): MOD_TICKS have passed since the oldest unsignalled completion. -/
def execMsixModTicks (rx : Bool) (q : Nat) (s : State) : Result :=
  let x := ringOf rx s q
  onObject (decide (q < 256)) s (if 0 < x.unsignalled ∧ 0 < x.modCount ∧ x.oldest + x.modTicks ≤ s.clk.now then signalRing rx q s else s)

/-- ENABLE takes effect: tail and head at 0 (R365). -/
def ringEnabled (x : Ring) : Ring :=
  { x with state := .enabled, enableDue := false, tail := 0, head := 0, cause := 0, unsignalled := 0, express := [] }

/-- RING_DRAIN_END (R365): no accepted frame left (transmit), or nothing left that a posted buffer can take (receive). -/
def execRingDrainEnd (rx : Bool) (q : Nat) (s : State) : Result :=
  let x := ringOf rx s q
  let done := if rx then x.head == x.tail || x.held.isEmpty || x.cause != 0 else x.accepted == 0
  let y : Ring := if x.enableDue then ringEnabled x else { x with state := .disabled, express := [] }
  onObject (decide (q < 256)) s
    (if x.state = .draining ∧ done = true then (if rx then setRxRing q y s else setTxRing q y s) else s)

/-! Failed requests (R347, R367). -/

/-- A transmit body fetch failed at the head of a ring: the frame returns HOST_FAULT (R365). -/
def bodyFailed (q : Nat) (s : State) : State :=
  if !fetching s q then s
  else
    let x := txRing s q
    completeTx { ring := q, index := x.head } txHostFault
      (hostFail (ringObject false q) (ringFault false q (if s.host.ideFailed then 9 else 6) (acceptTx q s)))

/-- The write of the oldest record due fails (R343, R367, R485). -/
def evidenceFailed (s : State) : State := if s.ev.due.isEmpty then s else hostFail 0xFFFF (dropRecord s)

/-- The handling by kind of request; `late`: no completion within the timeout. What is outstanding when IDE fails has that cause (R374, R507). -/
def requestFailed (late : Bool) (req : HostRequest) (s : State) : State :=
  let cause := if s.host.ideFailed then 9 else if late then 3 else 5
  let linked := s.host.up && domOn s 3
  match req with
  | .txDescriptor q => if q < 256 ∧ fetching s q = true then hostFail (ringObject false q) (ringFault false q cause s) else s
  | .rxDescriptor q =>
    if q < 256 ∧ ((rxRing s q).state = .enabled ∨ (rxRing s q).state = .draining) ∧ linked = true then
      hostFail (ringObject true q) (ringFault true q cause s) else s
  | .txBody q => if q < 256 then bodyFailed q s else s
  | .rxWrite q =>
    if q < 256 ∧ ((rxRing s q).state = .enabled ∨ (rxRing s q).state = .draining) ∧ linked = true ∧ s.host.pcieOnly = false then
      hostFail (ringObject true q) (ringFault true q 7 s) else s
  | .txCompletion q =>
    if q < 256 ∧ ((txRing s q).state = .enabled ∨ (txRing s q).state = .draining) ∧ linked = true ∧ s.host.pcieOnly = false then
      hostFail (ringObject false q) (ringFault false q 7 s) else s
  | .evidence => if s.host.pcieOnly then s else evidenceFailed s
  | .aead =>
    match s.aead.run with
    | some a => if a.requester = 4 then aeadAccessFault a s else s
    | none => s

/-- HOST_REQUEST_FAILED (R367). -/
def execHostRequestFailed (req : HostRequest) (s : State) : Result := commit s (requestFailed false req s)

/-- CXL_COMPLETION_TIMEOUT (R347, R367). -/
def execCxlCompletionTimeout (req : HostRequest) (s : State) : Result := commit s (requestFailed true req s)

/-! The link (R348, R366, R369, R374, R375, R424). -/

/-- HOST_LINK_UP (R348, R375): `cxl` says that Flex Bus negotiation enabled CXL.cache and CXL.mem. IDE_REQUIRED has no effect on IDE in the PCIe
personality, where it leaves only the mailboxes and the bulk port. -/
def execHostLinkUp (cxl : Bool) (s : State) : Result :=
  commit s
    (if !domOn s 3 || s.host.up then s
     else { s with host := { s.host with
        up := true, pcieOnly := s.host.hostMode || !cxl, ideNeeded := s.host.ideRequired, ideActive := false, ideFailed := false } })

/-- Outstanding requests are abandoned (R369): the engine's host operation ends ACCESS_FAULT; every ring is cleared without a FAULT. -/
def abandonRequests (s : State) : State :=
  let t := match s.aead.run with
    | some a => if a.requester = 4 then aeadAccessFault a s else s
    | none => s
  linkLost t

/-- HOST_LINK_DOWN (R366, R369). -/
def execHostLinkDown (s : State) : Result := commit s (if s.host.up then abandonRequests s else s)

/-- HOT_RESET (R369): the MSI-X structures too return to their reset values. -/
def execHotReset (s : State) : Result :=
  commit s (let t := if s.host.up then abandonRequests s else s; { t with irq := { t.irq with msix := [] } })

/-- IDE_MAC_FAIL (R374). -/
def execIdeMacFail (s : State) : Result :=
  commit s (if s.host.up && !s.host.pcieOnly && s.host.ideActive then { s with host := { s.host with ideActive := false, ideFailed := true } } else s)

/-- IDE_KEY_PROGRAM (R348, R374): IDE is not available in the PCIe personality. -/
def execIdeKeyProgram (s : State) : Result :=
  commit s (if s.host.up && !s.host.pcieOnly then { s with host := { s.host with ideActive := true, ideFailed := false } } else s)

/-- SPDM_REQUEST (R424): answered under the attestation key over the measurements, the running image's BODY_HASH and the active plan's digest. -/
def execSpdmRequest (body : List Byte) (s : State) : Result :=
  commit s
    (if s.host.up && runningCode s != 0 then
       let m := (runningImage s).hash ++ (s.plan.active.drop (s.plan.active.length - 6)).take 6
       let g := attestSign (body ++ wordsBytes m) s
       emit (.spdm (m ++ g.1)) g.2
     else s)

/-- H2D_SNOOP (R346). -/
def execH2dSnoop (a : Nat) (s : State) : Result :=
  commit s (if s.host.up && !s.host.pcieOnly && !s.host.ideFailed then emit (.snoopMiss a) s else s)

/-! Device memory (R351, R353, R368). -/

/-- CXL.mem is served: the CXL personality is up, D28 is ENABLED and IDE stands where it is needed (R348, R374, R375). -/
def cxlMemServed (s : State) : Bool := hostReachable s && !s.host.pcieOnly && domOn s 28

/-- The granary holds 24 GiB (R351). -/
def granaryBytes : Nat := 25769803776

/-- HDM_DECODER_COMMIT (R351): `base` is the host address at which the decoder begins. -/
def execHdmDecoderCommit (base : Nat) (s : State) : Result :=
  commit s (if s.host.up && !s.host.pcieOnly then { s with host := { s.host with hdmCommitted := true, hdmBase := base } } else s)

/-- CXLMEM_HOST_READ (R351, R368): the 64-byte line that holds offset `a`; before the decoder is committed, poisoned data, which are free. -/
def execCxlmemHostRead (a : Nat) (s : State) : Result :=
  let line := a / 64
  onObject (decide (a < granaryBytes)) s
    (if !cxlMemServed s then s
     else if s.host.hdmCommitted then emit (.cxl (memRead s.mem.granary (64 * line) 64) (tabGet false s.mem.poison line)) s
     else
       let f := drawFree s
       emit (.cxl ((List.range 8).flatMap fun _ => bytesLE f.1) true) f.2)

/-- A refused write (R353, R484): counted, the first address latched, HDM_WRITE_REFUSED raised. -/
def refuseWrite (a : Nat) (s : State) : State :=
  raise 0x0040 0 { s with mem := { s.mem with
    violCount := sat32 s.mem.violCount 1, violValid := true
    violAddr := if s.mem.violValid then s.mem.violAddr else a / 64 * 64 } }

/-- CXLMEM_HOST_WRITE (R351, R353, R368): a line into the HOST region sets or clears its marker; one to a device-owned region changes nothing. -/
def execCxlmemHostWrite (a : Nat) (line : List Byte) (poison : Bool) (s : State) : Result :=
  onObject (decide (a < granaryBytes)) s
    (if !cxlMemServed s || !s.host.hdmCommitted then s
     else if regionKindAt s a = 7 then
       let t := granaryWrite (a / 64 * 64) ((line ++ List.replicate 64 0).take 64) s
       { t with mem := { t.mem with poison := tabPut false t.mem.poison (a / 64) poison } }
     else refuseWrite a s)

end Sys2Proof.Machine
end

