-- ==== Sys2Proof/Machine/Bulk.lean ====
section
/-! DEFINITION. The bulk port (spec/14_host_attachment.md R370, R371, spec/18 R443, spec/21 R475, R487). -/
namespace Sys2Proof.Machine

/-- Size in bytes of a target (R370). -/
def bulkSize (s : State) (target : Nat) : Nat :=
  match target with
  | 1 => 16777216
  | 2 => 262144
  | 3 => 67108864
  | 4 => regionMib s 5 * 1048576
  | 5 => regionMib s 6 * 1048576
  | 6 => 32768
  | _ => 0

/-- ERR_CODE of an access to `len` bytes at byte `at_` of the target, 0 where it succeeds (R370, R371). -/
def bulkError (s : State) (write : Bool) (off len : Nat) : Nat :=
  let at_ := s.mem.offset + off
  let k := s.mem.target
  if off % 8 ≠ 0 ∨ len % 8 ≠ 0 ∨ s.mem.offset % 4096 ≠ 0 then 3
  else if k = 0 ∨ 6 < k then 6
  else if write ∧ 3 ≤ k then 1
  else if bulkSize s k < at_ + len then 2
  else if write ∧ k = 1 ∧ updateInProgress s = true then 4
  else if write ∧ k = 2 ∧ admitting s then 4
  else 0

/-- The first cause since the bit was cleared (R370). -/
def bulkFail (code : Nat) (s : State) : State :=
  if code = 0 then s
  else { s with mem := { s.mem with err := true, errCode := if s.mem.err then s.mem.errCode else code } }

/-- AUTO_INC (R370): an access that touches the window's last byte. -/
def bulkAdvance (off len : Nat) (s : State) : State :=
  if s.mem.autoInc ∧ off + len = 4096 then { s with mem := { s.mem with offset := (s.mem.offset + 4096) % 68719476736 } } else s

/-- Keep-store words through the KEEP target (R370, R443): sealed words read as zero with SEALED, corrupt ones as zero with OUT_OF_RANGE. -/
def keepBulk (s : State) (w : Nat) : Word × Nat :=
  if hostSealed w then (0, 5) else if (cellOf s w).corrupt then (0, 2) else (keepWord s w, 0)

/-- The words a good read returns, with the ERR_CODE it sets. -/
def bulkWords (s : State) (at_ len : Nat) : List Word × Nat :=
  match s.mem.target with
  | 1 => (memWords s.mem.granary (stageBase s + at_) (len / 8), 0)
  | 2 => (memWords s.mem.planStage at_ (len / 8), 0)
  | 3 => (memWords s.mem.near at_ (len / 8), 0)
  | 4 => (memWords s.mem.granary (regionBase s 5 + at_) (len / 8), 0)
  | 5 => (memWords s.mem.granary (regionBase s 6 + at_) (len / 8), 0)
  | _ =>
    let rs := (List.range (len / 8)).map fun i => keepBulk s (at_ / 8 + i)
    (rs.map (·.1), ((rs.map (·.2)).find? (· != 0)).getD 0)

/-- Granary lines a read touches (R368). -/
def bulkLines (s : State) (at_ len : Nat) : List Nat :=
  let base := match s.mem.target with
    | 1 => some (stageBase s)
    | 4 => some (regionBase s 5)
    | 5 => some (regionBase s 6)
    | _ => none
  match base with
  | none => []
  | some b => (List.range ((len + 63) / 64 + 1)).map (fun i => (b + at_) / 64 + i) |>.filter fun l => decide (64 * l < b + at_ + len)

/-- An access while D28 is not ENABLED (R475, R487). -/
def bulkOff (s : State) : State := setCause 12 { s with mem := { s.mem with busyDue := true } }

/-- BULK_DATA_READ (R370, R371): a failed read returns zeros. -/
def execBulkDataRead (off len : Nat) (s : State) : Result :=
  onObject (decide (off + len ≤ 4096)) s
    (let zeros := List.replicate (len / 8) (0 : Word)
     if !domOn s 28 then emit (.read zeros) (bulkOff s)
     else
       let e := bulkError s false off len
       if e ≠ 0 then bulkAdvance off len (emit (.read zeros) (bulkFail e s))
       else
         let r := bulkWords s (s.mem.offset + off) len
         let t := (bulkLines s (s.mem.offset + off) len).foldl poisonRead s
         bulkAdvance off len (emit (.read r.1) (bulkFail r.2 t)))

/-- A write of the BULK_DATA window (R370, R371): a failed write has no effect. A write into FW_STAGE withdraws the verified
stage (R401). -/
def bulkWrite (off : Nat) (words : List Word) (s : State) : State :=
  let len := 8 * words.length
  if !domOn s 28 then bulkOff s
  else
    let e := bulkError s true off len
    if e ≠ 0 then bulkAdvance off len (bulkFail e s)
    else
      let at_ := s.mem.offset + off
      let t := if s.mem.target = 1 then stageWrite at_ (wordsBytes words) s
        else { s with mem := { s.mem with planStage := memWriteWords s.mem.planStage at_ words } }
      bulkAdvance off len t

/-- BULK_DATA_WRITE (R370, R371). -/
def execBulkDataWrite (off : Nat) (words : List Word) (s : State) : Result :=
  onObject (decide (off + 8 * words.length ≤ 4096)) s (bulkWrite off words s)

end Sys2Proof.Machine
end

