-- ==== Sys2Proof/Machine/CmdPlan.lean ====
section
/-! DEFINITION. The incremental planner (spec/02_tick_and_plan.md R63) and the plan commands (spec/15_mailboxes_firmware.md R389, R390, R507,
R508, spec/02 R44, R58). -/
namespace Sys2Proof.Machine

/-- A plan under edit: the records by type. -/
structure Draft where
  maps : List Word := []
  places : List Word := []
  routes : List Word := []
  circuits : List Word := []
  spans : List Word := []

/-- A record of a type with the fields of a change word (R54, R390). -/
def circuitRecord (w : Word) : Word := setField w 63 60 4
def spanRecord (c ticks : Nat) : Word := fieldAt 63 60 5 ||| fieldAt 59 50 c ||| fieldAt 49 30 ticks
def placeRecord (f a c off len cap : Nat) : Word :=
  fieldAt 63 60 2 ||| fieldAt 59 56 f ||| fieldAt 55 48 a ||| fieldAt 47 38 c ||| fieldAt 37 26 off ||| fieldAt 25 14 len ||| fieldAt 13 11 cap
def routeRecord (c a base : Nat) : Word := fieldAt 63 60 3 ||| fieldAt 56 47 c ||| fieldAt 46 39 a ||| fieldAt 38 31 base

/-- The draft of an image. -/
def draftOf (img : List Word) : Draft :=
  { maps := ofType 1 img, places := ofType 2 img, routes := ofType 3 img, circuits := ofType 4 img, spans := ofType 5 img }

/-- The circuit a change of kind 1 to 3 names. -/
def chgCircuit (w : Word) : Option Nat := if 1 ≤ chgKind w ∧ chgKind w ≤ 3 then some (circCircuit w) else none

/-- A circuit's placements and routes removed (R63 step 1). -/
def dropCircuit (c : Nat) (d : Draft) : Draft :=
  { d with
    places := d.places.filter fun w => placeCircuit w != c
    routes := d.routes.filter fun w => routeCircuit w != c
    circuits := d.circuits.filter fun w => circCircuit w != c }

/-- Steps 1 and the record changes of R63: circuits removed or changed leave; changed and added ones are listed anew. DESIGN CHOICE, the spec being
silent: a change that names what is not there does what it can, so that adding an active circuit changes it, changing an inactive one adds it,
and removing an absent one does nothing. -/
def applyChange (d : Draft) (w : Word) : Draft :=
  match chgKind w with
  | 1 => let e := dropCircuit (circCircuit w) d; { e with circuits := e.circuits ++ [circuitRecord w] }
  | 2 => let e := dropCircuit (circCircuit w) d; { e with spans := e.spans.filter fun v => spanCircuit v != circCircuit w }
  | 3 => let e := dropCircuit (circCircuit w) d; { e with circuits := e.circuits ++ [circuitRecord w] }
  | 6 => { d with spans := d.spans.filter (fun v => spanCircuit v != spanCircuit w) ++ [spanRecord (spanCircuit w) (spanTicks w)] }
  | _ => d

/-- Seats of a capacity removed from a group, the last ones first (R63). DESIGN CHOICE: which ones go, and that a removal of more seats than there are
removes as many as there are; the spec is silent. -/
def dropSeats : Nat → Nat → Nat → List Word → List Word
  | _, _, _, [] => []
  | g, cap, n, w :: ws =>
    let rest := dropSeats g cap n ws
    let gone := ws.length - rest.length
    if gone < n ∧ placeFunc w = 5 ∧ placeActive w / 16 = g ∧ placeCap w = cap then rest else w :: rest

/-- Placements on an index, and the lowest offset at which `len` cycles fit (R23, R63). -/
def onIndex (d : Draft) (a : Nat) : List Word := d.places.filter fun w => placeActive w == a
def fitsAt (ws : List Word) (off len : Nat) : Bool :=
  decide (off + len ≤ 2904) && ws.all fun w => decide (off + len ≤ placeOffset w ∨ placeEnd w ≤ off)
def lowestFit (ws : List Word) (len : Nat) : Option Nat :=
  (sortInts ((0 :: ws.map placeEnd).map Int.ofNat)).map Int.toNat |>.find? fun o => fitsAt ws o len

/-- A function placed on an index where it fits. -/
def placeOn (f c a cap : Nat) (d : Draft) : Option Draft :=
  let len := (funcCost f cap).getD 0
  (lowestFit (onIndex d a) len).map fun o => { d with places := d.places ++ [placeRecord f a c o len cap] }

/-- Several functions of a circuit placed on one index. -/
def placeAll (c a : Nat) : List (Nat × Nat) → Draft → Option Draft
  | [], d => some d
  | (f, c') :: fs, d => (placeOn f c' a 0 d).bind (placeAll c a fs)

/-- Mapped indices of a group, ascending. -/
def groupIndices (d : Draft) (g : Nat) : List Nat :=
  ((List.range 16).map (16 * g + ·)).filter fun a => (d.maps.map mapActive).contains a

/-- A free buffer pair of an index (R55). -/
def freePair (d : Draft) (a : Nat) : Option Nat :=
  (List.range 64).find? fun b => !(d.routes.any fun w => routeActive w == a && routeBase w == b)

/-- A circuit's receive functions on an index (R46, R48, R63): in energy mode with the index's qualifier reserve, and with its SLOT 0 route. -/
def receiveOn (corr : Bool) (w : Word) (d : Draft) (a : Nat) : Option Draft :=
  let c := circCircuit w
  let qual := !corr && circMode w == 1 && !((onIndex d a).any fun v => placeFunc v == 3)
  let fs := (if circMode w = 2 then [(7, c)] else if corr then [(1, c)] else [(2, c)]) ++ [(8, c)] ++ (if qual then [(3, 0x3FF)] else [])
  match freePair d a, placeAll c a fs d with
  | some b, some e => some { e with routes := e.routes ++ [routeRecord c a b] }
  | _, _ => none

/-- First fit over indices (R63). -/
def firstFit (f : Draft → Nat → Option Draft) (d : Draft) : List Nat → Option Draft
  | [] => none
  | a :: as => (f d a).orElse fun _ => firstFit f d as

/-- One circuit's receive, then transmit functions placed (R63 steps 3 and 4). -/
def receiveCircuit (corr : Bool) (d : Option Draft) (w : Word) : Option Draft :=
  d.bind fun d => firstFit (receiveOn corr w) d (groupIndices d (circCircuit w / 48))
def transmitCircuit (d : Option Draft) (w : Word) : Option Draft :=
  let fs := if circMode w = 2 then [] else if circClassA w then [4, 6] else [4]
  fs.foldl (fun d f => d.bind fun d =>
    firstFit (fun e a => placeOn f (circCircuit w) a 0 e) d (groupIndices d (circCircuit w / 48))) d

/-- The seats of one change placed (R63 step 2). -/
def placeSeats (g cap : Nat) : Nat → Option Draft → Option Draft
  | 0, d => d
  | n + 1, d => placeSeats g cap n (d.bind fun d => firstFit (fun e a => placeOn 5 0x3FF a cap e) d (groupIndices d g))

/-- Words in ascending order of a key. -/
def insertWord (key : Word → Nat) (w : Word) : List Word → List Word
  | [] => [w]
  | v :: vs => if key w ≤ key v then w :: v :: vs else v :: insertWord key w vs
def sortWords (key : Word → Nat) (ws : List Word) : List Word := ws.foldr (insertWord key) []

/-- The image of a draft: PRODUCER 0x02, PARENT_ID the active plan's, the records in order, and the digest (R53, R54, R56, R63). -/
def imageOfDraft (old : List Word) (newId version : Nat) (d : Draft) : List Word :=
  let rs := sortWords mapActive d.maps ++ sortWords placeOrder d.places ++ sortWords recKey d.routes
    ++ sortWords circCircuit d.circuits ++ sortWords spanCircuit d.spans
  let seats := (d.places.filter fun w => placeFunc w == 5).length
  let shared := (d.circuits.filter fun w => circMode w == 1).length
  let img :=
    [hdr old 0, fieldAt 63 32 newId ||| fieldAt 31 16 rs.length, hdr old 2,
     fieldAt 63 62 (fieldOf (hdr old 3) 63 62) ||| fieldAt 47 32 seats ||| fieldAt 31 16 shared
       ||| fieldAt 15 0 (d.circuits.length - shared),
     fieldAt 63 32 (planId old) ||| fieldAt 31 24 2 ||| fieldAt 23 0 version, 0, 0, 0] ++ rs
  img ++ sha384 (wordsBytes img)

/-- The incremental planner (R63): none where a function does not fit. DESIGN CHOICE: steps 3 and 4 are taken one after the other, the receive
functions of every circuit before the transmit functions of any; the rule's words leave open that they alternate circuit by circuit. -/
def planEdit (old : List Word) (newId version : Nat) (ws : List Word) : Option (List Word) :=
  let d := ws.foldl applyChange (draftOf old)
  let d := (ws.filter fun w => chgKind w == 5).foldl
    (fun d w => { d with places := dropSeats (chgGroup w) (chgCap w) (chgSeats w) d.places }) d
  -- a qualifier reserve stays only beside an energy-mode receive function (R48)
  let d := { d with places := d.places.filter fun w => placeFunc w != 3 || (onIndex d (placeActive w)).any fun v => placeFunc v == 2 }
  let seated := (ws.filter fun w => chgKind w == 4).foldl (fun e w => placeSeats (chgGroup w) (chgCap w) (chgSeats w) e) (some d)
  let named := ws.filterMap chgCircuit
  let todo := sortWords circCircuit (d.circuits.filter fun w => named.contains (circCircuit w))
  let placed := todo.foldl (receiveCircuit (correlationMode old)) seated
  (todo.foldl transmitCircuit placed).map (imageOfDraft old newId version)

/-- A new PLAN_ID with bit 31 set, its other bits free, that neither slot holds (R53, R63). -/
def newPlanId (s : State) (f : Word) : Nat :=
  let cands := [f.toNat % 2147483648, (f.toNat + 1) % 2147483648, (f.toNat + 2) % 2147483648]
  match cands.find? fun n => planId s.plan.active != n + 2147483648 && planId s.plan.staged != n + 2147483648 with
  | some n => n + 2147483648
  | none => 2147483648

/-- The staged slot emptied, and holding an admitted image (R58). -/
def unstage (s : State) : State := { s with plan := { s.plan with stage := .empty, staged := [], armedSf := 0 } }
def stageImage (img : List Word) (s : State) : State := { s with plan := { s.plan with stage := .loaded, staged := img, armedSf := 0 } }

/-- An image submitted to admission (R57, R58): LOADED with its PLAN_ID, or EMPTY with the refusal words. -/
def submit (img : List Word) (s : State) : Reply :=
  match admission s img with
  | none => okay [BitVec.ofNat 64 (planId img)] (stageImage img s)
  | some r => { status := r.status, words := refusalWords r, after := unstage s }

/-- The incremental planner's run and the admission of its image (R58, R63). DESIGN CHOICE: with no plan in force there is nothing to copy, and the
edit ends REFUSED_BUDGET with the slot EMPTY, as one that does not fit; the spec is silent. -/
def editPlan (ws : List Word) (s : State) : Reply :=
  let f := drawFree s
  let s := f.2
  if s.plan.active.isEmpty then { status := 0x12, words := refusalWords { status := 0x12 }, after := unstage s }
  else match planEdit s.plan.active (newPlanId s f.1) (Config.derived 63 [planId s.plan.active]).toNat ws with
    | none => { status := 0x12, words := refusalWords { status := 0x12 }, after := unstage s }
    | some img => submit img s

/-- Arming for superframe `sf` (R44, R57, R58): checks in the order counting, ARMED, PLAN_ID, the close, checks 4 and 5. -/
def armPlan (pid sf : Nat) (s : State) : Reply :=
  let late := decide (sf ≤ s.sf.number) || (sf == s.sf.number + 1 && s.sf.closed)
  checked
    [(counting s, stState, 0), (s.plan.stage != .armed, stBusy, 0),
     (s.plan.stage == .loaded && planId s.plan.staged == pid, stState, 0), (!late, stBusy, 0)] s
    (match recheck s s.plan.staged with
     | some r => { status := r.status, words := refusalWords r, after := s }
     | none => okay [] { s with plan := { s.plan with stage := .armed, armedSf := sf } })

/-- PLAN_LOAD (R57, R58, R371): the image in PLAN_STAGE. -/
def execPlanLoad (m : Nat) (s : State) : Result :=
  mailboxCommand 0x0301 0 noWords m s fun _ =>
    checked (loadChecks s) s
      (submit (imageOf (memWords s.mem.planStage 0 (14 + fieldOf (memWord s.mem.planStage 8) 31 16 % 16385))) s)

/-- PLAN_ACTIVATE (R44, R58, R508). -/
def execPlanActivate (m : Nat) (s : State) : Result :=
  mailboxCommand 0x0302 0 (exactly 2) m s fun b =>
    checked [(decide (prmN b 0 < 2 ^ 32), stParam, 0), sfOk b 1] s (armPlan (prmN b 0) (prmN b 1) s)

/-- PLAN_ABORT (R58, R508). -/
def execPlanAbort (m : Nat) (s : State) : Result :=
  mailboxCommand 0x0303 0 noWords m s fun _ =>
    checked
      [(counting s, stState, 0), (s.plan.stage == .armed, stState, 0),
       (!(s.sf.closed && s.plan.armedSf == s.sf.number + 1), stBusy, 0)] s
      (okay [] { s with plan := { s.plan with stage := .loaded, armedSf := 0 } })

/-- Staged-slot codes (R507). -/
def stageCode (s : State) : Nat :=
  if admitting s then 1
  else match s.plan.stage with
    | .empty => 0
    | .loaded => 2
    | .armed => 3

/-- PLAN_STATUS (R507). -/
def execPlanStatus (m : Nat) (s : State) : Result :=
  mailboxCommand 0x0304 0 noWords m s fun _ =>
    okay [fieldAt 63 32 (planId s.plan.active) ||| fieldAt 31 0 (parentId s.plan.active),
      fieldAt 63 62 (stageCode s) ||| fieldAt 39 0 (if s.plan.stage = .armed then s.plan.armedSf else 0),
      fieldAt 63 32 (planId s.plan.staged) ||| fieldAt 31 0 (parentId s.plan.staged)] s

/-- PLAN_EDIT (R63, R390). -/
def execPlanEdit (m : Nat) (s : State) : Result :=
  mailboxCommand 0x0305 0 editWords m s fun b => checked (editChecks b s) s (editPlan (prms b 1 (b.paramWords - 1)) s)

/-- PLAN_READ (R385, R390): the image goes to the near store. Without a plan in force there is nothing to copy. -/
def execPlanRead (m : Nat) (s : State) : Result :=
  mailboxCommand 0x0306 0 noWords m s fun _ =>
    checked [nearOn s, (!s.plan.active.isEmpty, stState, 0)] s
      (let n := nearResult m s.plan.active s
       okay n.1 n.2)

/-- PLAN_STAGE_WRITE (R370, R371, R390). -/
def execPlanStageWrite (m : Nat) (s : State) : Result :=
  mailboxCommand 0x0307 0 (fun n => decide (1 ≤ n ∧ n ≤ 119)) m s fun b =>
    let n := b.paramWords - 1
    checked
      [(decide (prmN b 0 % 8 = 0 ∧ prmN b 0 + 8 * n ≤ 262144), stRange, 0), nearOn s, (!admitting s, stBusy, 0)] s
      (okay [] { s with mem := { s.mem with planStage := memWriteWords s.mem.planStage (prmN b 0) (prms b 1 n) } })

/-- PLAN_SAVE_BOOT (R390, R391): the plan in force goes to the flash in the background. -/
def execPlanSaveBoot (m : Nat) (s : State) : Result :=
  mailboxCommand 0x0308 0 noWords m s fun _ =>
    checked [(!s.plan.active.isEmpty, stState, 0), (!flashBusy s, stBusy, 0)] s
      (okay [] (addBackground (.planSave s.plan.active) s))

/-- The change word of `circuit.set_class` (R389): add, change or remove the circuit; its neighbours stay as the plan has them. -/
def classChange (s : State) (c mode : Nat) : Word :=
  let old := (circuitRec s.plan.active c).getD 0
  if mode = 0 then fieldAt 63 60 2 ||| fieldAt 59 50 c
  else if mode = 3 then fieldAt 63 60 (if circuitActive s c then 3 else 1) ||| fieldAt 59 50 c ||| fieldAt 49 48 2
  else fieldAt 63 60 (if circuitActive s c then 3 else 1) ||| fieldAt 59 50 c ||| fieldAt 49 48 1 ||| bitAt 47 (mode == 2)
    ||| (if circMode old = 1 then fieldAt 46 4 (fieldOf old 46 4) else 0)

/-- CIRCUIT_SET_CLASS (R389, R508): `plan.edit` with one change, then `plan.activate` for SF. -/
def execCircuitSetClass (m : Nat) (s : State) : Result :=
  mailboxCommand 0x0201 0 (exactly 3) m s fun b =>
    checked (classChecks b s) s
      (let e := editPlan [classChange s (prmN b 0) (prmN b 1)] s
       if e.status ≠ 0 then e
       else
         let a := armPlan (planId e.after.plan.staged) (prmN b 2) e.after
         if a.status ≠ 0 then a else okay e.words a.after)

end Sys2Proof.Machine
end

