-- ==== Sys2Proof/Machine/CmdCircuit.lean ====
section
/-! DEFINITION. Mailbox commands of the circuits (spec/15_mailboxes_firmware.md R384, R385, R389; spec/05 R128, R145, R146; spec/07 R190, R195, R196;
spec/08 R213, R216, R217; spec/09 R239, R240; spec/04 R117; spec/10 R252 to R259; spec/11 R288). -/
namespace Sys2Proof.Machine

/-! Commands over a circuit set. -/

/-- A readout of each circuit of a CSET, whose counters its read clears (R385). -/
def csetReadout (op m : Nat) (s : State) (ok : Nat → Bool × Nat × Nat) (ws : Nat → List Word) (ks : List Ctr) : Result :=
  mailboxCommand op 0 (exactly 12) m s fun b =>
    let cs := circuitsOf b 0
    checked (csetExists s b 0 :: cs.map ok) s
      (okay (cs.flatMap ws) (cs.foldl (fun t c => modCirc c (clearCtrs ks) t) s))

/-- No further condition on a circuit, and feed mode (R389). -/
def anyMode (_ : Nat) : Bool × Nat × Nat := (true, 0, 0)
def feedMode (s : State) (c : Nat) : Bool × Nat × Nat := (isFeed s c, stState, 0)

/-- Counters of a circuit, two to a word (R385). -/
def ctrWords (s : State) (c : Nat) (ks : List Ctr) : List Word := packCounts (ks.map (ctrOf (circOf s c)))

/-- A settings command of per-circuit rows (R384): the checks, then `f` on every circuit of the set. -/
def csetConfig (op : Nat) (rows : List (Int × Int)) (m : Nat) (s : State) (ok : Nat → Bool × Nat × Nat)
    (f : (Nat → Option Int) → Circuit → Circuit) : Result :=
  mailboxCommand op 0 (fun n => decide (13 ≤ n)) m s fun b =>
    let cs := circuitsOf b 0
    checked (settingsOk b 12 rows ++ csetExists s b 0 :: cs.map ok) s
      (okay [] (cs.foldl (fun t c => modCirc c (f (settingOf b 12 rows.length)) t) s))

/-- Ports that hold a circuit of a list (R384). -/
def portsHolding (cs : List Nat) : List Nat := (cs.map (· / 24)).eraseDups

/-! The receive front (R128, R145, R146). -/

/-- The accepted receive-front settings of a circuit (R145). -/
def rxSettings (g : Nat → Option Int) (w : Settings) : Settings :=
  { w with
    agcTarget := pick (g 0) id w.agcTarget, agcDeadband := pick (g 1) Int.toNat w.agcDeadband, winFactor := pick (g 2) Int.toNat w.winFactor
    winGuard := pick (g 3) Int.toNat w.winGuard, eraseFrac := pick (g 4) Int.toNat w.eraseFrac, energyThresh := pick (g 5) Int.toNat w.energyThresh
    qualThresh := pick (g 6) Int.toNat w.qualThresh, corrThresh := pick (g 7) Int.toNat w.corrThresh
    captureMargin := pick (g 8) Int.toNat w.captureMargin }

/-- CIRCUIT_RX_CONFIG (R145, R384): circuit rows on each circuit of the set, SELF_GUARD on the device, FS_LEVEL on the ports that hold the set. -/
def execCircuitRxConfig (m : Nat) (s : State) : Result :=
  mailboxCommand 0x0230 0 (fun n => decide (13 ≤ n)) m s fun b =>
    let g := settingOf b 12 11
    let cs := circuitsOf b 0
    let ps := portsHolding cs
    checked
      (settingsOk b 12 [(-48, -24), (1, 6), (8, 32), (0, 8), (0, 3), (6, 30), (30, 80), (20, 80), (3, 12), (0, 20), (360, 560)]
        ++ [csetExists s b 0,
            (((g 9).isNone || !worn s (settingWordOf 0x0230)) && ((g 10).isNone || writable s (ps.map portSettingWord)), stWorn, 0)]) s
      (let t := cs.foldl (fun t c => modCirc c (fun x => { x with want := rxSettings g x.want }) t) s
       let t := match g 9 with
         | some v => mpHold (settingWordOf 0x0230) 0x0230 [v] { t with circ := { t.circ with selfGuard := v.toNat } }
         | none => t
       okay [] (match g 10 with
         | some v => storePorts ps (fun _ x => { x with rxFs := v.toNat }) t
         | none => t))

/-- AGC state codes, by their place in R128. -/
def agcCode : AgcState → Nat
  | .acquire => 0
  | .track => 1
  | .frozen => 2
  | .fixed => 3

/-- A noise power in 1/16 dBuV; before the model is initialised no rule gives its reading (R131). -/
def noiseWord (x : Circuit) (c k p : Nat) : Word :=
  BitVec.ofInt 64 (if noiseReady x then levelOf p else Config.derived 131 [(c : Int), (k : Int)])

/-- CIRCUIT_RX_STATUS (R146). -/
def execCircuitRxStatus (m : Nat) (s : State) : Result :=
  csetReadout 0x0231 m s anyMode
    (fun c =>
      let x := circOf s c
      [BitVec.ofNat 64 (agcCode x.agc), BitVec.ofNat 64 x.gain, noiseWord x c 0 x.noiseW, noiseWord x c 1 x.noiseT, noiseWord x c 2 x.noiseA,
       BitVec.ofInt 64 x.lastRssiT, BitVec.ofInt 64 x.lastSnrT, BitVec.ofInt 64 x.lastRssiA, BitVec.ofInt 64 x.lastSnrA,
       BitVec.ofInt 64 (feedOf s c).rssi, BitVec.ofInt 64 (feedOf s c).trainedSnr]) []

/-- The counters of `circuit.rx_counters` (R146). -/
def rxCtrs : List Ctr :=
  [.detectT, .detectA, .falseEnergy, .qualLate, .noSync, .headerFail, .shadowSwitch, .capture, .intruder, .unseated, .selfTx, .samplesLost, .overload,
   .timeout, .feedOverload, .rangeSpoiled, .winnowed, .impulses, .clippedTicks, .gainCmds]

/-- CIRCUIT_RX_COUNTERS (R146): read and cleared. -/
def execCircuitRxCounters (m : Nat) (s : State) : Result := csetReadout 0x0232 m s anyMode (fun c => ctrWords s c rxCtrs) rxCtrs

/-- CIRCUIT_AGC (R128, R146): FIXED sets its step with one command; AUTO leads from FIXED to ACQUIRE. -/
def execCircuitAgc (m : Nat) (s : State) : Result :=
  mailboxCommand 0x0233 0 (exactly 14) m s fun b =>
    checked [inRange b 12 0 1, inRange b 13 0 47, csetExists s b 0] s
      (okay [] ((circuitsOf b 0).foldl (fun t c => modCirc c (fun x =>
        if prmN b 12 = 1 then command (prmN b 13) false { x with agc := .fixed, inBand := 0 }
        else if x.agc = .fixed then { x with agc := .acquire, inBand := 0 }
        else x) t) s))

/-! Class A (R190, R195, R196). -/

/-- The counters of `circuit.ca_status` (R196). -/
def caCtrs : List Ctr := [.snapTrain, .snapStale, .grantMismatch, .arrivalOff, .xtRefLost, .xtRange]

/-- CIRCUIT_CA_STATUS (R196): the declared neighbours as a snapshot header holds them, the last arrival offset in ns and EQ_SINR, the counters. -/
def execCircuitCaStatus (m : Nat) (s : State) : Result :=
  csetReadout 0x0234 m s anyMode
    (fun c =>
      let x := circOf s c
      [nbrsWord s c, BitVec.ofInt 64 x.arrival, BitVec.ofInt 64 x.eqSinr] ++ ctrWords s c caCtrs) caCtrs

/-- CIRCUIT_CA_CONFIG (R195). -/
def execCircuitCaConfig (m : Nat) (s : State) : Result :=
  csetConfig 0x0235 [(20, 80), (1, 25), (0, 20)] m s anyMode fun g x =>
    { x with want := { x.want with
        caThresh := pick (g 0) Int.toNat x.want.caThresh, arrivalTol := pick (g 1) Int.toNat x.want.arrivalTol
        rateMargin := pick (g 2) Int.toNat x.want.rateMargin } }

/-- CIRCUIT_XT_SURVEY (R190, R381): 48 superframes in the background. -/
def execCircuitXtSurvey (m : Nat) (s : State) : Result :=
  mailboxCommand 0x0236 0 (exactly 1) m s fun b =>
    let g := prmN b 0
    checked
      [inRange b 0 0 15, (!(isH s && decide (8 ≤ g)), stResource, 0), nearOn s,
       ((seatsOf s.plan.active).any (fun w => placeActive w / 16 == g), stState, 0)] s
      (let f := drawFree s
       let near := f.1.toNat % 8388608 * 8
       okay [BitVec.ofNat 64 near] (addBackground (.xtSurvey g near f.2.sf.number) f.2))

/-! Class D (R213, R216, R217). -/

/-- CIRCUIT_CD_CONFIG (R216): in force from the next training. -/
def execCircuitCdConfig (m : Nat) (s : State) : Result :=
  csetConfig 0x0237 [(0, 2), (0, 20), (0, 2), (0, 1)] m s (feedMode s) fun g x =>
    { x with want := { x.want with
        cdPamMax := pick (g 0) Int.toNat x.want.cdPamMax, cdRateMargin := pick (g 1) Int.toNat x.want.cdRateMargin
        cdLift := pick (g 2) Int.toNat x.want.cdLift, cdThp := pick (g 3) Int.toNat x.want.cdThp } }

/-- Feed link state codes, by their place in the table of R213. -/
def feedStateCode : FeedState → Nat
  | .off => 0
  | .up => 1
  | .training => 2
  | .retrain => 3
  | .search => 4

/-- The counters of `circuit.cd_status` (R217). -/
def cdCtrs : List Ctr := [.trainFail, .linkLost, .tapRevert, .cdTimeStep, .blockFail]

/-- A direction's setting and precoding (R217): PAM and RATE codes of R210, and precoding, one word each. -/
def settingWords (d : FeedSetting) : List Word := [BitVec.ofNat 64 d.pam, BitVec.ofNat 64 d.rate, bitAt 0 d.thp]

/-- CIRCUIT_CD_STATUS (R217). -/
def execCircuitCdStatus (m : Nat) (s : State) : Result :=
  csetReadout 0x0238 m s (feedMode s)
    (fun c =>
      let f := feedOf s c
      [BitVec.ofNat 64 (feedStateCode f.state), BitVec.ofNat 64 (if f.fast then 0 else 1)] ++ settingWords f.dn ++ settingWords f.upw
      ++ [BitVec.ofInt 64 f.trainedSnr, BitVec.ofInt 64 f.snrOwn, BitVec.ofInt 64 f.trainedMse, BitVec.ofInt 64 f.mse, BitVec.ofInt 64 f.echoAtt,
          BitVec.ofNat 64 f.turnD]
      ++ ctrWords s c cdCtrs) cdCtrs

/-- One link's answer to `circuit.cd_retrain` (R213, R248): FULL trains from scratch; without it a link that is UP retrains, and one that is not
goes on as it is. -/
def retrainLink (full : Bool) (c : Nat) (s : State) : State :=
  if s.circ.profile = 0 ∨ (feedOf s c).state = .off then s
  else if full then train c s
  else if (feedOf s c).state = .up then retrain c s
  else s

/-- CIRCUIT_CD_RETRAIN (R213, R217). -/
def execCircuitCdRetrain (m : Nat) (s : State) : Result :=
  mailboxCommand 0x0239 0 (exactly 13) m s fun b =>
    let cs := circuitsOf b 0
    checked (inRange b 12 0 1 :: csetExists s b 0 :: cs.map (feedMode s)) s
      (okay [] (cs.foldl (fun t c => retrainLink (prmN b 12 == 1) c t) s))

/-! The chaff map and the codewords (R236 to R240). -/

/-- Sixteen words of counts, bin 0 in [63:48] of the first (R389). -/
def binWords (x : Circuit) : List Word :=
  (List.range 16).map fun i =>
    let n := fun (j : Nat) => tabGet 0 x.bins (4 * i + j)
    fieldAt 63 48 (n 0) ||| fieldAt 47 32 (n 1) ||| fieldAt 31 16 (n 2) ||| fieldAt 15 0 (n 3)

/-- CIRCUIT_CHAFF_MAP (R240, R389): read, and cleared on request. -/
def execCircuitChaffMap (m : Nat) (s : State) : Result :=
  mailboxCommand 0x023A 0 (exactly 2) m s fun b =>
    let c := prmN b 0
    let x := circOf s c
    checked [inRange b 0 0 767, inRange b 1 0 1, (circuitAvailable s c, stResource, 0)] s
      (okay (binWords x ++ [x.noisy, BitVec.ofNat 64 x.sinceHalving])
        (if prmN b 1 = 1 then setCirc c { x with bins := [], noisy := 0, sinceHalving := 0 } s else s))

/-- CIRCUIT_CHAFF_CONFIG (R239). -/
def execCircuitChaffConfig (m : Nat) (s : State) : Result :=
  csetConfig 0x023B [(1, 255), (2, 16), (0, 4), (4, 12), (0, 1)] m s anyMode fun g x =>
    { x with want := { x.want with
        chaffMin := pick (g 0) Int.toNat x.want.chaffMin, chaffFactor := pick (g 1) Int.toNat x.want.chaffFactor
        chaffGuard := pick (g 2) Int.toNat x.want.chaffGuard, chaffAge := pick (g 3) Int.toNat x.want.chaffAge
        chaffSteer := pick (g 4) Int.toNat x.want.chaffSteer } }

/-- The counters of `circuit.code_counters` (R240). -/
def codeCtrs : List Ctr := [.cwOk, .cwBad, .cwIter24]

/-- CIRCUIT_CODE_COUNTERS (R240): read and cleared. -/
def execCircuitCodeCounters (m : Nat) (s : State) : Result := csetReadout 0x023C m s anyMode (fun c => ctrWords s c codeCtrs) codeCtrs

/-! Transmit shaping (R251 to R259). -/

/-- A circuit with new densities: a density set anew carries no reduction. -/
def withPsd (g : Nat → Option Int) (x : Circuit) : Circuit :=
  let r := fun (k : Nat) => if (g k).isSome then 0 else x.reduced.getD k 0
  let put := fun (w : Settings) => { w with psdT := pick (g 0) id w.psdT, psdA := pick (g 1) id w.psdA, psdD := pick (g 2) id w.psdD }
  { x with want := put x.want, set := put x.set, reduced := [r 0, r 1, r 2] }

/-- The value word of a row that `circuit.tx_config` was given, for DETAIL. -/
def rowWord (b : Mailbox) (r : Nat) : Nat := 13 + (maskRows (prm b 12) r).length

/-- CIRCUIT_TX_CONFIG (R252, R253): the densities of the set's circuits, and TX_FS_LEVEL of the ports that hold them, whose other active circuits
keep the limit of R253 too. -/
def execCircuitTxConfig (m : Nat) (s : State) : Result :=
  mailboxCommand 0x023D 0 (fun n => decide (13 ≤ n)) m s fun b =>
    let g := settingOf b 12 4
    let cs := circuitsOf b 0
    let ps := portsHolding cs
    let fs := fun (c : Nat) => pick (g 3) Int.toNat (portOf s (c / 24)).txFs
    let others := if (g 3).isSome then (activeCircuits s).filter fun c => ps.contains (c / 24) && !cs.contains c else []
    let judged := cs.map (fun c => (c, withPsd g (circOf s c))) ++ others.map fun c => (c, circOf s c)
    checked
      (settingsOk b 12 [(-180, -110), (-180, -110), (-180, -110), (0, 160)] ++ csetExists s b 0
        :: ((List.range 3).map fun k =>
              ((g k).isNone || cs.all fun c => (capsKept s c (wantedPsd (withPsd g (circOf s c))) (wantedFilters (circOf s c))).getD k true,
               stRange, rowWord b k))
        ++ [(judged.all fun j => levelKept s j.1 (fs j.1) (wantedPsd j.2) (wantedFilters j.2), stRange, 13),
            ((g 3).isNone || writable s (ps.map portSettingWord), stWorn, 0)]) s
      (let t := cs.foldl (fun t c => modCirc c (withPsd g) t) s
       okay [] (match g 3 with
         | some v => storePorts ps (fun _ x => { x with txFs := v.toNat }) t
         | none => t))

/-- Taps 0 to 16 of the five words of `circuit.tx_filter` (R389). -/
def filterTaps (b : Mailbox) : List Int :=
  (List.range 17).map fun i => signedOf 16 (fieldOf (prm b (3 + i / 4)) (63 - 16 * (i % 4)) (48 - 16 * (i % 4)))

/-- CIRCUIT_TX_FILTER (R242, R253, R259). -/
def execCircuitTxFilter (m : Nat) (s : State) : Result :=
  mailboxCommand 0x023E 0 (exactly 8) m s fun b =>
    let c := prmN b 0
    let k := prmN b 1
    let x := circOf s c
    let f : Filter := if prmN b 2 = 1 then none else some (filterTaps b)
    let fs := (wantedFilters x).set k f
    checked
      [inRange b 0 0 767, inRange b 1 0 2, inRange b 2 0 1, (fieldOf (prm b 7) 47 0 == 0, stParam, 7), (circuitAvailable s c, stResource, 0),
       ((capsKept s c (wantedPsd x) fs).getD k true && levelKept s c (portOf s (c / 24)).txFs (wantedPsd x) fs, stRange, 3)] s
      (okay [] (setCirc c { x with filtersDue := some (fs.getD 0 none, fs.getD 1 none, fs.getD 2 none) } s))

/-- CIRCUIT_NOTCH (R255): in force from the next superframe boundary; the sections counted are those of the list as then accepted. -/
def execCircuitNotch (m : Nat) (s : State) : Result :=
  mailboxCommand 0x023F 0 (exactly 4) m s fun b =>
    let c := prmN b 0
    let x := circOf s c
    let n : Notch := { lo := prmN b 2, width := prmN b 3 }
    let old := wantedNotches x
    let new := if prmN b 1 = 2 then old.filter (· != n) else if old.contains n then old else old ++ [n]
    checked
      [inRange b 0 0 767, inRange b 1 1 2, inRange b 2 160 10000, inRange b 3 5 400, (decide (n.lo + n.width ≤ 10000), stRange, 3),
       (circuitAvailable s c, stResource, 0), (decide (sectionsOf s.circ.profile new ≤ 24), stResource, 0)] s
      (okay [BitVec.ofNat 64 (sectionsOf s.circ.profile new)] (setCirc c { x with notchesDue := if new = x.notches then none else some new } s))

/-- CIRCUIT_TX_STATUS (R259): sections in use, densities in force and reductions in 1/16 dB, TX_CLIP. -/
def execCircuitTxStatus (m : Nat) (s : State) : Result :=
  csetReadout 0x0243 m s anyMode
    (fun c =>
      let x := circOf s c
      let r := fun (k : Nat) => x.reduced.getD k 0
      [BitVec.ofNat 64 (sectionsOf s.circ.profile x.notches), BitVec.ofInt 64 (8 * (x.set.psdT - r 0)), BitVec.ofInt 64 (8 * (x.set.psdA - r 1)),
       BitVec.ofInt 64 (8 * (x.set.psdD - r 2)), BitVec.ofNat 64 (8 * r 0), BitVec.ofNat 64 (8 * r 1), BitVec.ofNat 64 (8 * r 2)]
      ++ ctrWords s c [.txClip]) [.txClip]

/-! Relays (R117, R215). -/

/-- CIRCUIT_RELAY (R117); a feed circuit takes no part in a relay (R215). -/
def execCircuitRelay (m : Nat) (s : State) : Result :=
  mailboxCommand 0x0240 0 (exactly 3) m s fun b =>
    let a := prmN b 0
    let d := prmN b 1
    checked
      [inRange b 0 0 767, inRange b 1 0 767, inRange b 2 1 2,
       (circuitAvailable s a && circuitAvailable s d && (prmN b 2 == 2 || (!isFeed s a && !isFeed s d)), stResource, 0),
       (prmN b 2 == 2 || (decide (s.port.relays.length < 16) && (relayTo s d).isNone), stResource, 0),
       (prmN b 2 == 1 || s.port.relays.contains (a, d), stState, 0)] s
      (okay [] { s with port := { s.port with
        relays := if prmN b 2 = 1 then s.port.relays ++ [(a, d)] else s.port.relays.filter (· != (a, d)) } })

/-- CIRCUIT_RELAY_STATUS (R389). -/
def execCircuitRelayStatus (m : Nat) (s : State) : Result :=
  mailboxCommand 0x0241 0 noWords m s fun _ =>
    okay (BitVec.ofNat 64 s.port.relays.length :: s.port.relays.map fun r => fieldAt 19 10 r.1 ||| fieldAt 9 0 r.2) s

/-! The superframe's circuit rows (R288). -/

/-- CIRCUIT_BEACON_CONFIG (R288). -/
def execCircuitBeaconConfig (m : Nat) (s : State) : Result :=
  csetConfig 0x0244 [(0, 20), (1, 4)] m s anyMode fun g x =>
    let put := fun (w : Settings) => { w with beaconMargin := pick (g 0) Int.toNat w.beaconMargin, sheetEntry := pick (g 1) Int.toNat w.sheetEntry }
    { x with want := put x.want, set := put x.set }

/-- The counters of `circuit.mac_counters` (R288). -/
def macCtrs : List Ctr := [.grantDrop, .pollFail, .expressSent, .expressPreempt, .expressOversize]

/-- CIRCUIT_MAC_COUNTERS (R288): the counters, then the last beacon form, by its row of R278, and NGRANT. -/
def execCircuitMacCounters (m : Nat) (s : State) : Result :=
  csetReadout 0x0245 m s anyMode
    (fun c => ctrWords s c macCtrs ++ [BitVec.ofNat 64 (circOf s c).beaconForm, BitVec.ofNat 64 (circOf s c).ngrant]) macCtrs

end Sys2Proof.Machine
end

