-- ==== Sys2Proof/Machine/CmdDevice.lean ====
section
/-! DEFINITION. Mailbox commands of the region profile, the superframe timer, the rings, the circuit keys and the LDPC pool
(spec/15_mailboxes_firmware.md R384, R388, R392, R393, R507; spec/10 R250, R259; spec/11 R261, R288; spec/14 R360, R364, R365; spec/16 R420; spec/09 R240). -/
namespace Sys2Proof.Machine

/-! The region profile (R246, R250, R259, R508). -/

/-- DEVICE_SET_REGION (R250, R508): at once while no superframe is counted, else from superframe s on; LOCK with the acceptance. -/
def execDeviceSetRegion (m : Nat) (s : State) : Result :=
  mailboxCommand 0x0120 0 (exactly 3) m s fun b =>
    let p := prmN b 0
    let lock := prmN b 2 == 1
    let profile := if counting s then s.circ.profile else p
    checked
      [scalarIs b 0 15 [0, 1, 2, 15].contains, sfOk b 1, inRange b 2 0 1, (!(s.circ.locked && decide (m < 24)), stResource, 0),
       (!(counting s && decide (prmN b 1 < s.sf.number + 16)), stBusy, 0), (!worn s (settingWordOf 0x0120), stWorn, 0)] s
      (let t := { s with circ := { s.circ with locked := lock } }
       let t := if counting s then { t with circ := { t.circ with profileDue := some (p, prmN b 1) } } else applyProfile p t
       okay [] (mpHold (settingWordOf 0x0120) 0x0120 (regionSetting profile lock) t))

/-- DEVICE_REGION_STATUS (R259): profile in force, pending profile and s, lock; the profile in force and 0 where none is pending. -/
def execDeviceRegionStatus (m : Nat) (s : State) : Result :=
  mailboxCommand 0x0121 0 noWords m s fun _ =>
    let due := s.circ.profileDue.getD (s.circ.profile, 0)
    okay [BitVec.ofNat 64 s.circ.profile, BitVec.ofNat 64 due.1, BitVec.ofNat 64 due.2, bitAt 0 s.circ.locked] s

/-! The superframe timer (R261, R263, R288, R507, R508). -/

/-- REF_LIST of its word (R388): the count, and the circuits from [39:30] down. -/
def refCount (w : Word) : Nat := fieldOf w 63 60
def refFields (w : Word) : List Nat := [fieldOf w 39 30, fieldOf w 29 20, fieldOf w 19 10, fieldOf w 9 0]
def refCircuits (w : Word) : List Nat := (refFields w).take (refCount w)

/-- The checks of a REF_LIST word at parameter `i`. -/
def refChecks (s : State) (w : Word) (i : Nat) : List (Bool × Nat × Nat) :=
  [(decide (refCount w ≤ 4), stRange, i), (fieldOf w 59 40 == 0 && ((refFields w).drop (refCount w)).all (· == 0), stParam, i),
   ((refCircuits w).all fun c => decide (c < 768), stRange, i), ((refCircuits w).all (circuitAvailable s), stResource, 0)]

/-- The stored settings of the superframe timer. -/
def sfSetting (mains : Nat) (refs : List Nat) (anchor : Int) : List Int := [(mains : Int), anchor] ++ refs.map Int.ofNat

/-- A change of MAINS_NOM, REF_LIST or ANCHOR_OFFSET (R263, R288): the crossings are kept where MAINS_NOM stays; the state follows the reference
that is then valid. -/
def sfChange (mains : Nat) (refs : List Nat) (anchor : Int) (s : State) : State :=
  let now := s.sf.mainsDue.getD s.sf.mainsNom
  let t := { s with sf := { s.sf with
    refList := refs, anchor := anchor, lockRun := 0
    refs := if mains = now then s.sf.refs else []
    mainsNom := if counting s then s.sf.mainsNom else mains
    mainsDue := if counting s ∧ mains ≠ s.sf.mainsNom then some mains else none } }
  match chosenRef t with
  | none => { t with sf := { t.sf with state := .free, ref := none } }
  | some _ => let u := followRef t; { u with sf := { u.sf with state := .slewing } }

/-- DEVICE_SF_CONFIG (R288): MAINS_NOM, REF_LIST, ANCHOR_OFFSET. -/
def execDeviceSfConfig (m : Nat) (s : State) : Result :=
  mailboxCommand 0x0122 0 (fun n => decide (1 ≤ n)) m s fun b =>
    let g := settingOf b 0 3
    let at_ := fun (r : Nat) => 1 + (maskRows (prm b 0) r).length
    let now := s.sf.mainsDue.getD s.sf.mainsNom
    let mains := pick (g 0) (fun v => if v = 1 then 60 else 50) now
    let refW := prm b (at_ 1)
    let refs := pick (g 1) (fun _ => refCircuits refW) s.sf.refList
    let anchor := pick (g 2) id s.sf.anchor
    checked
      (settingsOk b 0 [(0, 1), (-9223372036854775808, 9223372036854775807), (-9223372036854775808, 9223372036854775807)]
        ++ (if (g 1).isSome then refChecks s refW (at_ 1) else [])
        ++ [(decide (0 ≤ anchor ∧ anchor < lNomOf mains), stRange, if (g 2).isSome then at_ 2 else at_ 0),
            (mains == now || (activeCircuits s).isEmpty, stBusy, 0)]) s
      (storeSetting 0x0122 (sfSetting mains refs anchor) s
        (if mains = now ∧ refs = s.sf.refList ∧ anchor = s.sf.anchor then s else sfChange mains refs anchor s))

/-- A time in 1/16 ns as 1/256 tick, rounded half up (R507). -/
def tick256 (t : Int) : Int := (2 * t * 256 + 16000) / 32000

/-- DEVICE_SF_STATUS (R507): its counters are cleared. -/
def execDeviceSfStatus (m : Nat) (s : State) : Result :=
  mailboxCommand 0x0123 0 noWords m s fun _ =>
    okay
      [fieldAt 63 62 (sfCode s.sf.state) ||| fieldAt 39 0 s.sf.number, fieldAt 63 48 s.sf.len ||| fieldAt 47 38 (s.sf.ref.getD 0x3FF),
       BitVec.ofInt 64 (if s.sf.state = .free then 0 else tick256 s.sf.phi),
       BitVec.ofInt 64 (if s.sf.period = 0 then 256 * lNom s else tick256 s.sf.period), twoCounts s.sf.lockLoss s.sf.refSwitch]
      { s with sf := { s.sf with lockLoss := 0, refSwitch := 0 } }

/-! The rings (R360, R364, R365, R507). -/

/-- The settings a `device.ring_config` names. -/
def ringAsked (rx : Bool) (b : Mailbox) : Ring :=
  { base := prm b 2, size := prmN b 3, wb := prm b 4, vector := prmN b 5, modCount := prmN b 6, modTicks := prmN b 7
    xdb := if rx ∨ prmN b 8 = 0xFF then none else some (prmN b 8), history := prmN b 9 == 1 }
def sameRing (x y : Ring) : Bool :=
  x.base == y.base && x.size == y.size && x.wb == y.wb && x.vector == y.vector && x.modCount == y.modCount && x.modTicks == y.modTicks
  && x.xdb == y.xdb && x.history == y.history
def takeRing (y x : Ring) : Ring :=
  { x with base := y.base, size := y.size, wb := y.wb, vector := y.vector, modCount := y.modCount, modTicks := y.modTicks, xdb := y.xdb
           history := y.history }

/-- The express doorbells with a ring's binding changed (R363). -/
def bindXdb (q : Nat) (n : Option Nat) (t : Tab (Option Nat)) : Tab (Option Nat) :=
  let free := (List.range 16).foldl (fun t k => if tabGet none t k = some q then tabPut none t k none else t) t
  match n with
  | none => free
  | some k => tabPut none free k (some q)

/-- ENABLE set or cleared on a ring (R365). -/
def ringEnable (on : Bool) (x : Ring) : Ring :=
  match x.state, on with
  | .disabled, true => ringEnabled x
  | .draining, true => { x with enableDue := true }
  | .draining, false => { x with enableDue := false }
  | .enabled, false => { x with state := .draining }
  | .fault, false => { x with state := .draining }
  | _, _ => x

/-- DEVICE_RING_CONFIG (R364, R365). -/
def execDeviceRingConfig (m : Nat) (s : State) : Result :=
  mailboxCommand 0x0130 1 (exactly 11) m s fun b =>
    let rx := prmN b 0 == 1
    let q := prmN b 1
    let y := ringAsked rx b
    let x := ringOf rx s q
    let apart := fun (a n : Nat) => !inHdm s a n
    checked
      [inRange b 0 0 1, inRange b 1 0 255, (prmN b 2 % 4096 == 0 && apart (prmN b 2) (32 * prmN b 3), stRange, 2),
       scalarIs b 3 65536 (fun v => (List.range 11).any fun k => v == 64 * 2 ^ k), (prmN b 4 % 8 == 0 && apart (prmN b 4) 8, stRange, 4),
       inRange b 5 0 63, inRange b 6 1 256, inRange b 7 0 1023, scalarIs b 8 255 (fun v => rx || decide (v ≤ 15 ∨ v = 0xFF)),
       inRange b 9 0 (if rx then 1 else 0), inRange b 10 0 1, (domOn s 28 && s.host.up, stResource, 0),
       (x.state == .disabled || sameRing x y, stBusy, 0),
       (match y.xdb with
         | none => true
         | some k => (match tabGet none s.host.xdb k with
           | none => true
           | some r => r == q), stResource, 0)] s
      (let z := ringEnable (prmN b 10 == 1) (takeRing y x)
       let t := if rx then setRxRing q z s else setTxRing q z s
       okay [] (if rx then t else { t with host := { t.host with xdb := bindXdb q y.xdb t.host.xdb } }))

/-- Ring states (R507). -/
def ringCode : RingState → Nat
  | .disabled => 0
  | .enabled => 1
  | .draining => 2
  | .fault => 3

/-- DEVICE_RING_STATUS (R364, R507): RX_NOBUF is cleared. -/
def execDeviceRingStatus (m : Nat) (s : State) : Result :=
  mailboxCommand 0x0131 1 (exactly 2) m s fun b =>
    let rx := prmN b 0 == 1
    let q := prmN b 1
    let x := ringOf rx s q
    checked [inRange b 0 0 1, inRange b 1 0 255] s
      (okay [fieldAt 63 62 (ringCode x.state) ||| fieldAt 61 56 x.cause ||| fieldAt 47 32 x.tail ||| fieldAt 31 16 x.head
            ||| fieldAt 15 0 (if rx then ringHeld s q else x.accepted), fieldAt 63 32 x.noBuf]
        (if rx then modRxRing q (fun x => { x with noBuf := 0 }) s else s))

/-- DEVICE_RX_STEER (R360, R364): a ring word of 0xFFF or 0xFFFF is none. -/
def execDeviceRxSteer (m : Nat) (s : State) : Result :=
  mailboxCommand 0x0132 1 (exactly 3) m s fun b =>
    let a := prmN b 1
    let r := prmN b 2
    checked
      [inRange b 0 0 767, scalarIs b 1 0xFFF (fun a => decide (1 ≤ a ∧ a ≤ 0xEFF) || a == 0xFFF), scalarIs b 2 0xFFFF (fun r => decide (r ≤ 255) || r == 0xFFF || r == 0xFFFF),
       (circuitAvailable s (prmN b 0), stResource, 0)] s
      (okay [] { s with host := { s.host with
        steer := tabPut none s.host.steer (prmN b 0 * 4096 + a) (if r ≤ 255 then some r else none) } })

/-! Circuit keys (R420). -/

/-- A circuit key is in use: a circuit of the variant has it, or a rotation moves circuits to it. -/
def keyInUse (s : State) (k : Nat) : Bool :=
  ((List.range 768).any fun c => circuitExists s c && keyIdxOf s c == k) || s.sec.rotations.any fun r => r.keyIdx == k
def freeKey (s : State) : Option Nat := ((List.range 14).map (· + 1)).find? fun k => !keyInUse s k

/-- KEY_UPDATE of a circuit key (R420). -/
def keyUpdateWords (s : State) (k startSf : Nat) : List Word :=
  let x := slotOf s (8 + k)
  [fieldAt 63 56 8 ||| fieldAt 55 52 k ||| fieldAt 51 20 x.epoch, fieldAt 39 0 startSf, BitVec.ofNat 64 x.counter]
  ++ ((x.key.getD []) ++ List.replicate 4 0).take 4

/-- A circuit key drawn into its slot and wrapped for the records region (R420). -/
def makeKey (k epoch : Nat) (s : State) : State :=
  let d := drawDrbg 4 s
  let t := loadSlot (8 + k) d.1 true epoch 0 d.2
  let w := wrapStore [] (d.1.flatMap bytesBE) t
  { w.2 with sec := { w.2.sec with wrapped := tabPut [] w.2.sec.wrapped k (BitVec.ofNat 64 epoch :: w.1) } }

/-- ACTIVE records of a set of circuits, in the order of the records. -/
def activeOf (s : State) (cs : List Nat) : List Nat := (s.link.records.filter fun r => r.state == .active && cs.contains r.circuit).map (·.epId)

/-- SECURITY_CIRCUIT_KEY (R420): a free slot takes a new key, which the ACTIVE endpoints of the set learn; the set moves to it 16 superframes on. -/
def execSecurityCircuitKey (m : Nat) (s : State) : Result :=
  mailboxCommand 0x0603 0 (exactly 13) m s fun b =>
    let cs := circuitsOf b 0
    let epoch := s.sec.epochCount + 1
    let at_ := s.sf.number + 16
    checked
      [inRange b 12 1 1, csetExists s b 0, (domOn s 28 && domOn s 29, stResource, 0), ((freeKey s).isSome, stBusy, 0),
       (decide (s.sec.epochCount < 4294967295), 0x21, 0), (!worn s 1602, stWorn, 0)] s
      (let k := (freeKey s).getD 0
       let t := makeKey k epoch (mpWrite 1602 (BitVec.ofNat 64 epoch) { s with sec := { s.sec with epochCount := epoch } })
       let t := (activeOf t cs).foldl (fun u ep => sendControl ep (keyUpdateWords u k at_) u) t
       okay [BitVec.ofNat 64 epoch] { t with sec := { t.sec with
         rotations := t.sec.rotations ++ [{ circuits := cs, keyIdx := k, startSf := at_ }] } })

/-! The LDPC pool (R240). -/

/-- LDPC_STATUS (R240): each physical decoder's state, codewords decoded and last result, and the queue's highest depth, cleared with the counts. -/
def execLdpcStatus (m : Nat) (s : State) : Result :=
  mailboxCommand 0x0830 0 noWords m s fun _ =>
    okay ((List.range 34).flatMap (fun d =>
        let x := decoderOf s d
        [BitVec.ofNat 64 (decCode x.state), twoCounts x.decoded 0, bitAt 0 x.lastOk])
      ++ [BitVec.ofNat 64 s.ldpc.depth])
      ((List.range 34).foldl (fun t d => setDecoder d { decoderOf t d with decoded := 0 } t) { s with ldpc := { s.ldpc with depth := 0 } })

end Sys2Proof.Machine
end

