-- ==== Sys2Proof/Machine/CmdEndpoint.lean ====
section
/-! DEFINITION. Mailbox commands of the endpoints (spec/15_mailboxes_firmware.md R392; spec/12_link_procedures.md R289, R303, R304, R313, R316;
spec/07_class_a.md R191, R193). -/
namespace Sys2Proof.Machine

/-- The record an EP word names (R384). -/
def namedRecord (s : State) (w : Word) : Option Record := recordAt s (epCircuit w) (epAddr w)
/-- The check that it exists (R392), after that of its encoding; a circuit index beyond 767 is out of range. -/
def epChecks (s : State) (b : Mailbox) (i : Nat) : List (Bool × Nat × Nat) :=
  [epOk b i, (decide (epCircuit (prm b i) < 768), stRange, i), (circuitAvailable s (epCircuit (prm b i)), stResource, 0),
   ((namedRecord s (prm b i)).isSome, stNoEndpoint, 0)]

/-- Record state codes, by their place in R289. -/
def recCode : RecState → Nat
  | .active => 0
  | .asleep => 1
  | .absent => 2

/-- The halves of an EP_ID (R384). -/
def epIdWords (id : Nat) : List Word := [BitVec.ofNat 64 (id / 18446744073709551616), BitVec.ofNat 64 id]

/-- A record's line of `endpoint.list` (R316): EP_ID, address, epoch, state, route. An ABSENT record's address reads 0xFFF, a direct route 0. -/
def listWords (s : State) (r : Record) : List Word :=
  epIdWords r.epId ++ [BitVec.ofNat 64 (r.addr.getD 0xFFF), BitVec.ofNat 64 r.epoch, BitVec.ofNat 64 (recCode r.state), BitVec.ofNat 64 (routeWord s r)]

/-- Records in ascending order of their addresses. -/
def insertRecord (r : Record) : List Record → List Record
  | [] => [r]
  | x :: xs => if r.addr.getD 0xFFF ≤ x.addr.getD 0xFFF then r :: x :: xs else x :: insertRecord r xs
def circuitRecords (s : State) (c : Nat) : List Record := (s.link.records.filter fun r => r.circuit == c).foldr insertRecord []

/-- ENDPOINT_LIST (R316): the circuit's records from an index on. -/
def execEndpointList (m : Nat) (s : State) : Result :=
  mailboxCommand 0x0401 0 (exactly 2) m s fun b =>
    checked [inRange b 0 0 767, inRange b 1 0 16383, (circuitAvailable s (prmN b 0), stResource, 0)] s
      (okay (((circuitRecords s (prmN b 0)).drop (prmN b 1)).flatMap (listWords s)) s)

/-- A reported level; before the first report no rule gives its reading. -/
def reported (r : Record) (k : Nat) (o : Option Int) : Word := BitVec.ofInt 64 (o.getD (Config.derived 316 [(r.epId : Int), (k : Int)]))

/-- A record in full (R289, R316): identity, EP word, epoch, state, route, CAPS, the uplink window, the downlink window's next and oldest SEQ, the
session epoch, the snapshot's state, SNR_T and SINR_A as reported, EQ_SINR, the superframes last heard and of waking. -/
def recordWords (s : State) (r : Record) : List Word :=
  epIdWords r.epId
  ++ [epWord r.circuit (r.addr.getD 0xFFF), BitVec.ofNat 64 r.epoch, BitVec.ofNat 64 (recCode r.state), BitVec.ofNat 64 (routeWord s r),
      BitVec.ofNat 64 r.caps, BitVec.ofNat 64 r.upBase, r.upMap, BitVec.ofNat 64 r.dnNext,
      BitVec.ofNat 64 ((r.sent.head?.map (·.seq)).getD r.dnNext), BitVec.ofNat 64 r.sessionEpoch,
      BitVec.ofNat 64 (match r.snap.state with
        | .none => 0
        | .valid => 1
        | .stale => 2),
      reported r 0 r.snrT, reported r 1 r.sinrA, reported r 2 r.eqSinr, BitVec.ofNat 64 r.lastHeard,
      BitVec.ofNat 64 (if r.state = .asleep then r.wakeSf else 0)]

/-- ENDPOINT_STATUS (R316). -/
def execEndpointStatus (m : Nat) (s : State) : Result :=
  mailboxCommand 0x0402 0 (exactly 1) m s fun b =>
    checked (epChecks s b 0) s
      (match namedRecord s (prm b 0) with
       | some r => okay (recordWords s r) s
       | none => refuse stNoEndpoint 0 s)

/-- The record ends with the superframe (R289): LEAVE, evicted, goes to an ACTIVE one. -/
def evict (r : Record) (s : State) : State :=
  let t := modRecordId r.epId (fun r => { r with leaving := true }) s
  if r.state = .active then sendControl r.epId [fieldAt 63 56 7 ||| fieldAt 55 48 1] t else t

/-- ENDPOINT_EVICT (R289). -/
def execEndpointEvict (m : Nat) (s : State) : Result :=
  mailboxCommand 0x0403 0 (exactly 1) m s fun b =>
    checked (epChecks s b 0) s
      (match namedRecord s (prm b 0) with
       | some r => okay [] (evict r s)
       | none => refuse stNoEndpoint 0 s)

/-- ENDPOINT_READDRESS (R303, R392). -/
def execEndpointReaddress (m : Nat) (s : State) : Result :=
  mailboxCommand 0x0404 0 (exactly 1) m s fun b =>
    checked (epChecks s b 0) s
      (match namedRecord s (prm b 0) with
       | some r => if r.state = .active then okay [] (startReaddress r.epId s) else refuse stState 0 s
       | none => refuse stNoEndpoint 0 s)

/-! Repeaters (R313). -/

/-- A repeater's assignment (R313): its far endpoints by EP_ID, and RELAY_ASSIGN to it. -/
def setRepeater (ep slot : Nat) (far : List Nat) (s : State) : State :=
  sendRelay ep (modRecordId ep (fun r => { r with repeats := !far.isEmpty, rbSlot := slot, far := far }) s)

/-- ENDPOINT_SET_REPEATER (R313, R392): a far endpoint does not repeat, and a repeater is no far endpoint. -/
def execEndpointSetRepeater (m : Nat) (s : State) : Result :=
  mailboxCommand 0x0405 0 (fun n => decide (4 ≤ n ∧ n ≤ 12)) m s fun b =>
    let w := prm b 0
    let n := prmN b 3
    let add := prmN b 1 == 1
    let fars := prms b 4 n
    checked
      ([epOk b 0, inRange b 1 1 2, inRange b 2 (if add then 64 else 0) (nFixOf s.sf.mainsNom - 1), inRange b 3 (if add then 1 else 0) 8,
        countIs b (4 + n)]
        ++ ((List.range n).map fun i => epOk b (4 + i)) ++ epChecks s b 0
        ++ [(fars.all fun v => circuitAvailable s (epCircuit v), stResource, 0)]
        ++ (if add then (fars.map fun v => ((namedRecord s v).isSome || epCircuit v != epCircuit w, stNoEndpoint, 0)) else [])) s
      (match namedRecord s w with
       | none => refuse stNoEndpoint 0 s
       | some r =>
         let bad := fun (v : Word) => epCircuit v != r.circuit || epAddr v == epAddr w
           || (match namedRecord s v with
               | some x => x.repeats || (viaOf s x).any (·.epId != r.epId)
               | none => true)
         if isFeed s r.circuit then refuse stState 0 s
         else if !add then okay [] (setRepeater r.epId 0 [] s)
         else if r.caps / 128 % 2 = 0 ∨ (viaOf s r).isSome = true ∨ fars.any bad = true then refuse stState 0 s
         else okay [] (setRepeater r.epId (prmN b 2) (fars.filterMap fun v => (namedRecord s v).map (·.epId)) s))

/-! Counters and settings (R316). -/

/-- The counters of `endpoint.link_counters` (R316). -/
def linkCtrs : List Ctr :=
  [.joinUnknown, .joinAuthFail, .joinAbandon, .readdressOk, .unknownSrc, .duplicate, .seqOut, .gapSkip, .reasmTimeout, .lenErr, .checkFail, .tagFail,
   .cwFail]

/-- ENDPOINT_LINK_COUNTERS (R316): read and cleared. -/
def execEndpointLinkCounters (m : Nat) (s : State) : Result := csetReadout 0x0406 m s anyMode (fun c => ctrWords s c linkCtrs) linkCtrs

/-- The keep-store word of a circuit's link settings, and its value (R440). -/
def linkWord (c : Nat) : Nat := 1859 + c
def linkValue (w : Settings) : Word :=
  fieldAt 63 48 w.retain ||| fieldAt 41 32 (w.liveness - 1) ||| fieldAt 29 24 (w.servicePeriod - 1) ||| fieldAt 23 16 (w.joinPeriod - 1)

/-- The link settings a circuit would hold (R316). -/
def linkSettings (g : Nat → Option Int) (w : Settings) : Settings :=
  { w with
    retain := pick (g 0) Int.toNat w.retain, liveness := pick (g 1) Int.toNat w.liveness, servicePeriod := pick (g 2) Int.toNat w.servicePeriod
    joinPeriod := pick (g 3) Int.toNat w.joinPeriod }

/-- ENDPOINT_LINK_CONFIG (R316, R440): in force on the head-end from the next superframe boundary. -/
def execEndpointLinkConfig (m : Nat) (s : State) : Result :=
  mailboxCommand 0x0407 0 (fun n => decide (13 ≤ n)) m s fun b =>
    let g := settingOf b 12 4
    let cs := circuitsOf b 0
    let new := fun (c : Nat) => linkSettings g (circOf s c).want
    checked
      (settingsOk b 12 [(1, 65535), (16, 1024), (1, 64), (1, 256)]
        ++ [csetExists s b 0,
            (cs.all (fun c => decide (4 * (new c).servicePeriod ≤ (new c).liveness)) || ((g 1).isNone && (g 2).isNone), stRange,
              rowWord b (if (g 2).isSome then 2 else 1)),
            (writable s (cs.map linkWord), stWorn, 0)]) s
      (okay [] (cs.foldl (fun t c => mpWrite (linkWord c) (linkValue (new c)) (modCirc c (fun x => { x with want := new c }) t)) s))

/-- ENDPOINT_DENY (R295, R316). -/
def execEndpointDeny (m : Nat) (s : State) : Result :=
  mailboxCommand 0x0408 0 (exactly 4) m s fun b =>
    let d := (prmN b 0, epIdOf b 1)
    checked [inRange b 0 0 767, inRange b 3 1 2, (circuitAvailable s (prmN b 0), stResource, 0)] s
      (okay [] { s with link := { s.link with
        denied := if prmN b 3 = 2 then s.link.denied.filter (· != d) else if s.link.denied.contains d then s.link.denied else s.link.denied ++ [d] } })

/-! Snapshots (R191, R193, R196). -/

/-- The 100 words of a snapshot (R191). -/
def snapWords (r : Record) : List Word :=
  let n := r.snap
  let st := match n.state with
    | .none => 0
    | .valid => 1
    | .stale => 2
  [fieldAt 63 62 st ||| fieldAt 61 52 r.circuit ||| fieldAt 51 40 (r.addr.getD 0xFFF) ||| fieldAt 39 0 n.sf, n.nbrs ||| fieldAt 15 0 n.calEpoch,
   fieldAt 63 48 (twosOf 16 n.mse) ||| fieldAt 47 32 (twosOf 16 n.eqSinr) ||| fieldAt 31 16 (twosOf 16 n.freq), 0]
  ++ (n.taps ++ List.replicate 96 0).take 96

/-- ENDPOINT_CA_SNAPSHOT (R193, R196). -/
def execEndpointCaSnapshot (m : Nat) (s : State) : Result :=
  mailboxCommand 0x0420 0 (exactly 2) m s fun b =>
    checked ([epOk b 0, inRange b 1 1 2] ++ epChecks s b 0 ++ [nearOn s]) s
      (match namedRecord s (prm b 0) with
       | none => refuse stNoEndpoint 0 s
       | some r =>
         if prmN b 1 = 1 then nearReport m (snapWords r) s
         else okay [] (modRecordId r.epId (fun r => { r with snap := {} }) s))

end Sys2Proof.Machine
end

