-- ==== Sys2Proof/Machine/CmdTime.lean ====
section
/-! DEFINITION. Mailbox commands of the time service (spec/15_mailboxes_firmware.md R392, R507; spec/13_time_service.md R322 to R326, R333, R337, R343,
R344, R506). -/
namespace Sys2Proof.Machine

/-- A source's word of `time.status` (R507): that of the evidence record, with its traceability in bit 54. -/
def sourceStatus (s : State) (k : Nat) : Word := sourceWord s k ||| bitAt 54 (srcOf s k).traceable

/-- TIME_STATUS (R507): its counters are cleared. -/
def execTimeStatus (m : Nat) (s : State) : Result :=
  mailboxCommand 0x0501 0 noWords m s fun _ =>
    okay ([tkuStatus s, BitVec.ofInt 64 s.tku.freqAdj, sourceStatus s 1, sourceStatus s 2, sourceStatus s 3, sourceStatus s 4,
        (match bTku s with
         | some b => BitVec.ofNat 64 b
         | none => BitVec.ofNat 64 18446744073709551615)]
      ++ (match liveModel s with
          | some x => modelWords x
          | none => [0, 0, 0, 0])
      ++ [twoCounts s.tku.switches s.tku.jumps, twoCounts s.tku.todErr s.tku.todMismatch, fieldAt 63 32 s.tku.steps])
      { s with tku := { s.tku with switches := 0, jumps := 0, todErr := 0, todMismatch := 0, steps := 0 } }

/-- The four source codes of SRC_PRIORITY, the first in [15:12], name each source once (R344, R392). -/
def priorityCodes (v : Int) : List Nat := let n := v.toNat; [n / 4096 % 16, n / 256 % 16, n / 16 % 16, n % 16]
def priorityOk (v : Int) : Bool := decide (0 ≤ v ∧ v < 65536) && [1, 2, 3, 4].all (priorityCodes v).contains

/-- The time settings with the values given (R344). -/
def timeSettings (g : Nat → Option Int) (w : TimeSettings) : TimeSettings :=
  let on := fun (v : Int) => v == 1
  { priority := pick (g 0) priorityCodes w.priority, ppsDelay0 := pick (g 1) Int.toNat w.ppsDelay0, ppsDelay1 := pick (g 2) Int.toNat w.ppsDelay1
    srcBound0 := pick (g 3) Int.toNat w.srcBound0, srcBound1 := pick (g 4) Int.toNat w.srcBound1, srcTrace0 := pick (g 5) on w.srcTrace0
    srcTrace1 := pick (g 6) on w.srcTrace1, maxSrcBound := pick (g 7) Int.toNat w.maxSrcBound, hostMaxBound := pick (g 8) Int.toNat w.hostMaxBound
    jumpLimit := pick (g 9) Int.toNat w.jumpLimit, loopTc := pick (g 10) Int.toNat w.loopTc, traceLimit := pick (g 11) Int.toNat w.traceLimit
    ppsWidth := pick (g 12) Int.toNat w.ppsWidth, outComp0 := pick (g 13) Int.toNat w.outComp0, outComp1 := pick (g 14) Int.toNat w.outComp1
    squelch := pick (g 15) on w.squelch }

/-- The settings as integers, for their configuration word. -/
def settingInts (w : TimeSettings) : List Int :=
  let b := fun (x : Bool) => if x then (1 : Int) else 0
  (w.priority ++ [w.ppsDelay0, w.ppsDelay1, w.srcBound0, w.srcBound1]).map Int.ofNat ++ [b w.srcTrace0, b w.srcTrace1]
  ++ [w.maxSrcBound, w.hostMaxBound, w.jumpLimit, w.loopTc, w.traceLimit, w.ppsWidth, w.outComp0, w.outComp1].map Int.ofNat ++ [b w.squelch]

/-- The rows of `time.source_config` (R344, R392). -/
def timeRows : List (Int × Int) :=
  [(0, 65535), (0, 1048575), (0, 1048575), (1, 1000), (1, 1000), (0, 1), (0, 1), (10, 10000), (10, 100000), (100, 10000), (10, 1000), (10, 1000),
   (1, 500000), (0, 1048575), (0, 1048575), (0, 1)]

/-- TIME_SOURCE_CONFIG (R344, R392): in force from the next second. -/
def execTimeSourceConfig (m : Nat) (s : State) : Result :=
  mailboxCommand 0x0502 0 (fun n => decide (1 ≤ n)) m s fun b =>
    let g := settingOf b 0 16
    let n := timeSettings g (s.tku.settingsDue.getD s.tku.settings)
    checked (settingsOk b 0 timeRows ++ [((g 0).all priorityOk, stRange, 1)]) s
      (storeSetting 0x0502 (settingInts n) s { s with tku := { s.tku with settingsDue := some n } })

/-- TIME_SET_TAI (R344, R392): only in ACQUIRE; the seconds apply at the next whole second. -/
def execTimeSetTai (m : Nat) (s : State) : Result :=
  mailboxCommand 0x0503 0 (exactly 4) m s fun b =>
    checked
      [(decide (prmN b 0 < 2 ^ 48), stParam, 0), (decide (prmN b 1 < 65536), stParam, 1), inRange b 2 0 2, (decide (prmN b 3 < 2 ^ 48), stParam, 3),
       (s.tku.state == .acquire, stState, 0)] s
      (okay [] { s with tku := { s.tku with
        taiDue := some (prmN b 0), utcOffset := signedOf 16 (prmN b 1), leap := prmN b 2, leapAt := prmN b 3 } })

/-- An offset of the HOST source (R322 to R325, R506): the fourth of consecutive seconds within HOST_MAX_BOUND qualifies it. -/
def hostOffset (sec : Nat) (offset : Int) (bound : Nat) (trace : Bool) (s : State) : State :=
  let x := srcOf s 4
  let run := if x.disq || decide (s.tku.settings.hostMaxBound < bound) then 0
    else if x.lastSec.any fun l => l + 1 == sec then x.run + 1 else 1
  jumpCheck 4 (setSrc 4 { x with
    run := run, qualified := x.qualified || decide (4 ≤ run), phase := - offset, bound := bound, fresh := true, traceable := trace
    lastSec := some sec, lastAt := s.clk.now } s)

/-- TIME_HOST_OFFSET (R325, R392): one for a second more than 2 s old ends in TIMEOUT. -/
def execTimeHostOffset (m : Nat) (s : State) : Result :=
  mailboxCommand 0x0504 0 (exactly 3) m s fun b =>
    checked
      [(decide (prmN b 0 < 2 ^ 48), stParam, 0), (fieldOf (prm b 2) 62 32 == 0, stParam, 2),
       (decide (s.tku.devUs ≤ 1000000 * (prmN b 0 + 2)), stTimeout, 0)] s
      (okay [] (hostOffset (prmN b 0) (intOf (prm b 1)) (fieldOf (prm b 2) 31 0) (bitOf (prm b 2) 63) s))

/-- TIME_RESYNC (R327). -/
def execTimeResync (m : Nat) (s : State) : Result := mailboxCommand 0x0505 0 noWords m s fun _ => okay [] (toAcquire s)

/-- TIME_EVIDENCE_RING (R343, R485): PROD and CONS start at zero. -/
def execTimeEvidenceRing (m : Nat) (s : State) : Result :=
  mailboxCommand 0x0506 1 (exactly 2) m s fun b =>
    checked
      [(prmN b 0 % 4096 == 0, stRange, 0),
       scalarIs b 1 65536 [16, 32, 64, 128, 256, 512, 1024, 2048, 4096, 8192, 16384, 32768, 65536].contains, nearOn s] s
      (okay [] { s with ev := { s.ev with named := true, base := prm b 0, count := prmN b 1, prod := 0, cons := 0, due := [] } })

/-- An endpoint's items (R344): D and the last theta in 1/16 ns, W in 1/16 ns, hops, UNRANGED, RANGE_MISS, RANGE_OUTLIER. What no measurement
has given yet has no reading that a rule states. -/
def rangeWords (s : State) (r : Record) : List Word :=
  let none_ := fun (k : Nat) => Config.derived 344 [(r.epId : Int), (k : Int)]
  [BitVec.ofInt 64 (if r.range.dist.isEmpty then none_ 0 else medianInt r.range.dist), BitVec.ofInt 64 (r.range.theta.head?.getD (none_ 1)),
   (match worstError s r with
    | some w => BitVec.ofNat 64 w
    | none => BitVec.ofInt 64 (none_ 2)),
   BitVec.ofNat 64 (if (viaOf s r).isSome then 1 else 0), bitAt 0 r.range.unranged, twoCounts r.range.missCount r.range.outlierCount]

/-- TIME_ENDPOINT_STATUS (R344, R392): in the order of EP words. -/
def execTimeEndpointStatus (m : Nat) (s : State) : Result :=
  mailboxCommand 0x0507 0 (fun n => decide (2 ≤ n ∧ n ≤ 113)) m s fun b =>
    let n := prmN b 0
    let ws := prms b 1 n
    checked
      ([inRange b 0 1 112, countIs b (n + 1)] ++ ((List.range n).map fun i => epOk b (1 + i))
        ++ [(ws.all (fun w => circuitAvailable s (epCircuit w)), stResource, 0), (ws.all (fun w => (namedRecord s w).isSome), stNoEndpoint, 0)]) s
      (okay ((sortWords BitVec.toNat ws).flatMap fun w => ((namedRecord s w).map (rangeWords s)).getD []) s)

/-- The ranging settings as integers, for their configuration word: the periods and the reject limits of the circuits that have one of their own. -/
def rangeInts (n : Tab Nat × Tab Nat) : List Int :=
  let flat := fun (t : Tab Nat) => t.flatMap fun e => [(e.1 : Int), (e.2 : Int)]
  (n.1.length : Int) :: (flat n.1 ++ flat n.2)

/-- TIME_RANGE_CONFIG (R344): in force from the next second. -/
def execTimeRangeConfig (m : Nat) (s : State) : Result :=
  mailboxCommand 0x0508 0 (fun n => decide (13 ≤ n)) m s fun b =>
    let g := settingOf b 12 2
    let cs := circuitsOf b 0
    let old := s.link.rangeDue.getD (s.link.rangePeriod, s.link.rangeReject)
    let put := fun (d : Nat) (o : Option Int) (t : Tab Nat) => match o with
      | some v => cs.foldl (fun t c => tabPut d t c v.toNat) t
      | none => t
    checked (settingsOk b 12 [(4, 4096), (2, 100)] ++ [csetExists s b 0]) s
      (let n := (put 64 (g 0) old.1, put 10 (g 1) old.2)
       storeSetting 0x0508 (rangeInts n) s { s with link := { s.link with rangeDue := some n } })

/-- TIME_MODEL (R326, R392): reads the model, all zero where there is none, or clears it with its words. -/
def execTimeModel (m : Nat) (s : State) : Result :=
  mailboxCommand 0x0509 0 (exactly 1) m s fun b =>
    let clear := prmN b 0 == 2
    checked [inRange b 0 1 2, (!clear || writable s [256, 257, 258, 259, 260], stWorn, 0)] s
      (if clear then okay [] (mpWrites (atWords 256 [0, 0, 0, 0, 0]) { s with tku := { s.tku with model := none } })
       else okay (match liveModel s with
         | some x => modelWords x
         | none => [0, 0, 0, 0]) s)

/-- TIME_PEER_CONFIG (R344, R463): in force from the next second. -/
def execTimePeerConfig (m : Nat) (s : State) : Result :=
  mailboxCommand 0x050A 0 (exactly 1) m s fun b =>
    let roles := priorityCodes (prmN b 0)
    checked [(decide (prmN b 0 < 65536), stParam, 0), (roles.all fun r => decide (r ≤ 2), stRange, 0)] s
      (storeSetting 0x050A (roles.map Int.ofNat) s { s with tku := { s.tku with peerRoleDue := some roles } })

end Sys2Proof.Machine
end

