-- ==== Sys2Proof/Machine/Scheduler.lean ====
section
/-! DEFINITION. The grant scheduler and the hardware's check of grant lists (spec/11_superframe.md R267, R268, R279, R281 to R285, spec/01_architecture.md R41, R42,
R44, spec/02 R49, R50, spec/06 R162, R168, spec/07 R179, R183, R190, R193, spec/09 R237, R238, spec/12 R291, R295, R298, R302, R303, R307, R313 to R315,
spec/13 R332 to R336). What the rules leave to the scheduler, which endpoints it grants and where, is the list that GRANT_LIST_HANDOVER brings: the scheduler
gives each entry its setting, keeps those that the rules allow and adds those that they demand. -/
namespace Sys2Proof.Machine

/-! The check of grant entries (R281, R284). -/

/-- SETTING of the Class T kinds (R156, R281). -/
def setPsf (a : Nat) : Nat := a / 16384 % 4
def setRateT (a : Nat) : Nat := a / 2048 % 8
def setLiftT (a : Nat) : Nat := a / 512 % 4
def setReply (a : Nat) : Nat := a / 4 % 128

/-- No reserved KIND or encoding, and ADDR 0xFFF on JOIN only (R281). -/
def grantCoded (g : Grant) : Bool :=
  decide (1 ≤ g.slots ∧ g.slots ≤ 128) && (g.addr != 0xFFF || g.gtype == 5)
  && (if g.gtype = 1 ∨ g.gtype = 4 then decide (setMod g.arg ≤ 5 ∧ setSf g.arg ≤ 4 ∧ setRate g.arg ≤ 4 ∧ setLift g.arg ≤ 2)
      else if g.gtype = 2 ∨ g.gtype = 3 ∨ g.gtype = 5 then
        decide (setPsf g.arg ≠ 0 ∧ setRateT g.arg ≤ 4 ∧ setLiftT g.arg ≤ 2) && (g.gtype != 3 || setReply g.arg != 0)
      else false)
/-- Every slot lies in the data region (R260, R265, R283). -/
def grantPlaced (nFix : Nat) (g : Grant) : Bool := decide (64 ≤ g.slot ∧ g.slot + g.slots ≤ nFix)
/-- A slot of the grant is an express slot (R266). -/
def coversExpress (g : Grant) : Bool := (List.range g.slots).any fun i => (g.slot + i) % 8 == 7
/-- Two grants share a slot. -/
def slotsMeet (g h : Grant) : Bool := decide (g.slot < h.slot + h.slots ∧ h.slot < g.slot + g.slots)
/-- Two grants share a slot of a circuit in one band. -/
def grantsMeet (g h : Grant) : Bool := g.circuit == h.circuit && grantBand g == grantBand h && slotsMeet g h
/-- An entry passes the check after the entries already taken (R284). -/
def grantPasses (nFix : Nat) (taken : List Grant) (g : Grant) : Bool :=
  grantCoded g && grantPlaced nFix g && !taken.any (grantsMeet g) && !(grantBand g == 1 && coversExpress g)

/-- GRANT_DROP (R284, R459). -/
def dropGrant (g : Grant) (s : State) : State :=
  let t := { s with pair := { s.pair with ledger := s.pair.ledger ||| bitAt 3 true } }
  if g.circuit < 768 then modCirc g.circuit (bump .grantDrop) t else t

/-- The check of a list, in its order (R284): the entries taken, and the state with the drops counted. -/
def checkGrants (nFix : Nat) : List Grant → List Grant → State → List Grant × State
  | [], taken, s => (taken, s)
  | g :: gs, taken, s =>
    if grantPasses nFix taken g then checkGrants nFix gs (taken ++ [g]) s else checkGrants nFix gs taken (dropGrant g s)

/-! Settings (R162, R183, R193). -/

/-- SETTING of a CA_UP or POLL. -/
def argA (e : Nat × Nat × Nat) (lift : Nat) (train : Bool) : Nat :=
  e.1 * 8192 + e.2.1 * 1024 + e.2.2 * 128 + lift * 32 + (if train then 16 else 0)
/-- The header of a Class A uplink of so many codewords at a SETTING. -/
def headOfA (arg ncw : Nat) : Word := aHeader 0 (setMod arg) (setSf arg) (setLift arg) (setRate arg) ncw (setTrain arg) 0
/-- The header of a Class T PPDU at a SETTING. -/
def headOfT (arg ncw : Nat) : Word := tHeader 2 (setPsf arg) 0 (setLiftT arg) (setRateT arg) ncw 0

/-- A CA_UP or POLL at the endpoint's setting: the ladder's, in the training form where the snapshot is NONE or STALE or there is no EQ_SINR; its LIFT is the
list's (R183, R193). Other kinds keep theirs. -/
def settle (s : State) (g : Grant) : Grant :=
  if grantBand g = 1 then
    match recordAt s g.circuit g.addr with
    | none => g
    | some r => { g with arg := argA (ladderSetting r.eqSinr (marginOf s g.circuit)) (setLift g.arg)
                                  (r.snap.state != .valid || r.eqSinr.isNone || setTrain g.arg) }
  else g
/-- The same at the highest entry from 1 to 4 that the SINR allows (R238). -/
def lowered (s : State) (g : Grant) : Grant :=
  let n := ((recordAt s g.circuit g.addr).map fun r => entryFor r.eqSinr (marginOf s g.circuit)).getD 0
  let e := rateLadder.getD (min n 4 - 1) (0, 0, 0)
  { g with arg := argA (e.1, 0, e.2.1) (setLift g.arg) (setTrain g.arg) }

/-- A Class T SETTING for a frame of so many bytes, and its slots: QPSK at SF 31 (DESIGN CHOICE: R162 leaves PSF open; the worked example of chapter 11 uses it), the
lowest rate whose PPDU fits 128 slots, LIFT by R183. -/
def argT (bytes : Nat) : Nat × Nat :=
  let try_ := fun (r : Nat) =>
    let l := liftFor r bytes
    let a := 3 * 16384 + r * 2048 + l.1 * 512
    (a, (tTicks (headOfT a l.2) + 24) / 25)
  (((List.range 5).map try_).find? fun x => decide (x.2 ≤ 128)).getD (try_ 4)

/-! What the rules demand of an entry (R283). -/

/-- First superframe tick and ticks of what the head-end sends in a grant: a POLL (R285), or the RANGE_REQ at the grant's setting (R282, R332). -/
def grantDown (g : Grant) : Option (Nat × Nat) :=
  if g.gtype = 4 then some (25 * g.slot, aTicks (headOfA g.arg 1))
  else if g.gtype = 3 then some (25 * g.slot, tTicks (headOfT g.arg (liftFor (setRateT g.arg) 44).2))
  else none
/-- The superframe ticks of a grant's uplink: from the first to before the second (R282, R285). -/
def grantUp (g : Grant) : Nat × Nat :=
  let last := 25 * (g.slot + g.slots)
  match grantDown g with
  | none => (25 * g.slot, last)
  | some (a, n) => if g.gtype = 3 then (25 * (g.slot + setReply g.arg), last) else (a + n + 5, last)
/-- A downlink of n ticks from tick a keeps its 6 ticks before an uplink, or comes after it (R267). -/
def downClear (a n : Nat) (up : Nat × Nat) : Bool := decide (a + n + 5 ≤ up.1 ∨ up.2 ≤ a)
/-- The downlink of one grant and the uplink of the other keep clear. -/
def gapOk (g h : Grant) : Bool :=
  g.circuit != h.circuit || (match grantDown g with
    | none => true
    | some (a, n) => downClear a n (grantUp h))
/-- The shortest PPDU of the grant's setting fits it (R162, R179), with its answer or reply. -/
def grantFits (g : Grant) : Bool :=
  let up := grantUp g
  decide (up.1 + (if grantBand g = 1 then aTicks (headOfA g.arg 1) else tTicks (headOfT g.arg 1)) ≤ up.2) && gapOk g g
/-- Expected arrival levels differ by no more than 20 dB, and the endpoints are two (R168, R283). A JOIN's level is not known, so nothing overlaps it. -/
def levelOk (s : State) (g h : Grant) : Bool :=
  g.circuit != h.circuit || grantBand g == grantBand h || !slotsMeet g h
  || (g.addr != h.addr && (match recordAt s g.circuit g.addr, recordAt s h.circuit h.addr with
      | some a, some b => decide ((a.rssi - b.rssi).natAbs ≤ 320)
      | _, _ => false))

/-- The capacities of a group's seats, less the seat that a survey withholds (R41, R50, R190). -/
def seatPool (s : State) (gr : Nat) : List Nat :=
  let cs := ((seatsOf s.plan.active).filter fun w => placeActive w / 16 == gr).map placeCap
  let held := s.mb.background.any fun b => match b with
    | .xtSurvey k _ _ => k == gr
    | _ => false
  if held then cs.erase (cs.foldl max 0) else cs
/-- The declared neighbours of a circuit. -/
def nbrCount (s : State) (c : Nat) : Nat := ((circuitRec s.plan.active c).map fun w => (circNbrs w).length).getD 0
/-- In every slot of a grant the Class A uplinks of its group find seats of their capacity (R42): for each capacity no more receptions need it than seats
have it. -/
def seatsHold (s : State) (taken : List Grant) (g : Grant) : Bool :=
  grantBand g == 0
  || (let gr := g.circuit / 48
      let pool := seatPool s gr
      let all := (g :: taken).filter fun h => grantBand h == 1 && h.circuit / 48 == gr
      (List.range g.slots).all fun i => [0, 1, 2, 3, 4].all fun k =>
        decide ((all.filter fun h => decide (h.slot ≤ g.slot + i ∧ g.slot + i < h.slot + h.slots) && decide (k ≤ nbrCount s h.circuit)).length
          ≤ (pool.filter (k ≤ ·)).length))

/-- The cluster and slot whose reserve a RANGE books (R49, R164). -/
def rangeBooking (s : State) (g : Grant) : Option (Option Nat × Nat) :=
  if g.gtype = 3 then some (slotZero s.plan.active g.circuit, g.slot + setReply g.arg) else none

/-- A Class A uplink at entry 5 or above on a circuit with CHAFF_STEER on (R238). -/
def steered (s : State) (g : Grant) : Bool :=
  grantBand g == 1 && (circOf s g.circuit).set.chaffSteer == 1 && setSf g.arg == 0
  && ((recordAt s g.circuit g.addr).any fun r => decide (5 ≤ entryFor r.eqSinr (marginOf s g.circuit)))
/-- Its slots are noisy in the next superframe. -/
def noisyAt (s : State) (g : Grant) : Bool := ticksNoisy s g.circuit (s.sf.lenNext.getD s.sf.len) (25 * g.slot) (25 * g.slots)

/-- Whom an entry names (R282, R295, R302, R303): an ACTIVE endpoint, the address that a join or a re-addressing waits on, or nobody for a JOIN. -/
def addressed (s : State) (g : Grant) : Bool :=
  if g.gtype = 5 then g.addr == 0xFFF
  else (match recordAt s g.circuit g.addr with
      | some r => (r.state == .active && (g.gtype != 4 || r.newAddr.isNone)) || (r.state == .asleep && decide (0 < r.wakeSf ∧ r.wakeSf ≤ s.sf.number + 1))
      | none => false)
    || (g.gtype == 2 && ((s.link.joins.any fun j => j.circuit == g.circuit && j.paddr == g.addr)
      || s.link.records.any fun r => r.circuit == g.circuit && r.newAddr.any (·.1 == g.addr)))

/-- An entry obeys R283 after the entries taken, by the plan of the state. -/
def scheduleOk (s : State) (taken : List Grant) (g : Grant) : Bool :=
  let mode := circuitMode s g.circuit
  grantPasses (nFixOf s.sf.mainsNom) taken g
  && (if grantBand g = 1 then mode == 2 && decide (g.slots ≤ 7 ∧ setSf g.arg ≤ 3) else mode == 1 || mode == 2)
  && addressed s g && grantFits g && seatsHold s taken g
  && taken.all (fun h => levelOk s g h && gapOk g h && gapOk h g && ((rangeBooking s g).isNone || rangeBooking s g != rangeBooking s h))

/-! Placing (R238, R283). -/

/-- The first slot from `lo` on where an entry obeys the rules and a test. -/
def placeFrom (s : State) (taken : List Grant) (lo : Nat) (ok : Grant → Bool) (g : Grant) : Option Grant :=
  ((List.range (nFixOf s.sf.mainsNom - lo)).map fun i => { g with slot := lo + i }).find? fun h => scheduleOk s taken h && ok h

/-- One entry of the handed list (R183, R238, R283): one whose setting needs SF 16 becomes a CT_UP; one to be steered moves off the noisy bins, or takes a lower
setting where it stands. -/
def scheduleOne (s : State) (taken : List Grant) (g : Grant) : List Grant :=
  let g := settle s g
  if g.gtype = 1 ∧ 3 < setSf g.arg then
    let a := argT 44
    ((placeFrom s taken 64 (fun _ => true) { g with gtype := 2, slots := a.2, arg := a.1 }).map (taken ++ [·])).getD taken
  else if steered s g && noisyAt s g then
    match placeFrom s taken 64 (fun h => !noisyAt s h) g with
    | some h => taken ++ [h]
    | none => let h := lowered s g; if scheduleOk s taken h then taken ++ [h] else taken
  else if scheduleOk s taken g then taken ++ [g] else taken

/-- A grant that the rules demand: its entry, the first slot it may have, and whether that slot is the only one. -/
structure Wanted where
  grant : Grant := {}
  from_ : Nat := 64
  fixed : Bool := false
deriving DecidableEq, Repr, Inhabited

def wantT (c addr bytes : Nat) (from_ : Nat := 64) : Wanted :=
  let a := argT bytes
  { grant := { circuit := c, addr := addr, gtype := 2, slots := a.2, arg := a.1 }, from_ := from_ }

/-- The first slot after a repeater's RELAY_BEACON for its far endpoints (R314). -/
def farFrom (s : State) (r : Record) : Nat :=
  match viaOf s r with
  | none => 64
  | some x => x.rbSlot + (argT 172).2 + 1

/-- An uplink grant for an endpoint's own frames (R183, R272, R283, R298; DESIGN CHOICE: for one frame of 44 bytes, or of the longest where its last frame had
MORE): CA_UP at its setting where it has Class A and 7 slots hold it, else CT_UP. -/
def wantUp (s : State) (r : Record) (a : Nat) : Wanted :=
  let e := ladderSetting r.eqSinr (marginOf s r.circuit)
  let bytes := if r.more then 1504 else 44
  let l := liftFor e.2.2 bytes
  let arg := argA e l.1 (r.snap.state != .valid || r.eqSinr.isNone)
  let n := if r.more then min ((aTicks (headOfA arg l.2) + 24) / 25) 7 else (aTicks (headOfA arg l.2) + 24) / 25
  if overClassA s r && decide (e.2.1 ≤ 3) && decide (n ≤ 7) then
    { grant := { circuit := r.circuit, addr := a, gtype := 1, slots := n, arg := arg }, from_ := farFrom s r }
  else wantT r.circuit a bytes (farFrom s r)

/-- An ACTIVE endpoint is due an uplink grant in superframe n (R298, R302, R307): by SERVICE_PERIOD, from its WAKE_SF until it is heard, and for the ACK of
what was sent to it in the present superframe. -/
def upDue (s : State) (n : Nat) (r : Record) : Bool :=
  (r.state == .active && (decide (r.grantSf + (circOf s r.circuit).set.servicePeriod ≤ n) || r.sent.any (fun x => x.lastSf == s.sf.number)))
  || (decide (0 < r.wakeSf ∧ r.wakeSf ≤ n) && r.state != .absent && decide (r.lastHeard < r.wakeSf))

/-- An endpoint is due a RANGE in superframe n (R333, R334): while UNRANGED, after an unanswered exchange, and every RANGE_PERIOD superframes. A far endpoint's
is its repeater's to carry out, once the repeater has been ranged (R336). -/
def rangeDueIn (s : State) (n : Nat) (r : Record) : Bool :=
  r.state == .active && !isFeed s r.circuit && (r.range.unranged || r.range.misses != 0 || decide (r.range.lastSf + rangePeriodOf s r.circuit ≤ n))
  && ((viaOf s r).all fun x => !x.range.unranged && decide ((x.range.theta.headD 0).natAbs ≤ 240))
/-- Its entry: the request, 6 ticks, and the reply. -/
def wantRange (s : State) (r : Record) (a : Nat) : Wanted :=
  let up := argT 52
  let reply := ((grantDown { gtype := 3, arg := up.1 }).map fun d => (d.2 + 5 + 24) / 25).getD 1
  { grant := { circuit := r.circuit, addr := a, gtype := 3, slots := reply + up.2, arg := up.1 + 4 * reply }, from_ := farFrom s r }

/-- A JOIN grant is due on a circuit in superframe n (R291). -/
def joinDue (s : State) (n c : Nat) : Bool :=
  let x := circOf s c
  (circuitMode s c == 1 || circuitMode s c == 2) && decide ((s.link.records.filter fun r => r.circuit == c).length < 64)
  && (decide (x.joinSf + x.set.joinPeriod ≤ n) || decide (n ≤ x.joinUntil))

/-- Grants that the rules demand in superframe n, repeaters first (R291, R295, R298, R302, R303, R307, R314, R334). -/
def wantedGrants (s : State) (n : Nat) : List Wanted :=
  let at_ := fun (f : Record → Nat → List Wanted) => s.link.records.flatMap fun r => (r.addr.map (f r)).getD []
  at_ (fun r a => if r.state == .active && r.repeats && !r.far.isEmpty then
      [{ wantT r.circuit a 172 with from_ := r.rbSlot, fixed := true }] else [])
  ++ ((s.link.joins.filter fun j => decide (n ≤ j.challengeSf + 2)).map fun j => wantT j.circuit j.paddr 44)
  ++ (s.link.records.flatMap fun r => (r.newAddr.map fun x => if n ≤ x.2 + 4 then [wantT r.circuit x.1 44] else []).getD [])
  ++ at_ (fun r a => if upDue s n r then [wantUp s r a] else [])
  ++ at_ (fun r a => if rangeDueIn s n r then [wantRange s r a] else [])
  ++ ((activeCircuits s).filter (joinDue s n)).map (fun c => { wantT c 0xFFF 36 with grant := { (wantT c 0xFFF 36).grant with gtype := 5 } })

/-- An entry among those kept does what is wanted. -/
def satisfied (kept : List Grant) (w : Wanted) : Bool :=
  !w.fixed && kept.any fun g => g.circuit == w.grant.circuit && g.addr == w.grant.addr
    && (if w.grant.gtype = 3 ∨ w.grant.gtype = 5 then g.gtype == w.grant.gtype else g.gtype == 1 || g.gtype == 2 || g.gtype == 4)
    && decide (w.from_ ≤ g.slot)

/-- A wanted grant finds its place: clear of what is kept where that is possible. One whose own PPDU would be steered is placed likewise (R238). -/
def placeWanted (s : State) (kept placed : List Grant) (w : Wanted) : List Grant :=
  let clear := fun (h : Grant) => !(steered s h && noisyAt s h)
  if w.fixed then
    let g := { w.grant with slot := w.from_ }
    if scheduleOk s placed g then placed ++ [g] else placed
  else match (placeFrom s (placed ++ kept) w.from_ clear w.grant).orElse fun _ => placeFrom s placed w.from_ clear w.grant with
    | some g => placed ++ [g]
    | none =>
    let g := if steered s w.grant then lowered s w.grant else w.grant
    ((placeFrom s placed w.from_ (fun _ => true) g).map (placed ++ [·])).getD placed

/-- Forwarding time for the repeater of a far endpoint (R315): at least 4 slots after each uplink grant of one ends, and at the end of what is placed where
frames for one wait (DESIGN CHOICE: how long it is; the model gives what one frame of an endpoint takes). -/
def forwarding (s : State) (gs : List Grant) : List Wanted :=
  let up := gs.filterMap fun g => if g.gtype = 1 ∨ g.gtype = 2 then
      ((recordAt s g.circuit g.addr).bind (viaOf s)).bind fun x => x.addr.map fun a => wantT g.circuit a 172 (g.slot + g.slots + 4)
    else none
  let down := s.link.records.filterMap fun r => if r.state == .active && (!r.waiting.isEmpty || !r.sent.isEmpty) then
      (viaOf s r).bind fun x => x.addr.map fun a => wantT r.circuit a 172 ((gs.foldl (fun m g => max m (g.slot + g.slots)) 64))
    else none
  up ++ down

/-- The scheduler's list for the next superframe, by the plan then in force (R44, R283): what the handed list keeps, what the rules demand beside it, and the
repeaters' forwarding. -/
def scheduleList (s : State) (list : List Grant) : List Grant :=
  let u := { s with plan := { s.plan with active := if s.plan.stage = .armed ∧ s.plan.armedSf = s.sf.number + 1 then s.plan.staged else s.plan.active } }
  let n := s.sf.number + 1
  let kept := list.foldl (scheduleOne u) []
  let placed := ((wantedGrants u n).filter fun w => !satisfied kept w).foldl (placeWanted u kept) []
  let all := kept.foldl (fun t g => if scheduleOk u t g then t ++ [g] else t) placed
  (forwarding u all).foldl (placeWanted u []) all

end Sys2Proof.Machine
end

