-- ==== Sys2Proof/Machine/GrantLists.lean ====
section
/-! DEFINITION. The grant lists and the close that fixes the next superframe (spec/11_superframe.md R262, R263, R278 to R284, spec/01_architecture.md R37, R44,
spec/02 R58, spec/15 R401, spec/16 R408). -/
namespace Sys2Proof.Machine

/-! The length of the next superframe (R262, R263). -/

/-- The largest n with n (n + 1) / 2 at most `a`. -/
def rampOf (a : Nat) : Nat := (((List.range 512).filter fun n => decide (n * (n + 1) / 2 ≤ a)).getLast?).getD 0
def clampTo (lo hi x : Int) : Int := if x < lo then lo else if hi < x then hi else x
def signum (x : Int) : Int := if 0 < x then 1 else if x < 0 then -1 else 0

/-- What a close computes: phi in 1/16 ns times the number of periods, that number, the sum of the periods, and L_s. -/
structure Sizing where
  phiN : Int := 0
  count : Nat := 1
  sum : Int := 0
  length : Nat := 0
deriving DecidableEq, Repr, Inhabited

/-- R262 for T0(s), the reference's crossings, and the limits of a MAINS_NOM. -/
def sizing (mains : Nat) (free : Bool) (t0 prev : Nat) (anchor : Int) (x : Crossing) : Sizing :=
  let ps := if free then [] else x.periods
  let n := if ps.isEmpty then 1 else ps.length
  let sum := if ps.isEmpty then 16000 * (lNomOf mains : Int) else ps.foldl (· + ·) 0
  let phiN := match free, x.valid with
    | false, some v =>
      let d := (16000 * (t0 : Int) - (v + 16000 * anchor)) * n
      d - (2 * d + sum) / (2 * sum) * sum
    | _, _ => 0
  let roundP := (2 * sum + 16000 * n) / (32000 * n)
  let want : Int := if free then lNomOf mains else roundP - signum phiN * rampOf (phiN.natAbs / (16000 * n))
  let l := clampTo (lMinOf mains) (lMaxOf mains) (clampTo ((prev : Int) - 1) (prev + 1) want)
  { phiN := phiN, count := n, sum := sum, length := l.toNat }

/-- The timer's state after a close (R263), with the run of closes towards LOCKED. -/
def lockAfter (st : SfState) (run : Nat) (z : Sizing) : SfState × Nat :=
  let roundP := (2 * z.sum + 16000 * z.count) / (32000 * z.count)
  match st with
  | .free => (.free, 0)
  | .slewing =>
    if z.phiN.natAbs ≤ 16000 * z.count ∧ ((z.length : Int) - roundP).natAbs ≤ 1 then (if 8 ≤ run + 1 then (.locked, 0) else (.slewing, run + 1))
    else (.slewing, 0)
  | .locked => if 25 * 16000 * z.count < z.phiN.natAbs then (.slewing, 0) else (.locked, 0)

/-- The superframe timer at a close: the reference, L_s, phi and P as `device.sf_status` shows them, and a MAINS_NOM that waits (R261 to R263, R288, R507). -/
def closeTimer (s : State) : State :=
  let s := followRef s
  let mains := s.sf.mainsDue.getD s.sf.mainsNom
  let x := (s.sf.ref.map (crossingOf s)).getD {}
  let free := s.sf.state == .free
  let z := sizing mains free (s.sf.t0 + s.sf.len) s.sf.len s.sf.anchor x
  let z := if s.sf.mainsDue.isSome then { z with length := lNomOf mains } else z
  let l := lockAfter s.sf.state s.sf.lockRun z
  { s with sf := { s.sf with
    lenNext := some z.length, mainsNom := mains, mainsDue := none
    phi := z.phiN / z.count, period := if free ∨ x.periods.isEmpty then 0 else (z.sum / z.count).toNat
    state := l.1, lockRun := l.2 } }

/-! Other work of a close. -/

/-- The list of the next superframe (R37): the one handed; without one the last list, at most 4 times in a row, and then none. A standby grants
nothing (R465). -/
def listForClose (s : State) : List Grant × State :=
  if sendsAllowed s then
    match s.sf.handed with
    | some l => (l, { s with sf := { s.sf with handed := none, lastList := l, reuse := 0 } })
    | none => (if s.sf.reuse < 4 then s.sf.lastList else [], { s with sf := { s.sf with reuse := min (s.sf.reuse + 1) 5 } })
  else ([], s)

/-- A snapshot at grant time (R193): STALE once more than 10,000 superframes old, or where the port's CAL_EPOCH differs. -/
def snapAtGrant (s : State) (r : Record) : Record :=
  if r.snap.sf + 10000 < s.sf.number + 1 ∨ r.snap.calEpoch ≠ (portOf s (r.circuit / 24)).calEpoch then staleSnap r else r

/-- An armed activation at its close (R401): without a READY standby it moves one superframe on, at most 8 times; then FW_ACTIVATE_FAIL. -/
def firmwareClose (s : State) : State :=
  match s.mp.armed with
  | none => s
  | some a =>
    if a.sf ≠ s.sf.number + 1 ∨ standbyReady s = true then s
    else if a.moves < 8 then { s with mp := { s.mp with armed := some { a with sf := a.sf + 1, moves := a.moves + 1 } } }
    else raise 0x0064 (1 - bootBank s) (restartStandby { s with mp := { s.mp with armed := none } })

/-- GRANT_LIST_HANDOVER (R37): the list for the next superframe, before its close. -/
def execGrantListHandover (sf : Nat) (list : List Grant) (s : State) : Result :=
  commit s
    (if counting s && sf == s.sf.number + 1 && !s.sf.closed then { s with sf := { s.sf with handed := some list } } else s)

/-- GRANT_LIST_CLOSE, at the start of the rejoin window (R44, R283, R58, R193, R262, R284, R401, R408). -/
def execGrantListClose (s : State) : Result :=
  commit s
    (if !counting s || s.sf.closed || decide (s.clk.now < s.sf.t0 + 25 * nFixOf s.sf.mainsNom) then s
     else
       let t := planClose (closeTimer s)
       let t := modRecords (snapAtGrant t) t
       let t := { t with sf := { t.sf with handed := t.sf.handed.map (scheduleList t) } }
       let l := listForClose t
       let k := checkGrants (nFixOf l.2.sf.mainsNom) l.1 [] l.2
       let t := { k.2 with sf := { k.2.sf with grantsNext := if sendsAllowed t then k.1 else k.2.sf.grantsNext, closed := true } }
       let t := firmwareClose t
       if domOn t 29 && sendsAllowed t then lockClaim t else t)

/-- GRANT_LIST_REUSE_EXPIRY (R37): the last list has been reused 4 times and no new one has come. -/
def execGrantListReuseExpiry (s : State) : Result :=
  commit s (if 4 ≤ s.sf.reuse ∧ s.sf.handed = none then { s with sf := { s.sf with lastList := [] } } else s)

/-! Beacon and sheet bytes (R274 to R277, R279, R281). -/

/-- A grant entry (R281). -/
def grantWord (g : Grant) : Nat :=
  (((g.gtype % 8 * 4096 + g.addr % 4096) * 1024 + g.slot % 1024) * 128 + (g.slots - 1) % 128) * 65536 + g.arg % 65536
def grantBytes (gs : List Grant) : List Byte := gs.flatMap fun g => bytesOfNat 6 (grantWord g)

/-- The announced profile and the superframes until it applies (R250, R275); the profile in force and 0 where none is. -/
def pendRegion (s : State) : Nat × Nat :=
  match s.circ.profileDue with
  | none => (s.circ.profile % 16, 0)
  | some (p, at_) => (p % 16, at_ - s.sf.number)

/-- Bits [95:32] and [31:0] of TRP_TIME (R277): the TRP departure, or the marker's on a feed circuit, of tick T0. -/
def trpTime (s : State) (c : Nat) : Word × Nat :=
  let ahead : Int := (s.sf.t0 : Int) - s.clk.now
  let x := if isFeed s c then departure s c ahead else trpDeparture s c ahead
  (instantHigh x, fieldOf (instantLow x) 63 32)

/-- The word of SF_NUMBER, SF_LEN and TIME_QUAL. -/
def beaconWord0 (s : State) : Word := fieldAt 63 24 s.sf.number ||| fieldAt 23 8 s.sf.len ||| fieldAt 7 0 (timeQual s)

/-- The body of a full beacon before its grants (R275), with a key's epoch and counter. -/
def fullBody (s : State) (c epoch ctr n : Nat) (sheet : Bool) : List Word :=
  let x := circOf s c
  let t := trpTime s c
  let p := pendRegion s
  [beaconWord0 s, t.1, fieldAt 63 32 t.2 ||| fieldAt 31 0 epoch,
   fieldAt 63 32 ctr ||| fieldAt 31 30 (sfCode s.sf.state) ||| fieldAt 29 19 (circuitSpan s c / 16)
     ||| fieldAt 18 12 (psdCode x.set.psdT (x.reduced.getD 0 0)) ||| fieldAt 11 5 (psdCode x.set.psdA (x.reduced.getD 1 0)),
   fieldAt 63 57 (psdCode x.set.psdD (x.reduced.getD 2 0)) ||| fieldAt 56 53 s.circ.profile ||| fieldAt 52 49 p.1 ||| fieldAt 48 33 (min p.2 65535)
     ||| fieldAt 32 26 n ||| bitAt 25 sheet]

/-- The body of a compact beacon (R276), 20 bytes. -/
def compactBody (s : State) (c ctr : Nat) : List Byte :=
  let t := trpTime s c
  let p := pendRegion s
  bytesBE (beaconWord0 s)
  ++ bytesBE (fieldAt 63 32 (fieldOf t.1 31 0) ||| fieldAt 31 16 (t.2 / 65536) ||| fieldAt 15 12 p.1 ||| fieldAt 11 0 (min p.2 4095))
  ++ bytesOfNat 4 (ctr % 4294967296)

/-- A frame of the beacon sequencer under a circuit's key, its tag last (R270, R274): none where the engine cannot tag it (R416, R423). -/
def taggedFrame (ftype c : Nat) (body : Nat → Nat → List Byte) (s : State) : Option (List Byte) × State :=
  let k := keyIdxOf s c
  let x := slotOf s (8 + k)
  match x.key, useCounter (8 + k) s with
  | some key, some t =>
    if domOn s 29 && !s.aead.drbgHalted then
      let b := body x.epoch x.counter
      let f : Frame := { ftype := ftype, dest := 0xFFF, seq := c, keyIdx := k }
      let bytes := bytesBE (macHeader f (b.length + 8)) ++ b
      (some (bytes ++ (aeadSeal false key (x.epoch * 18446744073709551616 + x.counter) bytes [] 8).2), t)
    else (none, s)
  | _, _ => (none, s)

/-- A grant sheet (R279). -/
def sheetBody (s : State) (gs : List Grant) (_epoch ctr : Nat) : List Byte :=
  bytesBE (fieldAt 63 24 s.sf.number ||| fieldAt 23 17 gs.length) ++ bytesBE (fieldAt 63 32 ctr) ++ grantBytes gs

/-- A beacon by its row; a feed circuit's is full and carries no grants. -/
def beaconBody (s : State) (c : Nat) (d : Dealt) (epoch ctr : Nat) : List Byte :=
  if d.row = 7 then compactBody s c ctr
  else (fullBody s c epoch ctr d.inline.length (!d.sheet.isEmpty)).flatMap bytesBE ++ grantBytes d.inline

/-- A sheet, or a beacon, of one circuit tagged and sent: in a PPDU, and on a feed circuit on the express stream (R206). -/
def sendSheet (s : State) (p : Nat × Dealt) : State :=
  if p.2.sheet.isEmpty then s
  else
    let f := taggedFrame 3 p.1 (sheetBody s p.2.sheet) s
    match f.1 with
    | some bs => emit (.beacon p.1 bs) (modCirc p.1 (putPpdu (sheetPpdu s p.1 s.sf.t0 p.2.sheet.length bs)) f.2)
    | none => f.2
def sendBeacon (s : State) (p : Nat × Dealt) : State :=
  let f := taggedFrame (if p.2.row = 7 then 2 else 1) p.1 (beaconBody s p.1 p.2) s
  match f.1 with
  | some bs => emit (.beacon p.1 bs)
      (if isFeed s p.1 then { f.2 with air := { f.2.air with outbox := f.2.air.outbox ++ [{ circuit := p.1, bytes := bs, stream := 0 }] } }
       else modCirc p.1 (putPpdu (beaconPpdu p.1 p.2.row s.sf.t0 bs)) f.2)
  | none => f.2

/-- The grants in force count for their endpoints and circuits (R291, R298). -/
def noteGrants (s : State) : State :=
  let mine := fun (c : Nat) (p : Grant → Bool) => s.sf.grants.any fun g => g.circuit == c && p g
  let t := modRecords (fun r => if (r.addr.any fun a => mine r.circuit fun g => g.addr == a && [1, 2, 4].contains g.gtype) then
    { r with grantSf := s.sf.number } else r) s
  ((s.sf.grants.filter fun g => g.gtype == 5).map (·.circuit)).foldl (fun t c => modCirc c (fun x => { x with joinSf := s.sf.number }) t) t

/-- The beacons of a superframe (R37, R161, R206, R278 to R280, R465): dealt, every sheet first and then every beacon in ascending circuit order; the
grants that they carry are the ones in force. Without transmission there is none; a standby sends none of its own, and works by the grants mirrored. -/
def sendBeacons (s : State) : State :=
  let t := { s with sf := { s.sf with grants := if sendsAllowed s then [] else s.sf.grantsNext, grantsNext := [] } }
  if s.circ.profile = 0 ∨ sendsAllowed s = false then t
  else
    let ds := dealAll s s.sf.number s.sf.lenPrev
    let t := ds.foldl (fun t p => dropHeads s.sf.t0 p.1 (modCirc p.1 (fun x => { x with beaconForm := p.2.row, ngrant := p.2.inline.length }) t)) t
    let t := { t with sf := { t.sf with grants := ds.flatMap (fun p => p.2.inline ++ p.2.sheet), beaconTrusted := trusted t } }
    let t := noteGrants t
    ds.foldl sendBeacon (ds.foldl sendSheet t)

end Sys2Proof.Machine
end

