-- ==== Sys2Proof/Machine/Pair.lean ====
section
/-! DEFINITION. The redundant pair: peer frames, roles and takeover (spec/20_guarantees_recovery.md R461 to R468, spec/13_time_service.md R338 to R341). -/
namespace Sys2Proof.Machine

/-- STANDBY, SYNCING: the TKU joins with PEER forced (R327, R338, R463). -/
def becomeStandby (s : State) : State :=
  let t := enterRole .standby s
  toAcquire { t with tku := { t.tku with peerForced := true }, pair := { t.pair with tracked := false, mirror := [] } }

/-- Device identities compared: the partner's is the higher; none while its halves have not both come. -/
def partnerHigher (s : State) : Option Bool :=
  match s.pair.partnerHi, s.pair.partnerLo with
  | some h, some l =>
    let own := (deviceIdHigh s).toNat * 2 ^ 64 + (deviceIdLow s).toNat
    some (decide (own < h * 2 ^ 64 + l))
  | _, _ => none

/-- Both devices ACTIVE (R468): the one followed by fewer front ends yields, on a tie the one with the higher DEVICE_ID. A front end that does not
follow this device follows the partner. -/
def resolveSplit (s : State) : State :=
  let t := if s.pair.split then s else { s with pair := { s.pair with split := true, splits := sat16 s.pair.splits 1 } }
  let fs := frontPorts.filter (feActive t)
  let own := (fs.filter fun p => (portOf t p).follows).length
  let other := fs.length - own
  if own < other ∨ (own = other ∧ partnerHigher t = some false) then raise 0x0066 0 (becomeStandby t) else t

/-- The partner's superframe as a standby takes it (R264, R461). A number one ahead is left to the standby's own boundary. -/
def followSuperframe (w0 w2 : Word) (tag : Nat) (s : State) : State :=
  let n := fieldOf w0 39 0
  if s.sf.running ∧ n = s.sf.number + 1 then s
  else
    let start := s.clk.now + tag - s.clk.tick - fieldOf w2 63 48
    { s with sf := { s.sf with running := domOn s 28, number := n, t0 := start, len := fieldOf w2 47 32 } }

/-- The role table's rows of an accepted peer frame (R463). -/
def peerRoles (w0 : Word) (s : State) : State :=
  let code := fieldOf w0 49 47
  match s.pair.role with
  | .candidate =>
    if code = 2 then becomeStandby s
    else if code = 1 ∧ partnerHigher s = some true then enterRole .active s else s
  | .isolated => if code = 2 then becomeStandby s else s
  | .active => if code = 2 then resolveSplit s else { s with pair := { s.pair with split := false } }
  | _ => s

/-- Cells of a peer frame (R461, R462): those lost count, and a READY standby falls to SYNCING. -/
def peerCells (q g : Nat) (ws : List Word) (s : State) : State :=
  let n := frameLen g
  let k := (n - 8) / 8
  let full := ((List.range k).filter fun i => fieldOf (ws.getD (4 + 8 * i) 0) 63 56 != 0).length
  let tx := fieldOf (ws.getD (n - 2) 0) 63 40
  let lost := (tx + 2 * 16777216 - tabGet 0 s.pair.rxCells q - full) % 16777216
  let t := { s with pair := { s.pair with rxCells := tabPut 0 s.pair.rxCells q tx } }
  if lost = 0 then t
  else
    let ready := t.pair.role == .standby && t.pair.sbState == 2
    { t with pair := { t.pair with
        cellLost := sat16 t.pair.cellLost lost, ledger := t.pair.ledger ||| bitAt 4 true
        sbState := if ready then 1 else t.pair.sbState, request := t.pair.request || ready } }

/-! What the cells carry: keys and counters (R425), beacons and sheets (R465). -/

/-- The counter floor of a slot's mirror (R425). -/
def mirrorFloor (s : State) (k : Nat) : Nat := if tabGet 0 s.pair.mirror k = 0 then 0 else tabGet 0 s.pair.mirror k + 1048576
/-- A key of the partner's at a standby: unwrapped under slot 0, and loaded with the mirrored counter plus 2^20 as AEAD_KFLOOR. -/
def takeKey (s : State) (k : PeerKey) : State :=
  match if slotUsable 1 k.slot && engineReady s then unwrapUnder 0 [] k.wrap s else none with
  | some b => loadSlot k.slot (keyOfBytes b) k.size k.epoch (mirrorFloor s k.slot) s
  | none => s
/-- At a takeover every slot has the mirrored counter plus 2^20 (R467). -/
def mirrorLoaded (s : State) : State :=
  s.pair.mirror.foldl (fun t e => let x := slotOf t e.1; setSlot e.1 { x with counter := max x.counter (mirrorFloor s e.1) } t) s
/-- The checkpoint that an active device answers a request with, as far as the AEAD engine goes: its circuit keys, each wrapped under slot 0, and the
counters. DESIGN CHOICE: a key to a cell, in the form that a WRAP gives it. -/
def checkpointKeys (s : State) : State :=
  let ks := ((List.range 14).map (9 + ·)).filter fun k => (slotOf s k).key.isSome
  if (slotOf s 0).key.isNone || !engineReady s then s
  else
    let t := ks.foldl (fun t k =>
      let w := wrapUnder 0 [] (((slotOf t k).key.getD []).flatMap bytesBE) t
      { w.2 with pair := { w.2.pair with outCells := w.2.pair.outCells ++ [peerCell s 5 (k - 9) ks.length w.1] } }) s
    { t with pair := { t.pair with outCells := t.pair.outCells ++ counterCells t } }
/-- A frame holds a checkpoint request (R462). -/
def asksCheckpoint (g : Nat) (ws : List Word) : Bool := (List.range ((frameLen g - 8) / 8)).any fun i => fieldOf (ws.getD (4 + 8 * i) 0) 63 56 == 6

/-- The grants that a beacon's or sheet's bytes carry (R275, R279, R281). -/
def grantOf (c w : Nat) : Grant :=
  { circuit := c, gtype := w / 2 ^ 45 % 8, addr := w / 2 ^ 33 % 4096, slot := w / 2 ^ 23 % 1024, slots := w / 65536 % 128 + 1, arg := w % 65536 }
def grantsFrom (c : Nat) : Nat → List Byte → List Grant
  | 0, _ => []
  | n + 1, bs => grantOf c (natLE (bs.take 6).reverse) :: grantsFrom c n (bs.drop 6)
def grantsOf (c : Nat) (bs : List Byte) : List Grant :=
  let w := fun (a : Nat) => wordBE ((bs.drop a).take 8)
  match fieldOf (w 0) 63 60 with
  | 1 => grantsFrom c (fieldOf (w 40) 32 26) (bs.drop 48)
  | 3 => grantsFrom c (fieldOf (w 8) 23 17) (bs.drop 24)
  | _ => []
/-- A mirrored beacon or sheet of the present superframe or the next at a standby (R465): its transmit functions send it, and its receivers work by the
grants that it carries. -/
def takeHead (s : State) (h : PeerHead) : State :=
  let c := h.circuit
  if isFeed s c || !circuitActive s c || (h.sf != s.sf.number && h.sf != s.sf.number + 1) then s
  else
    let start := if h.sf = s.sf.number then s.sf.t0 else s.sf.t0 + s.sf.len
    let t := modCirc c (putPpdu (match h.sheet with
      | some n => sheetPpdu s c start n h.bytes
      | none => beaconPpdu c h.row start h.bytes)) s
    let gs := grantsOf c h.bytes
    let t := if h.sheet.isNone && !h.bytes.isEmpty then { t with sf := { t.sf with beaconTrusted := fieldOf (wordBE ((h.bytes.drop 8).take 8)) 7 6 != 0 } } else t
    if h.sf = s.sf.number then { t with sf := { t.sf with grants := (t.sf.grants ++ gs).eraseDups } }
    else { t with sf := { t.sf with grantsNext := (t.sf.grantsNext ++ gs).eraseDups } }

/-- Acceptance of a peer frame (R462). -/
def peerAccepted (s : State) (q : Nat) (f : PeerFrame) : Bool :=
  let g := (portOf s (32 + q)).gen
  let tag := (f.words.getD 1 0).toNat
  portLocked s (32 + q) && f.words.length == frameLen g && fieldOf (f.words.getD 0 0) 63 56 == g * 16 + 3 && f.valid
  && fieldOf (f.words.getD (frameLen g - 1) 0) 31 0 == frameCrc (f.words.take (frameLen g - 1))
  && (decide (tag ≤ s.clk.tick + 1 ∧ s.clk.tick ≤ tag + 1) || (s.pair.role == .standby && !s.pair.tracked) || s.pair.role == .candidate)

/-- The front of a peer port's frame counting (R100). -/
def peerLanded (q : Nat) (s : State) : State :=
  modPort (32 + q) (fun x => { x with landed := true, frameOk := sat32 x.frameOk 1, missRun := 0, goodRun := x.goodRun + 1 }) s

/-- A peer frame's stamps on a port in role PAIR (R338, R461). -/
def pairStamps (q : Nat) (f : PeerFrame) (s : State) : State :=
  let tag := (f.words.getD 1 0).toNat
  let n := frameLen (portOf s (32 + q)).gen
  let w := fun i => f.words.getD i 0
  modPort (32 + q) (fun x => { x with
    marks := if tag % 1000 = 0 then ((tag, 16000 * (s.tku.devUs : Int) + f.arrival) :: x.marks).take 4 else x.marks
    farTag := (w (n - 3)).toNat, farLaunch := fieldOf (w (n - 4)) 63 32, farArrival := signedOf 32 (fieldOf (w (n - 4)) 31 0) }) s
/-- A time-peer frame's stamps (R340): both times take the seconds nearest the receiver's own, and a new LAUNCH_TIME is that of this frame's mark. -/
def timeStamps (q : Nat) (f : PeerFrame) (s : State) : State :=
  let n := frameLen (portOf s (32 + q)).gen
  let own := 16000 * (s.tku.devUs : Int)
  let full := fun (i : Nat) => own + nearest (shortOf (f.words.getD i 0) - own)
  modPort (32 + q) (fun x => { x with
    marks := if x.marks.isEmpty ∨ x.farLaunch ≠ full (n - 4) then [((f.words.getD 1 0).toNat, own + f.arrival)] else x.marks
    farLaunch := full (n - 4), farArrival := full (n - 3) }) s

/-- An accepted peer frame (R338, R425, R461 to R465). -/
def acceptPeer (q : Nat) (f : PeerFrame) (s : State) : State :=
  let w := fun i => f.words.getD i 0
  let tag := (w 1).toNat
  let half := (w 3).toNat
  let t := pairStamps q f (peerCells q (portOf s (32 + q)).gen f.words (peerLanded q s))
  let t := if t.pair.role = .active ∧ asksCheckpoint (portOf s (32 + q)).gen f.words = true then checkpointKeys t else t
  let t := partnerReports q (fieldOf (w 2) 31 24) 0 t
  let t := { t with
    pair := { t.pair with
      lastPeerFrame := some t.clk.now
      partnerHi := if tag % 2 = 0 then some half else t.pair.partnerHi
      partnerLo := if tag % 2 = 0 then t.pair.partnerLo else some half
      markers := if fieldOf (w 0) 49 47 = 2 then (tag :: t.pair.markers).take 8 else t.pair.markers } }
  let t := peerRoles (w 0) t
  if t.pair.role = .standby ∧ fieldOf (w 0) 49 47 = 2 then
    let t := if !t.pair.tracked && decide ((srcOf t 3).run ≠ 0 ∧ (srcOf t 3).phase.natAbs < 16000) && t.tku.stepUs == 0 then
        { t with clk := { t.clk with tick := tag } } else t
    let t := f.rx.foldl (fun t j => journalRx j t) (f.tx.foldl (fun t j => journalTx j t) t)
    let t := f.counters.foldl (fun t e => { t with pair := { t.pair with mirror := tabPut 0 t.pair.mirror e.1 e.2 } }) t
    f.heads.foldl takeHead (followSuperframe (w 0) (w 2) tag (f.keys.foldl takeKey t))
  else t

/-- PEER_FRAME (R461, R462): a frame on a port in role PAIR. -/
def execPeerFrame (q : Nat) (f : PeerFrame) (s : State) : Result :=
  onObject (decide (q < 4)) s
    (if peerRoleOf s q = 1 ∧ (portOf s (32 + q)).state = .active ∧ peerAccepted s q f = true then acceptPeer q f s else s)

/-- TIME_PEER_FRAME (R340): a frame on a port in role TIME_PEER carries the partner's quality and selection, and its stamps. -/
def execTimePeerFrame (q : Nat) (f : PeerFrame) (s : State) : Result :=
  let g := (portOf s (32 + q)).gen
  let ok := portLocked s (32 + q) && f.words.length == frameLen g && fieldOf (f.words.getD 0 0) 63 56 == g * 16 + 4 && f.valid
    && fieldOf (f.words.getD (frameLen g - 1) 0) 31 0 == frameCrc (f.words.take (frameLen g - 1))
  onObject (decide (q < 4)) s
    (if peerRoleOf s q = 2 ∧ (portOf s (32 + q)).state = .active ∧ ok = true then
       partnerReports q (fieldOf (f.words.getD 2 0) 31 24) (fieldOf (f.words.getD 2 0) 23 20) (timeStamps q f (peerLanded q s))
     else s)

/-- The TKU at a takeover (R327, R339): LOCKED on an own source that is eligible and within JUMP_LIMIT, otherwise HOLDOVER; no step, and the second's
measurements are discarded. -/
def tkuTakeover (s : State) : State :=
  let bound := bTku s
  let trace := traceable s
  let own := s.tku.settings.priority.find? fun k =>
    k != 3 && eligible s k && decide ((srcOf s k).phase.natAbs ≤ 16 * s.tku.settings.jumpLimit)
  let t := tkuEvent 4 { s with tku := { s.tku with peerForced := false, trackRun := 0, stepUs := 0, peerOffsets := [] } }
  let t := [1, 2, 3, 4].foldl (fun t k => setSrc k { srcOf t k with fresh := false } t) t
  match t.tku.state, own with
  | .tracking, some k => selects k { t with tku := { t.tku with state := .locked, lockedFor := 0 } }
  | .tracking, none => enterHoldover bound trace (selects 0 t)
  | _, _ => t

/-- The frames that a standby held are sent (R466). -/
def sendHeld (s : State) : State :=
  let t := s.link.bcastHeld.foldl (fun t b => sendBroadcast b.2 t) { s with link := { s.link with bcastHeld := [] } }
  (activeWhere (fun _ => true) t).foldl (fun t ep => pump ep t) t

/-- The takeover (R463, R466, R467): ACTIVE; Class D links retrain, ranging measurements pending are discarded as unanswered, held frames go out. -/
def takeOver (s : State) : State :=
  let t := mirrorLoaded (tkuTakeover (enterRole .active s))
  let t := { t with pair := { t.pair with journal := [] } }
  let t := { t with pair := { t.pair with afterTakeover := true, takeovers := sat16 t.pair.takeovers 1 } }
  let t := ((t.link.records.filter fun r => r.range.t1.isSome).map (·.epId)).foldl (fun t ep => rangeMiss ep t) t
  let t := ((activeCircuits t).filter fun c => isFeed t c && (feedOf t c).state == .up).foldl (fun t c => retrain c t) t
  raise 0x0065 0 (sendHeld t)

/-- PEER_MARKER_MISSING (R463, R464): the third failed check in a row. -/
def execPeerMarkerMissing (s : State) : Result :=
  commit s (if s.pair.role = .standby ∧ 3 ≤ s.pair.missed then takeOver s else s)

/-- FOLLOWER_TEST_EXPIRY (R463, R468). -/
def execFollowerTestExpiry (s : State) : Result :=
  commit s (if s.pair.role = .active ∧ s.pair.afterTakeover = true ∧ 8 ≤ s.pair.noFollower then raise 0x0066 0 (enterRole .isolated s) else s)

/-- ISOLATED_EXPIRY (R463): ACTIVE, and the test of R468 runs again. -/
def execIsolatedExpiry (s : State) : Result :=
  commit s
    (if s.pair.role = .isolated ∧ s.pair.since + 1000000 ≤ s.clk.now then
       let t := enterRole .active s
       { t with pair := { t.pair with afterTakeover := true } }
     else s)

/-- CANDIDATE_EXPIRY (R463): no accepted peer frame since the role was entered. -/
def execCandidateExpiry (s : State) : Result :=
  commit s (if s.pair.role = .candidate ∧ s.pair.lastPeerFrame = none ∧ s.pair.since + 10000000 ≤ s.clk.now then enterRole .active s else s)

/-- CHECKPOINT_COMPLETE (R463): SYNCING becomes READY while the TKU is TRACKING. -/
def execCheckpointComplete (s : State) : Result :=
  commit s
    (if s.pair.role = .standby ∧ s.pair.sbState = 1 ∧ s.tku.state = .tracking then { s with pair := { s.pair with sbState := 2, request := false } }
     else s)

end Sys2Proof.Machine
end

