-- ==== Sys2Proof/Machine/RegWrite.lean ====
section
/-! DEFINITION. A write to any register of BAR0 or BAR2 (spec/00_scope.md R9, spec/14 R349, R350, R370, spec/15 R378, R379,
spec/16 R410, spec/17 R431, spec/21 R475 to R487). A write whose bits start an action has that action's effect. -/
namespace Sys2Proof.Machine

/-- A write of MB_DOORBELL (R378, R380): ACTION 0b01 POST, 0b10 RELEASE, 0b11 CANCEL; 0b00 is ignored. -/
def boxDoorbell (m : Nat) (v : Word) (s : State) : State := boxAct m (fieldOf v 1 0) s

/-- A write of the AEAD block through port `r` (R410): REVOKED is cleared before RELEASE and REQUEST act; WRITE acts before
ZEROISE. -/
def aeadPortWrite (r off : Nat) (v : Word) (s : State) : State :=
  if off = 0x000 then
    let t := aeadWrite r off v s
    let t := if bitOf v 9 then lockRelease r t else t
    if bitOf v 8 then lockRequest r t else t
  else if off = 0x008 ∧ bitOf v 31 = true then
    aeadStart (fieldOf v 30 28) r v s
  else if off = 0x040 ∧ (bitOf v 26 || bitOf v 27) = true then
    let t := if bitOf v 26 then keyLoad r v s else s
    if bitOf v 27 then keyErase r v t else t
  else aeadWrite r off v s

/-- A write of a check unit's block (R431): units 0 to 5 are the host's, 6 and 7 the running core's. -/
def chkPortWrite (agent u off : Nat) (v : Word) (s : State) : State :=
  let fw := agent != 4
  if agent ≠ 4 ∧ agent ≠ runningCode s then s
  else if off = 0x28 then chkTake fw u v s
  else if off = 0x38 then if bitOf v 0 then chkBegin fw u s else s
  else if chkMine fw u then chkWrite u off v s else s

/-- The time within the tick at which a capture of this write falls, in 2^-16 ns: a free value (the hardware's
clock gives it, and no operand of this command does). -/
def captureSub (s : State) : Nat := (Config.freeWord s.clk.free).toNat % 65536000

/-- A write of an 8-byte register of BAR0 in an ENABLED block (R9, R477): RW fields are set, W1C bits cleared, WO bits act; any
other register ignores it. -/
def bar0Write (agent off : Nat) (v : Word) (s : State) : State :=
  if off = 0x1010 then vectorWrite v s
  else if off = 0x2000 then
    let t := fieldOf v 63 60
    { s with mem := { s.mem with target := if 1 ≤ t ∧ t ≤ 6 then t else s.mem.target, offset := fieldOf v 35 0 } }
  else if off = 0x2008 then { s with mem := { s.mem with autoInc := bitOf v 0 } }
  else if off = 0x2010 then if bitOf v 0 then { s with mem := { s.mem with err := false, errCode := 0 } } else s
  else if 0x3000 ≤ off ∧ off < 0x4000 then aeadPortWrite agent (off - 0x3000) v s
  else if 0x4000 ≤ off ∧ off < 0x4400 then chkPortWrite agent ((off - 0x4000) / 0x80) ((off - 0x4000) % 0x80) v s
  else if off = 0x5000 then { s with keep := { s.keep with addr := fieldOf v 11 0 } }
  else if off = 0x5008 then ksHostWrite v s
  else if off = 0x6000 then
    tcapWrite v (captureSub s) { s with clk := { s.clk with free := s.clk.free + 1 } }
  else if off = 0x6020 then
    { s with tku := { s.tku with events := s.tku.events &&& ~~~ fieldAt 15 0 (fieldOf v 47 32) } }
  else if off = 0x7010 then { s with pwr := { s.pwr with domEvent := s.pwr.domEvent &&& ~~~ v } }
  else if off = 0x8000 then { s with pair := { s.pair with ledger := s.pair.ledger &&& ~~~ v } }
  else if off = 0x8058 then evConsWrite v s
  else if 0x10000 ≤ off ∧ off < 0x10800 then doorbell false ((off - 0x10000) / 8) v s
  else if 0x10800 ≤ off ∧ off < 0x11000 then doorbell true ((off - 0x10800) / 8) v s
  else if 0x11000 ≤ off ∧ off < 0x11080 then xdbPost ((off - 0x11000) / 8) v s
  else s

/-- A host write of BAR2 (R379, R370, R487). -/
def bar2Write (off bytes : Nat) (v : Word) (s : State) : State :=
  if 0x8000 ≤ off ∧ off < 0x9000 then
    if bytes = 8 then bulkWrite (off - 0x8000) [v] s
    else if domOn s 28 then bulkAdvance (off - 0x8000) bytes (bulkFail 3 s) else bulkOff s
  else if bytes ≠ 8 ∨ off % 8 ≠ 0 ∨ 0x6000 ≤ off then s
  else if off % 0x400 = 0x010 then boxDoorbell (off / 0x400) v s
  else boxWrite (off / 0x400) (off % 0x400) v s

/-- A write of BAR0 by `agent` (R350, R475, R486). The cores and the sequencer reach the AEAD block and the check units only. -/
def spaceWrite (agent off bytes : Nat) (v : Word) (s : State) : State :=
  if 0xF0000 ≤ off ∧ off < 0xF0400 then
    if agent = 4 ∧ (bytes = 4 ∨ bytes = 8) ∧ off % bytes = 0 then msixWrite (off - 0xF0000) bytes v s else s
  else if bytes ≠ 8 ∨ off % 8 ≠ 0 then s
  else match blockDomain off with
    | none => s
    | some d => if agent ≠ 4 ∧ !decide (0x3000 ≤ off ∧ off < 0x5000) then s else inDomain d s (bar0Write agent off v s)

/-- REGISTER_WRITE (R9, R350, R379, R475, R486): `agent` is the requester, 4 the host through BAR0 and BAR2, 1 and 2 the cores
and 3 the beacon sequencer through their own ports of the AEAD block and the check units. A misaligned or short access, a
reserved offset and a read-only register ignore the write. INT_CAUSE, INT_MASK and MB_DONE_MAP signal as R481 says. -/
def execRegisterWrite (agent bar off bytes : Nat) (v : Word) (s : State) : Result :=
  if !decide (1 ≤ agent ∧ agent ≤ 4) || !decide (bar = 0 ∨ bar = 2) then .fault .noSuchObject
  else if bar = 2 then commit s (if agent = 4 then bar2Write off bytes v s else s)
  else if agent = 4 ∧ bytes = 8 ∧ off = 0x1000 then commitWrite (causeWrite v s)
  else if agent = 4 ∧ bytes = 8 ∧ off = 0x1008 then commitWrite (maskWrite v s)
  else if agent = 4 ∧ bytes = 8 ∧ off = 0x1018 then commitWrite (doneMapWrite v s)
  else commit s (spaceWrite agent off bytes v s)

end Sys2Proof.Machine
end

