-- ==== Sys2Proof/Machine/Superframe.lean ====
section
/-! DEFINITION. The superframe boundary and the steps that go with it (spec/11_superframe.md R262, R264, R285; spec/02 R58 to R61; spec/04 R104; spec/09 R237;
spec/10 R250, R255 to R258; spec/12 R289, R303, R306, R311, R316; spec/13 R332 to R336; spec/15 R391, R401, R402; spec/16 R420; spec/18 R441; spec/19 R447). -/
namespace Sys2Proof.Machine

/-! What ends with a superframe. -/

/-- Every record's identity, in the order of the records. -/
def recordIds (s : State) : List Nat := s.link.records.map (·.epId)

/-- A CA_UP or CT_UP grant of the superframe that ends in which nothing was heard (R303): the eighth in a row starts re-addressing. -/
def unusedGrant (s : State) (g : Grant) : State :=
  match recordAt s g.circuit g.addr with
  | none => s
  | some r =>
    if (g.gtype = 1 ∨ g.gtype = 2) ∧ r.state = .active ∧ r.sleepDue = none ∧ r.heardAt < s.sf.t0 + 25 * g.slot then
      let t := modRecordId r.epId (fun x => { x with unused := x.unused + 1 }) s
      if 8 ≤ r.unused + 1 then startReaddress r.epId t else t
    else s

/-- The first frame of an endpoint's queue did not fit in the superframe (R358). -/
def countUnfit (s : State) (r : Record) : Record :=
  match r.waiting with
  | w :: ws =>
    if r.state = .active ∧ fitsDown s r (outgoing r w) = false then
      { r with waiting := { w with host := w.host.map fun h => { h with unfit := h.unfit + 1 } } :: ws }
    else r
  | [] => r

/-- The end of a superframe for the records: unused grants, ranging requests unanswered, tag failures counted anew, endpoints that leave (R289, R303,
R304, R333, R358). -/
def endOfSuperframe (s : State) : State :=
  let t := s.sf.grants.foldl unusedGrant s
  let t := ((t.link.records.filter fun r => r.range.t1.isSome).map (·.epId)).foldl (fun t ep => rangeMiss ep t) t
  let t := ((t.link.records.filter (·.leaving)).map (·.epId)).foldl (fun t ep => deleteRecord ep t) t
  modRecords (fun r => countUnfit t { r with badTags := 0 }) t

/-! Firmware (R401, R402). -/

/-- The other core takes over at the boundary, and the one that ran restarts as standby. -/
def changeCores (cause : Nat) (s : State) : State :=
  let old := if runningCode s = 2 then 1 else 0
  let t := switchCore cause s
  setCore old { coreOf t old with role := .standby, ready := false, fromStage := false, bank := bootBank t, image := (bankOf t (bootBank t)).image } t

/-- A revert due, or the hand-over armed for superframe `n` with its standby READY. -/
def firmwareBoundary (n : Nat) (s : State) : State :=
  if s.mp.revertDue && inTrial s && (coreOf s (standbyIndex s)).role == .standby then endOfTrial (changeCores 3 s)
  else
    match s.mp.armed with
    | some a =>
      if a.sf = n ∧ standbyReady s = true then
        let t := changeCores 2 { s with mp := { s.mp with armed := none } }
        raise 0x0061 (1 - bootBank t) (beginTrial a.source t)
      else s
    | none => s

/-! The plan swap (R58 to R60, R193, R213, R313). -/

/-- The swap of an ARMED plan at the boundary of its superframe, and the substitutions due (R25, R59, R61). -/
def swapBoundary (n : Nat) (s : State) : State :=
  let fresh := newFailing s
  let t := noteOverruns s
  let t := if s.plan.stage = .armed ∧ s.plan.armedSf = n then planSwap t else t
  noteSubst s (overrunBoundary fresh t)

/-! Ledgers (R104, R311, R459). -/

/-- The credit check of every ACTIVE front-end port becomes due with the device's own counters of the first tick. -/
def creditDue (s : State) (p : Nat) : State :=
  if (portOf s p).state = .active then
    modPort p (fun x => { x with ledgerDue := some [x.held, x.txCells, x.rxCells, x.freed, x.freedSeen] }) s
  else s

/-- The host-frame equation, checked and latched. -/
def hfCheck (s : State) : State :=
  let p := s.pair
  let t := { s with pair := { p with
    checkSf := s.sf.number, latched := [p.hfAccepted, p.hfDelivered, p.hfReturned, p.hfHeld] } }
  if p.hfAccepted = p.hfDelivered + p.hfReturned + p.hfHeld then t
  else raise 0x0032 0 { t with pair := { t.pair with ledger := t.pair.ledger ||| bitAt 2 true, hfFails := sat32 t.pair.hfFails 1 } }

/-! Circuits (R237, R245, R255, R316). -/

/-- NOISY marks of a chaff map (R237). -/
def noisyMarks (x : Circuit) : Word :=
  let count := fun (b : Nat) => tabGet 0 x.bins b
  let total := (List.range 64).foldl (fun n b => n + count b) 0
  (List.range 64).foldl (fun w b => w ||| bitAt b (decide (x.set.chaffMin ≤ count b ∧ x.set.chaffFactor * total ≤ 64 * count b))) 0

/-- A circuit at a boundary: its link settings, the chaff map's count of superframes and marks, TX_SATURATE once per superframe. -/
def circuitBoundary (s : State) (c : Nat) : State :=
  let t := modCirc c (fun x => let x := adoptLink x; { x with sinceHalving := x.sinceHalving + 1, noisy := noisyMarks x, saturated := false }) s
  applyShaping c t

/-! Keys (R420). -/

/-- Rotations whose START_SF has come; then circuit-key slots that no circuit uses are zeroised. -/
def moveKeys (r : Rotation) (s : State) : State :=
  { s with sec := { s.sec with circuitKey := r.circuits.foldl (fun t c => tabPut 1 t c r.keyIdx) s.sec.circuitKey } }
def dropKey (s : State) (k : Nat) : State :=
  if keyInUse s k ∨ (slotOf s (8 + k)).key = none then s
  else let t := zeroiseSlot (8 + k) s; { t with sec := { t.sec with wrapped := tabPut [] t.sec.wrapped k [] } }
def rotateKeys (s : State) : State :=
  let due := s.sec.rotations.filter fun r => decide (r.startSf ≤ s.sf.number)
  if due.isEmpty then s
  else
    let t := due.foldl (fun t r => moveKeys r t) { s with sec := { s.sec with rotations := s.sec.rotations.filter fun r => decide (s.sf.number < r.startSf) } }
    ((List.range 14).map (· + 1)).foldl dropKey t

/-- The circuit keys after a start: those wrapped return, and CK1 is drawn at epoch 1 where there is none. -/
def ensureKeys (s : State) : State :=
  if domOn s 29 && domOn s 28 then
    let t := restoreKeys s
    if (slotOf t 9).key = none ∧ tabGet [] t.sec.wrapped 1 = [] then makeKey 1 1 t else t
  else s

/-! What a superframe begins with for the records. -/

/-- KEY_UPDATE in the superframe after an ACCEPT (R420): the circuit's key, in use since this superframe. -/
def sendKeyUpdate (s : State) (ep : Nat) : State :=
  match recordId s ep with
  | none => s
  | some r => sendControl ep (keyUpdateWords s (keyIdxOf s r.circuit) s.sf.number) (modRecordId ep (fun r => { r with keyDue := false }) s)

/-- FEED_TIME every RANGE_PERIOD superframes, once D exists (R335). -/
def feedTimeDue (s : State) (r : Record) : Bool :=
  isFeed s r.circuit && r.state == .active && !r.range.dist.isEmpty && decide (r.range.lastSf + rangePeriodOf s r.circuit ≤ s.sf.number)

/-- KEY_UPDATE, TIME_INFO every 256 superframes, FEED_TIME and the acknowledgements due (R306, R335, R336, R420). -/
def recordsBoundary (s : State) : State :=
  let t := if sendsAllowed s then
      let t := (activeWhere (·.keyDue) s).foldl sendKeyUpdate s
      let t := if t.sf.number % 256 = 0 then (activeWhere (fun _ => true) t).foldl (fun t ep => sendTimeInfo ep t) t else t
      (activeWhere (feedTimeDue t) t).foldl (fun t ep => sendFeedTime ep t) t
    else s
  (activeWhere (·.ackDue) t).foldl (fun t ep => sendAck ep t) t

/-- The RANGE_REQ of a grant. DESIGN CHOICE: at the grant's own PSF and rate, with which the rules give the reply; the spec gives no setting of the request. -/
def rangePpdu (g : Grant) (bytes : List Byte) : Ppdu :=
  let r := setRateT g.arg
  let l := liftFor r bytes.length
  { cls := 1, header := tHeader 3 (setPsf g.arg) 0 l.1 r l.2 0, coded := (encodeFrame g.circuit l.1 r l.2 bytes).flatten }

/-- What the head-end sends in a grant's first slot: a POLL (R285), or the RANGE_REQ of a direct endpoint with its TRP departure (R332, R336). -/
def serveGrant (s : State) (g : Grant) : State :=
  match recordAt s g.circuit g.addr with
  | none => s
  | some r =>
    let start := s.sf.t0 + 25 * g.slot
    if g.gtype = 4 then
      let f : Frame := { ftype := 9, dest := g.addr }
      let a : SettingA := { mod := setMod g.arg, sf := setSf g.arg, rate := setRate g.arg, lift := setLift g.arg, train := setTrain g.arg }
      emit (.send g.circuit f) (modCirc g.circuit (putPpdu { interleaved s g.circuit (ppduA g.circuit a (frameBytes g.circuit f)) with start := start }) s)
    else if g.gtype = 3 ∧ (viaOf s r).isNone = true then
      let id := (r.range.id + 1) % 256
      let at_ := trpDeparture s g.circuit ((start : Int) - s.clk.now)
      let f : Frame := { ftype := 11, dest := g.addr, keyIdx := 15, body := bytesBE (fieldAt 63 56 1 ||| fieldAt 55 48 id) }
      let p := protect r f s
      let t := match p.1 with
        | some text => modCirc g.circuit (putPpdu { rangePpdu g (frameBytes g.circuit { f with body := text }) with start := start }) p.2
        | none => p.2
      emit (.send g.circuit f) (modRecordId r.epId (fun r => { r with range := { r.range with id := id, t1 := some at_ } }) t)
    else s

/-! The boundary. -/

/-- The region profile due (R250). -/
def regionBoundary (s : State) : State :=
  match s.circ.profileDue with
  | some (p, at_) => if at_ ≤ s.sf.number then applyProfile p s else s
  | none => s

/-- The number rises and the length fixed at the close is in force (R262, R264). -/
def advanceSf (s : State) : State :=
  { s with sf := { s.sf with
    number := (s.sf.number + 1) % 1099511627776, t0 := s.sf.t0 + s.sf.len, lenPrev := s.sf.len, len := s.sf.lenNext.getD s.sf.len
    lenNext := none, closed := false }
           ldpc := { s.ldpc with testDone := false } }

/-- The beacon sequencer gives up its claim and the lock (R408). -/
def releaseClaim (s : State) : State :=
  let t := { s with aead := { s.aead with claim := false } }
  if s.aead.owner = 3 then lockFree t else t

/-- The boundary after a close. -/
def nextSuperframe (s : State) : State :=
  let n := s.sf.number + 1
  let t := firmwareBoundary n (endOfSuperframe s)
  let t := abandonTest (swapBoundary n (advanceSf t))
  let t := hfCheck ((List.range 32).foldl creditDue (regionBoundary t))
  let t := (activeCircuits t).foldl circuitBoundary t
  let t := recordsBoundary (rotateKeys t)
  let t := sendBeacons t
  releaseClaim (if sendsAllowed t then t.sf.grants.foldl serveGrant t else t)

/-- The first superframe after D28 becomes ENABLED (R264): L_nom, FREE, the number resumed; its first tick makes the credit checks due (R104). -/
def firstSuperframe (s : State) : State :=
  let l := lNom s
  ensureKeys <| (List.range 32).foldl creditDue { s with sf := { s.sf with
    running := true, t0 := s.clk.now, len := l, lenPrev := l, lenNext := none, state := .free, lockRun := 0, phi := 0, period := 0, closed := false } }

/-- SUPERFRAME_BOUNDARY (R262, R264): the first superframe, or the one whose length its close has fixed. -/
def execSuperframeBoundary (s : State) : Result :=
  commit s
    (if !domOn s 28 then s
     else if !s.sf.running then firstSuperframe s
     else if s.sf.closed && decide (s.sf.t0 + s.sf.len ≤ s.clk.now) then nextSuperframe s
     else s)

/-- CHAFF_AGE_HALVING (R237): the counts are halved once CHAFF_AGE superframes have passed, and the marks made anew. -/
def execChaffAgeHalving (c : Nat) (s : State) : Result :=
  onObject (circuitExists s c) s
    (if circuitActive s c = true ∧ 2 ^ (circOf s c).set.chaffAge ≤ (circOf s c).sinceHalving then
       modCirc c (fun x =>
         let x := { x with sinceHalving := 0, bins := tabMap 0 (· / 2) x.bins }
         { x with noisy := noisyMarks x }) s
     else s)

/-- SF_MARK_WRITE (R264): 2^20 superframes since the last mark. -/
def execSfMarkWrite (s : State) : Result :=
  commit s
    (if s.sf.running ∧ s.sf.mark + 1048576 ≤ s.sf.number then
       mpWrite 1600 (BitVec.ofNat 64 s.sf.number) { s with sf := { s.sf with mark := s.sf.number } }
     else s)

/-- ENDPOINT_SUMMARY_WRITE (R440, R441): one word of the ring every 2^10 superframes. -/
def execEndpointSummaryWrite (s : State) : Result :=
  commit s
    (if s.sf.running ∧ s.sf.number % 1024 = 0 then mpWrite (summaryPlace s) (summaryWord s) s else s)

/-! The end of the start-up sequence (R391, R447, R463, R488). -/

/-- The boot plan: armed for the first superframe whose close follows, or PLAN_BOOT_FAIL (R391). -/
def bootPlan (s : State) : State :=
  let img := s.mp.bootPlan
  if s.mp.bootPlanDue = false ∨ domOn s 28 = false then s
  else
    let t := { s with mp := { s.mp with bootPlanDue := false } }
    if img.isEmpty then t
    else match admission t img with
      | some _ => raise 0x0015 (planId img) t
      | none => { t with plan := { t.plan with stage := .armed, staged := img, armedSf := t.sf.number + (if t.sf.closed then 2 else 1) } }

/-- SEQUENCE_DONE (R447): SEQ_DONE is set, the adaptive supply takes over, the keys are loaded, a device with a PAIR port is a CANDIDATE, and the boot plan
is admitted. -/
def execSequenceDone (s : State) : Result :=
  commit s
    (if s.pwr.seqRunning && s.pwr.seqStarted && s.pwr.seqRest.isEmpty && s.pwr.switching.isNone && !s.pins.thermTrip then
       let t := { s with
         pwr := { s.pwr with seqRunning := false, domEvent := s.pwr.domEvent ||| bitAt 30 true }
         avs := { s.avs with running := true } }
       let t := if t.tku.peerRole.contains 1 ∧ t.pair.role = .unpaired then enterRole .candidate t else t
       bootPlan (ensureKeys t)
     else s)

end Sys2Proof.Machine
end

