-- ==== Sys2Proof/Machine/Dispatch.lean ====
section
/-! DEFINITION. What each command does, one arm per row of spec/opcode_table.json. -/
namespace Sys2Proof.Machine
open Host

/-- The effect of one command on everything but the queue. -/
def exec (i : Instr) (s : State) : Host.Outcome State Fault Refusal :=
  match i with
  | .mbPost m => Sys2Proof.Machine.execMbPost m s
  | .mbRelease m => Sys2Proof.Machine.execMbRelease m s
  | .mbCancel m => Sys2Proof.Machine.execMbCancel m s
  | .mbTake => Sys2Proof.Machine.execMbTake s
  | .mailboxTimeout m => Sys2Proof.Machine.execMailboxTimeout m s
  | .backgroundOpDone k res => Sys2Proof.Machine.execBackgroundOpDone k res s
  | .deviceIdentify m => Sys2Proof.Machine.execDeviceIdentify m s
  | .deviceStatus m => Sys2Proof.Machine.execDeviceStatus m s
  | .deviceEvents m => Sys2Proof.Machine.execDeviceEvents m s
  | .deviceReset m => Sys2Proof.Machine.execDeviceReset m s
  | .deviceHostMode m => Sys2Proof.Machine.execDeviceHostMode m s
  | .portStatus m => Sys2Proof.Machine.execPortStatus m s
  | .portRetrain m => Sys2Proof.Machine.execPortRetrain m s
  | .portSetState m => Sys2Proof.Machine.execPortSetState m s
  | .portSetPreset m => Sys2Proof.Machine.execPortSetPreset m s
  | .clockSetSpread m => Sys2Proof.Machine.execClockSetSpread m s
  | .portFrameCounters m => Sys2Proof.Machine.execPortFrameCounters m s
  | .portCalibrate m => Sys2Proof.Machine.execPortCalibrate m s
  | .portConfig m => Sys2Proof.Machine.execPortConfig m s
  | .deviceSetRegion m => Sys2Proof.Machine.execDeviceSetRegion m s
  | .deviceRegionStatus m => Sys2Proof.Machine.execDeviceRegionStatus m s
  | .deviceSfConfig m => Sys2Proof.Machine.execDeviceSfConfig m s
  | .deviceSfStatus m => Sys2Proof.Machine.execDeviceSfStatus m s
  | .deviceRingConfig m => Sys2Proof.Machine.execDeviceRingConfig m s
  | .deviceRingStatus m => Sys2Proof.Machine.execDeviceRingStatus m s
  | .deviceRxSteer m => Sys2Proof.Machine.execDeviceRxSteer m s
  | .deviceGranaryConfig m => Sys2Proof.Machine.execDeviceGranaryConfig m s
  | .deviceEventVector m => Sys2Proof.Machine.execDeviceEventVector m s
  | .circuitSetClass m => Sys2Proof.Machine.execCircuitSetClass m s
  | .circuitRxConfig m => Sys2Proof.Machine.execCircuitRxConfig m s
  | .circuitRxStatus m => Sys2Proof.Machine.execCircuitRxStatus m s
  | .circuitRxCounters m => Sys2Proof.Machine.execCircuitRxCounters m s
  | .circuitAgc m => Sys2Proof.Machine.execCircuitAgc m s
  | .circuitCaStatus m => Sys2Proof.Machine.execCircuitCaStatus m s
  | .circuitCaConfig m => Sys2Proof.Machine.execCircuitCaConfig m s
  | .circuitXtSurvey m => Sys2Proof.Machine.execCircuitXtSurvey m s
  | .circuitCdConfig m => Sys2Proof.Machine.execCircuitCdConfig m s
  | .circuitCdStatus m => Sys2Proof.Machine.execCircuitCdStatus m s
  | .circuitCdRetrain m => Sys2Proof.Machine.execCircuitCdRetrain m s
  | .circuitChaffMap m => Sys2Proof.Machine.execCircuitChaffMap m s
  | .circuitChaffConfig m => Sys2Proof.Machine.execCircuitChaffConfig m s
  | .circuitCodeCounters m => Sys2Proof.Machine.execCircuitCodeCounters m s
  | .circuitTxConfig m => Sys2Proof.Machine.execCircuitTxConfig m s
  | .circuitTxFilter m => Sys2Proof.Machine.execCircuitTxFilter m s
  | .circuitNotch m => Sys2Proof.Machine.execCircuitNotch m s
  | .circuitRelay m => Sys2Proof.Machine.execCircuitRelay m s
  | .circuitRelayStatus m => Sys2Proof.Machine.execCircuitRelayStatus m s
  | .circuitTxStatus m => Sys2Proof.Machine.execCircuitTxStatus m s
  | .circuitBeaconConfig m => Sys2Proof.Machine.execCircuitBeaconConfig m s
  | .circuitMacCounters m => Sys2Proof.Machine.execCircuitMacCounters m s
  | .planLoad m => Sys2Proof.Machine.execPlanLoad m s
  | .planActivate m => Sys2Proof.Machine.execPlanActivate m s
  | .planAbort m => Sys2Proof.Machine.execPlanAbort m s
  | .planStatus m => Sys2Proof.Machine.execPlanStatus m s
  | .planEdit m => Sys2Proof.Machine.execPlanEdit m s
  | .planRead m => Sys2Proof.Machine.execPlanRead m s
  | .planStageWrite m => Sys2Proof.Machine.execPlanStageWrite m s
  | .planSaveBoot m => Sys2Proof.Machine.execPlanSaveBoot m s
  | .endpointList m => Sys2Proof.Machine.execEndpointList m s
  | .endpointStatus m => Sys2Proof.Machine.execEndpointStatus m s
  | .endpointEvict m => Sys2Proof.Machine.execEndpointEvict m s
  | .endpointReaddress m => Sys2Proof.Machine.execEndpointReaddress m s
  | .endpointSetRepeater m => Sys2Proof.Machine.execEndpointSetRepeater m s
  | .endpointLinkCounters m => Sys2Proof.Machine.execEndpointLinkCounters m s
  | .endpointLinkConfig m => Sys2Proof.Machine.execEndpointLinkConfig m s
  | .endpointDeny m => Sys2Proof.Machine.execEndpointDeny m s
  | .endpointCaSnapshot m => Sys2Proof.Machine.execEndpointCaSnapshot m s
  | .timeStatus m => Sys2Proof.Machine.execTimeStatus m s
  | .timeSourceConfig m => Sys2Proof.Machine.execTimeSourceConfig m s
  | .timeSetTai m => Sys2Proof.Machine.execTimeSetTai m s
  | .timeHostOffset m => Sys2Proof.Machine.execTimeHostOffset m s
  | .timeResync m => Sys2Proof.Machine.execTimeResync m s
  | .timeEvidenceRing m => Sys2Proof.Machine.execTimeEvidenceRing m s
  | .timeEndpointStatus m => Sys2Proof.Machine.execTimeEndpointStatus m s
  | .timeRangeConfig m => Sys2Proof.Machine.execTimeRangeConfig m s
  | .timeModel m => Sys2Proof.Machine.execTimeModel m s
  | .timePeerConfig m => Sys2Proof.Machine.execTimePeerConfig m s
  | .securityStatus m => Sys2Proof.Machine.execSecurityStatus m s
  | .securityJoinKey m => Sys2Proof.Machine.execSecurityJoinKey m s
  | .securityCircuitKey m => Sys2Proof.Machine.execSecurityCircuitKey m s
  | .securityZeroise m => Sys2Proof.Machine.execSecurityZeroise m s
  | .securityAttest m => Sys2Proof.Machine.execSecurityAttest m s
  | .securityCert m => Sys2Proof.Machine.execSecurityCert m s
  | .firmwareStatus m => Sys2Proof.Machine.execFirmwareStatus m s
  | .firmwareStageWrite m => Sys2Proof.Machine.execFirmwareStageWrite m s
  | .firmwareVerify m => Sys2Proof.Machine.execFirmwareVerify m s
  | .firmwareWriteBank m => Sys2Proof.Machine.execFirmwareWriteBank m s
  | .firmwareActivate m => Sys2Proof.Machine.execFirmwareActivate m s
  | .firmwareCommit m => Sys2Proof.Machine.execFirmwareCommit m s
  | .firmwareRevert m => Sys2Proof.Machine.execFirmwareRevert m s
  | .firmwareSetBoot m => Sys2Proof.Machine.execFirmwareSetBoot m s
  | .diagMpStatus m => Sys2Proof.Machine.execDiagMpStatus m s
  | .diagNearRead m => Sys2Proof.Machine.execDiagNearRead m s
  | .lanePrbs m => Sys2Proof.Machine.execLanePrbs m s
  | .laneMarginScan m => Sys2Proof.Machine.execLaneMarginScan m s
  | .laneCounters m => Sys2Proof.Machine.execLaneCounters m s
  | .ldpcStatus m => Sys2Proof.Machine.execLdpcStatus m s
  | .diagCapture m => Sys2Proof.Machine.execDiagCapture m s
  | .diagCaptureStatus m => Sys2Proof.Machine.execDiagCaptureStatus m s
  | .powerDomainSet m => Sys2Proof.Machine.execPowerDomainSet m s
  | .powerDomainStatus m => Sys2Proof.Machine.execPowerDomainStatus m s
  | .powerAvsStatus m => Sys2Proof.Machine.execPowerAvsStatus m s
  | .ageingLedger m => Sys2Proof.Machine.execAgeingLedger m s
  | .ageingClusterTest m => Sys2Proof.Machine.execAgeingClusterTest m s
  | .mctpWrite body => Sys2Proof.Machine.execMctpWrite body s
  | .mctpRead body => Sys2Proof.Machine.execMctpRead body s
  | .mctpDoorbell body => Sys2Proof.Machine.execMctpDoorbell body s
  | .setEndpointId eid => Sys2Proof.Machine.execSetEndpointId eid s
  | .getEndpointId => Sys2Proof.Machine.execGetEndpointId s
  | .getMctpVersionSupport => Sys2Proof.Machine.execGetMctpVersionSupport s
  | .getMessageTypeSupport => Sys2Proof.Machine.execGetMessageTypeSupport s
  | .getVendorDefinedMsgSupport => Sys2Proof.Machine.execGetVendorDefinedMsgSupport s
  | .journalEntry => Sys2Proof.Machine.execJournalEntry s
  | .standbyReady => Sys2Proof.Machine.execStandbyReady s
  | .watchdogKick => Sys2Proof.Machine.execWatchdogKick s
  | .watchdogExpiry => Sys2Proof.Machine.execWatchdogExpiry s
  | .registerWrite agent bar off bytes v => Sys2Proof.Machine.execRegisterWrite agent bar off bytes v s
  | .intCauseWrite v => Sys2Proof.Machine.execIntCauseWrite v s
  | .intMaskWrite v => Sys2Proof.Machine.execIntMaskWrite v s
  | .mbDoneMapWrite v => Sys2Proof.Machine.execMbDoneMapWrite v s
  | .eventVectorWrite v => Sys2Proof.Machine.execEventVectorWrite v s
  | .evConsWrite v => Sys2Proof.Machine.execEvConsWrite v s
  | .txDbWrite q v => Sys2Proof.Machine.execTxDbWrite q v s
  | .rxDbWrite q v => Sys2Proof.Machine.execRxDbWrite q v s
  | .xdbWrite n v => Sys2Proof.Machine.execXdbWrite n v s
  | .tcapCapture v sub => Sys2Proof.Machine.execTcapCapture v sub s
  | .tcapDoneClear v sub => Sys2Proof.Machine.execTcapDoneClear v sub s
  | .tcapArmGpio v sub => Sys2Proof.Machine.execTcapArmGpio v sub s
  | .gpioEdgeCapture pin sub => Sys2Proof.Machine.execGpioEdgeCapture pin sub s
  | .ksDataWrite v => Sys2Proof.Machine.execKsDataWrite v s
  | .ksDataRead => Sys2Proof.Machine.execKsDataRead s
  | .keepWriteStart => Sys2Proof.Machine.execKeepWriteStart s
  | .keepWriteDone => Sys2Proof.Machine.execKeepWriteDone s
  | .keepWriteWaitTimeout => Sys2Proof.Machine.execKeepWriteWaitTimeout s
  | .bulkDataRead off len => Sys2Proof.Machine.execBulkDataRead off len s
  | .bulkDataWrite off words => Sys2Proof.Machine.execBulkDataWrite off words s
  | .aeadLockRequest r => Sys2Proof.Machine.execAeadLockRequest r s
  | .aeadLockRelease r => Sys2Proof.Machine.execAeadLockRelease r s
  | .aeadEncrypt r v => Sys2Proof.Machine.execAeadEncrypt r v s
  | .aeadDecrypt r v => Sys2Proof.Machine.execAeadDecrypt r v s
  | .aeadWrap r v => Sys2Proof.Machine.execAeadWrap r v s
  | .aeadUnwrap r v => Sys2Proof.Machine.execAeadUnwrap r v s
  | .aeadGenerate r v => Sys2Proof.Machine.execAeadGenerate r v s
  | .aeadJoinMac r v => Sys2Proof.Machine.execAeadJoinMac r v s
  | .aeadOpDone res => Sys2Proof.Machine.execAeadOpDone res s
  | .aeadKeyWrite r v => Sys2Proof.Machine.execAeadKeyWrite r v s
  | .aeadKeyZeroise r v => Sys2Proof.Machine.execAeadKeyZeroise r v s
  | .aeadIdleRelease => Sys2Proof.Machine.execAeadIdleRelease s
  | .entropyHealthFail => Sys2Proof.Machine.execEntropyHealthFail s
  | .drbgReseed => Sys2Proof.Machine.execDrbgReseed s
  | .chkStart fw u => Sys2Proof.Machine.execChkStart fw u s
  | .chkDataWrite fw u v => Sys2Proof.Machine.execChkDataWrite fw u v s
  | .chkPipeCntRead => Sys2Proof.Machine.execChkPipeCntRead s
  | .ledgerCreditRead => Sys2Proof.Machine.execLedgerCreditRead s
  | .pairStatusRead => Sys2Proof.Machine.execPairStatusRead s
  | .hdmViolAddrRead => Sys2Proof.Machine.execHdmViolAddrRead s
  | .hdmViolCntRead => Sys2Proof.Machine.execHdmViolCntRead s
  | .resetNAssert => Sys2Proof.Machine.execResetNAssert s
  | .resetNRelease => Sys2Proof.Machine.execResetNRelease s
  | .sequenceStart rails => Sys2Proof.Machine.execSequenceStart rails s
  | .sequenceDone => Sys2Proof.Machine.execSequenceDone s
  | .railRemoved r => Sys2Proof.Machine.execRailRemoved r s
  | .powerGood d => Sys2Proof.Machine.execPowerGood d s
  | .powerGoodTimeout d => Sys2Proof.Machine.execPowerGoodTimeout d s
  | .domainSwitchStart => Sys2Proof.Machine.execDomainSwitchStart s
  | .drainEnd d => Sys2Proof.Machine.execDrainEnd d s
  | .powerDownDone d => Sys2Proof.Machine.execPowerDownDone d s
  | .vddCoreWindowFlag => Sys2Proof.Machine.execVddCoreWindowFlag s
  | .oscInLoss => Sys2Proof.Machine.execOscInLoss s
  | .oscInReturn => Sys2Proof.Machine.execOscInReturn s
  | .thermalTrip site => Sys2Proof.Machine.execThermalTrip site s
  | .avsMeasurement obs => Sys2Proof.Machine.execAvsMeasurement obs s
  | .avsBusFault => Sys2Proof.Machine.execAvsBusFault s
  | .avsBusRetry acked => Sys2Proof.Machine.execAvsBusRetry acked s
  | .pmbusPoll readings => Sys2Proof.Machine.execPmbusPoll readings s
  | .ledgerHourlyUpdate means => Sys2Proof.Machine.execLedgerHourlyUpdate means s
  | .ledgerDailyWrite => Sys2Proof.Machine.execLedgerDailyWrite s
  | .ledgerYearlySnapshot => Sys2Proof.Machine.execLedgerYearlySnapshot s
  | .avsAtLimitExpiry => Sys2Proof.Machine.execAvsAtLimitExpiry s
  | .tickStrobe obs => Sys2Proof.Machine.execTickStrobe obs s
  | .overrunLimit cl => Sys2Proof.Machine.execOverrunLimit cl s
  | .qualLate c => Sys2Proof.Machine.execQualLate c s
  | .noSync c cls => Sys2Proof.Machine.execNoSync c cls s
  | .samplesLost c => Sys2Proof.Machine.execSamplesLost c s
  | .overload c => Sys2Proof.Machine.execOverload c s
  | .receptionTimeout c cls => Sys2Proof.Machine.execReceptionTimeout c cls s
  | .captureFreeze => Sys2Proof.Machine.execCaptureFreeze s
  | .upstreamTickFrame p f => Sys2Proof.Machine.execUpstreamTickFrame p f s
  | .portDegraded p => Sys2Proof.Machine.execPortDegraded p s
  | .portReadyAgain p => Sys2Proof.Machine.execPortReadyAgain p s
  | .portRebring p => Sys2Proof.Machine.execPortRebring p s
  | .calMeasureDone p => Sys2Proof.Machine.execCalMeasureDone p s
  | .feIdentity p ws => Sys2Proof.Machine.execFeIdentity p ws s
  | .feCalReport p ws => Sys2Proof.Machine.execFeCalReport p ws s
  | .feAlarm p ws => Sys2Proof.Machine.execFeAlarm p ws s
  | .feAck p w => Sys2Proof.Machine.execFeAck p w s
  | .feMessageResend p => Sys2Proof.Machine.execFeMessageResend p s
  | .blockLockAcquired lane inv => Sys2Proof.Machine.execBlockLockAcquired lane inv s
  | .blockLockLost lane => Sys2Proof.Machine.execBlockLockLost lane s
  | .trainWordReceived lane w obs => Sys2Proof.Machine.execTrainWordReceived lane w obs s
  | .bringupPhaseTimeout p => Sys2Proof.Machine.execBringupPhaseTimeout p s
  | .signalDetected p => Sys2Proof.Machine.execSignalDetected p s
  | .dormantProbe p => Sys2Proof.Machine.execDormantProbe p s
  | .probeWindowEnd p => Sys2Proof.Machine.execProbeWindowEnd p s
  | .bringupQueueStart => Sys2Proof.Machine.execBringupQueueStart s
  | .peerFrame q f => Sys2Proof.Machine.execPeerFrame q f s
  | .timePeerFrame q f => Sys2Proof.Machine.execTimePeerFrame q f s
  | .peerMarkerMissing => Sys2Proof.Machine.execPeerMarkerMissing s
  | .followerTestExpiry => Sys2Proof.Machine.execFollowerTestExpiry s
  | .isolatedExpiry => Sys2Proof.Machine.execIsolatedExpiry s
  | .candidateExpiry => Sys2Proof.Machine.execCandidateExpiry s
  | .checkpointComplete => Sys2Proof.Machine.execCheckpointComplete s
  | .ldpcDispatch => Sys2Proof.Machine.execLdpcDispatch s
  | .ldpcDecodeDone d => Sys2Proof.Machine.execLdpcDecodeDone d s
  | .ldpcKnownAnswerTest pass => Sys2Proof.Machine.execLdpcKnownAnswerTest pass s
  | .reasmTimeout c => Sys2Proof.Machine.execReasmTimeout c s
  | .dataFrameRx f => Sys2Proof.Machine.execDataFrameRx f s
  | .mgmtFrameRx f => Sys2Proof.Machine.execMgmtFrameRx f s
  | .ackRx f => Sys2Proof.Machine.execAckRx f s
  | .reportRx f => Sys2Proof.Machine.execReportRx f s
  | .sleepReqRx f => Sys2Proof.Machine.execSleepReqRx f s
  | .relayBeaconRx f => Sys2Proof.Machine.execRelayBeaconRx f s
  | .leaveRx f => Sys2Proof.Machine.execLeaveRx f s
  | .joinReq f => Sys2Proof.Machine.execJoinReq f s
  | .joinResponse f u => Sys2Proof.Machine.execJoinResponse f u s
  | .joinChallengeTimeout c ep => Sys2Proof.Machine.execJoinChallengeTimeout c ep s
  | .joinAbandon c ep => Sys2Proof.Machine.execJoinAbandon c ep s
  | .rangeReply f u => Sys2Proof.Machine.execRangeReply f u s
  | .turnReport f => Sys2Proof.Machine.execTurnReport f s
  | .rangeReport f => Sys2Proof.Machine.execRangeReport f s
  | .ackTimerExpiry c a => Sys2Proof.Machine.execAckTimerExpiry c a s
  | .gapSkip c a => Sys2Proof.Machine.execGapSkip c a s
  | .pollAnswerTimeout c a => Sys2Proof.Machine.execPollAnswerTimeout c a s
  | .readdressTimeout c a => Sys2Proof.Machine.execReaddressTimeout c a s
  | .quarantineExpiry c a => Sys2Proof.Machine.execQuarantineExpiry c a s
  | .retainExpiry ep => Sys2Proof.Machine.execRetainExpiry ep s
  | .sleepWake c a => Sys2Proof.Machine.execSleepWake c a s
  | .txDescFetch q resp => Sys2Proof.Machine.execTxDescFetch q resp s
  | .txTooLong c a => Sys2Proof.Machine.execTxTooLong c a s
  | .rxFrameDeliver q resp => Sys2Proof.Machine.execRxFrameDeliver q resp s
  | .msixModCount rx q => Sys2Proof.Machine.execMsixModCount rx q s
  | .msixModTicks rx q => Sys2Proof.Machine.execMsixModTicks rx q s
  | .ringDrainEnd rx q => Sys2Proof.Machine.execRingDrainEnd rx q s
  | .hostRequestFailed req => Sys2Proof.Machine.execHostRequestFailed req s
  | .cxlCompletionTimeout req => Sys2Proof.Machine.execCxlCompletionTimeout req s
  | .hostLinkUp cxl => Sys2Proof.Machine.execHostLinkUp cxl s
  | .hostLinkDown => Sys2Proof.Machine.execHostLinkDown s
  | .hotReset => Sys2Proof.Machine.execHotReset s
  | .cxlmemHostRead a => Sys2Proof.Machine.execCxlmemHostRead a s
  | .cxlmemHostWrite a line poison => Sys2Proof.Machine.execCxlmemHostWrite a line poison s
  | .h2dSnoop a => Sys2Proof.Machine.execH2dSnoop a s
  | .ideMacFail => Sys2Proof.Machine.execIdeMacFail s
  | .ideKeyProgram => Sys2Proof.Machine.execIdeKeyProgram s
  | .spdmRequest body => Sys2Proof.Machine.execSpdmRequest body s
  | .grantListHandover sf grants => Sys2Proof.Machine.execGrantListHandover sf grants s
  | .grantListClose => Sys2Proof.Machine.execGrantListClose s
  | .grantListReuseExpiry => Sys2Proof.Machine.execGrantListReuseExpiry s
  | .superframeBoundary => Sys2Proof.Machine.execSuperframeBoundary s
  | .chaffAgeHalving c => Sys2Proof.Machine.execChaffAgeHalving c s
  | .sfMarkWrite => Sys2Proof.Machine.execSfMarkWrite s
  | .endpointSummaryWrite => Sys2Proof.Machine.execEndpointSummaryWrite s
  | .sfRefLost => Sys2Proof.Machine.execSfRefLost s
  | .ppsInEdge pair obs => Sys2Proof.Machine.execPpsInEdge pair obs s
  | .ppsInLoss pair => Sys2Proof.Machine.execPpsInLoss pair s
  | .freqInLoss pair => Sys2Proof.Machine.execFreqInLoss pair s
  | .todInMessage body early => Sys2Proof.Machine.execTodInMessage body early s
  | .todOutSend => Sys2Proof.Machine.execTodOutSend s
  | .tkuSecond => Sys2Proof.Machine.execTkuSecond s
  | .jumpDisqualifyEnd k => Sys2Proof.Machine.execJumpDisqualifyEnd k s
  | .peerSourceLoss => Sys2Proof.Machine.execPeerSourceLoss s
  | .hostSourceLoss => Sys2Proof.Machine.execHostSourceLoss s
  | .peerExchange base => Sys2Proof.Machine.execPeerExchange base s
  | .modelWrite fit => Sys2Proof.Machine.execModelWrite fit s
  | .evidenceRecord => Sys2Proof.Machine.execEvidenceRecord s
  | .evLate => Sys2Proof.Machine.execEvLate s
  | .recordSeqMarkWrite => Sys2Proof.Machine.execRecordSeqMarkWrite s
  | .cdTrainWord c w => Sys2Proof.Machine.execCdTrainWord c w s
  | .cdSwitchExit c => Sys2Proof.Machine.execCdSwitchExit c s
  | .cdPhaseTimeout c => Sys2Proof.Machine.execCdPhaseTimeout c s
  | .cdTrainingTimeout c => Sys2Proof.Machine.execCdTrainingTimeout c s
  | .feedSearchRetry c => Sys2Proof.Machine.execFeedSearchRetry c s
  | .linkLost c => Sys2Proof.Machine.execLinkLost c s
  | .feedOverload c => Sys2Proof.Machine.execFeedOverload c s
  | .tapRevert c => Sys2Proof.Machine.execTapRevert c s
  | .tapGuardFail c => Sys2Proof.Machine.execTapGuardFail c s
  | .prbsCheckerLock l => Sys2Proof.Machine.execPrbsCheckerLock l s
  | .prbsLockLoss l => Sys2Proof.Machine.execPrbsLockLoss l s
  | .alertNRelease => Sys2Proof.Machine.execAlertNRelease s
  | .mpBootDone aOk bOk => Sys2Proof.Machine.execMpBootDone aOk bOk s
  | .hdmDecoderCommit base => Sys2Proof.Machine.execHdmDecoderCommit base s
  | .msixVectorUnmask v => Sys2Proof.Machine.execMsixVectorUnmask v s
  | .offBlockRead off => Sys2Proof.Machine.execOffBlockRead off s
  | .aeadStatusRead r => Sys2Proof.Machine.execAeadStatusRead r s

end Sys2Proof.Machine
end

