-- ==== Sys2Proof/Machine/Step.lean ====
section
/-! DEFINITION. One step of the block: the command at the front of the queue, and idling on an empty queue. -/
namespace Sys2Proof.Machine

/-- The state without the commands waiting, and with others in their place. -/
def State.withPending (s : State) (q : List Instr) : State := { s with pending := q }

/-- A step runs the command at the front of the queue with the rest of the queue left waiting; on an empty queue the block idles. -/
def step (s : State) : Host.Outcome State Fault Refusal :=
  match s.pending with
  | [] => .next s
  | i :: q => exec i (s.withPending q)

/-- The command that a word spells put at the front of the queue; the state unchanged where it spells none. -/
def State.withFetchWord (s : State) (nbits w : Nat) : State :=
  match Sys2Proof.decodeTableWord nbits w with
  | none => s
  | some i => s.withPending (i :: s.pending)

end Sys2Proof.Machine
end

