-- ==== Sys2Proof/Safety.lean ====
section
/-! DEFINITION. The terms in which statements about the block are made: which parts of the state a command may change, what a mailbox command
needs to be served and what it answers, the invariant that every step keeps, and what a safe step is. -/
namespace Sys2Proof.Machine

/-- The groups of the state, one for each field. -/
inductive Group where
  | clk | pins | pwr | avs | age | keep | chk | mb | mp | irq | aead | sec | host | mem | pair | tku | ev | sf | plan | port | circ | feed | ldpc | link
  | air | out | pending
deriving DecidableEq, Repr

/-- A group has the same value in both states. -/
def Group.same (g : Group) (s t : State) : Prop :=
  match g with
  | .clk => t.clk = s.clk
  | .pins => t.pins = s.pins
  | .pwr => t.pwr = s.pwr
  | .avs => t.avs = s.avs
  | .age => t.age = s.age
  | .keep => t.keep = s.keep
  | .chk => t.chk = s.chk
  | .mb => t.mb = s.mb
  | .mp => t.mp = s.mp
  | .irq => t.irq = s.irq
  | .aead => t.aead = s.aead
  | .sec => t.sec = s.sec
  | .host => t.host = s.host
  | .mem => t.mem = s.mem
  | .pair => t.pair = s.pair
  | .tku => t.tku = s.tku
  | .ev => t.ev = s.ev
  | .sf => t.sf = s.sf
  | .plan => t.plan = s.plan
  | .port => t.port = s.port
  | .circ => t.circ = s.circ
  | .feed => t.feed = s.feed
  | .ldpc => t.ldpc = s.ldpc
  | .link => t.link = s.link
  | .air => t.air = s.air
  | .out => t.out = s.out
  | .pending => t.pending = s.pending

/-- The frame: every group but those listed has the same value in both states. -/
def SameBut (gs : List Group) (s t : State) : Prop := ∀ g : Group, g ∉ gs → g.same s t

/-- A command completes: exec answers a next state, which has this property. -/
def Completes (i : Instr) (s : State) (P : State → Prop) : Prop := ∃ t, exec i s = .next t ∧ P t

/-- Every check of a list passes (R386). -/
abbrev ChecksPass (cs : List (Bool × Nat × Nat)) : Prop := ∀ c ∈ cs, c.1 = true

/-- Nothing but the listed groups changes, and of the interrupt state no more than the MSI-X entries that a rise of PENDING signals (R362, R481). -/
abbrev Alone (gs : List Group) (s t : State) : Prop :=
  SameBut (.irq :: .out :: gs) s t ∧ { t.irq with msix := s.irq.msix } = s.irq

/-- Mailbox m completes and beside it nothing but the listed groups changes: no other mailbox, no background operation, and of the interrupt state
its own MB_DONE_MAP bit and the MSI-X entries (R380, R482). -/
abbrev DoneAlone (m : Nat) (gs : List Group) (s t : State) : Prop :=
  SameBut (.mb :: .irq :: .out :: gs) s t ∧ (∀ n, n ≠ m → boxOf t n = boxOf s n) ∧ t.mb.background = s.mb.background
    ∧ { t.irq with mbDone := s.irq.mbDone, msix := s.irq.msix } = s.irq
    ∧ t.irq.mbDone = (if m < 24 then s.irq.mbDone ||| bitAt m true else s.irq.mbDone)

/-- Mailbox m is RUNNING with command `op`, and the device serves that command from it: the ROM loader's set (R400), the owner (R387) and a
standby's refusals (R465). -/
abbrev Serves (s : State) (m op owner : Nat) : Prop :=
  m < 28 ∧ (boxOf s m).st = .running ∧ (boxOf s m).opcode = op ∧ (romLoader s = true → romServes op = true) ∧ ownerOk owner m = true
    ∧ (s.pair.role = .standby → standbyRefuses op = false)

/-- Mailbox m is DONE with status OK and these result words (R378, R380, R385). -/
abbrev Answers (t : State) (m : Nat) (ws : List Word) : Prop :=
  (boxOf t m).st = .done ∧ (boxOf t m).status = stOk ∧ (boxOf t m).resultWords = ws.length ∧ (boxOf t m).data = boxData (ws.take 120)

/-- Mailbox m is DONE with status OK and a result of `n` words in the near store, whose offset and length are the inline result (R385). -/
abbrev AnswersNear (t : State) (m n : Nat) : Prop :=
  (boxOf t m).st = .done ∧ (boxOf t m).status = stOk ∧ (boxOf t m).resultWords = 2 ∧ prmN (boxOf t m) 1 = 8 * n

/-- The state holds the effect `e` on `s`: all of it but the mailboxes, the interrupt state and what was sent, with the queue of `s`. -/
abbrev Leaves (s e t : State) : Prop := SameBut [.mb, .irq, .out, .pending] e t ∧ t.pending = s.pending

/-- Mailbox m is DONE with status OK and returns these words: inline up to 120 of them, else in the near store, where the offset that it answers
says (R385). -/
def Delivers (s t : State) (m : Nat) (ws : List Word) : Prop :=
  if ws.length ≤ 120 then Answers t m ws ∧ t.mem = s.mem ∧ t.clk = s.clk
  else AnswersNear t m ws.length ∧ t.mem = { s.mem with near := memWriteWords s.mem.near (prmN (boxOf t m) 0) ws }

/-- The effect `e` of a command on `s` takes hold: of what it left only MSI-X entries change further, what it sent stays sent, and the queue is that
of `s` (R362, R481). -/
abbrev Becomes (s e t : State) : Prop :=
  SameBut [.irq, .out, .pending] e t ∧ t.irq = { e.irq with msix := t.irq.msix } ∧ (∀ o ∈ e.out, o ∈ t.out) ∧ t.pending = s.pending

/-- The circuits of a set change by `f`, and nothing else of the circuits' state changes. -/
abbrev CircuitsChange (cs : List Nat) (f : Nat → Circuit → Circuit) (s t : State) : Prop :=
  (∀ c, circOf t c = if c ∈ cs then f c (circOf s c) else circOf s c) ∧ { t.circ with circuit := s.circ.circuit } = s.circ

/-- An event is logged, or counted as overflow where the log is full (R394). -/
abbrev Logged (code obj : Nat) (s t : State) : Prop :=
  if s.irq.log.length < 512 then t.irq.log = s.irq.log ++ [{ code := code, object := obj, tick := s.clk.tick }] ∧ t.irq.overflow = s.irq.overflow
  else t.irq.log = s.irq.log ∧ t.irq.overflow = sat32 s.irq.overflow 1

/-- EVENT_VECTOR is signalled in the step from `s` to `t`: a masked vector is pending, an unmasked one is sent where the host link is up (R362, R481). -/
abbrev Signals (s t : State) : Prop :=
  if (tabGet {} s.irq.msix t.irq.vector).masked = true then (tabGet {} t.irq.msix t.irq.vector).pend = true
  else t.host.up = true → Out.msix t.irq.vector (tabGet {} s.irq.msix t.irq.vector).addr (tabGet {} s.irq.msix t.irq.vector).data ∈ t.out

/-- EVENT_VECTOR is signalled in this state: its vector, where masked, is pending, and otherwise its message is sent where the host link is up
(R362, R481). -/
abbrev Told (t : State) : Prop :=
  if (tabGet {} t.irq.msix t.irq.vector).masked = true then (tabGet {} t.irq.msix t.irq.vector).pend = true
  else t.host.up = true → Out.msix t.irq.vector (tabGet {} t.irq.msix t.irq.vector).addr (tabGet {} t.irq.msix t.irq.vector).data ∈ t.out

/-- A W1C cause of INT_CAUSE is set, and beside it nothing changes but MSI-X entries and what was sent (R475, R480). -/
abbrev CauseSet (bit : Nat) (s t : State) : Prop :=
  t.irq = { s.irq with cause := s.irq.cause ||| bitAt bit true, msix := t.irq.msix } ∧ SameBut [.irq, .out] s t

/-- Every port but p keeps what it has, but that a calibration turn which p gives up passes to a port that waits for it (R110). -/
abbrev OthersKeep (p : Nat) (s t : State) : Prop :=
  ∀ q, q ≠ p → portOf t q = portOf s q
    ∨ ((portOf s p).calRun = true ∧ (portOf s q).calDue = true ∧ (portOf s q).state = .active ∧ (portOf t q).calDue = false ∧ (portOf t q).calRun = true)

/-- The lanes of port p acquire anew, and each has sent its training word; the other lanes stay as they were (R81, R83). -/
abbrev LanesAcquire (p : Nat) (s t : State) : Prop :=
  (∀ l, l / 2 = p → laneOf t l = { laneOf s l with blockLock := false, inverted := false, train := none, ready := false, sentWord := some (trainWordOf t p l) }
    ∧ .train l (trainBlock (trainWordOf t p l)) ∈ t.out)
  ∧ ∀ l, l / 2 ≠ p → laneOf t l = laneOf s l

/-- Port p begins a bring-up of a kind at a generation with a new TAG: what it kept of its frames, messages and calibration is forgotten, its lanes
acquire anew and send their training words, and every other port and lane stays as it was (R81 to R84, R87, R110). -/
abbrev BringsUp (k : Bring) (p gen : Nat) (s t : State) : Prop :=
  (∃ tag, tag < 65536 ∧ portOf t p = { portQuiet (portOf s p) with
      state := .bringup, bring := k, gen := gen, phase := .acquire, tries := 0, fallen := false, swapped := false, tag := tag, waiting := none
      probing := false, probeOn := false, pattern := 0, capped := (portOf s p).capped && k != .retrain })
  ∧ OthersKeep p s t ∧ LanesAcquire p s t ∧ Alone [.port, .tku, .clk] s t

/-- A training of the feed link on circuit c begins: data mode is left and its open frames counted, the settings and the span that wait are in force, a retrain keeps the symbol rate
and the trained taps, ECHO's word goes out, and no other circuit's link changes (R211, R213, R216, R232). -/
abbrev BeginsTraining (c : Nat) (st : FeedState) (fast : Bool) (s t : State) : Prop :=
  feedOf t c = { leaveData (feedOf s c) with
      state := st, fast := fast, startedAt := s.clk.now, phase := .echo, phaseAt := s.clk.now, lower := 0, span := effectiveSpan (circuitSpan s c)
      wire := { now := if st = .retrain then (feedOf s c).wire.trained else {}, trained := (feedOf s c).wire.trained, own := (feedOf s c).wire.own
                place := if st = .retrain then (feedOf s c).wire.place else none
                queueX := (feedOf s c).wire.queueX, queueC := (feedOf s c).wire.queueC, queueN := (feedOf s c).wire.queueN } }
  ∧ ((circOf t c).agc = (if (circOf s c).agc = .fixed then .fixed else .acquire) ∧ (circOf t c).set.cdPamMax = (circOf s c).want.cdPamMax
      ∧ (circOf t c).set.cdRateMargin = (circOf s c).want.cdRateMargin ∧ (circOf t c).set.cdLift = (circOf s c).want.cdLift
      ∧ (circOf t c).set.cdThp = (circOf s c).want.cdThp ∧ (circOf t c).want = (circOf s c).want ∧ (circOf t c).gain = (circOf s c).gain
      ∧ (circOf t c).counters = (bumpBy .reasmTimeout ((feedOf s c).openX.toList.length + (feedOf s c).openN.toList.length) (circOf s c)).counters)
  ∧ .feedWord c (headWord (feedOf t c)) ∈ t.out
  ∧ ∀ d, d ≠ c → feedOf t d = feedOf s d ∧ circOf t d = circOf s d

/-- A counter of one circuit goes on by one, and nothing else changes (R140). -/
abbrev Counted (k : Ctr) (c : Nat) (s t : State) : Prop :=
  circOf t c = bump k (circOf s c) ∧ (∀ d, d ≠ c → circOf t d = circOf s d) ∧ Alone [.circ] s t

/-- The commands by which an accepted frame of an endpoint is served, each with the frames that it serves (R304, R305). -/
def uplinkCommands (f : RxFrame) : List (Prop × Instr) :=
  [(f.frame.ftype = 4, .dataFrameRx f), ((5 ≤ f.frame.ftype ∧ f.frame.ftype ≤ 7) ∨ (9 ≤ f.frame.ftype ∧ f.frame.ftype ≤ 11), .mgmtFrameRx f),
   (f.frame.ftype = 8 ∧ f.frame.body.length = 16, .ackRx f), (f.frame.ftype = 5 ∧ bodyType f = 1, .reportRx f),
   (f.frame.ftype = 5 ∧ bodyType f = 2, .sleepReqRx f), (f.frame.ftype = 5 ∧ bodyType f = 6, .relayBeaconRx f),
   (f.frame.ftype = 5 ∧ bodyType f = 7, .leaveRx f), (f.frame.ftype = 7 ∧ bodyType f = 0x10, .turnReport f),
   (f.frame.ftype = 7 ∧ bodyType f = 0x11, .rangeReport f), (f.frame.ftype = 11 ∧ bodyType f = 2, .rangeReply f ())]

/-- Mailbox m is DONE, turned away with this status (R386). -/
abbrev Refuses (t : State) (m status : Nat) : Prop :=
  (boxOf t m).st = .done ∧ (boxOf t m).status = status ∧ (boxOf t m).resultWords = 0

/-- Every waiting command names objects that the device has. -/
abbrev QueueOk (s : State) : Prop := ∀ i ∈ s.pending, i.wf (isH s) = true

/-- The canonical form of the keep store (R435 to R437): words in rising order, none listed that reads as never written. -/
abbrev KeepOk (s : State) : Prop := tabWf {} s.keep.cells = true

/-- The canonical form of the byte-addressed memories (R351, R370): bytes in rising order, none listed that reads as zero. -/
abbrev Memory.wf (m : Memory) : Prop := tabWf 0 m.near = true ∧ tabWf 0 m.planStage = true ∧ tabWf 0 m.granary = true

/-- The invariant of the block: the keep store is in canonical form, and every waiting command names objects of the variant that the identity
word gives (R3, R435, R444). -/
abbrev Inv (s : State) : Prop := KeepOk s ∧ QueueOk s

/-- Every endpoint identity has one record (R289). -/
abbrev OneRecordEach (s : State) : Prop := (s.link.records.map (·.epId)).Nodup

/-- The keep-store write in progress is on a word that is not WORN (R436). -/
abbrev WriteOpen (s : State) : Prop := ∀ k, s.keep.active = some k → worn s k.word = false

/-- A step is safe: it ends in a next state. -/
abbrev SafeStep (s : State) : Prop := ∃ t, step s = .next t

end Sys2Proof.Machine
end

