-- ==== Sys2Proof/Certificates/Slice0/Obligations.lean ====
section
/-! DEFINITION. The statements about the block: for every command what it does where it completes, what the block keeps, and what it does at the
places where the commands meet. -/
open Sys2Proof Sys2Proof.Machine

/-- POST of an IDLE mailbox makes it POSTED, latches the tick and interrupts the running core; POST of a DONE one also discards the previous result.
RELEASE of a DONE mailbox makes it IDLE. CANCEL of a POSTED or RUNNING mailbox, and its timer once 500 ms have passed since POST, end it DONE with
CANCELLED or TIMEOUT and without a result. The running core takes the lowest POSTED mailbox, which becomes RUNNING. No other mailbox changes. POST
of a POSTED or RUNNING mailbox, RELEASE of one that is not DONE and CANCEL of an IDLE or DONE one change nothing at all. That the DONE bit of a
discarded result clears in MB_DONE_MAP is the model's choice. -/
def Obligations.MailboxStates : Prop :=
  (∀ (s : State) (m : Nat), m < 32 → (boxOf s m).st = .idle →
      Completes (.mbPost m) s fun t =>
        boxOf t m = { boxOf s m with st := .posted, postTick := s.clk.tick % 4294967296 } ∧ Out.mpIrq m ∈ t.out
        ∧ (∀ n, n ≠ m → boxOf t n = boxOf s n) ∧ Alone [.mb] s t)
  ∧ (∀ (s : State) (m : Nat), m < 32 → (boxOf s m).st = .done →
      Completes (.mbPost m) s fun t =>
        boxOf t m = { boxOf s m with st := .posted, postTick := s.clk.tick % 4294967296, status := 0, resultWords := 0, detail := 0, doneTick := 0 }
        ∧ Out.mpIrq m ∈ t.out ∧ (∀ n, n ≠ m → boxOf t n = boxOf s n) ∧ SameBut [.mb, .irq, .out] s t)
  ∧ (∀ (s : State) (m : Nat), m < 32 → (boxOf s m).st = .done →
      Completes (.mbRelease m) s fun t =>
        boxOf t m = { boxOf s m with st := .idle } ∧ (∀ n, n ≠ m → boxOf t n = boxOf s n) ∧ SameBut [.mb, .irq, .out] s t)
  ∧ (∀ (s : State) (m : Nat), m < 32 → (boxOf s m).st = .posted ∨ (boxOf s m).st = .running →
      Completes (.mbCancel m) s fun t =>
        (boxOf t m).st = .done ∧ (boxOf t m).status = stCancelled ∧ (boxOf t m).resultWords = 0 ∧ (boxOf t m).detail = 0 ∧ (boxOf t m).data = []
        ∧ (boxOf t m).opcode = (boxOf s m).opcode ∧ (boxOf t m).tag = (boxOf s m).tag
        ∧ (∀ n, n ≠ m → boxOf t n = boxOf s n) ∧ SameBut [.mb, .irq, .out] s t)
  ∧ (∀ (s : State) (m : Nat), m < 32 → (boxOf s m).st = .posted ∨ (boxOf s m).st = .running → 500000 ≤ (s.clk.tick + 4294967296 - (boxOf s m).postTick) % 4294967296 →
      Completes (.mailboxTimeout m) s fun t =>
        (boxOf t m).st = .done ∧ (boxOf t m).status = stTimeout ∧ (boxOf t m).resultWords = 0 ∧ (boxOf t m).data = []
        ∧ (∀ n, n ≠ m → boxOf t n = boxOf s n) ∧ SameBut [.mb, .irq, .out] s t)
  ∧ (∀ (s : State) (m : Nat), s.mp.serving = true → handingOver s = false → (∀ n ∈ List.range 28, (boxOf s n).st ≠ .running) → nextPosted s = some m → knownOpcode (boxOf s m).opcode = true →
      Completes .mbTake s fun t =>
        boxOf t m = { boxOf s m with st := .running } ∧ (∀ n, n ≠ m → boxOf t n = boxOf s n) ∧ Alone [.mb] s t)
  ∧ (∀ (s : State) (m : Nat), m < 32 →
      ((boxOf s m).st = .posted ∨ (boxOf s m).st = .running → exec (.mbPost m) s = .next s)
      ∧ ((boxOf s m).st ≠ .done → exec (.mbRelease m) s = .next s)
      ∧ ((boxOf s m).st = .idle ∨ (boxOf s m).st = .done → exec (.mbCancel m) s = .next s))

/-- A served device.identify, device.status, power.domain_status, firmware.status, diag.mp_status and diag.capture_status answers OK with the words
of R507 (identity words 0 to 3, ID_DEVICE, ID_BUILD and the running core's fields; DEV_STATUS, the domain states, the two PLAN_IDs, TKU_STATUS, the
pair's role and the events held; one domain state a word; each bank's state, release, build and SEC_VERSION, the stage, the running core and the
standby; a word for each core; the capture ring's header words) and changes nothing but its mailbox and what its completion signals. The codes of
the bank states and the word of the background progress are the model's choice. -/
def Obligations.DeviceReadouts : Prop :=
  (∀ (s : State) (m : Nat), Serves s m 0x0101 0 → (boxOf s m).paramWords = 0 →
      Completes (.deviceIdentify m) s fun t =>
        Answers t m [keepWord s 0, keepWord s 1, keepWord s 2, keepWord s 3, idDevice s, idBuild s,
          fieldAt 63 62 (runningCode s) ||| bitAt 61 (standbyReady s) ||| fieldAt 60 60 (bootBank s) ||| bitAt 59 (identFault s)]
        ∧ DoneAlone m [] s t)
  ∧ (∀ (s : State) (m : Nat), Serves s m 0x0102 0 → (boxOf s m).paramWords = 0 →
      Completes (.deviceStatus m) s fun t =>
        Answers t m [devStatus s, domStatus0 s, domStatus1 s, fieldAt 63 32 (planId s.plan.active) ||| fieldAt 31 0 (planId s.plan.staged),
          tkuStatus s, fieldAt 63 61 (roleCode s.pair.role) ||| fieldAt 60 59 s.pair.sbState ||| fieldAt 15 0 s.irq.log.length]
        ∧ DoneAlone m [] s t)
  ∧ (∀ (s : State) (m : Nat), Serves s m 0x0902 0 → (boxOf s m).paramWords = 0 →
      Completes (.powerDomainStatus m) s fun t =>
        Answers t m ((List.range 30).map fun d => BitVec.ofNat 64 (domCode (domOf s d).state)) ∧ DoneAlone m [] s t)
  ∧ (∀ (s : State) (m : Nat), Serves s m 0x0701 0 → (boxOf s m).paramWords = 0 →
      Completes (.firmwareStatus m) s fun t =>
        (∃ w, Answers t m [BitVec.ofNat 64 (bankCode s.mp.bankA.state), BitVec.ofNat 64 s.mp.bankA.image.release,
          BitVec.ofNat 64 s.mp.bankA.image.build, BitVec.ofNat 64 s.mp.bankA.image.sec, BitVec.ofNat 64 (bankCode s.mp.bankB.state),
          BitVec.ofNat 64 s.mp.bankB.image.release, BitVec.ofNat 64 s.mp.bankB.image.build, BitVec.ofNat 64 s.mp.bankB.image.sec,
          bitAt 0 s.mp.stage.isSome, BitVec.ofNat 64 (runningCode s), bitAt 0 (standbyReady s), w])
        ∧ DoneAlone m [] s t)
  ∧ (∀ (s : State) (m : Nat), Serves s m 0x0801 0 → (boxOf s m).paramWords = 0 →
      Completes (.diagMpStatus m) s fun t => Answers t m [coreWord s 0, coreWord s 1] ∧ DoneAlone m [] s t)
  ∧ (∀ (s : State) (m : Nat), Serves s m 0x0841 0 → (boxOf s m).paramWords = 0 →
      Completes (.diagCaptureStatus m) s fun t =>
        Answers t m [BitVec.ofNat 64 s.mem.cap.writeIdx, bitAt 0 s.mem.cap.armed ||| bitAt 1 s.mem.cap.frozen,
          BitVec.ofNat 64 s.mem.cap.triggerTick, BitVec.ofNat 64 (captureCapacity s)]
        ∧ DoneAlone m [] s t)

/-- device.events returns the oldest events asked for, with their number and the overflow count, removes them and clears the count. security.status
returns a word for each key slot and the four counter words and clears the counters. diag.near_read returns the words of the near store while D28 is
on. device.event_vector sets the vector. device.host_mode and device.granary_config set their two fields and queue the setting's keep-store word,
where that word is not worn. Nothing else changes but the mailbox and what its completion signals. Which configuration word a setting occupies, and
its packing, are free in the model. -/
def Obligations.DeviceLogAndSettings : Prop :=
  (∀ (s : State) (m n : Nat), Serves s m 0x0103 0 → (boxOf s m).paramWords = 1 → prmN (boxOf s m) 0 = n → 1 ≤ n ∧ n ≤ 56 →
      Completes (.deviceEvents m) s fun t =>
        Answers t m ([BitVec.ofNat 64 (s.irq.log.take n).length, BitVec.ofNat 64 s.irq.overflow]
          ++ (s.irq.log.take n).flatMap fun e => [fieldAt 63 48 e.code ||| fieldAt 47 0 e.object, BitVec.ofNat 64 e.tick])
        ∧ t.irq.log = s.irq.log.drop n ∧ t.irq.overflow = 0 ∧ SameBut [.mb, .irq, .out] s t)
  ∧ (∀ (s : State) (m : Nat), Serves s m 0x0601 0 → (boxOf s m).paramWords = 0 →
      Completes (.securityStatus m) s fun t =>
        Answers t m ((List.range 32).map (fun k =>
            bitAt 63 (slotOf s k).key.isSome ||| bitAt 62 (slotOf s k).size ||| fieldAt 31 0 (slotOf s k).epoch)
          ++ [twoCounts (tabGet 0 s.aead.grants 1) (tabGet 0 s.aead.grants 2), twoCounts (tabGet 0 s.aead.grants 3) (tabGet 0 s.aead.grants 4),
              twoCounts s.aead.revocations s.aead.idleReleases, fieldAt 63 32 s.aead.mismatch])
        ∧ t.aead = { s.aead with grants := [], revocations := 0, idleReleases := 0, mismatch := 0 } ∧ DoneAlone m [.aead] s t)
  ∧ (∀ (s : State) (m off n : Nat), Serves s m 0x0802 0 → (boxOf s m).paramWords = 2 → prmN (boxOf s m) 0 = off → prmN (boxOf s m) 1 = n → 1 ≤ n ∧ n ≤ 120 → off + 8 * n ≤ 67108864 → domOn s 28 = true →
      Completes (.diagNearRead m) s fun t => Answers t m (memWords s.mem.near off n) ∧ DoneAlone m [] s t)
  ∧ (∀ (s : State) (m v : Nat), Serves s m 0x0134 1 → (boxOf s m).paramWords = 1 → prmN (boxOf s m) 0 = v → v ≤ 63 →
      Completes (.deviceEventVector m) s fun t =>
        Answers t m [] ∧ t.irq.vector = v ∧ t.irq.mask = s.irq.mask ∧ t.irq.cause = s.irq.cause ∧ t.irq.log = s.irq.log
        ∧ SameBut [.mb, .irq, .out] s t)
  ∧ (∀ (s : State) (m x y : Nat), Serves s m 0x0105 0 → (boxOf s m).paramWords = 2 → prmN (boxOf s m) 0 = x → prmN (boxOf s m) 1 = y → x ≤ 1 ∧ y ≤ 1 → worn s (settingWordOf 0x0105) = false →
      Completes (.deviceHostMode m) s fun t =>
        Answers t m [] ∧ t.host = { s.host with hostMode := x == 1, ideRequired := y == 1 }
        ∧ t.keep = (mpHold (settingWordOf 0x0105) 0x0105 [(x : Int), (y : Int)] s).keep ∧ DoneAlone m [.host, .keep] s t)
  ∧ (∀ (s : State) (m x y : Nat), Serves s m 0x0133 1 → (boxOf s m).paramWords = 2 → prmN (boxOf s m) 0 = x → prmN (boxOf s m) 1 = y → x ≤ 8 ∧ y ≤ 4 → worn s (settingWordOf 0x0133) = false →
      Completes (.deviceGranaryConfig m) s fun t =>
        Answers t m [] ∧ t.host = { s.host with captureGib := x, historyGib := y }
        ∧ t.keep = (mpHold (settingWordOf 0x0133) 0x0133 [(x : Int), (y : Int)] s).keep ∧ DoneAlone m [.host, .keep] s t)

/-- While served: firmware.stage_write writes its words into FW_STAGE and makes the stage UNVERIFIED; firmware.verify of an image whose header,
part, version, signature and body hash pass makes the stage VERIFIED and answers RELEASE, SEC_VERSION and BUILD; firmware.write_bank makes the bank
that is not booted INVALID with the staged image and goes on in the background; firmware.activate arms the superframe and the source;
firmware.commit makes TRIAL BOOT and the former BOOT VALID, and queues word 261 with the floor raised to the image's SEC_VERSION; firmware.revert
has the standby take over at the next boundary; firmware.set_boot, from a baseboard mailbox, makes a VALID bank the boot bank. -/
def Obligations.FirmwareUpdate : Prop :=
  (∀ (s : State) (m off : Nat) (b : Mailbox), Serves s m 0x0702 0 → boxOf s m = b → 1 ≤ b.paramWords ∧ b.paramWords ≤ 119 → prmN b 0 = off → off % 8 = 0 ∧ off + 8 * (b.paramWords - 1) ≤ 16777216 → domOn s 28 = true → updateInProgress s = false →
      Completes (.firmwareStageWrite m) s fun t =>
        Answers t m [] ∧ t.mp = { s.mp with stage := none }
        ∧ t.mem = (granaryWrite (stageBase s + off) (wordsBytes (prms b 1 (b.paramWords - 1))) s).mem ∧ DoneAlone m [.mem, .mp] s t)
  ∧ (∀ (s : State) (m : Nat) (h : List Word), Serves s m 0x0703 0 → (boxOf s m).paramWords = 0 → memWords s.mem.granary (stageBase s) 512 = h → domOn s 28 = true → fwFormatOk h = true → fieldOf (hdr h 2) 63 48 = 0x8800 ∧ fieldOf (hdr h 2) 47 40 ≤ siliconRev s ∧ fwSecMin s ≤ fieldOf (hdr h 1) 47 32 →
      Completes (.firmwareVerify m) s fun t =>
        (if fwSignatureOk s ((wordsBytes h).take 80) (((wordsBytes h).drop 80).take 96) = true
            ∧ sha384 (memRead s.mem.granary (stageBase s + 4096) (hdr h 3).toNat) = (h.drop 4).take 6 then
          Answers t m [BitVec.ofNat 64 (fieldOf (hdr h 1) 63 48), BitVec.ofNat 64 (fieldOf (hdr h 1) 47 32), BitVec.ofNat 64 (fieldOf (hdr h 1) 31 0)]
          ∧ t.mp = { s.mp with stage := some { release := fieldOf (hdr h 1) 63 48, build := fieldOf (hdr h 1) 31 0, sec := fieldOf (hdr h 1) 47 32,
                                               hash := (h.drop 4).take 6 } }
        else Refuses t m 0x15 ∧ t.mp = s.mp)
        ∧ SameBut [.mp, .mb, .irq, .out] s t)
  ∧ (∀ (s : State) (m k : Nat) (img : Image), Serves s m 0x0704 0 → (boxOf s m).paramWords = 0 → k = 1 - bootBank s → s.mp.stage = some img → (bankOf s k).state ≠ .trial → flashBusy s = false →
      Completes (.firmwareWriteBank m) s fun t =>
        Answers t m [BitVec.ofNat 64 k] ∧ t.mp = (setBank k { state := .invalid, image := img } s).mp
        ∧ t.mb.background = s.mb.background ++ [.writeBank k] ∧ SameBut [.mp, .mb, .irq, .out] s t)
  ∧ (∀ (s : State) (m x src : Nat), Serves s m 0x0705 0 → (boxOf s m).paramWords = 2 → prmN (boxOf s m) 0 = x → prmN (boxOf s m) 1 = src → x < 2 ^ 40 ∧ src ≤ 1 → counting s = true → (if src = 0 then s.mp.stage.isSome else (bankOf s (1 - bootBank s)).state == .valid) = true → inTrial s = false → s.mp.armed = none → s.sf.number + 2 ≤ x →
      Completes (.firmwareActivate m) s fun t =>
        Answers t m [] ∧ t.mp = (restartStandby { s with mp := { s.mp with armed := some { sf := x, source := src } } }).mp
        ∧ t.mp.armed = some { sf := x, source := src } ∧ DoneAlone m [.mp] s t)
  ∧ (∀ (s : State) (m k : Nat), Serves s m 0x0706 0 → (boxOf s m).paramWords = 0 → k = 1 - bootBank s → (bankOf s k).state = .trial → flashBusy s = false → worn s 261 = false →
      Completes (.firmwareCommit m) s fun t =>
        Answers t m []
        ∧ t.mp = (restartStandby (setBank k { bankOf s k with state := .boot } (setBank (1 - k) { bankOf s (1 - k) with state := .valid } s))).mp
        ∧ t.keep = (mpWrite 261 (bootWord k (max (fwSecMin s) (bankOf s k).image.sec)) s).keep
        ∧ t.mb.background = s.mb.background ++ [.commitBank k] ∧ SameBut [.mp, .keep, .mb, .irq, .out] s t)
  ∧ (∀ (s : State) (m : Nat), Serves s m 0x0707 0 → (boxOf s m).paramWords = 0 → inTrial s = true →
      Completes (.firmwareRevert m) s fun t => Answers t m [] ∧ t.mp = { s.mp with revertDue := true } ∧ DoneAlone m [.mp] s t)
  ∧ (∀ (s : State) (m k : Nat), Serves s m 0x0708 2 → (boxOf s m).paramWords = 1 → prmN (boxOf s m) 0 = k → k ≤ 1 → (bankOf s k).state = .valid → worn s 261 = false →
      Completes (.firmwareSetBoot m) s fun t =>
        Answers t m [] ∧ t.mp = (setBank k { bankOf s k with state := .boot } (setBank (1 - k) { bankOf s (1 - k) with state := .valid } s)).mp
        ∧ t.keep = (mpWrite 261 (bootWord k (fwSecMin s)) s).keep ∧ DoneAlone m [.mp, .keep] s t)

/-- A served device.reset answers OK, and: scope 1 leaves what a restart of the standby leaves; scope 2 leaves what a restart of both cores leaves
of the answered state, so that no core serves and every other RUNNING mailbox is DONE with CANCELLED; scope 3 leaves what RESET_N taken and released
at once leaves of the answered state, with tick 0, RESET_N released and the TKU in ACQUIRE. A served power.domain_set outside the start-up sequence
and a power-cycle answers OK and changes the domain as R450's row says: Up of an ENABLED or POWERING_UP and Down of a DRAINING or POWERING_DOWN
domain with no opposite request pending change nothing; Up of an OFF or FAULT one begins its power-up where the sequencer is free and queues it
where it is not; Up of a DRAINING or POWERING_DOWN one is kept pending; Down not refused begins the drain of an ENABLED domain and is kept pending
for a POWERING_UP one. No other domain changes. -/
def Obligations.SystemCommands : Prop :=
  (∀ (s : State) (m : Nat), Serves s m 0x0104 0 → (boxOf s m).paramWords = 2 → prmN (boxOf s m) 0 = 1 ∧ prm (boxOf s m) 1 = 0x52455345 → updateInProgress s = false →
      Completes (.deviceReset m) s fun t => Answers t m [] ∧ t.mp = (restartStandby s).mp ∧ DoneAlone m [.mp] s t)
  ∧ (∀ (s : State) (m : Nat), Serves s m 0x0104 0 → (boxOf s m).paramWords = 2 → prmN (boxOf s m) 0 = 2 ∧ prm (boxOf s m) 1 = 0x52455345 → updateInProgress s = false →
      Completes (.deviceReset m) s fun t => ∃ u, Answers u m [] ∧ DoneAlone m [] s u ∧ Becomes s (restartCores u) t ∧ t.mp.serving = false ∧ Answers t m []
        ∧ ∀ n, n < 32 → n ≠ m → (boxOf s n).st = .running → (boxOf t n).st = .done ∧ (boxOf t n).status = stCancelled)
  ∧ (∀ (s : State) (m : Nat), Serves s m 0x0104 0 → (boxOf s m).paramWords = 2 → prmN (boxOf s m) 0 = 3 ∧ prm (boxOf s m) 1 = 0x52455345 → updateInProgress s = false →
      Completes (.deviceReset m) s fun t => ∃ u, Answers u m [] ∧ DoneAlone m [] s u ∧ Becomes s (releaseReset (takeReset u)) t
        ∧ t.clk.tick = 0 ∧ t.pins.resetReleased = true ∧ t.tku.state = .acquire)
  ∧ (∀ (s : State) (m d : Nat), Serves s m 0x0901 0 → (boxOf s m).paramWords = 2 → prmN (boxOf s m) 0 = d ∧ d ≤ 29 ∧ prmN (boxOf s m) 1 = 1 → s.pwr.seqRunning = false → (domOf s d).cycling = false → (domOf s d).state = .enabled ∨ (domOf s d).state = .poweringUp ∧ (domOf s d).pendDown = false →
      Completes (.powerDomainSet m) s fun t => Answers t m [] ∧ DoneAlone m [] s t)
  ∧ (∀ (s : State) (m d : Nat), Serves s m 0x0901 0 → (boxOf s m).paramWords = 2 → prmN (boxOf s m) 0 = d ∧ d ≤ 29 ∧ prmN (boxOf s m) 1 = 2 → s.pwr.seqRunning = false → (domOf s d).cycling = false → ((domOf s d).state = .draining ∨ (domOf s d).state = .poweringDown) ∧ (domOf s d).pendUp = false →
      Completes (.powerDomainSet m) s fun t => Answers t m [] ∧ DoneAlone m [] s t)
  ∧ (∀ (s : State) (m d : Nat), Serves s m 0x0901 0 → (boxOf s m).paramWords = 2 → prmN (boxOf s m) 0 = d ∧ d ≤ 29 ∧ prmN (boxOf s m) 1 = 1 → s.pwr.seqRunning = false → (domOf s d).cycling = false → ((domOf s d).state = .off ∨ (domOf s d).state = .fault) ∧ (domOf s d).pendUp = false ∧ s.pwr.switching = none ∧ s.pwr.waiting = [] →
      Completes (.powerDomainSet m) s fun t => Answers t m [] ∧ domOf t d = { domOf s d with state := .poweringUp, pendUp := false, since := s.clk.now } ∧ (∀ e, e ≠ d → domOf t e = domOf s e) ∧ t.pwr.switching = some d ∧ t.pwr.waiting = s.pwr.waiting
        ∧ DoneAlone m [.pwr] s t)
  ∧ (∀ (s : State) (m d : Nat), Serves s m 0x0901 0 → (boxOf s m).paramWords = 2 → prmN (boxOf s m) 0 = d ∧ d ≤ 29 ∧ prmN (boxOf s m) 1 = 1 → s.pwr.seqRunning = false → (domOf s d).cycling = false → ((domOf s d).state = .off ∨ (domOf s d).state = .fault) ∧ (domOf s d).pendUp = false ∧ (s.pwr.switching ≠ none ∨ s.pwr.waiting ≠ []) →
      Completes (.powerDomainSet m) s fun t => Answers t m [] ∧ domOf t d = { domOf s d with pendUp := true } ∧ (∀ e, e ≠ d → domOf t e = domOf s e) ∧ t.pwr.switching = s.pwr.switching ∧ t.pwr.waiting = s.pwr.waiting ++ [(d, true)]
        ∧ DoneAlone m [.pwr] s t)
  ∧ (∀ (s : State) (m d : Nat), Serves s m 0x0901 0 → (boxOf s m).paramWords = 2 → prmN (boxOf s m) 0 = d ∧ d ≤ 29 ∧ prmN (boxOf s m) 1 = 1 → s.pwr.seqRunning = false → (domOf s d).cycling = false → (domOf s d).state = .draining ∨ (domOf s d).state = .poweringDown →
      Completes (.powerDomainSet m) s fun t => Answers t m [] ∧ domOf t d = { domOf s d with pendUp := true } ∧ (∀ e, e ≠ d → domOf t e = domOf s e) ∧ t.pwr.switching = s.pwr.switching ∧ t.pwr.waiting = s.pwr.waiting
        ∧ DoneAlone m [.pwr] s t)
  ∧ (∀ (s : State) (m d : Nat), Serves s m 0x0901 0 → (boxOf s m).paramWords = 2 → prmN (boxOf s m) 0 = d ∧ d ≤ 29 ∧ prmN (boxOf s m) 1 = 2 → s.pwr.seqRunning = false → (domOf s d).cycling = false → (domOf s d).state = .enabled ∧ downRefused s d = 0 →
      Completes (.powerDomainSet m) s fun t => Answers t m [] ∧ domOf t d = { domOf s d with state := .draining, pendDown := false, since := s.clk.now } ∧ (∀ e, e ≠ d → domOf t e = domOf s e) ∧ t.pwr.switching = s.pwr.switching ∧ t.pwr.waiting = s.pwr.waiting
        ∧ DoneAlone m [.pwr] s t)
  ∧ (∀ (s : State) (m d : Nat), Serves s m 0x0901 0 → (boxOf s m).paramWords = 2 → prmN (boxOf s m) 0 = d ∧ d ≤ 29 ∧ prmN (boxOf s m) 1 = 2 → s.pwr.seqRunning = false → (domOf s d).cycling = false → (domOf s d).state = .poweringUp ∧ downRefused s d = 0 →
      Completes (.powerDomainSet m) s fun t => Answers t m [] ∧ domOf t d = { domOf s d with pendDown := true } ∧ (∀ e, e ≠ d → domOf t e = domOf s e) ∧ t.pwr.switching = s.pwr.switching ∧ t.pwr.waiting = s.pwr.waiting
        ∧ DoneAlone m [.pwr] s t)

/-- A served ageing.cluster_test of a free, powered cluster begins its test in the background. A served diag.capture arms the ring on its circuits
with its trigger and POST_TICKS, and a command trigger fires at once. The ring freezes and disarms when POST_TICKS have passed since its trigger.
The end of a background operation removes it and, by its kind: a survey 48 superframes old leaves its words in the near store, with event 0x0023; a
plan save makes the plan the boot plan, with event 0x0014; a bank written becomes TRIAL where it holds the staged trial's image and VALID otherwise,
with event 0x0063; a commit changes nothing more; a margin scan leaves its grid in the near store; a cluster's test a superframe old ends with event
0x0016, and on a retired cluster a failed run clears the passes, a pass 24 hours after the one before counts, and the third returns the cluster to
service. Before its time the end of a survey or test, and the end of an operation that is not there, change nothing. What a survey and a scan
measure is the command's operand. -/
def Obligations.BackgroundWork : Prop :=
  (∀ (s : State) (m c : Nat), Serves s m 0x0905 0 → (boxOf s m).paramWords = 1 → prmN (boxOf s m) 0 = c → c ≤ 271 ∧ clusterExists s c = true → domOn s (12 + c / 17) = true → (usedClusters s).contains c = false → s.age.testing = none →
      Completes (.ageingClusterTest m) s fun t =>
        Answers t m [] ∧ t.age = { s.age with testing := some (c, s.clk.now) } ∧ t.mb.background = s.mb.background ++ [.clusterTest c]
        ∧ SameBut [.age, .mb, .irq, .out] s t)
  ∧ (∀ (s : State) (m n : Nat) (b : Mailbox), Serves s m 0x0840 0 → boxOf s m = b → prmN b 0 = n ∧ 1 ≤ n ∧ n ≤ 16 → b.paramWords = n + 4 → ((prms b 1 n).all fun w => decide (w.toNat < 4096 ∧ fieldOf w 11 10 ≠ 0)) = true → ((prms b 1 n).all fun w => circuitAvailable s (fieldOf w 9 0)) = true → prmN b (n + 1) ∈ [0x0043, 0x0044, 0x0045, 0x0002, 0x0020, 0x0040] → prmN b (n + 2) ≤ 767 ∧ circuitAvailable s (prmN b (n + 2)) = true ∧ prmN b (n + 3) ≤ 4294967295 →
      Completes (.diagCapture m) s fun t =>
        Answers t m [] ∧ t.mem = { s.mem with cap := {
          armed := true, circuits := (prms b 1 n).map fun w => (fieldOf w 9 0, fieldOf w 11 10), trigger := prmN b (n + 1)
          trigCircuit := prmN b (n + 2), postTicks := prmN b (n + 3) } }
        ∧ DoneAlone m [.mem] s t)
  ∧ (∀ (s : State) (m n : Nat) (b : Mailbox), Serves s m 0x0840 0 → boxOf s m = b → prmN b 0 = n ∧ 1 ≤ n ∧ n ≤ 16 → b.paramWords = n + 4 → ((prms b 1 n).all fun w => decide (w.toNat < 4096 ∧ fieldOf w 11 10 ≠ 0)) = true → ((prms b 1 n).all fun w => circuitAvailable s (fieldOf w 9 0)) = true → prmN b (n + 1) = 0 → prmN b (n + 2) ≤ 767 ∧ circuitAvailable s (prmN b (n + 2)) = true ∧ prmN b (n + 3) ≤ 4294967295 →
      Completes (.diagCapture m) s fun t =>
        Answers t m [] ∧ t.mem = { s.mem with cap := {
          armed := true, circuits := (prms b 1 n).map fun w => (fieldOf w 9 0, fieldOf w 11 10), trigger := 0
          trigCircuit := prmN b (n + 2), postTicks := prmN b (n + 3), triggerTick := s.clk.tick, freezeAt := some (s.clk.now + prmN b (n + 3)) } }
        ∧ DoneAlone m [.mem] s t)
  ∧ (∀ (s : State) (k : Nat), s.mem.cap.armed = true → s.mem.cap.freezeAt = some k ∧ k ≤ s.clk.now →
      Completes .captureFreeze s fun t =>
        t.mem = { s.mem with cap := { s.mem.cap with armed := false, frozen := true, freezeAt := none } } ∧ Alone [.mem] s t)
  ∧ (∀ (s : State) (k : Nat) (res : OpResult) (g near n : Nat), s.mb.background[k]? = some (.xtSurvey g near n) → n + 48 ≤ s.sf.number →
      Completes (.backgroundOpDone k res) s fun t =>
        t.mb = { s.mb with background := s.mb.background.eraseIdx k } ∧ t.mem.near = memWriteWords s.mem.near near res.words ∧ Logged 0x0023 g s t
        ∧ SameBut [.mb, .mem, .irq, .out] s t)
  ∧ (∀ (s : State) (k : Nat) (res : OpResult) (img : List Word), s.mb.background[k]? = some (.planSave img) →
      Completes (.backgroundOpDone k res) s fun t =>
        t.mb = { s.mb with background := s.mb.background.eraseIdx k } ∧ t.mp = { s.mp with bootPlan := img } ∧ Logged 0x0014 (planId img) s t ∧ t.mem.near = s.mem.near
        ∧ SameBut [.mb, .mp, .mem, .irq, .out] s t)
  ∧ (∀ (s : State) (k : Nat) (res : OpResult) (j : Nat), s.mb.background[k]? = some (.writeBank j) → j ≤ 1 →
      Completes (.backgroundOpDone k res) s fun t =>
        t.mb = { s.mb with background := s.mb.background.eraseIdx k }
        ∧ bankOf t j = { state := if s.mp.stageTrial = true ∧ (bankOf s j).image = runningImage s then .trial else .valid, image := (bankOf s j).image }
        ∧ bankOf t (1 - j) = bankOf s (1 - j) ∧ t.mp.stageTrial = (s.mp.stageTrial && (bankOf s j).image != runningImage s)
        ∧ t.mp = { s.mp with bankA := t.mp.bankA, bankB := t.mp.bankB, stageTrial := t.mp.stageTrial } ∧ Logged 0x0063 j s t
        ∧ SameBut [.mb, .mp, .mem, .irq, .out] s t)
  ∧ (∀ (s : State) (k : Nat) (res : OpResult) (j : Nat), s.mb.background[k]? = some (.commitBank j) →
      Completes (.backgroundOpDone k res) s fun t =>
        t.mb = { s.mb with background := s.mb.background.eraseIdx k } ∧ Alone [.mb] s t)
  ∧ (∀ (s : State) (k : Nat) (res : OpResult) (l near : Nat), s.mb.background[k]? = some (.marginScan l near) →
      Completes (.backgroundOpDone k res) s fun t =>
        t.mb = { s.mb with background := s.mb.background.eraseIdx k } ∧ t.mem = { s.mem with near := memWriteWords s.mem.near near res.words } ∧ Alone [.mb, .mem] s t)
  ∧ (∀ (s : State) (k : Nat) (res : OpResult) (c at_ : Nat) (p : Nat × Nat) (keep third : Bool), s.mb.background[k]? = some (.clusterTest c) → s.age.testing = some (c, at_) ∧ at_ + s.sf.len ≤ s.clk.now → p = tabGet (0, 0) s.age.passes c → keep = (!s.plan.retired.contains c || res.ok && decide (p.1 ≠ 0 ∧ s.clk.now < p.2 + 86400000000)) → third = decide (2 ≤ p.1) →
      Completes (.backgroundOpDone k res) s fun t =>
        t.mb = { s.mb with background := s.mb.background.eraseIdx k }
        ∧ t.age = { s.age with testing := none
                               passes := if keep = true then s.age.passes
                                         else tabPut (0, 0) s.age.passes c (if res.ok = true ∧ third = false then (p.1 + 1, s.clk.now) else (0, 0)) }
        ∧ t.plan = (if keep = false ∧ res.ok = true ∧ third = true then { s.plan with retired := s.plan.retired.filter (· != c) } else s.plan)
        ∧ (¬ (keep = false ∧ res.ok = true ∧ third = true) → t.keep = s.keep)
        ∧ Logged 0x0016 (c % 512 + (if res.ok then 65536 else 0)) s t ∧ SameBut [.mb, .age, .plan, .keep, .mem, .irq, .out] s t)
  ∧ (∀ (s : State) (k : Nat) (res : OpResult), s.mb.background[k]? = none ∨ (∃ g near n, s.mb.background[k]? = some (.xtSurvey g near n) ∧ s.sf.number < n + 48)
      ∨ (∃ c at_, s.mb.background[k]? = some (.clusterTest c) ∧ s.age.testing = some (c, at_) ∧ s.clk.now < at_ + s.sf.len) →
      exec (.backgroundOpDone k res) s = .next s)

/-- While served: security.attest, with the identity region sound, leaves the 64-word report of the caller's nonce in the near store, its signature
drawing from the DRBG once, and answers its offset; security.cert does so with the public key and the certificate chain; ageing.ledger delivers
HEADROOM, the worst sensor, its YEARS_LEFT and six words for each of the 48 sensors; power.avs_status answers set point, state, the live minimum and
its sensor, HEADROOM and two words a regulator. security.join_key with action 2 deletes the endpoint's key; with action 1, a wrapped key that opens
under PROV_KEY and a counter of STORE left, it keeps the key wrapped under STORE with that counter and leaves slot 2 EMPTY; without PROV_KEY action
1 is refused with REFUSED_SIGNATURE. security.zeroise of one slot clears that slot's key, ends an operation RUNNING on it as zeroising the slot
does, and with none RUNNING leaves the slot's counter and the other slots; with slot 0xFF, its words not worn, it zeroises every slot, deletes the
join keys and queues the sealed PROV_KEY's words as zero. The offset is the firmware's pick, a free value; the code of an absent ledger record is
free. -/
def Obligations.SecurityAndLedgerReports : Prop :=
  (∀ (s : State) (m : Nat), Serves s m 0x0605 0 → (boxOf s m).paramWords = 6 → identFault s = false → domOn s 28 = true →
      Completes (.securityAttest m) s fun t => ∃ off, Answers t m [BitVec.ofNat 64 off]
        ∧ t.mem = { s.mem with near := memWriteWords s.mem.near off (attestReport s (prms (boxOf s m) 0 6)).1 }
        ∧ t.aead = { s.aead with drbgRequests := s.aead.drbgRequests + 1 } ∧ SameBut [.clk, .aead, .mem, .mb, .irq, .out] s t)
  ∧ (∀ (s : State) (m : Nat), Serves s m 0x0606 0 → (boxOf s m).paramWords = 0 → domOn s 28 = true →
      Completes (.securityCert m) s fun t => ∃ off, Answers t m [BitVec.ofNat 64 off]
        ∧ t.mem = { s.mem with
            near := memWriteWords s.mem.near off
              ((List.range 12).map (fun i => keepWord s (4 + i)) ++ (List.range 224).map (fun i => keepWord s (32 + i))) }
        ∧ SameBut [.clk, .mem, .mb, .irq, .out] s t)
  ∧ (∀ (s : State) (m : Nat), Serves s m 0x0904 0 → (boxOf s m).paramWords = 0 → domOn s 28 = true →
      Completes (.ageingLedger m) s fun t => ∃ code : Nat → Int, Delivers s t m ([BitVec.ofInt 64 (s.age.headroom / 100), BitVec.ofNat 64 s.age.worst,
          BitVec.ofNat 64 (tabGet {} s.age.sensors s.age.worst).yearsLeft]
        ++ (List.range 48).flatMap fun n =>
          let x := tabGet {} s.age.sensors n
          [if ledgerPresent s n then BitVec.ofNat 64 (domCode (domOf s (sensorDomain n)).state) else BitVec.ofInt 64 (code n),
           BitVec.ofInt 64 x.s, BitVec.ofInt 64 x.now, BitVec.ofInt 64 (ledgerFresh s n - x.now), BitVec.ofInt 64 x.rate,
           BitVec.ofInt 64 (x.needV / 100)])
        ∧ SameBut [.clk, .mem, .mb, .irq, .out] s t)
  ∧ (∀ (s : State) (m : Nat), Serves s m 0x0903 0 → (boxOf s m).paramWords = 0 → s.avs.regs.length ≤ 57 →
      Completes (.powerAvsStatus m) s fun t =>
        Answers t m ([BitVec.ofNat 64 (s.avs.setPoint * 5 / 2), BitVec.ofNat 64 (avsState s), BitVec.ofInt 64 s.avs.sMin,
            BitVec.ofNat 64 s.avs.sMinSensor, BitVec.ofInt 64 (s.age.headroom / 100)]
          ++ s.avs.regs.flatMap fun r =>
            [fieldAt 63 56 r.addr ||| fieldAt 55 40 r.vout ||| fieldAt 39 24 r.iout ||| fieldAt 23 16 r.temp, fieldAt 15 0 r.status])
        ∧ DoneAlone m [] s t)
  ∧ (∀ (s : State) (m : Nat) (b : Mailbox), Serves s m 0x0602 0 → boxOf s m = b → b.paramWords = 8 → prmN b 2 = 2 →
      Completes (.securityJoinKey m) s fun t =>
        Answers t m [] ∧ t.sec = { s.sec with joinKeys := tabPut [] s.sec.joinKeys (epIdOf b 0) [] } ∧ DoneAlone m [.sec] s t)
  ∧ (∀ (s u : State) (m : Nat) (b : Mailbox) (k key : List Word) (bs : List Byte), Serves s m 0x0602 0 → boxOf s m = b → b.paramWords = 8 → prmN b 2 = 1 → (slotOf s 0).key = some k ∧ (slotOf s 1).key = some key → aeadOpen false k (0xFFFFFFF0 * 18446744073709551616 + prmN b 3) (bytesBE (prm b 0) ++ bytesBE (prm b 1))
              (bytesBE (prm b 4) ++ bytesBE (prm b 5)) (bytesBE (prm b 6) ++ bytesBE (prm b 7)) = some bs → useCounter 1 s = some u →
      Completes (.securityJoinKey m) s fun t =>
        Answers t m [] ∧ (slotOf t 2).key = none ∧ (slotOf s 1).counter < (slotOf t 1).counter
        ∧ t.sec.joinKeys = tabPut [] s.sec.joinKeys (epIdOf b 0) (BitVec.ofNat 64 (slotOf s 1).counter :: keyOfBytes
            ((aeadSeal false key ((slotOf s 1).epoch * 18446744073709551616 + (slotOf s 1).counter) (bytesBE (prm b 0) ++ bytesBE (prm b 1)) bs 16).1
              ++ (aeadSeal false key ((slotOf s 1).epoch * 18446744073709551616 + (slotOf s 1).counter) (bytesBE (prm b 0) ++ bytesBE (prm b 1)) bs 16).2)))
  ∧ (∀ (s : State) (m : Nat) (b : Mailbox), Serves s m 0x0602 0 → boxOf s m = b → b.paramWords = 8 → prmN b 2 = 1 → (slotOf s 0).key = none →
      Completes (.securityJoinKey m) s fun t => Refuses t m 0x15 ∧ t.sec = s.sec ∧ t.aead = s.aead)
  ∧ (∀ (s : State) (m k : Nat), Serves s m 0x0604 0 → (boxOf s m).paramWords = 1 → prmN (boxOf s m) 0 = k → k < 32 → s.aead.run = none →
      Completes (.securityZeroise m) s fun t =>
        Answers t m [] ∧ slotOf t k = { slotOf s k with key := none } ∧ (∀ j, j ≠ k → slotOf t j = slotOf s j) ∧ DoneAlone m [.aead] s t)
  ∧ (∀ (s : State) (m k : Nat), Serves s m 0x0604 0 → (boxOf s m).paramWords = 1 → prmN (boxOf s m) 0 = k → k < 32 →
      Completes (.securityZeroise m) s fun t => Answers t m [] ∧ (slotOf t k).key = none ∧ Leaves s (zeroiseSlot k s) t)
  ∧ (∀ (s : State) (m : Nat), Serves s m 0x0604 0 → (boxOf s m).paramWords = 1 → prmN (boxOf s m) 0 = 0xFF → (∀ w ∈ [3584, 3585, 3586, 3587], worn s w = false) →
      Completes (.securityZeroise m) s fun t =>
        Answers t m [] ∧ t.sec.joinKeys = [] ∧ (∀ k, k < 32 → (slotOf t k).key = none) ∧ (∀ w ∈ [3584, 3585, 3586, 3587], keepQueued t w = 0)
        ∧ Leaves s (mpWrites [(3584, 0), (3585, 0), (3586, 0), (3587, 0)]
            { ((List.range 32).foldl (fun t i => zeroiseSlot i t) s) with sec := { ((List.range 32).foldl (fun t i => zeroiseSlot i t) s).sec with joinKeys := [] } }) t)

/-- For a PSET of existing ports, while served: port.status delivers each port's words; port.frame_counters delivers the seven counters of each port
and clears them; lane.counters delivers the five counters of each lane and clears them. Ports outside the set keep theirs, and nothing else changes
but the result and its mailbox. lane.margin_scan of a powered lane, with no other scan in its octet domain, begins one in the background and answers
the offset in the near store where its grid will lie, which is the firmware's pick. -/
def Obligations.PortReadouts : Prop :=
  (∀ (s : State) (m : Nat) (w : Word), Serves s m 0x0110 0 → (boxOf s m).paramWords = 1 → prm (boxOf s m) 0 = w → ChecksPass (psetChecks s (boxOf s m)) →
      Completes (.portStatus m) s fun t => Answers t m ((portsOf w).flatMap (portStatus s)) ∧ DoneAlone m [] s t)
  ∧ (∀ (s : State) (m : Nat) (w : Word), Serves s m 0x0115 0 → (boxOf s m).paramWords = 1 → prm (boxOf s m) 0 = w → ChecksPass (psetChecks s (boxOf s m)) → domOn s 28 = true →
      Completes (.portFrameCounters m) s fun t =>
        Delivers s t m ((portsOf w).flatMap fun p => let x := portOf s p
          packCounts [x.frameOk, x.missed, x.tagSlip, x.cellLost, x.ledgerFail, x.pathDrift, x.txConflict])
        ∧ (∀ p, portOf t p = if p ∈ portsOf w then { portOf s p with
            frameOk := 0, missed := 0, tagSlip := 0, cellLost := 0, ledgerFail := 0, pathDrift := 0, txConflict := 0 } else portOf s p)
        ∧ t.port.lane = s.port.lane ∧ SameBut [.port, .clk, .mem, .mb, .irq, .out] s t)
  ∧ (∀ (s : State) (m : Nat) (w : Word), Serves s m 0x0822 0 → (boxOf s m).paramWords = 1 → prm (boxOf s m) 0 = w → ChecksPass (psetChecks s (boxOf s m)) → domOn s 28 = true →
      Completes (.laneCounters m) s fun t =>
        Delivers s t m (((portsOf w).flatMap lanesOf).flatMap fun l => let x := laneOf s l
          packCounts [x.blockErr, x.syncErr, x.lockLoss, x.bringupFail, x.prbsErr])
        ∧ (∀ l, laneOf t l = if l / 2 ∈ portsOf w then { laneOf s l with
            blockErr := 0, syncErr := 0, lockLoss := 0, bringupFail := 0, prbsErr := 0 } else laneOf s l)
        ∧ t.port.port = s.port.port ∧ SameBut [.port, .clk, .mem, .mb, .irq, .out] s t)
  ∧ (∀ (s : State) (m l dwell : Nat), Serves s m 0x0821 0 → (boxOf s m).paramWords = 2 → prmN (boxOf s m) 0 = l ∧ l ≤ 71 → prmN (boxOf s m) 1 = dwell ∧ 6 ≤ dwell ∧ dwell ≤ 10 → portExists s (l / 2) = true ∧ domOn s (portDomain (l / 2)) = true ∧ domOn s 28 = true → (∀ q n, Background.marginScan q n ∈ s.mb.background → portDomain (q / 2) ≠ portDomain (l / 2)) →
      Completes (.laneMarginScan m) s fun t => ∃ near, Answers t m [BitVec.ofNat 64 near]
        ∧ t.mb.background = s.mb.background ++ [.marginScan l near] ∧ SameBut [.clk, .mb, .irq, .out] s t)

/-- For a PSET of existing, powered ports, while served: port.retrain requests a retrain of each port in ascending order; port.set_state, where no
port may not leave ACTIVE, moves each port by R87, and a set of one STANDBY port moved to ACTIVE, or of one ACTIVE port moved to STANDBY, ends
there; port.calibrate queues a calibration of each READY front-end port; lane.prbs announces and starts a pattern on each port, none of which is
busy or in bring-up, or brings the ports under test up again. port.set_preset pins or releases one lane's preset of one generation and queues that
lane's keep-store word. clock.set_spread sets SPREAD while every front-end port is OFF or DORMANT. port.config sets RX_LEAD and TX_LAG in steps of 4
ns for the device, and GEN_MAX of each port and SPREF_DELAY_NOM of each front-end port of the set. The frame of each is what its operation leaves,
and its mailbox. -/
def Obligations.PortControls : Prop :=
  (∀ (s : State) (m : Nat) (w : Word), Serves s m 0x0111 0 → (boxOf s m).paramWords = 1 → prm (boxOf s m) 0 = w → ChecksPass (psetChecks s (boxOf s m)) ∧ portsOn s w = true →
      Completes (.portRetrain m) s fun t => Answers t m [] ∧ Leaves s ((portsOf w).foldl (fun t p => requestBring .retrain p t) s) t)
  ∧ (∀ (s : State) (m code : Nat) (w : Word), Serves s m 0x0112 0 → (boxOf s m).paramWords = 2 → prm (boxOf s m) 0 = w ∧ prmN (boxOf s m) 1 = code ∧ code ≤ 2 → ChecksPass (psetChecks s (boxOf s m)) ∧ portsOn s w = true → (code = 0 ∨ ∀ p ∈ portsOf w, (portOf s p).state = .active → portBusy s p = false ∧ carriesMirror s p = false) →
      Completes (.portSetState m) s fun t =>
        Answers t m [] ∧ Leaves s ((portsOf w).foldl (fun t p => setPortState code p t) s) t
        ∧ (∀ p, portsOf w = [p] → (portOf s p).state = .standby → code = 0 → (portOf t p).state = .active)
        ∧ (∀ p, portsOf w = [p] → (portOf s p).state = .active → code = 1 → (portOf t p).state = .standby))
  ∧ (∀ (s : State) (m : Nat) (w : Word), Serves s m 0x0116 0 → (boxOf s m).paramWords = 1 → prm (boxOf s m) 0 = w → ChecksPass (psetChecks s (boxOf s m)) ∧ portsOn s w = true →
      Completes (.portCalibrate m) s fun t => Answers t m []
        ∧ Leaves s ((portsOf w).foldl (fun t p => if feActive t p && (portOf t p).cal == .ready then calibrate p t else t) s) t)
  ∧ (∀ (s : State) (m pat act : Nat) (w : Word), Serves s m 0x0820 0 → (boxOf s m).paramWords = 3 → prm (boxOf s m) 0 = w ∧ prmN (boxOf s m) 1 = pat ∧ prmN (boxOf s m) 2 = act → 1 ≤ pat ∧ pat ≤ 3 ∧ 1 ≤ act ∧ act ≤ 2 → ChecksPass (psetChecks s (boxOf s m)) ∧ portsOn s w = true → (act = 2 ∨ ∀ p ∈ portsOf w, portBusy s p = false ∧ (portOf s p).state ≠ .bringup) →
      Completes (.lanePrbs m) s fun t => Answers t m [] ∧ Leaves s ((portsOf w).foldl (fun t p =>
        if act = 1 then enterTest p pat (announceTest p pat t) else if (portOf t p).state = .test then requestBring .rebring p t else t) s) t)
  ∧ (∀ (s : State) (m : Nat) (b : Mailbox) (x : Lane), Serves s m 0x0113 0 → boxOf s m = b → b.paramWords = 4 → prmN b 0 ≤ 35 ∧ prmN b 1 ≤ 1 ∧ 1 ≤ prmN b 2 ∧ prmN b 2 ≤ 3 ∧ (prmN b 3 < 12 ∨ prmN b 3 = 15) → portExists s (prmN b 0) = true → worn s (268 + (2 * prmN b 0 + prmN b 1)) = false → x = laneOf s (2 * prmN b 0 + prmN b 1) →
      Completes (.portSetPreset m) s fun t =>
        Answers t m [] ∧ laneOf t (2 * prmN b 0 + prmN b 1) = { x with
          pinned := x.pinned.set (prmN b 2 - 1) (prmN b 3 != 15)
          presets := if prmN b 3 = 15 then x.presets else x.presets.set (prmN b 2 - 1) (prmN b 3) }
        ∧ (∀ l, l ≠ 2 * prmN b 0 + prmN b 1 → laneOf t l = laneOf s l) ∧ t.port.port = s.port.port
        ∧ t.keep = (mpWrite (268 + (2 * prmN b 0 + prmN b 1)) (laneWord (laneOf t (2 * prmN b 0 + prmN b 1))) s).keep
        ∧ DoneAlone m [.port, .keep] s t)
  ∧ (∀ (s : State) (m v : Nat), Serves s m 0x0114 0 → (boxOf s m).paramWords = 1 → prmN (boxOf s m) 0 = v ∧ v ≤ 3 → (∀ p ∈ frontPorts, (portOf s p).state = .off ∨ (portOf s p).state = .dormant) → worn s (settingWordOf 0x0114) = false →
      Completes (.clockSetSpread m) s fun t =>
        Answers t m [] ∧ t.port = { s.port with spread := v }
        ∧ t.keep = (mpHold (settingWordOf 0x0114) 0x0114 [(v : Int)] s).keep ∧ DoneAlone m [.port, .keep] s t)
  ∧ (∀ (s : State) (m : Nat) (b : Mailbox), Serves s m 0x0117 0 → boxOf s m = b → 2 ≤ b.paramWords → ChecksPass (psetChecks s b ++ settingsOk b 1 [(300, 499), (300, 499), (-1, 1048575), (1, 3)]) → (((settingOf b 1 4 0).isNone ∧ (settingOf b 1 4 1).isNone) ∨ ((∀ p ∈ frontPorts, portBusy s p = false) ∧ worn s (settingWordOf 0x0117) = false)) → (∀ p ∈ portsOf (prm b 0), worn s (portSettingWord p) = false) →
      Completes (.portConfig m) s fun t =>
        Answers t m [] ∧ t.port.rxLead = pick (settingOf b 1 4 0) (fun v => v.toNat * 4) s.port.rxLead
        ∧ t.port.txLag = pick (settingOf b 1 4 1) (fun v => v.toNat * 4) s.port.txLag
        ∧ (∀ p ∈ portsOf (prm b 0), (portOf t p).genMax = pick (settingOf b 1 4 3) Int.toNat (portOf s p).genMax
            ∧ (portOf t p).spref = if isPeer p then (portOf s p).spref else pick (settingOf b 1 4 2) id (portOf s p).spref)
        ∧ (∀ p, p ∉ portsOf (prm b 0) → portOf t p = portOf s p) ∧ DoneAlone m [.port, .keep] s t)

/-- While served: plan.load, with the slot not ARMED, submits the image in PLAN_STAGE to admission: it is LOADED and its PLAN_ID answered, or the
slot is EMPTY and the refusal's status and words are answered; plan.edit and circuit.set_class do so with the image of the incremental planner, and
circuit.set_class then arms it; plan.activate of the LOADED PLAN_ID for a superframe still open arms it, or answers what checks 4 and 5 refuse;
plan.abort of an ARMED plan before its close makes it LOADED; plan.status answers the words of R507; plan.read delivers the plan in force in the
near store; plan.stage_write writes its words into PLAN_STAGE; plan.save_boot begins the save in the background. Nothing else changes but the
mailbox, and the model's counter of free values. -/
def Obligations.PlanCommands : Prop :=
  (∀ (s : State) (m : Nat) (img : List Word), Serves s m 0x0301 0 → (boxOf s m).paramWords = 0 → domOn s 28 = true → s.plan.stage ≠ .armed → img = imageOf (memWords s.mem.planStage 0 (14 + fieldOf (memWord s.mem.planStage 8) 31 16 % 16385)) →
      Completes (.planLoad m) s fun t =>
        (admission s img = none → Answers t m [BitVec.ofNat 64 (planId img)] ∧ t.plan = { s.plan with stage := .loaded, staged := img, armedSf := 0 })
        ∧ (∀ r, admission s img = some r → (boxOf t m).st = .done ∧ (boxOf t m).status = r.status ∧ (boxOf t m).data = boxData (refusalWords r)
            ∧ t.plan = { s.plan with stage := .empty, staged := [], armedSf := 0 })
        ∧ SameBut [.plan, .mb, .irq, .out] s t)
  ∧ (∀ (s : State) (m pid x : Nat), Serves s m 0x0302 0 → (boxOf s m).paramWords = 2 → prmN (boxOf s m) 0 = pid ∧ pid < 2 ^ 32 → prmN (boxOf s m) 1 = x ∧ x < 2 ^ 40 → counting s = true → s.plan.stage = .loaded ∧ planId s.plan.staged = pid → s.sf.number < x ∧ ¬ (x = s.sf.number + 1 ∧ s.sf.closed = true) →
      Completes (.planActivate m) s fun t =>
        (recheck s s.plan.staged = none → Answers t m [] ∧ t.plan = { s.plan with stage := .armed, armedSf := x })
        ∧ (∀ r, recheck s s.plan.staged = some r → (boxOf t m).st = .done ∧ (boxOf t m).status = r.status
            ∧ (boxOf t m).data = boxData (refusalWords r) ∧ t.plan = s.plan)
        ∧ SameBut [.plan, .mb, .irq, .out] s t)
  ∧ (∀ (s : State) (m : Nat), Serves s m 0x0303 0 → (boxOf s m).paramWords = 0 → counting s = true → s.plan.stage = .armed → ¬ (s.sf.closed = true ∧ s.plan.armedSf = s.sf.number + 1) →
      Completes (.planAbort m) s fun t => Answers t m [] ∧ t.plan = { s.plan with stage := .loaded, armedSf := 0 } ∧ DoneAlone m [.plan] s t)
  ∧ (∀ (s : State) (m : Nat), Serves s m 0x0304 0 → (boxOf s m).paramWords = 0 →
      Completes (.planStatus m) s fun t =>
        Answers t m [fieldAt 63 32 (planId s.plan.active) ||| fieldAt 31 0 (parentId s.plan.active),
          fieldAt 63 62 (stageCode s) ||| fieldAt 39 0 (if s.plan.stage = .armed then s.plan.armedSf else 0),
          fieldAt 63 32 (planId s.plan.staged) ||| fieldAt 31 0 (parentId s.plan.staged)]
        ∧ DoneAlone m [] s t)
  ∧ (∀ (s : State) (m n : Nat) (b : Mailbox), Serves s m 0x0305 0 → boxOf s m = b → prmN b 0 = n ∧ 1 ≤ n ∧ n ≤ 112 → b.paramWords = n + 1 → ((prms b 1 n).all changeEncoded) = true → domOn s 28 = true → s.plan.stage ≠ .armed →
      Completes (.planEdit m) s fun t =>
        (boxOf t m).st = .done ∧ (boxOf t m).status = (editPlan (prms b 1 n) s).status
        ∧ (boxOf t m).data = boxData (editPlan (prms b 1 n) s).words ∧ t.plan = (editPlan (prms b 1 n) s).after.plan
        ∧ ((editPlan (prms b 1 n) s).status ≠ 0 → t.plan.stage = .empty) ∧ t.plan.active = s.plan.active
        ∧ SameBut [.plan, .clk, .mb, .irq, .out] s t)
  ∧ (∀ (s : State) (m c mode x : Nat), Serves s m 0x0201 0 → (boxOf s m).paramWords = 3 → prmN (boxOf s m) 0 = c ∧ c ≤ 767 → prmN (boxOf s m) 1 = mode ∧ mode ≤ 3 → prmN (boxOf s m) 2 = x ∧ x < 2 ^ 40 → circuitAvailable s c = true → counting s = true → s.plan.stage ≠ .armed →
      Completes (.circuitSetClass m) s fun t =>
        let e := editPlan [classChange s c mode] s
        let a := armPlan (planId e.after.plan.staged) x e.after
        (boxOf t m).st = .done
        ∧ (e.status ≠ 0 → (boxOf t m).status = e.status ∧ t.plan = e.after.plan)
        ∧ (e.status = 0 → a.status ≠ 0 → (boxOf t m).status = a.status ∧ t.plan = a.after.plan)
        ∧ (e.status = 0 → a.status = 0 → (boxOf t m).status = stOk ∧ (boxOf t m).data = boxData e.words ∧ t.plan = a.after.plan)
        ∧ SameBut [.plan, .clk, .mb, .irq, .out] s t)
  ∧ (∀ (s : State) (m : Nat), Serves s m 0x0306 0 → (boxOf s m).paramWords = 0 → domOn s 28 = true → s.plan.active ≠ [] →
      Completes (.planRead m) s fun t => ∃ off, Answers t m [BitVec.ofNat 64 off, BitVec.ofNat 64 (8 * s.plan.active.length)]
        ∧ t.mem = { s.mem with near := memWriteWords s.mem.near off s.plan.active } ∧ SameBut [.clk, .mem, .mb, .irq, .out] s t)
  ∧ (∀ (s : State) (m off : Nat) (b : Mailbox), Serves s m 0x0307 0 → boxOf s m = b → 1 ≤ b.paramWords ∧ b.paramWords ≤ 119 → prmN b 0 = off → off % 8 = 0 ∧ off + 8 * (b.paramWords - 1) ≤ 262144 → domOn s 28 = true → admitting s = false →
      Completes (.planStageWrite m) s fun t =>
        Answers t m [] ∧ t.mem = { s.mem with planStage := memWriteWords s.mem.planStage off (prms b 1 (b.paramWords - 1)) } ∧ DoneAlone m [.mem] s t)
  ∧ (∀ (s : State) (m : Nat), Serves s m 0x0308 0 → (boxOf s m).paramWords = 0 → s.plan.active ≠ [] → flashBusy s = false →
      Completes (.planSaveBoot m) s fun t =>
        Answers t m [] ∧ t.mb.background = s.mb.background ++ [.planSave s.plan.active] ∧ SameBut [.mb, .irq, .out] s t)

/-- For a CSET of available circuits, and while D28 is on: circuit.rx_status, rx_counters, ca_status, cd_status (of feed circuits), code_counters,
tx_status, mac_counters and endpoint.link_counters deliver each circuit's words in ascending order, inline or in the near store. Each counter so
read is cleared on the circuits of the set; no other circuit changes, and nothing else but the result and its mailbox. circuit.chaff_map returns the
bins, the noisy word and the superframes since the halving of one circuit and clears them on request; circuit.relay_status returns the relays. The
codes of the AGC and feed states, and the order of items where no rule gives one, are the model's choice. -/
def Obligations.CircuitReadouts : Prop :=
  (∀ (s : State) (m : Nat) (cs : List Nat), Serves s m 0x0231 0 → (boxOf s m).paramWords = 12 → cs = circuitsOf (boxOf s m) 0 → (∀ c ∈ cs, circuitAvailable s c = true) → domOn s 28 = true →
      Completes (.circuitRxStatus m) s fun t =>
        Delivers s t m (cs.flatMap fun c =>
          let x := circOf s c
          [BitVec.ofNat 64 (agcCode x.agc), BitVec.ofNat 64 x.gain, noiseWord x c 0 x.noiseW, noiseWord x c 1 x.noiseT, noiseWord x c 2 x.noiseA,
           BitVec.ofInt 64 x.lastRssiT, BitVec.ofInt 64 x.lastSnrT, BitVec.ofInt 64 x.lastRssiA, BitVec.ofInt 64 x.lastSnrA,
           BitVec.ofInt 64 (feedOf s c).rssi, BitVec.ofInt 64 (feedOf s c).trainedSnr])
        ∧ CircuitsChange cs (fun _ x => x) s t ∧ SameBut [.circ, .clk, .mem, .mb, .irq, .out] s t)
  ∧ (∀ (s : State) (m : Nat) (cs : List Nat), Serves s m 0x0232 0 → (boxOf s m).paramWords = 12 → cs = circuitsOf (boxOf s m) 0 → (∀ c ∈ cs, circuitAvailable s c = true) → domOn s 28 = true →
      Completes (.circuitRxCounters m) s fun t =>
        Delivers s t m (cs.flatMap fun c => ctrWords s c rxCtrs)
        ∧ CircuitsChange cs (fun _ => clearCtrs rxCtrs) s t ∧ SameBut [.circ, .clk, .mem, .mb, .irq, .out] s t)
  ∧ (∀ (s : State) (m : Nat) (cs : List Nat), Serves s m 0x0234 0 → (boxOf s m).paramWords = 12 → cs = circuitsOf (boxOf s m) 0 → (∀ c ∈ cs, circuitAvailable s c = true) → domOn s 28 = true →
      Completes (.circuitCaStatus m) s fun t =>
        Delivers s t m (cs.flatMap fun c => [nbrsWord s c, BitVec.ofInt 64 (circOf s c).arrival, BitVec.ofInt 64 (circOf s c).eqSinr] ++ ctrWords s c caCtrs)
        ∧ CircuitsChange cs (fun _ => clearCtrs caCtrs) s t ∧ SameBut [.circ, .clk, .mem, .mb, .irq, .out] s t)
  ∧ (∀ (s : State) (m : Nat) (cs : List Nat), Serves s m 0x0238 0 → (boxOf s m).paramWords = 12 → cs = circuitsOf (boxOf s m) 0 → (∀ c ∈ cs, circuitAvailable s c = true) → (∀ c ∈ cs, isFeed s c = true) → domOn s 28 = true →
      Completes (.circuitCdStatus m) s fun t =>
        Delivers s t m (cs.flatMap fun c =>
          let f := feedOf s c
          [BitVec.ofNat 64 (feedStateCode f.state), BitVec.ofNat 64 (if f.fast then 0 else 1)] ++ settingWords f.dn ++ settingWords f.upw
          ++ [BitVec.ofInt 64 f.trainedSnr, BitVec.ofInt 64 f.snrOwn, BitVec.ofInt 64 f.trainedMse, BitVec.ofInt 64 f.mse, BitVec.ofInt 64 f.echoAtt,
              BitVec.ofNat 64 f.turnD]
          ++ ctrWords s c cdCtrs)
        ∧ CircuitsChange cs (fun _ => clearCtrs cdCtrs) s t ∧ SameBut [.circ, .clk, .mem, .mb, .irq, .out] s t)
  ∧ (∀ (s : State) (m : Nat) (cs : List Nat), Serves s m 0x023C 0 → (boxOf s m).paramWords = 12 → cs = circuitsOf (boxOf s m) 0 → (∀ c ∈ cs, circuitAvailable s c = true) → domOn s 28 = true →
      Completes (.circuitCodeCounters m) s fun t =>
        Delivers s t m (cs.flatMap fun c => ctrWords s c codeCtrs)
        ∧ CircuitsChange cs (fun _ => clearCtrs codeCtrs) s t ∧ SameBut [.circ, .clk, .mem, .mb, .irq, .out] s t)
  ∧ (∀ (s : State) (m : Nat) (cs : List Nat), Serves s m 0x0243 0 → (boxOf s m).paramWords = 12 → cs = circuitsOf (boxOf s m) 0 → (∀ c ∈ cs, circuitAvailable s c = true) → domOn s 28 = true →
      Completes (.circuitTxStatus m) s fun t =>
        Delivers s t m (cs.flatMap fun c =>
          let x := circOf s c
          let r := fun (k : Nat) => x.reduced.getD k 0
          [BitVec.ofNat 64 (sectionsOf s.circ.profile x.notches), BitVec.ofInt 64 (8 * (x.set.psdT - r 0)), BitVec.ofInt 64 (8 * (x.set.psdA - r 1)),
           BitVec.ofInt 64 (8 * (x.set.psdD - r 2)), BitVec.ofNat 64 (8 * r 0), BitVec.ofNat 64 (8 * r 1), BitVec.ofNat 64 (8 * r 2)]
          ++ ctrWords s c [.txClip])
        ∧ CircuitsChange cs (fun _ => clearCtrs [.txClip]) s t ∧ SameBut [.circ, .clk, .mem, .mb, .irq, .out] s t)
  ∧ (∀ (s : State) (m : Nat) (cs : List Nat), Serves s m 0x0245 0 → (boxOf s m).paramWords = 12 → cs = circuitsOf (boxOf s m) 0 → (∀ c ∈ cs, circuitAvailable s c = true) → domOn s 28 = true →
      Completes (.circuitMacCounters m) s fun t =>
        Delivers s t m (cs.flatMap fun c => ctrWords s c macCtrs ++ [BitVec.ofNat 64 (circOf s c).beaconForm, BitVec.ofNat 64 (circOf s c).ngrant])
        ∧ CircuitsChange cs (fun _ => clearCtrs macCtrs) s t ∧ SameBut [.circ, .clk, .mem, .mb, .irq, .out] s t)
  ∧ (∀ (s : State) (m : Nat) (cs : List Nat), Serves s m 0x0406 0 → (boxOf s m).paramWords = 12 → cs = circuitsOf (boxOf s m) 0 → (∀ c ∈ cs, circuitAvailable s c = true) → domOn s 28 = true →
      Completes (.endpointLinkCounters m) s fun t =>
        Delivers s t m (cs.flatMap fun c => ctrWords s c linkCtrs)
        ∧ CircuitsChange cs (fun _ => clearCtrs linkCtrs) s t ∧ SameBut [.circ, .clk, .mem, .mb, .irq, .out] s t)
  ∧ (∀ (s : State) (m c clear : Nat), Serves s m 0x023A 0 → (boxOf s m).paramWords = 2 → prmN (boxOf s m) 0 = c ∧ c ≤ 767 → prmN (boxOf s m) 1 = clear ∧ clear ≤ 1 → circuitAvailable s c = true →
      Completes (.circuitChaffMap m) s fun t =>
        Answers t m (binWords (circOf s c) ++ [(circOf s c).noisy, BitVec.ofNat 64 (circOf s c).sinceHalving])
        ∧ (clear = 1 → circOf t c = { circOf s c with bins := [], noisy := 0, sinceHalving := 0 }) ∧ (clear = 0 → t.circ = s.circ)
        ∧ (∀ k, k ≠ c → circOf t k = circOf s k) ∧ DoneAlone m [.circ] s t)
  ∧ (∀ (s : State) (m : Nat), Serves s m 0x0241 0 → (boxOf s m).paramWords = 0 → s.port.relays.length ≤ 16 →
      Completes (.circuitRelayStatus m) s fun t =>
        Answers t m (BitVec.ofNat 64 s.port.relays.length :: s.port.relays.map fun r => fieldAt 19 10 r.1 ||| fieldAt 9 0 r.2) ∧ DoneAlone m [] s t)

/-- For a CSET of available circuits and settings within their ranges, while served: circuit.rx_config, ca_config, cd_config (of feed circuits),
chaff_config and beacon_config set on each circuit of the set the rows that were selected and leave its other settings; the device row of rx_config
sets SELF_GUARD and its port row RX_FS_LEVEL of the ports that hold the set, where their words are not worn. circuit.agc FIXED sends the step and
ends at FIXED, AUTO leads from FIXED to ACQUIRE. circuit.cd_retrain answers each link of a set of feed circuits. No other circuit and nothing else
changes but the mailbox. In which superframe an accepted setting comes into force is said by the boundary, not here. -/
def Obligations.CircuitSettings : Prop :=
  (∀ (s : State) (m : Nat) (b : Mailbox) (cs : List Nat), Serves s m 0x0235 0 → boxOf s m = b → 13 ≤ b.paramWords → cs = circuitsOf b 0 → (∀ c ∈ cs, circuitAvailable s c = true) → ChecksPass (settingsOk b 12 [(20, 80), (1, 25), (0, 20)]) →
      Completes (.circuitCaConfig m) s fun t => Answers t m [] ∧ CircuitsChange cs (fun _ x => { x with want := { x.want with
          caThresh := pick (settingOf b 12 3 0) Int.toNat x.want.caThresh, arrivalTol := pick (settingOf b 12 3 1) Int.toNat x.want.arrivalTol
          rateMargin := pick (settingOf b 12 3 2) Int.toNat x.want.rateMargin } }) s t ∧ DoneAlone m [.circ] s t)
  ∧ (∀ (s : State) (m : Nat) (b : Mailbox) (cs : List Nat), Serves s m 0x0237 0 → boxOf s m = b → 13 ≤ b.paramWords → cs = circuitsOf b 0 → (∀ c ∈ cs, circuitAvailable s c = true) → (∀ c ∈ cs, isFeed s c = true) → ChecksPass (settingsOk b 12 [(0, 2), (0, 20), (0, 2), (0, 1)]) →
      Completes (.circuitCdConfig m) s fun t => Answers t m [] ∧ CircuitsChange cs (fun _ x => { x with want := { x.want with
          cdPamMax := pick (settingOf b 12 4 0) Int.toNat x.want.cdPamMax, cdRateMargin := pick (settingOf b 12 4 1) Int.toNat x.want.cdRateMargin
          cdLift := pick (settingOf b 12 4 2) Int.toNat x.want.cdLift, cdThp := pick (settingOf b 12 4 3) Int.toNat x.want.cdThp } }) s t ∧ DoneAlone m [.circ] s t)
  ∧ (∀ (s : State) (m : Nat) (b : Mailbox) (cs : List Nat), Serves s m 0x023B 0 → boxOf s m = b → 13 ≤ b.paramWords → cs = circuitsOf b 0 → (∀ c ∈ cs, circuitAvailable s c = true) → ChecksPass (settingsOk b 12 [(1, 255), (2, 16), (0, 4), (4, 12), (0, 1)]) →
      Completes (.circuitChaffConfig m) s fun t => Answers t m [] ∧ CircuitsChange cs (fun _ x => { x with want := { x.want with
          chaffMin := pick (settingOf b 12 5 0) Int.toNat x.want.chaffMin, chaffFactor := pick (settingOf b 12 5 1) Int.toNat x.want.chaffFactor
          chaffGuard := pick (settingOf b 12 5 2) Int.toNat x.want.chaffGuard, chaffAge := pick (settingOf b 12 5 3) Int.toNat x.want.chaffAge
          chaffSteer := pick (settingOf b 12 5 4) Int.toNat x.want.chaffSteer } }) s t ∧ DoneAlone m [.circ] s t)
  ∧ (∀ (s : State) (m : Nat) (b : Mailbox) (cs : List Nat), Serves s m 0x0244 0 → boxOf s m = b → 13 ≤ b.paramWords → cs = circuitsOf b 0 → (∀ c ∈ cs, circuitAvailable s c = true) → ChecksPass (settingsOk b 12 [(0, 20), (1, 4)]) →
      Completes (.circuitBeaconConfig m) s fun t => Answers t m [] ∧ CircuitsChange cs (fun _ x => 
          let put := fun (w : Settings) => { w with
            beaconMargin := pick (settingOf b 12 2 0) Int.toNat w.beaconMargin, sheetEntry := pick (settingOf b 12 2 1) Int.toNat w.sheetEntry }
          { x with want := put x.want, set := put x.set }) s t ∧ DoneAlone m [.circ] s t)
  ∧ (∀ (s : State) (m : Nat) (b : Mailbox) (cs : List Nat), Serves s m 0x0230 0 → boxOf s m = b → 13 ≤ b.paramWords → cs = circuitsOf b 0 → (∀ c ∈ cs, circuitAvailable s c = true) → ChecksPass (settingsOk b 12 [(-48, -24), (1, 6), (8, 32), (0, 8), (0, 3), (6, 30), (30, 80), (20, 80), (3, 12), (0, 20), (360, 560)]) → ((settingOf b 12 11 9).isSome = true → worn s (settingWordOf 0x0230) = false) → ((settingOf b 12 11 10).isSome = true → ∀ p ∈ portsHolding cs, worn s (portSettingWord p) = false) →
      Completes (.circuitRxConfig m) s fun t => Answers t m []
        ∧ (∀ c, circOf t c = if c ∈ cs then { circOf s c with want := { (circOf s c).want with
            agcTarget := pick (settingOf b 12 11 0) id (circOf s c).want.agcTarget
            agcDeadband := pick (settingOf b 12 11 1) Int.toNat (circOf s c).want.agcDeadband
            winFactor := pick (settingOf b 12 11 2) Int.toNat (circOf s c).want.winFactor, winGuard := pick (settingOf b 12 11 3) Int.toNat (circOf s c).want.winGuard
            eraseFrac := pick (settingOf b 12 11 4) Int.toNat (circOf s c).want.eraseFrac
            energyThresh := pick (settingOf b 12 11 5) Int.toNat (circOf s c).want.energyThresh
            qualThresh := pick (settingOf b 12 11 6) Int.toNat (circOf s c).want.qualThresh
            corrThresh := pick (settingOf b 12 11 7) Int.toNat (circOf s c).want.corrThresh
            captureMargin := pick (settingOf b 12 11 8) Int.toNat (circOf s c).want.captureMargin } } else circOf s c)
        ∧ { t.circ with circuit := s.circ.circuit } = { s.circ with selfGuard := pick (settingOf b 12 11 9) Int.toNat s.circ.selfGuard }
        ∧ (∀ p, portOf t p = if p ∈ portsHolding cs then { portOf s p with rxFs := pick (settingOf b 12 11 10) Int.toNat (portOf s p).rxFs } else portOf s p)
        ∧ { t.port with port := s.port.port } = s.port ∧ DoneAlone m [.circ, .port, .keep] s t)
  ∧ (∀ (s : State) (m mode step : Nat) (cs : List Nat), Serves s m 0x0233 0 → (boxOf s m).paramWords = 14 → cs = circuitsOf (boxOf s m) 0 → prmN (boxOf s m) 12 = mode ∧ mode ≤ 1 → prmN (boxOf s m) 13 = step ∧ step ≤ 47 → (∀ c ∈ cs, circuitAvailable s c = true) →
      Completes (.circuitAgc m) s fun t => Answers t m []
        ∧ CircuitsChange cs (fun _ x =>
            if mode = 1 then command step false { x with agc := .fixed, inBand := 0 }
            else if x.agc = .fixed then { x with agc := .acquire, inBand := 0 } else x) s t
        ∧ DoneAlone m [.circ] s t)
  ∧ (∀ (s : State) (m full : Nat) (cs : List Nat), Serves s m 0x0239 0 → (boxOf s m).paramWords = 13 → cs = circuitsOf (boxOf s m) 0 → prmN (boxOf s m) 12 = full ∧ full ≤ 1 → (∀ c ∈ cs, circuitAvailable s c = true ∧ isFeed s c = true) →
      Completes (.circuitCdRetrain m) s fun t => Answers t m [] ∧ Leaves s (cs.foldl (fun t c => retrainLink (full == 1) c t) s) t)

/-- While served, and within the ranges, caps and levels of R252 and R253: circuit.tx_config sets the densities of the circuits of the set, each set
anew without its reduction, and TX_FS_LEVEL of the ports that hold them, whose other active circuits keep their levels too; circuit.tx_filter sets
one filter of a circuit, due at the next boundary; circuit.notch adds or removes a notch, answers the sections the list then takes and has the list
due at the next boundary; circuit.relay adds a relay between two available circuits that are no feed circuits, or removes one that is there;
circuit.xt_survey begins the survey of a group with seats in the background. Nothing else changes but the mailbox. -/
def Obligations.CircuitShapingAndRelays : Prop :=
  (∀ (s : State) (m : Nat) (b : Mailbox) (cs others : List Nat) (fs : Nat → Nat), Serves s m 0x023D 0 → boxOf s m = b → 13 ≤ b.paramWords → cs = circuitsOf b 0 → (∀ c ∈ cs, circuitAvailable s c = true) → ChecksPass (settingsOk b 12 [(-180, -110), (-180, -110), (-180, -110), (0, 160)]) → (∀ k ∈ [0, 1, 2], (settingOf b 12 4 k).isSome = true → ∀ c ∈ cs,
        (capsKept s c (wantedPsd (withPsd (settingOf b 12 4) (circOf s c))) (wantedFilters (circOf s c))).getD k true = true) → (fs = fun c => pick (settingOf b 12 4 3) Int.toNat (portOf s (c / 24)).txFs) → (∀ c ∈ cs, levelKept s c (fs c) (wantedPsd (withPsd (settingOf b 12 4) (circOf s c))) (wantedFilters (withPsd (settingOf b 12 4) (circOf s c))) = true) → others = (if (settingOf b 12 4 3).isSome then (activeCircuits s).filter (fun c => (portsHolding cs).contains (c / 24) && !cs.contains c) else []) → (∀ c ∈ others, levelKept s c (fs c) (wantedPsd (circOf s c)) (wantedFilters (circOf s c)) = true) → ((settingOf b 12 4 3).isSome = true → ∀ p ∈ portsHolding cs, worn s (portSettingWord p) = false) →
      Completes (.circuitTxConfig m) s fun t =>
        Answers t m [] ∧ CircuitsChange cs (fun _ => withPsd (settingOf b 12 4)) s t
        ∧ (∀ p, portOf t p = if p ∈ portsHolding cs then { portOf s p with txFs := pick (settingOf b 12 4 3) Int.toNat (portOf s p).txFs } else portOf s p)
        ∧ { t.port with port := s.port.port } = s.port ∧ DoneAlone m [.circ, .port, .keep] s t)
  ∧ (∀ (s : State) (m c k : Nat) (b : Mailbox) (f : Filter) (fs : List Filter), Serves s m 0x023E 0 → boxOf s m = b → b.paramWords = 8 → prmN b 0 = c ∧ c ≤ 767 → prmN b 1 = k ∧ k ≤ 2 → prmN b 2 ≤ 1 ∧ fieldOf (prm b 7) 47 0 = 0 → circuitAvailable s c = true → f = (if prmN b 2 = 1 then none else some (filterTaps b)) → fs = (wantedFilters (circOf s c)).set k f → (capsKept s c (wantedPsd (circOf s c)) fs).getD k true = true ∧ levelKept s c (portOf s (c / 24)).txFs (wantedPsd (circOf s c)) fs = true →
      Completes (.circuitTxFilter m) s fun t =>
        Answers t m [] ∧ circOf t c = { circOf s c with filtersDue := some (fs.getD 0 none, fs.getD 1 none, fs.getD 2 none) }
        ∧ (∀ j, j ≠ c → circOf t j = circOf s j) ∧ DoneAlone m [.circ] s t)
  ∧ (∀ (s : State) (m c act : Nat) (b : Mailbox) (n : Notch) (new : List Notch), Serves s m 0x023F 0 → boxOf s m = b → b.paramWords = 4 → prmN b 0 = c ∧ c ≤ 767 → prmN b 1 = act ∧ 1 ≤ act ∧ act ≤ 2 → n = { lo := prmN b 2, width := prmN b 3 } → 160 ≤ n.lo ∧ 5 ≤ n.width ∧ n.width ≤ 400 ∧ n.lo + n.width ≤ 10000 → circuitAvailable s c = true → new = (if act = 2 then (wantedNotches (circOf s c)).filter (· != n) else if (wantedNotches (circOf s c)).contains n then wantedNotches (circOf s c) else wantedNotches (circOf s c) ++ [n]) → sectionsOf s.circ.profile new ≤ 24 →
      Completes (.circuitNotch m) s fun t =>
        Answers t m [BitVec.ofNat 64 (sectionsOf s.circ.profile new)]
        ∧ circOf t c = { circOf s c with notchesDue := if new = (circOf s c).notches then none else some new }
        ∧ (∀ j, j ≠ c → circOf t j = circOf s j) ∧ DoneAlone m [.circ] s t)
  ∧ (∀ (s : State) (m a d act : Nat), Serves s m 0x0240 0 → (boxOf s m).paramWords = 3 → prmN (boxOf s m) 0 = a ∧ a ≤ 767 → prmN (boxOf s m) 1 = d ∧ d ≤ 767 → prmN (boxOf s m) 2 = act → (act = 1 ∧ circuitAvailable s a = true ∧ circuitAvailable s d = true ∧ isFeed s a = false ∧ isFeed s d = false
          ∧ s.port.relays.length < 16 ∧ relayTo s d = none) ∨ (act = 2 ∧ circuitAvailable s a = true ∧ circuitAvailable s d = true ∧ (a, d) ∈ s.port.relays) →
      Completes (.circuitRelay m) s fun t =>
        Answers t m []
        ∧ t.port = { s.port with relays := if act = 1 then s.port.relays ++ [(a, d)] else s.port.relays.filter (· != (a, d)) }
        ∧ DoneAlone m [.port] s t)
  ∧ (∀ (s : State) (m g : Nat), Serves s m 0x0236 0 → (boxOf s m).paramWords = 1 → prmN (boxOf s m) 0 = g ∧ g ≤ 15 → (isH s = true → g < 8) → domOn s 28 = true → ((seatsOf s.plan.active).any fun w => placeActive w / 16 == g) = true →
      Completes (.circuitXtSurvey m) s fun t => ∃ near, Answers t m [BitVec.ofNat 64 near]
        ∧ t.mb.background = s.mb.background ++ [.xtSurvey g near s.sf.number] ∧ SameBut [.clk, .mb, .irq, .out] s t)

/-- While served, for an EP word that names a record: endpoint.status answers the record in full; endpoint.evict marks it leaving, so that it ends
with the superframe, and sends LEAVE to an ACTIVE one; endpoint.readdress starts re-addressing an ACTIVE one; endpoint.set_repeater, on a circuit
that is no feed circuit, assigns an endpoint with CAPS bit 7 its RB_SLOT and up to 8 far endpoints of its circuit, none of which repeats or is
served by another, and with action 2 ends the assignment; endpoint.ca_snapshot places the snapshot's 100 words in the near store, or with action 2
drops it. endpoint.list delivers six words for each record of the circuit from an index on, in the order of their addresses. endpoint.deny adds or
removes the identity of the circuit. endpoint.link_config sets the link settings of the circuits of the set. The order of a record's items where no
rule gives one is the model's choice. -/
def Obligations.EndpointCommands : Prop :=
  (∀ (s : State) (m c i : Nat), Serves s m 0x0401 0 → (boxOf s m).paramWords = 2 → prmN (boxOf s m) 0 = c ∧ c ≤ 767 ∧ circuitAvailable s c = true → prmN (boxOf s m) 1 = i ∧ i ≤ 16383 → domOn s 28 = true → s.link.records.length ≤ 16384 →
      Completes (.endpointList m) s fun t =>
        Delivers s t m (((circuitRecords s c).drop i).flatMap (listWords s)) ∧ SameBut [.clk, .mem, .mb, .irq, .out] s t)
  ∧ (∀ (s : State) (m : Nat) (w : Word) (r : Record), Serves s m 0x0402 0 → (boxOf s m).paramWords = 1 → prm (boxOf s m) 0 = w → w.toNat < 2 ^ 22 ∧ epCircuit w < 768 ∧ circuitAvailable s (epCircuit w) = true → namedRecord s w = some r →
      Completes (.endpointStatus m) s fun t => Answers t m (recordWords s r) ∧ DoneAlone m [] s t)
  ∧ (∀ (s : State) (m : Nat) (w : Word) (r : Record), Serves s m 0x0403 0 → (boxOf s m).paramWords = 1 → prm (boxOf s m) 0 = w → w.toNat < 2 ^ 22 ∧ epCircuit w < 768 ∧ circuitAvailable s (epCircuit w) = true → namedRecord s w = some r →
      Completes (.endpointEvict m) s fun t => Answers t m [] ∧ Leaves s (evict r s) t
        ∧ (r.state ≠ .active → t.link = { s.link with records := s.link.records.map fun x => if x.epId = r.epId then { x with leaving := true } else x }))
  ∧ (∀ (s : State) (m : Nat) (w : Word) (r : Record), Serves s m 0x0404 0 → (boxOf s m).paramWords = 1 → prm (boxOf s m) 0 = w → w.toNat < 2 ^ 22 ∧ epCircuit w < 768 ∧ circuitAvailable s (epCircuit w) = true → namedRecord s w = some r → r.state = .active →
      Completes (.endpointReaddress m) s fun t => Answers t m [] ∧ Leaves s (startReaddress r.epId s) t)
  ∧ (∀ (s : State) (m n : Nat) (b : Mailbox) (w : Word) (r : Record), Serves s m 0x0405 0 → boxOf s m = b → b.paramWords = 4 + n ∧ prmN b 3 = n ∧ n ≤ 8 → prm b 0 = w → prmN b 1 = 2 ∧ prmN b 2 < nFixOf s.sf.mainsNom → (∀ i, i ≤ n → ∀ v, v = (if i = 0 then w else prm b (3 + i)) → v.toNat < 2 ^ 22 ∧ epCircuit v < 768 ∧ circuitAvailable s (epCircuit v) = true) → namedRecord s w = some r → isFeed s r.circuit = false →
      Completes (.endpointSetRepeater m) s fun t => Answers t m [] ∧ Leaves s (setRepeater r.epId 0 [] s) t)
  ∧ (∀ (s : State) (m n : Nat) (b : Mailbox) (w : Word) (r : Record) (fars : List Record), Serves s m 0x0405 0 → boxOf s m = b → b.paramWords = 4 + n ∧ prmN b 3 = n ∧ 1 ≤ n ∧ n ≤ 8 → prm b 0 = w ∧ w.toNat < 2 ^ 22 ∧ epCircuit w < 768 ∧ circuitAvailable s (epCircuit w) = true → prmN b 1 = 1 ∧ 64 ≤ prmN b 2 ∧ prmN b 2 < nFixOf s.sf.mainsNom → namedRecord s w = some r → isFeed s r.circuit = false ∧ r.caps / 128 % 2 = 1 ∧ viaOf s r = none → (prms b 4 n).map (namedRecord s) = fars.map some → (∀ v ∈ prms b 4 n, v.toNat < 2 ^ 22 ∧ epCircuit v < 768 ∧ circuitAvailable s (epCircuit v) = true ∧ epCircuit v = r.circuit ∧ epAddr v ≠ epAddr w) → (∀ x ∈ fars, x.repeats = false ∧ ∀ y, viaOf s x = some y → y.epId = r.epId) →
      Completes (.endpointSetRepeater m) s fun t => Answers t m [] ∧ Leaves s (setRepeater r.epId (prmN b 2) (fars.map (·.epId)) s) t)
  ∧ (∀ (s : State) (m : Nat) (w : Word) (r : Record), Serves s m 0x0420 0 → (boxOf s m).paramWords = 2 → prm (boxOf s m) 0 = w → prmN (boxOf s m) 1 = 1 → w.toNat < 2 ^ 22 ∧ epCircuit w < 768 ∧ circuitAvailable s (epCircuit w) = true → namedRecord s w = some r → domOn s 28 = true →
      Completes (.endpointCaSnapshot m) s fun t => ∃ off, Answers t m [BitVec.ofNat 64 off]
        ∧ t.mem = { s.mem with near := memWriteWords s.mem.near off (snapWords r) } ∧ SameBut [.clk, .mem, .mb, .irq, .out] s t)
  ∧ (∀ (s : State) (m : Nat) (w : Word) (r : Record), Serves s m 0x0420 0 → (boxOf s m).paramWords = 2 → prm (boxOf s m) 0 = w → prmN (boxOf s m) 1 = 2 → w.toNat < 2 ^ 22 ∧ epCircuit w < 768 ∧ circuitAvailable s (epCircuit w) = true → namedRecord s w = some r → domOn s 28 = true →
      Completes (.endpointCaSnapshot m) s fun t => Answers t m []
        ∧ t.link = { s.link with records := s.link.records.map fun x => if x.epId = r.epId then { x with snap := {} } else x } ∧ DoneAlone m [.link] s t)
  ∧ (∀ (s : State) (m : Nat) (b : Mailbox) (d : Nat × Nat), Serves s m 0x0408 0 → boxOf s m = b → b.paramWords = 4 → prmN b 0 ≤ 767 ∧ circuitAvailable s (prmN b 0) = true → prmN b 3 = 1 ∨ prmN b 3 = 2 → d = (prmN b 0, epIdOf b 1) →
      Completes (.endpointDeny m) s fun t =>
        Answers t m [] ∧ (prmN b 3 = 1 → d ∈ t.link.denied) ∧ (prmN b 3 = 2 → d ∉ t.link.denied)
        ∧ (∀ e, e ≠ d → (e ∈ t.link.denied ↔ e ∈ s.link.denied)) ∧ { t.link with denied := s.link.denied } = s.link ∧ DoneAlone m [.link] s t)
  ∧ (∀ (s : State) (m : Nat) (b : Mailbox) (cs : List Nat), Serves s m 0x0407 0 → boxOf s m = b → 13 ≤ b.paramWords → cs = circuitsOf b 0 → (∀ c ∈ cs, circuitAvailable s c = true) → ChecksPass (settingsOk b 12 [(1, 65535), (16, 1024), (1, 64), (1, 256)]) → (∀ c ∈ cs, 4 * (linkSettings (settingOf b 12 4) (circOf s c).want).servicePeriod ≤ (linkSettings (settingOf b 12 4) (circOf s c).want).liveness) → (∀ c ∈ cs, worn s (linkWord c) = false) →
      Completes (.endpointLinkConfig m) s fun t =>
        Answers t m [] ∧ CircuitsChange cs (fun _ x => { x with want := linkSettings (settingOf b 12 4) x.want }) s t ∧ DoneAlone m [.circ, .keep] s t)

/-- While served: time.status answers the words of R507 and clears its counters; time.source_config and time.peer_config have their settings due at
the next second and queue the setting's word, where it is not worn; time.set_tai in ACQUIRE has the seconds due and sets UTC offset and leap;
time.host_offset of a second not more than 2 s old takes the offset as the HOST source's phase; time.resync returns the TKU to ACQUIRE;
time.evidence_ring names the ring with PROD and CONS at zero; time.endpoint_status answers six words for each endpoint in the order of EP words;
time.range_config has its rows due on the circuits of the set, where the setting's word is not worn; time.model answers the model's four words, all
zero where there is none, or with action 2 clears it and queues its words as zero, where none is worn. Nothing else changes but the mailbox.
Readings that no measurement has given yet are free. -/
def Obligations.TimeCommands : Prop :=
  (∀ (s : State) (m : Nat), Serves s m 0x0501 0 → (boxOf s m).paramWords = 0 →
      Completes (.timeStatus m) s fun t =>
        Answers t m ([tkuStatus s, BitVec.ofInt 64 s.tku.freqAdj, sourceStatus s 1, sourceStatus s 2, sourceStatus s 3, sourceStatus s 4,
            (match bTku s with
             | some b => BitVec.ofNat 64 b
             | none => BitVec.ofNat 64 18446744073709551615)]
          ++ (match liveModel s with
              | some x => modelWords x
              | none => [0, 0, 0, 0])
          ++ [twoCounts s.tku.switches s.tku.jumps, twoCounts s.tku.todErr s.tku.todMismatch, fieldAt 63 32 s.tku.steps])
        ∧ t.tku = { s.tku with switches := 0, jumps := 0, todErr := 0, todMismatch := 0, steps := 0 } ∧ DoneAlone m [.tku] s t)
  ∧ (∀ (s : State) (m : Nat) (b : Mailbox) (n : TimeSettings), Serves s m 0x0502 0 → boxOf s m = b → 1 ≤ b.paramWords → ChecksPass (settingsOk b 0 timeRows) → (settingOf b 0 16 0).all priorityOk = true → n = timeSettings (settingOf b 0 16) (s.tku.settingsDue.getD s.tku.settings) → worn s (settingWordOf 0x0502) = false →
      Completes (.timeSourceConfig m) s fun t =>
        Answers t m [] ∧ t.tku = { s.tku with settingsDue := some n }
        ∧ t.keep = (mpHold (settingWordOf 0x0502) 0x0502 (settingInts n) s).keep ∧ DoneAlone m [.tku, .keep] s t)
  ∧ (∀ (s : State) (m : Nat) (b : Mailbox), Serves s m 0x0503 0 → boxOf s m = b → b.paramWords = 4 → prmN b 0 < 2 ^ 48 ∧ prmN b 1 < 65536 ∧ prmN b 2 ≤ 2 ∧ prmN b 3 < 2 ^ 48 → s.tku.state = .acquire →
      Completes (.timeSetTai m) s fun t =>
        Answers t m []
        ∧ t.tku = { s.tku with taiDue := some (prmN b 0), utcOffset := signedOf 16 (prmN b 1), leap := prmN b 2, leapAt := prmN b 3 }
        ∧ DoneAlone m [.tku] s t)
  ∧ (∀ (s : State) (m : Nat) (b : Mailbox), Serves s m 0x0504 0 → boxOf s m = b → b.paramWords = 3 → prmN b 0 < 2 ^ 48 ∧ fieldOf (prm b 2) 62 32 = 0 → s.tku.devUs ≤ 1000000 * (prmN b 0 + 2) →
      Completes (.timeHostOffset m) s fun t => Answers t m []
        ∧ Leaves s (hostOffset (prmN b 0) (intOf (prm b 1)) (fieldOf (prm b 2) 31 0) (bitOf (prm b 2) 63) s) t
        ∧ (srcOf t 4).phase = - intOf (prm b 1) ∧ (srcOf t 4).bound = fieldOf (prm b 2) 31 0 ∧ (srcOf t 4).traceable = bitOf (prm b 2) 63)
  ∧ (∀ (s : State) (m : Nat), Serves s m 0x0505 0 → (boxOf s m).paramWords = 0 →
      Completes (.timeResync m) s fun t =>
        Answers t m [] ∧ t.tku = { s.tku with state := .acquire, acqRun := 0, trackRun := 0, lockedFor := 0 } ∧ DoneAlone m [.tku] s t)
  ∧ (∀ (s : State) (m n : Nat) (base : Word), Serves s m 0x0506 1 → (boxOf s m).paramWords = 2 → prm (boxOf s m) 0 = base ∧ base.toNat % 4096 = 0 → prmN (boxOf s m) 1 = n ∧ n ∈ [16, 32, 64, 128, 256, 512, 1024, 2048, 4096, 8192, 16384, 32768, 65536] → domOn s 28 = true →
      Completes (.timeEvidenceRing m) s fun t =>
        Answers t m [] ∧ t.ev = { s.ev with named := true, base := base, count := n, prod := 0, cons := 0, due := [] } ∧ DoneAlone m [.ev] s t)
  ∧ (∀ (s : State) (m n : Nat) (b : Mailbox), Serves s m 0x0507 0 → boxOf s m = b → prmN b 0 = n ∧ 1 ≤ n ∧ n ≤ 112 → b.paramWords = n + 1 → (∀ w ∈ prms b 1 n, w.toNat < 2 ^ 22 ∧ circuitAvailable s (epCircuit w) = true ∧ (namedRecord s w).isSome = true) → domOn s 28 = true →
      Completes (.timeEndpointStatus m) s fun t =>
        Delivers s t m ((sortWords BitVec.toNat (prms b 1 n)).flatMap fun w => ((namedRecord s w).map (rangeWords s)).getD [])
        ∧ SameBut [.clk, .mem, .mb, .irq, .out] s t)
  ∧ (∀ (s : State) (m : Nat) (b : Mailbox) (cs : List Nat), Serves s m 0x0508 0 → boxOf s m = b → 13 ≤ b.paramWords → cs = circuitsOf b 0 → (∀ c ∈ cs, circuitAvailable s c = true) → ChecksPass (settingsOk b 12 [(4, 4096), (2, 100)]) → worn s (settingWordOf 0x0508) = false →
      Completes (.timeRangeConfig m) s fun t => Answers t m []
        ∧ t.link.rangeDue = some
          (match settingOf b 12 2 0 with
            | some v => cs.foldl (fun t c => tabPut 64 t c v.toNat) (s.link.rangeDue.getD (s.link.rangePeriod, s.link.rangeReject)).1
            | none => (s.link.rangeDue.getD (s.link.rangePeriod, s.link.rangeReject)).1,
           match settingOf b 12 2 1 with
            | some v => cs.foldl (fun t c => tabPut 10 t c v.toNat) (s.link.rangeDue.getD (s.link.rangePeriod, s.link.rangeReject)).2
            | none => (s.link.rangeDue.getD (s.link.rangePeriod, s.link.rangeReject)).2)
        ∧ { t.link with rangeDue := s.link.rangeDue } = s.link ∧ DoneAlone m [.link, .keep] s t)
  ∧ (∀ (s : State) (m : Nat), Serves s m 0x0509 0 → (boxOf s m).paramWords = 1 → prmN (boxOf s m) 0 = 1 →
      Completes (.timeModel m) s fun t =>
        Answers t m (match liveModel s with
          | some x => modelWords x
          | none => [0, 0, 0, 0]) ∧ DoneAlone m [] s t)
  ∧ (∀ (s : State) (m : Nat), Serves s m 0x0509 0 → (boxOf s m).paramWords = 1 → prmN (boxOf s m) 0 = 2 → (∀ w ∈ [256, 257, 258, 259, 260], worn s w = false) →
      Completes (.timeModel m) s fun t =>
        Answers t m [] ∧ t.tku = { s.tku with model := none } ∧ (∀ w ∈ [256, 257, 258, 259, 260], keepQueued t w = 0) ∧ DoneAlone m [.tku, .keep] s t)
  ∧ (∀ (s : State) (m : Nat) (roles : List Nat), Serves s m 0x050A 0 → (boxOf s m).paramWords = 1 → prmN (boxOf s m) 0 < 65536 → roles = priorityCodes (prmN (boxOf s m) 0) → (∀ r ∈ roles, r ≤ 2) → worn s (settingWordOf 0x050A) = false →
      Completes (.timePeerConfig m) s fun t =>
        Answers t m [] ∧ t.tku = { s.tku with peerRoleDue := some roles }
        ∧ t.keep = (mpHold (settingWordOf 0x050A) 0x050A (roles.map Int.ofNat) s).keep ∧ DoneAlone m [.tku, .keep] s t)

/-- While served: device.set_region, unlocked for this mailbox, takes LOCK and, while superframes are counted, has the profile due from its
superframe on, 16 or more ahead, and else takes it at once, each with its word queued; device.region_status answers the profile in force, the one
due and the lock; device.sf_config with settings in range (a REF_LIST of available circuits, an anchor inside the nominal superframe) queues their
word, changes nothing else where they repeat those in force, and else makes the change, MAINS_NOM only with no circuit active; device.sf_status
answers its words and clears its counters. -/
def Obligations.DeviceConfiguration : Prop :=
  (∀ (s : State) (m p x lock : Nat), Serves s m 0x0120 0 → (boxOf s m).paramWords = 3 → prmN (boxOf s m) 0 = p ∧ p ∈ [0, 1, 2, 15] → prmN (boxOf s m) 1 = x ∧ x < 2 ^ 40 ∧ s.sf.number + 16 ≤ x → prmN (boxOf s m) 2 = lock ∧ lock ≤ 1 → (s.circ.locked = true → 24 ≤ m) → counting s = true → worn s (settingWordOf 0x0120) = false →
      Completes (.deviceSetRegion m) s fun t => Answers t m []
        ∧ t.circ = { s.circ with locked := lock == 1, profileDue := some (p, x) }
        ∧ t.keep = (mpHold (settingWordOf 0x0120) 0x0120 (regionSetting s.circ.profile (lock == 1)) s).keep ∧ DoneAlone m [.circ, .keep] s t)
  ∧ (∀ (s : State) (m p x lock : Nat), Serves s m 0x0120 0 → (boxOf s m).paramWords = 3 → prmN (boxOf s m) 0 = p ∧ p ∈ [0, 1, 2, 15] → prmN (boxOf s m) 1 = x ∧ x < 2 ^ 40 → prmN (boxOf s m) 2 = lock ∧ lock ≤ 1 → (s.circ.locked = true → 24 ≤ m) → counting s = false → worn s (settingWordOf 0x0120) = false →
      Completes (.deviceSetRegion m) s fun t => Answers t m []
        ∧ t.circ.profile = p ∧ t.circ.profileDue = none ∧ t.circ.locked = (lock == 1)
        ∧ Leaves s (mpHold (settingWordOf 0x0120) 0x0120 (regionSetting p (lock == 1)) (applyProfile p { s with circ := { s.circ with locked := lock == 1 } })) t)
  ∧ (∀ (s : State) (m : Nat), Serves s m 0x0121 0 → (boxOf s m).paramWords = 0 →
      Completes (.deviceRegionStatus m) s fun t =>
        Answers t m [BitVec.ofNat 64 s.circ.profile, BitVec.ofNat 64 (s.circ.profileDue.getD (s.circ.profile, 0)).1,
          BitVec.ofNat 64 (s.circ.profileDue.getD (s.circ.profile, 0)).2, bitAt 0 s.circ.locked]
        ∧ DoneAlone m [] s t)
  ∧ (∀ (s : State) (m : Nat) (b : Mailbox) (refW : Word) (mains : Nat) (refs : List Nat) (anchor : Int), Serves s m 0x0122 0 → boxOf s m = b → 1 ≤ b.paramWords → ChecksPass (settingsOk b 0 [(0, 1), (-9223372036854775808, 9223372036854775807), (-9223372036854775808, 9223372036854775807)]) → refW = prm b (1 + (maskRows (prm b 0) 1).length) → ((settingOf b 0 3 1).isSome = true → ChecksPass (refChecks s refW (1 + (maskRows (prm b 0) 1).length))) → mains = pick (settingOf b 0 3 0) (fun v => if v = 1 then 60 else 50) (s.sf.mainsDue.getD s.sf.mainsNom) → refs = pick (settingOf b 0 3 1) (fun _ => refCircuits refW) s.sf.refList → anchor = pick (settingOf b 0 3 2) id s.sf.anchor → 0 ≤ anchor ∧ anchor < lNomOf mains → (mains = s.sf.mainsDue.getD s.sf.mainsNom ∧ refs = s.sf.refList ∧ anchor = s.sf.anchor) → worn s (settingWordOf 0x0122) = false →
      Completes (.deviceSfConfig m) s fun t => Answers t m [] ∧ t.keep = (mpHold (settingWordOf 0x0122) 0x0122 (sfSetting mains refs anchor) s).keep
        ∧ DoneAlone m [.keep] s t)
  ∧ (∀ (s : State) (m : Nat) (b : Mailbox) (refW : Word) (mains : Nat) (refs : List Nat) (anchor : Int), Serves s m 0x0122 0 → boxOf s m = b → 1 ≤ b.paramWords → ChecksPass (settingsOk b 0 [(0, 1), (-9223372036854775808, 9223372036854775807), (-9223372036854775808, 9223372036854775807)]) → refW = prm b (1 + (maskRows (prm b 0) 1).length) → ((settingOf b 0 3 1).isSome = true → ChecksPass (refChecks s refW (1 + (maskRows (prm b 0) 1).length))) → mains = pick (settingOf b 0 3 0) (fun v => if v = 1 then 60 else 50) (s.sf.mainsDue.getD s.sf.mainsNom) → refs = pick (settingOf b 0 3 1) (fun _ => refCircuits refW) s.sf.refList → anchor = pick (settingOf b 0 3 2) id s.sf.anchor → 0 ≤ anchor ∧ anchor < lNomOf mains → ¬ (mains = s.sf.mainsDue.getD s.sf.mainsNom ∧ refs = s.sf.refList ∧ anchor = s.sf.anchor) → (mains = s.sf.mainsDue.getD s.sf.mainsNom ∨ activeCircuits s = []) → worn s (settingWordOf 0x0122) = false →
      Completes (.deviceSfConfig m) s fun t => Answers t m [] ∧ t.sf = (sfChange mains refs anchor s).sf
        ∧ Leaves s (mpHold (settingWordOf 0x0122) 0x0122 (sfSetting mains refs anchor) (sfChange mains refs anchor s)) t)
  ∧ (∀ (s : State) (m : Nat), Serves s m 0x0123 0 → (boxOf s m).paramWords = 0 →
      Completes (.deviceSfStatus m) s fun t =>
        Answers t m [fieldAt 63 62 (sfCode s.sf.state) ||| fieldAt 39 0 s.sf.number, fieldAt 63 48 s.sf.len ||| fieldAt 47 38 (s.sf.ref.getD 0x3FF),
          BitVec.ofInt 64 (if s.sf.state = .free then 0 else tick256 s.sf.phi),
          BitVec.ofInt 64 (if s.sf.period = 0 then 256 * lNom s else tick256 s.sf.period), twoCounts s.sf.lockLoss s.sf.refSwitch]
        ∧ t.sf = { s.sf with lockLoss := 0, refSwitch := 0 } ∧ DoneAlone m [.sf] s t)

/-- While served: device.ring_config with the host link up, its values in range, its addresses outside the device's memory and its express doorbell
free or its own, on a DISABLED ring or with the ring's own settings, takes the settings, binds the doorbell, and enables or drains the ring as
ENABLE says, no other ring changing; device.ring_status answers its words and a receive ring's RX_NOBUF is cleared; device.rx_steer sets or clears
one entry; security.circuit_key of available circuits, with a free slot, draws a new key of the next epoch, tells the set's ACTIVE endpoints, and
has the set rotate to it 16 superframes on; ldpc.status answers each decoder and the pool's depth, and clears the counts. -/
def Obligations.RingsAndKeys : Prop :=
  (∀ (s : State) (m q : Nat) (rx : Bool) (b : Mailbox), Serves s m 0x0130 1 → boxOf s m = b → b.paramWords = 11 → prmN b 0 = (if rx then 1 else 0) ∧ prmN b 1 = q ∧ q ≤ 255 → prmN b 2 % 4096 = 0 ∧ inHdm s (prmN b 2) (32 * prmN b 3) = false → prmN b 3 ∈ [64, 128, 256, 512, 1024, 2048, 4096, 8192, 16384, 32768, 65536] → prmN b 4 % 8 = 0 ∧ inHdm s (prmN b 4) 8 = false → prmN b 5 ≤ 63 ∧ 1 ≤ prmN b 6 ∧ prmN b 6 ≤ 256 ∧ prmN b 7 ≤ 1023 → (rx = true ∨ prmN b 8 ≤ 15 ∨ prmN b 8 = 0xFF) → prmN b 9 ≤ (if rx then 1 else 0) ∧ prmN b 10 ≤ 1 → domOn s 28 = true ∧ s.host.up = true → ((ringOf rx s q).state = .disabled ∨ sameRing (ringOf rx s q) (ringAsked rx b) = true) → (rx = true ∨ prmN b 8 = 0xFF ∨ tabGet none s.host.xdb (prmN b 8) = none ∨ tabGet none s.host.xdb (prmN b 8) = some q) →
      Completes (.deviceRingConfig m) s fun t => Answers t m []
        ∧ ringOf rx t q = ringEnable (prmN b 10 == 1) (takeRing (ringAsked rx b) (ringOf rx s q))
        ∧ (∀ y r, (y, r) ≠ (rx, q) → ringOf y t r = ringOf y s r)
        ∧ t.host.xdb = (if rx then s.host.xdb else bindXdb q (ringAsked rx b).xdb s.host.xdb)
        ∧ { t.host with rx := s.host.rx, tx := s.host.tx, xdb := s.host.xdb } = s.host ∧ DoneAlone m [.host] s t)
  ∧ (∀ (s : State) (m q : Nat) (rx : Bool), Serves s m 0x0131 1 → (boxOf s m).paramWords = 2 → prmN (boxOf s m) 0 = (if rx then 1 else 0) ∧ prmN (boxOf s m) 1 = q ∧ q ≤ 255 →
      Completes (.deviceRingStatus m) s fun t =>
        Answers t m [fieldAt 63 62 (ringCode (ringOf rx s q).state) ||| fieldAt 61 56 (ringOf rx s q).cause ||| fieldAt 47 32 (ringOf rx s q).tail
            ||| fieldAt 31 16 (ringOf rx s q).head ||| fieldAt 15 0 (if rx then ringHeld s q else (ringOf rx s q).accepted),
          fieldAt 63 32 (ringOf rx s q).noBuf]
        ∧ ringOf rx t q = (if rx then { ringOf rx s q with noBuf := 0 } else ringOf rx s q) ∧ DoneAlone m [.host] s t)
  ∧ (∀ (s : State) (m c a r : Nat), Serves s m 0x0132 1 → (boxOf s m).paramWords = 3 → prmN (boxOf s m) 0 = c ∧ c ≤ 767 ∧ circuitAvailable s c = true → prmN (boxOf s m) 1 = a ∧ (1 ≤ a ∧ a ≤ 0xEFF ∨ a = 0xFFF) → prmN (boxOf s m) 2 = r ∧ (r ≤ 255 ∨ r = 0xFFF ∨ r = 0xFFFF) →
      Completes (.deviceRxSteer m) s fun t =>
        Answers t m [] ∧ tabGet none t.host.steer (c * 4096 + a) = (if r ≤ 255 then some r else none)
        ∧ (∀ k, k ≠ c * 4096 + a → tabGet none t.host.steer k = tabGet none s.host.steer k) ∧ { t.host with steer := s.host.steer } = s.host
        ∧ DoneAlone m [.host] s t)
  ∧ (∀ (s : State) (m k epoch : Nat) (cs : List Nat), Serves s m 0x0603 0 → (boxOf s m).paramWords = 13 → prmN (boxOf s m) 12 = 1 → cs = circuitsOf (boxOf s m) 0 → (∀ c ∈ cs, circuitAvailable s c = true) → domOn s 28 = true ∧ domOn s 29 = true → freeKey s = some k → epoch = s.sec.epochCount + 1 ∧ s.sec.epochCount < 4294967295 → worn s 1602 = false →
      Completes (.securityCircuitKey m) s fun t => Answers t m [BitVec.ofNat 64 epoch]
        ∧ (∃ u v : State, u = makeKey k epoch (mpWrite 1602 (BitVec.ofNat 64 epoch) { s with sec := { s.sec with epochCount := epoch } })
          ∧ v = (activeOf u cs).foldl (fun v ep => sendControl ep (keyUpdateWords v k (s.sf.number + 16)) v) u
          ∧ Leaves s { v with sec := { v.sec with rotations := v.sec.rotations ++ [{ circuits := cs, keyIdx := k, startSf := s.sf.number + 16 }] } } t))
  ∧ (∀ (s : State) (m : Nat), Serves s m 0x0830 0 → (boxOf s m).paramWords = 0 →
      Completes (.ldpcStatus m) s fun t =>
        Answers t m ((List.range 34).flatMap (fun d =>
            [BitVec.ofNat 64 (decCode (decoderOf s d).state), twoCounts (decoderOf s d).decoded 0, bitAt 0 (decoderOf s d).lastOk])
          ++ [BitVec.ofNat 64 s.ldpc.depth])
        ∧ t.ldpc.depth = 0 ∧ (∀ d < 34, decoderOf t d = { decoderOf s d with decoded := 0 }) ∧ DoneAlone m [.ldpc] s t)

/-- A WRITE of 1 to 14 words is answered OK and writes each word, and into an unlocked baseboard mailbox's data words leaves them there; a READ is
answered with the words; a DOORBELL is answered OK and has its ACTION done as R380 has it; a request with a RESULT other than OK is answered with it
and changes nothing but what was sent. Set Endpoint ID stores the identifier; the other control messages answer and change nothing. -/
def Obligations.BaseboardRequests : Prop :=
  (∀ (s : State) (i off n : Nat) (data : List Byte) (body : List Byte), body = [1, BitVec.ofNat 8 i, BitVec.ofNat 8 (8 + off), BitVec.ofNat 8 n] ++ data → data.length = 8 * n → i < 4 ∧ 1 ≤ n ∧ n ≤ 14 ∧ off + n ≤ 120 → boxLocked (boxOf s (24 + i)) = false →
      Completes (.mctpWrite body) s fun t =>
        (∀ j < n, readBox (boxOf t (24 + i)) (8 * (8 + (off + j))) = (wordsWith wordBE n data).getD j 0)
        ∧ (∀ q, q ≠ 24 + i → boxOf t q = boxOf s q) ∧ Out.mctp [0x81, 0] ∈ t.out ∧ Alone [.mb] s t)
  ∧ (∀ (s : State) (body : List Byte) (ws : List Word), mctpResult 1 body s = 0 → ws = wordsWith wordBE (mctpWords body) (body.drop 4) →
      Completes (.mctpWrite body) s fun t => Leaves s (mctpReply 1 0 [] ((List.range ws.length).foldl
        (fun u j => mctpWord (24 + (body.getD 1 0).toNat) ((body.getD 2 0).toNat + j) (ws.getD j 0) u) s)) t)
  ∧ (∀ (s : State) (i off n : Nat), i < 4 ∧ 1 ≤ n ∧ n ≤ 14 ∧ off + n ≤ 128 →
      Completes (.mctpRead [2, BitVec.ofNat 8 i, BitVec.ofNat 8 off, BitVec.ofNat 8 n]) s fun t =>
        Out.mctp ([0x82, 0] ++ ((List.range n).map fun j => readBox (boxOf s (24 + i)) (8 * (off + j))).flatMap bytesBE) ∈ t.out ∧ Alone [] s t)
  ∧ (∀ (s : State) (i : Nat) (act off n : Byte), i < 4 →
      Completes (.mctpDoorbell [3, BitVec.ofNat 8 i, off, n, act]) s fun t =>
        Out.mctp [0x83, 0] ∈ t.out ∧ SameBut [.irq, .out, .pending] (boxAct (24 + i) (act.toNat % 4) s) t ∧ t.pending = s.pending)
  ∧ (∀ (s : State) (op r : Nat) (body : List Byte) (i : Instr), (op = 1 ∧ i = .mctpWrite body ∨ op = 2 ∧ i = .mctpRead body ∨ op = 3 ∧ i = .mctpDoorbell body) → mctpResult op body s = r → r ≠ 0 →
      Completes i s fun t => Out.mctp [BitVec.ofNat 8 ((body.getD 0 0).toNat % 128 + 128), BitVec.ofNat 8 r] ∈ t.out ∧ Alone [] s t)
  ∧ (∀ (s : State) (eid : Nat), eid < 256 →
      Completes (.setEndpointId eid) s fun t => t.irq.eid = eid ∧ SameBut [.irq, .out] s t ∧ { t.irq with eid := s.irq.eid, msix := s.irq.msix } = s.irq)
  ∧ (∀ (s : State), Completes .getEndpointId s fun t => Out.mctp (Config.mctpControl 2 [BitVec.ofNat 8 s.irq.eid]) ∈ t.out ∧ Alone [] s t)
  ∧ (∀ (s : State), Completes .getMctpVersionSupport s fun t => Out.mctp (Config.mctpControl 4 []) ∈ t.out ∧ Alone [] s t)
  ∧ (∀ (s : State), Completes .getMessageTypeSupport s fun t => Out.mctp (Config.mctpControl 5 [0x7E]) ∈ t.out ∧ Alone [] s t)
  ∧ (∀ (s : State), Completes .getVendorDefinedMsgSupport s fun t => Out.mctp (Config.mctpControl 6 [0x1F, 0x3E]) ∈ t.out ∧ Alone [] s t)

/-- A journal entry of the running core is posted, and applied by a standby that is on; a standby that is on becomes READY with the journal applied;
a kick sets the watchdog back. After 50 ms without one a READY standby becomes the running core as R380 and R403 have it, the failed core's domain
is power-cycled and MP_TAKEOVER names that core, an armed hand-over begins its trial with FW_TAKEOVER, and a trial ends in the old image; with no
READY standby the failed core's domain is power-cycled, that core is the one that boots, and a trial ends. The booting core runs the bank of
BOOT_BANK where it is good; the other bank, with FW_REVERTED, where only that is good; with both bad MP-A runs the ROM loader and MP-B is off. -/
def Obligations.CoresAndWatchdog : Prop :=
  (∀ (s : State), runningCode s ≠ 0 →
      Completes .journalEntry s fun t =>
        t.mp = { s.mp with journalPosted := s.mp.journalPosted + 1, journalApplied :=
          if (coreOf s (standbyIndex s)).role = .standby ∧ domOn s (standbyIndex s + 1) = true then s.mp.journalPosted + 1 else s.mp.journalApplied }
        ∧ Alone [.mp] s t)
  ∧ (∀ (s : State), (coreOf s (standbyIndex s)).role = .standby ∧ domOn s (standbyIndex s + 1) = true →
      Completes .standbyReady s fun t =>
        coreOf t (standbyIndex s) = { coreOf s (standbyIndex s) with ready := true } ∧ coreOf t (1 - standbyIndex s) = coreOf s (1 - standbyIndex s)
        ∧ t.mp.journalApplied = s.mp.journalPosted ∧ { t.mp with coreA := s.mp.coreA, coreB := s.mp.coreB, journalApplied := s.mp.journalApplied } = s.mp
        ∧ Alone [.mp] s t)
  ∧ (∀ (s : State), Completes .watchdogKick s fun t => t.mp = { s.mp with lastKick := s.clk.now } ∧ Alone [.mp] s t)
  ∧ (∀ (s : State) (old : Nat), runningCode s ≠ 0 ∧ s.mp.lastKick + 50000 ≤ s.clk.now → standbyReady s = true → s.mp.armed = none ∧ inTrial s = false → old = (if runningCode s = 2 then 1 else 0) →
      Completes .watchdogExpiry s fun t => ∃ u,
        u = powerCycle (old + 1) (setCore old { coreOf (switchCore 1 s) old with role := .standby, ready := false } (switchCore 1 s))
        ∧ ∃ v, v = setCore old { coreOf u old with role := .standby, bank := bootBank u } u
        ∧ Logged 0x0060 (old + 1) v t ∧ SameBut [.irq, .out, .pending, .mem] v t ∧ t.pending = s.pending)
  ∧ (∀ (s : State) (old : Nat) (a : FwArmed), runningCode s ≠ 0 ∧ s.mp.lastKick + 50000 ≤ s.clk.now → standbyReady s = true → s.mp.armed = some a → old = (if runningCode s = 2 then 1 else 0) →
      Completes .watchdogExpiry s fun t => ∃ u,
        u = powerCycle (old + 1) (setCore old { coreOf (switchCore 1 s) old with role := .standby, ready := false } (switchCore 1 s))
        ∧ ∃ v, v = raise 0x0060 (old + 1) (setCore old { coreOf u old with role := .standby, bank := bootBank u } u)
        ∧ Leaves s (raise 0x0061 (1 - bootBank v) (beginTrial a.source { v with mp := { v.mp with armed := none } })) t)
  ∧ (∀ (s : State) (old : Nat), runningCode s ≠ 0 ∧ s.mp.lastKick + 50000 ≤ s.clk.now → standbyReady s = true → s.mp.armed = none ∧ inTrial s = true → old = (if runningCode s = 2 then 1 else 0) →
      Completes .watchdogExpiry s fun t => ∃ u,
        u = powerCycle (old + 1) (setCore old { coreOf (switchCore 1 s) old with role := .standby, ready := false } (switchCore 1 s))
        ∧ ∃ v, v = raise 0x0060 (old + 1) (setCore old { coreOf u old with role := .standby, bank := bootBank u } u)
        ∧ Leaves s (endOfTrial v) t)
  ∧ (∀ (s : State) (old : Nat), runningCode s ≠ 0 ∧ s.mp.lastKick + 50000 ≤ s.clk.now → standbyReady s = false → old = (if runningCode s = 2 then 1 else 0) →
      Completes .watchdogExpiry s fun t => ∃ u v,
        u = cancelRunning (dropAdmitting (aeadCoreLost (old + 1) s))
        ∧ v = powerCycle (old + 1) { u with mp := { u.mp with serving := false, runner := old, lastKick := u.clk.now } }
        ∧ Leaves s (if inTrial s = true then endOfTrial v else v) t)
  ∧ (∀ (s : State) (aOk bOk : Bool) (k want bank : Nat), s.mp.serving = false → k = s.mp.runner ∧ k < 2 ∧ domOn s (k + 1) = true → want = bootBank s → (bank = want ∨ bank = 1 - want ∧ ((if want = 0 then aOk else bOk) = false ∨ (bankOf s want).state = .empty ∨ (bankOf s want).state = .invalid)) → (if bank = 0 then aOk else bOk) = true ∧ (bankOf s bank).state ≠ .empty ∧ (bankOf s bank).state ≠ .invalid →
      Completes (.mpBootDone aOk bOk) s fun t =>
        coreOf t k = { coreOf s k with role := .running, ready := false, bank := bank, fromStage := false, image := (bankOf s bank).image }
        ∧ coreOf t (1 - k) = (if domOn s (2 - k) = true then { coreOf s (1 - k) with role := .standby, ready := false, bank := bank, image := (bankOf s bank).image }
                              else coreOf s (1 - k))
        ∧ t.mp.serving = true ∧ t.mp.runner = k ∧ t.mp.lastKick = s.clk.now
        ∧ (bank ≠ want → Logged 0x0062 want s t) ∧ (bank = want → t.irq.log = s.irq.log)
        ∧ SameBut [.mp, .irq, .out, .mem] s t)
  ∧ (∀ (s : State) (aOk bOk : Bool) (k : Nat), s.mp.serving = false → k = s.mp.runner ∧ domOn s (k + 1) = true → (aOk = false ∨ s.mp.bankA.state = .empty ∨ s.mp.bankA.state = .invalid) → (bOk = false ∨ s.mp.bankB.state = .empty ∨ s.mp.bankB.state = .invalid) →
      Completes (.mpBootDone aOk bOk) s fun t =>
        t.mp = { s.mp with coreA := { s.mp.coreA with role := .romLoader, ready := false }, coreB := { s.mp.coreB with role := .off, ready := false },
                           serving := true, runner := 0, lastKick := s.clk.now }
        ∧ Alone [.mp] s t)

/-- A write of INT_CAUSE clears the W1C causes it names, of INT_MASK sets the mask's bits [13:0], of MB_DONE_MAP clears the bits it names; each
signals EVENT_VECTOR where PENDING stays non-zero. A write of EVENT_VECTOR sets its six bits. A write of EV_CONS in D28 is taken where PROD minus
CONS then lies within COUNT, and else sets REG_OFF. REGISTER_WRITE at the offsets of these registers is the same command; at BULK_ADDR it sets
TARGET (a reserved target leaves it) and OFFSET; at KS_ADDR the word; at DOM_EVENT and LEDGER_STATUS it clears the bits it names; a write to a block
whose domain is not ENABLED sets REG_OFF and changes nothing else; a misaligned or short one, one of a reserved offset and one through a port that
does not reach the register changes nothing. -/
def Obligations.RegisterWrites : Prop :=
  (∀ (s : State) (v : Word), Completes (.intCauseWrite v) s fun t =>
        t.irq = { s.irq with cause := s.irq.cause &&& ~~~ (v &&& 0x3E00), msix := t.irq.msix } ∧ SameBut [.irq, .out] s t
        ∧ (intPending t ≠ 0 → Signals s t))
  ∧ (∀ (s : State) (v : Word), Completes (.intMaskWrite v) s fun t =>
        t.irq = { s.irq with mask := v &&& 0x3FFF, msix := t.irq.msix } ∧ SameBut [.irq, .out] s t ∧ (intPending t ≠ 0 → Signals s t))
  ∧ (∀ (s : State) (v : Word), Completes (.mbDoneMapWrite v) s fun t =>
        t.irq = { s.irq with mbDone := s.irq.mbDone &&& ~~~ v, msix := t.irq.msix } ∧ SameBut [.irq, .out] s t ∧ (intPending t ≠ 0 → Signals s t))
  ∧ (∀ (s : State) (v : Word), Completes (.eventVectorWrite v) s fun t => t.irq = { s.irq with vector := fieldOf v 5 0 } ∧ SameBut [.irq] s t)
  ∧ (∀ (s : State) (v : Word), domOn s 28 = true →
      Completes (.evConsWrite v) s fun t =>
        if ringUse s.ev.prod (fieldOf v 31 0) ≤ s.ev.count then t.ev = { s.ev with cons := fieldOf v 31 0 } ∧ Alone [.ev] s t
        else CauseSet 12 s t)
  ∧ (∀ (s : State) (v : Word), domOn s 0 = true →
      exec (.registerWrite 4 0 0x1000 8 v) s = exec (.intCauseWrite v) s ∧ exec (.registerWrite 4 0 0x1008 8 v) s = exec (.intMaskWrite v) s
        ∧ exec (.registerWrite 4 0 0x1018 8 v) s = exec (.mbDoneMapWrite v) s ∧ exec (.registerWrite 4 0 0x1010 8 v) s = exec (.eventVectorWrite v) s
        ∧ exec (.registerWrite 4 0 0x8058 8 v) s = exec (.evConsWrite v) s)
  ∧ (∀ (s : State) (v : Word) (q : Nat), q < 256 →
      exec (.registerWrite 4 0 (0x10000 + 8 * q) 8 v) s = exec (.txDbWrite q v) s ∧ exec (.registerWrite 4 0 (0x10800 + 8 * q) 8 v) s = exec (.rxDbWrite q v) s
        ∧ (q < 16 → exec (.registerWrite 4 0 (0x11000 + 8 * q) 8 v) s = exec (.xdbWrite q v) s))
  ∧ (∀ (s : State) (v : Word), domOn s 28 = true →
      Completes (.registerWrite 4 0 0x2000 8 v) s fun t =>
        t.mem = { s.mem with target := if 1 ≤ fieldOf v 63 60 ∧ fieldOf v 63 60 ≤ 6 then fieldOf v 63 60 else s.mem.target, offset := fieldOf v 35 0 }
        ∧ Alone [.mem] s t)
  ∧ (∀ (s : State) (v : Word), domOn s 0 = true →
      Completes (.registerWrite 4 0 0x5000 8 v) s fun t => t.keep = { s.keep with addr := fieldOf v 11 0 } ∧ Alone [.keep] s t)
  ∧ (∀ (s : State) (v : Word), domOn s 0 = true →
      Completes (.registerWrite 4 0 0x7010 8 v) s fun t => t.pwr = { s.pwr with domEvent := s.pwr.domEvent &&& ~~~ v } ∧ Alone [.pwr] s t)
  ∧ (∀ (s : State) (v : Word), domOn s 28 = true →
      Completes (.registerWrite 4 0 0x8000 8 v) s fun t => t.pair = { s.pair with ledger := s.pair.ledger &&& ~~~ v } ∧ Alone [.pair] s t)
  ∧ (∀ (s : State) (v : Word) (off d : Nat), blockDomain off = some d ∧ off % 8 = 0 ∧ off ∉ [0x1000, 0x1008, 0x1018] → domOn s d = false →
      Completes (.registerWrite 4 0 off 8 v) s fun t =>
        CauseSet 12 s t)
  ∧ (∀ (s : State) (v : Word) (off bytes bar agent : Nat), 1 ≤ agent ∧ agent ≤ 4 → (bar = 0 ∧ (off < 0xF0000 ∨ 0xF0400 ≤ off) ∧ (bytes ≠ 8 ∨ off % 8 ≠ 0 ∨ blockDomain off = none ∨ agent ≠ 4 ∧ (off < 0x3000 ∨ 0x5000 ≤ off)) ∧ off ∉ [0x1000, 0x1008, 0x1018]
   ∨ bar = 2 ∧ (off < 0x8000 ∨ 0x9000 ≤ off) ∧ (agent ≠ 4 ∨ bytes ≠ 8 ∨ off % 8 ≠ 0 ∨ 0x6000 ≤ off)) →
      Completes (.registerWrite agent bar off bytes v) s fun t => t = s)

/-- A doorbell of an ENABLED ring moves its tail to a TAIL below the ring size; one at or above the size is ignored and puts the ring in FAULT with
cause 1, RING_FAULT and INT_CAUSE[9]; one of a ring that is not ENABLED changes nothing. A write of a bound XDB does the same to its ring and marks
the newly posted descriptors express; one of an unbound XDB raises XDB_UNBOUND. A capture latches device time, tick count and DONE while DONE is
clear, and changes none of them while it is set; clearing DONE comes before a capture of the same write; each such write sets the pin and its
arming, and the armed pin's edge captures once. -/
def Obligations.DoorbellsAndCaptures : Prop :=
  (∀ (s : State) (q : Nat) (v : Word), q < 256 → domOn s 28 = true → (txRing s q).state = .enabled ∧ fieldOf v 15 0 < (txRing s q).size →
      Completes (.txDbWrite q v) s fun t =>
        txRing t q = { txRing s q with tail := fieldOf v 15 0 } ∧ (∀ p, p ≠ q → txRing t p = txRing s p)
        ∧ { t.host with tx := s.host.tx } = s.host ∧ Alone [.host] s t)
  ∧ (∀ (s : State) (q : Nat) (v : Word), q < 256 → domOn s 28 = true → (rxRing s q).state = .enabled ∧ fieldOf v 15 0 < (rxRing s q).size →
      Completes (.rxDbWrite q v) s fun t =>
        rxRing t q = { rxRing s q with tail := fieldOf v 15 0 } ∧ (∀ p, p ≠ q → rxRing t p = rxRing s p)
        ∧ { t.host with rx := s.host.rx } = s.host ∧ Alone [.host] s t)
  ∧ (∀ (s : State) (q : Nat) (v : Word) (rx : Bool) (i : Instr), i = (if rx then .rxDbWrite q v else .txDbWrite q v) ∧ q < 256 → domOn s 28 = true → (ringOf rx s q).state = .enabled ∧ (ringOf rx s q).size ≤ fieldOf v 15 0 →
      Completes i s fun t =>
        ringOf rx t q = { ringOf rx s q with state := .fault, cause := 1 } ∧ (∀ p, p ≠ q → ringOf rx t p = ringOf rx s p)
        ∧ Logged 0x0042 (ringObject rx q) s t ∧ t.irq.cause = s.irq.cause ||| bitAt 9 true ∧ SameBut [.host, .irq, .out, .mem] s t)
  ∧ (∀ (s : State) (q : Nat) (v : Word) (rx : Bool) (i : Instr), i = (if rx then .rxDbWrite q v else .txDbWrite q v) ∧ q < 256 → domOn s 28 = true → (ringOf rx s q).state ≠ .enabled →
      Completes i s fun t => t = s)
  ∧ (∀ (s : State) (n q : Nat) (v : Word), n < 16 → domOn s 28 = true → tabGet none s.host.xdb n = some q → (txRing s q).state = .enabled ∧ fieldOf v 15 0 < (txRing s q).size →
      Completes (.xdbWrite n v) s fun t =>
        txRing t q = { txRing s q with tail := fieldOf v 15 0, express := (txRing s q).express
          ++ (indicesTo (txRing s q).size (txRing s q).tail (fieldOf v 15 0)).map (·, s.clk.now) }
        ∧ (∀ p, p ≠ q → txRing t p = txRing s p) ∧ { t.host with tx := s.host.tx } = s.host ∧ Alone [.host] s t)
  ∧ (∀ (s : State) (n q : Nat) (v : Word), n < 16 ∧ q < 256 → tabGet none s.host.xdb n = some q → ¬ ((txRing s q).state = .enabled ∧ fieldOf v 15 0 < (txRing s q).size) →
      exec (.xdbWrite n v) s = exec (.txDbWrite q v) s)
  ∧ (∀ (s : State) (n : Nat) (v : Word), n < 16 → domOn s 28 = true → tabGet none s.host.xdb n = none →
      Completes (.xdbWrite n v) s fun t => Logged 0x0041 n s t ∧ SameBut [.irq, .out, .mem] s t)
  ∧ (∀ (s : State) (v : Word) (sub : Nat), Completes (.tcapCapture v sub) s fun t =>
        t.tku = (if s.tku.capDone && !bitOf v 8 then { s.tku with gpioSel := fieldOf v 7 4, armGpio := bitOf v 1 }
          else { s.tku with gpioSel := fieldOf v 7 4, armGpio := bitOf v 1, capDone := true, capH := timeHigh s.tku.devUs sub,
                            capL := timeLow s.tku.devUs sub, capTick := BitVec.ofNat 64 s.clk.tick })
        ∧ Alone [.tku] s t)
  ∧ (∀ (s : State) (v : Word) (sub : Nat), Completes (.tcapDoneClear v sub) s fun t =>
        t.tku = (if bitOf v 0 then { s.tku with gpioSel := fieldOf v 7 4, armGpio := bitOf v 1, capDone := true, capH := timeHigh s.tku.devUs sub,
                                                capL := timeLow s.tku.devUs sub, capTick := BitVec.ofNat 64 s.clk.tick }
          else { s.tku with gpioSel := fieldOf v 7 4, armGpio := bitOf v 1, capDone := false })
        ∧ Alone [.tku] s t)
  ∧ (∀ (s : State) (v : Word) (sub : Nat), Completes (.tcapArmGpio v sub) s fun t =>
        t.tku = (if bitOf v 0 && !(s.tku.capDone && !bitOf v 8) then
            { s.tku with gpioSel := fieldOf v 7 4, armGpio := true, capDone := true, capH := timeHigh s.tku.devUs sub,
                         capL := timeLow s.tku.devUs sub, capTick := BitVec.ofNat 64 s.clk.tick }
          else { s.tku with gpioSel := fieldOf v 7 4, armGpio := true, capDone := s.tku.capDone && !bitOf v 8 })
        ∧ Alone [.tku] s t)
  ∧ (∀ (s : State) (pin sub : Nat), pin < 16 →
      Completes (.gpioEdgeCapture pin sub) s fun t =>
        (if s.tku.armGpio = true ∧ s.tku.capDone = false ∧ s.tku.gpioSel = pin then
          t.tku = { s.tku with capDone := true, armGpio := false, capH := timeHigh s.tku.devUs sub, capL := timeLow s.tku.devUs sub,
                               capTick := BitVec.ofNat 64 s.clk.tick }
        else t.tku = s.tku) ∧ Alone [.tku] s t)

/-- A write of KS_DATA is queued with the address of that moment; while one is pending it sets RESULT to BUSY and nothing else; outside HOST_AREA
and PROV_KEY it is refused with DENIED and KS_DONE. A read returns the word's value with OK or CORRUPT, or zero with SEALED. The next write in the
order of R438 starts while none is in progress and VPP_KEEP is in range; a WORN word refuses it as WORN, a word of another owner or a PROV_KEY word
that is not zero as DENIED. A write that ends after 20 us leaves its value with a new code, the wear counter one higher and the settings it holds,
and changes no other word; a host write reports OK and KS_DONE. A write that waited over 100 ms for VPP_KEEP is refused as WORN. -/
def Obligations.KeepStoreWindow : Prop :=
  (∀ (s : State) (v : Word), ksBusy s = false → hostMayWrite s.keep.addr = true →
      Completes (.ksDataWrite v) s fun t =>
        t.keep = { s.keep with hostQ := [{ source := .host, word := s.keep.addr, value := v, since := s.clk.now }] } ∧ Alone [.keep] s t)
  ∧ (∀ (s : State) (v : Word), ksBusy s = true →
      Completes (.ksDataWrite v) s fun t => t.keep = { s.keep with result := 1 } ∧ Alone [.keep] s t)
  ∧ (∀ (s : State) (v : Word), ksBusy s = false → hostMayWrite s.keep.addr = false →
      Completes (.ksDataWrite v) s fun t => t.keep = { s.keep with result := 3 } ∧ CauseSet 11 { s with keep := { s.keep with result := 3 } } t)
  ∧ (∀ (s : State), hostSealed s.keep.addr = true →
      Completes .ksDataRead s fun t => Out.read [0] ∈ t.out ∧ t.keep = { s.keep with result := 4 } ∧ Alone [.keep] s t)
  ∧ (∀ (s : State), hostSealed s.keep.addr = false →
      Completes .ksDataRead s fun t => Out.read [keepWord s s.keep.addr] ∈ t.out
        ∧ t.keep = { s.keep with result := if (cellOf s s.keep.addr).corrupt then 5 else 0 } ∧ Alone [.keep] s t)
  ∧ (∀ (s : State) (w : KeepWrite) (k : Keep), s.keep.active = none ∧ s.pins.rails.vppKeep = true → keepNext s.keep = some (w, k) → worn s w.word = false ∧ keepOwned w.source w.word = true → (w.source = .host → isProvKey w.word = true → keepWord s w.word = 0) →
      Completes .keepWriteStart s fun t => t.keep = { k with active := some w, startedAt := s.clk.now } ∧ Alone [.keep] s t)
  ∧ (∀ (s : State) (w : KeepWrite) (k : Keep), s.keep.active = none ∧ s.pins.rails.vppKeep = true → keepNext s.keep = some (w, k) → worn s w.word = true → w.source = .host →
      Completes .keepWriteStart s fun t => t.keep = { k with result := 2 } ∧ CauseSet 11 { s with keep := { k with result := 2 } } t)
  ∧ (∀ (s : State) (w : KeepWrite) (k : Keep), s.keep.active = none ∧ s.pins.rails.vppKeep = true → keepNext s.keep = some (w, k) → worn s w.word = true → w.source ≠ .host →
      Completes .keepWriteStart s fun t => t.keep = k ∧ Alone [.keep] s t)
  ∧ (∀ (s : State) (w : KeepWrite) (k : Keep), s.keep.active = none ∧ s.pins.rails.vppKeep = true → keepNext s.keep = some (w, k) → worn s w.word = false ∧ (keepOwned w.source w.word = false ∨ isProvKey w.word = true ∧ keepWord s w.word ≠ 0) → w.source = .host →
      Completes .keepWriteStart s fun t => t.keep = { k with result := 3 } ∧ CauseSet 11 { s with keep := { k with result := 3 } } t)
  ∧ (∀ (s : State) (w : KeepWrite) (k : Keep), s.keep.active = none ∧ s.pins.rails.vppKeep = true → keepNext s.keep = some (w, k) → worn s w.word = false ∧ keepOwned w.source w.word = false → w.source ≠ .host →
      Completes .keepWriteStart s fun t => t.keep = k ∧ Alone [.keep] s t)
  ∧ (∀ (s : State) (w : KeepWrite), s.keep.active = some w ∧ s.keep.startedAt + 20 ≤ s.clk.now → keepOwned w.source w.word = true → w.source = .host →
      Completes .keepWriteDone s fun t =>
        cellOf t w.word = { value := w.value, wear := (cellOf s w.word).wear + 1, corrupt := false, holds := heldAfter w (cellOf s w.word) }
        ∧ (∀ x, x ≠ w.word → cellOf t x = cellOf s x) ∧ t.keep.active = none
        ∧ t.keep.result = 0 ∧ t.irq.cause = s.irq.cause ||| bitAt 11 true ∧ SameBut [.keep, .irq, .out] s t)
  ∧ (∀ (s : State) (w : KeepWrite), s.keep.active = some w ∧ s.keep.startedAt + 20 ≤ s.clk.now → keepOwned w.source w.word = true → w.source ≠ .host →
      Completes .keepWriteDone s fun t =>
        cellOf t w.word = { value := w.value, wear := (cellOf s w.word).wear + 1, corrupt := false, holds := heldAfter w (cellOf s w.word) }
        ∧ (∀ x, x ≠ w.word → cellOf t x = cellOf s x) ∧ t.keep.active = none
        ∧ t.keep.result = s.keep.result ∧ Alone [.keep] s t)
  ∧ (∀ (s : State) (w : KeepWrite) (k : Keep), s.keep.active = none ∧ s.pins.rails.vppKeep = false → keepNext s.keep = some (w, k) → w.since + 100000 < s.clk.now → w.source = .host →
      Completes .keepWriteWaitTimeout s fun t => t.keep = { k with result := 2 } ∧ CauseSet 11 { s with keep := { k with result := 2 } } t)
  ∧ (∀ (s : State) (w : KeepWrite) (k : Keep), s.keep.active = none ∧ s.pins.rails.vppKeep = false → keepNext s.keep = some (w, k) → w.since + 100000 < s.clk.now → w.source ≠ .host →
      Completes .keepWriteWaitTimeout s fun t => t.keep = k ∧ Alone [.keep] s t)

/-- A read of LEDGER_CREDIT, PAIR_STATUS, HDM_VIOL_ADDR and HDM_VIOL_CNT returns the word and clears what it returned; AEAD_STATUS keeps a DONE
result from being withdrawn once its owner has read it; in a domain that is not ENABLED each returns zero and sets REG_OFF, as does a read of any
block of such a domain. A bulk read of good words returns them, with what a poisoned line gives, a failed access sets ERR with the first cause, a
failed read returns zeros and a failed write has no effect, an access with D28 off sets REG_OFF and has BUSY due; a write into PLAN_STAGE stores its
words, one into FW_STAGE stores them and withdraws the verified stage. Unmasking a vector sends its pending message; the HDM decoder is committed
while the link is up with CXL. -/
def Obligations.StatusReadsAndBulkPort : Prop :=
  (∀ (s : State), domOn s 28 = true →
      Completes .ledgerCreditRead s fun t =>
        Out.read [ledgerCredit s] ∈ t.out ∧ t.pair = { s.pair with checks := 0, fails := 0, skipped := 0 } ∧ Alone [.pair] s t)
  ∧ (∀ (s : State), domOn s 28 = true →
      Completes .pairStatusRead s fun t =>
        Out.read [pairStatus s] ∈ t.out ∧ t.pair = { s.pair with takeovers := 0, splits := 0, cellLost := 0 } ∧ Alone [.pair] s t)
  ∧ (∀ (s : State), domOn s 28 = true →
      Completes .hdmViolAddrRead s fun t =>
        Out.read [bitAt 63 s.mem.violValid ||| fieldAt 34 0 s.mem.violAddr] ∈ t.out ∧ t.mem = { s.mem with violValid := false, violAddr := 0 }
        ∧ Alone [.mem] s t)
  ∧ (∀ (s : State), domOn s 28 = true →
      Completes .hdmViolCntRead s fun t =>
        Out.read [fieldAt 31 0 s.mem.violCount] ∈ t.out ∧ t.mem = { s.mem with violCount := 0 } ∧ Alone [.mem] s t)
  ∧ (∀ (s : State) (r : Nat), 1 ≤ r ∧ r ≤ 4 → domOn s 29 = true →
      Completes (.aeadStatusRead r) s fun t =>
        Out.read [aeadStatus s] ∈ t.out
        ∧ t.aead = (if s.aead.owner = r then { s.aead with lastUse := s.clk.now, statusRead := s.aead.st == .done || s.aead.statusRead } else s.aead)
        ∧ Alone [.aead] s t)
  ∧ (∀ (s : State) (i : Instr) (d : Nat), (i, d) ∈ [(.ledgerCreditRead, 28), (.pairStatusRead, 28), (.hdmViolAddrRead, 28), (.hdmViolCntRead, 28), (.aeadStatusRead 1, 29), (.aeadStatusRead 2, 29), (.aeadStatusRead 3, 29), (.aeadStatusRead 4, 29)] → domOn s d = false →
      Completes i s fun t => Out.read [0] ∈ t.out ∧ CauseSet 12 s t)
  ∧ (∀ (s : State) (off d : Nat), blockDomain off = some d ∧ domOn s d = false →
      Completes (.offBlockRead off) s fun t => Out.read [0] ∈ t.out ∧ CauseSet 12 s t)
  ∧ (∀ (s : State) (off len : Nat), off + len ≤ 4096 → domOn s 28 = true → bulkError s false off len = 0 → (∀ l ∈ bulkLines s (s.mem.offset + off) len, tabGet false s.mem.poison l = false) →
      Completes (.bulkDataRead off len) s fun t =>
        Out.read (bulkWords s (s.mem.offset + off) len).1 ∈ t.out
        ∧ t.mem = (bulkAdvance off len (bulkFail (bulkWords s (s.mem.offset + off) len).2 s)).mem ∧ Alone [.mem] s t)
  ∧ (∀ (s : State) (off len : Nat), off + len ≤ 4096 → domOn s 28 = true → bulkError s false off len = 0 →
      Completes (.bulkDataRead off len) s fun t => Out.read (bulkWords s (s.mem.offset + off) len).1 ∈ t.out
        ∧ Leaves s (bulkAdvance off len (emit (.read (bulkWords s (s.mem.offset + off) len).1)
            (bulkFail (bulkWords s (s.mem.offset + off) len).2 ((bulkLines s (s.mem.offset + off) len).foldl poisonRead s)))) t)
  ∧ (∀ (s : State) (off len : Nat) (ws : List Word) (i : Instr), (i = .bulkDataRead off len ∨ i = .bulkDataWrite off ws ∧ len = 8 * ws.length) → off + len ≤ 4096 → domOn s 28 = false →
      Completes i s fun t => t.mem = { s.mem with busyDue := true } ∧ t.irq.cause = s.irq.cause ||| bitAt 12 true ∧ SameBut [.mem, .irq, .out] s t)
  ∧ (∀ (s : State) (off len e : Nat), off + len ≤ 4096 → domOn s 28 = true → bulkError s false off len = e → e ≠ 0 →
      Completes (.bulkDataRead off len) s fun t =>
        Out.read (List.replicate (len / 8) 0) ∈ t.out ∧ t.mem.err = true ∧ t.mem.errCode = (if s.mem.err then s.mem.errCode else e)
        ∧ { t.mem with err := s.mem.err, errCode := s.mem.errCode, offset := s.mem.offset } = s.mem ∧ Alone [.mem] s t)
  ∧ (∀ (s : State) (off e : Nat) (ws : List Word), off + 8 * ws.length ≤ 4096 → domOn s 28 = true → bulkError s true off (8 * ws.length) = e ∧ e ≠ 0 →
      Completes (.bulkDataWrite off ws) s fun t =>
        t.mem.err = true ∧ t.mem.errCode = (if s.mem.err then s.mem.errCode else e)
        ∧ { t.mem with err := s.mem.err, errCode := s.mem.errCode, offset := s.mem.offset } = s.mem ∧ Alone [.mem] s t)
  ∧ (∀ (s : State) (off : Nat) (ws : List Word), off + 8 * ws.length ≤ 4096 → domOn s 28 = true → bulkError s true off (8 * ws.length) = 0 ∧ s.mem.target = 2 →
      Completes (.bulkDataWrite off ws) s fun t =>
        t.mem.planStage = memWriteWords s.mem.planStage (s.mem.offset + off) ws
        ∧ { t.mem with planStage := s.mem.planStage, offset := s.mem.offset } = s.mem ∧ Alone [.mem] s t)
  ∧ (∀ (s : State) (off : Nat) (ws : List Word), off + 8 * ws.length ≤ 4096 → domOn s 28 = true → bulkError s true off (8 * ws.length) = 0 ∧ s.mem.target = 1 →
      Completes (.bulkDataWrite off ws) s fun t =>
        t.mem.granary = memWrite s.mem.granary (stageBase s + (s.mem.offset + off)) (wordsBytes ws) ∧ t.mp = { s.mp with stage := none }
        ∧ Alone [.mem, .mp] s t)
  ∧ (∀ (s : State) (v : Nat), v < 64 →
      Completes (.msixVectorUnmask v) s fun t =>
        ((tabGet {} s.irq.msix v).pend = true → s.host.up = true → Out.msix v (tabGet {} s.irq.msix v).addr (tabGet {} s.irq.msix v).data ∈ t.out)
        ∧ tabGet {} t.irq.msix v = { (tabGet {} s.irq.msix v) with masked := false, pend := false }
        ∧ (∀ k, k ≠ v → tabGet {} t.irq.msix k = tabGet {} s.irq.msix k) ∧ SameBut [.irq, .out] s t
        ∧ { t.irq with msix := s.irq.msix } = s.irq)
  ∧ (∀ (s : State) (base : Nat), s.host.up = true ∧ s.host.pcieOnly = false →
      Completes (.hdmDecoderCommit base) s fun t => t.host = { s.host with hdmCommitted := true, hdmBase := base } ∧ Alone [.host] s t)

/-- In D29, a REQUEST takes a FREE lock, counts a grant and starts the owner's idle time; while another requester owns the lock it is queued once;
from the owner it is ignored but counts as an access. A RELEASE by the owner while no operation is RUNNING frees the lock, which goes to the lowest
queued requester; any other RELEASE changes nothing; a claim of the sequencer comes first. After 10 ms idle the lock of requester 1, 2 or 4 is
released: the owner's parameters are discarded, an unread DONE result is withdrawn with ABORTED and zeros at DST, and the host gets REVOKED. -/
def Obligations.AeadLock : Prop :=
  (∀ (s : State) (r : Nat), 1 ≤ r ∧ r ≤ 4 ∧ domOn s 29 = true → s.aead.owner = 0 ∧ s.aead.claim = false →
      Completes (.aeadLockRequest r) s fun t =>
        t.aead = { s.aead with owner := r, queue := s.aead.queue.filter (fun q => q != r), lastUse := s.clk.now,
                               grants := tabPut 0 s.aead.grants r (sat32 (tabGet 0 s.aead.grants r) 1) }
        ∧ Alone [.aead] s t)
  ∧ (∀ (s : State) (r : Nat), 1 ≤ r ∧ r ≤ 4 ∧ domOn s 29 = true → s.aead.owner ≠ 0 ∧ s.aead.owner ≠ r →
      Completes (.aeadLockRequest r) s fun t =>
        t.aead = { s.aead with queue := if s.aead.queue.contains r then s.aead.queue else s.aead.queue ++ [r] } ∧ Alone [.aead] s t)
  ∧ (∀ (s : State) (r : Nat), 1 ≤ r ∧ r ≤ 4 ∧ domOn s 29 = true → s.aead.owner = r →
      Completes (.aeadLockRequest r) s fun t => t.aead = { s.aead with lastUse := s.clk.now } ∧ Alone [.aead] s t)
  ∧ (∀ (s : State) (r q : Nat), 1 ≤ r ∧ r ≤ 4 ∧ domOn s 29 = true → s.aead.owner = r ∧ s.aead.st ≠ .running → (if s.aead.claim && r != 3 then some 3 else leastOf s.aead.queue) = some q →
      Completes (.aeadLockRelease r) s fun t =>
        t.aead = { s.aead with claim := s.aead.claim && r != 3, owner := q, queue := s.aead.queue.filter (fun x => x != q),
                               grants := tabPut 0 s.aead.grants q (sat32 (tabGet 0 s.aead.grants q) 1), lastUse := s.clk.now } ∧ Alone [.aead] s t)
  ∧ (∀ (s : State) (r : Nat), 1 ≤ r ∧ r ≤ 4 ∧ domOn s 29 = true → s.aead.owner = r ∧ s.aead.st ≠ .running → (if s.aead.claim && r != 3 then some 3 else leastOf s.aead.queue) = none →
      Completes (.aeadLockRelease r) s fun t =>
        t.aead = { s.aead with claim := s.aead.claim && r != 3, owner := 0 } ∧ Alone [.aead] s t)
  ∧ (∀ (s : State) (r : Nat), 1 ≤ r ∧ r ≤ 4 ∧ domOn s 29 = true → (s.aead.owner ≠ r ∨ s.aead.st = .running) →
      Completes (.aeadLockRelease r) s fun t => t = s)
  ∧ (∀ (s : State) (r : Nat), (r = 1 ∨ r = 2 ∨ r = 4) ∧ s.aead.owner = r ∧ s.aead.st ≠ .running ∧ s.aead.claim = false → s.aead.lastUse + 10000 ≤ s.clk.now →
      Completes .aeadIdleRelease s fun t =>
        aeadPort t r = discardPort (aeadPort s r) ∧ t.aead.idleReleases = sat32 s.aead.idleReleases 1
        ∧ t.aead.owner = (leastOf s.aead.queue).getD 0 ∧ t.aead.revoked = (s.aead.revoked || r == 4) ∧ t.aead.slot = s.aead.slot
        ∧ Alone [.aead, .mem] s t)
  ∧ (∀ (s : State) (r : Nat), (r = 1 ∨ r = 2 ∨ r = 4) ∧ s.aead.owner = r ∧ s.aead.st ≠ .running ∧ s.aead.claim = false → s.aead.lastUse + 10000 ≤ s.clk.now → s.aead.st = .done ∧ s.aead.statusRead = false →
      Completes .aeadIdleRelease s fun t =>
        t.aead.result = 4 ∧ (r ≠ 4 → 1 ≤ aeadOutLen (aeadPort s r) →
            t.mem.near = memWrite s.mem.near (aeadPort s r).dst.toNat (List.replicate (aeadOutLen (aeadPort s r)) 0))
        ∧ Alone [.aead, .mem] s t)

/-- In D29, START of each operation by the owner while none is RUNNING makes it RUNNING with the fields of the write, a copy of the slot's key and
epoch and the verdict of its parameters. ENCRYPT and WRAP with good parameters take the slot's counter as the nonce's last 64 bits under the epoch
and raise it by one, with the writes of the nonce marks queued where R417 asks for one and nothing queued where it does not, and end in
NONCE_EXHAUSTED where no counter or mark is left. START by another requester or during an operation changes nothing. -/
def Obligations.AeadStarts : Prop :=
  (∀ (s : State) (r : Nat) (v : Word) (p : AeadPort), 1 ≤ r ∧ r ≤ 4 ∧ domOn s 29 = true → s.aead.owner = r ∧ s.aead.st ≠ .running → p = ctlFields (aeadPort s r) 2 v →
      Completes (.aeadDecrypt r v) s fun t =>
        t.aead.st = .running ∧ t.aead.result = 0 ∧ t.aead.bytesDone = 0 ∧ aeadPort t r = p ∧ t.aead.slot = s.aead.slot
        ∧ (∃ a, t.aead.run = some a ∧ a.requester = r ∧ a.port = p ∧ a.key = ((slotOf s p.slot).key.getD []) ∧ a.epoch = (slotOf s p.slot).epoch
            ∧ a.verdict = aeadVerdict s r p ∧ (aeadVerdict s r p = none → a.nonceH = p.nonceH ∧ a.nonceL = p.nonceL))
        ∧ Alone [.aead] s t)
  ∧ (∀ (s : State) (r : Nat) (v : Word) (p : AeadPort), 1 ≤ r ∧ r ≤ 4 ∧ domOn s 29 = true → s.aead.owner = r ∧ s.aead.st ≠ .running → p = ctlFields (aeadPort s r) 4 v →
      Completes (.aeadUnwrap r v) s fun t =>
        t.aead.st = .running ∧ t.aead.result = 0 ∧ t.aead.bytesDone = 0 ∧ aeadPort t r = p ∧ t.aead.slot = s.aead.slot
        ∧ (∃ a, t.aead.run = some a ∧ a.requester = r ∧ a.port = p ∧ a.key = ((slotOf s p.slot).key.getD []) ∧ a.epoch = (slotOf s p.slot).epoch
            ∧ a.verdict = aeadVerdict s r p ∧ (aeadVerdict s r p = none → a.nonceH = p.nonceH ∧ a.nonceL = p.nonceL))
        ∧ Alone [.aead] s t)
  ∧ (∀ (s : State) (r : Nat) (v : Word) (p : AeadPort), 1 ≤ r ∧ r ≤ 4 ∧ domOn s 29 = true → s.aead.owner = r ∧ s.aead.st ≠ .running → p = ctlFields (aeadPort s r) 5 v →
      Completes (.aeadGenerate r v) s fun t =>
        t.aead.st = .running ∧ t.aead.result = 0 ∧ t.aead.bytesDone = 0 ∧ aeadPort t r = p ∧ t.aead.slot = s.aead.slot
        ∧ (∃ a, t.aead.run = some a ∧ a.requester = r ∧ a.port = p ∧ a.key = ((slotOf s p.slot).key.getD []) ∧ a.epoch = (slotOf s p.slot).epoch
            ∧ a.verdict = aeadVerdict s r p ∧ (aeadVerdict s r p = none → a.nonceH = p.nonceH ∧ a.nonceL = p.nonceL))
        ∧ Alone [.aead] s t)
  ∧ (∀ (s : State) (r : Nat) (v : Word) (p : AeadPort), 1 ≤ r ∧ r ≤ 4 ∧ domOn s 29 = true → s.aead.owner = r ∧ s.aead.st ≠ .running → p = ctlFields (aeadPort s r) 6 v →
      Completes (.aeadJoinMac r v) s fun t =>
        t.aead.st = .running ∧ t.aead.result = 0 ∧ t.aead.bytesDone = 0 ∧ aeadPort t r = p ∧ t.aead.slot = s.aead.slot
        ∧ (∃ a, t.aead.run = some a ∧ a.requester = r ∧ a.port = p ∧ a.key = ((slotOf s p.slot).key.getD []) ∧ a.epoch = (slotOf s p.slot).epoch
            ∧ a.verdict = aeadVerdict s r p ∧ (aeadVerdict s r p = none → a.nonceH = p.nonceH ∧ a.nonceL = p.nonceL))
        ∧ Alone [.aead] s t)
  ∧ (∀ (s : State) (r : Nat) (v : Word) (p : AeadPort), 1 ≤ r ∧ r ≤ 4 ∧ domOn s 29 = true → s.aead.owner = r ∧ s.aead.st ≠ .running → p = ctlFields (aeadPort s r) 1 v → aeadVerdict s r p = none → (slotOf s p.slot).counter < 0xFFFFFFFFFFFFFFFF → ((slotOf s p.slot).counter + 1) % 1048576 ≠ 0 ∧ ((slotOf s p.slot).counter % 1048576 ≠ 0 ∨ markHeld s p.slot ((slotOf s p.slot).counter / 1048576) = true) →
      Completes (.aeadEncrypt r v) s fun t =>
        t.aead.st = .running ∧ t.aead.result = 0
        ∧ slotOf t p.slot = { slotOf s p.slot with counter := (slotOf s p.slot).counter + 1 } ∧ (∀ k, k ≠ p.slot → slotOf t k = slotOf s k)
        ∧ (∃ a, t.aead.run = some a ∧ a.requester = r ∧ a.key = ((slotOf s p.slot).key.getD []) ∧ a.epoch = (slotOf s p.slot).epoch ∧ a.verdict = none
            ∧ a.nonceH = fieldAt 63 32 (slotOf s p.slot).epoch ||| fieldAt 31 0 ((slotOf s p.slot).counter / 4294967296)
            ∧ a.nonceL = (slotOf s p.slot).counter % 4294967296)
        ∧ Alone [.aead] s t)
  ∧ (∀ (s u : State) (r : Nat) (v : Word) (p : AeadPort), 1 ≤ r ∧ r ≤ 4 ∧ domOn s 29 = true → s.aead.owner = r ∧ s.aead.st ≠ .running → p = ctlFields (aeadPort s r) 1 v → aeadVerdict s r p = none → useCounter p.slot (aeadTouch r (setAeadPort r p s)) = some u →
      Completes (.aeadEncrypt r v) s fun t =>
        t.aead.st = .running ∧ t.aead.result = 0
        ∧ slotOf t p.slot = { slotOf s p.slot with counter := (slotOf s p.slot).counter + 1 } ∧ (∀ k, k ≠ p.slot → slotOf t k = slotOf s k)
        ∧ (∃ a, t.aead.run = some a ∧ a.requester = r ∧ a.key = ((slotOf s p.slot).key.getD []) ∧ a.epoch = (slotOf s p.slot).epoch ∧ a.verdict = none
            ∧ a.nonceH = fieldAt 63 32 (slotOf s p.slot).epoch ||| fieldAt 31 0 ((slotOf s p.slot).counter / 4294967296)
            ∧ a.nonceL = (slotOf s p.slot).counter % 4294967296)
        ∧ t.keep = u.keep ∧ Alone [.aead, .keep] s t)
  ∧ (∀ (s : State) (r : Nat) (v : Word) (p : AeadPort), 1 ≤ r ∧ r ≤ 4 ∧ domOn s 29 = true → s.aead.owner = r ∧ s.aead.st ≠ .running → p = ctlFields (aeadPort s r) 1 v → (aeadVerdict s r p ≠ none ∨ useCounter p.slot (aeadTouch r (setAeadPort r p s)) = none) →
      Completes (.aeadEncrypt r v) s fun t =>
        t.aead.st = .running ∧ t.aead.slot = s.aead.slot
        ∧ (∃ a, t.aead.run = some a ∧ a.requester = r ∧ a.port = p ∧ a.verdict = some ((aeadVerdict s r p).getD 3))
        ∧ Alone [.aead] s t)
  ∧ (∀ (s : State) (r : Nat) (v : Word) (p : AeadPort), 1 ≤ r ∧ r ≤ 4 ∧ domOn s 29 = true → s.aead.owner = r ∧ s.aead.st ≠ .running → p = ctlFields (aeadPort s r) 3 v → aeadVerdict s r p = none → (slotOf s p.slot).counter < 0xFFFFFFFFFFFFFFFF → ((slotOf s p.slot).counter + 1) % 1048576 ≠ 0 ∧ ((slotOf s p.slot).counter % 1048576 ≠ 0 ∨ markHeld s p.slot ((slotOf s p.slot).counter / 1048576) = true) →
      Completes (.aeadWrap r v) s fun t =>
        t.aead.st = .running ∧ t.aead.result = 0
        ∧ slotOf t p.slot = { slotOf s p.slot with counter := (slotOf s p.slot).counter + 1 } ∧ (∀ k, k ≠ p.slot → slotOf t k = slotOf s k)
        ∧ (∃ a, t.aead.run = some a ∧ a.requester = r ∧ a.key = ((slotOf s p.slot).key.getD []) ∧ a.epoch = (slotOf s p.slot).epoch ∧ a.verdict = none
            ∧ a.nonceH = fieldAt 63 32 (slotOf s p.slot).epoch ||| fieldAt 31 0 ((slotOf s p.slot).counter / 4294967296)
            ∧ a.nonceL = (slotOf s p.slot).counter % 4294967296)
        ∧ Alone [.aead] s t)
  ∧ (∀ (s u : State) (r : Nat) (v : Word) (p : AeadPort), 1 ≤ r ∧ r ≤ 4 ∧ domOn s 29 = true → s.aead.owner = r ∧ s.aead.st ≠ .running → p = ctlFields (aeadPort s r) 3 v → aeadVerdict s r p = none → useCounter p.slot (aeadTouch r (setAeadPort r p s)) = some u →
      Completes (.aeadWrap r v) s fun t =>
        t.aead.st = .running ∧ t.aead.result = 0
        ∧ slotOf t p.slot = { slotOf s p.slot with counter := (slotOf s p.slot).counter + 1 } ∧ (∀ k, k ≠ p.slot → slotOf t k = slotOf s k)
        ∧ (∃ a, t.aead.run = some a ∧ a.requester = r ∧ a.key = ((slotOf s p.slot).key.getD []) ∧ a.epoch = (slotOf s p.slot).epoch ∧ a.verdict = none
            ∧ a.nonceH = fieldAt 63 32 (slotOf s p.slot).epoch ||| fieldAt 31 0 ((slotOf s p.slot).counter / 4294967296)
            ∧ a.nonceL = (slotOf s p.slot).counter % 4294967296)
        ∧ t.keep = u.keep ∧ Alone [.aead, .keep] s t)
  ∧ (∀ (s : State) (r : Nat) (v : Word) (p : AeadPort), 1 ≤ r ∧ r ≤ 4 ∧ domOn s 29 = true → s.aead.owner = r ∧ s.aead.st ≠ .running → p = ctlFields (aeadPort s r) 3 v → (aeadVerdict s r p ≠ none ∨ useCounter p.slot (aeadTouch r (setAeadPort r p s)) = none) →
      Completes (.aeadWrap r v) s fun t =>
        t.aead.st = .running ∧ t.aead.slot = s.aead.slot
        ∧ (∃ a, t.aead.run = some a ∧ a.requester = r ∧ a.port = p ∧ a.verdict = some ((aeadVerdict s r p).getD 3))
        ∧ Alone [.aead] s t)
  ∧ (∀ (s : State) (r : Nat) (v : Word) (i : Instr), i ∈ [.aeadEncrypt r v, .aeadDecrypt r v, .aeadWrap r v, .aeadUnwrap r v, .aeadGenerate r v, .aeadJoinMac r v] → 1 ≤ r ∧ r ≤ 4 ∧ domOn s 29 = true → (s.aead.owner ≠ r ∨ s.aead.st = .running) →
      Completes i s fun t => t = s)

/-- While a nonce mark is unwritten an operation does not end. Its end makes it DONE: where its parameters decided a result, that result stands and
zeros lie at DST; with good parameters ENCRYPT puts the sealed text and tag at DST, DECRYPT the opened text, or zeros with AUTH_FAIL; the others act
on what lies at SRC; an access beyond the near store, or one of the host's that failed, ends in ACCESS_FAULT. A key WRITE loads a slot the requester
may load and never lowers its counter; ZEROISE empties it, and ends an operation running on it with KEY_ERASED. A health failure halts the
generator; a reseed starts the count of requests again. -/
def Obligations.AeadOperations : Prop :=
  (∀ (s : State) (res : AeadAccess) (a : AeadRun) (c : Nat), s.aead.run = some a ∧ marksPending s = false → a.verdict = some c → a.requester ≠ 4 ∧ s.aead.claim = false →
      Completes (.aeadOpDone res) s fun t =>
        t.aead.st = .done ∧ t.aead.run = none ∧ t.aead.result = c ∧ t.aead.bytesDone = 0
        ∧ t.mem = (aeadOutput a.requester a.port.dst (List.replicate (aeadOutLen a.port) 0) s).mem ∧ Alone [.aead, .mem] s t)
  ∧ (∀ (s : State) (res : AeadAccess) (a : AeadRun) (c : Nat), s.aead.run = some a ∧ marksPending s = false → (a.verdict = some c ∨ a.verdict = none ∧ a.requester ≠ 4 ∧ c = 8
   ∧ (67108864 < a.port.src.toNat + aeadInLen a.port ∨ 67108864 < a.port.dst.toNat + aeadOutLen a.port)) →
      Completes (.aeadOpDone res) s fun t => Leaves s (aeadFail a c s) t)
  ∧ (∀ (s : State) (res : AeadAccess) (a : AeadRun), s.aead.run = some a ∧ marksPending s = false → a.verdict = none ∧ a.requester ≠ 4 → a.port.src.toNat + aeadInLen a.port ≤ 67108864 ∧ a.port.dst.toNat + aeadOutLen a.port ≤ 67108864 →
      Completes (.aeadOpDone res) s fun t => Leaves s (aeadWork a (memRead s.mem.near a.port.src.toNat (aeadInLen a.port)) s) t)
  ∧ (∀ (s : State) (res : AeadAccess) (a : AeadRun) (bs : List Byte) (o : List Byte × List Byte), s.aead.run = some a ∧ marksPending s = false → a.verdict = none ∧ a.requester ≠ 4 ∧ s.aead.claim = false ∧ a.port.op = 1 → a.port.src.toNat + aeadInLen a.port ≤ 67108864 ∧ a.port.dst.toNat + aeadOutLen a.port ≤ 67108864 → bs = memRead s.mem.near a.port.src.toNat (aeadInLen a.port) → o = aeadSeal a.port.ccm a.key (a.nonceH.toNat * 4294967296 + a.nonceL) (bs.take a.port.adLen) ((bs.drop a.port.adLen).take a.port.textLen) a.port.tagLen →
      Completes (.aeadOpDone res) s fun t =>
        t.aead.st = .done ∧ t.aead.run = none ∧ t.aead.result = 0 ∧ t.aead.bytesDone = a.port.textLen ∧ t.aead.slot = s.aead.slot
        ∧ t.mem = (aeadOutput a.requester a.port.dst (o.1 ++ o.2) s).mem ∧ Alone [.aead, .mem] s t)
  ∧ (∀ (s : State) (res : AeadAccess) (a : AeadRun) (bs : List Byte) (o : List Byte), s.aead.run = some a ∧ marksPending s = false → a.verdict = none ∧ a.requester ≠ 4 ∧ s.aead.claim = false ∧ a.port.op = 2 → a.port.src.toNat + aeadInLen a.port ≤ 67108864 ∧ a.port.dst.toNat + aeadOutLen a.port ≤ 67108864 → bs = memRead s.mem.near a.port.src.toNat (aeadInLen a.port) → aeadOpen a.port.ccm a.key (a.nonceH.toNat * 4294967296 + a.nonceL) (bs.take a.port.adLen) ((bs.drop a.port.adLen).take a.port.textLen)
   (bs.drop (a.port.adLen + a.port.textLen)) = some o →
      Completes (.aeadOpDone res) s fun t =>
        t.aead.st = .done ∧ t.aead.run = none ∧ t.aead.result = 0 ∧ t.aead.bytesDone = a.port.textLen ∧ t.aead.slot = s.aead.slot
        ∧ t.mem = (aeadOutput a.requester a.port.dst (o) s).mem ∧ Alone [.aead, .mem] s t)
  ∧ (∀ (s : State) (res : AeadAccess) (a : AeadRun) (bs : List Byte), s.aead.run = some a ∧ marksPending s = false → a.verdict = none ∧ a.requester ≠ 4 ∧ s.aead.claim = false ∧ a.port.op = 2 → a.port.src.toNat + aeadInLen a.port ≤ 67108864 ∧ a.port.dst.toNat + aeadOutLen a.port ≤ 67108864 → bs = memRead s.mem.near a.port.src.toNat (aeadInLen a.port) → aeadOpen a.port.ccm a.key (a.nonceH.toNat * 4294967296 + a.nonceL) (bs.take a.port.adLen) ((bs.drop a.port.adLen).take a.port.textLen)
   (bs.drop (a.port.adLen + a.port.textLen)) = none →
      Completes (.aeadOpDone res) s fun t =>
        t.aead.st = .done ∧ t.aead.run = none ∧ t.aead.result = 1 ∧ t.aead.bytesDone = 0 ∧ t.aead.slot = s.aead.slot
        ∧ t.mem = (aeadOutput a.requester a.port.dst (List.replicate (aeadOutLen a.port) 0) s).mem ∧ Alone [.aead, .mem] s t)
  ∧ (∀ (s : State) (res : AeadAccess) (a : AeadRun) (bs : List Byte), s.aead.run = some a ∧ marksPending s = false → a.verdict = none ∧ a.requester = 4 → res.src = some bs ∧ res.dstOk = true →
      Completes (.aeadOpDone res) s fun t => Leaves s (aeadWork a bs s) t)
  ∧ (∀ (s : State) (res : AeadAccess) (a : AeadRun), s.aead.run = some a ∧ marksPending s = false → a.verdict = none ∧ a.requester = 4 → (res.src = none ∨ res.dstOk = false) →
      Completes (.aeadOpDone res) s fun t => Leaves s (aeadAccessFault a s) t)
  ∧ (∀ (s : State) (res : AeadAccess), (s.aead.run = none ∨ marksPending s = true) →
      Completes (.aeadOpDone res) s fun t => t = s)
  ∧ (∀ (s : State) (r : Nat) (v : Word) (p : AeadPort), 1 ≤ r ∧ r ≤ 4 ∧ domOn s 29 = true → p = kslotFields (aeadPort s r) v → slotLoadable r p.kSel = true →
      Completes (.aeadKeyWrite r v) s fun t =>
        slotOf t p.kSel = {
            key := some (if p.kSize then p.key else p.key.take 2), size := p.kSize, epoch := p.kEpoch, counter := max (slotOf s p.kSel).counter (floorOf r p) }
        ∧ (∀ k, k ≠ p.kSel → slotOf t k = slotOf s k) ∧ aeadPort t r = p ∧ Alone [.aead] s t)
  ∧ (∀ (s : State) (r : Nat) (v : Word) (p : AeadPort), 1 ≤ r ∧ r ≤ 4 ∧ domOn s 29 = true → p = kslotFields (aeadPort s r) v → slotLoadable r p.kSel = false →
      Completes (.aeadKeyWrite r v) s fun t =>
        t.aead.slot = s.aead.slot ∧ t.aead.run = s.aead.run ∧ aeadPort t r = p ∧ Alone [.aead] s t)
  ∧ (∀ (s : State) (r : Nat) (v : Word) (p : AeadPort), 1 ≤ r ∧ r ≤ 4 ∧ domOn s 29 = true → p = kslotFields (aeadPort s r) v → (∀ a, s.aead.run = some a → a.port.slot ≠ p.kSel ∨ a.port.op = 5) → slotLoadable r p.kSel = true →
      Completes (.aeadKeyZeroise r v) s fun t =>
        slotOf t p.kSel = { slotOf s p.kSel with key := none }
        ∧ (∀ k, k ≠ p.kSel → slotOf t k = slotOf s k) ∧ aeadPort t r = p ∧ Alone [.aead] s t)
  ∧ (∀ (s : State) (r : Nat) (v : Word) (p : AeadPort), 1 ≤ r ∧ r ≤ 4 ∧ domOn s 29 = true → p = kslotFields (aeadPort s r) v → slotLoadable r p.kSel = false →
      Completes (.aeadKeyZeroise r v) s fun t =>
        t.aead.slot = s.aead.slot ∧ t.aead.run = s.aead.run ∧ aeadPort t r = p ∧ Alone [.aead] s t)
  ∧ (∀ (s : State) (r : Nat) (v : Word) (p : AeadPort) (a : AeadRun), 1 ≤ r ∧ r ≤ 4 ∧ domOn s 29 = true → p = kslotFields (aeadPort s r) v → s.aead.run = some a ∧ a.port.slot = p.kSel ∧ a.port.op ≠ 5 → slotLoadable r p.kSel = true →
      Completes (.aeadKeyZeroise r v) s fun t => ∃ u, u = aeadTouch r (setAeadPort r p s)
        ∧ Leaves s (aeadFail a 2 (setSlot p.kSel { slotOf u p.kSel with key := none } u)) t)
  ∧ (∀ (s : State), domOn s 29 = true →
      Completes .entropyHealthFail s fun t => t.aead = { s.aead with drbgHalted := true } ∧ Alone [.aead] s t)
  ∧ (∀ (s : State), domOn s 29 = true ∧ s.aead.drbgHalted = false ∧ 1048576 ≤ s.aead.drbgRequests →
      Completes .drbgReseed s fun t => t.aead = { s.aead with drbgRequests := 0 } ∧ Alone [.aead] s t)

/-- START loads a unit's VALUE with INIT, a data write feeds its BYTES bytes into the running CRC, and the other side's units are left alone; a read
of the pipeline counters returns and clears them. Programming IDE keys in the CXL personality makes IDE active, and a MAC failure ends it; an SPDM
request is answered under the attestation key over the running image's hash and the plan's digest, with a nonce drawn from the generator. -/
def Obligations.CheckUnitsAndLinkKeys : Prop :=
  (∀ (s : State) (fw : Bool) (u : Nat), u < 8 ∧ domOn s 29 = true →
      Completes (.chkStart fw u) s fun t =>
        chkOf t u = (if chkMine fw u = true then { chkOf s u with value := chkInit (chkOf s u) } else chkOf s u)
        ∧ (∀ k, k ≠ u → chkOf t k = chkOf s k) ∧ { t.chk with units := s.chk.units } = s.chk ∧ Alone [.chk] s t)
  ∧ (∀ (s : State) (fw : Bool) (u : Nat) (v : Word), u < 8 ∧ domOn s 29 = true →
      Completes (.chkDataWrite fw u v) s fun t =>
        chkOf t u = (if chkMine fw u = true then chkFeed (chkOf s u) ((bytesBE v).take (chkOf s u).bytes) else chkOf s u)
        ∧ (∀ k, k ≠ u → chkOf t k = chkOf s k) ∧ { t.chk with units := s.chk.units } = s.chk ∧ Alone [.chk] s t)
  ∧ (∀ (s : State), domOn s 29 = true →
      Completes .chkPipeCntRead s fun t => Out.read [chkPipeCnt s] ∈ t.out ∧ t.chk = { s.chk with failAll := 0, only := 0 } ∧ Alone [.chk] s t)
  ∧ (∀ (s : State), s.host.up = true ∧ s.host.pcieOnly = false →
      Completes .ideKeyProgram s fun t => t.host = { s.host with ideActive := true, ideFailed := false } ∧ Alone [.host] s t)
  ∧ (∀ (s : State), s.host.up = true ∧ s.host.pcieOnly = false ∧ s.host.ideActive = true →
      Completes .ideMacFail s fun t => t.host = { s.host with ideActive := false, ideFailed := true } ∧ Alone [.host] s t)
  ∧ (∀ (s : State) (body : List Byte) (m : List Word), s.host.up = true ∧ runningCode s ≠ 0 → m = (runningImage s).hash ++ (s.plan.active.drop (s.plan.active.length - 6)).take 6 →
      Completes (.spdmRequest body) s fun t => Out.spdm (m ++ (attestSign (body ++ wordsBytes m) s).1) ∈ t.out
        ∧ t.clk = { s.clk with free := s.clk.free + 6 } ∧ t.aead = { s.aead with drbgRequests := s.aead.drbgRequests + 1 } ∧ Alone [.clk, .aead] s t)

/-- RESET_N asserted after the sequence has ended leaves every switch closed: the powered domains read POWERING_UP, to be initialised in place, the
others stay as they are, the granary and the keep store keep their contents, and the mailboxes return to reset. Asserted during the sequence it
takes every domain but ABSENT ones to OFF. Its release restarts the tick count and takes the TKU to ACQUIRE. The sequence starts once RESET_N is
released, OSC_IN runs and VDD_AON, VDD_IO and VPP_KEEP are in range, with the first domain of R447's order; its end sets SEQ_DONE, starts the
adaptive supply, loads the keys, makes a device with a PAIR port a CANDIDATE, and admits the boot plan. -/
def Obligations.ResetAndStart : Prop :=
  (∀ (s : State), s.pins.resetReleased = true ∧ (s.pwr.seqRunning && s.pwr.seqStarted) = false →
      Completes .resetNAssert s fun t =>
        (∀ d, 1 ≤ d → d < 30 → domOf t d = if domPowered (domOf s d).state then { state := .poweringUp, inPlace := true } else { state := (domOf s d).state })
        ∧ t.mem.granary = s.mem.granary ∧ t.keep.cells = s.keep.cells ∧ t.keep.active = s.keep.active ∧ t.mb = {}
        ∧ t.pins = { s.pins with resetReleased := false } ∧ t.pwr.seqRunning = true ∧ t.pwr.seqStarted = false
        ∧ t.pwr.switching = none ∧ t.pwr.waiting = [] ∧ t.pending = s.pending)
  ∧ (∀ (s : State), s.pins.resetReleased = true ∧ (s.pwr.seqRunning && s.pwr.seqStarted) = true →
      Completes .resetNAssert s fun t =>
        (∀ d, 1 ≤ d → d < 30 → (domOf t d).state = if (domOf s d).state = .absent then .absent else .off)
        ∧ t.keep.cells = s.keep.cells ∧ t.mb = {} ∧ t.pwr.seqRunning = true ∧ t.pwr.seqStarted = false ∧ t.pins = { s.pins with resetReleased := false })
  ∧ (∀ (s : State), s.pins.resetReleased = false →
      Completes .resetNAssert s (fun t => t = s))
  ∧ (∀ (s : State), s.pins.resetReleased = false →
      Completes .resetNRelease s fun t =>
        t.pins = { s.pins with resetReleased := true } ∧ t.clk = { s.clk with tick := 0, awaitFirst := true } ∧ t.tku.state = .acquire ∧ t.tku.devUs = s.tku.devUs
        ∧ t.pwr.dom = s.pwr.dom ∧ t.pwr.domEvent = 0 ∧ t.pwr.seqRunning = true ∧ t.pwr.seqStarted = false ∧ t.mb = {} ∧ t.irq.cause = 0 ∧ t.irq.log = []
        ∧ t.keep = { s.keep with hostQ := [], addr := 0, result := 0 } ∧ t.mem = s.mem ∧ t.port = s.port ∧ t.link = s.link ∧ t.host = s.host
        ∧ Leaves s (releaseReset s) t)
  ∧ (∀ (s : State), s.pins.resetReleased = true →
      Completes .resetNRelease s (fun t => t = s))
  ∧ (∀ (s : State) (r : Rails) (d : Nat) (ds : List Nat), s.pins.resetReleased = true ∧ s.pins.oscPresent = true ∧ s.pins.thermTrip = false ∧ s.pwr.seqStarted = false → r.vddAon = true ∧ r.vddIo = true ∧ r.vppKeep = true → s.pins.oscSince.all (fun t => decide (t + 100 ≤ s.clk.now)) = true → (seqOrder.filter fun d => (domOf s d).state != .absent && !domAbsent (isH s) d && ((domOf s d).inPlace || bitOf s.pwr.bootDomains d)) = d :: ds →
      Completes (.sequenceStart r) s fun t =>
        t.pwr.seqRunning = true ∧ t.pwr.seqStarted = true ∧ t.pwr.seqRest = ds ∧ t.pwr.switching = some d ∧ (domOf t d).state = .poweringUp
        ∧ t.pins = { s.pins with rails := r } ∧ t.pwr.domEvent = s.pwr.domEvent ∧ Alone [.pins, .pwr] s t)
  ∧ (∀ (s : State) (r : Rails), s.pins.resetReleased = false ∨ s.pins.oscPresent = false ∨ s.pins.thermTrip = true ∨ s.pwr.seqStarted = true ∨ s.pins.oscSince.any (fun t => decide (s.clk.now < t + 100)) = true
   ∨ r.vddAon = false ∨ r.vddIo = false ∨ r.vppKeep = false →
      Completes (.sequenceStart r) s fun t => t.pins = { s.pins with rails := r } ∧ Alone [.pins] s t)
  ∧ (∀ (s : State), s.pwr.seqRunning = true ∧ s.pwr.seqStarted = true ∧ s.pwr.seqRest = [] ∧ s.pwr.switching = none ∧ s.pins.thermTrip = false →
      Completes .sequenceDone s fun t =>
        t.pwr = { s.pwr with seqRunning := false, domEvent := s.pwr.domEvent ||| bitAt 30 true } ∧ t.avs = { s.avs with running := true }
        ∧ t.pair = (if s.tku.peerRole.contains 1 ∧ s.pair.role = .unpaired then enterRole .candidate s else s).pair
        ∧ (∃ u : State, u = { s with pwr := t.pwr, avs := t.avs, pair := t.pair } ∧ Leaves s (bootPlan (ensureKeys u)) t)
        ∧ t.pins = s.pins ∧ t.port = s.port ∧ t.circ = s.circ ∧ t.link = s.link ∧ t.host = s.host ∧ t.mb = s.mb)

/-- Power-good of the switching domain makes it ENABLED, or, where a Down was accepted meanwhile, drains it at once; a power-good that does not come
makes it FAULT. Either end sets DONE_d, leaves every other domain as it was and frees the sequencer, which goes on with the start-up sequence. The
free sequencer takes the oldest waiting request. At the end of its drain a domain is ENABLED again where an Up was accepted, else POWERING_DOWN, at
once where the sequencer is free and in turn where it is not. A power-down ends in OFF, and an Up accepted meanwhile joins the queue. Any of these
for a domain in another state changes nothing. -/
def Obligations.DomainTransitions : Prop :=
  (∀ (s : State) (d : Nat), 1 ≤ d ∧ d < 30 ∧ s.pwr.switching = some d ∧ (domOf s d).state = .poweringUp ∧ railsFor s.pins.rails d = true → (s.pwr.seqRunning = false ∨ s.pwr.seqRest = []) →
      Completes (.powerGood d) s fun t =>
        domOf t d = { domOf s d with
          state := if (domOf s d).pendDown then .draining else .enabled
          pendDown := false, inPlace := false, drained := false, cycling := false, since := s.clk.now }
        ∧ (∀ k, k ≠ d → domOf t k = domOf s k) ∧ t.pwr.switching = none ∧ t.pwr.waiting = s.pwr.waiting
        ∧ t.pwr.domEvent = s.pwr.domEvent ||| bitAt d true ∧ t.pins = s.pins ∧ t.host = s.host ∧ t.link = s.link ∧ t.circ = s.circ ∧ t.plan = s.plan
        ∧ (12 ≤ d ∧ d < 28 ∨ d < 4 → Alone [.pwr] s t))
  ∧ (∀ (s : State) (d e : Nat) (ds : List Nat), 1 ≤ d ∧ d < 30 ∧ s.pwr.switching = some d ∧ (domOf s d).state = .poweringUp ∧ railsFor s.pins.rails d = true → s.pwr.seqRunning = true ∧ s.pwr.seqRest = e :: ds ∧ e ≠ d →
      Completes (.powerGood d) s fun t =>
        t.pwr.switching = some e ∧ t.pwr.seqRest = ds ∧ (domOf t e).state = .poweringUp
        ∧ (domOf t d).state = (if (domOf s d).pendDown then .draining else .enabled))
  ∧ (∀ (s : State) (d e : Nat) (ds : List Nat), 1 ≤ d ∧ d < 30 ∧ s.pwr.switching = some d ∧ (domOf s d).state = .poweringUp → (domOf s d).inPlace = false ∧ (domOf s d).since + 2 * switchTicks d ≤ s.clk.now → s.pwr.seqRunning = true ∧ s.pwr.seqRest = e :: ds ∧ e ≠ d →
      Completes (.powerGoodTimeout d) s fun t =>
        t.pwr.switching = some e ∧ t.pwr.seqRest = ds ∧ (domOf t e).state = .poweringUp ∧ (domOf t d).state = .fault)
  ∧ (∀ (s : State) (d : Nat), 1 ≤ d ∧ d < 30 ∧ s.pwr.switching = some d ∧ (domOf s d).state = .poweringUp → (domOf s d).inPlace = false ∧ (domOf s d).since + 2 * switchTicks d ≤ s.clk.now → (s.pwr.seqRunning = false ∨ s.pwr.seqRest = []) →
      Completes (.powerGoodTimeout d) s fun t =>
        domOf t d = { domOf s d with state := .fault, pendDown := false, inPlace := false, drained := false, cycling := false }
        ∧ (∀ k, k ≠ d → domOf t k = domOf s k) ∧ t.pwr.switching = none ∧ t.pwr.waiting = s.pwr.waiting
        ∧ t.pwr.domEvent = s.pwr.domEvent ||| bitAt d true ∧ t.pins = s.pins ∧ t.keep = s.keep ∧ t.clk = s.clk ∧ t.avs = s.avs)
  ∧ (∀ (s : State) (d : Nat), 1 ≤ d ∧ d < 30 ∧ (s.pwr.switching ≠ some d ∨ (domOf s d).state ≠ .poweringUp ∨ railsFor s.pins.rails d = false) →
      Completes (.powerGood d) s (fun t => t = s))
  ∧ (∀ (s : State) (d : Nat), 1 ≤ d ∧ d < 30 ∧ (s.pwr.switching ≠ some d ∨ (domOf s d).state ≠ .poweringUp ∨ (domOf s d).inPlace = true ∨ s.clk.now < (domOf s d).since + 2 * switchTicks d) →
      Completes (.powerGoodTimeout d) s (fun t => t = s))
  ∧ (∀ (s : State) (d : Nat) (up : Bool) (r : List (Nat × Bool)), s.pwr.seqRunning = false ∧ s.pwr.switching = none ∧ s.pwr.waiting = (d, up) :: r → (up = true ∨ (domOf s d).pendUp = false ∨ (domOf s d).state ≠ .draining) →
      Completes .domainSwitchStart s fun t =>
        t.pwr.waiting = r ∧ t.pwr.switching = some d ∧ t.pwr.domEvent = s.pwr.domEvent
        ∧ domOf t d = (if up then { domOf s d with state := .poweringUp, pendUp := false, since := s.clk.now }
            else { domOf s d with state := .poweringDown, drained := false, since := s.clk.now })
        ∧ (∀ k, k ≠ d → domOf t k = domOf s k) ∧ Alone [.pwr] s t)
  ∧ (∀ (s : State) (d : Nat) (r : List (Nat × Bool)), s.pwr.seqRunning = false ∧ s.pwr.switching = none ∧ s.pwr.waiting = (d, false) :: r → (domOf s d).pendUp = true ∧ (domOf s d).state = .draining →
      Completes .domainSwitchStart s fun t =>
        domOf t d = { domOf s d with state := .enabled, pendUp := false, inPlace := false, drained := false } ∧ (∀ k, k ≠ d → domOf t k = domOf s k)
        ∧ t.pwr.domEvent = s.pwr.domEvent ||| bitAt d true ∧ t.pwr.switching = none ∧ (∀ p ∈ t.pwr.waiting, p.1 ≠ d) ∧ t.mem.near = s.mem.near)
  ∧ (∀ (s : State), s.pwr.seqRunning = true ∨ s.pwr.switching ≠ none ∨ s.pwr.waiting = [] →
      Completes .domainSwitchStart s fun t => t = s)
  ∧ (∀ (s : State) (d : Nat), 1 ≤ d ∧ d < 30 ∧ (domOf s d).state = .draining ∧ (domOf s d).drained = false ∧ (domOf s d).pendUp = false ∧ drainBusy d s = false → (domOf s d).since < s.clk.now → seqFree s = true →
      Completes (.drainEnd d) s fun t =>
        t.pwr.switching = some d ∧ domOf t d = { domOf s d with state := .poweringDown, since := s.clk.now } ∧ t.pwr.waiting = s.pwr.waiting
        ∧ (∀ k, k ≠ d → domOf t k = domOf s k) ∧ t.pwr.domEvent = s.pwr.domEvent ∧ (d = 3 → t.host.up = false)
        ∧ (12 ≤ d ∧ d ≠ 28 ∨ d < 3 → Alone [.pwr] s t))
  ∧ (∀ (s : State) (d : Nat), 1 ≤ d ∧ d < 30 ∧ (domOf s d).state = .draining ∧ (domOf s d).drained = false ∧ (domOf s d).pendUp = false ∧ drainBusy d s = false → (domOf s d).since < s.clk.now → seqFree s = false →
      Completes (.drainEnd d) s fun t =>
        t.pwr.switching = s.pwr.switching ∧ domOf t d = { domOf s d with drained := true } ∧ t.pwr.waiting = s.pwr.waiting ++ [(d, false)]
        ∧ (∀ k, k ≠ d → domOf t k = domOf s k) ∧ t.pwr.domEvent = s.pwr.domEvent ∧ (d = 3 → t.host.up = false)
        ∧ (12 ≤ d ∧ d ≠ 28 ∨ d < 3 → Alone [.pwr] s t))
  ∧ (∀ (s : State) (d : Nat), 1 ≤ d ∧ d < 30 ∧ (domOf s d).state = .draining ∧ (domOf s d).pendUp = true → ((domOf s d).drained = true ∨ drainBusy d s = false ∧ (domOf s d).since < s.clk.now) →
      Completes (.drainEnd d) s fun t =>
        domOf t d = { domOf s d with state := .enabled, pendUp := false, inPlace := false, drained := false } ∧ (∀ k, k ≠ d → domOf t k = domOf s k)
        ∧ t.pwr.domEvent = s.pwr.domEvent ||| bitAt d true ∧ t.pwr.switching = s.pwr.switching ∧ (∀ p ∈ t.pwr.waiting, p.1 ≠ d))
  ∧ (∀ (s : State) (d : Nat), 1 ≤ d ∧ d < 30 → (domOf s d).state ≠ .draining ∨ (domOf s d).drained = true ∧ (domOf s d).pendUp = false ∨ (domOf s d).drained = false ∧ (drainBusy d s = true ∨ s.clk.now ≤ (domOf s d).since) →
      Completes (.drainEnd d) s fun t => t = s)
  ∧ (∀ (s : State) (d : Nat), 1 ≤ d ∧ d < 30 ∧ s.pwr.switching = some d ∧ (domOf s d).state = .poweringDown → (domOf s d).since + 1 + switchTicks d ≤ s.clk.now → (s.pwr.seqRunning = false ∨ s.pwr.seqRest = []) →
      Completes (.powerDownDone d) s fun t =>
        domOf t d = (if (domOf s d).cycling then { domOf s d with state := .off } else { domOf s d with state := .off, inPlace := false, drained := false })
        ∧ (∀ k, k ≠ d → domOf t k = domOf s k) ∧ t.pwr.switching = none
        ∧ t.pwr.domEvent = (if (domOf s d).cycling then s.pwr.domEvent else s.pwr.domEvent ||| bitAt d true)
        ∧ t.pwr.waiting = (if (domOf s d).cycling then (d, true) :: s.pwr.waiting else if (domOf s d).pendUp then s.pwr.waiting ++ [(d, true)] else s.pwr.waiting)
        ∧ t.pins = s.pins ∧ t.keep = s.keep ∧ t.clk = s.clk ∧ t.avs = s.avs)
  ∧ (∀ (s : State) (d : Nat), 1 ≤ d ∧ d < 30 ∧ (s.pwr.switching ≠ some d ∨ (domOf s d).state ≠ .poweringDown ∨ s.clk.now < (domOf s d).since + 1 + switchTicks d) →
      Completes (.powerDownDone d) s fun t => t = s)

/-- A lane or HBM rail out of range takes each domain it feeds that is not OFF or ABSENT to FAULT, with DONE_d where it was not FAULT already, and
no other domain but one that the sequence goes on with; VDD_CORE or VDD_SRAM takes every domain to OFF and starts the sequence again; VDD_AON leaves
nothing but the keep store, the flash and the board's conditions; VPP_KEEP cuts a write in progress, which keeps the old or the new value; VDD_IO
changes the rail alone. The monitors record their instants, a loss of OSC_IN takes the TKU to ACQUIRE, and the thermal trip latches and opens the
switch of every powered domain. -/
def Obligations.RailsAndSupervision : Prop :=
  (∀ (s : State) (r : Rail), r = .vddLane ∨ r = .vddLaneHv ∨ r = .vddHbm ∨ r = .vddqHbm →
      Completes (.railRemoved r) s fun t =>
        (∀ d, (s.pwr.seqRunning = true → s.pwr.seqRest.head? ≠ some d) → (domOf t d).state = if (railFeeds r).contains d && (domOf s d).state != .absent && (domOf s d).state != .off then .fault else (domOf s d).state)
        ∧ (∀ d, (railFeeds r).contains d = true → (domOf s d).state ≠ .absent → (domOf s d).state ≠ .off → (domOf s d).state ≠ .fault → bitOf t.pwr.domEvent d = true)
        ∧ t.pins = { s.pins with rails := railOut r s.pins.rails } ∧ t.keep = s.keep ∧ t.clk = s.clk ∧ t.avs = s.avs ∧ t.pending = s.pending)
  ∧ (∀ (s : State) (r : Rail), (r = .vddCore ∨ r = .vddSram) →
      Completes (.railRemoved r) s fun t =>
        (∀ d, 1 ≤ d → d < 30 → (domOf t d).state = if (domOf s d).state = .absent then .absent else .off)
        ∧ t.pins = { s.pins with rails := railOut r s.pins.rails } ∧ t.pwr.seqRunning = true ∧ t.pwr.seqStarted = false ∧ t.mb = {}
        ∧ (s.pins.resetReleased = true → t.clk.tick = 0 ∧ t.clk.awaitFirst = true ∧ t.tku.state = .acquire) ∧ t.keep.cells = s.keep.cells)
  ∧ (∀ (s : State), Completes (.railRemoved .vddAon) s fun t =>
        (∀ w, cellOf t w = cellOf s w ∨ ∃ k, s.keep.active = some k ∧ t.keep.cells = keepLand k s.keep.cells) ∧ t.keep.active = none ∧ t.keep.mpQ = [] ∧ t.keep.hostQ = []
        ∧ t.mb = {} ∧ t.mem = {} ∧ t.chk = {} ∧ t.feed = {} ∧ t.pair = {} ∧ t.pins.resetReleased = false ∧ t.clk.tick = 0 ∧ t.irq.cause = 0 ∧ t.irq.log = []
        ∧ t.host.up = false ∧ t.host.tx = [] ∧ t.host.rx = [] ∧ t.plan.active = [] ∧ t.link.records = [])
  ∧ (∀ (s : State), Completes (.railRemoved .vddIo) s fun t => t.pins = { s.pins with rails := railOut .vddIo s.pins.rails } ∧ Alone [.pins] s t)
  ∧ (∀ (s : State), Completes (.railRemoved .vppKeep) s fun t =>
        t.pins = { s.pins with rails := railOut .vppKeep s.pins.rails } ∧ t.keep.active = none
        ∧ (t.keep = { s.keep with active := none } ∨ ∃ k, s.keep.active = some k ∧ t.keep = { s.keep with active := none, cells := keepLand k s.keep.cells })
        ∧ Alone [.pins, .keep, .clk] s t)
  ∧ (∀ (s : State), Completes .vddCoreWindowFlag s fun t => t.pins = { s.pins with vddFlagAt := some s.clk.now } ∧ Alone [.pins] s t)
  ∧ (∀ (s : State), Completes .oscInLoss s fun t => t.pins = { s.pins with oscPresent := false, oscSince := none, oscLostAt := some s.clk.now }
        ∧ t.tku = { s.tku with state := .acquire, acqRun := 0, trackRun := 0, lockedFor := 0 } ∧ Alone [.pins, .tku] s t)
  ∧ (∀ (s : State), Completes .oscInReturn s fun t => t.pins = { s.pins with oscPresent := true, oscSince := some s.clk.now } ∧ Alone [.pins] s t)
  ∧ (∀ (s : State), Completes .alertNRelease s fun t => t.pins.vddFlagAt = s.pins.vddFlagAt.filter (fun a => decide (s.clk.now < a + 1000000))
        ∧ t.pins.oscLostAt = s.pins.oscLostAt.filter (fun a => decide (s.clk.now < a + 1000000))
        ∧ { t.pins with vddFlagAt := s.pins.vddFlagAt, oscLostAt := s.pins.oscLostAt } = s.pins ∧ Alone [.pins] s t)
  ∧ (∀ (s : State) (site : Nat), site < 49 ∧ domPowered (domOf s (sensorDomain site)).state = true →
      Completes (.thermalTrip site) s fun t =>
        (∀ d, 1 ≤ d → d < 30 → (domOf t d).state = if domPowered (domOf s d).state then .off else (domOf s d).state)
        ∧ t.pins = { s.pins with thermTrip := true } ∧ t.pwr.switching = none ∧ t.pwr.waiting = [] ∧ t.pwr.seqRest = [] ∧ t.keep = s.keep ∧ t.clk = s.clk)
  ∧ (∀ (s : State) (site : Nat), site < 49 ∧ domPowered (domOf s (sensorDomain site)).state = false →
      Completes (.thermalTrip site) s fun t => t = s)

/-- A measurement round sets the junction temperature and its site from the hottest live sensor, and S_MIN from the least slack of the sensors that
the loop admits; where the loop runs, is not in BUS_FAULT and is not held (R451: by a switching or within 1 ms of one or of its last step), the set
point moves one step of 2.5 mV up below 12.0 ps and one down above 16.0 ps, within 0.700 to 0.800 V, and moves on the bus only where it changed. A
bus fault holds it, and the retry writes the held value again. Regulator readings steer nothing. A second at 0.800 V below target raises
AGEING_LIMIT once. -/
def Obligations.AdaptiveSupply : Prop :=
  (∀ (s : State) (obs : List SensorObs) (o h : SensorObs), leastSlack (loopObs s obs) = some o ∧ hottest (liveObs s obs) = some h →
      Completes (.avsMeasurement obs) s fun t =>
        t.avs.sMin = o.slack ∧ t.avs.sMinSensor = o.sensor ∧ t.avs.tj = h.temp ∧ t.avs.site = h.sensor
        ∧ t.avs.setPoint = (if (s.avs.running && !s.avs.busFault && !avsHeld s) = true then
            (if o.slack < 192 ∧ s.avs.setPoint < 320 then s.avs.setPoint + 1 else if 256 < o.slack ∧ 280 < s.avs.setPoint then s.avs.setPoint - 1 else s.avs.setPoint)
            else s.avs.setPoint)
        ∧ t.avs.limitSince = (if t.avs.setPoint = 320 ∧ o.slack < 192 then some (s.avs.limitSince.getD s.clk.now) else none)
        ∧ t.avs.stepAt = (if t.avs.setPoint = s.avs.setPoint then s.avs.stepAt else some s.clk.now)
        ∧ (t.avs.setPoint ≠ s.avs.setPoint → .avs t.avs.setPoint ∈ t.out) ∧ t.avs.busFault = s.avs.busFault ∧ t.avs.running = s.avs.running ∧ Alone [.avs] s t)
  ∧ (∀ (s : State) (obs : List SensorObs), leastSlack (loopObs s obs) = none →
      Completes (.avsMeasurement obs) s fun t =>
        (∀ h, hottest (liveObs s obs) = some h → t.avs = { s.avs with tj := h.temp, site := h.sensor })
        ∧ (hottest (liveObs s obs) = none → t.avs = s.avs) ∧ Alone [.avs] s t)
  ∧ (∀ (s : State), Completes .avsBusFault s fun t => t.avs = { s.avs with busFault := true } ∧ Alone [.avs] s t)
  ∧ (∀ (s : State) (regs : List Regulator), Completes (.pmbusPoll regs) s fun t => t.avs = { s.avs with regs := regs.take 8 } ∧ Alone [.avs] s t)
  ∧ (∀ (s : State) (acked : Bool), s.avs.busFault = true →
      Completes (.avsBusRetry acked) s fun t =>
        t.avs = { s.avs with busFault := !acked } ∧ .avs s.avs.setPoint ∈ t.out ∧ Alone [.avs] s t)
  ∧ (∀ (s : State) (acked : Bool), s.avs.busFault = false →
      Completes (.avsBusRetry acked) s fun t => t = s)
  ∧ (∀ (s : State) (a : Nat), s.avs.limitSince = some a ∧ a + 1000000 ≤ s.clk.now ∧ s.avs.setPoint = 320 ∧ s.age.limitRaised = false →
      Completes .avsAtLimitExpiry s fun t =>
        t.age = { s.age with limitRaised := true } ∧ Logged 0x0070 s.avs.sMinSensor s t ∧ SameBut [.age, .irq, .mem, .out] s t)
  ∧ (∀ (s : State), (∀ a, s.avs.limitSince = some a → s.clk.now < a + 1000000) ∨ s.avs.setPoint ≠ 320 ∨ s.age.limitRaised = true →
      Completes .avsAtLimitExpiry s fun t => t = s)

/-- At the hourly update each sensor of an ENABLED domain whose entry is present takes NOW, NEED_V, RATE and YEARS_LEFT from its means; HEADROOM is
0.800 V less the largest NEED_V, and AGEING_LIMIT is raised where it falls below zero and was not raised before. The daily write counts the day and
the yearly snapshot does not; each queues, for the sensors whose entries are present and whose words are not WORN, a word with NOW and the day, and
the entry's commit word. Neither changes anything but the ledger and the keep store's queue. -/
def Obligations.MarginLedger : Prop :=
  (∀ (s : State) (m : MeanObs), m.sensor < 48 ∧ domOn s (sensorDomain m.sensor) = true ∧ ledgerPresent s m.sensor = true →
      Completes (.ledgerHourlyUpdate [m]) s fun t =>
        (∃ e, tabGet {} t.age.sensors m.sensor = e ∧ e.s = m.slack
          ∧ e.now = (6400 * m.slack - 4 * ledgerK s m.sensor * (m.volts - 7500) - 25 * ledgerTc s m.sensor * (m.temp - 1360)) / 6400
          ∧ (ledgerK s m.sensor ≠ 0 → e.needV = 75000 + 1000 * (3072 - 16 * e.now - 20 * ledgerTc s m.sensor) / ledgerK s m.sensor)
          ∧ e.rate = ledgerRate s m.sensor e.now ∧ e.yearsLeft = ledgerYears (ledgerK s m.sensor) (ledgerTc s m.sensor) e.now e.rate)
        ∧ (∀ n, n ≠ m.sensor → tabGet {} t.age.sensors n = tabGet {} s.age.sensors n) ∧ t.age.day = s.age.day ∧ SameBut [.age, .irq, .mem, .out] s t)
  ∧ (∀ (s : State) (means : List MeanObs), (∀ m ∈ means, ¬ (m.sensor < 48 ∧ domOn s (sensorDomain m.sensor) = true ∧ ledgerPresent s m.sensor = true)) → worstSensor s (List.range 48) = none →
      Completes (.ledgerHourlyUpdate means) s fun t => t = s)
  ∧ (∀ (s : State) (means : List MeanObs), Completes (.ledgerHourlyUpdate means) s fun t =>
        (∀ n, worstSensor t (List.range 48) = some n → t.age.worst = n ∧ t.age.headroom = 80000 - (tabGet {} t.age.sensors n).needV
          ∧ t.age.positiveHours = (if 0 < t.age.headroom then s.age.positiveHours + 1 else 0)
          ∧ (t.age.headroom < 0 → t.age.limitRaised = true)
          ∧ (t.age.headroom < 0 → s.age.limitRaised = false → Logged 0x0070 n s t))
        ∧ SameBut [.age, .irq, .mem, .out] s t)
  ∧ (∀ (s : State), Completes .ledgerDailyWrite s fun t => t.age = { s.age with day := s.age.day + 1 } ∧ t.keep.cells = s.keep.cells ∧ t.keep.active = s.keep.active
          ∧ (∃ q, t.keep.mpQ = s.keep.mpQ ++ q ∧ ∀ k ∈ q, 1205 ≤ k.word ∧ k.word < 1396) ∧ Alone [.age, .keep] s t)
  ∧ (∀ (s : State), Completes .ledgerYearlySnapshot s fun t => t.keep.cells = s.keep.cells ∧ t.keep.active = s.keep.active
          ∧ (∃ q, t.keep.mpQ = s.keep.mpQ ++ q ∧ ∀ k ∈ q, 1206 ≤ k.word ∧ k.word < 1396) ∧ Alone [.keep] s t)
  ∧ (∀ (s : State) (n : Nat), n < 48 ∧ tabGet {} s.age.sensors n ≠ {} ∧ ledgerPresent s n = true ∧ writable s [1205 + 4 * n, 1207 + 4 * n] = true → (∀ k, k < 48 → k ≠ n → tabGet {} s.age.sensors k = {}) →
      Completes .ledgerDailyWrite s fun t =>
        keepQueued t (1205 + 4 * n) = fieldAt 63 48 (twosOf 16 (tabGet {} s.age.sensors n).now) ||| fieldAt 31 0 (s.age.day + 1))

/-- A lane that listens acquires block lock, and in ACQUIRE with training words on both locked lanes the port goes on to EXCHANGE; a lost lock
counts LOCK_LOSS and leaves the port. A valid training word starts a bring-up at G1 on an ACTIVE, STANDBY or probing port, is held by a port in
BRINGUP, and takes an idle port to TEST on a test word; one that fails its CHECK, or on an unlocked lane, changes nothing. A phase timeout repeats
the try up to twice, then falls a generation or leaves the port DORMANT and probing; a re-bring goes on with a full bring-up. A signal at a DORMANT
port starts a bring-up, or queues it while another of its kind is under way, and the queue starts the next when none is. A port that begins a try
sends its training words on both lanes, and one that gives up a calibration turn passes it on. A PRBS checker locks after 64 error-free bits in a
row and loses lock on 32 errors among its last 64. -/
def Obligations.LaneBringUp : Prop :=
  (∀ (s : State) (lane : Nat), portExists s (lane / 2) = true ∧ (laneOf s lane).blockLock = false → (portOf s (lane / 2)).state = .active ∨ (portOf s (lane / 2)).state = .standby →
      ∀ inv, Completes (.blockLockAcquired lane inv) s fun t =>
        laneOf t lane = { laneOf s lane with blockLock := true } ∧ (∀ l, l ≠ lane → laneOf t l = laneOf s l) ∧ (∀ q, portOf t q = portOf s q) ∧ Alone [.port] s t)
  ∧ (∀ (s : State) (lane : Nat) (inv : Bool), portExists s (lane / 2) = true ∧ (laneOf s lane).blockLock = false ∧ (portOf s (lane / 2)).state = .bringup ∧ (portOf s (lane / 2)).phase = .acquire → (∀ l, l / 2 = lane / 2 → (laneOf s l).train ≠ none ∧ (l ≠ lane → (laneOf s l).blockLock = true)) →
      Completes (.blockLockAcquired lane inv) s fun t =>
        (portOf t (lane / 2)) = { portOf s (lane / 2) with phase := .exchange, count := 7 } ∧ (laneOf t lane).blockLock = true ∧ (laneOf t lane).inverted = inv
        ∧ (∀ l, l / 2 = lane / 2 → (laneOf t l).ready = false) ∧ (∀ q, q ≠ lane / 2 → portOf t q = portOf s q) ∧ Alone [.port] s t)
  ∧ (∀ (s : State) (lane : Nat) (inv : Bool), portExists s (lane / 2) = true ∧ portListens (portOf s (lane / 2)) = true ∧ (laneOf s lane).blockLock = false ∧ (portOf s (lane / 2)).state ≠ .test →
      Completes (.blockLockAcquired lane inv) s fun t => Leaves s (advancePhase (lane / 2) (modLane lane (fun l => { l with
        blockLock := true, inverted := if (portOf s (lane / 2)).state = .bringup ∧ (portOf s (lane / 2)).phase = .acquire then inv else l.inverted }) s)) t)
  ∧ (∀ (s : State) (lane : Nat) (inv : Bool), portExists s (lane / 2) = true ∧ (portListens (portOf s (lane / 2)) = false ∨ (laneOf s lane).blockLock = true ∨ (portOf s (lane / 2)).state = .test) →
      Completes (.blockLockAcquired lane inv) s fun t => t = s)
  ∧ (∀ (s : State) (lane : Nat), portExists s (lane / 2) = true ∧ (laneOf s lane).blockLock = true →
      Completes (.blockLockLost lane) s fun t =>
        laneOf t lane = { laneOf s lane with blockLock := false, lockLoss := sat32 (laneOf s lane).lockLoss 1 }
        ∧ (∀ l, l ≠ lane → laneOf t l = laneOf s l) ∧ (∀ q, portOf t q = portOf s q) ∧ Alone [.port] s t)
  ∧ (∀ (s : State) (lane : Nat), portExists s (lane / 2) = true ∧ (laneOf s lane).blockLock = false →
      Completes (.blockLockLost lane) s fun t => t = s)
  ∧ (∀ (s : State) (lane : Nat) (w : Word) (obs : TrainObs), portExists s (lane / 2) = true → (laneOf s lane).blockLock = false ∨ trainCheckOk w = false ∨ trPhase w ≠ 7 ∧ ((portOf s (lane / 2)).state = .off ∨ (portOf s (lane / 2)).state = .test ∨ (portOf s (lane / 2)).state = .dormant ∧ (portOf s (lane / 2)).probeOn = false) ∨ trPhase w = 7 ∧ (trCount w ≠ 0 ∨ fieldOf w 46 43 = 0 ∨ 3 < fieldOf w 46 43 ∨ portBusy s (lane / 2) = true ∨ (portOf s (lane / 2)).state ≠ .active ∧ (portOf s (lane / 2)).state ≠ .standby) →
      Completes (.trainWordReceived lane w obs) s fun t => t = s)
  ∧ (∀ (s : State) (lane : Nat) (w : Word) (obs : TrainObs), portExists s (lane / 2) = true ∧ (laneOf s lane).blockLock = true ∧ trainCheckOk w = true ∧ trPhase w ≠ 7 → (portOf s (lane / 2)).waiting ≠ some .retrain ∧ s.plan.activated = false ∧ ((portOf s (lane / 2)).state = .active ∨ (portOf s (lane / 2)).state = .standby) →
      Completes (.trainWordReceived lane w obs) s fun t => BringsUp .full (lane / 2) 1 s t)
  ∧ (∀ (s : State) (lane : Nat) (w : Word) (obs : TrainObs), portExists s (lane / 2) = true ∧ (laneOf s lane).blockLock = true ∧ trainCheckOk w = true ∧ trPhase w ≠ 7 → (portOf s (lane / 2)).waiting ≠ some .retrain ∧ s.plan.activated = false ∧ (portOf s (lane / 2)).state = .dormant ∧ (portOf s (lane / 2)).probeOn = true →
      Completes (.trainWordReceived lane w obs) s fun t => BringsUp .probe (lane / 2) 1 s t)
  ∧ (∀ (s : State) (lane : Nat) (w : Word) (obs : TrainObs), portExists s (lane / 2) = true ∧ (laneOf s lane).blockLock = true ∧ trainCheckOk w = true ∧ trPhase w = 7 ∧ trCount w = 0 → 1 ≤ fieldOf w 46 43 ∧ fieldOf w 46 43 ≤ 3 ∧ portBusy s (lane / 2) = false ∧ ((portOf s (lane / 2)).state = .active ∨ (portOf s (lane / 2)).state = .standby) →
      Completes (.trainWordReceived lane w obs) s fun t =>
        portOf t (lane / 2) = { portQuiet (portOf s (lane / 2)) with state := .test, pattern := fieldOf w 46 43, probing := false, probeOn := false, waiting := none }
        ∧ (∀ l, laneOf t l = if l / 2 = lane / 2 then { laneOf s l with blockLock := false, prbsLocked := false, prbsReg := 0, prbsSeen := [] } else laneOf s l)
        ∧ (∀ l, l / 2 = lane / 2 → ∃ r, .prbs l (prbsRun (fieldOf w 46 43) 64 r) ∈ t.out) ∧ OthersKeep (lane / 2) s t ∧ Alone [.port, .tku, .clk] s t)
  ∧ (∀ (s : State) (lane o : Nat) (w : Word) (obs : TrainObs), portExists s (lane / 2) = true ∧ (laneOf s lane).blockLock = true ∧ trainCheckOk w = true ∧ trPhase w ≠ 7 ∧ (portOf s (lane / 2)).state = .bringup ∧ (portOf s (lane / 2)).phase ≠ .tune → o / 2 = lane / 2 ∧ o ≠ lane ∧ (laneOf s o).train = none →
      Completes (.trainWordReceived lane w obs) s fun t =>
        (laneOf t lane).train = some (w &&& fieldAt 55 0 0xFFFFFFFFFFFFFF)
        ∧ (laneOf t lane).ready = ((laneOf s lane).ready || ((portOf s (lane / 2)).phase == .align && obs.ready && decide (obs.deskew ≤ 32)))
        ∧ (∀ q, portOf t q = portOf s q) ∧ (∀ l, l / 2 ≠ lane / 2 → laneOf t l = laneOf s l) ∧ { laneOf t o with sentWord := (laneOf s o).sentWord } = laneOf s o ∧ Alone [.port] s t)
  ∧ (∀ (s : State) (lane : Nat) (w : Word) (obs : TrainObs), portExists s (lane / 2) = true ∧ (laneOf s lane).blockLock = true ∧ trainCheckOk w = true ∧ trPhase w ≠ 7 ∧ (portOf s (lane / 2)).state = .bringup ∧ (portOf s (lane / 2)).phase = .tune →
      Completes (.trainWordReceived lane w obs) s fun t =>
        Leaves s (advancePhase (lane / 2) (modLane lane (fun l => tuneLane (portOf s (lane / 2)).gen w obs.eye { l with train := some (w &&& fieldAt 55 0 0xFFFFFFFFFFFFFF) }) s)) t)
  ∧ (∀ (s : State) (p : Nat), portExists s p = true ∧ (portOf s p).state = .bringup ∧ (portOf s p).bring ≠ .rebring ∧ (portOf s p).tries < 2 →
      Completes (.bringupPhaseTimeout p) s fun t =>
        (∃ tag, portOf t p = { portOf s p with lastFail := 2 + phaseCode (portOf s p).phase, tries := (portOf s p).tries + 1, phase := .acquire, swapped := false, tag := tag })
        ∧ LanesAcquire p (modLanes p (fun l => { l with bringupFail := sat32 l.bringupFail 1 }) s) t ∧ (∀ q, q ≠ p → portOf t q = portOf s q) ∧ Alone [.port, .clk] s t)
  ∧ (∀ (s : State) (p : Nat), portExists s p = true ∧ (portOf s p).state = .bringup ∧ (portOf s p).bring ≠ .rebring ∧ 2 ≤ (portOf s p).tries ∧ 1 < (portOf s p).gen →
      Completes (.bringupPhaseTimeout p) s fun t =>
        (∃ tag, portOf t p = { portOf s p with lastFail := 2 + phaseCode (portOf s p).phase, tries := 0, fallen := true, gen := (portOf s p).gen - 1, phase := .acquire, swapped := false, tag := tag })
        ∧ LanesAcquire p (modLanes p (fun l => { l with bringupFail := sat32 l.bringupFail 1 }) s) t ∧ (∀ q, q ≠ p → portOf t q = portOf s q) ∧ Alone [.port, .clk] s t)
  ∧ (∀ (s : State) (p : Nat), portExists s p = true ∧ (portOf s p).state = .bringup ∧ (portOf s p).bring ≠ .rebring ∧ 2 ≤ (portOf s p).tries ∧ (portOf s p).gen ≤ 1 →
      Completes (.bringupPhaseTimeout p) s fun t =>
        portOf t p = { portQuiet (portOf s p) with state := .dormant, probing := true, probeOn := false, gen := 0, lastFail := 2 + phaseCode (portOf s p).phase, tries := 0, fallen := false }
        ∧ (∀ l, laneOf t l = if l / 2 = p then { laneOf s l with blockLock := false, train := none, ready := false, bringupFail := sat32 (laneOf s l).bringupFail 1 } else laneOf s l)
        ∧ OthersKeep p s t ∧ Alone [.port, .tku] s t)
  ∧ (∀ (s : State) (p : Nat), portExists s p = true ∧ (portOf s p).state = .bringup ∧ (portOf s p).bring = .rebring →
      Completes (.bringupPhaseTimeout p) s fun t =>
        BringsUp .full p 1 (modLanes p (fun l => { l with bringupFail := sat32 l.bringupFail 1 }) (modPort p (fun x => { x with lastFail := 2 + phaseCode (portOf s p).phase }) s)) t)
  ∧ (∀ (s : State) (p : Nat), portExists s p = true ∧ (portOf s p).state ≠ .bringup →
      Completes (.bringupPhaseTimeout p) s fun t => t = s)
  ∧ (∀ (s : State) (p : Nat), portExists s p = true ∧ (portOf s p).state ≠ .dormant →
      Completes (.signalDetected p) s fun t => t = s)
  ∧ (∀ (s : State) (p : Nat), portExists s p = true ∧ ((portOf s p).state ≠ .active ∨ (portOf s p).missRun < 100) →
      Completes (.portRebring p) s fun t => t = s)
  ∧ (∀ (s : State) (p : Nat), portExists s p = true ∧ (portOf s p).state = .dormant ∧ (portOf s p).waiting ≠ some .retrain → s.plan.activated = false ∨ (bringing s p = [] ∧ ∀ q, q ≠ p → (portOf s q).waiting = none) →
      Completes (.signalDetected p) s fun t => BringsUp .full p 1 s t)
  ∧ (∀ (s : State) (p : Nat), portExists s p = true ∧ (portOf s p).state = .active ∧ 100 ≤ (portOf s p).missRun ∧ (portOf s p).gen ≠ 0 ∧ (portOf s p).waiting ≠ some .retrain → s.plan.activated = false ∨ (bringing s p = [] ∧ ∀ q, q ≠ p → (portOf s q).waiting = none) →
      Completes (.portRebring p) s fun t => BringsUp .rebring p (portOf s p).gen s t)
  ∧ (∀ (s : State) (p q : Nat) (qs : List Nat), portExists s p = true ∧ s.plan.activated = true ∧ bringing s p = q :: qs ∧ (portOf s p).state = .dormant ∧ (portOf s p).waiting ≠ some .retrain →
      Completes (.signalDetected p) s fun t => portOf t p = { portOf s p with waiting := some .full } ∧ (∀ k, k ≠ p → portOf t k = portOf s k) ∧ (∀ l, laneOf t l = laneOf s l) ∧ Alone [.port] s t)
  ∧ (∀ (s : State) (p q : Nat), portExists s p = true ∧ s.plan.activated = true ∧ bringing s p = [q] ∧ (portOf s q).bring = .probe ∧ (portOf s p).state = .active ∧ 100 ≤ (portOf s p).missRun ∧ (portOf s p).waiting = some .retrain →
      Completes (.portRebring p) s fun t => Leaves s (beginBring .retrain p (modPort q (fun x => { x with state := .dormant, probing := true, gen := 0, waiting := some .probe }) s)) t)
  ∧ (∀ (s : State) (p : Nat), portExists s p = true ∧ (portOf s p).state = .dormant ∧ (portOf s p).probing = true ∧ (portOf s p).probeOn = false →
      Completes (.dormantProbe p) s fun t =>
          (∃ tag, tag < 65536 ∧ portOf t p = { portOf s p with probeOn := true, tag := tag }) ∧ (∀ k, k ≠ p → portOf t k = portOf s k)
          ∧ (∀ l, l / 2 = p → laneOf t l = { laneOf s l with sentWord := some (trainWordOf t p l) } ∧ .train l (trainBlock (trainWordOf t p l)) ∈ t.out)
          ∧ (∀ l, l / 2 ≠ p → laneOf t l = laneOf s l) ∧ Alone [.port, .clk] s t)
  ∧ (∀ (s : State) (p : Nat), portExists s p = true ∧ ((portOf s p).state ≠ .dormant ∨ (portOf s p).probing = false ∨ (portOf s p).probeOn = true) →
      Completes (.dormantProbe p) s fun t => t = s)
  ∧ (∀ (s : State) (p : Nat), portExists s p = true ∧ (portOf s p).probeOn = true →
      Completes (.probeWindowEnd p) s fun t =>
          portOf t p = { portOf s p with probeOn := false } ∧ (∀ k, k ≠ p → portOf t k = portOf s k)
          ∧ (∀ l, laneOf t l = if l / 2 = p then { laneOf s l with blockLock := false, train := none } else laneOf s l) ∧ Alone [.port] s t)
  ∧ (∀ (s : State) (p : Nat), portExists s p = true ∧ (portOf s p).probeOn = false →
      Completes (.probeWindowEnd p) s fun t => t = s)
  ∧ (∀ (s : State) (p : Nat) (k : Bring), nextWaiting s frontPorts = some p ∧ (portOf s p).waiting = some k ∧ nextWaiting s peerPorts = none → (s.plan.activated = false ∨ (frontPorts.any fun p => (portOf s p).state == .bringup) = false) → k ≠ .rebring →
      Completes .bringupQueueStart s fun t => BringsUp k p 1 s t)
  ∧ (∀ (s : State), nextWaiting s frontPorts = none ∧ nextWaiting s peerPorts = none →
      Completes .bringupQueueStart s fun t => t = s)
  ∧ (∀ (s : State), Completes .bringupQueueStart s fun t => Leaves s (startWaiting peerPorts (startWaiting frontPorts s)) t)
  ∧ (∀ (s : State) (l : Nat), portExists s (l / 2) = true ∧ (portOf s (l / 2)).state = .test ∧ (laneOf s l).prbsLocked = false ∧ (laneOf s l).prbsSeen = List.replicate 64 false →
      Completes (.prbsCheckerLock l) s fun t =>
          laneOf t l = { laneOf s l with prbsLocked := true } ∧ (∀ k, k ≠ l → laneOf t k = laneOf s k) ∧ (∀ q, portOf t q = portOf s q) ∧ Alone [.port] s t)
  ∧ (∀ (s : State) (l : Nat), portExists s (l / 2) = true ∧ ((portOf s (l / 2)).state ≠ .test ∨ (laneOf s l).prbsLocked = true ∨ (laneOf s l).prbsSeen ≠ List.replicate 64 false) →
      Completes (.prbsCheckerLock l) s fun t => t = s)
  ∧ (∀ (s : State) (l : Nat), portExists s (l / 2) = true ∧ (portOf s (l / 2)).state = .test ∧ (laneOf s l).prbsLocked = true ∧ 32 ≤ ((laneOf s l).prbsSeen.filter id).length →
      Completes (.prbsLockLoss l) s fun t =>
          laneOf t l = { laneOf s l with prbsLocked := false, prbsSeen := [], lockLoss := sat32 (laneOf s l).lockLoss 1 }
          ∧ (∀ k, k ≠ l → laneOf t k = laneOf s k) ∧ (∀ q, portOf t q = portOf s q) ∧ Alone [.port] s t)
  ∧ (∀ (s : State) (l : Nat), portExists s (l / 2) = true ∧ ((portOf s (l / 2)).state ≠ .test ∨ (laneOf s l).prbsLocked = false ∨ ((laneOf s l).prbsSeen.filter id).length < 32) →
      Completes (.prbsLockLoss l) s fun t => t = s)

/-- On an ACTIVE front-end port every message frees its cells; on any other it changes nothing. IDENTITY and CAL_REPORT answer their requests: an
identity that matches the stored record starts MEASURE, another one calibrates, and the report of a calibration under way is stored in the keep
store and starts MEASURE. An alarm is raised. An acknowledgement answers the message of its MSG_SEQ, and a PORT_CONFIG counts as acknowledged with
status OK; a message of 100 ticks without its answer goes out again, three times in all, and is then given up with FE_NORESP, a calibration with its
turn. Three missing frames mark the port degraded, with an event, eight good ones unmark it, and a measured port whose PORT_CONFIG is acknowledged
is READY. -/
def Obligations.FrontEndMessages : Prop :=
  (∀ (s : State) (p : Nat) (ws : List Word), frontExists s p = true ∧ feActive s p = false →
      Completes (.feIdentity p ws) s fun t => t = s)
  ∧ (∀ (s : State) (p : Nat) (ws : List Word), frontExists s p = true ∧ feActive s p = false →
      Completes (.feCalReport p ws) s fun t => t = s)
  ∧ (∀ (s : State) (p : Nat) (ws : List Word), frontExists s p = true ∧ feActive s p = false →
      Completes (.feAlarm p ws) s fun t => t = s)
  ∧ (∀ (s : State) (p : Nat) (w : Word), frontExists s p = true ∧ feActive s p = false →
      Completes (.feAck p w) s fun t => t = s)
  ∧ (∀ (s : State) (p : Nat), frontExists s p = true ∧ feActive s p = false →
      Completes (.feMessageResend p) s fun t => t = s)
  ∧ (∀ (s : State) (p : Nat), frontExists s p = true ∧ feActive s p = false →
      Completes (.portDegraded p) s fun t => t = s)
  ∧ (∀ (s : State) (p : Nat), frontExists s p = true ∧ feActive s p = false →
      Completes (.portReadyAgain p) s fun t => t = s)
  ∧ (∀ (s : State) (p : Nat), frontExists s p = true ∧ feActive s p = false →
      Completes (.calMeasureDone p) s fun t => t = s)
  ∧ (∀ (s : State) (p : Nat) (ws : List Word), frontExists s p = true ∧ feActive s p = true ∧ (portOf s p).cal ≠ .identWait →
      Completes (.feIdentity p ws) s fun t =>
        portOf t p = { portOf s p with
          freed := ((portOf s p).freed + 1) % 65536, messages := (portOf s p).messages.filter fun g => g.mtype != 0x04, seenSerial := ws.getD 0 0 }
        ∧ (∀ q, q ≠ p → portOf t q = portOf s q) ∧ (∀ l, laneOf t l = laneOf s l) ∧ Alone [.port] s t)
  ∧ (∀ (s : State) (p : Nat) (ws : List Word), frontExists s p = true ∧ feActive s p = true ∧ (portOf s p).cal = .identWait → (portOf s p).calWords ≠ [] ∧ (portOf s p).feSerial = ws.getD 0 0 ∧ (portOf s p).calEpoch = fieldOf (ws.getD 1 0) 23 8 →
      Completes (.feIdentity p ws) s fun t =>
        (portOf t p).cal = .measure ∧ (portOf t p).measured = false ∧ (portOf t p).pathCount = 0 ∧ (portOf t p).seenSerial = ws.getD 0 0
        ∧ (portOf t p).freed = ((portOf s p).freed + 1) % 65536 ∧ (portOf t p).calWords = (portOf s p).calWords
        ∧ (∀ q, q ≠ p → portOf t q = portOf s q) ∧ Alone [.port] s t)
  ∧ (∀ (s : State) (p : Nat) (ws : List Word), frontExists s p = true ∧ feActive s p = true ∧ (portOf s p).cal = .identWait → (portOf s p).calWords = [] ∨ (portOf s p).feSerial ≠ ws.getD 0 0 ∨ (portOf s p).calEpoch ≠ fieldOf (ws.getD 1 0) 23 8 →
      Completes (.feIdentity p ws) s fun t =>
        (portOf t p).cal = .calWait ∧ (portOf t p).seenSerial = ws.getD 0 0 ∧ (portOf t p).calRun = !(portOf t p).calDue
        ∧ ((∃ q, q < 32 ∧ q ≠ p ∧ (portOf s q).calRun = true) → (portOf t p).calDue = true) ∧ Alone [.port] s t)
  ∧ (∀ (s : State) (p : Nat) (ws : List Word), frontExists s p = true ∧ feActive s p = true ∧ (portOf s p).cal ≠ .calWait →
      Completes (.feCalReport p ws) s fun t =>
        portOf t p = { portOf s p with freed := ((portOf s p).freed + 4) % 65536, messages := (portOf s p).messages.filter fun g => g.mtype != 0x02 }
        ∧ (∀ q, q ≠ p → portOf t q = portOf s q) ∧ Alone [.port] s t)
  ∧ (∀ (s : State) (p : Nat) (ws : List Word), frontExists s p = true ∧ feActive s p = true ∧ (portOf s p).cal = .calWait →
      Completes (.feCalReport p ws) s fun t =>
        (portOf t p).cal = .measure ∧ (portOf t p).feSerial = (portOf s p).seenSerial ∧ (portOf t p).calEpoch = fieldOf (ws.getD 0 0) 63 48
        ∧ (portOf t p).calWords = (ws.drop 1 ++ List.replicate 24 0).take 24 ∧ (portOf t p).freed = ((portOf s p).freed + 4) % 65536
        ∧ (∀ i, i < 27 → keepQueued t (340 + 27 * p + i)
            = ((calRecord p (portOf s p).seenSerial (fieldOf (ws.getD 0 0) 63 48) ((ws.drop 1 ++ List.replicate 24 0).take 24)).getD i (0, 0)).2)
        ∧ (∀ w, w < 340 + 27 * p ∨ 367 + 27 * p ≤ w → keepQueued t w = keepQueued s w)
        ∧ (∀ q, q ≠ p → portOf t q = portOf s q) ∧ Alone [.port, .keep] s t)
  ∧ (∀ (s : State) (p : Nat) (ws : List Word), frontExists s p = true ∧ feActive s p = true →
      Completes (.feAlarm p ws) s fun t =>
        Logged 0x0006 p s t ∧ portOf t p = { portOf s p with freed := ((portOf s p).freed + 1) % 65536 } ∧ (∀ q, q ≠ p → portOf t q = portOf s q)
        ∧ SameBut [.port, .irq, .mem, .out] s t)
  ∧ (∀ (s : State) (p : Nat) (w : Word), frontExists s p = true ∧ feActive s p = true →
      Completes (.feAck p w) s fun t =>
        portOf t p = { portOf s p with
          freed := ((portOf s p).freed + 1) % 65536
          messages := (portOf s p).messages.filter fun g => g.seq != fieldOf w 63 48 || g.mtype == 0x02 || g.mtype == 0x04
          configOk := (portOf s p).configOk || (fieldOf w 47 40 == 0 && (portOf s p).messages.any fun g => g.seq == fieldOf w 63 48 && g.mtype == 0x01) }
        ∧ (∀ q, q ≠ p → portOf t q = portOf s q) ∧ Alone [.port] s t)
  ∧ (∀ (s : State) (p : Nat) (g : Message), frontExists s p = true ∧ feActive s p = true ∧ (portOf s p).messages.filter (fun g => decide (g.sentAt + 100 ≤ s.clk.now)) = [g] ∧ g.sends < 3 →
      Completes (.feMessageResend p) s fun t =>
          portOf t p = { portOf s p with
            messages := (portOf s p).messages.map fun h => if h.seq = g.seq ∧ h.mtype = g.mtype then { h with sends := h.sends + 1, sentAt := s.clk.now } else h
            cells := (portOf s p).cells ++ g.cells }
          ∧ (∀ q, q ≠ p → portOf t q = portOf s q) ∧ (∀ l, laneOf t l = laneOf s l) ∧ Alone [.port] s t)
  ∧ (∀ (s : State) (p : Nat) (g : Message), frontExists s p = true ∧ feActive s p = true ∧ (portOf s p).messages.filter (fun g => decide (g.sentAt + 100 ≤ s.clk.now)) = [g] ∧ 3 ≤ g.sends ∧ (g.mtype ≠ 0x02 ∨ (portOf s p).calRun = false) →
      Completes (.feMessageResend p) s fun t =>
          portOf t p = { portOf s p with messages := (portOf s p).messages.filter fun h => !(h.seq == g.seq && h.mtype == g.mtype) } ∧ Logged 0x0004 p s t
          ∧ (∀ q, q ≠ p → portOf t q = portOf s q) ∧ SameBut [.port, .irq, .mem, .out] s t)
  ∧ (∀ (s : State) (p : Nat) (g : Message), frontExists s p = true ∧ feActive s p = true ∧ (portOf s p).messages.filter (fun g => decide (g.sentAt + 100 ≤ s.clk.now)) = [g] ∧ 3 ≤ g.sends ∧ g.mtype = 0x02 ∧ (portOf s p).calRun = true ∧ (portOf s p).calDue = false →
      Completes (.feMessageResend p) s fun t =>
          portOf t p = { portOf s p with messages := (portOf s p).messages.filter (fun h => !(h.seq == g.seq && h.mtype == g.mtype)), calRun := false } ∧ Logged 0x0004 p s t
          ∧ OthersKeep p s t ∧ SameBut [.port, .irq, .mem, .out] s t)
  ∧ (∀ (s : State) (p : Nat), frontExists s p = true ∧ feActive s p = true →
      Completes (.feMessageResend p) s fun t => Leaves s (((portOf s p).messages.filter fun g => decide (g.sentAt + 100 ≤ s.clk.now)).foldl (resendOne p) s) t)
  ∧ (∀ (s : State) (p : Nat), frontExists s p = true ∧ feActive s p = true ∧ 3 ≤ (portOf s p).missRun ∧ (portOf s p).degraded = false →
      Completes (.portDegraded p) s fun t =>
          portOf t p = { portOf s p with degraded := true } ∧ Logged 0x0002 p s t ∧ (∀ q, q ≠ p → portOf t q = portOf s q) ∧ SameBut [.port, .irq, .mem, .out] s t)
  ∧ (∀ (s : State) (p : Nat), frontExists s p = true ∧ feActive s p = true ∧ ((portOf s p).missRun < 3 ∨ (portOf s p).degraded = true) →
      Completes (.portDegraded p) s fun t => t = s)
  ∧ (∀ (s : State) (p : Nat), frontExists s p = true ∧ feActive s p = true ∧ 8 ≤ (portOf s p).goodRun →
      Completes (.portReadyAgain p) s fun t =>
          portOf t p = { portOf s p with degraded := false } ∧ (∀ q, q ≠ p → portOf t q = portOf s q) ∧ Alone [.port] s t)
  ∧ (∀ (s : State) (p : Nat), frontExists s p = true ∧ feActive s p = true ∧ (portOf s p).goodRun < 8 →
      Completes (.portReadyAgain p) s fun t => t = s)
  ∧ (∀ (s : State) (p : Nat), frontExists s p = true ∧ feActive s p = true ∧ (portOf s p).cal = .measure ∧ (portOf s p).measured = true ∧ (portOf s p).configOk = true ∧ (portOf s p).calDue = false →
      Completes (.calMeasureDone p) s fun t =>
        (portOf t p).cal = .ready ∧ (portOf t p).calRun = false ∧ (portOf t p).path = (portOf s p).path ∧ (portOf t p).messages = (portOf s p).messages
        ∧ SameBut [.port, .circ, .irq, .mem, .out] s t)
  ∧ (∀ (s : State) (p : Nat), frontExists s p = true ∧ ((portOf s p).cal ≠ .measure ∨ (portOf s p).measured = false ∨ (portOf s p).configOk = false) →
      Completes (.calMeasureDone p) s fun t => t = s)

/-- A training word with a good CHECK from the endpoint of a link in training reports its SNR and its capabilities; in the link's own phase it takes
DUPLEX to SELECT, with the settings both SNRs give, SELECT to PRECODE or SWITCH once the endpoint repeats the choice, and PRECODE, once its 24 taps
are in, to SWITCH, where its countdown is noted; any other changes nothing more. SWITCH's exit, after 100 ticks in a row that meet the threshold,
brings the link UP with the trained snapshot. A phase timeout of 5 ms lowers the choice, halves the symbol rate, or ends the training in
FEED_SEARCH; a retrain's starts a training from scratch. The eighth missed marker and the ninth clipped tick retrain with their event, a revert
restores the trained taps and counts TAP_REVERT, and a failed guard retrains. -/
def Obligations.ClassDTraining : Prop :=
  (∀ (s : State) (c : Nat) (w : Word), circuitExists s c = true ∧ (inTraining (feedOf s c) = false ∨ cdCheckOk w = false ∨ cdRole w = false) →
      Completes (.cdTrainWord c w) s fun t => t = s)
  ∧ (∀ (s : State) (c : Nat) (w : Word), circuitExists s c = true ∧ inTraining (feedOf s c) = true ∧ cdCheckOk w = true ∧ cdRole w = true → cdPhase w ≠ feedPhaseCode (feedOf s c).phase ∨ (feedOf s c).phase = .echo
    ∨ (feedOf s c).phase = .duplex ∧ (cdReady w = false ∨ cdSnr w < 32 ∨ (feedOf s c).snrOwn < 32) ∨ (feedOf s c).phase = .select ∧ cdChoice w ≠ choiceOf (feedOf s c) →
      Completes (.cdTrainWord c w) s fun t => feedOf t c = { feedOf s c with snrFar := cdSnr w, farThp := cdThpCap w, farPam := cdPamCap w } ∧ (∀ d, d ≠ c → feedOf t d = feedOf s d) ∧ Alone [.feed] s t)
  ∧ (∀ (s : State) (c : Nat) (w : Word), circuitExists s c = true ∧ inTraining (feedOf s c) = true ∧ cdCheckOk w = true ∧ cdRole w = true ∧ cdPhase w = 5 ∧ (feedOf s c).phase = .switch →
      Completes (.cdTrainWord c w) s fun t => feedOf t c = { feedOf s c with
          snrFar := cdSnr w, farThp := cdThpCap w, farPam := cdPamCap w, wire := { (feedOf s c).wire with upFrom := some (s.clk.now + cdCount w * spanLen (feedOf s c)) } }
        ∧ (∀ d, d ≠ c → feedOf t d = feedOf s d) ∧ Alone [.feed] s t)
  ∧ (∀ (s : State) (c : Nat) (w : Word), circuitExists s c = true ∧ inTraining (feedOf s c) = true ∧ cdCheckOk w = true ∧ cdRole w = true ∧ cdPhase w = 2 → (feedOf s c).phase = .duplex ∧ cdReady w = true ∧ 32 ≤ cdSnr w ∧ 32 ≤ (feedOf s c).snrOwn →
      Completes (.cdTrainWord c w) s fun t =>
        feedOf t c = { selectSettings (circOf s c) { feedOf s c with snrFar := cdSnr w, farThp := cdThpCap w, farPam := cdPamCap w } with
          phase := .select, phaseAt := s.clk.now, wire := { (feedOf s c).wire with upFrom := none } }
        ∧ .feedWord c (headWord (feedOf t c)) ∈ t.out ∧ circOf t c = (if (circOf s c).agc = .fixed then circOf s c else { circOf s c with agc := .frozen, agcBack := .track, gainCmd := none })
        ∧ (∀ d, d ≠ c → feedOf t d = feedOf s d ∧ circOf t d = circOf s d) ∧ Alone [.feed, .circ] s t)
  ∧ (∀ (s : State) (c : Nat) (w : Word), circuitExists s c = true ∧ inTraining (feedOf s c) = true ∧ cdCheckOk w = true ∧ cdRole w = true ∧ cdPhase w = 3 → (feedOf s c).phase = .select ∧ cdChoice w = choiceOf (feedOf s c) →
      Completes (.cdTrainWord c w) s fun t =>
        (feedOf t c).phase = (if (feedOf s c).dn.thp || (feedOf s c).upw.thp then .precode else .switch) ∧ (feedOf t c).phaseAt = s.clk.now
        ∧ (feedOf t c).snrFar = cdSnr w ∧ (feedOf t c).dn = (feedOf s c).dn ∧ (feedOf t c).upw = (feedOf s c).upw ∧ (feedOf t c).state = (feedOf s c).state
        ∧ .feedWord c (headWord (feedOf t c)) ∈ t.out ∧ (∀ d, d ≠ c → feedOf t d = feedOf s d) ∧ (∀ d, circOf t d = circOf s d) ∧ Alone [.feed, .circ] s t)
  ∧ (∀ (s : State) (c : Nat) (w : Word), circuitExists s c = true ∧ inTraining (feedOf s c) = true ∧ cdCheckOk w = true ∧ cdRole w = true ∧ cdPhase w = 4 ∧ (feedOf s c).phase = .precode →
      Completes (.cdTrainWord c w) s fun t =>
        (feedOf t c).taps = (if (feedOf s c).dn.thp = true ∧ cdCount w < 24 then
            (cdCount w, signedOf 16 (cdValue w)) :: (feedOf s c).taps.filter (fun e => e.1 != cdCount w) else (feedOf s c).taps)
        ∧ (feedOf t c).phase = (if cdReady w && tapsComplete { feedOf s c with taps := (feedOf t c).taps } then .switch else .precode)
        ∧ (feedOf t c).dn = (feedOf s c).dn ∧ (feedOf t c).snrFar = cdSnr w ∧ (∀ d, d ≠ c → feedOf t d = feedOf s d) ∧ (∀ d, circOf t d = circOf s d) ∧ Alone [.feed, .circ] s t)
  ∧ (∀ (s : State) (c : Nat), circuitExists s c = true ∧ inTraining (feedOf s c) = true ∧ (feedOf s c).phase = .switch ∧ 100 ≤ (feedOf s c).okRun →
      Completes (.cdSwitchExit c) s fun t =>
        feedOf t c = { feedOf s c with
          state := .up, trainedSnr := (feedOf s c).snrOwn, trainedMse := (feedOf s c).mse, missed := 0, mseRun := 0, drifted := false, reverted := false
          wire := { (feedOf s c).wire with trained := (feedOf s c).wire.now }
          rssi := coupler16 s c (circOf s c).gain (meanSq ((circOf s c).buffer.filter (· != clipCode))) }
        ∧ circOf t c = { circOf s c with
          refSq := meanSq ((circOf s c).buffer.filter (· != clipCode)), refGain := (circOf s c).gain
          agc := if (circOf s c).agc = .fixed then .fixed else .frozen, agcBack := .track }
        ∧ (∀ d, d ≠ c → feedOf t d = feedOf s d ∧ circOf t d = circOf s d) ∧ Alone [.feed, .circ] s t)
  ∧ (∀ (s : State) (c : Nat), circuitExists s c = true ∧ (inTraining (feedOf s c) = false ∨ (feedOf s c).phase ≠ .switch ∨ (feedOf s c).okRun < 100) →
      Completes (.cdSwitchExit c) s fun t => t = s)
  ∧ (∀ (s : State) (c : Nat), circuitExists s c = true ∧ (feedOf s c).phaseAt + 5000 ≤ s.clk.now ∧ (feedOf s c).state = .retrain →
      Completes (.cdPhaseTimeout c) s fun t => BeginsTraining c .training true s t ∧ Alone [.feed, .circ] s t)
  ∧ (∀ (s : State) (c : Nat), circuitExists s c = true ∧ (feedOf s c).phaseAt + 5000 ≤ s.clk.now ∧ (feedOf s c).state = .training ∧ (feedOf s c).phase = .switch →
      Completes (.cdPhaseTimeout c) s fun t =>
          (feedOf t c).state = .training ∧ (feedOf t c).phase = .select ∧ (feedOf t c).phaseAt = s.clk.now ∧ (feedOf t c).lower = (feedOf s c).lower + 1
          ∧ (feedOf t c).soft = [] ∧ (feedOf t c).session = (feedOf s c).session + 1
          ∧ (feedOf t c).dn = (selectSettings (circOf s c) { feedOf s c with lower := (feedOf s c).lower + 1 }).dn
          ∧ (feedOf t c).upw = (selectSettings (circOf s c) { feedOf s c with lower := (feedOf s c).lower + 1 }).upw
          ∧ .feedWord c (headWord (feedOf t c)) ∈ t.out
          ∧ (∀ d, d ≠ c → feedOf t d = feedOf s d ∧ circOf t d = circOf s d) ∧ Alone [.feed, .circ] s t)
  ∧ (∀ (s : State) (c : Nat), circuitExists s c = true ∧ (feedOf s c).phaseAt + 5000 ≤ s.clk.now ∧ (feedOf s c).state = .training ∧ ((feedOf s c).phase = .echo ∨ (feedOf s c).phase = .duplex) ∧ (feedOf s c).fast = true →
      Completes (.cdPhaseTimeout c) s fun t =>
          (feedOf t c).state = .training ∧ (feedOf t c).phase = .echo ∧ (feedOf t c).fast = false ∧ (feedOf t c).startedAt = (feedOf s c).startedAt ∧ (feedOf t c).phaseAt = s.clk.now
          ∧ (feedOf t c).lower = 0 ∧ (feedOf t c).span = effectiveSpan (circuitSpan s c)
          ∧ (∀ d, d ≠ c → feedOf t d = feedOf s d ∧ circOf t d = circOf s d) ∧ Alone [.feed, .circ] s t)
  ∧ (∀ (s : State) (c : Nat), circuitExists s c = true ∧ (feedOf s c).phaseAt + 5000 ≤ s.clk.now ∧ (feedOf s c).state = .training → (feedOf s c).phase = .select ∨ (feedOf s c).phase = .precode ∨ ((feedOf s c).phase ≠ .switch ∧ (feedOf s c).fast = false) →
      Completes (.cdPhaseTimeout c) s fun t =>
          feedOf t c = { leaveData (feedOf s c) with state := .search }
          ∧ circOf t c = bump .trainFail (bumpBy .reasmTimeout ((feedOf s c).openX.toList.length + (feedOf s c).openN.toList.length) (circOf s c))
          ∧ (∀ d, d ≠ c → feedOf t d = feedOf s d ∧ circOf t d = circOf s d) ∧ Alone [.feed, .circ] s t)
  ∧ (∀ (s : State) (c : Nat), circuitExists s c = true ∧ (inTraining (feedOf s c) = false ∨ s.clk.now < (feedOf s c).phaseAt + 5000) →
      Completes (.cdPhaseTimeout c) s fun t => t = s)
  ∧ (∀ (s : State) (c : Nat), circuitExists s c = true ∧ inTraining (feedOf s c) = true ∧ (feedOf s c).startedAt + 200000 ≤ s.clk.now →
      Completes (.cdTrainingTimeout c) s fun t =>
          feedOf t c = { leaveData (feedOf s c) with state := .search }
          ∧ circOf t c = bump .trainFail (bumpBy .reasmTimeout ((feedOf s c).openX.toList.length + (feedOf s c).openN.toList.length) (circOf s c))
          ∧ (∀ d, d ≠ c → feedOf t d = feedOf s d ∧ circOf t d = circOf s d) ∧ Alone [.feed, .circ] s t)
  ∧ (∀ (s : State) (c : Nat), circuitExists s c = true ∧ (inTraining (feedOf s c) = false ∨ s.clk.now < (feedOf s c).startedAt + 200000) →
      Completes (.cdTrainingTimeout c) s fun t => t = s)
  ∧ (∀ (s : State) (c : Nat), circuitExists s c = true ∧ (feedOf s c).state = .search ∧ s.circ.profile ≠ 0 ∧ (feedOf s c).startedAt + 1000000 ≤ s.clk.now →
      Completes (.feedSearchRetry c) s fun t => BeginsTraining c .training true s t ∧ Alone [.feed, .circ] s t)
  ∧ (∀ (s : State) (c : Nat), circuitExists s c = true ∧ ((feedOf s c).state ≠ .search ∨ s.circ.profile = 0 ∨ s.clk.now < (feedOf s c).startedAt + 1000000) →
      Completes (.feedSearchRetry c) s fun t => t = s)
  ∧ (∀ (s : State) (c : Nat), circuitExists s c = true ∧ (feedOf s c).state = .up ∧ 8 ≤ (feedOf s c).missed →
      Completes (.linkLost c) s fun t =>
          BeginsTraining c .retrain (feedOf s c).fast (modCirc c (bump .linkLost) s) t ∧ Logged 0x0045 c s t ∧ SameBut [.feed, .circ, .irq, .mem, .out] s t)
  ∧ (∀ (s : State) (c : Nat), circuitExists s c = true ∧ (feedOf s c).state = .up ∧ 9 ≤ (circOf s c).clipRun →
      Completes (.feedOverload c) s fun t =>
          BeginsTraining c .retrain (feedOf s c).fast (modCirc c (bump .feedOverload) s) t ∧ Logged 0x0044 c s t ∧ SameBut [.feed, .circ, .irq, .mem, .out] s t)
  ∧ (∀ (s : State) (c : Nat), circuitExists s c = true ∧ (feedOf s c).state = .up ∧ (feedOf s c).reverted = true ∧ 1000 ≤ (feedOf s c).mseRun →
      Completes (.tapGuardFail c) s fun t => BeginsTraining c .retrain (feedOf s c).fast s t ∧ Alone [.feed, .circ] s t)
  ∧ (∀ (s : State) (c : Nat), circuitExists s c = true ∧ (feedOf s c).state = .up ∧ ((feedOf s c).drifted = true ∨ 1000 ≤ (feedOf s c).mseRun ∧ (feedOf s c).reverted = false) →
      Completes (.tapRevert c) s fun t =>
          feedOf t c = { feedOf s c with drifted := false, mseRun := 0, reverted := true, wire := { (feedOf s c).wire with now := (feedOf s c).wire.trained } }
          ∧ circOf t c = bump .tapRevert (circOf s c) ∧ (∀ d, d ≠ c → feedOf t d = feedOf s d ∧ circOf t d = circOf s d) ∧ Alone [.feed, .circ] s t)
  ∧ (∀ (s : State) (c : Nat), circuitExists s c = true ∧ ((feedOf s c).state ≠ .up ∨ (feedOf s c).missed < 8) →
      Completes (.linkLost c) s fun t => t = s)
  ∧ (∀ (s : State) (c : Nat), circuitExists s c = true ∧ ((feedOf s c).state ≠ .up ∨ (circOf s c).clipRun < 9) →
      Completes (.feedOverload c) s fun t => t = s)
  ∧ (∀ (s : State) (c : Nat), circuitExists s c = true ∧ ((feedOf s c).state ≠ .up ∨ (feedOf s c).drifted = false ∧ ((feedOf s c).mseRun < 1000 ∨ (feedOf s c).reverted = true)) →
      Completes (.tapRevert c) s fun t => t = s)
  ∧ (∀ (s : State) (c : Nat), circuitExists s c = true ∧ ((feedOf s c).state ≠ .up ∨ (feedOf s c).reverted = false ∨ (feedOf s c).mseRun < 1000) →
      Completes (.tapGuardFail c) s fun t => t = s)

/-- The link comes up only while D3 is ENABLED, in the personality that negotiation and HOST_MODE give, with IDE not yet established. Its loss and a
hot reset disable and clear every ring and leave the frames accepted for them; a hot reset clears the MSI-X table too. A snoop misses. A read of the
granary through the committed decoder answers the 64-byte line with its marker and changes nothing; before it is committed it answers poison. A
write into the HOST region stores its line and its marker and no other byte; into a device-owned region it is refused and counted. -/
def Obligations.HostLinkAndDeviceMemory : Prop :=
  (∀ (s : State) (cxl : Bool), domOn s 3 = true ∧ s.host.up = false →
      Completes (.hostLinkUp cxl) s fun t =>
        t.host = { s.host with up := true, pcieOnly := s.host.hostMode || !cxl, ideNeeded := s.host.ideRequired, ideActive := false, ideFailed := false } ∧ Alone [.host] s t)
  ∧ (∀ (s : State) (cxl : Bool), domOn s 3 = false ∨ s.host.up = true →
      Completes (.hostLinkUp cxl) s fun t => t = s)
  ∧ (∀ (s : State), s.host.up = true ∧ (∀ a, s.aead.run = some a → a.requester ≠ 4) →
      Completes .hostLinkDown s fun t =>
          t.host.up = false ∧ (∀ p ∈ t.host.tx, p.2.state = .disabled ∧ p.2.size = 0 ∧ p.2.base = 0) ∧ (∀ p ∈ t.host.rx, p.2.state = .disabled ∧ p.2.size = 0 ∧ p.2.base = 0)
          ∧ t.host.xdb = [] ∧ t.host.hdmCommitted = false ∧ t.host.ideActive = false ∧ t.link = unbindFrames s.link ∧ t.air = unbindAir s.air ∧ t.irq = { s.irq with msix := t.irq.msix } ∧ SameBut [.host, .link, .air, .irq, .out] s t)
  ∧ (∀ (s : State), s.host.up = true ∧ (∀ a, s.aead.run = some a → a.requester ≠ 4) →
      Completes .hotReset s fun t =>
          t.host.up = false ∧ (∀ p ∈ t.host.tx, p.2.state = .disabled ∧ p.2.size = 0 ∧ p.2.base = 0) ∧ (∀ p ∈ t.host.rx, p.2.state = .disabled ∧ p.2.size = 0 ∧ p.2.base = 0)
          ∧ t.host.xdb = [] ∧ t.host.hdmCommitted = false ∧ t.host.ideActive = false ∧ t.link = unbindFrames s.link ∧ t.air = unbindAir s.air ∧ t.irq = { s.irq with msix := [] } ∧ SameBut [.host, .link, .air, .irq, .out] s t)
  ∧ (∀ (s : State), s.host.up = false →
      Completes .hostLinkDown s fun t => t = s)
  ∧ (∀ (s : State), s.host.up = false →
      Completes .hotReset s fun t => t = { s with irq := { s.irq with msix := [] } })
  ∧ (∀ (s : State) (a : AeadRun), s.host.up = true ∧ s.aead.run = some a ∧ a.requester = 4 →
      Completes .hostLinkDown s fun t => t.host.up = false ∧ Logged 0x0046 0xFFFF s t ∧ t.aead = (aeadFail a 0x08 s).aead)
  ∧ (∀ (s : State) (a : Nat), s.host.up = true ∧ s.host.pcieOnly = false ∧ s.host.ideFailed = false →
      Completes (.h2dSnoop a) s fun t => .snoopMiss a ∈ t.out ∧ Alone [] s t)
  ∧ (∀ (s : State) (a : Nat), s.host.up = false ∨ s.host.pcieOnly = true ∨ s.host.ideFailed = true →
      Completes (.h2dSnoop a) s fun t => t = s)
  ∧ (∀ (s : State) (a : Nat), a < 25769803776 ∧ cxlMemServed s = true ∧ s.host.hdmCommitted = true →
      Completes (.cxlmemHostRead a) s fun t => .cxl (memRead s.mem.granary (64 * (a / 64)) 64) (tabGet false s.mem.poison (a / 64)) ∈ t.out ∧ Alone [] s t)
  ∧ (∀ (s : State) (a : Nat), a < 25769803776 ∧ cxlMemServed s = true ∧ s.host.hdmCommitted = false →
      Completes (.cxlmemHostRead a) s fun t => (∃ bs, .cxl bs true ∈ t.out ∧ bs.length = 64) ∧ t.mem = s.mem ∧ Alone [.clk] s t)
  ∧ (∀ (s : State) (a : Nat), a < 25769803776 ∧ cxlMemServed s = false →
      Completes (.cxlmemHostRead a) s fun t => t = s)
  ∧ (∀ (s : State) (a : Nat) (line : List Byte) (poison : Bool), a < 25769803776 ∧ cxlMemServed s = true ∧ s.host.hdmCommitted = true ∧ regionKindAt s a = 7 ∧ line.length = 64 →
      Completes (.cxlmemHostWrite a line poison) s fun t =>
        memRead t.mem.granary (64 * (a / 64)) 64 = line ∧ (∀ b, b / 64 ≠ a / 64 → tabGet 0 t.mem.granary b = tabGet 0 s.mem.granary b)
        ∧ tabGet false t.mem.poison (a / 64) = poison ∧ (∀ l, l ≠ a / 64 → tabGet false t.mem.poison l = tabGet false s.mem.poison l)
        ∧ t.mem.near = s.mem.near ∧ Alone [.mem] s t)
  ∧ (∀ (s : State) (a : Nat) (line : List Byte) (poison : Bool), a < 25769803776 ∧ cxlMemServed s = true ∧ s.host.hdmCommitted = true ∧ regionKindAt s a ≠ 7 →
      Completes (.cxlmemHostWrite a line poison) s fun t =>
        t.mem.granary = s.mem.granary ∧ t.mem.poison = s.mem.poison ∧ t.mem.violCount = sat32 s.mem.violCount 1 ∧ t.mem.violValid = true
        ∧ t.mem.violAddr = (if s.mem.violValid then s.mem.violAddr else a / 64 * 64) ∧ Logged 0x0040 0 s t ∧ SameBut [.mem, .irq, .out] s t)
  ∧ (∀ (s : State) (a : Nat) (line : List Byte) (poison : Bool), a < 25769803776 ∧ (cxlMemServed s = false ∨ s.host.hdmCommitted = false) →
      Completes (.cxlmemHostWrite a line poison) s fun t => t = s)

/-- A transmit ring whose turn it is fetches one descriptor: a failed fetch faults the ring, a descriptor that R356 refuses completes with its
status, and an accepted one moves the ring's head, counts as accepted, and joins its endpoint's queue. A receive ring delivers its oldest frame into
the next buffer, data first and DONE last, unless no buffer is posted or the host is out of reach; a bad buffer faults the ring. MOD_COUNT
completions, or MOD_TICKS since the oldest, signal the ring's vector. A drain ends in DISABLED, or ENABLED where that was asked for meanwhile. A
failed request faults its ring with the cause that R507 codes. -/
def Obligations.RingsServed : Prop :=
  (∀ (s : State) (q : Nat) (resp : DescFetch), q < 256 ∧ (mayFetch s q = false ∨ turnOf s q = false) →
      Completes (.txDescFetch q resp) s fun t => t = s)
  ∧ (∀ (s : State) (q : Nat) (resp : DescFetch), q < 256 ∧ mayFetch s q = true ∧ turnOf s q = true ∧ resp.desc ≠ .ok ∧ s.irq.log.length < 511 →
      Completes (.txDescFetch q resp) s fun t =>
        txRing t q = { txRing s q with state := .fault, cause := if resp.desc = .timeout then 3 else if resp.desc = .poisoned then 4 else 5 }
        ∧ (∀ r, r ≠ q → txRing t r = txRing s r) ∧ bitOf t.irq.cause 9 = true
        ∧ t.irq.log = s.irq.log ++ [{ code := 0x0042, object := q, tick := s.clk.tick }, { code := 0x0046, object := q, tick := s.clk.tick }]
        ∧ SameBut [.host, .irq, .mem, .out] s t)
  ∧ (∀ (s : State) (q : Nat) (resp : DescFetch), q < 256 ∧ mayFetch s q = true ∧ turnOf s q = true ∧ resp.desc = .ok ∧ resp.write = .ok ∧ s.pair.role ≠ .standby → descStatus s (resp.words.getD 0 0) (resp.words.getD 1 0) (resp.words.getD 3 0) ≠ 0 →
      Completes (.txDescFetch q resp) s fun t =>
        (txRing t q).head = ((txRing s q).head + 1) % max (txRing s q).size 1 ∧ (txRing t q).state = .enabled ∧ (∀ r, r ≠ q → txRing t r = txRing s r)
        ∧ t.pair.hfAccepted = s.pair.hfAccepted + 1 ∧ t.pair.hfReturned = s.pair.hfReturned + 1 ∧ t.pair.hfHeld = s.pair.hfHeld ∧ t.pair.hfDelivered = s.pair.hfDelivered
        ∧ .host (txRing s q).wb.toNat (bytesLE (BitVec.ofNat 64 (((txRing s q).head + 1) % max (txRing s q).size 1))) ∈ t.out
        ∧ Alone [.host, .pair] s t)
  ∧ (∀ (s : State) (q : Nat) (resp : DescFetch) (r : Record), q < 256 ∧ mayFetch s q = true ∧ turnOf s q = true ∧ resp.desc = .ok ∧ resp.write = .ok ∧ resp.body = .ok ∧ s.pair.role ≠ .standby ∧ s.pair.journal = [] → descStatus s (resp.words.getD 0 0) (resp.words.getD 1 0) (resp.words.getD 3 0) = 0 ∧ descDest (resp.words.getD 1 0) ≠ 0xFFF → recordAt s (descCircuit (resp.words.getD 1 0)) (descDest (resp.words.getD 1 0)) = some r →
      Completes (.txDescFetch q resp) s fun t =>
        (txRing t q).head = ((txRing s q).head + 1) % max (txRing s q).size 1 ∧ t.pair.hfAccepted = s.pair.hfAccepted + 1
        ∧ .host (txRing s q).wb.toNat (bytesLE (BitVec.ofNat 64 (((txRing s q).head + 1) % max (txRing s q).size 1))) ∈ t.out
        ∧ SameBut [.host, .pair, .link, .air, .circ, .irq, .keep, .aead, .out] s t)
  ∧ (∀ (s : State) (q : Nat) (resp : DescFetch), q < 256 ∧ mayFetch s q = true ∧ turnOf s q = true ∧ resp.desc = .ok →
      Completes (.txDescFetch q resp) s fun t => Leaves s (takeDesc q resp (takeTurn q s)) t)
  ∧ (∀ (s : State) (q : Nat) (resp : DescFetch), q < 256 ∧ ((rxRing s q).held = [] ∨ ((rxRing s q).state ≠ .enabled ∧ (rxRing s q).state ≠ .draining) ∨ (rxRing s q).head = (rxRing s q).tail ∨ hostReachable s = false) →
      Completes (.rxFrameDeliver q resp) s fun t => t = s)
  ∧ (∀ (s : State) (q : Nat) (resp : DescFetch) (f : RxFrame) (fs : List RxFrame), q < 256 ∧ (rxRing s q).held = f :: fs ∧ ((rxRing s q).state = .enabled ∨ (rxRing s q).state = .draining) ∧ (rxRing s q).head ≠ (rxRing s q).tail → hostReachable s = true ∧ sendsAllowed s = true ∧ resp.desc = .ok ∧ resp.write = .ok ∧ badBuffer s (resp.words.getD 0 0) (resp.words.getD 1 0) = false →
      Completes (.rxFrameDeliver q resp) s fun t =>
        (rxRing t q).held = fs ∧ (rxRing t q).head = ((rxRing s q).head + 1) % max (rxRing s q).size 1 ∧ (rxRing t q).unsignalled = (rxRing s q).unsignalled + 1
        ∧ (∀ r, r ≠ q → rxRing t r = rxRing s r)
        ∧ .host (resp.words.getD 0 0).toNat (rxBytes f) ∈ t.out
        ∧ .host ((rxRing s q).base.toNat + 32 * (rxRing s q).head + 16) (bytesLE (rxWord2 f) ++ bytesLE (rxWord3 f)) ∈ t.out
        ∧ .host (rxRing s q).wb.toNat (bytesLE (BitVec.ofNat 64 (((rxRing s q).head + 1) % max (rxRing s q).size 1))) ∈ t.out
        ∧ ((rxRing s q).history = false → t.mem = s.mem) ∧ Alone [.host, .mem] s t)
  ∧ (∀ (s : State) (q : Nat) (resp : DescFetch) (f : RxFrame) (fs : List RxFrame), q < 256 ∧ (rxRing s q).held = f :: fs ∧ (rxRing s q).state = .enabled ∧ (rxRing s q).head ≠ (rxRing s q).tail → hostReachable s = true ∧ sendsAllowed s = true ∧ resp.desc = .ok ∧ badBuffer s (resp.words.getD 0 0) (resp.words.getD 1 0) = true →
      Completes (.rxFrameDeliver q resp) s fun t =>
        rxRing t q = { rxRing s q with state := .fault, cause := 2 } ∧ (∀ r, r ≠ q → rxRing t r = rxRing s r) ∧ bitOf t.irq.cause 9 = true ∧ Logged 0x0042 (256 + q) s t
        ∧ SameBut [.host, .irq, .mem, .out] s t)
  ∧ (∀ (s : State) (rx : Bool) (q : Nat), q < 256 ∧ 0 < (ringOf rx s q).unsignalled ∧ 0 < (ringOf rx s q).modCount ∧ (ringOf rx s q).modCount ≤ (ringOf rx s q).unsignalled →
      Completes (.msixModCount rx q) s fun t =>
          ringOf rx t q = { ringOf rx s q with unsignalled := 0 }
          ∧ (if (tabGet {} s.irq.msix (ringOf rx s q).vector).masked = true then (tabGet {} t.irq.msix (ringOf rx s q).vector).pend = true
             else s.host.up = true → .msix (ringOf rx s q).vector (tabGet {} s.irq.msix (ringOf rx s q).vector).addr (tabGet {} s.irq.msix (ringOf rx s q).vector).data ∈ t.out)
          ∧ (∀ r, r ≠ q → ringOf rx t r = ringOf rx s r) ∧ ringOf (!rx) t = ringOf (!rx) s ∧ Alone [.host] s t)
  ∧ (∀ (s : State) (rx : Bool) (q : Nat), q < 256 ∧ 0 < (ringOf rx s q).unsignalled ∧ 0 < (ringOf rx s q).modCount ∧ (ringOf rx s q).oldest + (ringOf rx s q).modTicks ≤ s.clk.now →
      Completes (.msixModTicks rx q) s fun t =>
          ringOf rx t q = { ringOf rx s q with unsignalled := 0 }
          ∧ (if (tabGet {} s.irq.msix (ringOf rx s q).vector).masked = true then (tabGet {} t.irq.msix (ringOf rx s q).vector).pend = true
             else s.host.up = true → .msix (ringOf rx s q).vector (tabGet {} s.irq.msix (ringOf rx s q).vector).addr (tabGet {} s.irq.msix (ringOf rx s q).vector).data ∈ t.out)
          ∧ (∀ r, r ≠ q → ringOf rx t r = ringOf rx s r) ∧ ringOf (!rx) t = ringOf (!rx) s ∧ Alone [.host] s t)
  ∧ (∀ (s : State) (rx : Bool) (q : Nat), q < 256 ∧ ((ringOf rx s q).unsignalled = 0 ∨ (ringOf rx s q).modCount = 0 ∨ (ringOf rx s q).unsignalled < (ringOf rx s q).modCount) →
      Completes (.msixModCount rx q) s fun t => t = s)
  ∧ (∀ (s : State) (rx : Bool) (q : Nat), q < 256 ∧ ((ringOf rx s q).unsignalled = 0 ∨ (ringOf rx s q).modCount = 0 ∨ s.clk.now < (ringOf rx s q).oldest + (ringOf rx s q).modTicks) →
      Completes (.msixModTicks rx q) s fun t => t = s)
  ∧ (∀ (s : State) (rx : Bool) (q : Nat), q < 256 ∧ (ringOf rx s q).state = .draining → (if rx then (ringOf rx s q).head = (ringOf rx s q).tail ∨ (ringOf rx s q).held = [] ∨ (ringOf rx s q).cause ≠ 0 else (ringOf rx s q).accepted = 0) →
      Completes (.ringDrainEnd rx q) s fun t =>
          ringOf rx t q = (if (ringOf rx s q).enableDue then
            { ringOf rx s q with state := .enabled, enableDue := false, tail := 0, head := 0, cause := 0, unsignalled := 0, express := [] }
            else { ringOf rx s q with state := .disabled, express := [] })
          ∧ (∀ r, r ≠ q → ringOf rx t r = ringOf rx s r) ∧ ringOf (!rx) t = ringOf (!rx) s ∧ Alone [.host] s t)
  ∧ (∀ (s : State) (rx : Bool) (q : Nat), q < 256 ∧ ((ringOf rx s q).state ≠ .draining ∨ (if rx then (ringOf rx s q).head ≠ (ringOf rx s q).tail ∧ (ringOf rx s q).held ≠ [] ∧ (ringOf rx s q).cause = 0 else (ringOf rx s q).accepted ≠ 0)) →
      Completes (.ringDrainEnd rx q) s fun t => t = s)
  ∧ (∀ (s : State) (q : Nat), q < 256 ∧ fetching s q = true ∧ s.irq.log.length < 511 →
      Completes (.hostRequestFailed (.txDescriptor q)) s fun t =>
        txRing t q = { txRing s q with state := .fault, cause := if s.host.ideFailed then 9 else 5 } ∧ (∀ r, r ≠ q → txRing t r = txRing s r) ∧ t.host.rx = s.host.rx
        ∧ bitOf t.irq.cause 9 = true ∧ t.irq.log = s.irq.log ++ [{ code := 0x0042, object := q, tick := s.clk.tick }, { code := 0x0046, object := q, tick := s.clk.tick }]
        ∧ SameBut [.host, .irq, .mem, .out] s t)
  ∧ (∀ (s : State) (q : Nat), q < 256 ∧ ((rxRing s q).state = .enabled ∨ (rxRing s q).state = .draining) ∧ s.host.up = true ∧ domOn s 3 = true ∧ s.irq.log.length < 511 →
      Completes (.hostRequestFailed (.rxDescriptor q)) s fun t =>
        rxRing t q = { rxRing s q with state := if (rxRing s q).state = .enabled then .fault else (rxRing s q).state, cause := if s.host.ideFailed then 9 else 5 }
        ∧ (∀ r, r ≠ q → rxRing t r = rxRing s r) ∧ t.host.tx = s.host.tx ∧ bitOf t.irq.cause 9 = true ∧ t.irq.log = s.irq.log ++ [{ code := 0x0042, object := 256 + q, tick := s.clk.tick }, { code := 0x0046, object := 256 + q, tick := s.clk.tick }]
        ∧ SameBut [.host, .irq, .mem, .out] s t)
  ∧ (∀ (s : State) (req : HostRequest), Completes (.hostRequestFailed req) s fun t => Leaves s (requestFailed false req s) t)
  ∧ (∀ (s : State) (q : Nat), fetching s q = false →
      Completes (.hostRequestFailed (.txDescriptor q)) s fun t => t = s)
  ∧ (∀ (s : State) (q : Nat), q < 256 ∧ fetching s q = true ∧ s.irq.log.length < 511 →
      Completes (.cxlCompletionTimeout (.txDescriptor q)) s fun t =>
        txRing t q = { txRing s q with state := .fault, cause := if s.host.ideFailed then 9 else 3 } ∧ (∀ r, r ≠ q → txRing t r = txRing s r) ∧ t.host.rx = s.host.rx
        ∧ bitOf t.irq.cause 9 = true ∧ t.irq.log = s.irq.log ++ [{ code := 0x0042, object := q, tick := s.clk.tick }, { code := 0x0046, object := q, tick := s.clk.tick }]
        ∧ SameBut [.host, .irq, .mem, .out] s t)
  ∧ (∀ (s : State) (q : Nat), q < 256 ∧ ((rxRing s q).state = .enabled ∨ (rxRing s q).state = .draining) ∧ s.host.up = true ∧ domOn s 3 = true ∧ s.irq.log.length < 511 →
      Completes (.cxlCompletionTimeout (.rxDescriptor q)) s fun t =>
        rxRing t q = { rxRing s q with state := if (rxRing s q).state = .enabled then .fault else (rxRing s q).state, cause := if s.host.ideFailed then 9 else 3 }
        ∧ (∀ r, r ≠ q → rxRing t r = rxRing s r) ∧ t.host.tx = s.host.tx ∧ bitOf t.irq.cause 9 = true ∧ t.irq.log = s.irq.log ++ [{ code := 0x0042, object := 256 + q, tick := s.clk.tick }, { code := 0x0046, object := 256 + q, tick := s.clk.tick }]
        ∧ SameBut [.host, .irq, .mem, .out] s t)
  ∧ (∀ (s : State) (req : HostRequest), Completes (.cxlCompletionTimeout req) s fun t => Leaves s (requestFailed true req s) t)
  ∧ (∀ (s : State) (q : Nat), fetching s q = false →
      Completes (.cxlCompletionTimeout (.txDescriptor q)) s fun t => t = s)

/-- A good PPS edge whose second is counted adds one to the source's run, qualifies it from the fourth on, and measures its phase error: the edge's
phase less PPS_DELAY, and whole seconds where the device's second is another; its bound is SRC_BOUND plus 2 ns. A bad edge, or any edge of a
disqualified source, restarts the run. A qualified source beyond JUMP_LIMIT in a trusted state is disqualified, and SOURCE_JUMP is counted and
logged; it may qualify again from zero at the end of its 60 s. A PPS pair without an edge for 1.1 s, a FREQ input without one for 1 us, the PEER
source without an exchange for 100 ms and the HOST source without an offset for 3 s lose their qualification, and a pair forgets its second too;
sooner than that nothing happens. A time message outside its window or with a bad CRC is counted in TOD_ERR and nothing else; one of a reserved type
does nothing; a good one labels the pairs it names, and where it changes UTC_OFFSET or the leap announcement every endpoint that is sent to gets a
TIME_INFO. TOD_OUT sends 24 bytes that label the next edge. A peer exchange adds its offset to the second's, as the role of the PEER source's port
gives it, and nothing where that port holds no matching stamps. -/
def Obligations.TimeSources : Prop :=
  (∀ (s : State) (i n : Nat) (obs : PpsObs) (p : Int) (q : Bool), i < 2 ∧ (labelsOf s i).waiting = none ∧ (labelsOf s i).sec = some n → p = obs.phase - (if i = 0 then s.tku.settings.ppsDelay0 else s.tku.settings.ppsDelay1 : Nat) + ((nearSec s.tku.devUs : Int) - (n + 1 : Nat)) * 16000000000 → obs.freqOk = true ∧ obs.alignOk = true ∧ obs.intervalOk = true ∧ (srcOf s (i + 1)).disq = false → q = ((srcOf s (i + 1)).qualified || decide (3 ≤ (srcOf s (i + 1)).run)) → s.tku.state = .acquire ∨ q = false ∨ p.natAbs ≤ s.tku.settings.jumpLimit * 16 →
      Completes (.ppsInEdge i obs) s fun t =>
        srcOf t (i + 1) = { srcOf s (i + 1) with run := (srcOf s (i + 1)).run + 1, qualified := q, phase := p, fresh := true, lastAt := s.clk.now
                                                 bound := (if i = 0 then s.tku.settings.srcBound0 else s.tku.settings.srcBound1) + 2
                                                 traceable := (srcOf t (i + 1)).traceable }
        ∧ (labelsOf t i).sec = some (n + 1) ∧ Alone [.tku] s t)
  ∧ (∀ (s : State) (i n : Nat) (obs : PpsObs) (p : Int) (q : Bool), i < 2 ∧ (labelsOf s i).waiting = none ∧ (labelsOf s i).sec = some n → p = obs.phase - (if i = 0 then s.tku.settings.ppsDelay0 else s.tku.settings.ppsDelay1 : Nat) + ((nearSec s.tku.devUs : Int) - (n + 1 : Nat)) * 16000000000 → obs.freqOk = true ∧ obs.alignOk = true ∧ obs.intervalOk = true ∧ (srcOf s (i + 1)).disq = false → q = ((srcOf s (i + 1)).qualified || decide (3 ≤ (srcOf s (i + 1)).run)) → s.tku.state ≠ .acquire ∧ q = true ∧ s.tku.settings.jumpLimit * 16 < p.natAbs →
      Completes (.ppsInEdge i obs) s fun t =>
        (srcOf t (i + 1)).qualified = false ∧ (srcOf t (i + 1)).disq = true ∧ (srcOf t (i + 1)).disqAt = s.clk.now ∧ (srcOf t (i + 1)).run = 0
        ∧ t.tku.jumps = sat32 s.tku.jumps 1 ∧ bitOf t.tku.events 1 = true ∧ Logged 0x0051 0 s t ∧ SameBut [.tku, .ev, .irq, .mem, .out] s t)
  ∧ (∀ (s : State) (i n : Nat) (obs : PpsObs) (p : Int), i < 2 ∧ (labelsOf s i).waiting = none ∧ (labelsOf s i).sec = some n → p = obs.phase - (if i = 0 then s.tku.settings.ppsDelay0 else s.tku.settings.ppsDelay1 : Nat) + ((nearSec s.tku.devUs : Int) - (n + 1 : Nat)) * 16000000000 → (obs.freqOk = false ∨ obs.alignOk = false ∨ (srcOf s (i + 1)).disq = true) ∧ (srcOf s (i + 1)).qualified = false →
      Completes (.ppsInEdge i obs) s fun t => (srcOf t (i + 1)).run = 0 ∧ (srcOf t (i + 1)).qualified = false ∧ (srcOf t (i + 1)).phase = p ∧ Alone [.tku] s t)
  ∧ (∀ (s : State) (i : Nat), i < 2 ∧ (srcOf s (i + 1)).lastAt + 1100000 ≤ s.clk.now →
      Completes (.ppsInLoss i) s fun t =>
        (srcOf t (i + 1)).qualified = false ∧ (srcOf t (i + 1)).run = 0 ∧ (srcOf t (i + 1)).fresh = false ∧ (labelsOf t i).sec = none
        ∧ (∀ k, k ≠ i + 1 → srcOf t k = srcOf s k) ∧ (∀ j, j ≠ i → labelsOf t j = labelsOf s j) ∧ Alone [.tku] s t)
  ∧ (∀ (s : State) (i : Nat), i < 2 ∧ s.clk.now < (srcOf s (i + 1)).lastAt + 1100000 →
      Completes (.ppsInLoss i) s fun t => t = s)
  ∧ (∀ (s : State) (i : Nat), i < 2 →
      Completes (.freqInLoss i) s fun t =>
        (srcOf t (i + 1)).qualified = false ∧ (srcOf t (i + 1)).run = 0 ∧ (srcOf t (i + 1)).fresh = false ∧ (labelsOf t i).sec = none
        ∧ (∀ k, k ≠ i + 1 → srcOf t k = srcOf s k) ∧ (∀ j, j ≠ i → labelsOf t j = labelsOf s j) ∧ Alone [.tku] s t)
  ∧ (∀ (s : State), (srcOf s 3).lastAt + 100000 ≤ s.clk.now →
      Completes .peerSourceLoss s fun t => (srcOf t 3).qualified = false ∧ (srcOf t 3).run = 0 ∧ (∀ k, k ≠ 3 → srcOf t k = srcOf s k) ∧ Alone [.tku] s t)
  ∧ (∀ (s : State), s.clk.now < (srcOf s 3).lastAt + 100000 →
      Completes .peerSourceLoss s fun t => t = s)
  ∧ (∀ (s : State), (srcOf s 4).lastAt + 3000000 ≤ s.clk.now →
      Completes .hostSourceLoss s fun t => (srcOf t 4).qualified = false ∧ (srcOf t 4).run = 0 ∧ (∀ k, k ≠ 4 → srcOf t k = srcOf s k) ∧ Alone [.tku] s t)
  ∧ (∀ (s : State), s.clk.now < (srcOf s 4).lastAt + 3000000 →
      Completes .hostSourceLoss s fun t => t = s)
  ∧ (∀ (s : State) (k : Nat), 1 ≤ k ∧ k ≤ 4 ∧ (srcOf s k).disq = true ∧ (srcOf s k).disqAt + 60000000 ≤ s.clk.now →
      Completes (.jumpDisqualifyEnd k) s fun t => srcOf t k = { srcOf s k with disq := false, run := 0 } ∧ (∀ j, j ≠ k → srcOf t j = srcOf s j) ∧ Alone [.tku] s t)
  ∧ (∀ (s : State) (k : Nat), 1 ≤ k ∧ k ≤ 4 ∧ ((srcOf s k).disq = false ∨ s.clk.now < (srcOf s k).disqAt + 60000000) →
      Completes (.jumpDisqualifyEnd k) s fun t => t = s)
  ∧ (∀ (s : State) (m : List Byte) (early : Nat), m.length ≠ 24 ∨ beField m 0 2 ≠ 0x4757 ∨ beField m 22 2 ≠ todCrc m ∨ early < 10 ∨ 900 < early →
      Completes (.todInMessage m early) s fun t => t = { s with tku := { s.tku with todErr := sat32 s.tku.todErr 1 } })
  ∧ (∀ (s : State) (m : List Byte) (early : Nat), m.length = 24 ∧ beField m 0 2 = 0x4757 ∧ beField m 22 2 = todCrc m ∧ 10 ≤ early ∧ early ≤ 900 → beField m 2 1 ≠ 0x01 ∨ beField m 3 1 ≠ 0x12 →
      Completes (.todInMessage m early) s fun t => t = s)
  ∧ (∀ (s : State) (m : List Byte) (early : Nat), m.length = 24 ∧ beField m 0 2 = 0x4757 ∧ beField m 22 2 = todCrc m ∧ 10 ≤ early ∧ early ≤ 900 → beField m 2 1 = 0x01 ∧ beField m 3 1 = 0x12 → s.tku.utcOffset = signedOf 16 (beField m 10 2) ∧ s.tku.leap = beField m 12 1 / 64 ∧ s.tku.leapAt = beField m 13 6 →
      Completes (.todInMessage m early) s fun t =>
        (∀ i, i < 2 → labelsOf t i = if bitOf (BitVec.ofNat 64 (beField m 20 1)) i then
          { labelsOf s i with waiting := some (beField m 4 6, beField m 19 1), todAge := 0, todTrace := beField m 19 1 / 32 % 2 == 1 } else labelsOf s i)
        ∧ t.tku.src = s.tku.src ∧ Alone [.tku] s t)
  ∧ (∀ (s : State) (m : List Byte) (early : Nat), m.length = 24 ∧ beField m 0 2 = 0x4757 ∧ beField m 22 2 = todCrc m ∧ 10 ≤ early ∧ early ≤ 900 → beField m 2 1 = 0x01 ∧ beField m 3 1 = 0x12 →
      Completes (.todInMessage m early) s fun t =>
        Leaves s (todAccepted m s) t ∧ t.tku.utcOffset = signedOf 16 (beField m 10 2) ∧ t.tku.leap = beField m 12 1 / 64 ∧ t.tku.leapAt = beField m 13 6)
  ∧ (∀ (s : State), Completes .todOutSend s fun t => (∃ m, .tod m ∈ t.out ∧ m.length = 24 ∧ m.take 4 = [0x47, 0x57, 0x01, 0x12]
        ∧ beField m 4 6 = (s.tku.devUs / 1000000 + 1) % 2 ^ 48 ∧ beField m 19 1 = timeQual s % 256 ∧ beField m 20 1 = 3) ∧ Alone [] s t)
  ∧ (∀ (s : State) (b : Nat), timePort s = none →
      Completes (.peerExchange b) s fun t => t = s)
  ∧ (∀ (s : State) (b m : Nat), timePort s = some m → (if peerRoleOf s m = 2 then timePeerOffset (portOf s (32 + m)) else pairOffset s (portOf s (32 + m)) b) = none →
      Completes (.peerExchange b) s fun t => t = s)
  ∧ (∀ (s : State) (b m : Nat) (o : Int), timePort s = some m → (if peerRoleOf s m = 2 then timePeerOffset (portOf s (32 + m)) else pairOffset s (portOf s (32 + m)) b) = some o →
      Completes (.peerExchange b) s fun t =>
        t.tku.peerOffsets = s.tku.peerOffsets ++ [o] ∧ srcOf t 3 = { srcOf s 3 with run := (srcOf s 3).run + 1, lastAt := s.clk.now }
        ∧ (∀ k, k ≠ 3 → srcOf t k = srcOf s k) ∧ Alone [.tku] s t)

/-- At each second the settings and peer roles that wait come into force, every measurement of the second is used up, and the second's evidence
record falls due where a ring is named. LOCKED with no source qualified becomes HOLDOVER: SELECTED is none, B_TKU at entry is kept, and
SOURCE_SWITCH and HOLDOVER_ENTRY are recorded and logged. The fitted model is written to its words of the keep store only after 24 hours LOCKED and
while no word is WORN, and 24 hours must pass again before the next. A record due goes to slot PROD mod COUNT and PROD advances; with the ring full
or the host out of reach it is dropped and EV_DROP raised, and one not written by the tick of S + 2 is abandoned with EV_LATE: RECORD_SEQ advances
in every case. A mark is written each 2^20 records. -/
def Obligations.TimeSecondsAndEvidence : Prop :=
  (∀ (s : State), Completes .tkuSecond s fun t =>
        (∀ k, 1 ≤ k → k ≤ 4 → (srcOf t k).fresh = false) ∧ t.tku.settings = s.tku.settingsDue.getD s.tku.settings ∧ t.tku.settingsDue = none
        ∧ t.tku.peerRole = s.tku.peerRoleDue.getD s.tku.peerRole ∧ t.tku.peerRoleDue = none ∧ t.tku.taiDue = none ∧ t.ev.eventsSec = 0
        ∧ (if s.ev.named then ∃ d, t.ev.due = s.ev.due ++ [(s.tku.devUs / 1000000, d)] else t.ev.due = s.ev.due)
        ∧ SameBut [.clk, .tku, .ev, .pair, .link, .irq, .mem, .out] s t)
  ∧ (∀ (s : State), s.tku.state = .locked ∧ s.tku.selected ≠ 0 ∧ (∀ k, (srcOf s k).qualified = false) ∧ s.tku.peerForced = false ∧ s.tku.peerOffsets = [] → s.tku.settingsDue = none ∧ s.tku.peerRoleDue = none ∧ s.link.rangeDue = none →
      Completes .tkuSecond s fun t =>
        t.tku.state = .holdover ∧ t.tku.selected = 0 ∧ t.tku.holdSeconds = 0 ∧ t.tku.holdEntry = bTku s ∧ t.tku.holdTrace = traceable s
        ∧ t.tku.switches = sat32 s.tku.switches 1 ∧ bitOf t.tku.events 0 = true ∧ bitOf t.tku.events 3 = true
        ∧ (s.irq.log.length < 511 → t.irq.log = s.irq.log ++ [{ code := 0x0050, object := 0, tick := s.clk.tick }, { code := 0x0053, object := 0, tick := s.clk.tick }]))
  ∧ (∀ (s : State) (fit : Model), s.tku.state = .locked ∧ 86400 ≤ s.tku.lockedFor ∧ writable s [256, 257, 258, 259, 260] = true →
      Completes (.modelWrite fit) s fun t =>
        t.tku = { s.tku with model := some fit, lockedFor := s.tku.lockedFor - 86400 } ∧ keepQueued t 256 = BitVec.ofNat 64 fit.fitTime
        ∧ keepQueued t 257 = BitVec.ofInt 64 fit.f0 ∧ keepQueued t 258 = BitVec.ofInt 64 fit.age
        ∧ keepQueued t 259 = fieldAt 63 32 fit.uf ||| fieldAt 31 0 fit.ua ∧ Alone [.tku, .keep] s t)
  ∧ (∀ (s : State) (fit : Model), s.tku.state ≠ .locked ∨ s.tku.lockedFor < 86400 ∨ writable s [256, 257, 258, 259, 260] = false →
      Completes (.modelWrite fit) s fun t => t = s)
  ∧ (∀ (s : State) (sec : Nat) (d : List Word) (ds : List (Nat × List Word)), s.ev.due = (sec, d) :: ds ∧ s.ev.started = true ∧ evidenceFull s = false ∧ hostReachable s = true →
      Completes .evidenceRecord s fun t =>
        (∃ r, .host (s.ev.base.toNat + 512 * (s.ev.prod % max s.ev.count 1)) (wordsBytes r) ∈ t.out ∧ r.getD 1 0 = BitVec.ofNat 64 s.ev.seq ∧ r.length = 64)
        ∧ t.ev.prod = (s.ev.prod + 1) % 4294967296 ∧ t.ev.seq = s.ev.seq + 1 ∧ t.ev.due = ds ∧ bitOf t.irq.cause 13 = true
        ∧ SameBut [.clk, .aead, .ev, .irq, .out] s t)
  ∧ (∀ (s : State) (sec : Nat) (d : List Word) (ds : List (Nat × List Word)), s.ev.due = (sec, d) :: ds ∧ s.ev.started = true ∧ (evidenceFull s = true ∨ hostReachable s = false) →
      Completes .evidenceRecord s fun t =>
        t.ev.prod = s.ev.prod ∧ t.ev.seq = s.ev.seq + 1 ∧ t.ev.due = ds ∧ bitOf t.tku.events 5 = true ∧ Logged 0x0054 0 s t
        ∧ SameBut [.clk, .aead, .ev, .tku, .irq, .mem, .out] s t)
  ∧ (∀ (s : State) (sec : Nat) (d : List Word) (ds : List (Nat × List Word)), s.ev.due = (sec, d) :: ds ∧ s.ev.started = true ∧ sec + 2 ≤ s.tku.devUs / 1000000 →
      Completes .evLate s fun t =>
        t.ev.prod = s.ev.prod ∧ t.ev.seq = s.ev.seq + 1 ∧ t.ev.due = ds ∧ bitOf t.tku.events 6 = true ∧ Logged 0x0055 0 s t
        ∧ SameBut [.clk, .aead, .ev, .tku, .irq, .mem, .out] s t)
  ∧ (∀ (s : State) (sec : Nat) (d : List Word) (ds : List (Nat × List Word)), s.ev.due = (sec, d) :: ds ∧ s.tku.devUs / 1000000 < sec + 2 →
      Completes .evLate s fun t => t = s)
  ∧ (∀ (s : State), s.ev.due = [] →
      Completes .evidenceRecord s fun t => t = s)
  ∧ (∀ (s : State), s.ev.due = [] →
      Completes .evLate s fun t => t = s)
  ∧ (∀ (s : State) (sec : Nat) (d : List Word) (ds : List (Nat × List Word)), s.ev.due = (sec, d) :: ds ∧ s.ev.started = false ∧ evidenceFull s = false ∧ hostReachable s = true →
      Completes .evidenceRecord s fun t =>
        t.ev.started = true ∧ t.ev.mark = (keepQueued s 1601).toNat + 1048576 ∧ t.ev.seq = t.ev.mark + 1
        ∧ keepQueued t 1601 = BitVec.ofNat 64 t.ev.mark ∧ t.ev.due = ds ∧ SameBut [.clk, .aead, .keep, .ev, .irq, .out] s t)
  ∧ (∀ (s : State), s.ev.started = true ∧ s.ev.mark + 1048576 ≤ s.ev.seq →
      Completes .recordSeqMarkWrite s fun t => t.ev = { s.ev with mark := s.ev.seq } ∧ keepQueued t 1601 = BitVec.ofNat 64 s.ev.seq ∧ Alone [.ev, .keep] s t)
  ∧ (∀ (s : State), s.ev.started = false ∨ s.ev.seq < s.ev.mark + 1048576 →
      Completes .recordSeqMarkWrite s fun t => t = s)

/-- Firmware's list for the next superframe is held until its close; after 4 superframes without one the list reused is empty. A close fixes the
next length, within a tick of the one before it where that lies within the limits of MAINS_NOM, and takes only grants without a reserved encoding
that lie in the data region, meet no other grant of their circuit and band, and cover no express slot in Class A. Before the rejoin window begins no
close takes place, and before the end of the superframe no boundary. At the boundary after a close the number rises by one, T0 moves by the length
in progress and the length fixed at the close is in force; the first superframe after D28 is ENABLED begins with the L_nom of its MAINS_NOM, in
FREE. Without a valid crossing the timer falls to FREE and counts SF_LOCK_LOSS. Chaff counts are halved every 2^CHAFF_AGE superframes. The number is
marked in word 1600 each 2^20 superframes, and one word of the summary ring is written each 2^10. -/
def Obligations.GrantListsAndSuperframes : Prop :=
  (∀ (s : State) (n : Nat) (list : List Grant), counting s = true → n = s.sf.number + 1 → s.sf.closed = false →
      Completes (.grantListHandover n list) s fun t => t = { s with sf := { s.sf with handed := some list } })
  ∧ (∀ (s : State) (n : Nat) (list : List Grant), counting s = false ∨ n ≠ s.sf.number + 1 ∨ s.sf.closed = true →
      Completes (.grantListHandover n list) s fun t => t = s)
  ∧ (∀ (s : State), 4 ≤ s.sf.reuse → s.sf.handed = none →
      Completes .grantListReuseExpiry s fun t => t = { s with sf := { s.sf with lastList := [] } })
  ∧ (∀ (s : State), s.sf.reuse < 4 ∨ s.sf.handed ≠ none →
      Completes .grantListReuseExpiry s fun t => t = s)
  ∧ (∀ (s : State), counting s = true ∧ s.sf.closed = false ∧ s.sf.t0 + 25 * nFixOf s.sf.mainsNom ≤ s.clk.now →
      Completes .grantListClose s fun t =>
        t.sf.closed = true ∧ t.sf.number = s.sf.number ∧ t.sf.t0 = s.sf.t0 ∧ t.sf.len = s.sf.len ∧ t.sf.mainsNom = s.sf.mainsDue.getD s.sf.mainsNom ∧ t.sf.mainsDue = none
        ∧ (∃ l, t.sf.lenNext = some l ∧ (s.sf.mainsDue.isSome = true → l = lNomOf t.sf.mainsNom)
          ∧ (s.sf.mainsDue = none → lMinOf s.sf.mainsNom ≤ s.sf.len ∧ s.sf.len ≤ lMaxOf s.sf.mainsNom →
              lMinOf s.sf.mainsNom ≤ l ∧ l ≤ lMaxOf s.sf.mainsNom ∧ s.sf.len ≤ l + 1 ∧ l ≤ s.sf.len + 1))
        ∧ (sendsAllowed s = true → ∀ g ∈ t.sf.grantsNext,
            grantCoded g = true ∧ grantPlaced (nFixOf t.sf.mainsNom) g = true ∧ (grantBand g = 1 → coversExpress g = false))
        ∧ (sendsAllowed s = true → t.sf.grantsNext.Pairwise (fun g h => grantsMeet h g = false))
        ∧ (sendsAllowed s = true → t.sf.handed = none ∧ (s.sf.handed.isSome = true → t.sf.reuse = 0)
            ∧ (s.sf.handed = none → t.sf.lastList = s.sf.lastList ∧ t.sf.reuse = min (s.sf.reuse + 1) 5))
        ∧ (sendsAllowed s = false → t.sf.grantsNext = s.sf.grantsNext))
  ∧ (∀ (s : State), counting s = false ∨ s.sf.closed = true ∨ s.clk.now < s.sf.t0 + 25 * nFixOf s.sf.mainsNom →
      Completes .grantListClose s fun t => t = s)
  ∧ (∀ (s : State), domOn s 28 = true ∧ s.sf.running = true ∧ s.sf.closed = true ∧ s.sf.t0 + s.sf.len ≤ s.clk.now →
      Completes .superframeBoundary s fun t =>
        t.sf.number = (s.sf.number + 1) % 1099511627776 ∧ t.sf.t0 = s.sf.t0 + s.sf.len ∧ t.sf.lenPrev = s.sf.len ∧ t.sf.len = s.sf.lenNext.getD s.sf.len
        ∧ t.sf.lenNext = none ∧ t.sf.closed = false ∧ t.sf.grantsNext = [] ∧ t.sf.state = s.sf.state ∧ t.sf.mark = s.sf.mark)
  ∧ (∀ (s : State), domOn s 28 = true ∧ s.sf.running = false →
      Completes .superframeBoundary s fun t =>
        t.sf = { s.sf with running := true, t0 := s.clk.now, len := lNomOf s.sf.mainsNom, lenPrev := lNomOf s.sf.mainsNom, lenNext := none, state := .free, lockRun := 0
                           phi := 0, period := 0, closed := false }
        ∧ SameBut [.sf, .port, .sec, .aead, .keep, .clk, .irq, .out] s t)
  ∧ (∀ (s : State), domOn s 28 = false ∨ s.sf.running = true ∧ (s.sf.closed = false ∨ s.clk.now < s.sf.t0 + s.sf.len) →
      Completes .superframeBoundary s fun t => t = s)
  ∧ (∀ (s : State), s.sf.state ≠ .free → chosenRef s = none →
      Completes .sfRefLost s fun t =>
        t.sf = { s.sf with state := .free, ref := none, lockRun := 0, lockLoss := sat32 s.sf.lockLoss 1 } ∧ Logged 0x0022 0 s t ∧ SameBut [.sf, .irq, .mem, .out] s t)
  ∧ (∀ (s : State), s.sf.state = .free ∨ (chosenRef s).isSome = true →
      Completes .sfRefLost s fun t => t = s)
  ∧ (∀ (s : State) (c : Nat), circuitExists s c = true → circuitActive s c = true → 2 ^ (circOf s c).set.chaffAge ≤ (circOf s c).sinceHalving →
      Completes (.chaffAgeHalving c) s fun t =>
        (∀ b, tabGet 0 (circOf t c).bins b = tabGet 0 (circOf s c).bins b / 2) ∧ (circOf t c).sinceHalving = 0 ∧ (circOf t c).noisy = noisyMarks (circOf t c)
        ∧ (∀ d, d ≠ c → circOf t d = circOf s d) ∧ Alone [.circ] s t)
  ∧ (∀ (s : State) (c : Nat), circuitExists s c = true → circuitActive s c = false ∨ (circOf s c).sinceHalving < 2 ^ (circOf s c).set.chaffAge →
      Completes (.chaffAgeHalving c) s fun t => t = s)
  ∧ (∀ (s : State), s.sf.running = true → s.sf.mark + 1048576 ≤ s.sf.number →
      Completes .sfMarkWrite s fun t =>
        t.sf = { s.sf with mark := s.sf.number } ∧ keepQueued t 1600 = BitVec.ofNat 64 s.sf.number ∧ Alone [.sf, .keep] s t)
  ∧ (∀ (s : State), s.sf.running = false ∨ s.sf.number < s.sf.mark + 1048576 →
      Completes .sfMarkWrite s fun t => t = s)
  ∧ (∀ (s : State), s.sf.running = true → s.sf.number % 1024 = 0 →
      Completes .endpointSummaryWrite s fun t =>
        keepQueued t (summaryPlace s) = summaryWord s ∧ 1603 ≤ summaryPlace s ∧ summaryPlace s ≤ 1858 ∧ Alone [.keep] s t)
  ∧ (∀ (s : State), s.sf.running = false ∨ s.sf.number % 1024 ≠ 0 →
      Completes .endpointSummaryWrite s fun t => t = s)

/-- A peer frame acts only on an ACTIVE port in role PAIR and where it is accepted, a time peer's on one in role TIME_PEER, and neither on a lane
without block lock. A CANDIDATE that accepts a marker becomes STANDBY, SYNCING, with PEER forced in ACQUIRE and the superframe's number and length
as the marker gives them, unless its own boundary is the one that is due; on ACTIVE a frame that is no marker is noted and the counting of a split
ends; where it asks for a checkpoint, the keys and counters go out in cells. A time peer's frame brings its quality and selection for the port in
use and changes neither roles nor superframe. The third missing marker makes a STANDBY ACTIVE: TAKEOVERS and PAIR_TAKEOVER, no step, the journal
dropped. A device that took over and has no follower for 8 ticks becomes ISOLATED with PAIR_YIELD, an ISOLATED one ACTIVE again after its second,
and a CANDIDATE without any frame in 10 s ACTIVE. A completed checkpoint makes SYNCING READY while the TKU is TRACKING. -/
def Obligations.RedundantPair : Prop :=
  (∀ (s : State) (q : Nat) (f : PeerFrame), q < 4 ∧ peerRoleOf s q = 1 ∧ (portOf s (32 + q)).state = .active ∧ peerAccepted s q f = true → s.pair.role = .candidate ∧ fieldOf (f.words.getD 0 0) 49 47 = 2 →
      Completes (.peerFrame q f) s fun t =>
        t.pair.role = .standby ∧ t.pair.sbState = 1 ∧ t.tku.state = .acquire ∧ t.tku.peerForced = true
        ∧ (if s.sf.running = true ∧ fieldOf (f.words.getD 0 0) 39 0 = s.sf.number + 1 then t.sf.number = s.sf.number ∧ t.sf.len = s.sf.len ∧ t.sf.t0 = s.sf.t0
           else t.sf.number = fieldOf (f.words.getD 0 0) 39 0 ∧ t.sf.len = fieldOf (f.words.getD 2 0) 47 32)
        ∧ (f.heads = [] → t.sf.grants = s.sf.grants ∧ t.circ = s.circ)
        ∧ SameBut [.port, .pair, .tku, .clk, .sf, .host, .link, .aead, .circ, .irq, .out] s t)
  ∧ (∀ (s : State) (q : Nat) (f : PeerFrame), q < 4 ∧ peerRoleOf s q = 1 ∧ (portOf s (32 + q)).state = .active ∧ peerAccepted s q f = true → s.pair.role = .active ∧ fieldOf (f.words.getD 0 0) 49 47 ≠ 2 ∧ asksCheckpoint (portOf s (32 + q)).gen f.words = false →
      Completes (.peerFrame q f) s fun t =>
        t.pair.role = .active ∧ t.pair.split = false ∧ t.pair.lastPeerFrame = some s.clk.now ∧ t.pair.takeovers = s.pair.takeovers
        ∧ (portOf t (32 + q)).frameOk = sat32 (portOf s (32 + q)).frameOk 1 ∧ (∀ p, p ≠ 32 + q → portOf t p = portOf s p) ∧ SameBut [.port, .pair, .tku, .irq, .out] s t)
  ∧ (∀ (s : State) (q : Nat) (f : PeerFrame), q < 4 ∧ peerRoleOf s q = 1 ∧ (portOf s (32 + q)).state = .active ∧ peerAccepted s q f = true → s.pair.role = .active ∧ fieldOf (f.words.getD 0 0) 49 47 ≠ 2 ∧ asksCheckpoint (portOf s (32 + q)).gen f.words = true →
      Completes (.peerFrame q f) s fun t =>
        t.pair.role = .active ∧ t.pair.split = false ∧ t.pair.lastPeerFrame = some s.clk.now ∧ t.pair.takeovers = s.pair.takeovers
        ∧ (portOf t (32 + q)).frameOk = sat32 (portOf s (32 + q)).frameOk 1 ∧ (∀ p, p ≠ 32 + q → portOf t p = portOf s p)
        ∧ SameBut [.port, .pair, .tku, .keep, .aead, .irq, .out] s t)
  ∧ (∀ (s : State) (q : Nat) (f : PeerFrame), q < 4 ∧ (peerRoleOf s q ≠ 1 ∨ (portOf s (32 + q)).state ≠ .active ∨ peerAccepted s q f = false) →
      Completes (.peerFrame q f) s fun t => t = s)
  ∧ (∀ (s : State) (q : Nat) (f : PeerFrame), q < 4 ∧ (peerRoleOf s q ≠ 2 ∨ (portOf s (32 + q)).state ≠ .active ∨ portLocked s (32 + q) = false ∨ f.valid = false ∨ f.words.length ≠ frameLen (portOf s (32 + q)).gen) →
      Completes (.timePeerFrame q f) s fun t => t = s)
  ∧ (∀ (s : State) (q : Nat) (f : PeerFrame), q < 4 ∧ peerRoleOf s q = 2 ∧ (portOf s (32 + q)).state = .active ∧ portLocked s (32 + q) = true ∧ f.words.length = frameLen (portOf s (32 + q)).gen ∧ f.valid = true → fieldOf (f.words.getD 0 0) 63 56 = (portOf s (32 + q)).gen * 16 + 4 ∧ fieldOf (f.words.getD (frameLen (portOf s (32 + q)).gen - 1) 0) 31 0 = frameCrc (f.words.take (frameLen (portOf s (32 + q)).gen - 1)) →
      Completes (.timePeerFrame q f) s fun t =>
        (timePort s = some q → t.tku.partnerQual = fieldOf (f.words.getD 2 0) 31 24 ∧ t.tku.partnerSelected = fieldOf (f.words.getD 2 0) 23 20
          ∧ (fieldOf (f.words.getD 2 0) 31 24 / 64 = 0 ∨ fieldOf (f.words.getD 2 0) 23 20 = 3 → (srcOf t 3).qualified = false))
        ∧ (timePort s ≠ some q → t.tku = s.tku) ∧ (portOf t (32 + q)).frameOk = sat32 (portOf s (32 + q)).frameOk 1 ∧ (∀ p, p ≠ 32 + q → portOf t p = portOf s p)
        ∧ Alone [.port, .tku] s t)
  ∧ (∀ (s : State), s.pair.role = .standby ∧ 3 ≤ s.pair.missed →
      Completes .peerMarkerMissing s fun t =>
        t.pair.role = .active ∧ t.pair.sbState = 0 ∧ t.pair.afterTakeover = true ∧ t.pair.takeovers = sat16 s.pair.takeovers 1 ∧ t.pair.journal = []
        ∧ t.tku.peerForced = false ∧ t.tku.stepUs = 0 ∧ t.tku.peerOffsets = [] ∧ (s.tku.state = .tracking → t.tku.state = .locked ∨ t.tku.state = .holdover)
        ∧ bitOf t.tku.events 4 = true ∧ t.sf = s.sf ∧ t.clk = s.clk ∧ (s.irq.log.length < 500 → { code := 0x0065, object := 0, tick := s.clk.tick } ∈ t.irq.log))
  ∧ (∀ (s : State), s.pair.role ≠ .standby ∨ s.pair.missed < 3 →
      Completes .peerMarkerMissing s fun t => t = s)
  ∧ (∀ (s : State), s.pair.role = .active → s.pair.afterTakeover = true → 8 ≤ s.pair.noFollower →
      Completes .followerTestExpiry s fun t =>
        t.pair = { s.pair with role := .isolated, sbState := 0, lastPeerFrame := none, missed := 0, noFollower := 0, afterTakeover := false, split := false, request := false, since := s.clk.now, outCells := [] }
        ∧ Logged 0x0066 0 s t ∧ SameBut [.pair, .irq, .mem, .out] s t)
  ∧ (∀ (s : State), s.pair.role ≠ .active ∨ s.pair.afterTakeover = false ∨ s.pair.noFollower < 8 →
      Completes .followerTestExpiry s fun t => t = s)
  ∧ (∀ (s : State), s.pair.role = .isolated → s.pair.since + 1000000 ≤ s.clk.now →
      Completes .isolatedExpiry s fun t =>
        t.pair = { s.pair with role := .active, sbState := 0, lastPeerFrame := none, missed := 0, noFollower := 0, afterTakeover := true, split := false, request := false, since := s.clk.now, outCells := [] } ∧ Alone [.pair] s t)
  ∧ (∀ (s : State), s.pair.role ≠ .isolated ∨ s.clk.now < s.pair.since + 1000000 →
      Completes .isolatedExpiry s fun t => t = s)
  ∧ (∀ (s : State), s.pair.role = .candidate → s.pair.lastPeerFrame = none → s.pair.since + 10000000 ≤ s.clk.now →
      Completes .candidateExpiry s fun t =>
        t.pair = { s.pair with role := .active, sbState := 0, missed := 0, noFollower := 0, afterTakeover := false, split := false, request := false, since := s.clk.now, outCells := [] } ∧ Alone [.pair] s t)
  ∧ (∀ (s : State), s.pair.role ≠ .candidate ∨ s.pair.lastPeerFrame ≠ none ∨ s.clk.now < s.pair.since + 10000000 →
      Completes .candidateExpiry s fun t => t = s)
  ∧ (∀ (s : State), s.pair.role = .standby → s.pair.sbState = 1 → s.tku.state = .tracking →
      Completes .checkpointComplete s fun t =>
        t.pair = { s.pair with sbState := 2, request := false } ∧ Alone [.pair] s t)
  ∧ (∀ (s : State), s.pair.role ≠ .standby ∨ s.pair.sbState ≠ 1 ∨ s.tku.state ≠ .tracking →
      Completes .checkpointComplete s fun t => t = s)

/-- The strobe moves device time and the tick count on by one tick and by what is left to step, and the first strobe after the release of RESET_N is
tick 0. Every ACTIVE front-end port launches a downstream frame that carries the new tick's tag; a port on which no frame was accepted in the tick
that ends has missed one. At a STANDBY the check of the marker of two ticks before fails or passes. An upstream frame acts only on an ACTIVE port
that has none yet and whose lanes have block lock: accepted, it counts FRAME_OK and ends the run of missed ones; with another tag it counts
TAG_SLIP; otherwise it leaves nothing. Eight overruns of a cluster make it fail at the next boundary, and are reported where its group has no free
cluster for its active index. -/
def Obligations.TicksAndFrames : Prop :=
  (∀ (s : State) (obs : TickObs), Completes (.tickStrobe obs) s fun t =>
        t.clk.now = s.clk.now + 1 ∧ t.clk.tick = (if s.clk.awaitFirst then 0 else s.clk.tick + 1) ∧ t.clk.awaitFirst = false
        ∧ t.tku.devUs = ((s.tku.devUs : Int) + 1 + s.tku.stepUs).toNat ∧ t.tku.stepUs = 0
        ∧ (∀ p, p < 32 → (portOf s p).state = .active →
            (∃ ws, .port p ws ∈ t.out ∧ ws.getD 1 0 = BitVec.ofNat 64 t.clk.tick)
            ∧ (portOf t p).landed = false ∧ (portOf t p).missed = if (portOf s p).landed then (portOf s p).missed else sat32 (portOf s p).missed 1)
        ∧ SameBut [.clk, .tku, .sf, .plan, .port, .circ, .feed, .ldpc, .link, .air, .host, .pair, .mem, .keep, .aead, .irq, .out] s t)
  ∧ (∀ (s : State) (p : Nat) (f : UpFrame), frontExists s p = true ∧ (feActive s p = false ∨ (portOf s p).landed = true ∨ portLocked s p = false) →
      Completes (.upstreamTickFrame p f) s fun t => t = s)
  ∧ (∀ (s : State) (p : Nat) (f : UpFrame), frontExists s p = true ∧ feActive s p = true ∧ (portOf s p).landed = false ∧ portLocked s p = true → upAccepted s p f = false →
      Completes (.upstreamTickFrame p f) s fun t =>
        portOf t p = (if (f.words.getD 1 0).toNat = s.clk.tick then portOf s p else { portOf s p with tagSlip := sat32 (portOf s p).tagSlip 1 })
        ∧ (∀ q, q ≠ p → portOf t q = portOf s q) ∧ Alone [.port] s t)
  ∧ (∀ (s : State) (p : Nat) (f : UpFrame), frontExists s p = true ∧ feActive s p = true ∧ (portOf s p).landed = false ∧ portLocked s p = true → upAccepted s p f = true →
      Completes (.upstreamTickFrame p f) s fun t =>
        (portOf t p).landed = true ∧ (portOf t p).frameOk = sat32 (portOf s p).frameOk 1 ∧ (portOf t p).missRun = 0 ∧ (portOf t p).goodRun = (portOf s p).goodRun + 1
        ∧ (portOf t p).follows = bitOf (f.words.getD 0 0) 9 ∧ (portOf t p).tagSlip = (portOf s p).tagSlip
        ∧ SameBut [.port, .plan, .circ, .pair, .sf, .mem, .irq, .out] s t)
  ∧ (∀ (s : State) (cl : Nat), clusterExists s cl = true → 8 ≤ tabGet 0 s.plan.overruns cl → s.plan.failing.contains cl = false →
      Completes (.overrunLimit cl) s fun t =>
        t.plan = { s.plan with failing := s.plan.failing ++ [cl] }
        ∧ (freeCluster s (cl / 17) = none → (indexOn s cl).isSome = true → Logged 0x0011 (cl + 65536) s t) ∧ SameBut [.plan, .irq, .mem, .out] s t)
  ∧ (∀ (s : State) (cl : Nat), clusterExists s cl = true → tabGet 0 s.plan.overruns cl < 8 ∨ s.plan.failing.contains cl = true →
      Completes (.overrunLimit cl) s fun t => t = s)

/-- A Class T reception 128 ticks in PREAMBLE, and a Class A one at its deadline, ends with NO_SYNC; a seat's loss also counts, once for a grant,
against the granted endpoint's record. A qualifier request that has waited 16 ticks is dropped with its candidate and QUAL_LATE counts. The ninth
STALE frame in a row ends every reception of a shared circuit with SAMPLES_LOST, the ninth clipped tick with OVERLOAD, which is also raised and
takes 12 from the step of an AGC that is not FIXED. A payload not done 4 ticks after its end times out on its own, unless SAMPLES_LOST or OVERLOAD
is due. A Class T reception so lost that began in a JOIN grant makes a JOIN grant follow in each of the next 8 superframes. Where none of these
holds the command changes nothing. The state that the AGC held before its freeze returns once no reception is left. -/
def Obligations.ReceptionEnds : Prop :=
  (∀ (s : State) (c : Nat), circuitExists s c = true ∧ (circOf s c).rxT.st = .preamble ∧ (circOf s c).rxT.since + 128 ≤ s.clk.now →
      Completes (.noSync c 1) s fun t =>
        circOf t c = { thaw (bump .noSync { circOf s c with rxT := restart (circOf s c).rxT }) with joinUntil := (circOf t c).joinUntil }
        ∧ (circOf t c).joinUntil = (if (circOf s c).rxT.st ≠ .idle ∧ lossesT (circOf s c) < lossesT (thaw (bump .noSync { circOf s c with rxT := restart (circOf s c).rxT })) ∧ inJoin s c (circOf s c).rxT.since = true
            then s.sf.number + 8 else (circOf s c).joinUntil)
        ∧ (∀ d, d ≠ c → circOf t d = circOf s d) ∧ Alone [.circ] s t)
  ∧ (∀ (s : State) (c : Nat), circuitExists s c = true ∧ ((circOf s c).rxT.st ≠ .preamble ∨ s.clk.now < (circOf s c).rxT.since + 128) →
      Completes (.noSync c 1) s fun t => t = s)
  ∧ (∀ (s : State) (c : Nat) (q : Seat), circuitExists s c = true ∧ (circOf s c).rxA.st = .preamble ∧ seatAt s c (s.clk.now - 2) = some q → syncDeadline (setSf q.grant.arg) (circOf s c).rxA + 2 ≤ s.clk.now ∧ (circOf s c).failedSeat ≠ some q.first →
      Completes (.noSync c 2) s fun t =>
        circOf t c = { thaw (bump .noSync { circOf s c with rxA := restart (circOf s c).rxA }) with failedSeat := some q.first } ∧ (∀ d, d ≠ c → circOf t d = circOf s d)
        ∧ t.link = { s.link with records := s.link.records.map fun r => if r.circuit = c ∧ r.addr = some q.grant.addr then
              (if 2 ≤ r.lost + 1 then staleSnap { r with lost := r.lost + 1 } else { r with lost := r.lost + 1 }) else r }
        ∧ Alone [.circ, .link] s t)
  ∧ (∀ (s : State) (c : Nat) (q : Seat), circuitExists s c = true ∧ (circOf s c).rxA.st = .preamble ∧ seatAt s c (s.clk.now - 2) = some q → syncDeadline (setSf q.grant.arg) (circOf s c).rxA + 2 ≤ s.clk.now ∧ (circOf s c).failedSeat = some q.first →
      Completes (.noSync c 2) s fun t =>
        circOf t c = thaw (bump .noSync { circOf s c with rxA := restart (circOf s c).rxA }) ∧ (∀ d, d ≠ c → circOf t d = circOf s d) ∧ Alone [.circ] s t)
  ∧ (∀ (s : State) (c : Nat), circuitExists s c = true ∧ (circOf s c).rxA.st = .preamble ∧ seatAt s c (s.clk.now - 2) = none →
      Completes (.noSync c 2) s fun t =>
        circOf t c = thaw (bump .noSync { circOf s c with rxA := restart (circOf s c).rxA }) ∧ (∀ d, d ≠ c → circOf t d = circOf s d) ∧ Alone [.circ] s t)
  ∧ (∀ (s : State) (c : Nat), circuitExists s c = true ∧ ((circOf s c).rxA.st ≠ .preamble ∨ ∃ q, seatAt s c (s.clk.now - 2) = some q ∧ s.clk.now < syncDeadline (setSf q.grant.arg) (circOf s c).rxA + 2) →
      Completes (.noSync c 2) s fun t => t = s)
  ∧ (∀ (s : State) (c a : Nat), circuitExists s c = true ∧ rxIndex s c = some a → (∃ e ∈ tabGet [] s.plan.queue a, e.1 = c ∧ e.2 + 16 ≤ s.clk.now) →
      Completes (.qualLate c) s fun t =>
        tabGet [] t.plan.queue a = (tabGet [] s.plan.queue a).filter (fun e => e.1 != c)
        ∧ circOf t c = (if (circOf s c).rxT.st = .candidate then dropT (bump .qualLate (circOf s c)) else bump .qualLate (circOf s c))
        ∧ (∀ d, d ≠ c → circOf t d = circOf s d) ∧ Alone [.plan, .circ] s t)
  ∧ (∀ (s : State) (c a : Nat), circuitExists s c = true ∧ rxIndex s c = some a → (∀ e ∈ tabGet [] s.plan.queue a, e.1 = c → s.clk.now < e.2 + 16) →
      Completes (.qualLate c) s fun t => t = s)
  ∧ (∀ (s : State) (c : Nat), circuitExists s c = true ∧ rxIndex s c = none →
      Completes (.qualLate c) s fun t => t = s)
  ∧ (∀ (s : State) (c : Nat), circuitExists s c = true ∧ receiving (circOf s c) = true ∧ isFeed s c = false ∧ 9 ≤ (circOf s c).staleRun →
      Completes (.samplesLost c) s fun t =>
        circOf t c = { thaw (abortAll ((seatAt s c (s.clk.now - 2)).elim 0 (fun q => q.last + 1)) (bump .samplesLost (circOf s c))) with joinUntil := (circOf t c).joinUntil }
        ∧ (circOf t c).joinUntil = (if (circOf s c).rxT.st ≠ .idle ∧ lossesT (circOf s c) < lossesT (thaw (abortAll ((seatAt s c (s.clk.now - 2)).elim 0 (fun q => q.last + 1)) (bump .samplesLost (circOf s c)))) ∧ inJoin s c (circOf s c).rxT.since = true
            then s.sf.number + 8 else (circOf s c).joinUntil)
        ∧ (∀ d, d ≠ c → circOf t d = circOf s d) ∧ Alone [.circ] s t)
  ∧ (∀ (s : State) (c : Nat), circuitExists s c = true ∧ receiving (circOf s c) = true ∧ isFeed s c = false ∧ 9 ≤ (circOf s c).clipRun →
      Completes (.overload c) s fun t =>
        (circOf t c).rxT.st = .idle ∧ (circOf t c).rxA.st = .idle ∧ (circOf t c).clipRun = 0
        ∧ (circOf t c).counters = (bump .overload (circOf s c)).counters
        ∧ ((circOf s c).agc ≠ .fixed → (circOf t c).gainCmd = some ((circOf s c).gain - 12, true) ∧ (circOf t c).agc = .acquire)
        ∧ (∀ d, d ≠ c → circOf t d = circOf s d) ∧ Logged 0x0043 c s t ∧ SameBut [.circ, .irq, .mem, .out] s t)
  ∧ (∀ (s : State) (c : Nat), circuitExists s c = true → (circOf s c).staleRun < 9 ∨ receiving (circOf s c) = false ∨ isFeed s c = true →
      Completes (.samplesLost c) s fun t => t = s)
  ∧ (∀ (s : State) (c : Nat), circuitExists s c = true → (circOf s c).clipRun < 9 ∨ receiving (circOf s c) = false ∨ isFeed s c = true →
      Completes (.overload c) s fun t => t = s)
  ∧ (∀ (s : State) (c : Nat), circuitExists s c = true ∧ (circOf s c).rxT.st = .payload ∧ (circOf s c).rxT.endAt + 4 < s.clk.now ∧ (circOf s c).staleRun < 9 ∧ (circOf s c).clipRun < 9 →
      Completes (.receptionTimeout c 1) s fun t =>
        circOf t c = { thaw (bump .timeout { circOf s c with rxT := restart (circOf s c).rxT }) with joinUntil := (circOf t c).joinUntil }
        ∧ (circOf t c).joinUntil = (if (circOf s c).rxT.st ≠ .idle ∧ lossesT (circOf s c) < lossesT (thaw (bump .timeout { circOf s c with rxT := restart (circOf s c).rxT })) ∧ inJoin s c (circOf s c).rxT.since = true
            then s.sf.number + 8 else (circOf s c).joinUntil)
        ∧ (∀ d, d ≠ c → circOf t d = circOf s d) ∧ Alone [.circ] s t)
  ∧ (∀ (s : State) (c : Nat), circuitExists s c = true ∧ (circOf s c).rxA.st = .payload ∧ (circOf s c).rxA.endAt + 4 < s.clk.now ∧ (circOf s c).staleRun < 9 ∧ (circOf s c).clipRun < 9 →
      Completes (.receptionTimeout c 2) s fun t =>
        circOf t c = thaw (bump .timeout { leaveSinr (circOf s c) with rxA := { closedTo := (seatAt s c (s.clk.now - 2)).elim 0 (fun q => q.last + 1) } })
        ∧ (∀ d, d ≠ c → circOf t d = circOf s d) ∧ Alone [.circ] s t)
  ∧ (∀ (s : State) (c : Nat), circuitExists s c = true ∧ ((circOf s c).rxT.st ≠ .payload ∨ s.clk.now ≤ (circOf s c).rxT.endAt + 4 ∨ 9 ≤ (circOf s c).staleRun ∨ 9 ≤ (circOf s c).clipRun) →
      Completes (.receptionTimeout c 1) s fun t => t = s)
  ∧ (∀ (s : State) (c : Nat), circuitExists s c = true ∧ ((circOf s c).rxA.st ≠ .payload ∨ s.clk.now ≤ (circOf s c).rxA.endAt + 4 ∨ 9 ≤ (circOf s c).staleRun ∨ 9 ≤ (circOf s c).clipRun) →
      Completes (.receptionTimeout c 2) s fun t => t = s)

/-- The first codeword of the queue goes to the lowest-numbered idle ACTIVE decoder, which holds it until it stops; the decoder then counts it and
its circuit's codewords are counted. The known-answer test runs once in a superframe, on an idle decoder while no codeword waits; a second failure
in a row retires the decoder and raises LDPC_RETIRED. A frame that stays incomplete past its time, or whose reception was aborted, is discarded and
REASM_TIMEOUT counts. A frame that has not fitted for four superframes returns with TOO_LONG and counts as returned. -/
def Obligations.DecodersAndReassembly : Prop :=
  (∀ (s : State) (w : Codeword) (d : Nat), firstWord s.ldpc.queue = some w → idleDecoder s = some d →
      Completes .ldpcDispatch s fun t =>
        d < 34 ∧ (decoderOf s d).state = .active ∧ (∀ k, k < d → (decoderOf s k).state = .active → (decoderOf s k).busy.isSome = true)
        ∧ decoderOf t d = { decoderOf s d with busy := some w } ∧ (∀ k, k ≠ d → decoderOf t k = decoderOf s k)
        ∧ t.ldpc.queue = withoutWord w s.ldpc.queue ∧ t.ldpc.depth = max s.ldpc.depth (s.clk.now - w.since) ∧ Alone [.ldpc] s t)
  ∧ (∀ (s : State), firstWord s.ldpc.queue = none ∨ idleDecoder s = none →
      Completes .ldpcDispatch s fun t => t = s)
  ∧ (∀ (s : State) (d : Nat), d < 34 → (decoderOf s d).busy = none →
      Completes (.ldpcDecodeDone d) s fun t => t = s)
  ∧ (∀ (s : State) (d : Nat) (w : Codeword), d < 34 → (decoderOf s d).busy = some w →
      Completes (.ldpcDecodeDone d) s fun t =>
        decoderOf t d = { decoderOf s d with busy := none, decoded := sat32 (decoderOf s d).decoded 1 } ∧ (∀ k, k ≠ d → decoderOf t k = decoderOf s k)
        ∧ t.ldpc.queue = s.ldpc.queue ∧ SameBut [.ldpc, .circ, .feed, .link, .chk, .keep, .aead, .air, .irq, .out] s t)
  ∧ (∀ (s : State) (pass : Bool) (d : Nat), testDecoder s = some d ∧ s.ldpc.testDone = false ∧ s.ldpc.queue = [] ∧ (decoderOf s d).busy = none → pass = true ∨ (decoderOf s d).fails = 0 →
      Completes (.ldpcKnownAnswerTest pass) s fun t =>
        decoderOf t d = { decoderOf s d with lastOk := pass, fails := if pass then 0 else 1 } ∧ (∀ k, k ≠ d → decoderOf t k = decoderOf s k)
        ∧ t.ldpc.testDone = true ∧ t.ldpc.testNext = d + 1 ∧ Alone [.ldpc] s t)
  ∧ (∀ (s : State) (pass : Bool) (d : Nat), testDecoder s = some d ∧ s.ldpc.testDone = false ∧ s.ldpc.queue = [] ∧ (decoderOf s d).busy = none → pass = false ∧ 0 < (decoderOf s d).fails →
      Completes (.ldpcKnownAnswerTest pass) s fun t =>
        (decoderOf t d).state = .retired ∧ t.ldpc.testDone = true ∧ t.ldpc.testNext = d + 1
        ∧ (s.irq.log.length < 511 → { code := 0x0012, object := d, tick := s.clk.tick } ∈ t.irq.log) ∧ SameBut [.ldpc, .keep, .irq, .mem, .out] s t)
  ∧ (∀ (s : State) (pass : Bool), testDecoder s = none ∨ s.ldpc.testDone = true ∨ s.ldpc.queue ≠ [] ∨ ∃ d, testDecoder s = some d ∧ (decoderOf s d).busy.isSome = true →
      Completes (.ldpcKnownAnswerTest pass) s fun t => t = s)
  ∧ (∀ (s : State) (c : Nat) (e : Entry), circuitExists s c = true → s.ldpc.entries.find? (fun e => e.circuit == c && (decide (e.due + 4 < s.clk.now) || entryAborted s e)) = some e →
      Completes (.reasmTimeout c) s fun t =>
        t.ldpc = { s.ldpc with entries := s.ldpc.entries.filter fun x => x.id != e.id } ∧ circOf t c = bump .reasmTimeout (circOf s c)
        ∧ (∀ d, d ≠ c → circOf t d = circOf s d) ∧ Alone [.ldpc, .circ] s t)
  ∧ (∀ (s : State) (c : Nat), circuitExists s c = true ∧ s.ldpc.entries.find? (fun e => e.circuit == c && (decide (e.due + 4 < s.clk.now) || entryAborted s e)) = none ∧ frameLate s (feedOf s c) (feedOf s c).openX = true →
      Completes (.reasmTimeout c) s fun t =>
        feedOf t c = { feedOf s c with openX := none } ∧ circOf t c = bump .reasmTimeout (circOf s c)
        ∧ (∀ d, d ≠ c → circOf t d = circOf s d ∧ feedOf t d = feedOf s d) ∧ Alone [.feed, .circ] s t)
  ∧ (∀ (s : State) (c : Nat), circuitExists s c = true ∧ s.ldpc.entries.find? (fun e => e.circuit == c && (decide (e.due + 4 < s.clk.now) || entryAborted s e)) = none ∧ frameLate s (feedOf s c) (feedOf s c).openX = false ∧ frameLate s (feedOf s c) (feedOf s c).openN = true →
      Completes (.reasmTimeout c) s fun t =>
        feedOf t c = { feedOf s c with openN := none } ∧ circOf t c = bump .reasmTimeout (circOf s c)
        ∧ (∀ d, d ≠ c → circOf t d = circOf s d ∧ feedOf t d = feedOf s d) ∧ Alone [.feed, .circ] s t)
  ∧ (∀ (s : State) (c : Nat), circuitExists s c = true ∧ s.ldpc.entries.find? (fun e => e.circuit == c && (decide (e.due + 4 < s.clk.now) || entryAborted s e)) = none ∧ frameLate s (feedOf s c) (feedOf s c).openX = false ∧ frameLate s (feedOf s c) (feedOf s c).openN = false →
      Completes (.reasmTimeout c) s fun t => t = s)
  ∧ (∀ (s : State) (c a : Nat) (r : Record) (w : Waiting) (ws : List Waiting) (h : TxFrame), circuitExists s c = true ∧ recordAt s c a = some r ∧ r.waiting = w :: ws ∧ w.host = some h → 4 ≤ h.unfit →
      Completes (.txTooLong c a) s fun t =>
        t.pair.hfReturned = s.pair.hfReturned + 1 ∧ t.pair.hfHeld = s.pair.hfHeld - 1 ∧ t.pair.hfDelivered = s.pair.hfDelivered
        ∧ SameBut [.link, .pair, .host, .circ, .keep, .aead, .air, .irq, .out] s t)
  ∧ (∀ (s : State) (c a : Nat) (r : Record) (w : Waiting) (ws : List Waiting) (h : TxFrame), circuitExists s c = true ∧ recordAt s c a = some r ∧ r.waiting = w :: ws ∧ w.host = some h → h.unfit < 4 →
      Completes (.txTooLong c a) s fun t => t = s)
  ∧ (∀ (s : State) (c a : Nat), circuitExists s c = true ∧ (recordAt s c a = none ∨ ∃ r, recordAt s c a = some r ∧ (r.waiting = [] ∨ ∃ w ws, r.waiting = w :: ws ∧ w.host = none)) →
      Completes (.txTooLong c a) s fun t => t = s)

/-- A frame of another type than the command's, or whose DEST is not 0, changes nothing; one whose SRC has no record counts UNKNOWN_SRC. A sequenced
frame is classified by d = (SEQ - BASE) mod 4,096: from 64 to 4,031 it counts SEQ_OUT, a received one counts DUPLICATE and is answered by an ACK, a
new DATA frame whose ring does not take it counts RX_NOBUF and sets no bit, and a new frame sets its bit and, at BASE, moves BASE on. Frames of the
other types go to the running MP, a sequenced one once only. An ACK delivers the frames it covers, and frees the endpoint's queue; a REPORT, a LEAVE
and a SLEEP_REQ change the sender's record, a RELAY_BEACON nothing more. -/
def Obligations.UplinkFramesReceived : Prop :=
  (∀ (s : State) (f : RxFrame) (p : Prop × Instr), circuitExists s f.circuit = true ∧ p ∈ uplinkCommands f → ¬ p.1 ∨ f.frame.dest ≠ 0 →
      Completes p.2 s fun t => t = s)
  ∧ (∀ (s : State) (f : RxFrame) (p : Prop × Instr), circuitExists s f.circuit = true ∧ p ∈ uplinkCommands f → p.1 ∧ f.frame.dest = 0 ∧ senderOf f s = none →
      Completes p.2 s fun t => Counted .unknownSrc f.circuit s t)
  ∧ (∀ (s : State) (f : RxFrame) (r : Record), circuitExists s f.circuit = true ∧ f.frame.dest = 0 ∧ senderOf f s = some r ∧ f.frame.ftype = 4 →
      Completes (.dataFrameRx f) s fun t => Leaves s (classify f true r.epId (heard f r s)).2 t)
  ∧ (∀ (s : State) (f : RxFrame) (r : Record), circuitExists s f.circuit = true ∧ f.frame.dest = 0 ∧ senderOf f s = some r ∧ 5 ≤ f.frame.ftype ∧ f.frame.ftype ≤ 7 ∧ (classify f false r.epId (heard f r s)).1 = true →
      Completes (.mgmtFrameRx f) s fun t => Leaves s (classify f false r.epId (heard f r s)).2 t ∧ Out.toMp f ∈ t.out)
  ∧ (∀ (s : State) (f : RxFrame) (r : Record), circuitExists s f.circuit = true ∧ f.frame.dest = 0 ∧ senderOf f s = some r ∧ 5 ≤ f.frame.ftype ∧ f.frame.ftype ≤ 7 ∧ (classify f false r.epId (heard f r s)).1 = false →
      Completes (.mgmtFrameRx f) s fun t => Leaves s (classify f false r.epId (heard f r s)).2 t)
  ∧ (∀ (s : State) (f : RxFrame) (r : Record), circuitExists s f.circuit = true ∧ f.frame.dest = 0 ∧ senderOf f s = some r ∧ 9 ≤ f.frame.ftype ∧ f.frame.ftype ≤ 11 →
      Completes (.mgmtFrameRx f) s fun t => Out.toMp f ∈ t.out ∧ t.link = (heard f r s).link ∧ Alone [] (heard f r s) t)
  ∧ (∀ (s : State) (f : RxFrame) (r x : Record) (i : Instr) (d : Nat), circuitExists s f.circuit = true ∧ f.frame.dest = 0 ∧ senderOf f s = some r ∧ recordId (heard f r s) r.epId = some x → i = (if f.frame.ftype = 4 then Instr.dataFrameRx f else .mgmtFrameRx f) ∧ (f.frame.ftype = 4 ∨ 5 ≤ f.frame.ftype ∧ f.frame.ftype ≤ 7) → d = (f.frame.seq % 4096 + 4096 - x.upBase) % 4096 ∧ 64 ≤ d ∧ d < 4032 →
      Completes i s fun t =>
        Counted .seqOut x.circuit (heard f r s) t)
  ∧ (∀ (s : State) (f : RxFrame) (r x : Record) (i : Instr) (d : Nat), circuitExists s f.circuit = true ∧ f.frame.dest = 0 ∧ senderOf f s = some r ∧ recordId (heard f r s) r.epId = some x → i = (if f.frame.ftype = 4 then Instr.dataFrameRx f else .mgmtFrameRx f) ∧ (f.frame.ftype = 4 ∨ 5 ≤ f.frame.ftype ∧ f.frame.ftype ≤ 7) → d = (f.frame.seq % 4096 + 4096 - x.upBase) % 4096 ∧ (4032 ≤ d ∨ d < 64 ∧ bitOf x.upMap d = true) →
      Completes i s fun t =>
        Leaves s (sendAck r.epId (modCirc x.circuit (bump .duplicate) (heard f r s))) t)
  ∧ (∀ (s : State) (f : RxFrame) (r x : Record) (i : Instr) (d : Nat), circuitExists s f.circuit = true ∧ f.frame.dest = 0 ∧ senderOf f s = some r ∧ recordId (heard f r s) r.epId = some x → i = (if f.frame.ftype = 4 then Instr.dataFrameRx f else .mgmtFrameRx f) ∧ (f.frame.ftype = 4 ∨ 5 ≤ f.frame.ftype ∧ f.frame.ftype ≤ 7) → d = (f.frame.seq % 4096 + 4096 - x.upBase) % 4096 ∧ (4032 ≤ d ∨ d < 64 ∧ bitOf x.upMap d = true) ∧ sendsAllowed s = false →
      Completes i s fun t =>
        Counted .duplicate x.circuit (heard f r s) t)
  ∧ (∀ (s : State) (f : RxFrame) (r x : Record) (i : Instr) (d : Nat), circuitExists s f.circuit = true ∧ f.frame.dest = 0 ∧ senderOf f s = some r ∧ recordId (heard f r s) r.epId = some x → i = (if f.frame.ftype = 4 then Instr.dataFrameRx f else .mgmtFrameRx f) ∧ (f.frame.ftype = 4 ∨ 5 ≤ f.frame.ftype ∧ f.frame.ftype ≤ 7) → d = (f.frame.seq % 4096 + 4096 - x.upBase) % 4096 ∧ f.frame.ftype = 4 ∧ d < 64 ∧ bitOf x.upMap d = false ∧ sendsAllowed s = true ∧ ringTakes (heard f r s) f = false →
      Completes i s fun t =>
        rxRing t (steerRing (heard f r s) f.circuit f.frame.src) = { rxRing (heard f r s) (steerRing (heard f r s) f.circuit f.frame.src) with noBuf := sat32 (rxRing (heard f r s) (steerRing (heard f r s) f.circuit f.frame.src)).noBuf 1 }
        ∧ t.link = (heard f r s).link ∧ Alone [.host] (heard f r s) t)
  ∧ (∀ (s : State) (f : RxFrame) (r x : Record) (i : Instr) (d : Nat), circuitExists s f.circuit = true ∧ f.frame.dest = 0 ∧ senderOf f s = some r ∧ recordId (heard f r s) r.epId = some x → i = (if f.frame.ftype = 4 then Instr.dataFrameRx f else .mgmtFrameRx f) ∧ (f.frame.ftype = 4 ∨ 5 ≤ f.frame.ftype ∧ f.frame.ftype ≤ 7) → d = (f.frame.seq % 4096 + 4096 - x.upBase) % 4096 ∧ 0 < d ∧ d < 64 ∧ bitOf x.upMap d = false ∧ bitOf x.upMap 0 = false ∧ f.frame.ftype = 4 ∧ ringTakes (heard f r s) f = true ∧ f.frame.flags / 4 % 2 = 0 →
      Completes i s fun t =>
        t.link = (modRecordId r.epId (fun y => { y with upMap := y.upMap ||| fieldAt d d 1, held := y.held ++ [(f.frame.seq % 4096, s.sf.number, some f)], ackDue := true }) (heard f r s)).link
        ∧ Alone [.link] (heard f r s) t)
  ∧ (∀ (s : State) (f : RxFrame) (r x : Record) (i : Instr) (d : Nat), circuitExists s f.circuit = true ∧ f.frame.dest = 0 ∧ senderOf f s = some r ∧ recordId (heard f r s) r.epId = some x → i = (if f.frame.ftype = 4 then Instr.dataFrameRx f else .mgmtFrameRx f) ∧ (f.frame.ftype = 4 ∨ 5 ≤ f.frame.ftype ∧ f.frame.ftype ≤ 7) → d = (f.frame.seq % 4096 + 4096 - x.upBase) % 4096 ∧ 0 < d ∧ d < 64 ∧ bitOf x.upMap d = false ∧ bitOf x.upMap 0 = false ∧ f.frame.ftype ≠ 4 ∧ f.frame.flags / 4 % 2 = 0 →
      Completes i s fun t =>
        t.link = (modRecordId r.epId (fun y => { y with upMap := y.upMap ||| fieldAt d d 1, held := y.held ++ [(f.frame.seq % 4096, s.sf.number, none)], ackDue := true }) (heard f r s)).link
        ∧ Out.toMp f ∈ t.out ∧ Alone [.link] (heard f r s) t)
  ∧ (∀ (s : State) (f : RxFrame) (r x : Record) (i : Instr) (d : Nat), circuitExists s f.circuit = true ∧ f.frame.dest = 0 ∧ senderOf f s = some r ∧ recordId (heard f r s) r.epId = some x → i = (if f.frame.ftype = 4 then Instr.dataFrameRx f else .mgmtFrameRx f) ∧ (f.frame.ftype = 4 ∨ 5 ≤ f.frame.ftype ∧ f.frame.ftype ≤ 7) → d = (f.frame.seq % 4096 + 4096 - x.upBase) % 4096 ∧ f.frame.seq % 4096 = x.upBase ∧ x.upMap = 0 ∧ x.held = [] ∧ f.frame.ftype = 4 ∧ ringTakes (heard f r s) f = true ∧ f.frame.flags / 4 % 2 = 0 →
      Completes i s fun t =>
        recordId t r.epId = some { x with upBase := (x.upBase + 1) % 4096, upMap := 0, held := [], ackDue := true }
        ∧ t.host = (toRing f (heard f r s)).host ∧ Alone [.link, .host] (heard f r s) t)
  ∧ (∀ (s : State) (f : RxFrame) (r : Record), circuitExists s f.circuit = true ∧ f.frame.dest = 0 ∧ senderOf f s = some r ∧ f.frame.ftype = 5 ∧ bodyType f = 1 → (classify f false r.epId (heard f r s)).1 = true →
      Completes (.reportRx f) s fun t =>
        t.link = (modRecordId r.epId (fun y => { y with snrT := some (signedOf 16 (fieldOf (bodyWord f 0) 55 40)), sinrA := some (signedOf 16 (fieldOf (bodyWord f 0) 39 24)), reportSf := s.sf.number }) (classify f false r.epId (heard f r s)).2).link ∧ Out.toMp f ∈ t.out
        ∧ Alone [.link] (classify f false r.epId (heard f r s)).2 t)
  ∧ (∀ (s : State) (f : RxFrame) (r : Record), circuitExists s f.circuit = true ∧ f.frame.dest = 0 ∧ senderOf f s = some r ∧ f.frame.ftype = 5 ∧ bodyType f = 1 → (classify f false r.epId (heard f r s)).1 = false →
      Completes (.reportRx f) s fun t => t.link = (classify f false r.epId (heard f r s)).2.link ∧ Alone [] (classify f false r.epId (heard f r s)).2 t)
  ∧ (∀ (s : State) (f : RxFrame) (r : Record), circuitExists s f.circuit = true ∧ f.frame.dest = 0 ∧ senderOf f s = some r ∧ f.frame.ftype = 5 ∧ bodyType f = 6 → (classify f false r.epId (heard f r s)).1 = true →
      Completes (.relayBeaconRx f) s fun t =>
        t.link = (classify f false r.epId (heard f r s)).2.link ∧ Out.toMp f ∈ t.out
        ∧ Alone [.link] (classify f false r.epId (heard f r s)).2 t)
  ∧ (∀ (s : State) (f : RxFrame) (r : Record), circuitExists s f.circuit = true ∧ f.frame.dest = 0 ∧ senderOf f s = some r ∧ f.frame.ftype = 5 ∧ bodyType f = 6 → (classify f false r.epId (heard f r s)).1 = false →
      Completes (.relayBeaconRx f) s fun t => t.link = (classify f false r.epId (heard f r s)).2.link ∧ Alone [] (classify f false r.epId (heard f r s)).2 t)
  ∧ (∀ (s : State) (f : RxFrame) (r : Record), circuitExists s f.circuit = true ∧ f.frame.dest = 0 ∧ senderOf f s = some r ∧ f.frame.ftype = 5 ∧ bodyType f = 7 → (classify f false r.epId (heard f r s)).1 = true →
      Completes (.leaveRx f) s fun t =>
        t.link = (modRecordId r.epId (fun y => { y with leaving := true }) (classify f false r.epId (heard f r s)).2).link ∧ Out.toMp f ∈ t.out
        ∧ Alone [.link] (classify f false r.epId (heard f r s)).2 t)
  ∧ (∀ (s : State) (f : RxFrame) (r : Record), circuitExists s f.circuit = true ∧ f.frame.dest = 0 ∧ senderOf f s = some r ∧ f.frame.ftype = 5 ∧ bodyType f = 7 → (classify f false r.epId (heard f r s)).1 = false →
      Completes (.leaveRx f) s fun t => t.link = (classify f false r.epId (heard f r s)).2.link ∧ Alone [] (classify f false r.epId (heard f r s)).2 t)
  ∧ (∀ (s z : State) (f : RxFrame) (r x : Record) (d : Nat), circuitExists s f.circuit = true ∧ f.frame.dest = 0 ∧ f.frame.ftype = 5 ∧ bodyType f = 2 ∧ senderOf f s = some r ∧ classify f false r.epId (heard f r s) = (true, z) ∧ recordId z r.epId = some x → d = fieldOf (bodyWord f 0) 55 40 →
      Completes (.sleepReqRx f) s fun t =>
        Leaves s (sleepAnswer d r.epId (toMp f z)) t ∧ Out.toMp f ∈ t.out
        ∧ (recordId t r.epId).map (·.sleepDue) = some (if 1 ≤ d ∧ d + 2 * (circOf z x.circuit).set.liveness ≤ (circOf z x.circuit).set.retain then some (s.sf.number + 1 + d) else x.sleepDue))
  ∧ (∀ (s : State) (f : RxFrame) (r : Record), circuitExists s f.circuit = true ∧ f.frame.dest = 0 ∧ senderOf f s = some r ∧ f.frame.ftype = 5 ∧ bodyType f = 2 → (classify f false r.epId (heard f r s)).1 = false →
      Completes (.sleepReqRx f) s fun t => t.link = (classify f false r.epId (heard f r s)).2.link ∧ Alone [] (classify f false r.epId (heard f r s)).2 t)
  ∧ (∀ (s : State) (f : RxFrame) (r x : Record) (base : Nat) (map : Word), circuitExists s f.circuit = true ∧ f.frame.dest = 0 ∧ f.frame.ftype = 8 ∧ f.frame.body.length = 16 ∧ senderOf f s = some r ∧ recordId (heard f r s) r.epId = some x → base = fieldOf (bodyWord f 0) 63 52 ∧ map = bodyWord f 1 →
      Completes (.ackRx f) s fun t =>
        t.pair.hfDelivered = s.pair.hfDelivered + ((x.sent.filter fun y => covers base map y.seq && !y.gone && y.host.isSome).length)
        ∧ t.pair.hfReturned = s.pair.hfReturned ∧ SameBut [.link, .circ, .pair, .host, .keep, .aead, .air, .irq, .out] s t)
  ∧ (∀ (s : State) (f : RxFrame) (r x : Record) (base : Nat) (map : Word), circuitExists s f.circuit = true ∧ f.frame.dest = 0 ∧ f.frame.ftype = 8 ∧ f.frame.body.length = 16 ∧ senderOf f s = some r ∧ recordId (heard f r s) r.epId = some x → base = fieldOf (bodyWord f 0) 63 52 ∧ map = bodyWord f 1 → x.waiting = [] →
      Completes (.ackRx f) s fun t =>
        recordId t r.epId = some (if (x.sent.any fun y => covers base map y.seq && isSleepAck y.frame) = true ∧ x.sleepDue.isSome = true then
            { x with sent := x.sent.filter (fun y => !covers base map y.seq), state := if x.state = .active then .asleep else x.state, wakeSf := x.sleepDue.getD 0, asleepSf := s.sf.number, sleepDue := none }
          else { x with sent := x.sent.filter (fun y => !covers base map y.seq) }))

/-- Where the record does not exist or its timer has not run down, nothing changes. At the ACK timer of an ACTIVE record each frame that is due and
not still in the transmit path is sent again with RETRY, or after its fourth retry returns with NO_ACK, and abandoned frames leave the window 12
superframes after their first transmission. After 12 superframes BASE passes one missing SEQ and GAP_SKIP counts. A POLL grant that ended without a
frame from its endpoint counts once; the third in a row starts re-addressing to the lowest free address. Re-addressing that hears nothing for 4
superframes leaves the record ABSENT and both addresses in quarantine, a quarantine ends at its superframe, a record that is not heard for RETAIN
superframes is deleted and reported, and a sleeping one becomes ACTIVE at its WAKE_SF. -/
def Obligations.RecordTimers : Prop :=
  (∀ (s : State) (c a : Nat) (i : Instr), circuitExists s c = true ∧ recordAt s c a = none → i ∈ [Instr.ackTimerExpiry c a, .gapSkip c a, .pollAnswerTimeout c a, .readdressTimeout c a, .sleepWake c a] →
      Completes i s fun t => t = s)
  ∧ (∀ (s : State) (c a : Nat) (r : Record), circuitExists s c = true ∧ recordAt s c a = some r → r.state ≠ .active ∨ sendsAllowed s = false →
      Completes (.ackTimerExpiry c a) s fun t => t = s)
  ∧ (∀ (s : State) (c a : Nat) (r : Record), circuitExists s c = true ∧ recordAt s c a = some r → gapSince r = none ∨ (∃ n, gapSince r = some n ∧ s.sf.number < n + 12) →
      Completes (.gapSkip c a) s fun t => t = s)
  ∧ (∀ (s : State) (c a : Nat) (r : Record), circuitExists s c = true ∧ recordAt s c a = some r → pollUnanswered s r a = none →
      Completes (.pollAnswerTimeout c a) s fun t => t = s)
  ∧ (∀ (s : State) (c a : Nat) (r : Record), circuitExists s c = true ∧ recordAt s c a = some r → r.newAddr = none ∨ (∃ b n, r.newAddr = some (b, n) ∧ s.sf.number ≤ n + 4) →
      Completes (.readdressTimeout c a) s fun t => t = s)
  ∧ (∀ (s : State) (c a : Nat) (r : Record), circuitExists s c = true ∧ recordAt s c a = some r → r.state ≠ .asleep ∨ s.sf.number < r.wakeSf →
      Completes (.sleepWake c a) s fun t => t = s)
  ∧ (∀ (s : State) (c a : Nat) (r : Record) (due : List Sent), circuitExists s c = true ∧ recordAt s c a = some r ∧ recordId s r.epId = some r ∧ r.state = .active ∧ sendsAllowed s = true → due = (r.sent.filter fun x => !x.gone && !x.out && decide (x.lastSf + 2 ≤ s.sf.number)) →
      Completes (.ackTimerExpiry c a) s fun t =>
        Leaves s (pump r.epId (modRecordId r.epId (closeGone s) (due.foldl (fun t x => retryOne r.epId x t) s))) t
        ∧ t.pair.hfReturned = s.pair.hfReturned + (due.filter fun x => decide (4 ≤ x.retries) && x.host.isSome).length
        ∧ t.pair.hfDelivered = s.pair.hfDelivered ∧ (due = [] → r.waiting = [] → recordId t r.epId = some (closeGone s r))
        ∧ SameBut [.link, .circ, .pair, .host, .air, .keep, .aead, .irq, .out] s t)
  ∧ (∀ (s : State) (c a : Nat) (r : Record) (n : Nat), circuitExists s c = true ∧ recordAt s c a = some r ∧ recordId s r.epId = some r ∧ gapSince r = some n ∧ n + 12 ≤ s.sf.number →
      Completes (.gapSkip c a) s fun t => circOf t c = bump .gapSkip (circOf s c) ∧ (∀ d, d ≠ c → circOf t d = circOf s d) ∧ Alone [.link, .circ, .host] s t)
  ∧ (∀ (s : State) (c a : Nat) (r : Record) (n : Nat), circuitExists s c = true ∧ recordAt s c a = some r ∧ recordId s r.epId = some r ∧ gapSince r = some n ∧ n + 12 ≤ s.sf.number → bitOf r.upMap 1 = false →
      Completes (.gapSkip c a) s fun t =>
        recordId t r.epId = some { r with upBase := (r.upBase + 1) % 4096, upMap := r.upMap >>> 1 } ∧ Alone [.link, .circ] s t)
  ∧ (∀ (s : State) (c a : Nat) (r : Record) (n : Nat), circuitExists s c = true ∧ recordAt s c a = some r ∧ recordId s r.epId = some r ∧ gapSince r = some n ∧ n + 12 ≤ s.sf.number → r.upMap = 2 →
      Completes (.gapSkip c a) s fun t =>
        (recordId t r.epId).map (fun y => (y.upBase, y.upMap)) = some (((r.upBase + 1) % 4096 + 1) % 4096, 0)
        ∧ t.host = (toRings ((r.held.filter fun h => h.1 == (r.upBase + 1) % 4096).filterMap (·.2.2)) s).host)
  ∧ (∀ (s : State) (c a : Nat) (r : Record) (k : Nat), circuitExists s c = true ∧ recordAt s c a = some r ∧ recordId s r.epId = some r ∧ pollUnanswered s r a = some k ∧ r.polls < 2 →
      Completes (.pollAnswerTimeout c a) s fun t =>
        recordId t r.epId = some { r with polls := r.polls + 1, pollAt := k } ∧ circOf t c = bump .pollFail (circOf s c)
        ∧ (∀ d, d ≠ c → circOf t d = circOf s d) ∧ Alone [.link, .circ] s t)
  ∧ (∀ (s : State) (c a : Nat) (r : Record) (k : Nat) (n : Nat), circuitExists s c = true ∧ recordAt s c a = some r ∧ recordId s r.epId = some r ∧ pollUnanswered s r a = some k ∧ 2 ≤ r.polls ∧ r.state = .active ∧ r.newAddr = none ∧ lowestFree s c = some n →
      Completes (.pollAnswerTimeout c a) s fun t =>
        (recordId t r.epId).map (fun y => (y.newAddr, y.addr, y.polls)) = some (some (n, s.sf.number), some a, 0)
        ∧ SameBut [.link, .circ, .air, .keep, .aead, .irq, .out] s t)
  ∧ (∀ (s : State) (c a : Nat) (r : Record) (k : Nat), circuitExists s c = true ∧ recordAt s c a = some r ∧ recordId s r.epId = some r ∧ pollUnanswered s r a = some k ∧ 2 ≤ r.polls → r.state ≠ .active ∨ r.newAddr.isSome = true ∨ lowestFree s c = none →
      Completes (.pollAnswerTimeout c a) s fun t =>
        recordId t r.epId = some { r with polls := r.polls + 1, pollAt := k } ∧ circOf t c = bump .pollFail (circOf s c) ∧ Alone [.link, .circ] s t)
  ∧ (∀ (s : State) (c a b n : Nat) (r : Record), circuitExists s c = true ∧ recordAt s c a = some r ∧ recordId s r.epId = some r ∧ r.newAddr = some (b, n) ∧ n + 4 < s.sf.number →
      Completes (.readdressTimeout c a) s fun t =>
        (recordId t r.epId).map (fun y => (y.state, y.addr, y.newAddr)) = some (.absent, none, none)
        ∧ t.link.quarantine = s.link.quarantine ++ [{ circuit := c, addr := a, untilSf := s.sf.number + 2 * (circOf s c).set.liveness }, { circuit := c, addr := b, untilSf := s.sf.number + 2 * (circOf s c).set.liveness }]
        ∧ t.pair.hfReturned = s.pair.hfReturned + (hostFrames r).length ∧ SameBut [.link, .circ, .pair, .host, .air, .keep, .aead, .irq, .out] s t)
  ∧ (∀ (s : State) (c a : Nat) (r : Record), circuitExists s c = true ∧ recordAt s c a = some r ∧ recordId s r.epId = some r ∧ r.state = .asleep ∧ r.wakeSf ≤ s.sf.number →
      Completes (.sleepWake c a) s fun t =>
        (recordId t r.epId).map (fun y => (y.state, y.addr, y.wakeSf)) = some (.active, some a, r.wakeSf)
        ∧ (r.waiting = [] → recordId t r.epId = some { r with state := .active, sent := r.sent.map fun x => { x with lastSf := x.lastSf + (s.sf.number - r.asleepSf) } })
        ∧ SameBut [.link, .circ, .air, .keep, .aead, .irq, .out] s t)
  ∧ (∀ (s : State) (c a : Nat), circuitExists s c = true →
      Completes (.quarantineExpiry c a) s fun t =>
        (∀ q, q ∈ t.link.quarantine ↔ q ∈ s.link.quarantine ∧ ¬(q.circuit = c ∧ q.addr = a ∧ q.untilSf ≤ s.sf.number))
        ∧ t.link = { s.link with quarantine := t.link.quarantine } ∧ Alone [.link] s t)
  ∧ (∀ (s : State) (ep : Nat), recordId s ep = none →
      Completes (.retainExpiry ep) s fun t => t = s)
  ∧ (∀ (s : State) (ep : Nat) (r : Record), recordId s ep = some r ∧ s.sf.number < max r.lastHeard r.wakeSf + (circOf s r.circuit).set.retain →
      Completes (.retainExpiry ep) s fun t => t = s)
  ∧ (∀ (s : State) (ep : Nat) (r : Record), recordId s ep = some r ∧ max r.lastHeard r.wakeSf + (circOf s r.circuit).set.retain ≤ s.sf.number →
      Completes (.retainExpiry ep) s fun t =>
        recordId t ep = none ∧ Logged 0x0030 (epWord r.circuit (r.addr.getD 0xFFF)).toNat s t
        ∧ SameBut [.link, .circ, .pair, .host, .air, .keep, .aead, .mem, .irq, .out] s t)

/-- A JOIN_REQ that no repeater forwarded makes a JOIN grant follow in each of the next 8 superframes. One of an attempt under way is challenged
anew with its EN; one of an identity without a join key counts JOIN_UNKNOWN and is reported; with the records or the circuit full, or the identity
denied, REJECT is sent once for an EN; any other reserves an address and is challenged. A RESPONSE that verifies makes the record ACTIVE at the
reserved address with both windows at SEQ 0, its epoch kept where the endpoint presented it and renewed to neither 0 nor that one otherwise; one
that fails ends the attempt and counts JOIN_AUTH_FAIL. Without a RESPONSE in 2 superframes a new challenge goes out, and at 8 superframes the
attempt is abandoned. A standby sends nothing. -/
def Obligations.JoinExchange : Prop :=
  (∀ (s : State) (f : RxFrame), circuitExists s f.circuit = true → f.frame.ftype ≠ 10 ∨ bodyType f ≠ 1 ∨ f.frame.src ≠ 0xFFF ∨ f.frame.dest ≠ 0 ∨ sendsAllowed s = false →
      Completes (.joinReq f) s fun t => t = s)
  ∧ (∀ (s : State) (f : RxFrame), circuitExists s f.circuit = true → f.frame.ftype ≠ 10 ∨ bodyType f ≠ 3 ∨ f.frame.dest ≠ 0 ∨ sendsAllowed s = false →
      Completes (.joinResponse f ()) s fun t => t = s)
  ∧ (∀ (s s0 : State) (f : RxFrame) (c ep en : Nat) (j : Join), circuitExists s f.circuit = true ∧ f.frame.ftype = 10 ∧ bodyType f = 1 ∧ f.frame.src = 0xFFF ∧ f.frame.dest = 0 ∧ sendsAllowed s = true → c = f.circuit ∧ ep = joinId f ∧ en = fieldOf (bodyWord f 0) 31 0 → s0 = (if f.frame.flags / 2 % 2 = 1 then s else joinsFollow c s) → joinOf s c ep = some j →
      Completes (.joinReq f) s fun t =>
        Leaves s (challenge { j with en := en } s0) t ∧ (∃ hn, { j with en := en, hn := hn, challengeSf := s.sf.number } ∈ t.link.joins)
        ∧ SameBut [.clk, .aead, .link, .circ, .air, .irq, .out] s t)
  ∧ (∀ (s s0 : State) (f : RxFrame) (c ep en : Nat), circuitExists s f.circuit = true ∧ f.frame.ftype = 10 ∧ bodyType f = 1 ∧ f.frame.src = 0xFFF ∧ f.frame.dest = 0 ∧ sendsAllowed s = true → c = f.circuit ∧ ep = joinId f ∧ en = fieldOf (bodyWord f 0) 31 0 → s0 = (if f.frame.flags / 2 % 2 = 1 then s else joinsFollow c s) → joinOf s c ep = none ∧ joinKey s ep = [] →
      Completes (.joinReq f) s fun t =>
        circOf t c = bump .joinUnknown (circOf s0 c) ∧ (∀ d, d ≠ c → circOf t d = circOf s d) ∧ Logged 0x0031 (epWord c 0xFFF).toNat s t ∧ SameBut [.circ, .irq, .mem, .out] s t)
  ∧ (∀ (s s0 : State) (f : RxFrame) (c ep en : Nat) (reason : Nat), circuitExists s f.circuit = true ∧ f.frame.ftype = 10 ∧ bodyType f = 1 ∧ f.frame.src = 0xFFF ∧ f.frame.dest = 0 ∧ sendsAllowed s = true → c = f.circuit ∧ ep = joinId f ∧ en = fieldOf (bodyWord f 0) 31 0 → s0 = (if f.frame.flags / 2 % 2 = 1 then s else joinsFollow c s) → joinOf s c ep = none ∧ joinKey s ep ≠ [] → reason = (if recordId s ep = none ∧ 16384 ≤ s.link.records.length then 1 else if recordId s ep = none ∧ 64 ≤ (s.link.records.filter fun r => r.circuit == c).length then 2
            else if (c, ep) ∈ s.link.denied then 3 else 0) → reason ≠ 0 ∧ (ep, en) ∉ s.link.rejected →
      Completes (.joinReq f) s fun t =>
        Leaves s (reject c ep en reason s0) t ∧ t.link.rejected = s.link.rejected ++ [(ep, en)] ∧ t.link.joins = s.link.joins
        ∧ SameBut [.link, .circ, .air, .irq, .out] s t)
  ∧ (∀ (s s0 : State) (f : RxFrame) (c ep en : Nat) (reason : Nat), circuitExists s f.circuit = true ∧ f.frame.ftype = 10 ∧ bodyType f = 1 ∧ f.frame.src = 0xFFF ∧ f.frame.dest = 0 ∧ sendsAllowed s = true → c = f.circuit ∧ ep = joinId f ∧ en = fieldOf (bodyWord f 0) 31 0 → s0 = (if f.frame.flags / 2 % 2 = 1 then s else joinsFollow c s) → joinOf s c ep = none ∧ joinKey s ep ≠ [] → reason = (if recordId s ep = none ∧ 16384 ≤ s.link.records.length then 1 else if recordId s ep = none ∧ 64 ≤ (s.link.records.filter fun r => r.circuit == c).length then 2
            else if (c, ep) ∈ s.link.denied then 3 else 0) → reason ≠ 0 ∧ (ep, en) ∈ s.link.rejected →
      Completes (.joinReq f) s fun t => t.link = s.link ∧ t.circ = s0.circ ∧ Alone [.circ] s t)
  ∧ (∀ (s s0 : State) (f : RxFrame) (c ep en : Nat) (reason : Nat), circuitExists s f.circuit = true ∧ f.frame.ftype = 10 ∧ bodyType f = 1 ∧ f.frame.src = 0xFFF ∧ f.frame.dest = 0 ∧ sendsAllowed s = true → c = f.circuit ∧ ep = joinId f ∧ en = fieldOf (bodyWord f 0) 31 0 → s0 = (if f.frame.flags / 2 % 2 = 1 then s else joinsFollow c s) → joinOf s c ep = none ∧ joinKey s ep ≠ [] → reason = (if recordId s ep = none ∧ 16384 ≤ s.link.records.length then 1 else if recordId s ep = none ∧ 64 ≤ (s.link.records.filter fun r => r.circuit == c).length then 2
            else if (c, ep) ∈ s.link.denied then 3 else 0) → reason = 0 ∧ joinAddr s c ep = none →
      Completes (.joinReq f) s fun t => t.link = s.link ∧ t.circ = s0.circ ∧ Alone [.circ] s t)
  ∧ (∀ (s s0 : State) (f : RxFrame) (c ep en : Nat) (reason a : Nat) (fresh : Bool), circuitExists s f.circuit = true ∧ f.frame.ftype = 10 ∧ bodyType f = 1 ∧ f.frame.src = 0xFFF ∧ f.frame.dest = 0 ∧ sendsAllowed s = true → c = f.circuit ∧ ep = joinId f ∧ en = fieldOf (bodyWord f 0) 31 0 → s0 = (if f.frame.flags / 2 % 2 = 1 then s else joinsFollow c s) → joinOf s c ep = none ∧ joinKey s ep ≠ [] → reason = (if recordId s ep = none ∧ 16384 ≤ s.link.records.length then 1 else if recordId s ep = none ∧ 64 ≤ (s.link.records.filter fun r => r.circuit == c).length then 2
            else if (c, ep) ∈ s.link.denied then 3 else 0) → reason = 0 ∧ joinAddr s c ep = some (a, fresh) →
      Completes (.joinReq f) s fun t =>
        (∃ j ∈ t.link.joins, j.circuit = c ∧ j.epId = ep ∧ j.paddr = a ∧ j.fresh = fresh ∧ j.en = en ∧ j.caps = fieldOf (bodyWord f 0) 55 48
          ∧ j.stored = fieldOf (bodyWord f 0) 47 32 ∧ j.firstSf = s.sf.number ∧ j.challengeSf = s.sf.number)
        ∧ SameBut [.clk, .aead, .link, .circ, .air, .keep, .irq, .out] s t)
  ∧ (∀ (s : State) (f : RxFrame), circuitExists s f.circuit = true ∧ f.frame.ftype = 10 ∧ bodyType f = 3 ∧ f.frame.dest = 0 ∧ sendsAllowed s = true → joinOf s f.circuit (joinId f) = none ∧ (senderOf f s).isNone = true →
      Completes (.joinResponse f ()) s fun t => Counted .unknownSrc f.circuit s t)
  ∧ (∀ (s : State) (f : RxFrame), circuitExists s f.circuit = true ∧ f.frame.ftype = 10 ∧ bodyType f = 3 ∧ f.frame.dest = 0 ∧ sendsAllowed s = true → joinOf s f.circuit (joinId f) = none ∧ (senderOf f s).isSome = true →
      Completes (.joinResponse f ()) s fun t => t = s)
  ∧ (∀ (s : State) (f : RxFrame) (j : Join), circuitExists s f.circuit = true ∧ f.frame.ftype = 10 ∧ bodyType f = 3 ∧ f.frame.dest = 0 ∧ sendsAllowed s = true → joinOf s f.circuit (joinId f) = some j ∧ j.paddr ≠ f.frame.src →
      Completes (.joinResponse f ()) s fun t => t = s)
  ∧ (∀ (s : State) (f : RxFrame) (j : Join), circuitExists s f.circuit = true ∧ f.frame.ftype = 10 ∧ bodyType f = 3 ∧ f.frame.dest = 0 ∧ sendsAllowed s = true → joinOf s f.circuit (joinId f) = some j ∧ j.paddr = f.frame.src → responseOk s j f = false →
      Completes (.joinResponse f ()) s fun t =>
        circOf t f.circuit = bump .joinAuthFail (circOf s f.circuit) ∧ (∀ d, d ≠ f.circuit → circOf t d = circOf s d)
        ∧ joinOf t f.circuit (joinId f) = none ∧ t.link = { s.link with joins := t.link.joins } ∧ Alone [.circ, .link] s t)
  ∧ (∀ (s : State) (f : RxFrame) (j : Join), circuitExists s f.circuit = true ∧ f.frame.ftype = 10 ∧ bodyType f = 3 ∧ f.frame.dest = 0 ∧ sendsAllowed s = true → joinOf s f.circuit (joinId f) = some j ∧ j.paddr = f.frame.src → responseOk s j f = true →
      Completes (.joinResponse f ()) s fun t =>
        joinOf t f.circuit (joinId f) = none
        ∧ (∃ y, recordId t j.epId = some y ∧ y.state = .active ∧ y.circuit = j.circuit ∧ y.addr = some j.paddr ∧ y.newAddr = none ∧ y.upBase = 0 ∧ y.upMap = 0 ∧ y.held = []
          ∧ y.lastHeard = s.sf.number ∧ y.snap = {} ∧ y.caps = j.caps
          ∧ (∀ r, recordId s j.epId = some r → r.epoch = j.stored → y.epoch = r.epoch)
          ∧ ((∀ r, recordId s j.epId = some r → r.epoch ≠ j.stored) → y.epoch ≠ 0 ∧ y.epoch ≠ j.stored))
        ∧ SameBut [.circ, .link, .host, .air, .aead, .clk, .keep, .irq, .out] s t)
  ∧ (∀ (s : State) (c ep : Nat), circuitExists s c = true ∧ joinOf s c ep = none →
      Completes (.joinChallengeTimeout c ep) s fun t => t = s)
  ∧ (∀ (s : State) (c ep : Nat), circuitExists s c = true ∧ joinOf s c ep = none →
      Completes (.joinAbandon c ep) s fun t => t = s)
  ∧ (∀ (s : State) (c ep : Nat) (j : Join), circuitExists s c = true ∧ joinOf s c ep = some j → s.sf.number ≤ j.challengeSf + 2 ∨ j.firstSf + 8 ≤ s.sf.number ∨ sendsAllowed s = false →
      Completes (.joinChallengeTimeout c ep) s fun t => t = s)
  ∧ (∀ (s : State) (c ep : Nat) (j : Join), circuitExists s c = true ∧ joinOf s c ep = some j → j.challengeSf + 2 < s.sf.number ∧ s.sf.number < j.firstSf + 8 ∧ sendsAllowed s = true →
      Completes (.joinChallengeTimeout c ep) s fun t =>
        Leaves s (challenge j s) t ∧ (∃ hn, { j with hn := hn, challengeSf := s.sf.number } ∈ t.link.joins) ∧ SameBut [.clk, .aead, .link, .circ, .air, .irq, .out] s t)
  ∧ (∀ (s : State) (c ep : Nat) (j : Join), circuitExists s c = true ∧ joinOf s c ep = some j → s.sf.number < j.firstSf + 8 →
      Completes (.joinAbandon c ep) s fun t => t = s)
  ∧ (∀ (s : State) (c ep : Nat) (j : Join), circuitExists s c = true ∧ joinOf s c ep = some j → j.firstSf + 8 ≤ s.sf.number →
      Completes (.joinAbandon c ep) s fun t =>
        circOf t c = bump .joinAbandon (circOf s c) ∧ (∀ d, d ≠ c → circOf t d = circOf s d) ∧ joinOf t c ep = none
        ∧ (∀ k ∈ s.link.joins, k.circuit ≠ c ∨ k.epId ≠ ep → k ∈ t.link.joins) ∧ Alone [.circ, .link] s t)

/-- A reply to the request that is awaited, with a stamp of its ranging symbol, a matching RANGE_ID and trusted device time, gives D = ((t4 - t1) -
TURN) / 2 and the endpoint's error; without one of these the exchange is unanswered and RANGE_MISS counts, eight in a row leaving the endpoint
UNRANGED. A D that is further than RANGE_REJECT from the median of the last five is an outlier and is not used, except that the third of them in
agreement replaces the five. A TURN_REPORT keeps TURN_D and, once D exists, gives the error; a RANGE_REPORT does for a far endpoint what a reply
does. -/
def Obligations.RangingAnswers : Prop :=
  (∀ (s : State) (f : RxFrame) (r x : Record), circuitExists s f.circuit = true ∧ f.frame.ftype = 11 ∧ bodyType f = 2 ∧ f.frame.dest = 0 ∧ senderOf f s = some r ∧ recordId (heard f r s) r.epId = some x → x.range.t1 = none →
      Completes (.rangeReply f ()) s fun t => t.link = (heard f r s).link ∧ Alone [] (heard f r s) t)
  ∧ (∀ (s : State) (f : RxFrame) (r x : Record), circuitExists s f.circuit = true ∧ f.frame.ftype = 11 ∧ bodyType f = 2 ∧ f.frame.dest = 0 ∧ senderOf f s = some r ∧ recordId (heard f r s) r.epId = some x → x.range.t1.isSome = true ∧ (rangeStamp (heard f r s) f.circuit = none ∨ fieldOf (bodyWord f 0) 55 48 ≠ x.range.id ∨ s.sf.beaconTrusted = false) →
      Completes (.rangeReply f ()) s fun t =>
        recordId t r.epId = some { x with range := { x.range with t1 := none, misses := x.range.misses + 1, missCount := sat32 x.range.missCount 1, unranged := x.range.unranged || decide (8 ≤ x.range.misses + 1) } }
        ∧ Alone [.link] (heard f r s) t)
  ∧ (∀ (s : State) (f : RxFrame) (r x : Record) (t1 t4 d : Int), circuitExists s f.circuit = true ∧ f.frame.ftype = 11 ∧ bodyType f = 2 ∧ f.frame.dest = 0 ∧ senderOf f s = some r ∧ recordId (heard f r s) r.epId = some x → x.range.t1 = some t1 ∧ rangeStamp (heard f r s) f.circuit = some t4 ∧ fieldOf (bodyWord f 0) 55 48 = x.range.id ∧ s.sf.beaconTrusted = true → d = (t4 - t1 - fieldOf (bodyWord f 0) 47 0) / 2 → newDist (rangeReject16 (heard f r s) x.circuit) x.range d = none →
      Completes (.rangeReply f ()) s fun t =>
        recordId t r.epId = some { x with range := { x.range with t1 := none, misses := 0, outliers := (d :: x.range.outliers).take 3, outlierCount := sat32 x.range.outlierCount 1 } }
        ∧ Alone [.link] (heard f r s) t)
  ∧ (∀ (s : State) (f : RxFrame) (r x : Record) (t1 t4 d : Int) (g : Ranging), circuitExists s f.circuit = true ∧ f.frame.ftype = 11 ∧ bodyType f = 2 ∧ f.frame.dest = 0 ∧ senderOf f s = some r ∧ recordId (heard f r s) r.epId = some x → x.range.t1 = some t1 ∧ rangeStamp (heard f r s) f.circuit = some t4 ∧ fieldOf (bodyWord f 0) 55 48 = x.range.id ∧ s.sf.beaconTrusted = true → d = (t4 - t1 - fieldOf (bodyWord f 0) 47 0) / 2 → newDist (rangeReject16 (heard f r s) x.circuit) x.range d = some g →
      Completes (.rangeReply f ()) s fun t =>
        (recordId t r.epId).map (·.range) = some { g with t1 := none, unranged := false, misses := 0, theta := (nearest (shortOf (bodyWord f 1) - (t1 + d)) :: g.theta).take 4, lastSf := s.sf.number }
        ∧ SameBut [.link, .circ, .air, .keep, .aead, .irq, .out] (heard f r s) t)
  ∧ (∀ (reject : Nat) (g : Ranging) (d : Int), g.dist = [] ∨ (d - medianInt g.dist).natAbs ≤ reject →
      newDist reject g d = some { g with dist := (d :: g.dist).take 5, outliers := [] })
  ∧ (∀ (reject : Nat) (g : Ranging) (d : Int) (a b : Int), g.dist ≠ [] ∧ reject < (d - medianInt g.dist).natAbs ∧ g.outliers = [a, b] ∧ (d - a).natAbs ≤ reject ∧ (d - b).natAbs ≤ reject ∧ (a - b).natAbs ≤ reject →
      newDist reject g d = some { g with dist := [d, a, b], outliers := [] })
  ∧ (∀ (reject : Nat) (g : Ranging) (d : Int), g.dist ≠ [] ∧ reject < (d - medianInt g.dist).natAbs ∧ g.outliers.length < 2 →
      newDist reject g d = none)
  ∧ (∀ (s z : State) (f : RxFrame) (r x : Record), circuitExists s f.circuit = true ∧ f.frame.dest = 0 ∧ f.frame.ftype = 7 ∧ bodyType f = 0x10 ∧ senderOf f s = some r ∧ classify f false r.epId (heard f r s) = (true, z) ∧ recordId z r.epId = some x → x.range.dist = [] →
      Completes (.turnReport f) s fun t =>
        feedOf t f.circuit = { feedOf z f.circuit with turnD := fieldOf (bodyWord f 0) 47 0 } ∧ (∀ d, d ≠ f.circuit → feedOf t d = feedOf z d) ∧ Out.toMp f ∈ t.out
        ∧ t.link = z.link ∧ Alone [.feed] z t)
  ∧ (∀ (s z : State) (f : RxFrame) (r x : Record) (d : Int) (ds : List Int), circuitExists s f.circuit = true ∧ f.frame.dest = 0 ∧ f.frame.ftype = 7 ∧ bodyType f = 0x10 ∧ senderOf f s = some r ∧ classify f false r.epId (heard f r s) = (true, z) ∧ recordId z r.epId = some x → x.range.dist = d :: ds →
      Completes (.turnReport f) s fun t =>
        feedOf t f.circuit = { feedOf z f.circuit with turnD := fieldOf (bodyWord f 0) 47 0 } ∧ (∀ d, d ≠ f.circuit → feedOf t d = feedOf z d) ∧ Out.toMp f ∈ t.out
        ∧ recordId t r.epId = some { x with range := { x.range with unranged := false, theta := (nearest (shortOf (bodyWord f 2)
            - (departure z f.circuit 0 + 16000 * ((bodyWord f 1).toNat - z.clk.tick : Int) + d)) :: x.range.theta).take 4 } }
        ∧ Alone [.feed, .link] z t)
  ∧ (∀ (s z : State) (f : RxFrame) (r : Record), circuitExists s f.circuit = true ∧ f.frame.dest = 0 ∧ f.frame.ftype = 7 ∧ bodyType f = 0x11 ∧ senderOf f s = some r ∧ classify f false r.epId (heard f r s) = (true, z) → recordAt z f.circuit (fieldOf (bodyWord f 0) 47 36) = none →
      Completes (.rangeReport f) s fun t => Out.toMp f ∈ t.out ∧ Alone [] z t)
  ∧ (∀ (s z : State) (f : RxFrame) (r x : Record) (d : Int), circuitExists s f.circuit = true ∧ f.frame.dest = 0 ∧ f.frame.ftype = 7 ∧ bodyType f = 0x11 ∧ senderOf f s = some r ∧ classify f false r.epId (heard f r s) = (true, z) → recordAt z f.circuit (fieldOf (bodyWord f 0) 47 36) = some x ∧ recordId z x.epId = some x → d = (nearest (shortOf (bodyWord f 2) - shortOf (bodyWord f 1)) - fieldOf (bodyWord f 3) 47 0) / 2 → s.sf.beaconTrusted = false →
      Completes (.rangeReport f) s fun t =>
        recordId t x.epId = some { x with range := { x.range with t1 := none, misses := x.range.misses + 1, missCount := sat32 x.range.missCount 1, unranged := x.range.unranged || decide (8 ≤ x.range.misses + 1) } }
        ∧ Alone [.link] z t)
  ∧ (∀ (s z : State) (f : RxFrame) (r x : Record) (d : Int), circuitExists s f.circuit = true ∧ f.frame.dest = 0 ∧ f.frame.ftype = 7 ∧ bodyType f = 0x11 ∧ senderOf f s = some r ∧ classify f false r.epId (heard f r s) = (true, z) → recordAt z f.circuit (fieldOf (bodyWord f 0) 47 36) = some x ∧ recordId z x.epId = some x → d = (nearest (shortOf (bodyWord f 2) - shortOf (bodyWord f 1)) - fieldOf (bodyWord f 3) 47 0) / 2 → s.sf.beaconTrusted = true ∧ newDist (rangeReject16 z x.circuit) x.range d = none →
      Completes (.rangeReport f) s fun t =>
        recordId t x.epId = some { x with range := { x.range with t1 := none, misses := 0, outliers := (d :: x.range.outliers).take 3, outlierCount := sat32 x.range.outlierCount 1 } }
        ∧ Alone [.link] z t)
  ∧ (∀ (s z : State) (f : RxFrame) (r x : Record) (d : Int) (g : Ranging), circuitExists s f.circuit = true ∧ f.frame.dest = 0 ∧ f.frame.ftype = 7 ∧ bodyType f = 0x11 ∧ senderOf f s = some r ∧ classify f false r.epId (heard f r s) = (true, z) → recordAt z f.circuit (fieldOf (bodyWord f 0) 47 36) = some x ∧ recordId z x.epId = some x → d = (nearest (shortOf (bodyWord f 2) - shortOf (bodyWord f 1)) - fieldOf (bodyWord f 3) 47 0) / 2 → s.sf.beaconTrusted = true ∧ newDist (rangeReject16 z x.circuit) x.range d = some g →
      Completes (.rangeReport f) s fun t =>
        (recordId t x.epId).map (·.range) = some { g with t1 := none, unranged := false, misses := 0, theta := (nearest (shortOf (bodyWord f 4) - (shortOf (bodyWord f 1) + d)) :: g.theta).take 4, lastSf := s.sf.number }
        ∧ SameBut [.link, .circ, .air, .keep, .aead, .irq, .out] z t)
  ∧ (∀ (s : State) (f : RxFrame) (r : Record), circuitExists s f.circuit = true ∧ f.frame.dest = 0 ∧ senderOf f s = some r ∧ f.frame.ftype = 7 ∧ (classify f false r.epId (heard f r s)).1 = false ∧ bodyType f = 0x10 →
      Completes (.turnReport f) s fun t => t.link = (classify f false r.epId (heard f r s)).2.link ∧ Alone [] (classify f false r.epId (heard f r s)).2 t)
  ∧ (∀ (s : State) (f : RxFrame) (r : Record), circuitExists s f.circuit = true ∧ f.frame.dest = 0 ∧ senderOf f s = some r ∧ f.frame.ftype = 7 ∧ (classify f false r.epId (heard f r s)).1 = false ∧ bodyType f = 0x11 →
      Completes (.rangeReport f) s fun t => t.link = (classify f false r.epId (heard f r s)).2.link ∧ Alone [] (classify f false r.epId (heard f r s)).2 t)

/-- A WRITE, GENERATE or UNWRAP of a slot replaces its key, SIZE and EPOCH. It never lowers the slot's counter. The counter becomes the larger of
its present value and AEAD_KFLOOR, which counts as zero for the host. An operation copies its key and epoch when it starts, and a load that lands
during it leaves that copy alone. -/
def Obligations.KeySlotLoads : Prop :=
  (∀ (s : State) (r : Nat) (v : Word), 1 ≤ r ∧ r ≤ 4 ∧ domOn s 29 = true ∧ slotLoadable r (fieldOf v 24 20) = true →
      ∀ k, k = fieldOf v 24 20 → Completes (.aeadKeyWrite r v) s fun t =>
        slotOf t k = { slotOf s k with
          key := some (if bitOf v 25 then (aeadPort s r).key else (aeadPort s r).key.take 2), size := bitOf v 25, epoch := fieldOf v 63 32
          counter := max (slotOf s k).counter (if r = 4 then 0 else (aeadPort s r).floor.toNat) }
        ∧ (∀ j, j ≠ k → slotOf t j = slotOf s j) ∧ t.aead.run = s.aead.run ∧ Alone [.aead] s t)
  ∧ (∀ (s : State) (res : AeadAccess) (a : AeadRun), s.aead.run = some a ∧ marksPending s = false ∧ a.verdict = none ∧ a.port.op = opGenerate → (a.requester = 4 → res.src.isSome = true ∧ res.dstOk = true) ∧ (a.requester ≠ 4 → a.port.src.toNat ≤ 67108864 ∧ a.port.dst.toNat ≤ 67108864) →
      Completes (.aeadOpDone res) s fun t =>
        (∃ key, key.length = (if a.port.kSize then 4 else 2) ∧ slotOf t a.port.target = { slotOf s a.port.target with
          key := some key, size := a.port.kSize, epoch := a.port.kEpoch
          counter := max (slotOf s a.port.target).counter (if a.requester = 4 then 0 else a.port.floor.toNat) })
        ∧ (∀ j, j ≠ a.port.target → slotOf t j = slotOf s j) ∧ t.aead.run = none)
  ∧ (∀ (s : State) (res : AeadAccess) (a : AeadRun) (src : List Byte), s.aead.run = some a ∧ marksPending s = false ∧ a.verdict = none ∧ a.port.op = opUnwrap → (a.requester = 4 → res.src = some src ∧ res.dstOk = true) ∧ (a.requester ≠ 4 → src = memRead s.mem.near a.port.src.toNat (aeadInLen a.port) ∧ a.port.src.toNat + aeadInLen a.port ≤ 67108864 ∧ a.port.dst.toNat ≤ 67108864) →
      ∀ o, o = aeadOpen a.port.ccm a.key (a.nonceH.toNat * 4294967296 + a.nonceL) (src.take a.port.adLen) ((src.drop a.port.adLen).take a.port.textLen) (src.drop (a.port.adLen + a.port.textLen)) →
        (∀ key, o = some key → Completes (.aeadOpDone res) s fun t =>
          slotOf t a.port.target = { slotOf s a.port.target with
            key := some (keyOfBytes key), size := a.port.kSize, epoch := a.port.kEpoch
            counter := max (slotOf s a.port.target).counter (if a.requester = 4 then 0 else a.port.floor.toNat) }
          ∧ (∀ j, j ≠ a.port.target → slotOf t j = slotOf s j) ∧ t.aead.run = none)
        ∧ (o = none → Completes (.aeadOpDone res) s fun t => (∀ j, slotOf t j = slotOf s j) ∧ t.aead.run = none))
  ∧ (∀ (s : State) (r op : Nat) (v : Word) (i : Instr), 1 ≤ r ∧ r ≤ 4 ∧ domOn s 29 = true ∧ s.aead.owner = r ∧ s.aead.st ≠ .running → (op, i) ∈ [(1, .aeadEncrypt r v), (2, .aeadDecrypt r v), (3, .aeadWrap r v), (4, .aeadUnwrap r v), (5, .aeadGenerate r v), (6, .aeadJoinMac r v)] →
      Completes i s fun t => ∃ a, t.aead.run = some a ∧ a.port.op = op ∧ a.requester = r ∧ a.key = (slotOf s (fieldOf v 26 22)).key.getD [] ∧ a.epoch = (slotOf s (fieldOf v 26 22)).epoch ∧ a.size = (slotOf s (fieldOf v 26 22)).size)

/-- Over every command each word's wear counter stays or rises by one, and it rises by one exactly where a write of the word completes, which alone
changes what the word holds. A word whose counter has reached 100,000 is WORN: while the write in progress is on another word, which every command
keeps true, no command changes a WORN word or its counter, a write to it is refused with status WORN, and a read of it answers its value. -/
def Obligations.KeepStoreWear : Prop :=
  (∀ (i : Instr) (s t : State) (w : Nat), exec i s = .next t →
      (cellOf s w).wear ≤ (cellOf t w).wear ∧ (cellOf t w).wear ≤ (cellOf s w).wear + 1
      ∧ (cellOf t w ≠ cellOf s w → (cellOf t w).wear = (cellOf s w).wear + 1 ∧ ∃ k, s.keep.active = some k ∧ k.word = w ∧ (cellOf t w).value = k.value)
      ∧ (WriteOpen s → worn s w = true → cellOf t w = cellOf s w)
      ∧ (WriteOpen s → (cellOf s w).wear ≤ 100000 → (cellOf t w).wear ≤ 100000)
      ∧ (WriteOpen s → WriteOpen t))
  ∧ (∀ (s : State) (w : KeepWrite), s.keep.active = some w ∧ keepOwned w.source w.word = true ∧ s.keep.startedAt + 20 ≤ s.clk.now →
      Completes .keepWriteDone s fun t => (cellOf t w.word).wear = (cellOf s w.word).wear + 1 ∧ (cellOf t w.word).value = w.value)
  ∧ (∀ (s : State) (w : KeepWrite) (k : Keep), s.keep.active = none ∧ s.pins.rails.vppKeep = true ∧ keepNext s.keep = some (w, k) ∧ worn s w.word = true →
      Completes .keepWriteStart s fun t => (∀ j, cellOf t j = cellOf s j) ∧ t.keep.active = none ∧ (w.source = .host → t.keep.result = 2))
  ∧ (∀ (s : State), worn s s.keep.addr = true ∧ hostSealed s.keep.addr = false →
      Completes .ksDataRead s fun t => Out.read [(cellOf s s.keep.addr).value] ∈ t.out)

/-- Whatever command runs, where a bit of PENDING goes from 0 to 1 the next state has EVENT_VECTOR signalled: the vector's pending bit set where the
vector is masked, its message sent otherwise. So it is where a write of INT_CAUSE, INT_MASK or MB_DONE_MAP leaves PENDING non-zero, and such a write
gives one message at most. EVENT_VECTOR holds six bits and is 0 at reset; a write of MB_DONE_MAP clears the bits it names, and a host mailbox that
reaches DONE sets its own. -/
def Obligations.PendingRiseSignals : Prop :=
  (∀ (i : Instr) (s t : State), exec i s = .next t ∧ intPending t &&& ~~~ intPending s ≠ 0 →
      Told t)
  ∧ (∀ (s : State) (v : Word), ∀ i ∈ [Instr.intCauseWrite v, .intMaskWrite v, .mbDoneMapWrite v, .registerWrite 4 0 0x1000 8 v, .registerWrite 4 0 0x1008 8 v, .registerWrite 4 0 0x1018 8 v],
        Completes i s fun t => (intPending t ≠ 0 → Told t) ∧ (t.out = s.out ∨ ∃ o, t.out = o :: s.out))
  ∧ (∀ (s : State) (v : Word), Completes (.eventVectorWrite v) s (fun t => t.irq.vector = fieldOf v 5 0 ∧ t.irq.vector < 64) ∧ Completes (.mbDoneMapWrite v) s (fun t => t.irq.mbDone = s.irq.mbDone &&& ~~~ v)
        ∧ State.reset.irq.vector = 0 ∧ State.reset.irq.mbDone = 0
        ∧ (∀ m, m < 24 → (boxOf s m).st = .posted ∨ (boxOf s m).st = .running → Completes (.mbCancel m) s fun t => t.irq.mbDone = s.irq.mbDone ||| bitAt m true))

/-- With a command at the front of the queue a step is that command's effect on the state that holds the rest of the queue; on an empty queue the
block idles, which is the model's choice (log entry 1). -/
def Obligations.StepRunsTheFront : Prop :=
  ∀ (s : State) (c : Instr) (q : List Instr), step { s with pending := c :: q } = exec c { s with pending := q } ∧ step { s with pending := [] } = .next { s with pending := [] }

/-- The keep store stays in canonical form and every waiting command goes on to name objects that the variant has, which the identity word says and
no command changes. -/
def Obligations.StepKeepsInvariant : Prop :=
  ∀ (s t : State), Inv s ∧ step s = .next t →
      Inv t ∧ (∀ w, w < 256 → cellOf t w = cellOf s w) ∧ isH t = isH s

/-- The reset state has the keep store and the byte-addressed memories in canonical form, no waiting command, no endpoint record and no keep-store
write in progress. -/
def Obligations.InvariantAtReset : Prop :=
  Inv State.reset ∧ Memory.wf State.reset.mem ∧ OneRecordEach State.reset ∧ WriteOpen State.reset

/-- From every state that meets the invariant a step answers a next state: a command that the device refuses, or one on an object that is off, still
completes. -/
def Obligations.NoStepStops : Prop :=
  ∀ (s : State), Inv s →
      SafeStep s

/-- Where every endpoint identity has one record, it has one after any command: a join replaces its record, and no command makes a second one. -/
def Obligations.OneRecordForEachIdentity : Prop :=
  ∀ (i : Instr) (s t : State), exec i s = .next t ∧ OneRecordEach s →
      OneRecordEach t

/-- For every lifting Z and all information bits, the sum over each block row of the base matrix of the shifted blocks of the codeword is zero, the
blocks of columns 0 to 15 being the information bits and those of columns 16 to 31 the parity blocks of the encoding. -/
def Obligations.CodewordMeetsChecks : Prop :=
  ∀ (z : Nat) (u : List Bool), 0 < z ∧ u.length = 16 * z →
      (parityBlocks z u).length = 16 ∧ ∀ i, i < 16 →
        (hbRow i).foldl (fun a e => xorBits a (permBlock (e.2 % z) (if e.1 < 16 then blockOf z e.1 u else (parityBlocks z u).getD (e.1 - 16) []))) (List.replicate z false) = List.replicate z false

/-- The scrambling sequence is that of a 15-bit register loaded with 1, the circuit index and the codeword index mod 16, which gives bit 14 plus bit
13 and shifts it in; scrambling twice gives the bits back. The wire positions of a PPDU of a multiple of 16 coded bits are all different and all
within the PPDU, so the deinterleaver gives every soft bit of the wire back in its place, and with no delay the order is the same. -/
def Obligations.ScramblerAndInterleaver : Prop :=
  (∀ (c k : Nat) (bs : List Bool), scramble c k (scramble c k bs) = bs ∧ (scramble c k bs).length = bs.length
      ∧ ∃ reg : Nat → BitVec 15, reg 0 = BitVec.ofNat 1 1 ++ BitVec.ofNat 10 c ++ BitVec.ofNat 4 k
        ∧ (∀ n, reg (n + 1) = (reg n <<< 1) ||| (if (reg n).getLsbD 14 ^^ (reg n).getLsbD 13 then 1 else 0))
        ∧ ∀ n, n < bs.length → (scramble c k bs).getD n false = (bs.getD n false ^^ ((reg n).getLsbD 14 ^^ (reg n).getLsbD 13)))
  ∧ (∀ (d l i : Nat), l % 16 = 0 ∧ i < l →
      wirePos d l i < l ∧ (∀ j, j < l → wirePos d l j = wirePos d l i → j = i) ∧ wirePos 0 l i = i
      ∧ ∀ bs : List Int, bs.length = l → (deinterleaveA l d bs).getD i 0 = bs.getD (wirePos d l i) 0)
end

