-- ==== Sys2Proof/Laws/State.lean ====
section
/-! SUPPORT. What each named update of the state leaves as it was: one lemma for each update and each field it does not change, so that no later
proof unfolds a record update. -/
namespace Sys2Proof.Machine

@[simp] theorem emit_clk (o : Out) (s : State) : (emit o s).clk = s.clk := rfl
@[simp] theorem emit_pins (o : Out) (s : State) : (emit o s).pins = s.pins := rfl
@[simp] theorem emit_pwr (o : Out) (s : State) : (emit o s).pwr = s.pwr := rfl
@[simp] theorem emit_avs (o : Out) (s : State) : (emit o s).avs = s.avs := rfl
@[simp] theorem emit_age (o : Out) (s : State) : (emit o s).age = s.age := rfl
@[simp] theorem emit_keep (o : Out) (s : State) : (emit o s).keep = s.keep := rfl
@[simp] theorem emit_chk (o : Out) (s : State) : (emit o s).chk = s.chk := rfl
@[simp] theorem emit_mb (o : Out) (s : State) : (emit o s).mb = s.mb := rfl
@[simp] theorem emit_mp (o : Out) (s : State) : (emit o s).mp = s.mp := rfl
@[simp] theorem emit_irq (o : Out) (s : State) : (emit o s).irq = s.irq := rfl
@[simp] theorem emit_aead (o : Out) (s : State) : (emit o s).aead = s.aead := rfl
@[simp] theorem emit_sec (o : Out) (s : State) : (emit o s).sec = s.sec := rfl
@[simp] theorem emit_host (o : Out) (s : State) : (emit o s).host = s.host := rfl
@[simp] theorem emit_mem (o : Out) (s : State) : (emit o s).mem = s.mem := rfl
@[simp] theorem emit_pair (o : Out) (s : State) : (emit o s).pair = s.pair := rfl
@[simp] theorem emit_tku (o : Out) (s : State) : (emit o s).tku = s.tku := rfl
@[simp] theorem emit_ev (o : Out) (s : State) : (emit o s).ev = s.ev := rfl
@[simp] theorem emit_sf (o : Out) (s : State) : (emit o s).sf = s.sf := rfl
@[simp] theorem emit_plan (o : Out) (s : State) : (emit o s).plan = s.plan := rfl
@[simp] theorem emit_port (o : Out) (s : State) : (emit o s).port = s.port := rfl
@[simp] theorem emit_circ (o : Out) (s : State) : (emit o s).circ = s.circ := rfl
@[simp] theorem emit_feed (o : Out) (s : State) : (emit o s).feed = s.feed := rfl
@[simp] theorem emit_ldpc (o : Out) (s : State) : (emit o s).ldpc = s.ldpc := rfl
@[simp] theorem emit_link (o : Out) (s : State) : (emit o s).link = s.link := rfl
@[simp] theorem emit_air (o : Out) (s : State) : (emit o s).air = s.air := rfl
@[simp] theorem emit_pending (o : Out) (s : State) : (emit o s).pending = s.pending := rfl

@[simp] theorem setCause_clk (b : Nat) (s : State) : (setCause b s).clk = s.clk := rfl
@[simp] theorem setCause_pins (b : Nat) (s : State) : (setCause b s).pins = s.pins := rfl
@[simp] theorem setCause_pwr (b : Nat) (s : State) : (setCause b s).pwr = s.pwr := rfl
@[simp] theorem setCause_avs (b : Nat) (s : State) : (setCause b s).avs = s.avs := rfl
@[simp] theorem setCause_age (b : Nat) (s : State) : (setCause b s).age = s.age := rfl
@[simp] theorem setCause_keep (b : Nat) (s : State) : (setCause b s).keep = s.keep := rfl
@[simp] theorem setCause_chk (b : Nat) (s : State) : (setCause b s).chk = s.chk := rfl
@[simp] theorem setCause_mb (b : Nat) (s : State) : (setCause b s).mb = s.mb := rfl
@[simp] theorem setCause_mp (b : Nat) (s : State) : (setCause b s).mp = s.mp := rfl
@[simp] theorem setCause_aead (b : Nat) (s : State) : (setCause b s).aead = s.aead := rfl
@[simp] theorem setCause_sec (b : Nat) (s : State) : (setCause b s).sec = s.sec := rfl
@[simp] theorem setCause_host (b : Nat) (s : State) : (setCause b s).host = s.host := rfl
@[simp] theorem setCause_mem (b : Nat) (s : State) : (setCause b s).mem = s.mem := rfl
@[simp] theorem setCause_pair (b : Nat) (s : State) : (setCause b s).pair = s.pair := rfl
@[simp] theorem setCause_tku (b : Nat) (s : State) : (setCause b s).tku = s.tku := rfl
@[simp] theorem setCause_ev (b : Nat) (s : State) : (setCause b s).ev = s.ev := rfl
@[simp] theorem setCause_sf (b : Nat) (s : State) : (setCause b s).sf = s.sf := rfl
@[simp] theorem setCause_plan (b : Nat) (s : State) : (setCause b s).plan = s.plan := rfl
@[simp] theorem setCause_port (b : Nat) (s : State) : (setCause b s).port = s.port := rfl
@[simp] theorem setCause_circ (b : Nat) (s : State) : (setCause b s).circ = s.circ := rfl
@[simp] theorem setCause_feed (b : Nat) (s : State) : (setCause b s).feed = s.feed := rfl
@[simp] theorem setCause_ldpc (b : Nat) (s : State) : (setCause b s).ldpc = s.ldpc := rfl
@[simp] theorem setCause_link (b : Nat) (s : State) : (setCause b s).link = s.link := rfl
@[simp] theorem setCause_air (b : Nat) (s : State) : (setCause b s).air = s.air := rfl
@[simp] theorem setCause_out (b : Nat) (s : State) : (setCause b s).out = s.out := rfl
@[simp] theorem setCause_pending (b : Nat) (s : State) : (setCause b s).pending = s.pending := rfl

@[simp] theorem setPort_clk (p : Nat) (x : Port) (s : State) : (setPort p x s).clk = s.clk := rfl
@[simp] theorem setPort_pins (p : Nat) (x : Port) (s : State) : (setPort p x s).pins = s.pins := rfl
@[simp] theorem setPort_pwr (p : Nat) (x : Port) (s : State) : (setPort p x s).pwr = s.pwr := rfl
@[simp] theorem setPort_avs (p : Nat) (x : Port) (s : State) : (setPort p x s).avs = s.avs := rfl
@[simp] theorem setPort_age (p : Nat) (x : Port) (s : State) : (setPort p x s).age = s.age := rfl
@[simp] theorem setPort_keep (p : Nat) (x : Port) (s : State) : (setPort p x s).keep = s.keep := rfl
@[simp] theorem setPort_chk (p : Nat) (x : Port) (s : State) : (setPort p x s).chk = s.chk := rfl
@[simp] theorem setPort_mb (p : Nat) (x : Port) (s : State) : (setPort p x s).mb = s.mb := rfl
@[simp] theorem setPort_mp (p : Nat) (x : Port) (s : State) : (setPort p x s).mp = s.mp := rfl
@[simp] theorem setPort_irq (p : Nat) (x : Port) (s : State) : (setPort p x s).irq = s.irq := rfl
@[simp] theorem setPort_aead (p : Nat) (x : Port) (s : State) : (setPort p x s).aead = s.aead := rfl
@[simp] theorem setPort_sec (p : Nat) (x : Port) (s : State) : (setPort p x s).sec = s.sec := rfl
@[simp] theorem setPort_host (p : Nat) (x : Port) (s : State) : (setPort p x s).host = s.host := rfl
@[simp] theorem setPort_mem (p : Nat) (x : Port) (s : State) : (setPort p x s).mem = s.mem := rfl
@[simp] theorem setPort_pair (p : Nat) (x : Port) (s : State) : (setPort p x s).pair = s.pair := rfl
@[simp] theorem setPort_tku (p : Nat) (x : Port) (s : State) : (setPort p x s).tku = s.tku := rfl
@[simp] theorem setPort_ev (p : Nat) (x : Port) (s : State) : (setPort p x s).ev = s.ev := rfl
@[simp] theorem setPort_sf (p : Nat) (x : Port) (s : State) : (setPort p x s).sf = s.sf := rfl
@[simp] theorem setPort_plan (p : Nat) (x : Port) (s : State) : (setPort p x s).plan = s.plan := rfl
@[simp] theorem setPort_circ (p : Nat) (x : Port) (s : State) : (setPort p x s).circ = s.circ := rfl
@[simp] theorem setPort_feed (p : Nat) (x : Port) (s : State) : (setPort p x s).feed = s.feed := rfl
@[simp] theorem setPort_ldpc (p : Nat) (x : Port) (s : State) : (setPort p x s).ldpc = s.ldpc := rfl
@[simp] theorem setPort_link (p : Nat) (x : Port) (s : State) : (setPort p x s).link = s.link := rfl
@[simp] theorem setPort_air (p : Nat) (x : Port) (s : State) : (setPort p x s).air = s.air := rfl
@[simp] theorem setPort_out (p : Nat) (x : Port) (s : State) : (setPort p x s).out = s.out := rfl
@[simp] theorem setPort_pending (p : Nat) (x : Port) (s : State) : (setPort p x s).pending = s.pending := rfl

@[simp] theorem setLane_clk (l : Nat) (x : Lane) (s : State) : (setLane l x s).clk = s.clk := rfl
@[simp] theorem setLane_pins (l : Nat) (x : Lane) (s : State) : (setLane l x s).pins = s.pins := rfl
@[simp] theorem setLane_pwr (l : Nat) (x : Lane) (s : State) : (setLane l x s).pwr = s.pwr := rfl
@[simp] theorem setLane_avs (l : Nat) (x : Lane) (s : State) : (setLane l x s).avs = s.avs := rfl
@[simp] theorem setLane_age (l : Nat) (x : Lane) (s : State) : (setLane l x s).age = s.age := rfl
@[simp] theorem setLane_keep (l : Nat) (x : Lane) (s : State) : (setLane l x s).keep = s.keep := rfl
@[simp] theorem setLane_chk (l : Nat) (x : Lane) (s : State) : (setLane l x s).chk = s.chk := rfl
@[simp] theorem setLane_mb (l : Nat) (x : Lane) (s : State) : (setLane l x s).mb = s.mb := rfl
@[simp] theorem setLane_mp (l : Nat) (x : Lane) (s : State) : (setLane l x s).mp = s.mp := rfl
@[simp] theorem setLane_irq (l : Nat) (x : Lane) (s : State) : (setLane l x s).irq = s.irq := rfl
@[simp] theorem setLane_aead (l : Nat) (x : Lane) (s : State) : (setLane l x s).aead = s.aead := rfl
@[simp] theorem setLane_sec (l : Nat) (x : Lane) (s : State) : (setLane l x s).sec = s.sec := rfl
@[simp] theorem setLane_host (l : Nat) (x : Lane) (s : State) : (setLane l x s).host = s.host := rfl
@[simp] theorem setLane_mem (l : Nat) (x : Lane) (s : State) : (setLane l x s).mem = s.mem := rfl
@[simp] theorem setLane_pair (l : Nat) (x : Lane) (s : State) : (setLane l x s).pair = s.pair := rfl
@[simp] theorem setLane_tku (l : Nat) (x : Lane) (s : State) : (setLane l x s).tku = s.tku := rfl
@[simp] theorem setLane_ev (l : Nat) (x : Lane) (s : State) : (setLane l x s).ev = s.ev := rfl
@[simp] theorem setLane_sf (l : Nat) (x : Lane) (s : State) : (setLane l x s).sf = s.sf := rfl
@[simp] theorem setLane_plan (l : Nat) (x : Lane) (s : State) : (setLane l x s).plan = s.plan := rfl
@[simp] theorem setLane_circ (l : Nat) (x : Lane) (s : State) : (setLane l x s).circ = s.circ := rfl
@[simp] theorem setLane_feed (l : Nat) (x : Lane) (s : State) : (setLane l x s).feed = s.feed := rfl
@[simp] theorem setLane_ldpc (l : Nat) (x : Lane) (s : State) : (setLane l x s).ldpc = s.ldpc := rfl
@[simp] theorem setLane_link (l : Nat) (x : Lane) (s : State) : (setLane l x s).link = s.link := rfl
@[simp] theorem setLane_air (l : Nat) (x : Lane) (s : State) : (setLane l x s).air = s.air := rfl
@[simp] theorem setLane_out (l : Nat) (x : Lane) (s : State) : (setLane l x s).out = s.out := rfl
@[simp] theorem setLane_pending (l : Nat) (x : Lane) (s : State) : (setLane l x s).pending = s.pending := rfl

@[simp] theorem modPort_clk (p : Nat) (f : Port → Port) (s : State) : (modPort p f s).clk = s.clk := rfl
@[simp] theorem modPort_pins (p : Nat) (f : Port → Port) (s : State) : (modPort p f s).pins = s.pins := rfl
@[simp] theorem modPort_pwr (p : Nat) (f : Port → Port) (s : State) : (modPort p f s).pwr = s.pwr := rfl
@[simp] theorem modPort_avs (p : Nat) (f : Port → Port) (s : State) : (modPort p f s).avs = s.avs := rfl
@[simp] theorem modPort_age (p : Nat) (f : Port → Port) (s : State) : (modPort p f s).age = s.age := rfl
@[simp] theorem modPort_keep (p : Nat) (f : Port → Port) (s : State) : (modPort p f s).keep = s.keep := rfl
@[simp] theorem modPort_chk (p : Nat) (f : Port → Port) (s : State) : (modPort p f s).chk = s.chk := rfl
@[simp] theorem modPort_mb (p : Nat) (f : Port → Port) (s : State) : (modPort p f s).mb = s.mb := rfl
@[simp] theorem modPort_mp (p : Nat) (f : Port → Port) (s : State) : (modPort p f s).mp = s.mp := rfl
@[simp] theorem modPort_irq (p : Nat) (f : Port → Port) (s : State) : (modPort p f s).irq = s.irq := rfl
@[simp] theorem modPort_aead (p : Nat) (f : Port → Port) (s : State) : (modPort p f s).aead = s.aead := rfl
@[simp] theorem modPort_sec (p : Nat) (f : Port → Port) (s : State) : (modPort p f s).sec = s.sec := rfl
@[simp] theorem modPort_host (p : Nat) (f : Port → Port) (s : State) : (modPort p f s).host = s.host := rfl
@[simp] theorem modPort_mem (p : Nat) (f : Port → Port) (s : State) : (modPort p f s).mem = s.mem := rfl
@[simp] theorem modPort_pair (p : Nat) (f : Port → Port) (s : State) : (modPort p f s).pair = s.pair := rfl
@[simp] theorem modPort_tku (p : Nat) (f : Port → Port) (s : State) : (modPort p f s).tku = s.tku := rfl
@[simp] theorem modPort_ev (p : Nat) (f : Port → Port) (s : State) : (modPort p f s).ev = s.ev := rfl
@[simp] theorem modPort_sf (p : Nat) (f : Port → Port) (s : State) : (modPort p f s).sf = s.sf := rfl
@[simp] theorem modPort_plan (p : Nat) (f : Port → Port) (s : State) : (modPort p f s).plan = s.plan := rfl
@[simp] theorem modPort_circ (p : Nat) (f : Port → Port) (s : State) : (modPort p f s).circ = s.circ := rfl
@[simp] theorem modPort_feed (p : Nat) (f : Port → Port) (s : State) : (modPort p f s).feed = s.feed := rfl
@[simp] theorem modPort_ldpc (p : Nat) (f : Port → Port) (s : State) : (modPort p f s).ldpc = s.ldpc := rfl
@[simp] theorem modPort_link (p : Nat) (f : Port → Port) (s : State) : (modPort p f s).link = s.link := rfl
@[simp] theorem modPort_air (p : Nat) (f : Port → Port) (s : State) : (modPort p f s).air = s.air := rfl
@[simp] theorem modPort_out (p : Nat) (f : Port → Port) (s : State) : (modPort p f s).out = s.out := rfl
@[simp] theorem modPort_pending (p : Nat) (f : Port → Port) (s : State) : (modPort p f s).pending = s.pending := rfl

@[simp] theorem modLane_clk (l : Nat) (f : Lane → Lane) (s : State) : (modLane l f s).clk = s.clk := rfl
@[simp] theorem modLane_pins (l : Nat) (f : Lane → Lane) (s : State) : (modLane l f s).pins = s.pins := rfl
@[simp] theorem modLane_pwr (l : Nat) (f : Lane → Lane) (s : State) : (modLane l f s).pwr = s.pwr := rfl
@[simp] theorem modLane_avs (l : Nat) (f : Lane → Lane) (s : State) : (modLane l f s).avs = s.avs := rfl
@[simp] theorem modLane_age (l : Nat) (f : Lane → Lane) (s : State) : (modLane l f s).age = s.age := rfl
@[simp] theorem modLane_keep (l : Nat) (f : Lane → Lane) (s : State) : (modLane l f s).keep = s.keep := rfl
@[simp] theorem modLane_chk (l : Nat) (f : Lane → Lane) (s : State) : (modLane l f s).chk = s.chk := rfl
@[simp] theorem modLane_mb (l : Nat) (f : Lane → Lane) (s : State) : (modLane l f s).mb = s.mb := rfl
@[simp] theorem modLane_mp (l : Nat) (f : Lane → Lane) (s : State) : (modLane l f s).mp = s.mp := rfl
@[simp] theorem modLane_irq (l : Nat) (f : Lane → Lane) (s : State) : (modLane l f s).irq = s.irq := rfl
@[simp] theorem modLane_aead (l : Nat) (f : Lane → Lane) (s : State) : (modLane l f s).aead = s.aead := rfl
@[simp] theorem modLane_sec (l : Nat) (f : Lane → Lane) (s : State) : (modLane l f s).sec = s.sec := rfl
@[simp] theorem modLane_host (l : Nat) (f : Lane → Lane) (s : State) : (modLane l f s).host = s.host := rfl
@[simp] theorem modLane_mem (l : Nat) (f : Lane → Lane) (s : State) : (modLane l f s).mem = s.mem := rfl
@[simp] theorem modLane_pair (l : Nat) (f : Lane → Lane) (s : State) : (modLane l f s).pair = s.pair := rfl
@[simp] theorem modLane_tku (l : Nat) (f : Lane → Lane) (s : State) : (modLane l f s).tku = s.tku := rfl
@[simp] theorem modLane_ev (l : Nat) (f : Lane → Lane) (s : State) : (modLane l f s).ev = s.ev := rfl
@[simp] theorem modLane_sf (l : Nat) (f : Lane → Lane) (s : State) : (modLane l f s).sf = s.sf := rfl
@[simp] theorem modLane_plan (l : Nat) (f : Lane → Lane) (s : State) : (modLane l f s).plan = s.plan := rfl
@[simp] theorem modLane_circ (l : Nat) (f : Lane → Lane) (s : State) : (modLane l f s).circ = s.circ := rfl
@[simp] theorem modLane_feed (l : Nat) (f : Lane → Lane) (s : State) : (modLane l f s).feed = s.feed := rfl
@[simp] theorem modLane_ldpc (l : Nat) (f : Lane → Lane) (s : State) : (modLane l f s).ldpc = s.ldpc := rfl
@[simp] theorem modLane_link (l : Nat) (f : Lane → Lane) (s : State) : (modLane l f s).link = s.link := rfl
@[simp] theorem modLane_air (l : Nat) (f : Lane → Lane) (s : State) : (modLane l f s).air = s.air := rfl
@[simp] theorem modLane_out (l : Nat) (f : Lane → Lane) (s : State) : (modLane l f s).out = s.out := rfl
@[simp] theorem modLane_pending (l : Nat) (f : Lane → Lane) (s : State) : (modLane l f s).pending = s.pending := rfl

@[simp] theorem setDom_clk (d : Nat) (x : Dom) (s : State) : (setDom d x s).clk = s.clk := rfl
@[simp] theorem setDom_pins (d : Nat) (x : Dom) (s : State) : (setDom d x s).pins = s.pins := rfl
@[simp] theorem setDom_avs (d : Nat) (x : Dom) (s : State) : (setDom d x s).avs = s.avs := rfl
@[simp] theorem setDom_age (d : Nat) (x : Dom) (s : State) : (setDom d x s).age = s.age := rfl
@[simp] theorem setDom_keep (d : Nat) (x : Dom) (s : State) : (setDom d x s).keep = s.keep := rfl
@[simp] theorem setDom_chk (d : Nat) (x : Dom) (s : State) : (setDom d x s).chk = s.chk := rfl
@[simp] theorem setDom_mb (d : Nat) (x : Dom) (s : State) : (setDom d x s).mb = s.mb := rfl
@[simp] theorem setDom_mp (d : Nat) (x : Dom) (s : State) : (setDom d x s).mp = s.mp := rfl
@[simp] theorem setDom_irq (d : Nat) (x : Dom) (s : State) : (setDom d x s).irq = s.irq := rfl
@[simp] theorem setDom_aead (d : Nat) (x : Dom) (s : State) : (setDom d x s).aead = s.aead := rfl
@[simp] theorem setDom_sec (d : Nat) (x : Dom) (s : State) : (setDom d x s).sec = s.sec := rfl
@[simp] theorem setDom_host (d : Nat) (x : Dom) (s : State) : (setDom d x s).host = s.host := rfl
@[simp] theorem setDom_mem (d : Nat) (x : Dom) (s : State) : (setDom d x s).mem = s.mem := rfl
@[simp] theorem setDom_pair (d : Nat) (x : Dom) (s : State) : (setDom d x s).pair = s.pair := rfl
@[simp] theorem setDom_tku (d : Nat) (x : Dom) (s : State) : (setDom d x s).tku = s.tku := rfl
@[simp] theorem setDom_ev (d : Nat) (x : Dom) (s : State) : (setDom d x s).ev = s.ev := rfl
@[simp] theorem setDom_sf (d : Nat) (x : Dom) (s : State) : (setDom d x s).sf = s.sf := rfl
@[simp] theorem setDom_plan (d : Nat) (x : Dom) (s : State) : (setDom d x s).plan = s.plan := rfl
@[simp] theorem setDom_port (d : Nat) (x : Dom) (s : State) : (setDom d x s).port = s.port := rfl
@[simp] theorem setDom_circ (d : Nat) (x : Dom) (s : State) : (setDom d x s).circ = s.circ := rfl
@[simp] theorem setDom_feed (d : Nat) (x : Dom) (s : State) : (setDom d x s).feed = s.feed := rfl
@[simp] theorem setDom_ldpc (d : Nat) (x : Dom) (s : State) : (setDom d x s).ldpc = s.ldpc := rfl
@[simp] theorem setDom_link (d : Nat) (x : Dom) (s : State) : (setDom d x s).link = s.link := rfl
@[simp] theorem setDom_air (d : Nat) (x : Dom) (s : State) : (setDom d x s).air = s.air := rfl
@[simp] theorem setDom_out (d : Nat) (x : Dom) (s : State) : (setDom d x s).out = s.out := rfl
@[simp] theorem setDom_pending (d : Nat) (x : Dom) (s : State) : (setDom d x s).pending = s.pending := rfl

@[simp] theorem domDone_clk (d : Nat) (s : State) : (domDone d s).clk = s.clk := rfl
@[simp] theorem domDone_pins (d : Nat) (s : State) : (domDone d s).pins = s.pins := rfl
@[simp] theorem domDone_avs (d : Nat) (s : State) : (domDone d s).avs = s.avs := rfl
@[simp] theorem domDone_age (d : Nat) (s : State) : (domDone d s).age = s.age := rfl
@[simp] theorem domDone_keep (d : Nat) (s : State) : (domDone d s).keep = s.keep := rfl
@[simp] theorem domDone_chk (d : Nat) (s : State) : (domDone d s).chk = s.chk := rfl
@[simp] theorem domDone_mb (d : Nat) (s : State) : (domDone d s).mb = s.mb := rfl
@[simp] theorem domDone_mp (d : Nat) (s : State) : (domDone d s).mp = s.mp := rfl
@[simp] theorem domDone_irq (d : Nat) (s : State) : (domDone d s).irq = s.irq := rfl
@[simp] theorem domDone_aead (d : Nat) (s : State) : (domDone d s).aead = s.aead := rfl
@[simp] theorem domDone_sec (d : Nat) (s : State) : (domDone d s).sec = s.sec := rfl
@[simp] theorem domDone_host (d : Nat) (s : State) : (domDone d s).host = s.host := rfl
@[simp] theorem domDone_mem (d : Nat) (s : State) : (domDone d s).mem = s.mem := rfl
@[simp] theorem domDone_pair (d : Nat) (s : State) : (domDone d s).pair = s.pair := rfl
@[simp] theorem domDone_tku (d : Nat) (s : State) : (domDone d s).tku = s.tku := rfl
@[simp] theorem domDone_ev (d : Nat) (s : State) : (domDone d s).ev = s.ev := rfl
@[simp] theorem domDone_sf (d : Nat) (s : State) : (domDone d s).sf = s.sf := rfl
@[simp] theorem domDone_plan (d : Nat) (s : State) : (domDone d s).plan = s.plan := rfl
@[simp] theorem domDone_port (d : Nat) (s : State) : (domDone d s).port = s.port := rfl
@[simp] theorem domDone_circ (d : Nat) (s : State) : (domDone d s).circ = s.circ := rfl
@[simp] theorem domDone_feed (d : Nat) (s : State) : (domDone d s).feed = s.feed := rfl
@[simp] theorem domDone_ldpc (d : Nat) (s : State) : (domDone d s).ldpc = s.ldpc := rfl
@[simp] theorem domDone_link (d : Nat) (s : State) : (domDone d s).link = s.link := rfl
@[simp] theorem domDone_air (d : Nat) (s : State) : (domDone d s).air = s.air := rfl
@[simp] theorem domDone_out (d : Nat) (s : State) : (domDone d s).out = s.out := rfl
@[simp] theorem domDone_pending (d : Nat) (s : State) : (domDone d s).pending = s.pending := rfl

@[simp] theorem setBox_clk (m : Nat) (b : Mailbox) (s : State) : (setBox m b s).clk = s.clk := rfl
@[simp] theorem setBox_pins (m : Nat) (b : Mailbox) (s : State) : (setBox m b s).pins = s.pins := rfl
@[simp] theorem setBox_pwr (m : Nat) (b : Mailbox) (s : State) : (setBox m b s).pwr = s.pwr := rfl
@[simp] theorem setBox_avs (m : Nat) (b : Mailbox) (s : State) : (setBox m b s).avs = s.avs := rfl
@[simp] theorem setBox_age (m : Nat) (b : Mailbox) (s : State) : (setBox m b s).age = s.age := rfl
@[simp] theorem setBox_keep (m : Nat) (b : Mailbox) (s : State) : (setBox m b s).keep = s.keep := rfl
@[simp] theorem setBox_chk (m : Nat) (b : Mailbox) (s : State) : (setBox m b s).chk = s.chk := rfl
@[simp] theorem setBox_mp (m : Nat) (b : Mailbox) (s : State) : (setBox m b s).mp = s.mp := rfl
@[simp] theorem setBox_irq (m : Nat) (b : Mailbox) (s : State) : (setBox m b s).irq = s.irq := rfl
@[simp] theorem setBox_aead (m : Nat) (b : Mailbox) (s : State) : (setBox m b s).aead = s.aead := rfl
@[simp] theorem setBox_sec (m : Nat) (b : Mailbox) (s : State) : (setBox m b s).sec = s.sec := rfl
@[simp] theorem setBox_host (m : Nat) (b : Mailbox) (s : State) : (setBox m b s).host = s.host := rfl
@[simp] theorem setBox_mem (m : Nat) (b : Mailbox) (s : State) : (setBox m b s).mem = s.mem := rfl
@[simp] theorem setBox_pair (m : Nat) (b : Mailbox) (s : State) : (setBox m b s).pair = s.pair := rfl
@[simp] theorem setBox_tku (m : Nat) (b : Mailbox) (s : State) : (setBox m b s).tku = s.tku := rfl
@[simp] theorem setBox_ev (m : Nat) (b : Mailbox) (s : State) : (setBox m b s).ev = s.ev := rfl
@[simp] theorem setBox_sf (m : Nat) (b : Mailbox) (s : State) : (setBox m b s).sf = s.sf := rfl
@[simp] theorem setBox_plan (m : Nat) (b : Mailbox) (s : State) : (setBox m b s).plan = s.plan := rfl
@[simp] theorem setBox_port (m : Nat) (b : Mailbox) (s : State) : (setBox m b s).port = s.port := rfl
@[simp] theorem setBox_circ (m : Nat) (b : Mailbox) (s : State) : (setBox m b s).circ = s.circ := rfl
@[simp] theorem setBox_feed (m : Nat) (b : Mailbox) (s : State) : (setBox m b s).feed = s.feed := rfl
@[simp] theorem setBox_ldpc (m : Nat) (b : Mailbox) (s : State) : (setBox m b s).ldpc = s.ldpc := rfl
@[simp] theorem setBox_link (m : Nat) (b : Mailbox) (s : State) : (setBox m b s).link = s.link := rfl
@[simp] theorem setBox_air (m : Nat) (b : Mailbox) (s : State) : (setBox m b s).air = s.air := rfl
@[simp] theorem setBox_out (m : Nat) (b : Mailbox) (s : State) : (setBox m b s).out = s.out := rfl
@[simp] theorem setBox_pending (m : Nat) (b : Mailbox) (s : State) : (setBox m b s).pending = s.pending := rfl

@[simp] theorem setCore_clk (k : Nat) (c : Core) (s : State) : (setCore k c s).clk = s.clk := by unfold setCore; split <;> rfl
@[simp] theorem setCore_pins (k : Nat) (c : Core) (s : State) : (setCore k c s).pins = s.pins := by unfold setCore; split <;> rfl
@[simp] theorem setCore_pwr (k : Nat) (c : Core) (s : State) : (setCore k c s).pwr = s.pwr := by unfold setCore; split <;> rfl
@[simp] theorem setCore_avs (k : Nat) (c : Core) (s : State) : (setCore k c s).avs = s.avs := by unfold setCore; split <;> rfl
@[simp] theorem setCore_age (k : Nat) (c : Core) (s : State) : (setCore k c s).age = s.age := by unfold setCore; split <;> rfl
@[simp] theorem setCore_keep (k : Nat) (c : Core) (s : State) : (setCore k c s).keep = s.keep := by unfold setCore; split <;> rfl
@[simp] theorem setCore_chk (k : Nat) (c : Core) (s : State) : (setCore k c s).chk = s.chk := by unfold setCore; split <;> rfl
@[simp] theorem setCore_mb (k : Nat) (c : Core) (s : State) : (setCore k c s).mb = s.mb := by unfold setCore; split <;> rfl
@[simp] theorem setCore_irq (k : Nat) (c : Core) (s : State) : (setCore k c s).irq = s.irq := by unfold setCore; split <;> rfl
@[simp] theorem setCore_aead (k : Nat) (c : Core) (s : State) : (setCore k c s).aead = s.aead := by unfold setCore; split <;> rfl
@[simp] theorem setCore_sec (k : Nat) (c : Core) (s : State) : (setCore k c s).sec = s.sec := by unfold setCore; split <;> rfl
@[simp] theorem setCore_host (k : Nat) (c : Core) (s : State) : (setCore k c s).host = s.host := by unfold setCore; split <;> rfl
@[simp] theorem setCore_mem (k : Nat) (c : Core) (s : State) : (setCore k c s).mem = s.mem := by unfold setCore; split <;> rfl
@[simp] theorem setCore_pair (k : Nat) (c : Core) (s : State) : (setCore k c s).pair = s.pair := by unfold setCore; split <;> rfl
@[simp] theorem setCore_tku (k : Nat) (c : Core) (s : State) : (setCore k c s).tku = s.tku := by unfold setCore; split <;> rfl
@[simp] theorem setCore_ev (k : Nat) (c : Core) (s : State) : (setCore k c s).ev = s.ev := by unfold setCore; split <;> rfl
@[simp] theorem setCore_sf (k : Nat) (c : Core) (s : State) : (setCore k c s).sf = s.sf := by unfold setCore; split <;> rfl
@[simp] theorem setCore_plan (k : Nat) (c : Core) (s : State) : (setCore k c s).plan = s.plan := by unfold setCore; split <;> rfl
@[simp] theorem setCore_port (k : Nat) (c : Core) (s : State) : (setCore k c s).port = s.port := by unfold setCore; split <;> rfl
@[simp] theorem setCore_circ (k : Nat) (c : Core) (s : State) : (setCore k c s).circ = s.circ := by unfold setCore; split <;> rfl
@[simp] theorem setCore_feed (k : Nat) (c : Core) (s : State) : (setCore k c s).feed = s.feed := by unfold setCore; split <;> rfl
@[simp] theorem setCore_ldpc (k : Nat) (c : Core) (s : State) : (setCore k c s).ldpc = s.ldpc := by unfold setCore; split <;> rfl
@[simp] theorem setCore_link (k : Nat) (c : Core) (s : State) : (setCore k c s).link = s.link := by unfold setCore; split <;> rfl
@[simp] theorem setCore_air (k : Nat) (c : Core) (s : State) : (setCore k c s).air = s.air := by unfold setCore; split <;> rfl
@[simp] theorem setCore_out (k : Nat) (c : Core) (s : State) : (setCore k c s).out = s.out := by unfold setCore; split <;> rfl
@[simp] theorem setCore_pending (k : Nat) (c : Core) (s : State) : (setCore k c s).pending = s.pending := by unfold setCore; split <;> rfl

@[simp] theorem mpWrite_clk (w : Nat) (v : Word) (s : State) : (mpWrite w v s).clk = s.clk := by unfold mpWrite; split <;> rfl
@[simp] theorem mpWrite_pins (w : Nat) (v : Word) (s : State) : (mpWrite w v s).pins = s.pins := by unfold mpWrite; split <;> rfl
@[simp] theorem mpWrite_pwr (w : Nat) (v : Word) (s : State) : (mpWrite w v s).pwr = s.pwr := by unfold mpWrite; split <;> rfl
@[simp] theorem mpWrite_avs (w : Nat) (v : Word) (s : State) : (mpWrite w v s).avs = s.avs := by unfold mpWrite; split <;> rfl
@[simp] theorem mpWrite_age (w : Nat) (v : Word) (s : State) : (mpWrite w v s).age = s.age := by unfold mpWrite; split <;> rfl
@[simp] theorem mpWrite_chk (w : Nat) (v : Word) (s : State) : (mpWrite w v s).chk = s.chk := by unfold mpWrite; split <;> rfl
@[simp] theorem mpWrite_mb (w : Nat) (v : Word) (s : State) : (mpWrite w v s).mb = s.mb := by unfold mpWrite; split <;> rfl
@[simp] theorem mpWrite_mp (w : Nat) (v : Word) (s : State) : (mpWrite w v s).mp = s.mp := by unfold mpWrite; split <;> rfl
@[simp] theorem mpWrite_irq (w : Nat) (v : Word) (s : State) : (mpWrite w v s).irq = s.irq := by unfold mpWrite; split <;> rfl
@[simp] theorem mpWrite_aead (w : Nat) (v : Word) (s : State) : (mpWrite w v s).aead = s.aead := by unfold mpWrite; split <;> rfl
@[simp] theorem mpWrite_sec (w : Nat) (v : Word) (s : State) : (mpWrite w v s).sec = s.sec := by unfold mpWrite; split <;> rfl
@[simp] theorem mpWrite_host (w : Nat) (v : Word) (s : State) : (mpWrite w v s).host = s.host := by unfold mpWrite; split <;> rfl
@[simp] theorem mpWrite_mem (w : Nat) (v : Word) (s : State) : (mpWrite w v s).mem = s.mem := by unfold mpWrite; split <;> rfl
@[simp] theorem mpWrite_pair (w : Nat) (v : Word) (s : State) : (mpWrite w v s).pair = s.pair := by unfold mpWrite; split <;> rfl
@[simp] theorem mpWrite_tku (w : Nat) (v : Word) (s : State) : (mpWrite w v s).tku = s.tku := by unfold mpWrite; split <;> rfl
@[simp] theorem mpWrite_ev (w : Nat) (v : Word) (s : State) : (mpWrite w v s).ev = s.ev := by unfold mpWrite; split <;> rfl
@[simp] theorem mpWrite_sf (w : Nat) (v : Word) (s : State) : (mpWrite w v s).sf = s.sf := by unfold mpWrite; split <;> rfl
@[simp] theorem mpWrite_plan (w : Nat) (v : Word) (s : State) : (mpWrite w v s).plan = s.plan := by unfold mpWrite; split <;> rfl
@[simp] theorem mpWrite_port (w : Nat) (v : Word) (s : State) : (mpWrite w v s).port = s.port := by unfold mpWrite; split <;> rfl
@[simp] theorem mpWrite_circ (w : Nat) (v : Word) (s : State) : (mpWrite w v s).circ = s.circ := by unfold mpWrite; split <;> rfl
@[simp] theorem mpWrite_feed (w : Nat) (v : Word) (s : State) : (mpWrite w v s).feed = s.feed := by unfold mpWrite; split <;> rfl
@[simp] theorem mpWrite_ldpc (w : Nat) (v : Word) (s : State) : (mpWrite w v s).ldpc = s.ldpc := by unfold mpWrite; split <;> rfl
@[simp] theorem mpWrite_link (w : Nat) (v : Word) (s : State) : (mpWrite w v s).link = s.link := by unfold mpWrite; split <;> rfl
@[simp] theorem mpWrite_air (w : Nat) (v : Word) (s : State) : (mpWrite w v s).air = s.air := by unfold mpWrite; split <;> rfl
@[simp] theorem mpWrite_out (w : Nat) (v : Word) (s : State) : (mpWrite w v s).out = s.out := by unfold mpWrite; split <;> rfl
@[simp] theorem mpWrite_pending (w : Nat) (v : Word) (s : State) : (mpWrite w v s).pending = s.pending := by unfold mpWrite; split <;> rfl

@[simp] theorem mpHold_clk (w op : Nat) (vs : List Int) (s : State) : (mpHold w op vs s).clk = s.clk := by unfold mpHold; dsimp only; split <;> rfl
@[simp] theorem mpHold_pins (w op : Nat) (vs : List Int) (s : State) : (mpHold w op vs s).pins = s.pins := by unfold mpHold; dsimp only; split <;> rfl
@[simp] theorem mpHold_pwr (w op : Nat) (vs : List Int) (s : State) : (mpHold w op vs s).pwr = s.pwr := by unfold mpHold; dsimp only; split <;> rfl
@[simp] theorem mpHold_avs (w op : Nat) (vs : List Int) (s : State) : (mpHold w op vs s).avs = s.avs := by unfold mpHold; dsimp only; split <;> rfl
@[simp] theorem mpHold_age (w op : Nat) (vs : List Int) (s : State) : (mpHold w op vs s).age = s.age := by unfold mpHold; dsimp only; split <;> rfl
@[simp] theorem mpHold_chk (w op : Nat) (vs : List Int) (s : State) : (mpHold w op vs s).chk = s.chk := by unfold mpHold; dsimp only; split <;> rfl
@[simp] theorem mpHold_mb (w op : Nat) (vs : List Int) (s : State) : (mpHold w op vs s).mb = s.mb := by unfold mpHold; dsimp only; split <;> rfl
@[simp] theorem mpHold_mp (w op : Nat) (vs : List Int) (s : State) : (mpHold w op vs s).mp = s.mp := by unfold mpHold; dsimp only; split <;> rfl
@[simp] theorem mpHold_irq (w op : Nat) (vs : List Int) (s : State) : (mpHold w op vs s).irq = s.irq := by unfold mpHold; dsimp only; split <;> rfl
@[simp] theorem mpHold_aead (w op : Nat) (vs : List Int) (s : State) : (mpHold w op vs s).aead = s.aead := by unfold mpHold; dsimp only; split <;> rfl
@[simp] theorem mpHold_sec (w op : Nat) (vs : List Int) (s : State) : (mpHold w op vs s).sec = s.sec := by unfold mpHold; dsimp only; split <;> rfl
@[simp] theorem mpHold_host (w op : Nat) (vs : List Int) (s : State) : (mpHold w op vs s).host = s.host := by unfold mpHold; dsimp only; split <;> rfl
@[simp] theorem mpHold_mem (w op : Nat) (vs : List Int) (s : State) : (mpHold w op vs s).mem = s.mem := by unfold mpHold; dsimp only; split <;> rfl
@[simp] theorem mpHold_pair (w op : Nat) (vs : List Int) (s : State) : (mpHold w op vs s).pair = s.pair := by unfold mpHold; dsimp only; split <;> rfl
@[simp] theorem mpHold_tku (w op : Nat) (vs : List Int) (s : State) : (mpHold w op vs s).tku = s.tku := by unfold mpHold; dsimp only; split <;> rfl
@[simp] theorem mpHold_ev (w op : Nat) (vs : List Int) (s : State) : (mpHold w op vs s).ev = s.ev := by unfold mpHold; dsimp only; split <;> rfl
@[simp] theorem mpHold_sf (w op : Nat) (vs : List Int) (s : State) : (mpHold w op vs s).sf = s.sf := by unfold mpHold; dsimp only; split <;> rfl
@[simp] theorem mpHold_plan (w op : Nat) (vs : List Int) (s : State) : (mpHold w op vs s).plan = s.plan := by unfold mpHold; dsimp only; split <;> rfl
@[simp] theorem mpHold_port (w op : Nat) (vs : List Int) (s : State) : (mpHold w op vs s).port = s.port := by unfold mpHold; dsimp only; split <;> rfl
@[simp] theorem mpHold_circ (w op : Nat) (vs : List Int) (s : State) : (mpHold w op vs s).circ = s.circ := by unfold mpHold; dsimp only; split <;> rfl
@[simp] theorem mpHold_feed (w op : Nat) (vs : List Int) (s : State) : (mpHold w op vs s).feed = s.feed := by unfold mpHold; dsimp only; split <;> rfl
@[simp] theorem mpHold_ldpc (w op : Nat) (vs : List Int) (s : State) : (mpHold w op vs s).ldpc = s.ldpc := by unfold mpHold; dsimp only; split <;> rfl
@[simp] theorem mpHold_link (w op : Nat) (vs : List Int) (s : State) : (mpHold w op vs s).link = s.link := by unfold mpHold; dsimp only; split <;> rfl
@[simp] theorem mpHold_air (w op : Nat) (vs : List Int) (s : State) : (mpHold w op vs s).air = s.air := by unfold mpHold; dsimp only; split <;> rfl
@[simp] theorem mpHold_out (w op : Nat) (vs : List Int) (s : State) : (mpHold w op vs s).out = s.out := by unfold mpHold; dsimp only; split <;> rfl
@[simp] theorem mpHold_pending (w op : Nat) (vs : List Int) (s : State) : (mpHold w op vs s).pending = s.pending := by unfold mpHold; dsimp only; split <;> rfl

@[simp] theorem signalVector_clk (v : Nat) (s : State) : (signalVector v s).clk = s.clk := by unfold signalVector emit; dsimp only; repeat' split <;> try rfl
@[simp] theorem signalVector_pins (v : Nat) (s : State) : (signalVector v s).pins = s.pins := by unfold signalVector emit; dsimp only; repeat' split <;> try rfl
@[simp] theorem signalVector_pwr (v : Nat) (s : State) : (signalVector v s).pwr = s.pwr := by unfold signalVector emit; dsimp only; repeat' split <;> try rfl
@[simp] theorem signalVector_avs (v : Nat) (s : State) : (signalVector v s).avs = s.avs := by unfold signalVector emit; dsimp only; repeat' split <;> try rfl
@[simp] theorem signalVector_age (v : Nat) (s : State) : (signalVector v s).age = s.age := by unfold signalVector emit; dsimp only; repeat' split <;> try rfl
@[simp] theorem signalVector_keep (v : Nat) (s : State) : (signalVector v s).keep = s.keep := by unfold signalVector emit; dsimp only; repeat' split <;> try rfl
@[simp] theorem signalVector_chk (v : Nat) (s : State) : (signalVector v s).chk = s.chk := by unfold signalVector emit; dsimp only; repeat' split <;> try rfl
@[simp] theorem signalVector_mb (v : Nat) (s : State) : (signalVector v s).mb = s.mb := by unfold signalVector emit; dsimp only; repeat' split <;> try rfl
@[simp] theorem signalVector_mp (v : Nat) (s : State) : (signalVector v s).mp = s.mp := by unfold signalVector emit; dsimp only; repeat' split <;> try rfl
@[simp] theorem signalVector_aead (v : Nat) (s : State) : (signalVector v s).aead = s.aead := by unfold signalVector emit; dsimp only; repeat' split <;> try rfl
@[simp] theorem signalVector_sec (v : Nat) (s : State) : (signalVector v s).sec = s.sec := by unfold signalVector emit; dsimp only; repeat' split <;> try rfl
@[simp] theorem signalVector_host (v : Nat) (s : State) : (signalVector v s).host = s.host := by unfold signalVector emit; dsimp only; repeat' split <;> try rfl
@[simp] theorem signalVector_mem (v : Nat) (s : State) : (signalVector v s).mem = s.mem := by unfold signalVector emit; dsimp only; repeat' split <;> try rfl
@[simp] theorem signalVector_pair (v : Nat) (s : State) : (signalVector v s).pair = s.pair := by unfold signalVector emit; dsimp only; repeat' split <;> try rfl
@[simp] theorem signalVector_tku (v : Nat) (s : State) : (signalVector v s).tku = s.tku := by unfold signalVector emit; dsimp only; repeat' split <;> try rfl
@[simp] theorem signalVector_ev (v : Nat) (s : State) : (signalVector v s).ev = s.ev := by unfold signalVector emit; dsimp only; repeat' split <;> try rfl
@[simp] theorem signalVector_sf (v : Nat) (s : State) : (signalVector v s).sf = s.sf := by unfold signalVector emit; dsimp only; repeat' split <;> try rfl
@[simp] theorem signalVector_plan (v : Nat) (s : State) : (signalVector v s).plan = s.plan := by unfold signalVector emit; dsimp only; repeat' split <;> try rfl
@[simp] theorem signalVector_port (v : Nat) (s : State) : (signalVector v s).port = s.port := by unfold signalVector emit; dsimp only; repeat' split <;> try rfl
@[simp] theorem signalVector_circ (v : Nat) (s : State) : (signalVector v s).circ = s.circ := by unfold signalVector emit; dsimp only; repeat' split <;> try rfl
@[simp] theorem signalVector_feed (v : Nat) (s : State) : (signalVector v s).feed = s.feed := by unfold signalVector emit; dsimp only; repeat' split <;> try rfl
@[simp] theorem signalVector_ldpc (v : Nat) (s : State) : (signalVector v s).ldpc = s.ldpc := by unfold signalVector emit; dsimp only; repeat' split <;> try rfl
@[simp] theorem signalVector_link (v : Nat) (s : State) : (signalVector v s).link = s.link := by unfold signalVector emit; dsimp only; repeat' split <;> try rfl
@[simp] theorem signalVector_air (v : Nat) (s : State) : (signalVector v s).air = s.air := by unfold signalVector emit; dsimp only; repeat' split <;> try rfl
@[simp] theorem signalVector_pending (v : Nat) (s : State) : (signalVector v s).pending = s.pending := by unfold signalVector emit; dsimp only; repeat' split <;> try rfl

@[simp] theorem signalRise_clk (s t : State) : (signalRise s t).clk = t.clk := by unfold signalRise; split <;> simp
@[simp] theorem signalRise_pins (s t : State) : (signalRise s t).pins = t.pins := by unfold signalRise; split <;> simp
@[simp] theorem signalRise_pwr (s t : State) : (signalRise s t).pwr = t.pwr := by unfold signalRise; split <;> simp
@[simp] theorem signalRise_avs (s t : State) : (signalRise s t).avs = t.avs := by unfold signalRise; split <;> simp
@[simp] theorem signalRise_age (s t : State) : (signalRise s t).age = t.age := by unfold signalRise; split <;> simp
@[simp] theorem signalRise_keep (s t : State) : (signalRise s t).keep = t.keep := by unfold signalRise; split <;> simp
@[simp] theorem signalRise_chk (s t : State) : (signalRise s t).chk = t.chk := by unfold signalRise; split <;> simp
@[simp] theorem signalRise_mb (s t : State) : (signalRise s t).mb = t.mb := by unfold signalRise; split <;> simp
@[simp] theorem signalRise_mp (s t : State) : (signalRise s t).mp = t.mp := by unfold signalRise; split <;> simp
@[simp] theorem signalRise_aead (s t : State) : (signalRise s t).aead = t.aead := by unfold signalRise; split <;> simp
@[simp] theorem signalRise_sec (s t : State) : (signalRise s t).sec = t.sec := by unfold signalRise; split <;> simp
@[simp] theorem signalRise_host (s t : State) : (signalRise s t).host = t.host := by unfold signalRise; split <;> simp
@[simp] theorem signalRise_mem (s t : State) : (signalRise s t).mem = t.mem := by unfold signalRise; split <;> simp
@[simp] theorem signalRise_pair (s t : State) : (signalRise s t).pair = t.pair := by unfold signalRise; split <;> simp
@[simp] theorem signalRise_tku (s t : State) : (signalRise s t).tku = t.tku := by unfold signalRise; split <;> simp
@[simp] theorem signalRise_ev (s t : State) : (signalRise s t).ev = t.ev := by unfold signalRise; split <;> simp
@[simp] theorem signalRise_sf (s t : State) : (signalRise s t).sf = t.sf := by unfold signalRise; split <;> simp
@[simp] theorem signalRise_plan (s t : State) : (signalRise s t).plan = t.plan := by unfold signalRise; split <;> simp
@[simp] theorem signalRise_port (s t : State) : (signalRise s t).port = t.port := by unfold signalRise; split <;> simp
@[simp] theorem signalRise_circ (s t : State) : (signalRise s t).circ = t.circ := by unfold signalRise; split <;> simp
@[simp] theorem signalRise_feed (s t : State) : (signalRise s t).feed = t.feed := by unfold signalRise; split <;> simp
@[simp] theorem signalRise_ldpc (s t : State) : (signalRise s t).ldpc = t.ldpc := by unfold signalRise; split <;> simp
@[simp] theorem signalRise_link (s t : State) : (signalRise s t).link = t.link := by unfold signalRise; split <;> simp
@[simp] theorem signalRise_air (s t : State) : (signalRise s t).air = t.air := by unfold signalRise; split <;> simp
@[simp] theorem signalRise_pending (s t : State) : (signalRise s t).pending = t.pending := by unfold signalRise; split <;> simp

@[simp] theorem raise_clk (c o : Nat) (s : State) : (raise c o s).clk = s.clk := by unfold raise fireCapture; dsimp only; repeat' split <;> try rfl
@[simp] theorem raise_pins (c o : Nat) (s : State) : (raise c o s).pins = s.pins := by unfold raise fireCapture; dsimp only; repeat' split <;> try rfl
@[simp] theorem raise_pwr (c o : Nat) (s : State) : (raise c o s).pwr = s.pwr := by unfold raise fireCapture; dsimp only; repeat' split <;> try rfl
@[simp] theorem raise_avs (c o : Nat) (s : State) : (raise c o s).avs = s.avs := by unfold raise fireCapture; dsimp only; repeat' split <;> try rfl
@[simp] theorem raise_age (c o : Nat) (s : State) : (raise c o s).age = s.age := by unfold raise fireCapture; dsimp only; repeat' split <;> try rfl
@[simp] theorem raise_keep (c o : Nat) (s : State) : (raise c o s).keep = s.keep := by unfold raise fireCapture; dsimp only; repeat' split <;> try rfl
@[simp] theorem raise_chk (c o : Nat) (s : State) : (raise c o s).chk = s.chk := by unfold raise fireCapture; dsimp only; repeat' split <;> try rfl
@[simp] theorem raise_mb (c o : Nat) (s : State) : (raise c o s).mb = s.mb := by unfold raise fireCapture; dsimp only; repeat' split <;> try rfl
@[simp] theorem raise_mp (c o : Nat) (s : State) : (raise c o s).mp = s.mp := by unfold raise fireCapture; dsimp only; repeat' split <;> try rfl
@[simp] theorem raise_aead (c o : Nat) (s : State) : (raise c o s).aead = s.aead := by unfold raise fireCapture; dsimp only; repeat' split <;> try rfl
@[simp] theorem raise_sec (c o : Nat) (s : State) : (raise c o s).sec = s.sec := by unfold raise fireCapture; dsimp only; repeat' split <;> try rfl
@[simp] theorem raise_host (c o : Nat) (s : State) : (raise c o s).host = s.host := by unfold raise fireCapture; dsimp only; repeat' split <;> try rfl
@[simp] theorem raise_pair (c o : Nat) (s : State) : (raise c o s).pair = s.pair := by unfold raise fireCapture; dsimp only; repeat' split <;> try rfl
@[simp] theorem raise_tku (c o : Nat) (s : State) : (raise c o s).tku = s.tku := by unfold raise fireCapture; dsimp only; repeat' split <;> try rfl
@[simp] theorem raise_ev (c o : Nat) (s : State) : (raise c o s).ev = s.ev := by unfold raise fireCapture; dsimp only; repeat' split <;> try rfl
@[simp] theorem raise_sf (c o : Nat) (s : State) : (raise c o s).sf = s.sf := by unfold raise fireCapture; dsimp only; repeat' split <;> try rfl
@[simp] theorem raise_plan (c o : Nat) (s : State) : (raise c o s).plan = s.plan := by unfold raise fireCapture; dsimp only; repeat' split <;> try rfl
@[simp] theorem raise_port (c o : Nat) (s : State) : (raise c o s).port = s.port := by unfold raise fireCapture; dsimp only; repeat' split <;> try rfl
@[simp] theorem raise_circ (c o : Nat) (s : State) : (raise c o s).circ = s.circ := by unfold raise fireCapture; dsimp only; repeat' split <;> try rfl
@[simp] theorem raise_feed (c o : Nat) (s : State) : (raise c o s).feed = s.feed := by unfold raise fireCapture; dsimp only; repeat' split <;> try rfl
@[simp] theorem raise_ldpc (c o : Nat) (s : State) : (raise c o s).ldpc = s.ldpc := by unfold raise fireCapture; dsimp only; repeat' split <;> try rfl
@[simp] theorem raise_link (c o : Nat) (s : State) : (raise c o s).link = s.link := by unfold raise fireCapture; dsimp only; repeat' split <;> try rfl
@[simp] theorem raise_air (c o : Nat) (s : State) : (raise c o s).air = s.air := by unfold raise fireCapture; dsimp only; repeat' split <;> try rfl
@[simp] theorem raise_out (c o : Nat) (s : State) : (raise c o s).out = s.out := by unfold raise fireCapture; dsimp only; repeat' split <;> try rfl
@[simp] theorem raise_pending (c o : Nat) (s : State) : (raise c o s).pending = s.pending := by unfold raise fireCapture; dsimp only; repeat' split <;> try rfl

@[simp] theorem finish_clk (m st d : Nat) (ws : List Word) (s : State) : (finish m st d ws s).clk = s.clk := by unfold finish; dsimp only; split <;> rfl
@[simp] theorem finish_pins (m st d : Nat) (ws : List Word) (s : State) : (finish m st d ws s).pins = s.pins := by unfold finish; dsimp only; split <;> rfl
@[simp] theorem finish_pwr (m st d : Nat) (ws : List Word) (s : State) : (finish m st d ws s).pwr = s.pwr := by unfold finish; dsimp only; split <;> rfl
@[simp] theorem finish_avs (m st d : Nat) (ws : List Word) (s : State) : (finish m st d ws s).avs = s.avs := by unfold finish; dsimp only; split <;> rfl
@[simp] theorem finish_age (m st d : Nat) (ws : List Word) (s : State) : (finish m st d ws s).age = s.age := by unfold finish; dsimp only; split <;> rfl
@[simp] theorem finish_keep (m st d : Nat) (ws : List Word) (s : State) : (finish m st d ws s).keep = s.keep := by unfold finish; dsimp only; split <;> rfl
@[simp] theorem finish_chk (m st d : Nat) (ws : List Word) (s : State) : (finish m st d ws s).chk = s.chk := by unfold finish; dsimp only; split <;> rfl
@[simp] theorem finish_mp (m st d : Nat) (ws : List Word) (s : State) : (finish m st d ws s).mp = s.mp := by unfold finish; dsimp only; split <;> rfl
@[simp] theorem finish_aead (m st d : Nat) (ws : List Word) (s : State) : (finish m st d ws s).aead = s.aead := by unfold finish; dsimp only; split <;> rfl
@[simp] theorem finish_sec (m st d : Nat) (ws : List Word) (s : State) : (finish m st d ws s).sec = s.sec := by unfold finish; dsimp only; split <;> rfl
@[simp] theorem finish_host (m st d : Nat) (ws : List Word) (s : State) : (finish m st d ws s).host = s.host := by unfold finish; dsimp only; split <;> rfl
@[simp] theorem finish_mem (m st d : Nat) (ws : List Word) (s : State) : (finish m st d ws s).mem = s.mem := by unfold finish; dsimp only; split <;> rfl
@[simp] theorem finish_pair (m st d : Nat) (ws : List Word) (s : State) : (finish m st d ws s).pair = s.pair := by unfold finish; dsimp only; split <;> rfl
@[simp] theorem finish_tku (m st d : Nat) (ws : List Word) (s : State) : (finish m st d ws s).tku = s.tku := by unfold finish; dsimp only; split <;> rfl
@[simp] theorem finish_ev (m st d : Nat) (ws : List Word) (s : State) : (finish m st d ws s).ev = s.ev := by unfold finish; dsimp only; split <;> rfl
@[simp] theorem finish_sf (m st d : Nat) (ws : List Word) (s : State) : (finish m st d ws s).sf = s.sf := by unfold finish; dsimp only; split <;> rfl
@[simp] theorem finish_plan (m st d : Nat) (ws : List Word) (s : State) : (finish m st d ws s).plan = s.plan := by unfold finish; dsimp only; split <;> rfl
@[simp] theorem finish_port (m st d : Nat) (ws : List Word) (s : State) : (finish m st d ws s).port = s.port := by unfold finish; dsimp only; split <;> rfl
@[simp] theorem finish_circ (m st d : Nat) (ws : List Word) (s : State) : (finish m st d ws s).circ = s.circ := by unfold finish; dsimp only; split <;> rfl
@[simp] theorem finish_feed (m st d : Nat) (ws : List Word) (s : State) : (finish m st d ws s).feed = s.feed := by unfold finish; dsimp only; split <;> rfl
@[simp] theorem finish_ldpc (m st d : Nat) (ws : List Word) (s : State) : (finish m st d ws s).ldpc = s.ldpc := by unfold finish; dsimp only; split <;> rfl
@[simp] theorem finish_link (m st d : Nat) (ws : List Word) (s : State) : (finish m st d ws s).link = s.link := by unfold finish; dsimp only; split <;> rfl
@[simp] theorem finish_air (m st d : Nat) (ws : List Word) (s : State) : (finish m st d ws s).air = s.air := by unfold finish; dsimp only; split <;> rfl
@[simp] theorem finish_out (m st d : Nat) (ws : List Word) (s : State) : (finish m st d ws s).out = s.out := by unfold finish; dsimp only; split <;> rfl
@[simp] theorem finish_pending (m st d : Nat) (ws : List Word) (s : State) : (finish m st d ws s).pending = s.pending := by unfold finish; dsimp only; split <;> rfl

@[simp] theorem withPending_clk (s : State) (q : List Instr) : (s.withPending q).clk = s.clk := rfl
@[simp] theorem withPending_pins (s : State) (q : List Instr) : (s.withPending q).pins = s.pins := rfl
@[simp] theorem withPending_pwr (s : State) (q : List Instr) : (s.withPending q).pwr = s.pwr := rfl
@[simp] theorem withPending_avs (s : State) (q : List Instr) : (s.withPending q).avs = s.avs := rfl
@[simp] theorem withPending_age (s : State) (q : List Instr) : (s.withPending q).age = s.age := rfl
@[simp] theorem withPending_keep (s : State) (q : List Instr) : (s.withPending q).keep = s.keep := rfl
@[simp] theorem withPending_chk (s : State) (q : List Instr) : (s.withPending q).chk = s.chk := rfl
@[simp] theorem withPending_mb (s : State) (q : List Instr) : (s.withPending q).mb = s.mb := rfl
@[simp] theorem withPending_mp (s : State) (q : List Instr) : (s.withPending q).mp = s.mp := rfl
@[simp] theorem withPending_irq (s : State) (q : List Instr) : (s.withPending q).irq = s.irq := rfl
@[simp] theorem withPending_aead (s : State) (q : List Instr) : (s.withPending q).aead = s.aead := rfl
@[simp] theorem withPending_sec (s : State) (q : List Instr) : (s.withPending q).sec = s.sec := rfl
@[simp] theorem withPending_host (s : State) (q : List Instr) : (s.withPending q).host = s.host := rfl
@[simp] theorem withPending_mem (s : State) (q : List Instr) : (s.withPending q).mem = s.mem := rfl
@[simp] theorem withPending_pair (s : State) (q : List Instr) : (s.withPending q).pair = s.pair := rfl
@[simp] theorem withPending_tku (s : State) (q : List Instr) : (s.withPending q).tku = s.tku := rfl
@[simp] theorem withPending_ev (s : State) (q : List Instr) : (s.withPending q).ev = s.ev := rfl
@[simp] theorem withPending_sf (s : State) (q : List Instr) : (s.withPending q).sf = s.sf := rfl
@[simp] theorem withPending_plan (s : State) (q : List Instr) : (s.withPending q).plan = s.plan := rfl
@[simp] theorem withPending_port (s : State) (q : List Instr) : (s.withPending q).port = s.port := rfl
@[simp] theorem withPending_circ (s : State) (q : List Instr) : (s.withPending q).circ = s.circ := rfl
@[simp] theorem withPending_feed (s : State) (q : List Instr) : (s.withPending q).feed = s.feed := rfl
@[simp] theorem withPending_ldpc (s : State) (q : List Instr) : (s.withPending q).ldpc = s.ldpc := rfl
@[simp] theorem withPending_link (s : State) (q : List Instr) : (s.withPending q).link = s.link := rfl
@[simp] theorem withPending_air (s : State) (q : List Instr) : (s.withPending q).air = s.air := rfl
@[simp] theorem withPending_out (s : State) (q : List Instr) : (s.withPending q).out = s.out := rfl

@[simp] theorem backInv_clk (a n : Nat) (s : State) : (backInv a n s).clk = s.clk := by unfold backInv; split <;> rfl
@[simp] theorem backInv_pins (a n : Nat) (s : State) : (backInv a n s).pins = s.pins := by unfold backInv; split <;> rfl
@[simp] theorem backInv_pwr (a n : Nat) (s : State) : (backInv a n s).pwr = s.pwr := by unfold backInv; split <;> rfl
@[simp] theorem backInv_avs (a n : Nat) (s : State) : (backInv a n s).avs = s.avs := by unfold backInv; split <;> rfl
@[simp] theorem backInv_age (a n : Nat) (s : State) : (backInv a n s).age = s.age := by unfold backInv; split <;> rfl
@[simp] theorem backInv_keep (a n : Nat) (s : State) : (backInv a n s).keep = s.keep := by unfold backInv; split <;> rfl
@[simp] theorem backInv_chk (a n : Nat) (s : State) : (backInv a n s).chk = s.chk := by unfold backInv; split <;> rfl
@[simp] theorem backInv_mb (a n : Nat) (s : State) : (backInv a n s).mb = s.mb := by unfold backInv; split <;> rfl
@[simp] theorem backInv_mp (a n : Nat) (s : State) : (backInv a n s).mp = s.mp := by unfold backInv; split <;> rfl
@[simp] theorem backInv_irq (a n : Nat) (s : State) : (backInv a n s).irq = s.irq := by unfold backInv; split <;> rfl
@[simp] theorem backInv_aead (a n : Nat) (s : State) : (backInv a n s).aead = s.aead := by unfold backInv; split <;> rfl
@[simp] theorem backInv_sec (a n : Nat) (s : State) : (backInv a n s).sec = s.sec := by unfold backInv; split <;> rfl
@[simp] theorem backInv_host (a n : Nat) (s : State) : (backInv a n s).host = s.host := by unfold backInv; split <;> rfl
@[simp] theorem backInv_mem (a n : Nat) (s : State) : (backInv a n s).mem = s.mem := by unfold backInv; split <;> rfl
@[simp] theorem backInv_pair (a n : Nat) (s : State) : (backInv a n s).pair = s.pair := by unfold backInv; split <;> rfl
@[simp] theorem backInv_tku (a n : Nat) (s : State) : (backInv a n s).tku = s.tku := by unfold backInv; split <;> rfl
@[simp] theorem backInv_ev (a n : Nat) (s : State) : (backInv a n s).ev = s.ev := by unfold backInv; split <;> rfl
@[simp] theorem backInv_sf (a n : Nat) (s : State) : (backInv a n s).sf = s.sf := by unfold backInv; split <;> rfl
@[simp] theorem backInv_plan (a n : Nat) (s : State) : (backInv a n s).plan = s.plan := by unfold backInv; split <;> rfl
@[simp] theorem backInv_port (a n : Nat) (s : State) : (backInv a n s).port = s.port := by unfold backInv; split <;> rfl
@[simp] theorem backInv_circ (a n : Nat) (s : State) : (backInv a n s).circ = s.circ := by unfold backInv; split <;> rfl
@[simp] theorem backInv_feed (a n : Nat) (s : State) : (backInv a n s).feed = s.feed := by unfold backInv; split <;> rfl
@[simp] theorem backInv_ldpc (a n : Nat) (s : State) : (backInv a n s).ldpc = s.ldpc := by unfold backInv; split <;> rfl
@[simp] theorem backInv_link (a n : Nat) (s : State) : (backInv a n s).link = s.link := by unfold backInv; split <;> rfl
@[simp] theorem backInv_air (a n : Nat) (s : State) : (backInv a n s).air = s.air := by unfold backInv; split <;> rfl
@[simp] theorem backInv_pending (a n : Nat) (s : State) : (backInv a n s).pending = s.pending := by unfold backInv; split <;> rfl

@[simp] theorem granaryWrite_clk (a : Nat) (bs : List Byte) (s : State) : (granaryWrite a bs s).clk = s.clk := rfl
@[simp] theorem granaryWrite_pins (a : Nat) (bs : List Byte) (s : State) : (granaryWrite a bs s).pins = s.pins := rfl
@[simp] theorem granaryWrite_pwr (a : Nat) (bs : List Byte) (s : State) : (granaryWrite a bs s).pwr = s.pwr := rfl
@[simp] theorem granaryWrite_avs (a : Nat) (bs : List Byte) (s : State) : (granaryWrite a bs s).avs = s.avs := rfl
@[simp] theorem granaryWrite_age (a : Nat) (bs : List Byte) (s : State) : (granaryWrite a bs s).age = s.age := rfl
@[simp] theorem granaryWrite_keep (a : Nat) (bs : List Byte) (s : State) : (granaryWrite a bs s).keep = s.keep := rfl
@[simp] theorem granaryWrite_chk (a : Nat) (bs : List Byte) (s : State) : (granaryWrite a bs s).chk = s.chk := rfl
@[simp] theorem granaryWrite_mb (a : Nat) (bs : List Byte) (s : State) : (granaryWrite a bs s).mb = s.mb := rfl
@[simp] theorem granaryWrite_mp (a : Nat) (bs : List Byte) (s : State) : (granaryWrite a bs s).mp = s.mp := rfl
@[simp] theorem granaryWrite_irq (a : Nat) (bs : List Byte) (s : State) : (granaryWrite a bs s).irq = s.irq := rfl
@[simp] theorem granaryWrite_aead (a : Nat) (bs : List Byte) (s : State) : (granaryWrite a bs s).aead = s.aead := rfl
@[simp] theorem granaryWrite_sec (a : Nat) (bs : List Byte) (s : State) : (granaryWrite a bs s).sec = s.sec := rfl
@[simp] theorem granaryWrite_host (a : Nat) (bs : List Byte) (s : State) : (granaryWrite a bs s).host = s.host := rfl
@[simp] theorem granaryWrite_pair (a : Nat) (bs : List Byte) (s : State) : (granaryWrite a bs s).pair = s.pair := rfl
@[simp] theorem granaryWrite_tku (a : Nat) (bs : List Byte) (s : State) : (granaryWrite a bs s).tku = s.tku := rfl
@[simp] theorem granaryWrite_ev (a : Nat) (bs : List Byte) (s : State) : (granaryWrite a bs s).ev = s.ev := rfl
@[simp] theorem granaryWrite_sf (a : Nat) (bs : List Byte) (s : State) : (granaryWrite a bs s).sf = s.sf := rfl
@[simp] theorem granaryWrite_plan (a : Nat) (bs : List Byte) (s : State) : (granaryWrite a bs s).plan = s.plan := rfl
@[simp] theorem granaryWrite_port (a : Nat) (bs : List Byte) (s : State) : (granaryWrite a bs s).port = s.port := rfl
@[simp] theorem granaryWrite_circ (a : Nat) (bs : List Byte) (s : State) : (granaryWrite a bs s).circ = s.circ := rfl
@[simp] theorem granaryWrite_feed (a : Nat) (bs : List Byte) (s : State) : (granaryWrite a bs s).feed = s.feed := rfl
@[simp] theorem granaryWrite_ldpc (a : Nat) (bs : List Byte) (s : State) : (granaryWrite a bs s).ldpc = s.ldpc := rfl
@[simp] theorem granaryWrite_link (a : Nat) (bs : List Byte) (s : State) : (granaryWrite a bs s).link = s.link := rfl
@[simp] theorem granaryWrite_air (a : Nat) (bs : List Byte) (s : State) : (granaryWrite a bs s).air = s.air := rfl
@[simp] theorem granaryWrite_out (a : Nat) (bs : List Byte) (s : State) : (granaryWrite a bs s).out = s.out := rfl
@[simp] theorem granaryWrite_pending (a : Nat) (bs : List Byte) (s : State) : (granaryWrite a bs s).pending = s.pending := rfl

@[simp] theorem ownWrite_clk (a : Nat) (bs : List Byte) (s : State) : (ownWrite a bs s).clk = s.clk := by unfold ownWrite; simp
@[simp] theorem ownWrite_pins (a : Nat) (bs : List Byte) (s : State) : (ownWrite a bs s).pins = s.pins := by unfold ownWrite; simp
@[simp] theorem ownWrite_pwr (a : Nat) (bs : List Byte) (s : State) : (ownWrite a bs s).pwr = s.pwr := by unfold ownWrite; simp
@[simp] theorem ownWrite_avs (a : Nat) (bs : List Byte) (s : State) : (ownWrite a bs s).avs = s.avs := by unfold ownWrite; simp
@[simp] theorem ownWrite_age (a : Nat) (bs : List Byte) (s : State) : (ownWrite a bs s).age = s.age := by unfold ownWrite; simp
@[simp] theorem ownWrite_keep (a : Nat) (bs : List Byte) (s : State) : (ownWrite a bs s).keep = s.keep := by unfold ownWrite; simp
@[simp] theorem ownWrite_chk (a : Nat) (bs : List Byte) (s : State) : (ownWrite a bs s).chk = s.chk := by unfold ownWrite; simp
@[simp] theorem ownWrite_mb (a : Nat) (bs : List Byte) (s : State) : (ownWrite a bs s).mb = s.mb := by unfold ownWrite; simp
@[simp] theorem ownWrite_mp (a : Nat) (bs : List Byte) (s : State) : (ownWrite a bs s).mp = s.mp := by unfold ownWrite; simp
@[simp] theorem ownWrite_irq (a : Nat) (bs : List Byte) (s : State) : (ownWrite a bs s).irq = s.irq := by unfold ownWrite; simp
@[simp] theorem ownWrite_aead (a : Nat) (bs : List Byte) (s : State) : (ownWrite a bs s).aead = s.aead := by unfold ownWrite; simp
@[simp] theorem ownWrite_sec (a : Nat) (bs : List Byte) (s : State) : (ownWrite a bs s).sec = s.sec := by unfold ownWrite; simp
@[simp] theorem ownWrite_host (a : Nat) (bs : List Byte) (s : State) : (ownWrite a bs s).host = s.host := by unfold ownWrite; simp
@[simp] theorem ownWrite_pair (a : Nat) (bs : List Byte) (s : State) : (ownWrite a bs s).pair = s.pair := by unfold ownWrite; simp
@[simp] theorem ownWrite_tku (a : Nat) (bs : List Byte) (s : State) : (ownWrite a bs s).tku = s.tku := by unfold ownWrite; simp
@[simp] theorem ownWrite_ev (a : Nat) (bs : List Byte) (s : State) : (ownWrite a bs s).ev = s.ev := by unfold ownWrite; simp
@[simp] theorem ownWrite_sf (a : Nat) (bs : List Byte) (s : State) : (ownWrite a bs s).sf = s.sf := by unfold ownWrite; simp
@[simp] theorem ownWrite_plan (a : Nat) (bs : List Byte) (s : State) : (ownWrite a bs s).plan = s.plan := by unfold ownWrite; simp
@[simp] theorem ownWrite_port (a : Nat) (bs : List Byte) (s : State) : (ownWrite a bs s).port = s.port := by unfold ownWrite; simp
@[simp] theorem ownWrite_circ (a : Nat) (bs : List Byte) (s : State) : (ownWrite a bs s).circ = s.circ := by unfold ownWrite; simp
@[simp] theorem ownWrite_feed (a : Nat) (bs : List Byte) (s : State) : (ownWrite a bs s).feed = s.feed := by unfold ownWrite; simp
@[simp] theorem ownWrite_ldpc (a : Nat) (bs : List Byte) (s : State) : (ownWrite a bs s).ldpc = s.ldpc := by unfold ownWrite; simp
@[simp] theorem ownWrite_link (a : Nat) (bs : List Byte) (s : State) : (ownWrite a bs s).link = s.link := by unfold ownWrite; simp
@[simp] theorem ownWrite_air (a : Nat) (bs : List Byte) (s : State) : (ownWrite a bs s).air = s.air := by unfold ownWrite; simp
@[simp] theorem ownWrite_pending (a : Nat) (bs : List Byte) (s : State) : (ownWrite a bs s).pending = s.pending := by unfold ownWrite; simp

@[simp] theorem drawFree_pins (s : State) : ((drawFree s).2).pins = s.pins := rfl
@[simp] theorem drawFree_pwr (s : State) : ((drawFree s).2).pwr = s.pwr := rfl
@[simp] theorem drawFree_avs (s : State) : ((drawFree s).2).avs = s.avs := rfl
@[simp] theorem drawFree_age (s : State) : ((drawFree s).2).age = s.age := rfl
@[simp] theorem drawFree_keep (s : State) : ((drawFree s).2).keep = s.keep := rfl
@[simp] theorem drawFree_chk (s : State) : ((drawFree s).2).chk = s.chk := rfl
@[simp] theorem drawFree_mb (s : State) : ((drawFree s).2).mb = s.mb := rfl
@[simp] theorem drawFree_mp (s : State) : ((drawFree s).2).mp = s.mp := rfl
@[simp] theorem drawFree_irq (s : State) : ((drawFree s).2).irq = s.irq := rfl
@[simp] theorem drawFree_aead (s : State) : ((drawFree s).2).aead = s.aead := rfl
@[simp] theorem drawFree_sec (s : State) : ((drawFree s).2).sec = s.sec := rfl
@[simp] theorem drawFree_host (s : State) : ((drawFree s).2).host = s.host := rfl
@[simp] theorem drawFree_mem (s : State) : ((drawFree s).2).mem = s.mem := rfl
@[simp] theorem drawFree_pair (s : State) : ((drawFree s).2).pair = s.pair := rfl
@[simp] theorem drawFree_tku (s : State) : ((drawFree s).2).tku = s.tku := rfl
@[simp] theorem drawFree_ev (s : State) : ((drawFree s).2).ev = s.ev := rfl
@[simp] theorem drawFree_sf (s : State) : ((drawFree s).2).sf = s.sf := rfl
@[simp] theorem drawFree_plan (s : State) : ((drawFree s).2).plan = s.plan := rfl
@[simp] theorem drawFree_port (s : State) : ((drawFree s).2).port = s.port := rfl
@[simp] theorem drawFree_circ (s : State) : ((drawFree s).2).circ = s.circ := rfl
@[simp] theorem drawFree_feed (s : State) : ((drawFree s).2).feed = s.feed := rfl
@[simp] theorem drawFree_ldpc (s : State) : ((drawFree s).2).ldpc = s.ldpc := rfl
@[simp] theorem drawFree_link (s : State) : ((drawFree s).2).link = s.link := rfl
@[simp] theorem drawFree_air (s : State) : ((drawFree s).2).air = s.air := rfl
@[simp] theorem drawFree_out (s : State) : ((drawFree s).2).out = s.out := rfl
@[simp] theorem drawFree_pending (s : State) : ((drawFree s).2).pending = s.pending := rfl

@[simp] theorem signalVector_irq_cause (v : Nat) (s : State) : (signalVector v s).irq.cause = s.irq.cause := by unfold signalVector emit; dsimp only; repeat' split <;> try rfl
@[simp] theorem signalRise_irq_cause (s t : State) : (signalRise s t).irq.cause = t.irq.cause := by unfold signalRise; split <;> simp
@[simp] theorem signalVector_irq_mask (v : Nat) (s : State) : (signalVector v s).irq.mask = s.irq.mask := by unfold signalVector emit; dsimp only; repeat' split <;> try rfl
@[simp] theorem signalRise_irq_mask (s t : State) : (signalRise s t).irq.mask = t.irq.mask := by unfold signalRise; split <;> simp
@[simp] theorem signalVector_irq_vector (v : Nat) (s : State) : (signalVector v s).irq.vector = s.irq.vector := by unfold signalVector emit; dsimp only; repeat' split <;> try rfl
@[simp] theorem signalRise_irq_vector (s t : State) : (signalRise s t).irq.vector = t.irq.vector := by unfold signalRise; split <;> simp
@[simp] theorem signalVector_irq_mbDone (v : Nat) (s : State) : (signalVector v s).irq.mbDone = s.irq.mbDone := by unfold signalVector emit; dsimp only; repeat' split <;> try rfl
@[simp] theorem signalRise_irq_mbDone (s t : State) : (signalRise s t).irq.mbDone = t.irq.mbDone := by unfold signalRise; split <;> simp
@[simp] theorem signalVector_irq_log (v : Nat) (s : State) : (signalVector v s).irq.log = s.irq.log := by unfold signalVector emit; dsimp only; repeat' split <;> try rfl
@[simp] theorem signalRise_irq_log (s t : State) : (signalRise s t).irq.log = t.irq.log := by unfold signalRise; split <;> simp
@[simp] theorem signalVector_irq_overflow (v : Nat) (s : State) : (signalVector v s).irq.overflow = s.irq.overflow := by unfold signalVector emit; dsimp only; repeat' split <;> try rfl
@[simp] theorem signalRise_irq_overflow (s t : State) : (signalRise s t).irq.overflow = t.irq.overflow := by unfold signalRise; split <;> simp
@[simp] theorem signalVector_irq_eid (v : Nat) (s : State) : (signalVector v s).irq.eid = s.irq.eid := by unfold signalVector emit; dsimp only; repeat' split <;> try rfl
@[simp] theorem signalRise_irq_eid (s t : State) : (signalRise s t).irq.eid = t.irq.eid := by unfold signalRise; split <;> simp
@[simp] theorem signalVector_irq_mctpAddr (v : Nat) (s : State) : (signalVector v s).irq.mctpAddr = s.irq.mctpAddr := by unfold signalVector emit; dsimp only; repeat' split <;> try rfl
@[simp] theorem signalRise_irq_mctpAddr (s t : State) : (signalRise s t).irq.mctpAddr = t.irq.mctpAddr := by unfold signalRise; split <;> simp
@[simp] theorem raise_irq_cause (c o : Nat) (s : State) : (raise c o s).irq.cause = s.irq.cause := by unfold raise fireCapture; dsimp only; repeat' split <;> try rfl
@[simp] theorem raise_irq_mask (c o : Nat) (s : State) : (raise c o s).irq.mask = s.irq.mask := by unfold raise fireCapture; dsimp only; repeat' split <;> try rfl
@[simp] theorem raise_irq_vector (c o : Nat) (s : State) : (raise c o s).irq.vector = s.irq.vector := by unfold raise fireCapture; dsimp only; repeat' split <;> try rfl
@[simp] theorem raise_irq_mbDone (c o : Nat) (s : State) : (raise c o s).irq.mbDone = s.irq.mbDone := by unfold raise fireCapture; dsimp only; repeat' split <;> try rfl
@[simp] theorem raise_irq_msix (c o : Nat) (s : State) : (raise c o s).irq.msix = s.irq.msix := by unfold raise fireCapture; dsimp only; repeat' split <;> try rfl
@[simp] theorem raise_irq_eid (c o : Nat) (s : State) : (raise c o s).irq.eid = s.irq.eid := by unfold raise fireCapture; dsimp only; repeat' split <;> try rfl
@[simp] theorem raise_irq_mctpAddr (c o : Nat) (s : State) : (raise c o s).irq.mctpAddr = s.irq.mctpAddr := by unfold raise fireCapture; dsimp only; repeat' split <;> try rfl
@[simp] theorem raise_mem_near (c o : Nat) (s : State) : (raise c o s).mem.near = s.mem.near := by unfold raise fireCapture; dsimp only; repeat' split <;> try rfl
@[simp] theorem raise_mem_planStage (c o : Nat) (s : State) : (raise c o s).mem.planStage = s.mem.planStage := by unfold raise fireCapture; dsimp only; repeat' split <;> try rfl
@[simp] theorem raise_mem_granary (c o : Nat) (s : State) : (raise c o s).mem.granary = s.mem.granary := by unfold raise fireCapture; dsimp only; repeat' split <;> try rfl
@[simp] theorem raise_mem_poison (c o : Nat) (s : State) : (raise c o s).mem.poison = s.mem.poison := by unfold raise fireCapture; dsimp only; repeat' split <;> try rfl
@[simp] theorem finish_irq_cause (m st d : Nat) (ws : List Word) (s : State) : (finish m st d ws s).irq.cause = s.irq.cause := by unfold finish; dsimp only; split <;> rfl
@[simp] theorem finish_irq_mask (m st d : Nat) (ws : List Word) (s : State) : (finish m st d ws s).irq.mask = s.irq.mask := by unfold finish; dsimp only; split <;> rfl
@[simp] theorem finish_irq_vector (m st d : Nat) (ws : List Word) (s : State) : (finish m st d ws s).irq.vector = s.irq.vector := by unfold finish; dsimp only; split <;> rfl
@[simp] theorem finish_irq_msix (m st d : Nat) (ws : List Word) (s : State) : (finish m st d ws s).irq.msix = s.irq.msix := by unfold finish; dsimp only; split <;> rfl
@[simp] theorem finish_irq_log (m st d : Nat) (ws : List Word) (s : State) : (finish m st d ws s).irq.log = s.irq.log := by unfold finish; dsimp only; split <;> rfl
@[simp] theorem finish_irq_overflow (m st d : Nat) (ws : List Word) (s : State) : (finish m st d ws s).irq.overflow = s.irq.overflow := by unfold finish; dsimp only; split <;> rfl
@[simp] theorem finish_irq_eid (m st d : Nat) (ws : List Word) (s : State) : (finish m st d ws s).irq.eid = s.irq.eid := by unfold finish; dsimp only; split <;> rfl
@[simp] theorem finish_irq_mctpAddr (m st d : Nat) (ws : List Word) (s : State) : (finish m st d ws s).irq.mctpAddr = s.irq.mctpAddr := by unfold finish; dsimp only; split <;> rfl
@[simp] theorem mpWrite_keep_cells (w : Nat) (v : Word) (s : State) : (mpWrite w v s).keep.cells = s.keep.cells := by unfold mpWrite; split <;> rfl
@[simp] theorem mpHold_keep_cells (w op : Nat) (vs : List Int) (s : State) : (mpHold w op vs s).keep.cells = s.keep.cells := by unfold mpHold; dsimp only; split <;> rfl
@[simp] theorem mpWrite_keep_nonceQ (w : Nat) (v : Word) (s : State) : (mpWrite w v s).keep.nonceQ = s.keep.nonceQ := by unfold mpWrite; split <;> rfl
@[simp] theorem mpHold_keep_nonceQ (w op : Nat) (vs : List Int) (s : State) : (mpHold w op vs s).keep.nonceQ = s.keep.nonceQ := by unfold mpHold; dsimp only; split <;> rfl
@[simp] theorem mpWrite_keep_hostQ (w : Nat) (v : Word) (s : State) : (mpWrite w v s).keep.hostQ = s.keep.hostQ := by unfold mpWrite; split <;> rfl
@[simp] theorem mpHold_keep_hostQ (w op : Nat) (vs : List Int) (s : State) : (mpHold w op vs s).keep.hostQ = s.keep.hostQ := by unfold mpHold; dsimp only; split <;> rfl
@[simp] theorem mpWrite_keep_active (w : Nat) (v : Word) (s : State) : (mpWrite w v s).keep.active = s.keep.active := by unfold mpWrite; split <;> rfl
@[simp] theorem mpHold_keep_active (w op : Nat) (vs : List Int) (s : State) : (mpHold w op vs s).keep.active = s.keep.active := by unfold mpHold; dsimp only; split <;> rfl
@[simp] theorem mpWrite_keep_startedAt (w : Nat) (v : Word) (s : State) : (mpWrite w v s).keep.startedAt = s.keep.startedAt := by unfold mpWrite; split <;> rfl
@[simp] theorem mpHold_keep_startedAt (w op : Nat) (vs : List Int) (s : State) : (mpHold w op vs s).keep.startedAt = s.keep.startedAt := by unfold mpHold; dsimp only; split <;> rfl
@[simp] theorem mpWrite_keep_addr (w : Nat) (v : Word) (s : State) : (mpWrite w v s).keep.addr = s.keep.addr := by unfold mpWrite; split <;> rfl
@[simp] theorem mpHold_keep_addr (w op : Nat) (vs : List Int) (s : State) : (mpHold w op vs s).keep.addr = s.keep.addr := by unfold mpHold; dsimp only; split <;> rfl
@[simp] theorem mpWrite_keep_result (w : Nat) (v : Word) (s : State) : (mpWrite w v s).keep.result = s.keep.result := by unfold mpWrite; split <;> rfl
@[simp] theorem mpHold_keep_result (w op : Nat) (vs : List Int) (s : State) : (mpHold w op vs s).keep.result = s.keep.result := by unfold mpHold; dsimp only; split <;> rfl

end Sys2Proof.Machine
end

