-- ==== Sys2Proof/Laws/Table.lean ====
section
/-! SUPPORT. Laws of the sparse tables: a read after a write, and that every table operation keeps the canonical form. -/
namespace Sys2Proof.Machine
variable {α : Type} [DecidableEq α]

@[simp] theorem tabGet_nil {β : Type} (d : β) (i : Nat) : tabGet d [] i = d := rfl

/-- A put leaves every other key alone, and the key put reads as the value put. -/
theorem tabGet_tabIns_ne {β : Type} (d : β) (t : Tab β) (i j : Nat) (v : β) (h : j ≠ i) : tabGet d (tabIns t i v) j = tabGet d t j := by
  induction t with
  | nil => simp [tabIns, tabGet, h]
  | cons p t ih =>
    obtain ⟨k, w⟩ := p
    unfold tabIns
    split
    · simp [tabGet, h]
    · split
      · subst_vars; simp [tabGet, h]
      · simp only [tabGet]; split <;> simp [ih]
theorem tabGet_tabIns_self {β : Type} (d : β) (t : Tab β) (i : Nat) (v : β) : tabGet d (tabIns t i v) i = v := by
  induction t with
  | nil => simp [tabIns, tabGet]
  | cons p t ih =>
    obtain ⟨k, w⟩ := p
    unfold tabIns
    split
    · simp [tabGet]
    · split
      · simp [tabGet]
      · rename_i h; simp [tabGet, h, ih]

/-- The same of a removal. -/
theorem tabGet_filter_ne {β : Type} (d : β) (t : Tab β) (i j : Nat) (h : j ≠ i) :
    tabGet d (t.filter fun p => p.1 != i) j = tabGet d t j := by
  induction t with
  | nil => rfl
  | cons p t ih =>
    obtain ⟨k, w⟩ := p
    by_cases hk : k = i
    · subst hk; simp [tabGet, h, ih]
    · simp only [List.filter_cons, bne_iff_ne, ne_eq, hk, not_false_eq_true, if_true, tabGet, ih]
theorem tabGet_filter_self {β : Type} (d : β) (t : Tab β) (i : Nat) : tabGet d (t.filter fun p => p.1 != i) i = d := by
  induction t with
  | nil => rfl
  | cons p t ih =>
    obtain ⟨k, w⟩ := p
    by_cases hk : k = i
    · subst hk; simpa using ih
    · have : i ≠ k := fun e => hk e.symm
      simp only [List.filter_cons, bne_iff_ne, ne_eq, hk, not_false_eq_true, if_true, tabGet, this, if_false, ih]

/-- A write leaves every other key alone. -/
theorem tabGet_tabPut_ne (d : α) (t : Tab α) (i j : Nat) (v : α) (h : j ≠ i) : tabGet d (tabPut d t i v) j = tabGet d t j := by
  unfold tabPut; split
  · exact tabGet_filter_ne d t i j h
  · exact tabGet_tabIns_ne d t i j v h

/-- A read of the key written gives the value written. -/
@[simp] theorem tabGet_tabPut_self (d : α) (t : Tab α) (i : Nat) (v : α) : tabGet d (tabPut d t i v) i = v := by
  unfold tabPut; split
  · rename_i h; rw [h]; exact tabGet_filter_self d t i
  · exact tabGet_tabIns_self d t i v

/-- Reading with a write in between, in one rule. -/
theorem tabGet_tabPut (d : α) (t : Tab α) (i j : Nat) (v : α) : tabGet d (tabPut d t i v) j = if j = i then v else tabGet d t j := by
  split
  · subst_vars; exact tabGet_tabPut_self d t _ v
  · exact tabGet_tabPut_ne d t i j v (by assumption)

/-- A lower bound may be dropped or lowered. -/
theorem tabWfFrom_weaken (d : α) (t : Tab α) (k l : Nat) (h : tabWfFrom d (some k) t = true) (hl : l ≤ k) : tabWfFrom d (some l) t = true := by
  cases t with
  | nil => rfl
  | cons p t => simp only [tabWfFrom, Bool.and_eq_true, decide_eq_true_eq] at h ⊢; exact ⟨⟨by omega, h.1.2⟩, h.2⟩

/-- A put keeps the canonical form above a bound that the key exceeds. -/
theorem tabWfFrom_tabIns (d : α) (t : Tab α) (lo : Option Nat) (i : Nat) (v : α) (hv : v ≠ d) (h : tabWfFrom d lo t = true)
    (hi : ∀ l, lo = some l → l < i) : tabWfFrom d lo (tabIns t i v) = true := by
  induction t generalizing lo with
  | nil => unfold tabIns; cases lo <;> simp_all [tabWfFrom]
  | cons p t ih =>
    obtain ⟨k, w⟩ := p
    simp only [tabWfFrom, Bool.and_eq_true, decide_eq_true_eq] at h
    obtain ⟨⟨h1, h2⟩, h3⟩ := h
    unfold tabIns
    split
    · cases lo <;> simp_all [tabWfFrom]
    · split
      · cases lo <;> simp_all [tabWfFrom]
      · simp only [tabWfFrom, Bool.and_eq_true, decide_eq_true_eq]
        refine ⟨⟨h1, h2⟩, ih (some k) h3 ?_⟩
        intro l hl; cases hl; omega

/-- A removal keeps the canonical form. -/
theorem tabWfFrom_filter (d : α) (t : Tab α) (lo : Option Nat) (i : Nat) (h : tabWfFrom d lo t = true) :
    tabWfFrom d lo (t.filter fun p => p.1 != i) = true := by
  induction t generalizing lo with
  | nil => rfl
  | cons p t ih =>
    obtain ⟨k, w⟩ := p
    simp only [tabWfFrom, Bool.and_eq_true, decide_eq_true_eq] at h
    obtain ⟨⟨h1, h2⟩, h3⟩ := h
    by_cases hk : k = i
    · subst hk
      simp only [List.filter_cons, bne_self_eq_false, Bool.false_eq_true, if_false]
      cases lo with
      | none => exact ih none (by
          cases t with
          | nil => rfl
          | cons q t => simp only [tabWfFrom, Bool.and_eq_true] at h3 ⊢; exact ⟨⟨trivial, h3.1.2⟩, h3.2⟩)
      | some l => exact ih (some l) (tabWfFrom_weaken d t k l h3 (by simp at h1; omega))
    · simp only [List.filter_cons, bne_iff_ne, ne_eq, hk, not_false_eq_true, if_true, tabWfFrom, Bool.and_eq_true, decide_eq_true_eq]
      exact ⟨⟨h1, h2⟩, ih (some k) h3⟩

/-- A write keeps the canonical form. -/
theorem tabWf_tabPut (d : α) (t : Tab α) (i : Nat) (v : α) (h : tabWf d t = true) : tabWf d (tabPut d t i v) = true := by
  unfold tabPut; split
  · exact tabWfFrom_filter d t none i h
  · exact tabWfFrom_tabIns d t none i v (by assumption) h (by intro l hl; cases hl)

/-- A run of writes keeps the canonical form. -/
theorem tabWf_tabPutMany (d : α) (vs : List α) (t : Tab α) (i : Nat) (h : tabWf d t = true) : tabWf d (tabPutMany d t i vs) = true := by
  induction vs generalizing t i with
  | nil => exact h
  | cons v vs ih => exact ih _ _ (tabWf_tabPut d t i v h)

/-- A run of writes leaves every key outside it alone. -/
theorem tabGet_tabPutMany_ne (d : α) (vs : List α) (t : Tab α) (i j : Nat) (h : j < i ∨ i + vs.length ≤ j) :
    tabGet d (tabPutMany d t i vs) j = tabGet d t j := by
  induction vs generalizing t i with
  | nil => rfl
  | cons v vs ih =>
    simp only [List.length_cons] at h
    unfold tabPutMany
    rw [ih (tabPut d t i v) (i + 1) (by omega)]
    exact tabGet_tabPut_ne d t i j v (by omega)

/-- Memory writes keep the canonical form. -/
theorem tabWf_memWrite (m : Tab Byte) (a : Nat) (bs : List Byte) (h : tabWf 0 m = true) : tabWf 0 (memWrite m a bs) = true :=
  tabWf_tabPutMany 0 bs m a h
theorem tabWf_memWriteWords (ws : List Word) (m : Tab Byte) (a : Nat) (h : tabWf 0 m = true) : tabWf 0 (memWriteWords m a ws) = true := by
  induction ws generalizing m a with
  | nil => exact h
  | cons w ws ih => exact ih _ _ (tabWf_memWrite m a _ h)

/-- A memory write leaves every byte outside it alone. -/
theorem tabGet_memWrite_ne (m : Tab Byte) (a j : Nat) (bs : List Byte) (h : j < a ∨ a + bs.length ≤ j) :
    tabGet 0 (memWrite m a bs) j = tabGet 0 m j := tabGet_tabPutMany_ne 0 bs m a j h

/-- A map that keeps the default acts on every key, and the map of any table is in canonical form. -/
theorem tabGet_tabMap (d : α) (f : α → α) (hf : f d = d) (t : Tab α) (i : Nat) : tabGet d (tabMap d f t) i = f (tabGet d t i) := by
  unfold tabMap
  induction t with
  | nil => exact hf.symm
  | cons p t ih =>
    rw [List.foldr_cons, tabGet_tabPut, ih, show tabGet d (p :: t) i = if i = p.1 then p.2 else tabGet d t i from rfl]
    split <;> rfl
theorem tabWf_tabMap (d : α) (f : α → α) (t : Tab α) : tabWf d (tabMap d f t) = true := by
  unfold tabMap
  induction t with
  | nil => rfl
  | cons p t ih => exact tabWf_tabPut d _ _ _ ih

/-- A property that `f` gives every value holds of every entry of a mapped table. -/
theorem tabPut_all {P : α → Prop} (d : α) (t : Tab α) (i : Nat) (v : α) (hv : P v) (ht : ∀ p ∈ t, P p.2) : ∀ p ∈ tabPut d t i v, P p.2 := by
  unfold tabPut
  split
  · intro p hp; exact ht p (List.mem_filter.1 hp).1
  · induction t with
    | nil => intro p hp; simp [tabIns] at hp; subst hp; exact hv
    | cons q t ih =>
      unfold tabIns
      intro p hp
      split at hp
      · rcases List.mem_cons.1 hp with h | h
        · subst h; exact hv
        · exact ht p h
      · split at hp
        · rcases List.mem_cons.1 hp with h | h
          · subst h; exact hv
          · exact ht p (List.mem_cons_of_mem _ h)
        · rcases List.mem_cons.1 hp with h | h
          · subst h; exact ht q (List.mem_cons_self ..)
          · exact ih (fun p hp => ht p (List.mem_cons_of_mem _ hp)) p h
theorem tabMap_all {P : α → Prop} (d : α) (f : α → α) (t : Tab α) (hf : ∀ x, P (f x)) : ∀ p ∈ tabMap d f t, P p.2 := by
  unfold tabMap
  induction t with
  | nil => intro p hp; cases hp
  | cons q t ih => rw [List.foldr_cons]; exact tabPut_all d _ _ _ (hf _) ih

end Sys2Proof.Machine
end

