-- ==== Sys2Proof/Laws/Commands.lean ====
section
/-! SUPPORT. What the shared outcomes of commands can do: commit and onObject, and a mailbox command from its checks to its completion. -/
namespace Sys2Proof.Machine

/-- A command on an object the device has commits. -/
theorem onObject_true {ok : Bool} {s t : State} (h : ok = true) : onObject ok s t = commit s t := by simp [onObject, h]
/-- A command on an object the device has not faults. -/
theorem onObject_false {ok : Bool} {s t : State} (h : ok = false) : onObject ok s t = .fault .noSuchObject := by simp [onObject, h]

/-- A commit always answers a next state: its effect, the interrupt messages it is due, and the queue as it was. -/
theorem commit_eq (s t : State) : commit s t = .next (signalRise s { t with pending := s.pending }) := rfl

/-- Checks that all pass leave the reply as formed. -/
theorem checked_pass {cs : List (Bool × Nat × Nat)} {s : State} {r : Reply} (h : ∀ c ∈ cs, c.1 = true) : checked cs s r = r := by
  have : firstFail cs = none := by
    induction cs with
    | nil => rfl
    | cons c cs ih =>
      obtain ⟨ok, st, d⟩ := c
      have h1 : ok = true := h (ok, st, d) (by simp)
      simp only [firstFail, h1, if_true]
      exact ih fun x hx => h x (by simp [hx])
  simp [checked, this]

/-- What a mailbox reads as after its own completion. -/
theorem boxOf_finish (m st d : Nat) (ws : List Word) (s : State) :
    boxOf (finish m st d ws s) m = { boxOf s m with
      st := .done, status := st, resultWords := ws.length, detail := d, doneTick := s.clk.tick % 4294967296, data := boxData (ws.take 120) } := by
  have hb : (finish m st d ws s).mb.box = tabPut {} s.mb.box m { boxOf s m with
      st := .done, status := st, resultWords := ws.length, detail := d, doneTick := s.clk.tick % 4294967296, data := boxData (ws.take 120) } := by
    unfold finish setBox; dsimp only; split <;> rfl
  unfold boxOf
  rw [hb]
  exact tabGet_tabPut_self _ _ _ _

/-- Another mailbox is as it was. -/
theorem boxOf_finish_ne (m n st d : Nat) (ws : List Word) (s : State) (h : n ≠ m) : boxOf (finish m st d ws s) n = boxOf s n := by
  have hb : (finish m st d ws s).mb.box = tabPut {} s.mb.box m { boxOf s m with
      st := .done, status := st, resultWords := ws.length, detail := d, doneTick := s.clk.tick % 4294967296, data := boxData (ws.take 120) } := by
    unfold finish setBox; dsimp only; split <;> rfl
  unfold boxOf
  rw [hb]
  exact tabGet_tabPut_ne _ _ _ _ _ h

@[simp] theorem boxOf_signalRise (s t : State) (m : Nat) : boxOf (signalRise s t) m = boxOf t m := by simp [boxOf]
@[simp] theorem boxOf_pending (s : State) (q : List Instr) (m : Nat) : boxOf { s with pending := q } m = boxOf s m := rfl

/-- A served mailbox command with the right number of parameter words commits the completion of its reply. -/
theorem mailboxCommand_serves {op owner m : Nat} {words : Nat → Bool} {s : State} {body : Mailbox → Reply} (h : Serves s m op owner)
    (hw : words (boxOf s m).paramWords = true) :
    mailboxCommand op owner words m s body = commit s (complete m s (body (boxOf s m))) := by
  obtain ⟨hm, hr, ho, hrom, hown, hst⟩ := h
  have h1 : (!(romLoader s && !romServes op)) = true := by
    cases hl : romLoader s
    · rfl
    · simp [hrom hl]
  have h2 : (!(s.pair.role == .standby && standbyRefuses op)) = true := by
    cases hl : (s.pair.role == .standby)
    · rfl
    · simp [hst (by simpa using hl)]
  unfold mailboxCommand
  rw [onObject_true (by simpa using hm)]
  simp only [hr, ho, ne_eq, not_true_eq_false, or_self, if_false]
  rw [checked_pass]
  intro c hc
  simp only [List.mem_cons, List.not_mem_nil, or_false] at hc
  rcases hc with rfl | rfl | rfl | rfl
  · exact h1
  · exact hown
  · exact hw
  · exact h2

/-- A served command whose reply is an inline OK: the mailbox answers, and the rest is what the reply leaves, interrupts apart. -/
theorem mailbox_okay {op owner m : Nat} {words : Nat → Bool} {s t : State} {ws : List Word} {body : Mailbox → Reply} (h : Serves s m op owner)
    (hw : words (boxOf s m).paramWords = true) (hb : body (boxOf s m) = okay ws t) (hl : ws.length ≤ 120) :
    mailboxCommand op owner words m s body = .next (signalRise s { finish m 0 0 ws t with pending := s.pending }) := by
  rw [mailboxCommand_serves h hw, hb]
  have : ¬ 120 < ws.length := by omega
  simp [complete, okay, this, commit_eq]

/-- The mailbox after such a completion. -/
theorem boxOf_completed (m st d : Nat) (ws : List Word) (s t : State) (q : List Instr) :
    boxOf (signalRise s { finish m st d ws t with pending := q }) m = boxOf (finish m st d ws t) m := by
  rw [boxOf_signalRise]; rfl
theorem answers_finish (m : Nat) (ws : List Word) (s t : State) (q : List Instr) :
    Answers (signalRise s { finish m 0 0 ws t with pending := q }) m ws := by
  have hb := (boxOf_completed m 0 0 ws s t q).trans (boxOf_finish m 0 0 ws t)
  exact ⟨by rw [hb], by rw [hb]; rfl, by rw [hb], by rw [hb]⟩

/-- What such a completion leaves alone: everything but the mailboxes and the interrupt state, and messages sent. -/
theorem finish_sameBut (m st d : Nat) (ws : List Word) (s t : State) :
    SameBut [.mb, .irq, .out, .pending] t (signalRise s { finish m st d ws t with pending := s.pending }) := by
  intro g hg
  cases g <;> simp_all [Group.same]

/-- The same after a commit, the queue being that of the state before. -/
theorem commit_sameBut (s t : State) : SameBut [.irq, .out, .pending] t (signalRise s { t with pending := s.pending }) := by
  intro g hg
  cases g <;> simp_all [Group.same]

@[simp] theorem finish_background (m st d : Nat) (ws : List Word) (s : State) : (finish m st d ws s).mb.background = s.mb.background := by
  unfold finish setBox; dsimp only; split <;> rfl

/-- Of the interrupt state a completion changes the mailbox's own MB_DONE_MAP bit (R482). -/
theorem finish_irq (m st d : Nat) (ws : List Word) (s : State) :
    (finish m st d ws s).irq = { s.irq with mbDone := if m < 24 then s.irq.mbDone ||| bitAt m true else s.irq.mbDone } := by
  unfold finish setBox; dsimp only; split <;> rfl

/-- A served command whose reply is an inline OK completes alone: it answers its words, and beside its mailbox only what its effect changed
changes. -/
theorem okay_done {gs : List Group} {op owner m : Nat} {words : Nat → Bool} {s t : State} {ws : List Word} {body : Mailbox → Reply}
    (h : Serves s m op owner) (hw : words (boxOf s m).paramWords = true) (hb : body (boxOf s m) = okay ws t) (hl : ws.length ≤ 120)
    (hs : SameBut gs s t) (hmb : Group.mb ∉ gs) (hirq : Group.irq ∉ gs) :
    ∃ u, mailboxCommand op owner words m s body = .next u ∧ Answers u m ws ∧ DoneAlone m gs s u ∧ SameBut [.mb, .irq, .out, .pending] t u := by
  refine ⟨_, mailbox_okay h hw hb hl, answers_finish m ws s t s.pending, ⟨?_, ?_, ?_, ?_, ?_⟩, finish_sameBut m 0 0 ws s t⟩
  · intro g hg
    simp only [List.mem_cons, not_or] at hg
    have := hs g
    cases g <;> simp_all [Group.same]
  · intro n hn
    rw [boxOf_signalRise]
    exact (boxOf_finish_ne m n 0 0 ws t hn).trans (by simpa [boxOf, Group.same] using congrArg (fun x => tabGet {} x.box n) (hs .mb hmb))
  · have : t.mb = s.mb := hs .mb hmb
    simp [this]
  · have hi : t.irq = s.irq := hs .irq hirq
    simp [finish_irq, hi]
  · have hi : t.irq = s.irq := hs .irq hirq
    simp [finish_irq, hi]

/-- A command that commits an effect changes, beside that effect, only MSI-X entries and what was sent. -/
theorem commit_alone {gs : List Group} {s t : State} (hs : SameBut gs s t) (hirq : Group.irq ∉ gs) :
    ∃ u, commit s t = .next u ∧ Alone gs s u ∧ SameBut [.irq, .out, .pending] t u := by
  refine ⟨_, commit_eq s t, ⟨?_, ?_⟩, commit_sameBut s t⟩
  · intro g hg
    simp only [List.mem_cons, not_or] at hg
    have := hs g
    cases g <;> simp_all [Group.same]
  · have hi : t.irq = s.irq := hs .irq hirq
    simp [hi]

/-- Nothing changed is a frame of any kind. -/
theorem sameBut_refl (gs : List Group) (s : State) : SameBut gs s s := by
  intro g _; cases g <;> rfl

/-- A served command that only reads answers its words and changes nothing beside its mailbox. -/
theorem read_done {op owner m : Nat} {words : Nat → Bool} {s : State} {ws : List Word} {body : Mailbox → Reply}
    (h : Serves s m op owner) (hw : words (boxOf s m).paramWords = true) (hb : body (boxOf s m) = okay ws s) (hl : ws.length ≤ 120) :
    ∃ u, mailboxCommand op owner words m s body = .next u ∧ Answers u m ws ∧ DoneAlone m [] s u := by
  obtain ⟨u, h1, h2, h3, _⟩ := okay_done h hw hb hl (sameBut_refl [] s) (by simp) (by simp)
  exact ⟨u, h1, h2, h3⟩

/-- A served command whose reply carries two words for the near store's offset and length, or a report there (R385, R424): the effect is that of
the reply, and the rest as for an inline answer. `t` may differ from `s` in the mailbox's result area, which is in group mb. -/
theorem okay_done_mb {gs : List Group} {op owner m : Nat} {words : Nat → Bool} {s t : State} {ws : List Word} {body : Mailbox → Reply}
    (h : Serves s m op owner) (hw : words (boxOf s m).paramWords = true) (hb : body (boxOf s m) = okay ws t) (hl : ws.length ≤ 120)
    (hs : SameBut gs s t) :
    ∃ u, mailboxCommand op owner words m s body = .next u ∧ Answers u m ws ∧ SameBut (.mb :: .irq :: .out :: gs) s u
      ∧ SameBut [.mb, .irq, .out, .pending] t u := by
  refine ⟨_, mailbox_okay h hw hb hl, answers_finish m ws s t s.pending, ?_, finish_sameBut m 0 0 ws s t⟩
  intro g hg
  simp only [List.mem_cons, not_or] at hg
  have := hs g
  cases g <;> simp_all [Group.same]

/-- The offset that the firmware picks for the next result in the near store (R385: a free value). -/
theorem nearResult_words (m : Nat) (ws : List Word) (s : State) :
    (nearResult m ws s).1 = [BitVec.ofNat 64 ((drawFree s).1.toNat % 8388608 * 8), BitVec.ofNat 64 (8 * ws.length)] := rfl

/-- A served command whose result is longer than 120 words leaves it in the near store, where D28 is on (R385). -/
theorem near_done {op owner m : Nat} {words : Nat → Bool} {s : State} {ws : List Word} {body : Mailbox → Reply}
    (h : Serves s m op owner) (hw : words (boxOf s m).paramWords = true) (hb : body (boxOf s m) = okay ws s) (hl : 120 < ws.length)
    (hd : domOn s 28 = true) (hn : 8 * ws.length < 2 ^ 64) :
    ∃ u, mailboxCommand op owner words m s body = .next u ∧ AnswersNear u m ws.length
      ∧ u.mem = { s.mem with near := memWriteWords s.mem.near (prmN (boxOf u m) 0) ws } ∧ SameBut [.clk, .mem, .mb, .irq, .out] s u := by
  have e : mailboxCommand op owner words m s body
      = .next (signalRise s { finish m 0 0 (nearResult m ws s).1 (nearResult m ws s).2 with pending := s.pending }) := by
    rw [mailboxCommand_serves h hw, hb, commit_eq]
    simp [complete, okay, hl, hd]
  have hb2 := (boxOf_completed m 0 0 (nearResult m ws s).1 s (nearResult m ws s).2 s.pending).trans
    (boxOf_finish m 0 0 (nearResult m ws s).1 (nearResult m ws s).2)
  have hoff : (drawFree s).1.toNat % 8388608 * 8 < 2 ^ 64 := by
    have := Nat.mod_lt (drawFree s).1.toNat (show 0 < 8388608 by decide)
    omega
  refine ⟨_, e, ⟨by rw [hb2], by rw [hb2]; rfl, by rw [hb2]; rfl, ?_⟩, ?_, ?_⟩
  · rw [prmN, prm, hb2, nearResult_words]
    simp only [boxData, tabPutMany, List.take]
    rw [tabGet_tabPut_self, BitVec.toNat_ofNat, Nat.mod_eq_of_lt hn]
  · rw [prmN, prm, hb2, nearResult_words]
    simp only [boxData, tabPutMany, List.take]
    rw [tabGet_tabPut_ne _ _ _ _ _ (by decide), tabGet_tabPut_self, BitVec.toNat_ofNat, Nat.mod_eq_of_lt hoff]
    simp [nearResult, drawFree]
  · intro g hg
    cases g <;> simp_all [Group.same, nearResult, drawFree]

/-- A served command that answers inline completes with a property that follows from its answer, its frame and its effect `t`. -/
theorem completes_done {gs : List Group} {op owner m : Nat} {words : Nat → Bool} {s t : State} {ws : List Word} {body : Mailbox → Reply}
    {P : State → Prop} (h : Serves s m op owner) (hw : words (boxOf s m).paramWords = true) (hb : body (boxOf s m) = okay ws t)
    (hl : ws.length ≤ 120) (hs : SameBut gs s t) (hmb : Group.mb ∉ gs) (hirq : Group.irq ∉ gs)
    (hp : ∀ u, Answers u m ws → DoneAlone m gs s u → SameBut [.mb, .irq, .out, .pending] t u → P u) :
    ∃ u, mailboxCommand op owner words m s body = .next u ∧ P u := by
  obtain ⟨u, h1, h2, h3, h4⟩ := okay_done h hw hb hl hs hmb hirq
  exact ⟨u, h1, hp u h2 h3 h4⟩

/-- The same where the effect reaches the mailboxes' background operations or the interrupt state. -/
theorem completes_done_mb {gs : List Group} {op owner m : Nat} {words : Nat → Bool} {s t : State} {ws : List Word} {body : Mailbox → Reply}
    {P : State → Prop} (h : Serves s m op owner) (hw : words (boxOf s m).paramWords = true) (hb : body (boxOf s m) = okay ws t)
    (hl : ws.length ≤ 120) (hs : SameBut gs s t)
    (hp : Answers (signalRise s { finish m 0 0 ws t with pending := s.pending }) m ws →
      SameBut (.mb :: .irq :: .out :: gs) s (signalRise s { finish m 0 0 ws t with pending := s.pending }) →
      SameBut [.mb, .irq, .out, .pending] t (signalRise s { finish m 0 0 ws t with pending := s.pending }) →
      P (signalRise s { finish m 0 0 ws t with pending := s.pending })) :
    ∃ u, mailboxCommand op owner words m s body = .next u ∧ P u := by
  refine ⟨_, mailbox_okay h hw hb hl, hp (answers_finish m ws s t s.pending) ?_ (finish_sameBut m 0 0 ws s t)⟩
  intro g hg
  simp only [List.mem_cons, not_or] at hg
  have := hs g
  cases g <;> simp_all [Group.same]

/-- A served command with any reply of at most 120 words: its mailbox is DONE with the reply's status, DETAIL and words, and the rest is what the
reply leaves (R378, R385). -/
theorem completes_reply {op owner m : Nat} {words : Nat → Bool} {s : State} {r : Reply} {body : Mailbox → Reply} {P : State → Prop}
    (h : Serves s m op owner) (hw : words (boxOf s m).paramWords = true) (hb : body (boxOf s m) = r) (hl : r.words.length ≤ 120)
    (hp : ∀ u, boxOf u m = { boxOf r.after m with
          st := .done, status := r.status, resultWords := r.words.length, detail := r.detail
          doneTick := r.after.clk.tick % 4294967296, data := boxData (r.words.take 120) } → SameBut [.mb, .irq, .out, .pending] r.after u →
      u.pending = s.pending → P u) :
    ∃ u, mailboxCommand op owner words m s body = .next u ∧ P u := by
  refine ⟨signalRise s { finish m r.status r.detail r.words r.after with pending := s.pending }, ?_,
    hp _ ?_ (finish_sameBut m r.status r.detail r.words s r.after) ?_⟩
  · rw [mailboxCommand_serves h hw, hb, commit_eq]
    have : ¬ 120 < r.words.length := by omega
    simp [complete, this]
  · exact (boxOf_completed m r.status r.detail r.words s r.after s.pending).trans (boxOf_finish m r.status r.detail r.words r.after)
  · simp

/-- A queued keep-store write depends on the keep store and the time alone (R438). -/
theorem mpWrite_keep_congr (w : Nat) (v : Word) {s t : State} (hk : t.keep = s.keep) (hc : t.clk = s.clk) :
    (mpWrite w v t).keep = (mpWrite w v s).keep := by
  have hq : keepQueued t w = keepQueued s w := by unfold keepQueued cellOf keepWord cellOf; rw [hk]
  have hl : cellOf t w = cellOf s w := by unfold cellOf; rw [hk]
  unfold mpWrite
  rw [hq, hl]
  split
  · exact hk
  · simp [hk, hc]

/-- A device-wide setting whose word is not worn is stored (R386, R439). -/
theorem storeSetting_ok {op : Nat} (vs : List Int) {s : State} (t : State) (h : worn s (settingWordOf op) = false) :
    storeSetting op vs s t = okay [] (mpHold (settingWordOf op) op vs t) := by
  simp [storeSetting, h]

/-- A queued write changes the keep store's queue alone. -/
theorem mpWrite_sameBut (w : Nat) (v : Word) (s : State) : SameBut [.keep] s (mpWrite w v s) := by
  intro g hg; cases g <;> simp_all [Group.same]

/-- So does the write of a word that holds settings. -/
theorem mpHold_sameBut (w op : Nat) (vs : List Int) (s : State) : SameBut [.keep] s (mpHold w op vs s) := by
  intro g hg; cases g <;> simp_all [Group.same]

/-- A scalar check passes where the command takes the value. -/
@[simp] theorem scalarIs_fst (b : Mailbox) (i hi : Nat) (ok : Nat → Bool) : (scalarIs b i hi ok).1 = ok (prmN b i) := rfl

/-- What a queued write of settings leaves in the keep store depends on the keep store and the instant alone. -/
theorem mpHold_keep_congr {s t : State} (w op : Nat) (vs : List Int) (hk : t.keep = s.keep) (hc : t.clk = s.clk) :
    (mpHold w op vs t).keep = (mpHold w op vs s).keep := by
  have hq : keepQueued t w = keepQueued s w := by unfold keepQueued cellOf keepWord cellOf; rw [hk]
  have hh : heldQueued t w op = heldQueued s w op := by unfold heldQueued cellOf; rw [hk]
  have hl : cellOf t w = cellOf s w := by unfold cellOf; rw [hk]
  unfold mpHold
  dsimp only
  rw [hq, hl, hh]
  split
  · exact hk
  · simp [hk, hc]

/-- Frames compose. -/
theorem SameBut.trans {gs hs : List Group} {s t u : State} (h : SameBut gs s t) (k : SameBut hs t u) : SameBut (gs ++ hs) s u := by
  intro g hg
  simp only [List.mem_append, not_or] at hg
  have h1 := h g hg.1
  have h2 := k g hg.2
  cases g <;> simp_all [Group.same]

/-- A frame with more groups is weaker. -/
theorem SameBut.mono {gs hs : List Group} {s t : State} (h : SameBut gs s t) (k : ∀ g ∈ gs, g ∈ hs) : SameBut hs s t :=
  fun g hg => h g fun hc => hg (k g hc)

/-- A command that commits an effect completes with a property that follows from its frame and its effect `t`. -/
theorem completes_alone {gs : List Group} {s t : State} {P : State → Prop} (hs : SameBut gs s t) (hirq : Group.irq ∉ gs)
    (hp : ∀ u, Alone gs s u → SameBut [.irq, .out, .pending] t u → P u) : ∃ u, commit s t = .next u ∧ P u := by
  obtain ⟨u, h1, h2, h3⟩ := commit_alone hs hirq
  exact ⟨u, h1, hp u h2 h3⟩

/-- What was sent before a commit stays sent. -/
theorem mem_out_signalRise {o : Out} {s t : State} (h : o ∈ t.out) : o ∈ (signalRise s t).out := by
  unfold signalRise signalVector
  split
  · exact h
  · dsimp only; split
    · exact h
    · split
      · exact List.mem_cons_of_mem _ h
      · exact h

/-- Of the interrupt state, a commit changes MSI-X entries alone. -/
theorem irq_signalRise (s t : State) : (signalRise s t).irq = { t.irq with msix := (signalRise s t).irq.msix } := by
  unfold signalRise signalVector
  split
  · rfl
  · dsimp only; split
    · rfl
    · split <;> rfl

/-- A command that commits an effect `t` completes with a property that follows from the effect: beyond it only MSI-X entries and what was sent
change, and what the effect sent stays sent. -/
theorem completes_commit {gs : List Group} {s t : State} {P : State → Prop} (hs : SameBut gs s t)
    (hp : ∀ u, SameBut (.irq :: .out :: .pending :: gs) s u → SameBut [.irq, .out, .pending] t u → u.pending = s.pending →
      u.irq = { t.irq with msix := u.irq.msix } → (∀ o ∈ t.out, o ∈ u.out) → P u) : ∃ u, commit s t = .next u ∧ P u := by
  refine ⟨_, commit_eq s t, hp _ ?_ (commit_sameBut s t) (by simp) (irq_signalRise s _) fun o ho => mem_out_signalRise ho⟩
  intro g hg
  simp only [List.mem_cons, not_or] at hg
  have := hs g
  cases g <;> simp_all [Group.same]

/-- The same for an effect that leaves the interrupt state. -/
theorem completes_effect {gs : List Group} {s t : State} {P : State → Prop} (hs : SameBut (.out :: gs) s t) (hirq : Group.irq ∉ gs)
    (hp : ∀ u, Alone gs s u → SameBut [.irq, .out, .pending] t u → (∀ o ∈ t.out, o ∈ u.out) → P u) : ∃ u, commit s t = .next u ∧ P u := by
  obtain ⟨u, h1, h2, h3⟩ := commit_alone hs (by simpa using hirq)
  refine ⟨u, h1, hp u ⟨fun g hg => h2.1 g (by simp_all), h2.2⟩ h3 fun o ho => ?_⟩
  rw [commit_eq] at h1
  injection h1 with h1
  subst h1
  exact mem_out_signalRise ho

/-- A command that commits an effect completes, and the effect takes hold. -/
theorem completes_becomes {s e : State} {P : State → Prop} (hp : ∀ u, Becomes s e u → P u) : ∃ u, commit s e = .next u ∧ P u :=
  ⟨_, commit_eq s e, hp _ ⟨commit_sameBut s e, irq_signalRise s _, fun _ ho => mem_out_signalRise ho, by simp⟩⟩

/-- Where an effect leaves all but some groups alone, so does the command, MSI-X entries and what was sent apart. -/
theorem becomes_same {gs : List Group} {s e t : State} (h : SameBut gs s e) (b : Becomes s e t) : SameBut (.irq :: .out :: gs) s t := by
  intro g hg
  simp only [List.mem_cons, not_or] at hg
  have h1 := h g hg.2.2
  obtain ⟨b1, _, _, b4⟩ := b
  by_cases hp : g = .pending
  · subst hp; exact b4
  · have h2 := b1 g (by simp [hg.1, hg.2.1, hp])
    cases g <;> simp_all [Group.same]

/-- The same for an effect that leaves the interrupt state: the command changes those groups alone. -/
theorem becomes_alone {gs : List Group} {s e t : State} (h : SameBut gs s e) (hirq : Group.irq ∉ gs) (b : Becomes s e t) : Alone gs s t := by
  refine ⟨becomes_same h b, ?_⟩
  have h1 : e.irq = s.irq := h .irq hirq
  rw [b.2.1, h1]

/-- A served command that returns words of any number completes with them, and with its effect `t` on groups that hold neither result. -/
theorem completes_delivers {gs : List Group} {op owner m : Nat} {words : Nat → Bool} {s t : State} {ws : List Word} {body : Mailbox → Reply}
    {P : State → Prop} (h : Serves s m op owner) (hw : words (boxOf s m).paramWords = true) (hb : body (boxOf s m) = okay ws t)
    (hl : ws.length ≤ 120 ∨ domOn s 28 = true) (hn : 8 * ws.length < 2 ^ 64) (hs : SameBut gs s t) (hclk : Group.clk ∉ gs) (hmem : Group.mem ∉ gs)
    (hp : ∀ u, Delivers s u m ws → SameBut (.clk :: .mem :: .mb :: .irq :: .out :: gs) s u →
      SameBut [.clk, .mem, .mb, .irq, .out, .pending] t u → P u) :
    ∃ u, mailboxCommand op owner words m s body = .next u ∧ P u := by
  by_cases hc : ws.length ≤ 120
  · obtain ⟨u, h1, h2, h3, h4⟩ := okay_done_mb h hw hb hc hs
    have e1 : u.mem = s.mem := (h4 .mem (by simp)).trans (hs .mem hmem)
    have e2 : u.clk = s.clk := (h4 .clk (by simp)).trans (hs .clk hclk)
    refine ⟨u, h1, hp u ?_ (h3.mono ?_) (h4.mono ?_)⟩
    · rw [Delivers, if_pos hc]; exact ⟨h2, e1, e2⟩
    · intro g hg; simp only [List.mem_cons] at *; grind
    · intro g hg; simp only [List.mem_cons] at *; grind
  · have hd : domOn s 28 = true := hl.resolve_left hc
    have hl' : 120 < ws.length := by omega
    have e : mailboxCommand op owner words m s body
        = .next (signalRise s { finish m 0 0 (nearResult m ws t).1 (nearResult m ws t).2 with pending := s.pending }) := by
      rw [mailboxCommand_serves h hw, hb, commit_eq]
      simp [complete, okay, hl', hd]
    have hb2 := (boxOf_completed m 0 0 (nearResult m ws t).1 s (nearResult m ws t).2 s.pending).trans
      (boxOf_finish m 0 0 (nearResult m ws t).1 (nearResult m ws t).2)
    have hoff : (drawFree t).1.toNat % 8388608 * 8 < 2 ^ 64 := by
      have := Nat.mod_lt (drawFree t).1.toNat (show 0 < 8388608 by decide)
      omega
    have hm : t.mem = s.mem := hs .mem hmem
    refine ⟨_, e, hp _ ?_ ?_ ?_⟩
    · rw [Delivers, if_neg hc]
      refine ⟨⟨by rw [hb2], by rw [hb2]; rfl, by rw [hb2]; rfl, ?_⟩, ?_⟩
      · rw [prmN, prm, hb2, nearResult_words]
        simp only [boxData, tabPutMany, List.take]
        rw [tabGet_tabPut_self, BitVec.toNat_ofNat, Nat.mod_eq_of_lt hn]
      · rw [prmN, prm, hb2, nearResult_words]
        simp only [boxData, tabPutMany, List.take]
        rw [tabGet_tabPut_ne _ _ _ _ _ (by decide), tabGet_tabPut_self, BitVec.toNat_ofNat, Nat.mod_eq_of_lt hoff]
        simp [nearResult, drawFree, hm]
    · intro g hg
      simp only [List.mem_cons, not_or] at hg
      have := hs g
      cases g <;> simp_all [Group.same, nearResult, drawFree]
    · intro g hg
      cases g <;> simp_all [Group.same, nearResult, drawFree]

/-- A command without effect answers the state it found. -/
theorem commit_self (s : State) : commit s s = .next s := by
  have : intPending s &&& ~~~ intPending s = 0 := by simp
  simp [commit, signalRise]

/-- An event raised is logged, whatever a commit then signals. -/
theorem raise_logged {s u : State} (code obj : Nat) {m : Tab Msix} (h : u.irq = { (raise code obj s).irq with msix := m }) : Logged code obj s u := by
  have h1 : u.irq.log = (raise code obj s).irq.log := by have := congrArg Irq.log h; exact this
  have h2 : u.irq.overflow = (raise code obj s).irq.overflow := by have := congrArg Irq.overflow h; exact this
  unfold Logged
  rw [h1, h2]
  unfold raise
  split
  · dsimp only
    split <;> exact ⟨rfl, rfl⟩
  · dsimp only
    split <;> exact ⟨rfl, rfl⟩

/-- A message due on EVENT_VECTOR leaves its pending bit set, or is sent (R362). -/
theorem signals_vector (s : State) : Signals s (signalVector s.irq.vector s) := by
  unfold Signals signalVector
  dsimp only
  generalize he : tabGet ({} : Msix) s.irq.msix s.irq.vector = e
  by_cases h : e.masked = true
  · simp only [if_pos h, he]
    rw [tabGet_tabPut_self]
  · by_cases hu : s.host.up = true
    · simp only [if_neg h, if_pos hu]
      show if (tabGet ({} : Msix) s.irq.msix s.irq.vector).masked = true then _ else _
      rw [he, if_neg h]
      intro _
      show _ ∈ _ :: s.out
      rw [show (emit (Out.msix s.irq.vector e.addr e.data) s).irq.vector = s.irq.vector from rfl, he]
      exact List.mem_cons_self
    · simp only [if_neg h, if_neg hu, he]
      exact fun hc => absurd hc hu

/-- A message on a vector changes MSI-X entries and what was sent, and nothing else. -/
theorem signalVector_same (v : Nat) (s : State) : SameBut [.irq, .out] s (signalVector v s)
    ∧ (signalVector v s).irq = { s.irq with msix := (signalVector v s).irq.msix } := by
  unfold signalVector
  dsimp only
  split
  · refine ⟨fun g hg => ?_, rfl⟩; cases g <;> first | rfl | simp at hg
  · split
    · refine ⟨fun g hg => ?_, rfl⟩; cases g <;> first | rfl | simp at hg
    · exact ⟨sameBut_refl _ _, rfl⟩

/-- A write of INT_CAUSE, INT_MASK or MB_DONE_MAP whose effect is `t` completes, and signals where PENDING stays non-zero (R481). -/
theorem completes_write {t : State} {P : State → Prop}
    (hp : ∀ u, SameBut [.irq, .out] t u → u.irq = { t.irq with msix := u.irq.msix } → (intPending t ≠ 0 → Signals t u) → P u) :
    ∃ u, commitWrite t = .next u ∧ P u := by
  refine ⟨_, rfl, ?_⟩
  split
  · rename_i h
    exact hp _ (sameBut_refl _ _) rfl fun hc => absurd h hc
  · exact hp _ (signalVector_same _ _).1 (signalVector_same _ _).2 fun _ => signals_vector t

end Sys2Proof.Machine
end

