-- ==== Sys2Proof/Laws/Keep.lean ====
section
/-! SUPPORT. What the queued writes of the running MP leave: the value each word will hold once they have completed. -/
namespace Sys2Proof.Machine

/-- A word takes the value of the last write queued for it. -/
theorem keepQueued_append (s t : State) (w : Nat) (v : Word) (hq : t.keep.mpQ = s.keep.mpQ ++ [{ source := .mp, word := w, value := v, since := s.clk.now }]) : keepQueued t w = v := by
  unfold keepQueued
  rw [hq, ← List.append_assoc, List.filter_append]
  simp

/-- A queued write sets what the word will hold. -/
theorem keepQueued_mpWrite (w : Nat) (v : Word) (s : State) : keepQueued (mpWrite w v s) w = v := by
  unfold mpWrite; split
  · rename_i h; exact h.1
  · exact keepQueued_append s _ w v rfl

/-- It sets no other word. -/
theorem keepQueued_mpWrite_ne (w x : Nat) (v : Word) (s : State) (h : x ≠ w) : keepQueued (mpWrite w v s) x = keepQueued s x := by
  unfold mpWrite; split
  · rfl
  · unfold keepQueued
    simp only [← List.append_assoc, List.filter_append]
    have : List.filter (fun k : KeepWrite => k.source == KeepSource.mp && k.word == x) [{ source := .mp, word := w, value := v, since := s.clk.now }] = [] := by simp [Ne.symm h]
    rw [this, List.append_nil]; rfl

/-- Queued writes change the keep store alone. -/
theorem mpWrites_sameBut (l : List (Nat × Word)) (s : State) : SameBut [.keep] s (mpWrites l s) := by
  induction l generalizing s with
  | nil => exact sameBut_refl _ _
  | cons x xs ih => exact ((mpWrite_sameBut x.1 x.2 s).trans (ih _)).mono (by simp)

/-- Queued writes leave every word that none of them names. -/
theorem mpWrites_ne (l : List (Nat × Word)) (s : State) (w : Nat) (h : ∀ x ∈ l, x.1 ≠ w) : keepQueued (mpWrites l s) w = keepQueued s w := by
  induction l generalizing s with
  | nil => rfl
  | cons x xs ih =>
    show keepQueued (mpWrites xs (mpWrite x.1 x.2 s)) w = _
    rw [ih _ fun y hy => h y (by simp [hy]), keepQueued_mpWrite_ne _ _ _ _ (Ne.symm (h x (by simp)))]

/-- Queued writes of consecutive words set each of them. -/
theorem mpWrites_at (l : List (Nat × Word)) (s : State) (b : Nat) (hl : ∀ i (h : i < l.length), (l[i]).1 = b + i) (i : Nat) (h : i < l.length) : keepQueued (mpWrites l s) (b + i) = (l[i]).2 := by
  induction l generalizing s b i with
  | nil => simp at h
  | cons x xs ih =>
    show keepQueued (mpWrites xs (mpWrite x.1 x.2 s)) (b + i) = _
    have h0 := hl 0 (by simp)
    simp at h0
    cases i with
    | zero =>
      rw [mpWrites_ne]
      · simp [← h0, keepQueued_mpWrite]
      · intro y hy
        obtain ⟨j, hj, rfl⟩ := List.mem_iff_getElem.1 hy
        have := hl (j + 1) (by simpa using hj)
        simp at this; omega
    | succ i =>
      have := ih (mpWrite x.1 x.2 s) (b + 1) (fun j hj => by have := hl (j + 1) (by simpa using hj); simp at this; omega) i (by simpa using h)
      rw [show b + (i + 1) = b + 1 + i by omega, this]
      simp

/-- A queued write of settings sets what the word will hold. -/
theorem keepQueued_mpHold (w op : Nat) (vs : List Int) (s : State) : keepQueued (mpHold w op vs s) w = Config.settingValue op vs := by
  unfold mpHold; dsimp only; split
  · rename_i h; exact h.1
  · unfold keepQueued
    dsimp only
    rw [← List.append_assoc, List.filter_append]
    simp

/-- It sets no other word. -/
theorem keepQueued_mpHold_ne (w x op : Nat) (vs : List Int) (s : State) (h : x ≠ w) : keepQueued (mpHold w op vs s) x = keepQueued s x := by
  unfold mpHold; dsimp only; split
  · rfl
  · unfold keepQueued
    simp only [← List.append_assoc, List.filter_append]
    have : List.filter (fun k : KeepWrite => k.source == KeepSource.mp && k.word == x)
        [{ source := .mp, word := w, value := Config.settingValue op vs, since := s.clk.now, holds := [(op, vs)] }] = [] := by simp [Ne.symm h]
    rw [this, List.append_nil]; rfl

end Sys2Proof.Machine
end

