-- ==== Sys2Proof/Laws/Objects.lean ====
section
/-! SUPPORT. The numbered objects: reading one back after it is replaced, that the others stay, and the same over a list of objects changed one by
one. -/
namespace Sys2Proof.Machine

theorem portOf_setPort (p : Nat) (x : Port) (s : State) : portOf (setPort p x s) p = x := tabGet_tabPut_self _ _ _ _
theorem portOf_setPort_ne (p q : Nat) (x : Port) (s : State) (h : q ≠ p) : portOf (setPort p x s) q = portOf s q := tabGet_tabPut_ne _ _ _ _ _ h
theorem laneOf_setLane (l : Nat) (x : Lane) (s : State) : laneOf (setLane l x s) l = x := tabGet_tabPut_self _ _ _ _
theorem laneOf_setLane_ne (l k : Nat) (x : Lane) (s : State) (h : k ≠ l) : laneOf (setLane l x s) k = laneOf s k := tabGet_tabPut_ne _ _ _ _ _ h
@[simp] theorem laneOf_setPort (p l : Nat) (x : Port) (s : State) : laneOf (setPort p x s) l = laneOf s l := rfl
@[simp] theorem portOf_setLane (p l : Nat) (x : Lane) (s : State) : portOf (setLane l x s) p = portOf s p := rfl
theorem circOf_setCirc (c : Nat) (x : Circuit) (s : State) : circOf (setCirc c x s) c = x := tabGet_tabPut_self _ _ _ _
theorem circOf_setCirc_ne (c k : Nat) (x : Circuit) (s : State) (h : k ≠ c) : circOf (setCirc c x s) k = circOf s k := tabGet_tabPut_ne _ _ _ _ _ h
theorem domOf_setDom (d : Nat) (x : Dom) (s : State) : domOf (setDom d x s) d = x := tabGet_tabPut_self _ _ _ _
theorem domOf_setDom_ne (d k : Nat) (x : Dom) (s : State) (h : k ≠ d) : domOf (setDom d x s) k = domOf s k := tabGet_tabPut_ne _ _ _ _ _ h
theorem boxOf_setBox (m : Nat) (b : Mailbox) (s : State) : boxOf (setBox m b s) m = b := tabGet_tabPut_self _ _ _ _
theorem boxOf_setBox_ne (m n : Nat) (b : Mailbox) (s : State) (h : n ≠ m) : boxOf (setBox m b s) n = boxOf s n := tabGet_tabPut_ne _ _ _ _ _ h
theorem slotOf_setSlot (k : Nat) (x : Slot) (s : State) : slotOf (setSlot k x s) k = x := tabGet_tabPut_self _ _ _ _
theorem slotOf_setSlot_ne (k j : Nat) (x : Slot) (s : State) (h : j ≠ k) : slotOf (setSlot k x s) j = slotOf s j := tabGet_tabPut_ne _ _ _ _ _ h
theorem feedOf_setFeed (c : Nat) (x : Feed) (s : State) : feedOf (setFeed c x s) c = x := tabGet_tabPut_self _ _ _ _
theorem feedOf_setFeed_ne (c k : Nat) (x : Feed) (s : State) (h : k ≠ c) : feedOf (setFeed c x s) k = feedOf s k := tabGet_tabPut_ne _ _ _ _ _ h
theorem decoderOf_setDecoder (d : Nat) (x : Decoder) (s : State) : decoderOf (setDecoder d x s) d = x := tabGet_tabPut_self _ _ _ _
theorem decoderOf_setDecoder_ne (d k : Nat) (x : Decoder) (s : State) (h : k ≠ d) : decoderOf (setDecoder d x s) k = decoderOf s k :=
  tabGet_tabPut_ne _ _ _ _ _ h
theorem srcOf_setSrc (k : Nat) (x : Source) (s : State) : srcOf (setSrc k x s) k = x := tabGet_tabPut_self _ _ _ _
theorem srcOf_setSrc_ne (k j : Nat) (x : Source) (s : State) (h : j ≠ k) : srcOf (setSrc k x s) j = srcOf s j := tabGet_tabPut_ne _ _ _ _ _ h

/-! An object depends on its own group alone. -/

theorem portOf_congr {s t : State} (h : t.port = s.port) (p : Nat) : portOf t p = portOf s p := by unfold portOf; rw [h]
theorem laneOf_congr {s t : State} (h : t.port = s.port) (l : Nat) : laneOf t l = laneOf s l := by unfold laneOf; rw [h]
theorem circOf_congr {s t : State} (h : t.circ = s.circ) (c : Nat) : circOf t c = circOf s c := by unfold circOf; rw [h]
theorem domOf_congr {s t : State} (h : t.pwr = s.pwr) (d : Nat) : domOf t d = domOf s d := by unfold domOf; rw [h]
theorem boxOf_congr {s t : State} (h : t.mb = s.mb) (m : Nat) : boxOf t m = boxOf s m := by unfold boxOf; rw [h]
theorem slotOf_congr {s t : State} (h : t.aead = s.aead) (k : Nat) : slotOf t k = slotOf s k := by unfold slotOf; rw [h]
theorem feedOf_congr {s t : State} (h : t.feed = s.feed) (c : Nat) : feedOf t c = feedOf s c := by unfold feedOf; rw [h]
theorem decoderOf_congr {s t : State} (h : t.ldpc = s.ldpc) (d : Nat) : decoderOf t d = decoderOf s d := by unfold decoderOf; rw [h]
theorem srcOf_congr {s t : State} (h : t.tku = s.tku) (k : Nat) : srcOf t k = srcOf s k := by unfold srcOf; rw [h]
theorem cellOf_congr {s t : State} (h : t.keep = s.keep) (w : Nat) : cellOf t w = cellOf s w := by unfold cellOf; rw [h]
theorem txRing_congr {s t : State} (h : t.host = s.host) (q : Nat) : txRing t q = txRing s q := by unfold txRing; rw [h]
theorem rxRing_congr {s t : State} (h : t.host = s.host) (q : Nat) : rxRing t q = rxRing s q := by unfold rxRing; rw [h]

@[simp] theorem modCirc_port (c : Nat) (f : Circuit → Circuit) (s : State) : (modCirc c f s).port = s.port := rfl
@[simp] theorem modCirc_keep (c : Nat) (f : Circuit → Circuit) (s : State) : (modCirc c f s).keep = s.keep := rfl

/-- Circuits changed one by one: each of a list without repeats by its function, the others not at all. -/
theorem circOf_foldl (g : Nat → Circuit → Circuit) (cs : List Nat) (s : State) (h : cs.Nodup) (c : Nat) :
    circOf (cs.foldl (fun t c => modCirc c (g c) t) s) c = if c ∈ cs then g c (circOf s c) else circOf s c := by
  induction cs generalizing s with
  | nil => simp
  | cons a cs ih =>
    have ha : a ∉ cs := (List.nodup_cons.1 h).1
    rw [List.foldl_cons, ih _ (List.nodup_cons.1 h).2]
    by_cases e : c = a
    · subst e; simp [ha, modCirc, circOf_setCirc]
    · simp [e, modCirc, circOf_setCirc_ne _ _ _ _ e]
theorem circ_foldl_sameBut (g : Nat → Circuit → Circuit) (cs : List Nat) (s : State) :
    SameBut [.circ] s (cs.foldl (fun t c => modCirc c (g c) t) s) := by
  induction cs generalizing s with
  | nil => exact sameBut_refl _ _
  | cons a cs ih =>
    refine (SameBut.trans (gs := [.circ]) ?_ (ih _)).mono (by simp)
    intro k hk; cases k <;> first | rfl | simp at hk

theorem circ_foldl_rest (g : Nat → Circuit → Circuit) (cs : List Nat) (s : State) :
    { (cs.foldl (fun t c => modCirc c (g c) t) s).circ with circuit := s.circ.circuit } = s.circ := by
  have : ∀ (s : State) (z : Tab Circuit), { (cs.foldl (fun t c => modCirc c (g c) t) s).circ with circuit := z } = { s.circ with circuit := z } := by
    induction cs with
    | nil => intro s z; rfl
    | cons a cs ih => intro s z; rw [List.foldl_cons, ih]; rfl
  exact this s s.circ.circuit
theorem circuits_change {g : Nat → Circuit → Circuit} {cs : List Nat} {s u : State} (h : cs.Nodup)
    (hu : u.circ = (cs.foldl (fun t c => modCirc c (g c) t) s).circ) : CircuitsChange cs g s u :=
  ⟨fun c => (circOf_congr hu c).trans (circOf_foldl g cs s h c), by rw [hu]; exact circ_foldl_rest g cs s⟩

/-- Ports changed one by one. -/
theorem portOf_foldl (g : Nat → Port → Port) (ps : List Nat) (s : State) (h : ps.Nodup) (p : Nat) :
    portOf (ps.foldl (fun t p => modPort p (g p) t) s) p = if p ∈ ps then g p (portOf s p) else portOf s p := by
  induction ps generalizing s with
  | nil => simp
  | cons a ps ih =>
    have ha : a ∉ ps := (List.nodup_cons.1 h).1
    rw [List.foldl_cons, ih _ (List.nodup_cons.1 h).2]
    by_cases e : p = a
    · subst e; simp [ha, modPort, portOf_setPort]
    · simp [e, modPort, portOf_setPort_ne _ _ _ _ e]
theorem port_foldl_sameBut (g : Nat → Port → Port) (ps : List Nat) (s : State) :
    SameBut [.port] s (ps.foldl (fun t p => modPort p (g p) t) s) := by
  induction ps generalizing s with
  | nil => exact sameBut_refl _ _
  | cons a ps ih =>
    refine (SameBut.trans (gs := [.port]) ?_ (ih _)).mono (by simp)
    intro k hk; cases k <;> first | rfl | simp at hk

/-- Lanes changed one by one. -/
theorem laneOf_foldl (g : Nat → Lane → Lane) (ls : List Nat) (s : State) (h : ls.Nodup) (l : Nat) :
    laneOf (ls.foldl (fun t l => modLane l (g l) t) s) l = if l ∈ ls then g l (laneOf s l) else laneOf s l := by
  induction ls generalizing s with
  | nil => simp
  | cons a ls ih =>
    have ha : a ∉ ls := (List.nodup_cons.1 h).1
    rw [List.foldl_cons, ih _ (List.nodup_cons.1 h).2]
    by_cases e : l = a
    · subst e; simp [ha, modLane, laneOf_setLane]
    · simp [e, modLane, laneOf_setLane_ne _ _ _ _ e]
theorem lane_foldl_sameBut (g : Nat → Lane → Lane) (ls : List Nat) (s : State) :
    SameBut [.port] s (ls.foldl (fun t l => modLane l (g l) t) s) := by
  induction ls generalizing s with
  | nil => exact sameBut_refl _ _
  | cons a ls ih =>
    refine (SameBut.trans (gs := [.port]) ?_ (ih _)).mono (by simp)
    intro k hk; cases k <;> first | rfl | simp at hk

/-- The sets of a command name each object once (R384). -/
theorem circuitsOf_nodup (b : Mailbox) (i : Nat) : (circuitsOf b i).Nodup := List.nodup_range.filter _
theorem portsOf_nodup (w : Word) : (portsOf w).Nodup := List.nodup_range.filter _

/-- The length of a readout of `k` words an object. -/
theorem length_flatMap_const {α β : Type} (f : α → List β) (k : Nat) (l : List α) (h : ∀ x, (f x).length = k) : (l.flatMap f).length = k * l.length := by
  induction l with
  | nil => rfl
  | cons a l ih => rw [List.flatMap_cons, List.length_append, ih, h, List.length_cons, Nat.mul_succ, Nat.add_comm]

/-- A bit set by an OR reads as set, and leaves the others as they were. -/
theorem bitOf_or_bitAt (w : Word) (i : Nat) (h : i < 64) : bitOf (w ||| bitAt i true) i = true := by
  simp only [bitOf, bitAt, if_true, fieldAt, BitVec.getLsbD_or, BitVec.getLsbD_ofNat]
  simp [h]
theorem bitOf_or_bitAt_ne (w : Word) (i j : Nat) (h : j ≠ i) : bitOf (w ||| bitAt i true) j = bitOf w j := by
  simp only [bitOf, bitAt, if_true, fieldAt, BitVec.getLsbD_or, BitVec.getLsbD_ofNat]
  simp only [show i + 1 - i = 1 by omega]
  simp only [Nat.reducePow, Nat.mod_succ, Nat.one_mul, Nat.testBit_two_pow]
  simp only [show (i = j) ↔ False from ⟨fun e => h e.symm, False.elim⟩, decide_false, Bool.and_false, Bool.or_false]

end Sys2Proof.Machine
end

