-- ==== Sys2Proof/Tests/Slice0.lean ====
section
/-! SUPPORT. Small states that meet the hypotheses of the statements, and the manual's own worked figures. -/
set_option Elab.async false
open Sys2Proof Sys2Proof.Machine

/-! States. -/

/-- Mailbox m of a state is RUNNING with a command and its parameter words. -/
def running (s : State) (m op : Nat) (ps : List Word) : State :=
  setBox m { st := .running, opcode := op, paramWords := ps.length, data := boxData ps } s
/-- Every power domain is ENABLED. -/
def domainsOn : State := { pwr := { seqRunning := false, dom := (List.range 30).map fun d => (d, { state := .enabled }) } }
/-- A state at another instant of the µs clock. -/
def atTime (n : Nat) (s : State) : State := { s with clk := { s.clk with now := n } }
/-- Ports P0, P1 and Q0 carry frames too. -/
def portsActive : State := { domainsOn with port := { port := [(0, { state := .active, gen := 3 }), (1, { state := .active, gen := 3 }), (32, { state := .active, gen := 3 })] } }
/-- A plan in force with circuit 24 as a feed on active index 0. -/
def feedPlan : State := { portsActive with plan := { active := [0, 0x20000, 0, 0, 0, 0, 0, 0, 0x300C000000000000, 0x4062000000000000] } }
/-- A plan in force with one Class A seat in group 1. -/
def seatPlan : State := { portsActive with plan := { active := [0, 0x10000, 0, 0, 0, 0, 0, 0, 0x2510FFC000000000] } }
/-- One endpoint record on circuit 24. -/
def oneRecord : State := { feedPlan with link := { records := [{ circuit := 24, addr := some 5, epId := 77 }] } }
/-- endpoint.set_repeater assigning endpoint 6 of circuit 24 to endpoint 5 RUNNING in mailbox 0. -/
def repeating : State :=
  running { domainsOn with link := { records := [{ circuit := 24, addr := some 5, epId := 77, caps := 128 }, { circuit := 24, addr := some 6, epId := 78 }] } } 0
    0x0405 [0x18005, 1, 70, 1, 0x18006]
/-- An endpoint whose first frame has not fitted for four superframes. -/
def tooLong : State :=
  { domainsOn with link := { records := [{ circuit := 24, addr := some 5, epId := 77, waiting := [{ host := some { ring := 3, circuit := 24, unfit := 4 } }] }] } }
/-- Transmit ring 0 is ENABLED with a descriptor posted. -/
def ringReady : State := { domainsOn with host := { up := true, tx := [(0, { state := .enabled, size := 8, tail := 1 })] } }
/-- An identity region of zeros under its check word. -/
def soundIdentity : State :=
  { domainsOn with keep := { cells := [(28, { value := BitVec.ofNat 64 (crc32c ((List.replicate 28 (0 : Word)).flatMap bytesBE)) })] } }
/-- security.join_key adding endpoint 1:2 RUNNING in mailbox 0, its key of bytes 0 to 15 wrapped under PROV_KEY with nonce count 9. -/
def joining : State :=
  running { aead := { slot := [(0, { key := some [7, 8] }), (1, { key := some [5, 6], counter := 5 })] } } 0 0x0602
    [1, 2, 1, 9, 0x3cca28b645f583aa, 0xd54724ff6dbdfb76, 0x72da101fc3f501b9, 0xd083fe8fe132b77e]
/-- The header of a firmware image that passes the checks of R399. -/
def stagedHeader : List Word := [0x4657494D00010000, 0, 0x8800000000000000, 1] ++ List.replicate 508 0
/-- The image staged, and firmware.verify RUNNING in mailbox 0. -/
def verifiable : State :=
  running { domainsOn with mem := { granary := memWriteWords [] (stageBase domainsOn) (stagedHeader.take 4) } } 0 0x0703 []
/-- The ledger record of sensor 5 with its commit word (R439). -/
def ledgerFive : State :=
  { domainsOn with keep := { cells := [(1, { value := 0x580080 }), (1224, { value := 0x01600280FFE00000 }),
    (1227, { value := BitVec.ofNat 64 (crc32c ([0x01600280FFE00000, 0, 0].flatMap bytesBE)) })] } }
/-- A lane's training word with its CHECK (R82), and a Class D one (R210). -/
def laneWord (w : Word) : Word := w ||| BitVec.ofNat 64 (crc8 (natBits 48 (fieldOf w 55 8)))
def feedWord (w : Word) : Word := w ||| BitVec.ofNat 64 (crc8 (natBits 56 (fieldOf w 63 8)))
def testWord : Word := laneWord (fieldAt 55 52 7 ||| fieldAt 46 43 1)
def trainingWord : Word := feedWord (fieldAt 63 60 2 ||| bitAt 59 true)
def duplexWord : Word := feedWord (fieldAt 63 60 2 ||| bitAt 59 true ||| bitAt 54 true ||| fieldAt 53 38 300)
def selectWord : Word := feedWord (fieldAt 63 60 3 ||| bitAt 59 true ||| fieldAt 37 29 (choiceOf {}))
def precodeWord : Word := feedWord (fieldAt 63 60 4 ||| bitAt 59 true)
def switchWord : Word := feedWord (fieldAt 63 60 5 ||| bitAt 59 true ||| fieldAt 28 24 7)
/-- A time-of-day message with its check (R330). -/
def timeBody : List Byte := [0x47, 0x57, 0x01, 0x12] ++ List.replicate 18 0
def timeMessage : List Byte := timeBody ++ [BitVec.ofNat 8 (todCrc timeBody / 256), BitVec.ofNat 8 (todCrc timeBody)]
/-- The same message with a version that the block does not know (R330). -/
def foreignMessage : List Byte :=
  let b : List Byte := [0x47, 0x57, 0x02, 0x12] ++ List.replicate 18 0
  b ++ [BitVec.ofNat 8 (todCrc b / 256), BitVec.ofNat 8 (todCrc b)]
/-- The lanes of peer port Q1 and of ports P0 and P1 have block lock. -/
def lanesLocked : Tab Lane := [0, 1, 2, 3, 66, 67].map fun l => (l, { blockLock := true })
/-- P0 and P1 are ACTIVE with block lock. -/
def lockedPorts : State := { portsActive with port := { portsActive.port with lane := lanesLocked } }
/-- Peer port Q1 is ACTIVE in role PAIR, or in role TIME_PEER, and frames that it accepts. -/
def peerLinked (r : PairRole) : State :=
  { domainsOn with port := { port := [(33, { state := .active })], lane := lanesLocked }, tku := { peerRole := [0, 1, 0, 0] }, pair := { role := r } }
def timePeer : State := { domainsOn with port := { port := [(33, { state := .active })], lane := lanesLocked }, tku := { peerRole := [0, 2, 0, 0] } }
def framed (w : Word) : List Word :=
  let ws := w :: List.replicate 134 0
  ws ++ [BitVec.ofNat 64 (frameCrc ws)]
def peerCandidate : PeerFrame := { words := framed 0x0300000000000000 }
/-- A marker of superframe 0 (R461), and a frame whose first cell asks for a checkpoint (R462). -/
def peerMarker : PeerFrame := { words := framed 0x0301000000000000 }
def peerAsks : PeerFrame :=
  let ws : List Word := [0x0300000000000000, 0, 0, 0, 0x0600000000000000] ++ List.replicate 130 0
  { words := ws ++ [BitVec.ofNat 64 (frameCrc ws)] }
def timePeerWords : PeerFrame := { words := framed 0x0400000000000000 }


/-- No keep-store word of a state is listed, so none is worn. -/
def unworn (s : State) : State := { s with keep := { s.keep with cells := [] } }
theorem unworn_worn (s : State) (h : s.keep.cells = []) (w : Nat) : worn s w = false := by
  rw [worn, cellOf, h]; rfl
/-- A frame, the endpoint that sent it, the record as the frame leaves it, and the state after its ACK body has been read. -/
def fiveRec : Record := { circuit := 24, addr := some 5, epId := 77 }
def fromFive (ty : Nat) (body : List Byte) : RxFrame := { circuit := 24, frame := { ftype := ty, src := 5, body := body } }
def lateFrame (ty seq : Nat) : RxFrame := { circuit := 24, frame := { ftype := ty, src := 5, seq := seq } }
def setRecords (rs : List Record) (s : State) : State := { s with link := { s.link with records := rs } }
def setSfNumber (n : Nat) (s : State) : State := { s with sf := { s.sf with number := n } }
def asStandby (s : State) : State := { s with pair := { s.pair with role := .standby } }
/-- Receive ring 0 is ENABLED. -/
def ringOpen (s : State) : State := { s with host := { s.host with rx := [(0, { state := .enabled })] } }
/-- A POLL grant of endpoint 5 on circuit 24 from slot 64 on has ended. -/
def polledState (r : Record) : State :=
  atTime 2000 { oneRecord with link := { records := [r] }, sf := { running := true, grants := [{ circuit := 24, gtype := 4, addr := 5, slot := 64, slots := 8 }] } }
def rangingState (r : Record) : State := { setRecords [r] oneRecord with sf := { running := true, beaconTrusted := true } }
def stamped (x : Int) (s : State) : State := modCirc 24 (fun y => { y with stamp := some x }) s
/-- A RANGE_REPORT from endpoint 5 about endpoint 6. -/
def farReport : RxFrame := fromFive 7 ([0x11, 0, 0, 0x60, 0, 0, 0, 0] ++ List.replicate 32 0)
/-- A JOIN_REQ and a RESPONSE of identity 0 on circuit 24; its join key is not usable in any state of these tests. -/
def joinReqFrame : RxFrame := { circuit := 24, frame := { ftype := 10, src := 0xFFF, body := [1, 0, 0, 0, 0, 0, 0, 0] } }
def asHeard (f : RxFrame) (r : Record) (s : State) : Record := (recordId (heard f r s) r.epId).getD {}
def afterAcks (f : RxFrame) (r : Record) (s : State) : State := (classify f false r.epId (heard f r s)).2
def asClassed (f : RxFrame) (r : Record) (s : State) : Record := (recordId (afterAcks f r s) r.epId).getD {}

/-! Check words. -/

theorem frameCrc_lt (ws : List Word) : frameCrc ws < 2 ^ 32 := by
  unfold frameCrc crcOut
  exact Nat.xor_lt_two_pow (Nat.mod_lt _ (by decide)) (by decide)
theorem bitsNat_lt (l : List Bool) : bitsNat l < 2 ^ l.length := by
  suffices h : ∀ a : Nat, l.foldl (fun a b => 2 * a + (if b then 1 else 0)) a < (a + 1) * 2 ^ l.length by simpa [bitsNat] using h 0
  induction l with
  | nil => simp
  | cons b l ih =>
    intro a
    have h := ih (2 * a + (if b then 1 else 0))
    refine Nat.lt_of_lt_of_le h ?_
    rw [List.length_cons, Nat.pow_succ, Nat.mul_comm (2 ^ l.length) 2, ← Nat.mul_assoc]
    exact Nat.mul_le_mul_right _ (by split <;> omega)
theorem reflected_lt (n v : Nat) : reflectNat n v < 2 ^ n := by
  have := bitsNat_lt (natBits n v).reverse
  simpa [reflectNat, natBits] using this
theorem crc32c_lt (bs : List Byte) : crc32c bs < 2 ^ 32 := by
  unfold crc32c crcOut
  refine Nat.xor_lt_two_pow ?_ (Nat.mod_lt _ (by decide))
  exact reflected_lt _ _
theorem fieldOf_low {n : Nat} (h : n < 2 ^ 32) : fieldOf (BitVec.ofNat 64 n) 31 0 = n := by
  have : n % 2 ^ 64 = n := Nat.mod_eq_of_lt (by omega)
  simp only [fieldOf, BitVec.toNat_ofNat, this]; omega
/-- The CHECK word of a framed frame is right, whatever it is. -/
theorem framed_check (w : Word) : fieldOf ((framed w).getD 135 0) 31 0 = frameCrc ((framed w).take 135) := by
  have h1 : (framed w).take 135 = w :: List.replicate 134 0 := by
    unfold framed; exact List.take_left' (by simp)
  have h2 : (framed w).getD 135 0 = BitVec.ofNat 64 (frameCrc (w :: List.replicate 134 0)) := by
    unfold framed
    rw [List.getD_eq_getElem?_getD, List.getElem?_append_right (by simp)]; simp
  rw [h1, h2, fieldOf_low (frameCrc_lt _)]
theorem peerCandidate_accepted : peerAccepted (peerLinked .active) 1 peerCandidate = true := by
  have h := framed_check 0x0300000000000000
  have l : frameLen (portOf (peerLinked .active) (32 + 1)).gen = 136 := by decide
  simp only [peerAccepted, peerCandidate, l, h, beq_self_eq_true, Bool.and_true]
  decide +kernel
theorem peerMarker_accepted : peerAccepted (peerLinked .candidate) 1 peerMarker = true := by
  have h := framed_check 0x0301000000000000
  have l : frameLen (portOf (peerLinked .candidate) (32 + 1)).gen = 136 := by decide
  simp only [peerAccepted, peerMarker, l, h, beq_self_eq_true, Bool.and_true]
  decide +kernel
theorem checked_check (ws : List Word) (n : Nat) (hn : ws.length = n) :
    fieldOf ((ws ++ [BitVec.ofNat 64 (frameCrc ws)]).getD n 0) 31 0 = frameCrc ((ws ++ [BitVec.ofNat 64 (frameCrc ws)]).take n) := by
  rw [List.take_left' hn, List.getD_eq_getElem?_getD, List.getElem?_append_right (by omega), hn, Nat.sub_self]
  exact fieldOf_low (frameCrc_lt _)
/-- An upstream frame of P1 with nothing in it but its type, its port and its check word. -/
def upFrameOne : UpFrame :=
  let ws := (fieldAt 63 56 (frameType 3 true) ||| fieldAt 55 50 1) :: List.replicate (frameLen 3 - 2) 0
  { words := ws ++ [BitVec.ofNat 64 (frameCrc ws)] }
theorem upFrameOne_accepted : upAccepted lockedPorts 1 upFrameOne = true := by
  have l : frameLen (portOf lockedPorts 1).gen = frameLen 3 := by decide
  have h : fieldOf (upFrameOne.words.getD (frameLen 3 - 1) 0) 31 0 = frameCrc (upFrameOne.words.take (frameLen 3 - 1)) := checked_check _ _ (by simp [show frameLen 3 - 2 + 1 = frameLen 3 - 1 by decide])
  simp only [upAccepted, l, h, beq_self_eq_true, Bool.and_true]
  decide +kernel
theorem peerAsks_accepted : peerAccepted (peerLinked .active) 1 peerAsks = true := by
  have h : fieldOf (peerAsks.words.getD 135 0) 31 0 = frameCrc (peerAsks.words.take 135) := checked_check _ 135 (by simp)
  have l : frameLen (portOf (peerLinked .active) (32 + 1)).gen = 136 := by decide
  simp only [peerAccepted, l, h, beq_self_eq_true, Bool.and_true]
  decide +kernel
theorem timePeerWords_check : fieldOf (timePeerWords.words.getD (frameLen (portOf timePeer (32 + 1)).gen - 1) 0) 31 0
    = frameCrc (timePeerWords.words.take (frameLen (portOf timePeer (32 + 1)).gen - 1)) := by
  have l : frameLen (portOf timePeer (32 + 1)).gen = 136 := by decide
  rw [l]; exact framed_check _
theorem soundIdentity_good (s : State) (h : s.keep = soundIdentity.keep) : identFault s = false := by
  simp [identFault, h, soundIdentity, cellOf, keepWord, tabGet, List.range_succ, fieldOf_low (crc32c_lt _)]

/-- Circuit 24 with every address in quarantine. -/
def fullCircuit : State :=
  { domainsOn with
    sec := { joinKeys := [(0, [0])] },
    link := { quarantine := (List.range 0xEFF).map fun i => { circuit := 24, addr := i + 1, untilSf := 9 } } }
theorem fullCircuit_reason :
    0 = (if recordId fullCircuit 0 = none ∧ 16384 ≤ fullCircuit.link.records.length then 1
      else if recordId fullCircuit 0 = none ∧ 64 ≤ (fullCircuit.link.records.filter fun r => r.circuit == 24).length then 2
      else if (24, 0) ∈ fullCircuit.link.denied then 3 else 0) ∧ joinAddr fullCircuit 24 0 = none := by
  refine ⟨by simp [fullCircuit, recordId, domainsOn], ?_⟩
  have h : lowestFree fullCircuit 24 = none := by
    simp only [lowestFree, Option.map_eq_none_iff, List.find?_eq_none, List.mem_range]
    intro i hi
    simp [addrFree, fullCircuit, domainsOn]
    exact hi
  have g : recordId fullCircuit 0 = none := by simp [fullCircuit, recordId, domainsOn]
  simp [joinAddr, g, h]
/-- Identity 0 awaited on circuit 24, and its RESPONSE. -/
def joinAwaited : State := { domainsOn with sec := { joinKeys := [(0, [0])] }, link := { joins := [{ circuit := 24 }] } }
def joinAnswerBody : List Byte :=
  [3] ++ List.replicate 23 0 ++
    joinMac joinAwaited 0 (0xFFFFFFFF * 18446744073709551616) (idBytes 0 ++ bytesOfNat 4 0 ++ bytesBE 0 ++ bytesOfNat 2 0 ++ bytesOfNat 2 24)
def joinAnswer : RxFrame := { circuit := 24, frame := { ftype := 10, body := joinAnswerBody } }

/-! The hypotheses of the statements can be met. -/
/-- States and operands that meet the hypotheses of each clause of `MailboxStates`. -/
theorem witness_MailboxStates_1 :
    ∃ (s : State) (m : Nat), (m < 32) ∧ ((boxOf s m).st = .idle) :=
  ⟨{}, 3, by decide⟩
theorem witness_MailboxStates_2 :
    ∃ (s : State) (m : Nat), (m < 32) ∧ ((boxOf s m).st = .done) :=
  ⟨setBox 3 { st := .done, status := 5 } {}, 3, by decide⟩
theorem witness_MailboxStates_3 :
    ∃ (s : State) (m : Nat), (m < 32) ∧ ((boxOf s m).st = .done) :=
  ⟨setBox 3 { st := .done, status := 5 } {}, 3, by decide⟩
theorem witness_MailboxStates_4 :
    ∃ (s : State) (m : Nat), (m < 32) ∧ ((boxOf s m).st = .posted ∨ (boxOf s m).st = .running) :=
  ⟨setBox 3 { st := .posted, opcode := 5 } {}, 3, by decide⟩
theorem witness_MailboxStates_5 :
    ∃ (s : State) (m : Nat), (m < 32) ∧ ((boxOf s m).st = .posted ∨ (boxOf s m).st = .running) ∧ (500000 ≤ (s.clk.tick + 4294967296 - (boxOf s m).postTick) % 4294967296) :=
  ⟨setBox 3 { st := .running, opcode := 5, postTick := 7 } { clk := { tick := 600000 } }, 3, by decide⟩
theorem witness_MailboxStates_6 :
    ∃ (s : State) (m : Nat), (s.mp.serving = true) ∧ (handingOver s = false) ∧ ((∀ n ∈ List.range 28, (boxOf s n).st ≠ .running)) ∧ (nextPosted s = some m) ∧ (knownOpcode (boxOf s m).opcode = true) :=
  ⟨setBox 5 { st := .posted, opcode := 0x0101 } { mp := { serving := true } }, 5, by decide⟩
theorem witness_MailboxStates_7 :
    ∃ (m : Nat), (m < 32) :=
  ⟨3, by decide⟩
/-- States and operands that meet the hypotheses of each clause of `DeviceReadouts`. -/
theorem witness_DeviceReadouts_1 :
    ∃ (s : State) (m : Nat), (Serves s m 0x0101 0) ∧ ((boxOf s m).paramWords = 0) :=
  ⟨running {} 0 0x0101 [], 0, by decide⟩
theorem witness_DeviceReadouts_2 :
    ∃ (s : State) (m : Nat), (Serves s m 0x0102 0) ∧ ((boxOf s m).paramWords = 0) :=
  ⟨running {} 0 0x0102 [], 0, by decide⟩
theorem witness_DeviceReadouts_3 :
    ∃ (s : State) (m : Nat), (Serves s m 0x0902 0) ∧ ((boxOf s m).paramWords = 0) :=
  ⟨running {} 0 0x0902 [], 0, by decide⟩
theorem witness_DeviceReadouts_4 :
    ∃ (s : State) (m : Nat), (Serves s m 0x0701 0) ∧ ((boxOf s m).paramWords = 0) :=
  ⟨running {} 25 0x0701 [], 25, by decide⟩
theorem witness_DeviceReadouts_5 :
    ∃ (s : State) (m : Nat), (Serves s m 0x0801 0) ∧ ((boxOf s m).paramWords = 0) :=
  ⟨running {} 0 0x0801 [], 0, by decide⟩
theorem witness_DeviceReadouts_6 :
    ∃ (s : State) (m : Nat), (Serves s m 0x0841 0) ∧ ((boxOf s m).paramWords = 0) :=
  ⟨running {} 0 0x0841 [], 0, by decide⟩
/-- States and operands that meet the hypotheses of each clause of `DeviceLogAndSettings`. -/
theorem witness_DeviceLogAndSettings_1 :
    ∃ (s : State) (m n : Nat), (Serves s m 0x0103 0) ∧ ((boxOf s m).paramWords = 1) ∧ (prmN (boxOf s m) 0 = n) ∧ (1 ≤ n ∧ n ≤ 56) :=
  ⟨running {} 0 0x0103 [2], 0, 2, by decide⟩
theorem witness_DeviceLogAndSettings_2 :
    ∃ (s : State) (m : Nat), (Serves s m 0x0601 0) ∧ ((boxOf s m).paramWords = 0) :=
  ⟨running {} 0 0x0601 [], 0, by decide⟩
theorem witness_DeviceLogAndSettings_3 :
    ∃ (s : State) (m off n : Nat), (Serves s m 0x0802 0) ∧ ((boxOf s m).paramWords = 2) ∧ (prmN (boxOf s m) 0 = off) ∧ (prmN (boxOf s m) 1 = n) ∧ (1 ≤ n ∧ n ≤ 120) ∧ (off + 8 * n ≤ 67108864) ∧ (domOn s 28 = true) :=
  ⟨running domainsOn 0 0x0802 [0x100, 3], 0, 0x100, 3, by decide⟩
theorem witness_DeviceLogAndSettings_4 :
    ∃ (s : State) (m v : Nat), (Serves s m 0x0134 1) ∧ ((boxOf s m).paramWords = 1) ∧ (prmN (boxOf s m) 0 = v) ∧ (v ≤ 63) :=
  ⟨running {} 0 0x0134 [9], 0, 9, by decide⟩
theorem witness_DeviceLogAndSettings_5 :
    ∃ (s : State) (m x y : Nat), (Serves s m 0x0105 0) ∧ ((boxOf s m).paramWords = 2) ∧ (prmN (boxOf s m) 0 = x) ∧ (prmN (boxOf s m) 1 = y) ∧ (x ≤ 1 ∧ y ≤ 1) ∧ (worn s (settingWordOf 0x0105) = false) :=
  ⟨unworn (running {} 0 0x0105 [1, 0]), 0, 1, 0, by decide, by decide, by decide, by decide, by decide, unworn_worn _ rfl _⟩
theorem witness_DeviceLogAndSettings_6 :
    ∃ (s : State) (m x y : Nat), (Serves s m 0x0133 1) ∧ ((boxOf s m).paramWords = 2) ∧ (prmN (boxOf s m) 0 = x) ∧ (prmN (boxOf s m) 1 = y) ∧ (x ≤ 8 ∧ y ≤ 4) ∧ (worn s (settingWordOf 0x0133) = false) :=
  ⟨unworn (running {} 0 0x0133 [8, 4]), 0, 8, 4, by decide, by decide, by decide, by decide, by decide, unworn_worn _ rfl _⟩
/-- States and operands that meet the hypotheses of each clause of `FirmwareUpdate`. -/
theorem witness_FirmwareUpdate_1 :
    ∃ (s : State) (m off : Nat) (b : Mailbox), (Serves s m 0x0702 0) ∧ (boxOf s m = b) ∧ (1 ≤ b.paramWords ∧ b.paramWords ≤ 119) ∧ (prmN b 0 = off) ∧ (off % 8 = 0 ∧ off + 8 * (b.paramWords - 1) ≤ 16777216) ∧ (domOn s 28 = true) ∧ (updateInProgress s = false) :=
  ⟨running domainsOn 0 0x0702 [16, 5], 0, 16, boxOf (running domainsOn 0 0x0702 [16, 5]) 0, by decide⟩
theorem witness_FirmwareUpdate_2 :
    ∃ (s : State) (m : Nat) (h : List Word), (Serves s m 0x0703 0) ∧ ((boxOf s m).paramWords = 0) ∧ (memWords s.mem.granary (stageBase s) 512 = h) ∧ (domOn s 28 = true) ∧ (fwFormatOk h = true) ∧ (fieldOf (hdr h 2) 63 48 = 0x8800 ∧ fieldOf (hdr h 2) 47 40 ≤ siliconRev s ∧ fwSecMin s ≤ fieldOf (hdr h 1) 47 32) :=
  ⟨verifiable, 0, stagedHeader, by decide +kernel⟩
theorem witness_FirmwareUpdate_3 :
    ∃ (s : State) (m k : Nat) (img : Image), (Serves s m 0x0704 0) ∧ ((boxOf s m).paramWords = 0) ∧ (k = 1 - bootBank s) ∧ (s.mp.stage = some img) ∧ ((bankOf s k).state ≠ .trial) ∧ (flashBusy s = false) :=
  ⟨running { mp := { stage := some {} } } 0 0x0704 [], 0, 1, {}, by decide⟩
theorem witness_FirmwareUpdate_4 :
    ∃ (s : State) (m x src : Nat), (Serves s m 0x0705 0) ∧ ((boxOf s m).paramWords = 2) ∧ (prmN (boxOf s m) 0 = x) ∧ (prmN (boxOf s m) 1 = src) ∧ (x < 2 ^ 40 ∧ src ≤ 1) ∧ (counting s = true) ∧ ((if src = 0 then s.mp.stage.isSome else (bankOf s (1 - bootBank s)).state == .valid) = true) ∧ (inTrial s = false) ∧ (s.mp.armed = none) ∧ (s.sf.number + 2 ≤ x) :=
  ⟨running { domainsOn with sf := { running := true, number := 4 }, mp := { stage := some {} } } 0 0x0705 [9, 0], 0, 9, 0, by decide⟩
theorem witness_FirmwareUpdate_5 :
    ∃ (s : State) (m k : Nat), (Serves s m 0x0706 0) ∧ ((boxOf s m).paramWords = 0) ∧ (k = 1 - bootBank s) ∧ ((bankOf s k).state = .trial) ∧ (flashBusy s = false) ∧ (worn s 261 = false) :=
  ⟨running { mp := { bankB := { state := .trial } } } 0 0x0706 [], 0, 1, by decide⟩
theorem witness_FirmwareUpdate_6 :
    ∃ (s : State) (m : Nat), (Serves s m 0x0707 0) ∧ ((boxOf s m).paramWords = 0) ∧ (inTrial s = true) :=
  ⟨running { mp := { bankB := { state := .trial } } } 0 0x0707 [], 0, by decide⟩
theorem witness_FirmwareUpdate_7 :
    ∃ (s : State) (m k : Nat), (Serves s m 0x0708 2) ∧ ((boxOf s m).paramWords = 1) ∧ (prmN (boxOf s m) 0 = k) ∧ (k ≤ 1) ∧ ((bankOf s k).state = .valid) ∧ (worn s 261 = false) :=
  ⟨running { mp := { bankB := { state := .valid } } } 25 0x0708 [1], 25, 1, by decide⟩
/-- States and operands that meet the hypotheses of each clause of `SystemCommands`. -/
theorem witness_SystemCommands_1 :
    ∃ (s : State) (m : Nat), (Serves s m 0x0104 0) ∧ ((boxOf s m).paramWords = 2) ∧ (prmN (boxOf s m) 0 = 1 ∧ prm (boxOf s m) 1 = 0x52455345) ∧ (updateInProgress s = false) :=
  ⟨running {} 0 0x0104 [1, 0x52455345], 0, by decide⟩
theorem witness_SystemCommands_2 :
    ∃ (s : State) (m : Nat), (Serves s m 0x0104 0) ∧ ((boxOf s m).paramWords = 2) ∧ (prmN (boxOf s m) 0 = 2 ∧ prm (boxOf s m) 1 = 0x52455345) ∧ (updateInProgress s = false) :=
  ⟨running {} 0 0x0104 [2, 0x52455345], 0, by decide⟩
theorem witness_SystemCommands_3 :
    ∃ (s : State) (m : Nat), (Serves s m 0x0104 0) ∧ ((boxOf s m).paramWords = 2) ∧ (prmN (boxOf s m) 0 = 3 ∧ prm (boxOf s m) 1 = 0x52455345) ∧ (updateInProgress s = false) :=
  ⟨running {} 0 0x0104 [3, 0x52455345], 0, by decide⟩
theorem witness_SystemCommands_4 :
    ∃ (s : State) (m d : Nat), (Serves s m 0x0901 0) ∧ ((boxOf s m).paramWords = 2) ∧ (prmN (boxOf s m) 0 = d ∧ d ≤ 29 ∧ prmN (boxOf s m) 1 = 1) ∧ (s.pwr.seqRunning = false) ∧ ((domOf s d).cycling = false) ∧ ((domOf s d).state = .enabled ∨ (domOf s d).state = .poweringUp ∧ (domOf s d).pendDown = false) :=
  ⟨running (setDom 5 { state := .poweringUp } domainsOn) 0 0x0901 [5, 1], 0, 5, by decide⟩
theorem witness_SystemCommands_5 :
    ∃ (s : State) (m d : Nat), (Serves s m 0x0901 0) ∧ ((boxOf s m).paramWords = 2) ∧ (prmN (boxOf s m) 0 = d ∧ d ≤ 29 ∧ prmN (boxOf s m) 1 = 2) ∧ (s.pwr.seqRunning = false) ∧ ((domOf s d).cycling = false) ∧ (((domOf s d).state = .draining ∨ (domOf s d).state = .poweringDown) ∧ (domOf s d).pendUp = false) :=
  ⟨running (setDom 5 { state := .draining } domainsOn) 0 0x0901 [5, 2], 0, 5, by decide⟩
theorem witness_SystemCommands_6 :
    ∃ (s : State) (m d : Nat), (Serves s m 0x0901 0) ∧ ((boxOf s m).paramWords = 2) ∧ (prmN (boxOf s m) 0 = d ∧ d ≤ 29 ∧ prmN (boxOf s m) 1 = 1) ∧ (s.pwr.seqRunning = false) ∧ ((domOf s d).cycling = false) ∧ (((domOf s d).state = .off ∨ (domOf s d).state = .fault) ∧ (domOf s d).pendUp = false ∧ s.pwr.switching = none ∧ s.pwr.waiting = []) :=
  ⟨running (setDom 5 { state := .off } domainsOn) 0 0x0901 [5, 1], 0, 5, by decide⟩
theorem witness_SystemCommands_7 :
    ∃ (s : State) (m d : Nat), (Serves s m 0x0901 0) ∧ ((boxOf s m).paramWords = 2) ∧ (prmN (boxOf s m) 0 = d ∧ d ≤ 29 ∧ prmN (boxOf s m) 1 = 1) ∧ (s.pwr.seqRunning = false) ∧ ((domOf s d).cycling = false) ∧ (((domOf s d).state = .off ∨ (domOf s d).state = .fault) ∧ (domOf s d).pendUp = false ∧ (s.pwr.switching ≠ none ∨ s.pwr.waiting ≠ [])) :=
  ⟨running (setDom 5 { state := .fault } { domainsOn with pwr := { domainsOn.pwr with waiting := [(6, false)] } }) 0 0x0901 [5, 1], 0, 5, by decide⟩
theorem witness_SystemCommands_8 :
    ∃ (s : State) (m d : Nat), (Serves s m 0x0901 0) ∧ ((boxOf s m).paramWords = 2) ∧ (prmN (boxOf s m) 0 = d ∧ d ≤ 29 ∧ prmN (boxOf s m) 1 = 1) ∧ (s.pwr.seqRunning = false) ∧ ((domOf s d).cycling = false) ∧ ((domOf s d).state = .draining ∨ (domOf s d).state = .poweringDown) :=
  ⟨running (setDom 5 { state := .poweringDown } domainsOn) 0 0x0901 [5, 1], 0, 5, by decide⟩
theorem witness_SystemCommands_9 :
    ∃ (s : State) (m d : Nat), (Serves s m 0x0901 0) ∧ ((boxOf s m).paramWords = 2) ∧ (prmN (boxOf s m) 0 = d ∧ d ≤ 29 ∧ prmN (boxOf s m) 1 = 2) ∧ (s.pwr.seqRunning = false) ∧ ((domOf s d).cycling = false) ∧ ((domOf s d).state = .enabled ∧ downRefused s d = 0) :=
  ⟨running (setDom 5 { state := .enabled } domainsOn) 0 0x0901 [5, 2], 0, 5, by decide⟩
theorem witness_SystemCommands_10 :
    ∃ (s : State) (m d : Nat), (Serves s m 0x0901 0) ∧ ((boxOf s m).paramWords = 2) ∧ (prmN (boxOf s m) 0 = d ∧ d ≤ 29 ∧ prmN (boxOf s m) 1 = 2) ∧ (s.pwr.seqRunning = false) ∧ ((domOf s d).cycling = false) ∧ ((domOf s d).state = .poweringUp ∧ downRefused s d = 0) :=
  ⟨running (setDom 5 { state := .poweringUp } domainsOn) 0 0x0901 [5, 2], 0, 5, by decide⟩
/-- States and operands that meet the hypotheses of each clause of `BackgroundWork`. -/
theorem witness_BackgroundWork_1 :
    ∃ (s : State) (m c : Nat), (Serves s m 0x0905 0) ∧ ((boxOf s m).paramWords = 1) ∧ (prmN (boxOf s m) 0 = c) ∧ (c ≤ 271 ∧ clusterExists s c = true) ∧ (domOn s (12 + c / 17) = true) ∧ ((usedClusters s).contains c = false) ∧ (s.age.testing = none) :=
  ⟨running domainsOn 0 0x0905 [40], 0, 40, by decide⟩
theorem witness_BackgroundWork_2 :
    ∃ (s : State) (m n : Nat) (b : Mailbox), (Serves s m 0x0840 0) ∧ (boxOf s m = b) ∧ (prmN b 0 = n ∧ 1 ≤ n ∧ n ≤ 16) ∧ (b.paramWords = n + 4) ∧ (((prms b 1 n).all fun w => decide (w.toNat < 4096 ∧ fieldOf w 11 10 ≠ 0)) = true) ∧ (((prms b 1 n).all fun w => circuitAvailable s (fieldOf w 9 0)) = true) ∧ (prmN b (n + 1) ∈ [0x0043, 0x0044, 0x0045, 0x0002, 0x0020, 0x0040]) ∧ (prmN b (n + 2) ≤ 767 ∧ circuitAvailable s (prmN b (n + 2)) = true ∧ prmN b (n + 3) ≤ 4294967295) :=
  ⟨running {} 0 0x0840 [1, 0x405, 0x43, 5, 100], 0, 1, boxOf (running {} 0 0x0840 [1, 0x405, 0x43, 5, 100]) 0, by decide⟩
theorem witness_BackgroundWork_3 :
    ∃ (s : State) (m n : Nat) (b : Mailbox), (Serves s m 0x0840 0) ∧ (boxOf s m = b) ∧ (prmN b 0 = n ∧ 1 ≤ n ∧ n ≤ 16) ∧ (b.paramWords = n + 4) ∧ (((prms b 1 n).all fun w => decide (w.toNat < 4096 ∧ fieldOf w 11 10 ≠ 0)) = true) ∧ (((prms b 1 n).all fun w => circuitAvailable s (fieldOf w 9 0)) = true) ∧ (prmN b (n + 1) = 0) ∧ (prmN b (n + 2) ≤ 767 ∧ circuitAvailable s (prmN b (n + 2)) = true ∧ prmN b (n + 3) ≤ 4294967295) :=
  ⟨running {} 0 0x0840 [1, 0x405, 0, 5, 100], 0, 1, boxOf (running {} 0 0x0840 [1, 0x405, 0, 5, 100]) 0, by decide⟩
theorem witness_BackgroundWork_4 :
    ∃ (s : State) (k : Nat), (s.mem.cap.armed = true) ∧ (s.mem.cap.freezeAt = some k ∧ k ≤ s.clk.now) :=
  ⟨{ clk := { now := 5 }, mem := { cap := { armed := true, freezeAt := some 5 } } }, 5, by decide⟩
theorem witness_BackgroundWork_5 :
    ∃ (s : State) (k : Nat) (g near n : Nat), (s.mb.background[k]? = some (.xtSurvey g near n)) ∧ (n + 48 ≤ s.sf.number) :=
  ⟨{ sf := { number := 48 }, mb := { background := [.xtSurvey 3 64 0] } }, 0, 3, 64, 0, by decide⟩
theorem witness_BackgroundWork_6 :
    ∃ (s : State) (k : Nat) (img : List Word), (s.mb.background[k]? = some (.planSave img)) :=
  ⟨{ mb := { background := [.planSave [1]] } }, 0, [1], by decide⟩
theorem witness_BackgroundWork_7 :
    ∃ (s : State) (k : Nat) (j : Nat), (s.mb.background[k]? = some (.writeBank j)) ∧ (j ≤ 1) :=
  ⟨{ mb := { background := [.writeBank 1] } }, 0, 1, by decide⟩
theorem witness_BackgroundWork_8 :
    ∃ (s : State) (k : Nat) (j : Nat), (s.mb.background[k]? = some (.commitBank j)) :=
  ⟨{ mb := { background := [.commitBank 1] } }, 0, 1, by decide⟩
theorem witness_BackgroundWork_9 :
    ∃ (s : State) (k : Nat) (l near : Nat), (s.mb.background[k]? = some (.marginScan l near)) :=
  ⟨{ mb := { background := [.marginScan 2 64] } }, 0, 2, 64, by decide⟩
theorem witness_BackgroundWork_10 :
    ∃ (s : State) (k : Nat) (res : OpResult) (c at_ : Nat) (p : Nat × Nat) (keep third : Bool), (s.mb.background[k]? = some (.clusterTest c)) ∧ (s.age.testing = some (c, at_) ∧ at_ + s.sf.len ≤ s.clk.now) ∧ (p = tabGet (0, 0) s.age.passes c) ∧ (keep = (!s.plan.retired.contains c || res.ok && decide (p.1 ≠ 0 ∧ s.clk.now < p.2 + 86400000000))) ∧ (third = decide (2 ≤ p.1)) :=
  ⟨{ clk := { now := 50000 }, plan := { retired := [40] }, age := { testing := some (40, 0) }, mb := { background := [.clusterTest 40] } }, 0, { ok := true }, 40, 0, (0, 0), false, false, by decide⟩
theorem witness_BackgroundWork_11 :
    ∃ (s : State) (k : Nat), (s.mb.background[k]? = none ∨ (∃ g near n, s.mb.background[k]? = some (.xtSurvey g near n) ∧ s.sf.number < n + 48) ∨ (∃ c at_, s.mb.background[k]? = some (.clusterTest c) ∧ s.age.testing = some (c, at_) ∧ s.clk.now < at_ + s.sf.len)) :=
  ⟨{}, 0, .inl (by decide)⟩
/-- States and operands that meet the hypotheses of each clause of `SecurityAndLedgerReports`. -/
theorem witness_SecurityAndLedgerReports_1 :
    ∃ (s : State) (m : Nat), (Serves s m 0x0605 0) ∧ ((boxOf s m).paramWords = 6) ∧ (identFault s = false) ∧ (domOn s 28 = true) :=
  ⟨running soundIdentity 0 0x0605 [1, 2, 3, 4, 5, 6], 0, by decide, by decide, soundIdentity_good _ rfl, by decide⟩
theorem witness_SecurityAndLedgerReports_2 :
    ∃ (s : State) (m : Nat), (Serves s m 0x0606 0) ∧ ((boxOf s m).paramWords = 0) ∧ (domOn s 28 = true) :=
  ⟨running domainsOn 0 0x0606 [], 0, by decide⟩
theorem witness_SecurityAndLedgerReports_3 :
    ∃ (s : State) (m : Nat), (Serves s m 0x0904 0) ∧ ((boxOf s m).paramWords = 0) ∧ (domOn s 28 = true) :=
  ⟨running domainsOn 0 0x0904 [], 0, by decide⟩
theorem witness_SecurityAndLedgerReports_4 :
    ∃ (s : State) (m : Nat), (Serves s m 0x0903 0) ∧ ((boxOf s m).paramWords = 0) ∧ (s.avs.regs.length ≤ 57) :=
  ⟨running {} 0 0x0903 [], 0, by decide⟩
theorem witness_SecurityAndLedgerReports_5 :
    ∃ (s : State) (m : Nat) (b : Mailbox), (Serves s m 0x0602 0) ∧ (boxOf s m = b) ∧ (b.paramWords = 8) ∧ (prmN b 2 = 2) :=
  ⟨running {} 0 0x0602 [1, 2, 2, 0, 0, 0, 0, 0], 0, boxOf (running {} 0 0x0602 [1, 2, 2, 0, 0, 0, 0, 0]) 0, by decide⟩
theorem witness_SecurityAndLedgerReports_6 :
    ∃ (s u : State) (m : Nat) (b : Mailbox) (k key : List Word) (bs : List Byte), (Serves s m 0x0602 0) ∧ (boxOf s m = b) ∧ (b.paramWords = 8) ∧ (prmN b 2 = 1) ∧ ((slotOf s 0).key = some k ∧ (slotOf s 1).key = some key) ∧ (aeadOpen false k (0xFFFFFFF0 * 18446744073709551616 + prmN b 3) (bytesBE (prm b 0) ++ bytesBE (prm b 1)) (bytesBE (prm b 4) ++ bytesBE (prm b 5)) (bytesBE (prm b 6) ++ bytesBE (prm b 7)) = some bs) ∧ (useCounter 1 s = some u) :=
  ⟨joining, (useCounter 1 joining).getD {}, 0, boxOf joining 0, [7, 8], [5, 6], (List.range 16).map fun i => BitVec.ofNat 8 i, by decide +kernel⟩
theorem witness_SecurityAndLedgerReports_7 :
    ∃ (s : State) (m : Nat) (b : Mailbox), (Serves s m 0x0602 0) ∧ (boxOf s m = b) ∧ (b.paramWords = 8) ∧ (prmN b 2 = 1) ∧ ((slotOf s 0).key = none) :=
  ⟨running {} 0 0x0602 [1, 2, 1, 0, 0, 0, 0, 0], 0, boxOf (running {} 0 0x0602 [1, 2, 1, 0, 0, 0, 0, 0]) 0, by decide⟩
theorem witness_SecurityAndLedgerReports_8 :
    ∃ (s : State) (m k : Nat), (Serves s m 0x0604 0) ∧ ((boxOf s m).paramWords = 1) ∧ (prmN (boxOf s m) 0 = k) ∧ (k < 32) ∧ (s.aead.run = none) :=
  ⟨running {} 0 0x0604 [5], 0, 5, by decide⟩
theorem witness_SecurityAndLedgerReports_9 :
    ∃ (s : State) (m k : Nat), (Serves s m 0x0604 0) ∧ ((boxOf s m).paramWords = 1) ∧ (prmN (boxOf s m) 0 = k) ∧ (k < 32) :=
  ⟨running { aead := { run := some { requester := 4 } } } 0 0x0604 [0], 0, 0, by decide⟩
theorem witness_SecurityAndLedgerReports_10 :
    ∃ (s : State) (m : Nat), (Serves s m 0x0604 0) ∧ ((boxOf s m).paramWords = 1) ∧ (prmN (boxOf s m) 0 = 0xFF) ∧ ((∀ w ∈ [3584, 3585, 3586, 3587], worn s w = false)) :=
  ⟨running {} 0 0x0604 [255], 0, by decide, by decide, by decide, by decide⟩
/-- States and operands that meet the hypotheses of each clause of `PortReadouts`. -/
theorem witness_PortReadouts_1 :
    ∃ (s : State) (m : Nat) (w : Word), (Serves s m 0x0110 0) ∧ ((boxOf s m).paramWords = 1) ∧ (prm (boxOf s m) 0 = w) ∧ (ChecksPass (psetChecks s (boxOf s m))) :=
  ⟨running {} 0 0x0110 [5], 0, 5, by decide⟩
theorem witness_PortReadouts_2 :
    ∃ (s : State) (m : Nat) (w : Word), (Serves s m 0x0115 0) ∧ ((boxOf s m).paramWords = 1) ∧ (prm (boxOf s m) 0 = w) ∧ (ChecksPass (psetChecks s (boxOf s m))) ∧ (domOn s 28 = true) :=
  ⟨running domainsOn 0 0x0115 [5], 0, 5, by decide⟩
theorem witness_PortReadouts_3 :
    ∃ (s : State) (m : Nat) (w : Word), (Serves s m 0x0822 0) ∧ ((boxOf s m).paramWords = 1) ∧ (prm (boxOf s m) 0 = w) ∧ (ChecksPass (psetChecks s (boxOf s m))) ∧ (domOn s 28 = true) :=
  ⟨running domainsOn 0 0x0822 [5], 0, 5, by decide⟩
theorem witness_PortReadouts_4 :
    ∃ (s : State) (m l dwell : Nat), (Serves s m 0x0821 0) ∧ ((boxOf s m).paramWords = 2) ∧ (prmN (boxOf s m) 0 = l ∧ l ≤ 71) ∧ (prmN (boxOf s m) 1 = dwell ∧ 6 ≤ dwell ∧ dwell ≤ 10) ∧ (portExists s (l / 2) = true ∧ domOn s (portDomain (l / 2)) = true ∧ domOn s 28 = true) ∧ ((∀ q n, Background.marginScan q n ∈ s.mb.background → portDomain (q / 2) ≠ portDomain (l / 2))) :=
  ⟨running domainsOn 0 0x0821 [3, 8], 0, 3, 8, by decide, by decide, by decide, by decide, by decide, fun _ _ h => absurd h List.not_mem_nil⟩
/-- States and operands that meet the hypotheses of each clause of `PortControls`. -/
theorem witness_PortControls_1 :
    ∃ (s : State) (m : Nat) (w : Word), (Serves s m 0x0111 0) ∧ ((boxOf s m).paramWords = 1) ∧ (prm (boxOf s m) 0 = w) ∧ (ChecksPass (psetChecks s (boxOf s m)) ∧ portsOn s w = true) :=
  ⟨running portsActive 0 0x0111 [2], 0, 2, by decide⟩
theorem witness_PortControls_2 :
    ∃ (s : State) (m code : Nat) (w : Word), (Serves s m 0x0112 0) ∧ ((boxOf s m).paramWords = 2) ∧ (prm (boxOf s m) 0 = w ∧ prmN (boxOf s m) 1 = code ∧ code ≤ 2) ∧ (ChecksPass (psetChecks s (boxOf s m)) ∧ portsOn s w = true) ∧ ((code = 0 ∨ ∀ p ∈ portsOf w, (portOf s p).state = .active → portBusy s p = false ∧ carriesMirror s p = false)) :=
  ⟨running portsActive 0 0x0112 [2, 1], 0, 1, 2, by decide⟩
theorem witness_PortControls_3 :
    ∃ (s : State) (m : Nat) (w : Word), (Serves s m 0x0116 0) ∧ ((boxOf s m).paramWords = 1) ∧ (prm (boxOf s m) 0 = w) ∧ (ChecksPass (psetChecks s (boxOf s m)) ∧ portsOn s w = true) :=
  ⟨running portsActive 0 0x0116 [2], 0, 2, by decide⟩
theorem witness_PortControls_4 :
    ∃ (s : State) (m pat act : Nat) (w : Word), (Serves s m 0x0820 0) ∧ ((boxOf s m).paramWords = 3) ∧ (prm (boxOf s m) 0 = w ∧ prmN (boxOf s m) 1 = pat ∧ prmN (boxOf s m) 2 = act) ∧ (1 ≤ pat ∧ pat ≤ 3 ∧ 1 ≤ act ∧ act ≤ 2) ∧ (ChecksPass (psetChecks s (boxOf s m)) ∧ portsOn s w = true) ∧ ((act = 2 ∨ ∀ p ∈ portsOf w, portBusy s p = false ∧ (portOf s p).state ≠ .bringup)) :=
  ⟨running portsActive 0 0x0820 [2, 1, 1], 0, 1, 1, 2, by decide⟩
theorem witness_PortControls_5 :
    ∃ (s : State) (m : Nat) (b : Mailbox) (x : Lane), (Serves s m 0x0113 0) ∧ (boxOf s m = b) ∧ (b.paramWords = 4) ∧ (prmN b 0 ≤ 35 ∧ prmN b 1 ≤ 1 ∧ 1 ≤ prmN b 2 ∧ prmN b 2 ≤ 3 ∧ (prmN b 3 < 12 ∨ prmN b 3 = 15)) ∧ (portExists s (prmN b 0) = true) ∧ (worn s (268 + (2 * prmN b 0 + prmN b 1)) = false) ∧ (x = laneOf s (2 * prmN b 0 + prmN b 1)) :=
  ⟨running {} 0 0x0113 [4, 1, 2, 7], 0, boxOf (running {} 0 0x0113 [4, 1, 2, 7]) 0, laneOf (running {} 0 0x0113 [4, 1, 2, 7]) 9, by decide⟩
theorem witness_PortControls_6 :
    ∃ (s : State) (m v : Nat), (Serves s m 0x0114 0) ∧ ((boxOf s m).paramWords = 1) ∧ (prmN (boxOf s m) 0 = v ∧ v ≤ 3) ∧ ((∀ p ∈ frontPorts, (portOf s p).state = .off ∨ (portOf s p).state = .dormant)) ∧ (worn s (settingWordOf 0x0114) = false) :=
  ⟨unworn (running {} 0 0x0114 [2]), 0, 2, by decide, by decide, by decide, by decide, unworn_worn _ rfl _⟩
theorem witness_PortControls_7 :
    ∃ (s : State) (m : Nat) (b : Mailbox), (Serves s m 0x0117 0) ∧ (boxOf s m = b) ∧ (2 ≤ b.paramWords) ∧ (ChecksPass (psetChecks s b ++ settingsOk b 1 [(300, 499), (300, 499), (-1, 1048575), (1, 3)])) ∧ ((((settingOf b 1 4 0).isNone ∧ (settingOf b 1 4 1).isNone) ∨ ((∀ p ∈ frontPorts, portBusy s p = false) ∧ worn s (settingWordOf 0x0117) = false))) ∧ ((∀ p ∈ portsOf (prm b 0), worn s (portSettingWord p) = false)) :=
  ⟨unworn (running {} 0 0x0117 [2, 9, 400, 2]), 0, boxOf (unworn (running {} 0 0x0117 [2, 9, 400, 2])) 0, by decide, rfl, by decide, by decide, .inr ⟨by decide, unworn_worn _ rfl _⟩, fun _ _ => unworn_worn _ rfl _⟩
/-- States and operands that meet the hypotheses of each clause of `PlanCommands`. -/
theorem witness_PlanCommands_1 :
    ∃ (s : State) (m : Nat) (img : List Word), (Serves s m 0x0301 0) ∧ ((boxOf s m).paramWords = 0) ∧ (domOn s 28 = true) ∧ (s.plan.stage ≠ .armed) ∧ (img = imageOf (memWords s.mem.planStage 0 (14 + fieldOf (memWord s.mem.planStage 8) 31 16 % 16385))) :=
  ⟨running domainsOn 0 0x0301 [], 0, imageOf (memWords [] 0 14), by decide +kernel⟩
theorem witness_PlanCommands_2 :
    ∃ (s : State) (m pid x : Nat), (Serves s m 0x0302 0) ∧ ((boxOf s m).paramWords = 2) ∧ (prmN (boxOf s m) 0 = pid ∧ pid < 2 ^ 32) ∧ (prmN (boxOf s m) 1 = x ∧ x < 2 ^ 40) ∧ (counting s = true) ∧ (s.plan.stage = .loaded ∧ planId s.plan.staged = pid) ∧ (s.sf.number < x ∧ ¬ (x = s.sf.number + 1 ∧ s.sf.closed = true)) :=
  ⟨running { domainsOn with plan := { stage := .loaded }, sf := { running := true, number := 4 } } 0 0x0302 [0, 6], 0, 0, 6, by decide⟩
theorem witness_PlanCommands_3 :
    ∃ (s : State) (m : Nat), (Serves s m 0x0303 0) ∧ ((boxOf s m).paramWords = 0) ∧ (counting s = true) ∧ (s.plan.stage = .armed) ∧ (¬ (s.sf.closed = true ∧ s.plan.armedSf = s.sf.number + 1)) :=
  ⟨running { domainsOn with plan := { stage := .armed, armedSf := 9 }, sf := { running := true, number := 4 } } 0 0x0303 [], 0, by decide⟩
theorem witness_PlanCommands_4 :
    ∃ (s : State) (m : Nat), (Serves s m 0x0304 0) ∧ ((boxOf s m).paramWords = 0) :=
  ⟨running {} 0 0x0304 [], 0, by decide⟩
theorem witness_PlanCommands_5 :
    ∃ (s : State) (m n : Nat) (b : Mailbox), (Serves s m 0x0305 0) ∧ (boxOf s m = b) ∧ (prmN b 0 = n ∧ 1 ≤ n ∧ n ≤ 112) ∧ (b.paramWords = n + 1) ∧ (((prms b 1 n).all changeEncoded) = true) ∧ (domOn s 28 = true) ∧ (s.plan.stage ≠ .armed) :=
  ⟨running domainsOn 0 0x0305 [1, 0x2000000000000000], 0, 1, boxOf (running domainsOn 0 0x0305 [1, 0x2000000000000000]) 0, by decide⟩
theorem witness_PlanCommands_6 :
    ∃ (s : State) (m c mode x : Nat), (Serves s m 0x0201 0) ∧ ((boxOf s m).paramWords = 3) ∧ (prmN (boxOf s m) 0 = c ∧ c ≤ 767) ∧ (prmN (boxOf s m) 1 = mode ∧ mode ≤ 3) ∧ (prmN (boxOf s m) 2 = x ∧ x < 2 ^ 40) ∧ (circuitAvailable s c = true) ∧ (counting s = true) ∧ (s.plan.stage ≠ .armed) :=
  ⟨running { portsActive with sf := { running := true, number := 4 } } 0 0x0201 [24, 1, 9], 0, 24, 1, 9, by decide⟩
theorem witness_PlanCommands_7 :
    ∃ (s : State) (m : Nat), (Serves s m 0x0306 0) ∧ ((boxOf s m).paramWords = 0) ∧ (domOn s 28 = true) ∧ (s.plan.active ≠ []) :=
  ⟨running { domainsOn with plan := { active := [1, 2] } } 0 0x0306 [], 0, by decide⟩
theorem witness_PlanCommands_8 :
    ∃ (s : State) (m off : Nat) (b : Mailbox), (Serves s m 0x0307 0) ∧ (boxOf s m = b) ∧ (1 ≤ b.paramWords ∧ b.paramWords ≤ 119) ∧ (prmN b 0 = off) ∧ (off % 8 = 0 ∧ off + 8 * (b.paramWords - 1) ≤ 262144) ∧ (domOn s 28 = true) ∧ (admitting s = false) :=
  ⟨running domainsOn 0 0x0307 [16, 5], 0, 16, boxOf (running domainsOn 0 0x0307 [16, 5]) 0, by decide⟩
theorem witness_PlanCommands_9 :
    ∃ (s : State) (m : Nat), (Serves s m 0x0308 0) ∧ ((boxOf s m).paramWords = 0) ∧ (s.plan.active ≠ []) ∧ (flashBusy s = false) :=
  ⟨running { domainsOn with plan := { active := [1, 2] } } 0 0x0308 [], 0, by decide⟩
/-- States and operands that meet the hypotheses of each clause of `CircuitReadouts`. -/
theorem witness_CircuitReadouts_1 :
    ∃ (s : State) (m : Nat) (cs : List Nat), (Serves s m 0x0231 0) ∧ ((boxOf s m).paramWords = 12) ∧ (cs = circuitsOf (boxOf s m) 0) ∧ ((∀ c ∈ cs, circuitAvailable s c = true)) ∧ (domOn s 28 = true) :=
  ⟨running portsActive 0 0x0231 (0x1000000 :: List.replicate 11 0), 0, [24], by decide +kernel⟩
theorem witness_CircuitReadouts_2 :
    ∃ (s : State) (m : Nat) (cs : List Nat), (Serves s m 0x0232 0) ∧ ((boxOf s m).paramWords = 12) ∧ (cs = circuitsOf (boxOf s m) 0) ∧ ((∀ c ∈ cs, circuitAvailable s c = true)) ∧ (domOn s 28 = true) :=
  ⟨running portsActive 0 0x0232 (0x1000000 :: List.replicate 11 0), 0, [24], by decide +kernel⟩
theorem witness_CircuitReadouts_3 :
    ∃ (s : State) (m : Nat) (cs : List Nat), (Serves s m 0x0234 0) ∧ ((boxOf s m).paramWords = 12) ∧ (cs = circuitsOf (boxOf s m) 0) ∧ ((∀ c ∈ cs, circuitAvailable s c = true)) ∧ (domOn s 28 = true) :=
  ⟨running portsActive 0 0x0234 (0x1000000 :: List.replicate 11 0), 0, [24], by decide +kernel⟩
theorem witness_CircuitReadouts_4 :
    ∃ (s : State) (m : Nat) (cs : List Nat), (Serves s m 0x0238 0) ∧ ((boxOf s m).paramWords = 12) ∧ (cs = circuitsOf (boxOf s m) 0) ∧ ((∀ c ∈ cs, circuitAvailable s c = true)) ∧ ((∀ c ∈ cs, isFeed s c = true)) ∧ (domOn s 28 = true) :=
  ⟨running feedPlan 0 0x0238 (0x1000000 :: List.replicate 11 0), 0, [24], by decide +kernel⟩
theorem witness_CircuitReadouts_5 :
    ∃ (s : State) (m : Nat) (cs : List Nat), (Serves s m 0x023C 0) ∧ ((boxOf s m).paramWords = 12) ∧ (cs = circuitsOf (boxOf s m) 0) ∧ ((∀ c ∈ cs, circuitAvailable s c = true)) ∧ (domOn s 28 = true) :=
  ⟨running portsActive 0 0x023C (0x1000000 :: List.replicate 11 0), 0, [24], by decide +kernel⟩
theorem witness_CircuitReadouts_6 :
    ∃ (s : State) (m : Nat) (cs : List Nat), (Serves s m 0x0243 0) ∧ ((boxOf s m).paramWords = 12) ∧ (cs = circuitsOf (boxOf s m) 0) ∧ ((∀ c ∈ cs, circuitAvailable s c = true)) ∧ (domOn s 28 = true) :=
  ⟨running portsActive 0 0x0243 (0x1000000 :: List.replicate 11 0), 0, [24], by decide +kernel⟩
theorem witness_CircuitReadouts_7 :
    ∃ (s : State) (m : Nat) (cs : List Nat), (Serves s m 0x0245 0) ∧ ((boxOf s m).paramWords = 12) ∧ (cs = circuitsOf (boxOf s m) 0) ∧ ((∀ c ∈ cs, circuitAvailable s c = true)) ∧ (domOn s 28 = true) :=
  ⟨running portsActive 0 0x0245 (0x1000000 :: List.replicate 11 0), 0, [24], by decide +kernel⟩
theorem witness_CircuitReadouts_8 :
    ∃ (s : State) (m : Nat) (cs : List Nat), (Serves s m 0x0406 0) ∧ ((boxOf s m).paramWords = 12) ∧ (cs = circuitsOf (boxOf s m) 0) ∧ ((∀ c ∈ cs, circuitAvailable s c = true)) ∧ (domOn s 28 = true) :=
  ⟨running portsActive 0 0x0406 (0x1000000 :: List.replicate 11 0), 0, [24], by decide +kernel⟩
theorem witness_CircuitReadouts_9 :
    ∃ (s : State) (m c clear : Nat), (Serves s m 0x023A 0) ∧ ((boxOf s m).paramWords = 2) ∧ (prmN (boxOf s m) 0 = c ∧ c ≤ 767) ∧ (prmN (boxOf s m) 1 = clear ∧ clear ≤ 1) ∧ (circuitAvailable s c = true) :=
  ⟨running portsActive 0 0x023A [24, 1], 0, 24, 1, by decide⟩
theorem witness_CircuitReadouts_10 :
    ∃ (s : State) (m : Nat), (Serves s m 0x0241 0) ∧ ((boxOf s m).paramWords = 0) ∧ (s.port.relays.length ≤ 16) :=
  ⟨running {} 0 0x0241 [], 0, by decide⟩
/-- States and operands that meet the hypotheses of each clause of `CircuitSettings`. -/
theorem witness_CircuitSettings_1 :
    ∃ (s : State) (m : Nat) (b : Mailbox) (cs : List Nat), (Serves s m 0x0235 0) ∧ (boxOf s m = b) ∧ (13 ≤ b.paramWords) ∧ (cs = circuitsOf b 0) ∧ ((∀ c ∈ cs, circuitAvailable s c = true)) ∧ (ChecksPass (settingsOk b 12 [(20, 80), (1, 25), (0, 20)])) :=
  ⟨running portsActive 0 0x0235 (0x1000000 :: List.replicate 11 0 ++ [1, 40]), 0, boxOf (running portsActive 0 0x0235 (0x1000000 :: List.replicate 11 0 ++ [1, 40])) 0, [24], by decide +kernel⟩
theorem witness_CircuitSettings_2 :
    ∃ (s : State) (m : Nat) (b : Mailbox) (cs : List Nat), (Serves s m 0x0237 0) ∧ (boxOf s m = b) ∧ (13 ≤ b.paramWords) ∧ (cs = circuitsOf b 0) ∧ ((∀ c ∈ cs, circuitAvailable s c = true)) ∧ ((∀ c ∈ cs, isFeed s c = true)) ∧ (ChecksPass (settingsOk b 12 [(0, 2), (0, 20), (0, 2), (0, 1)])) :=
  ⟨running feedPlan 0 0x0237 (0x1000000 :: List.replicate 11 0 ++ [5, 2, 1]), 0, boxOf (running feedPlan 0 0x0237 (0x1000000 :: List.replicate 11 0 ++ [5, 2, 1])) 0, [24], by decide +kernel⟩
theorem witness_CircuitSettings_3 :
    ∃ (s : State) (m : Nat) (b : Mailbox) (cs : List Nat), (Serves s m 0x023B 0) ∧ (boxOf s m = b) ∧ (13 ≤ b.paramWords) ∧ (cs = circuitsOf b 0) ∧ ((∀ c ∈ cs, circuitAvailable s c = true)) ∧ (ChecksPass (settingsOk b 12 [(1, 255), (2, 16), (0, 4), (4, 12), (0, 1)])) :=
  ⟨running portsActive 0 0x023B (0x1000000 :: List.replicate 11 0 ++ [3, 7, 4]), 0, boxOf (running portsActive 0 0x023B (0x1000000 :: List.replicate 11 0 ++ [3, 7, 4])) 0, [24], by decide +kernel⟩
theorem witness_CircuitSettings_4 :
    ∃ (s : State) (m : Nat) (b : Mailbox) (cs : List Nat), (Serves s m 0x0244 0) ∧ (boxOf s m = b) ∧ (13 ≤ b.paramWords) ∧ (cs = circuitsOf b 0) ∧ ((∀ c ∈ cs, circuitAvailable s c = true)) ∧ (ChecksPass (settingsOk b 12 [(0, 20), (1, 4)])) :=
  ⟨running portsActive 0 0x0244 (0x1000000 :: List.replicate 11 0 ++ [2, 3]), 0, boxOf (running portsActive 0 0x0244 (0x1000000 :: List.replicate 11 0 ++ [2, 3])) 0, [24], by decide +kernel⟩
theorem witness_CircuitSettings_5 :
    ∃ (s : State) (m : Nat) (b : Mailbox) (cs : List Nat), (Serves s m 0x0230 0) ∧ (boxOf s m = b) ∧ (13 ≤ b.paramWords) ∧ (cs = circuitsOf b 0) ∧ ((∀ c ∈ cs, circuitAvailable s c = true)) ∧ (ChecksPass (settingsOk b 12 [(-48, -24), (1, 6), (8, 32), (0, 8), (0, 3), (6, 30), (30, 80), (20, 80), (3, 12), (0, 20), (360, 560)])) ∧ (((settingOf b 12 11 9).isSome = true → worn s (settingWordOf 0x0230) = false)) ∧ (((settingOf b 12 11 10).isSome = true → ∀ p ∈ portsHolding cs, worn s (portSettingWord p) = false)) :=
  ⟨unworn (running portsActive 0 0x0230 (0x1000000 :: List.replicate 11 0 ++ [0x602, 3, 5, 400])), 0, boxOf (unworn (running portsActive 0 0x0230 (0x1000000 :: List.replicate 11 0 ++ [0x602, 3, 5, 400]))) 0, [24], by decide +kernel, rfl, by decide +kernel, by decide +kernel, by decide +kernel, by decide +kernel, fun _ => unworn_worn _ rfl _, fun _ _ _ => unworn_worn _ rfl _⟩
theorem witness_CircuitSettings_6 :
    ∃ (s : State) (m mode step : Nat) (cs : List Nat), (Serves s m 0x0233 0) ∧ ((boxOf s m).paramWords = 14) ∧ (cs = circuitsOf (boxOf s m) 0) ∧ (prmN (boxOf s m) 12 = mode ∧ mode ≤ 1) ∧ (prmN (boxOf s m) 13 = step ∧ step ≤ 47) ∧ ((∀ c ∈ cs, circuitAvailable s c = true)) :=
  ⟨running portsActive 0 0x0233 (0x1000000 :: List.replicate 11 0 ++ [1, 20]), 0, 1, 20, [24], by decide +kernel⟩
theorem witness_CircuitSettings_7 :
    ∃ (s : State) (m full : Nat) (cs : List Nat), (Serves s m 0x0239 0) ∧ ((boxOf s m).paramWords = 13) ∧ (cs = circuitsOf (boxOf s m) 0) ∧ (prmN (boxOf s m) 12 = full ∧ full ≤ 1) ∧ ((∀ c ∈ cs, circuitAvailable s c = true ∧ isFeed s c = true)) :=
  ⟨running feedPlan 0 0x0239 (0x1000000 :: List.replicate 11 0 ++ [1]), 0, 1, [24], by decide +kernel⟩
/-- States and operands that meet the hypotheses of each clause of `CircuitShapingAndRelays`. -/
theorem witness_CircuitShapingAndRelays_1 :
    ∃ (s : State) (m : Nat) (b : Mailbox) (cs others : List Nat) (fs : Nat → Nat), (Serves s m 0x023D 0) ∧ (boxOf s m = b) ∧ (13 ≤ b.paramWords) ∧ (cs = circuitsOf b 0) ∧ ((∀ c ∈ cs, circuitAvailable s c = true)) ∧ (ChecksPass (settingsOk b 12 [(-180, -110), (-180, -110), (-180, -110), (0, 160)])) ∧ ((∀ k ∈ [0, 1, 2], (settingOf b 12 4 k).isSome = true → ∀ c ∈ cs, (capsKept s c (wantedPsd (withPsd (settingOf b 12 4) (circOf s c))) (wantedFilters (circOf s c))).getD k true = true)) ∧ ((fs = fun c => pick (settingOf b 12 4 3) Int.toNat (portOf s (c / 24)).txFs)) ∧ ((∀ c ∈ cs, levelKept s c (fs c) (wantedPsd (withPsd (settingOf b 12 4) (circOf s c))) (wantedFilters (withPsd (settingOf b 12 4) (circOf s c))) = true)) ∧ (others = (if (settingOf b 12 4 3).isSome then (activeCircuits s).filter (fun c => (portsHolding cs).contains (c / 24) && !cs.contains c) else [])) ∧ ((∀ c ∈ others, levelKept s c (fs c) (wantedPsd (circOf s c)) (wantedFilters (circOf s c)) = true)) ∧ (((settingOf b 12 4 3).isSome = true → ∀ p ∈ portsHolding cs, worn s (portSettingWord p) = false)) :=
  ⟨unworn (running portsActive 0 0x023D (0x1000000 :: List.replicate 11 0 ++ [9, BitVec.ofInt 64 (-120), 150])), 0, boxOf (unworn (running portsActive 0 0x023D (0x1000000 :: List.replicate 11 0 ++ [9, BitVec.ofInt 64 (-120), 150]))) 0, [24], [], fun _ => 150, by decide +kernel, rfl, by decide +kernel, by decide +kernel, by decide +kernel, by decide +kernel, by decide +kernel, rfl, by decide +kernel, by decide +kernel, by decide +kernel, fun _ _ _ => unworn_worn _ rfl _⟩
theorem witness_CircuitShapingAndRelays_2 :
    ∃ (s : State) (m c k : Nat) (b : Mailbox) (f : Filter) (fs : List Filter), (Serves s m 0x023E 0) ∧ (boxOf s m = b) ∧ (b.paramWords = 8) ∧ (prmN b 0 = c ∧ c ≤ 767) ∧ (prmN b 1 = k ∧ k ≤ 2) ∧ (prmN b 2 ≤ 1 ∧ fieldOf (prm b 7) 47 0 = 0) ∧ (circuitAvailable s c = true) ∧ (f = (if prmN b 2 = 1 then none else some (filterTaps b))) ∧ (fs = (wantedFilters (circOf s c)).set k f) ∧ ((capsKept s c (wantedPsd (circOf s c)) fs).getD k true = true ∧ levelKept s c (portOf s (c / 24)).txFs (wantedPsd (circOf s c)) fs = true) :=
  ⟨running portsActive 0 0x023E [24, 0, 1, 0, 0, 0, 0, 0], 0, 24, 0, boxOf (running portsActive 0 0x023E [24, 0, 1, 0, 0, 0, 0, 0]) 0, none, [none, none, none], by decide +kernel⟩
theorem witness_CircuitShapingAndRelays_3 :
    ∃ (s : State) (m c act : Nat) (b : Mailbox) (n : Notch) (new : List Notch), (Serves s m 0x023F 0) ∧ (boxOf s m = b) ∧ (b.paramWords = 4) ∧ (prmN b 0 = c ∧ c ≤ 767) ∧ (prmN b 1 = act ∧ 1 ≤ act ∧ act ≤ 2) ∧ (n = { lo := prmN b 2, width := prmN b 3 }) ∧ (160 ≤ n.lo ∧ 5 ≤ n.width ∧ n.width ≤ 400 ∧ n.lo + n.width ≤ 10000) ∧ (circuitAvailable s c = true) ∧ (new = (if act = 2 then (wantedNotches (circOf s c)).filter (· != n) else if (wantedNotches (circOf s c)).contains n then wantedNotches (circOf s c) else wantedNotches (circOf s c) ++ [n])) ∧ (sectionsOf s.circ.profile new ≤ 24) :=
  ⟨running portsActive 0 0x023F [24, 1, 500, 40], 0, 24, 1, boxOf (running portsActive 0 0x023F [24, 1, 500, 40]) 0, { lo := 500, width := 40 }, [{ lo := 500, width := 40 }], by decide +kernel⟩
theorem witness_CircuitShapingAndRelays_4 :
    ∃ (s : State) (m a d act : Nat), (Serves s m 0x0240 0) ∧ ((boxOf s m).paramWords = 3) ∧ (prmN (boxOf s m) 0 = a ∧ a ≤ 767) ∧ (prmN (boxOf s m) 1 = d ∧ d ≤ 767) ∧ (prmN (boxOf s m) 2 = act) ∧ ((act = 1 ∧ circuitAvailable s a = true ∧ circuitAvailable s d = true ∧ isFeed s a = false ∧ isFeed s d = false ∧ s.port.relays.length < 16 ∧ relayTo s d = none) ∨ (act = 2 ∧ circuitAvailable s a = true ∧ circuitAvailable s d = true ∧ (a, d) ∈ s.port.relays)) :=
  ⟨running portsActive 0 0x0240 [24, 25, 1], 0, 24, 25, 1, by decide +kernel⟩
theorem witness_CircuitShapingAndRelays_5 :
    ∃ (s : State) (m g : Nat), (Serves s m 0x0236 0) ∧ ((boxOf s m).paramWords = 1) ∧ (prmN (boxOf s m) 0 = g ∧ g ≤ 15) ∧ ((isH s = true → g < 8)) ∧ (domOn s 28 = true) ∧ (((seatsOf s.plan.active).any fun w => placeActive w / 16 == g) = true) :=
  ⟨running seatPlan 0 0x0236 [1], 0, 1, by decide +kernel⟩
/-- States and operands that meet the hypotheses of each clause of `EndpointCommands`. -/
theorem witness_EndpointCommands_1 :
    ∃ (s : State) (m c i : Nat), (Serves s m 0x0401 0) ∧ ((boxOf s m).paramWords = 2) ∧ (prmN (boxOf s m) 0 = c ∧ c ≤ 767 ∧ circuitAvailable s c = true) ∧ (prmN (boxOf s m) 1 = i ∧ i ≤ 16383) ∧ (domOn s 28 = true) ∧ (s.link.records.length ≤ 16384) :=
  ⟨running { domainsOn with link := { records := [{ circuit := 24, addr := some 5, epId := 77 }] } } 0 0x0401 [24, 0], 0, 24, 0, by decide⟩
theorem witness_EndpointCommands_2 :
    ∃ (s : State) (m : Nat) (w : Word) (r : Record), (Serves s m 0x0402 0) ∧ ((boxOf s m).paramWords = 1) ∧ (prm (boxOf s m) 0 = w) ∧ (w.toNat < 2 ^ 22 ∧ epCircuit w < 768 ∧ circuitAvailable s (epCircuit w) = true) ∧ (namedRecord s w = some r) :=
  ⟨running oneRecord 0 0x0402 [0x18005], 0, 0x18005, { circuit := 24, addr := some 5, epId := 77 }, by decide⟩
theorem witness_EndpointCommands_3 :
    ∃ (s : State) (m : Nat) (w : Word) (r : Record), (Serves s m 0x0403 0) ∧ ((boxOf s m).paramWords = 1) ∧ (prm (boxOf s m) 0 = w) ∧ (w.toNat < 2 ^ 22 ∧ epCircuit w < 768 ∧ circuitAvailable s (epCircuit w) = true) ∧ (namedRecord s w = some r) :=
  ⟨running oneRecord 0 0x0403 [0x18005], 0, 0x18005, { circuit := 24, addr := some 5, epId := 77 }, by decide⟩
theorem witness_EndpointCommands_4 :
    ∃ (s : State) (m : Nat) (w : Word) (r : Record), (Serves s m 0x0404 0) ∧ ((boxOf s m).paramWords = 1) ∧ (prm (boxOf s m) 0 = w) ∧ (w.toNat < 2 ^ 22 ∧ epCircuit w < 768 ∧ circuitAvailable s (epCircuit w) = true) ∧ (namedRecord s w = some r) ∧ (r.state = .active) :=
  ⟨running oneRecord 0 0x0404 [0x18005], 0, 0x18005, { circuit := 24, addr := some 5, epId := 77 }, by decide⟩
theorem witness_EndpointCommands_5 :
    ∃ (s : State) (m n : Nat) (b : Mailbox) (w : Word) (r : Record), (Serves s m 0x0405 0) ∧ (boxOf s m = b) ∧ (b.paramWords = 4 + n ∧ prmN b 3 = n ∧ n ≤ 8) ∧ (prm b 0 = w) ∧ (prmN b 1 = 2 ∧ prmN b 2 < nFixOf s.sf.mainsNom) ∧ ((∀ i, i ≤ n → ∀ v, v = (if i = 0 then w else prm b (3 + i)) → v.toNat < 2 ^ 22 ∧ epCircuit v < 768 ∧ circuitAvailable s (epCircuit v) = true)) ∧ (namedRecord s w = some r) ∧ (isFeed s r.circuit = false) :=
  ⟨running { domainsOn with link := { records := [fiveRec] } } 0 0x0405 [0x18005, 2, 0, 0], 0, 0, boxOf (running { domainsOn with link := { records := [fiveRec] } } 0 0x0405 [0x18005, 2, 0, 0]) 0, 0x18005, fiveRec, by decide +kernel, rfl, by decide +kernel, by decide +kernel, by decide +kernel, (by intro i hi v hv; have e : i = 0 := (by omega); subst e; subst hv; decide +kernel), by decide +kernel, by decide +kernel⟩
theorem witness_EndpointCommands_6 :
    ∃ (s : State) (m n : Nat) (b : Mailbox) (w : Word) (r : Record) (fars : List Record), (Serves s m 0x0405 0) ∧ (boxOf s m = b) ∧ (b.paramWords = 4 + n ∧ prmN b 3 = n ∧ 1 ≤ n ∧ n ≤ 8) ∧ (prm b 0 = w ∧ w.toNat < 2 ^ 22 ∧ epCircuit w < 768 ∧ circuitAvailable s (epCircuit w) = true) ∧ (prmN b 1 = 1 ∧ 64 ≤ prmN b 2 ∧ prmN b 2 < nFixOf s.sf.mainsNom) ∧ (namedRecord s w = some r) ∧ (isFeed s r.circuit = false ∧ r.caps / 128 % 2 = 1 ∧ viaOf s r = none) ∧ ((prms b 4 n).map (namedRecord s) = fars.map some) ∧ ((∀ v ∈ prms b 4 n, v.toNat < 2 ^ 22 ∧ epCircuit v < 768 ∧ circuitAvailable s (epCircuit v) = true ∧ epCircuit v = r.circuit ∧ epAddr v ≠ epAddr w)) ∧ ((∀ x ∈ fars, x.repeats = false ∧ ∀ y, viaOf s x = some y → y.epId = r.epId)) :=
  ⟨repeating, 0, 1, boxOf repeating 0, 0x18005, { fiveRec with caps := 128 }, [{ circuit := 24, addr := some 6, epId := 78 }], by decide +kernel, rfl, by decide +kernel, by decide +kernel, by decide +kernel, by decide +kernel, by decide +kernel, by decide +kernel, (by intro v hv; rw [show prms (boxOf repeating 0) 4 1 = [0x18006] from by decide +kernel] at hv; obtain rfl := List.mem_singleton.1 hv; decide +kernel), (by intro x hx; obtain rfl := List.mem_singleton.1 hx; exact ⟨rfl, fun y h => by rw [show viaOf repeating { circuit := 24, addr := some 6, epId := 78 } = none from by decide +kernel] at h; cases h⟩)⟩
theorem witness_EndpointCommands_7 :
    ∃ (s : State) (m : Nat) (w : Word) (r : Record), (Serves s m 0x0420 0) ∧ ((boxOf s m).paramWords = 2) ∧ (prm (boxOf s m) 0 = w) ∧ (prmN (boxOf s m) 1 = 1) ∧ (w.toNat < 2 ^ 22 ∧ epCircuit w < 768 ∧ circuitAvailable s (epCircuit w) = true) ∧ (namedRecord s w = some r) ∧ (domOn s 28 = true) :=
  ⟨running oneRecord 0 0x0420 [0x18005, 1], 0, 0x18005, { circuit := 24, addr := some 5, epId := 77 }, by decide⟩
theorem witness_EndpointCommands_8 :
    ∃ (s : State) (m : Nat) (w : Word) (r : Record), (Serves s m 0x0420 0) ∧ ((boxOf s m).paramWords = 2) ∧ (prm (boxOf s m) 0 = w) ∧ (prmN (boxOf s m) 1 = 2) ∧ (w.toNat < 2 ^ 22 ∧ epCircuit w < 768 ∧ circuitAvailable s (epCircuit w) = true) ∧ (namedRecord s w = some r) ∧ (domOn s 28 = true) :=
  ⟨running oneRecord 0 0x0420 [0x18005, 2], 0, 0x18005, { circuit := 24, addr := some 5, epId := 77 }, by decide⟩
theorem witness_EndpointCommands_9 :
    ∃ (s : State) (m : Nat) (b : Mailbox) (d : Nat × Nat), (Serves s m 0x0408 0) ∧ (boxOf s m = b) ∧ (b.paramWords = 4) ∧ (prmN b 0 ≤ 767 ∧ circuitAvailable s (prmN b 0) = true) ∧ (prmN b 3 = 1 ∨ prmN b 3 = 2) ∧ (d = (prmN b 0, epIdOf b 1)) :=
  ⟨running {} 0 0x0408 [24, 0, 77, 1], 0, boxOf (running {} 0 0x0408 [24, 0, 77, 1]) 0, (24, 77), by decide⟩
theorem witness_EndpointCommands_10 :
    ∃ (s : State) (m : Nat) (b : Mailbox) (cs : List Nat), (Serves s m 0x0407 0) ∧ (boxOf s m = b) ∧ (13 ≤ b.paramWords) ∧ (cs = circuitsOf b 0) ∧ ((∀ c ∈ cs, circuitAvailable s c = true)) ∧ (ChecksPass (settingsOk b 12 [(1, 65535), (16, 1024), (1, 64), (1, 256)])) ∧ ((∀ c ∈ cs, 4 * (linkSettings (settingOf b 12 4) (circOf s c).want).servicePeriod ≤ (linkSettings (settingOf b 12 4) (circOf s c).want).liveness)) ∧ ((∀ c ∈ cs, worn s (linkWord c) = false)) :=
  ⟨running portsActive 0 0x0407 (0x1000000 :: List.replicate 11 0 ++ [1, 900]), 0, boxOf (running portsActive 0 0x0407 (0x1000000 :: List.replicate 11 0 ++ [1, 900])) 0, [24], by decide +kernel⟩
/-- States and operands that meet the hypotheses of each clause of `TimeCommands`. -/
theorem witness_TimeCommands_1 :
    ∃ (s : State) (m : Nat), (Serves s m 0x0501 0) ∧ ((boxOf s m).paramWords = 0) :=
  ⟨running {} 0 0x0501 [], 0, by decide⟩
theorem witness_TimeCommands_2 :
    ∃ (s : State) (m : Nat) (b : Mailbox) (n : TimeSettings), (Serves s m 0x0502 0) ∧ (boxOf s m = b) ∧ (1 ≤ b.paramWords) ∧ (ChecksPass (settingsOk b 0 timeRows)) ∧ ((settingOf b 0 16 0).all priorityOk = true) ∧ (n = timeSettings (settingOf b 0 16) (s.tku.settingsDue.getD s.tku.settings)) ∧ (worn s (settingWordOf 0x0502) = false) :=
  ⟨unworn (running {} 0 0x0502 [2, 500]), 0, boxOf (unworn (running {} 0 0x0502 [2, 500])) 0, timeSettings (settingOf (boxOf (unworn (running {} 0 0x0502 [2, 500])) 0) 0 16) {}, by decide, rfl, by decide, by decide, by decide, rfl, unworn_worn _ rfl _⟩
theorem witness_TimeCommands_3 :
    ∃ (s : State) (m : Nat) (b : Mailbox), (Serves s m 0x0503 0) ∧ (boxOf s m = b) ∧ (b.paramWords = 4) ∧ (prmN b 0 < 2 ^ 48 ∧ prmN b 1 < 65536 ∧ prmN b 2 ≤ 2 ∧ prmN b 3 < 2 ^ 48) ∧ (s.tku.state = .acquire) :=
  ⟨running {} 0 0x0503 [1000, 37, 0, 0], 0, boxOf (running {} 0 0x0503 [1000, 37, 0, 0]) 0, by decide⟩
theorem witness_TimeCommands_4 :
    ∃ (s : State) (m : Nat) (b : Mailbox), (Serves s m 0x0504 0) ∧ (boxOf s m = b) ∧ (b.paramWords = 3) ∧ (prmN b 0 < 2 ^ 48 ∧ fieldOf (prm b 2) 62 32 = 0) ∧ (s.tku.devUs ≤ 1000000 * (prmN b 0 + 2)) :=
  ⟨running {} 0 0x0504 [0, 16, 0x8000000000000100], 0, boxOf (running {} 0 0x0504 [0, 16, 0x8000000000000100]) 0, by decide⟩
theorem witness_TimeCommands_5 :
    ∃ (s : State) (m : Nat), (Serves s m 0x0505 0) ∧ ((boxOf s m).paramWords = 0) :=
  ⟨running {} 0 0x0505 [], 0, by decide⟩
theorem witness_TimeCommands_6 :
    ∃ (s : State) (m n : Nat) (base : Word), (Serves s m 0x0506 1) ∧ ((boxOf s m).paramWords = 2) ∧ (prm (boxOf s m) 0 = base ∧ base.toNat % 4096 = 0) ∧ (prmN (boxOf s m) 1 = n ∧ n ∈ [16, 32, 64, 128, 256, 512, 1024, 2048, 4096, 8192, 16384, 32768, 65536]) ∧ (domOn s 28 = true) :=
  ⟨running domainsOn 0 0x0506 [0x2000, 64], 0, 64, 0x2000, by decide⟩
theorem witness_TimeCommands_7 :
    ∃ (s : State) (m n : Nat) (b : Mailbox), (Serves s m 0x0507 0) ∧ (boxOf s m = b) ∧ (prmN b 0 = n ∧ 1 ≤ n ∧ n ≤ 112) ∧ (b.paramWords = n + 1) ∧ ((∀ w ∈ prms b 1 n, w.toNat < 2 ^ 22 ∧ circuitAvailable s (epCircuit w) = true ∧ (namedRecord s w).isSome = true)) ∧ (domOn s 28 = true) :=
  ⟨running { domainsOn with link := { records := [fiveRec] } } 0 0x0507 [1, 0x18005], 0, 1, boxOf (running { domainsOn with link := { records := [fiveRec] } } 0 0x0507 [1, 0x18005]) 0, by decide, rfl, by decide, by decide, (by intro w h; obtain rfl : w = 0x18005 := List.mem_singleton.mp h; decide), by decide⟩
theorem witness_TimeCommands_8 :
    ∃ (s : State) (m : Nat) (b : Mailbox) (cs : List Nat), (Serves s m 0x0508 0) ∧ (boxOf s m = b) ∧ (13 ≤ b.paramWords) ∧ (cs = circuitsOf b 0) ∧ ((∀ c ∈ cs, circuitAvailable s c = true)) ∧ (ChecksPass (settingsOk b 12 [(4, 4096), (2, 100)])) ∧ (worn s (settingWordOf 0x0508) = false) :=
  ⟨unworn (running portsActive 0 0x0508 (0x1000000 :: List.replicate 11 0 ++ [1, 128])), 0, boxOf (unworn (running portsActive 0 0x0508 (0x1000000 :: List.replicate 11 0 ++ [1, 128]))) 0, circuitsOf (boxOf (unworn (running portsActive 0 0x0508 (0x1000000 :: List.replicate 11 0 ++ [1, 128]))) 0) 0, by decide, rfl, by decide, rfl, by decide +kernel, by decide, unworn_worn _ rfl _⟩
theorem witness_TimeCommands_9 :
    ∃ (s : State) (m : Nat), (Serves s m 0x0509 0) ∧ ((boxOf s m).paramWords = 1) ∧ (prmN (boxOf s m) 0 = 1) :=
  ⟨running {} 0 0x0509 [1], 0, by decide⟩
theorem witness_TimeCommands_10 :
    ∃ (s : State) (m : Nat), (Serves s m 0x0509 0) ∧ ((boxOf s m).paramWords = 1) ∧ (prmN (boxOf s m) 0 = 2) ∧ ((∀ w ∈ [256, 257, 258, 259, 260], worn s w = false)) :=
  ⟨running {} 0 0x0509 [2], 0, by decide, by decide, by decide, by decide⟩
theorem witness_TimeCommands_11 :
    ∃ (s : State) (m : Nat) (roles : List Nat), (Serves s m 0x050A 0) ∧ ((boxOf s m).paramWords = 1) ∧ (prmN (boxOf s m) 0 < 65536) ∧ (roles = priorityCodes (prmN (boxOf s m) 0)) ∧ ((∀ r ∈ roles, r ≤ 2)) ∧ (worn s (settingWordOf 0x050A) = false) :=
  ⟨unworn (running {} 0 0x050A [0x1200]), 0, [1, 2, 0, 0], by decide, by decide, by decide, by decide, by decide, unworn_worn _ rfl _⟩
/-- States and operands that meet the hypotheses of each clause of `DeviceConfiguration`. -/
theorem witness_DeviceConfiguration_1 :
    ∃ (s : State) (m p x lock : Nat), (Serves s m 0x0120 0) ∧ ((boxOf s m).paramWords = 3) ∧ (prmN (boxOf s m) 0 = p ∧ p ∈ [0, 1, 2, 15]) ∧ (prmN (boxOf s m) 1 = x ∧ x < 2 ^ 40 ∧ s.sf.number + 16 ≤ x) ∧ (prmN (boxOf s m) 2 = lock ∧ lock ≤ 1) ∧ ((s.circ.locked = true → 24 ≤ m)) ∧ (counting s = true) ∧ (worn s (settingWordOf 0x0120) = false) :=
  ⟨unworn (running { domainsOn with sf := { running := true, number := 4, state := .locked } } 0 0x0120 [2, 20, 1]), 0, 2, 20, 1, by decide, by decide, by decide, by decide, by decide, by decide, by decide, unworn_worn _ rfl _⟩
theorem witness_DeviceConfiguration_2 :
    ∃ (s : State) (m p x lock : Nat), (Serves s m 0x0120 0) ∧ ((boxOf s m).paramWords = 3) ∧ (prmN (boxOf s m) 0 = p ∧ p ∈ [0, 1, 2, 15]) ∧ (prmN (boxOf s m) 1 = x ∧ x < 2 ^ 40) ∧ (prmN (boxOf s m) 2 = lock ∧ lock ≤ 1) ∧ ((s.circ.locked = true → 24 ≤ m)) ∧ (counting s = false) ∧ (worn s (settingWordOf 0x0120) = false) :=
  ⟨unworn (running {} 0 0x0120 [2, 0, 1]), 0, 2, 0, 1, by decide, by decide, by decide, by decide, by decide, by decide, by decide, unworn_worn _ rfl _⟩
theorem witness_DeviceConfiguration_3 :
    ∃ (s : State) (m : Nat), (Serves s m 0x0121 0) ∧ ((boxOf s m).paramWords = 0) :=
  ⟨running {} 0 0x0121 [], 0, by decide⟩
theorem witness_DeviceConfiguration_4 :
    ∃ (s : State) (m : Nat) (b : Mailbox) (refW : Word) (mains : Nat) (refs : List Nat) (anchor : Int), (Serves s m 0x0122 0) ∧ (boxOf s m = b) ∧ (1 ≤ b.paramWords) ∧ (ChecksPass (settingsOk b 0 [(0, 1), (-9223372036854775808, 9223372036854775807), (-9223372036854775808, 9223372036854775807)])) ∧ (refW = prm b (1 + (maskRows (prm b 0) 1).length)) ∧ (((settingOf b 0 3 1).isSome = true → ChecksPass (refChecks s refW (1 + (maskRows (prm b 0) 1).length)))) ∧ (mains = pick (settingOf b 0 3 0) (fun v => if v = 1 then 60 else 50) (s.sf.mainsDue.getD s.sf.mainsNom)) ∧ (refs = pick (settingOf b 0 3 1) (fun _ => refCircuits refW) s.sf.refList) ∧ (anchor = pick (settingOf b 0 3 2) id s.sf.anchor) ∧ (0 ≤ anchor ∧ anchor < lNomOf mains) ∧ ((mains = s.sf.mainsDue.getD s.sf.mainsNom ∧ refs = s.sf.refList ∧ anchor = s.sf.anchor)) ∧ (worn s (settingWordOf 0x0122) = false) :=
  ⟨unworn (running {} 0 0x0122 [4, 0]), 0, boxOf (unworn (running {} 0 0x0122 [4, 0])) 0, 0, 50, [], 0, by decide, rfl, by decide, by decide, by decide, by decide, by decide, by decide, by decide, by decide, by decide, unworn_worn _ rfl _⟩
theorem witness_DeviceConfiguration_5 :
    ∃ (s : State) (m : Nat) (b : Mailbox) (refW : Word) (mains : Nat) (refs : List Nat) (anchor : Int), (Serves s m 0x0122 0) ∧ (boxOf s m = b) ∧ (1 ≤ b.paramWords) ∧ (ChecksPass (settingsOk b 0 [(0, 1), (-9223372036854775808, 9223372036854775807), (-9223372036854775808, 9223372036854775807)])) ∧ (refW = prm b (1 + (maskRows (prm b 0) 1).length)) ∧ (((settingOf b 0 3 1).isSome = true → ChecksPass (refChecks s refW (1 + (maskRows (prm b 0) 1).length)))) ∧ (mains = pick (settingOf b 0 3 0) (fun v => if v = 1 then 60 else 50) (s.sf.mainsDue.getD s.sf.mainsNom)) ∧ (refs = pick (settingOf b 0 3 1) (fun _ => refCircuits refW) s.sf.refList) ∧ (anchor = pick (settingOf b 0 3 2) id s.sf.anchor) ∧ (0 ≤ anchor ∧ anchor < lNomOf mains) ∧ (¬ (mains = s.sf.mainsDue.getD s.sf.mainsNom ∧ refs = s.sf.refList ∧ anchor = s.sf.anchor)) ∧ ((mains = s.sf.mainsDue.getD s.sf.mainsNom ∨ activeCircuits s = [])) ∧ (worn s (settingWordOf 0x0122) = false) :=
  ⟨unworn (running {} 0 0x0122 [3, 1, 0]), 0, boxOf (unworn (running {} 0 0x0122 [3, 1, 0])) 0, 0, 60, [], 0, by decide, rfl, by decide, by decide, by decide, by decide, by decide, by decide, by decide, by decide, by decide, by decide +kernel, unworn_worn _ rfl _⟩
theorem witness_DeviceConfiguration_6 :
    ∃ (s : State) (m : Nat), (Serves s m 0x0123 0) ∧ ((boxOf s m).paramWords = 0) :=
  ⟨running {} 0 0x0123 [], 0, by decide⟩
/-- States and operands that meet the hypotheses of each clause of `RingsAndKeys`. -/
theorem witness_RingsAndKeys_1 :
    ∃ (s : State) (m q : Nat) (rx : Bool) (b : Mailbox), (Serves s m 0x0130 1) ∧ (boxOf s m = b) ∧ (b.paramWords = 11) ∧ (prmN b 0 = (if rx then 1 else 0) ∧ prmN b 1 = q ∧ q ≤ 255) ∧ (prmN b 2 % 4096 = 0 ∧ inHdm s (prmN b 2) (32 * prmN b 3) = false) ∧ (prmN b 3 ∈ [64, 128, 256, 512, 1024, 2048, 4096, 8192, 16384, 32768, 65536]) ∧ (prmN b 4 % 8 = 0 ∧ inHdm s (prmN b 4) 8 = false) ∧ (prmN b 5 ≤ 63 ∧ 1 ≤ prmN b 6 ∧ prmN b 6 ≤ 256 ∧ prmN b 7 ≤ 1023) ∧ ((rx = true ∨ prmN b 8 ≤ 15 ∨ prmN b 8 = 0xFF)) ∧ (prmN b 9 ≤ (if rx then 1 else 0) ∧ prmN b 10 ≤ 1) ∧ (domOn s 28 = true ∧ s.host.up = true) ∧ (((ringOf rx s q).state = .disabled ∨ sameRing (ringOf rx s q) (ringAsked rx b) = true)) ∧ ((rx = true ∨ prmN b 8 = 0xFF ∨ tabGet none s.host.xdb (prmN b 8) = none ∨ tabGet none s.host.xdb (prmN b 8) = some q)) :=
  ⟨running { domainsOn with host := { up := true } } 0 0x0130 [0, 5, 0x1000, 64, 8, 3, 1, 0, 2, 0, 1], 0, 5, false, boxOf (running { domainsOn with host := { up := true } } 0 0x0130 [0, 5, 0x1000, 64, 8, 3, 1, 0, 2, 0, 1]) 0, by decide⟩
theorem witness_RingsAndKeys_2 :
    ∃ (s : State) (m q : Nat) (rx : Bool), (Serves s m 0x0131 1) ∧ ((boxOf s m).paramWords = 2) ∧ (prmN (boxOf s m) 0 = (if rx then 1 else 0) ∧ prmN (boxOf s m) 1 = q ∧ q ≤ 255) :=
  ⟨running {} 0 0x0131 [1, 5], 0, 5, true, by decide⟩
theorem witness_RingsAndKeys_3 :
    ∃ (s : State) (m c a r : Nat), (Serves s m 0x0132 1) ∧ ((boxOf s m).paramWords = 3) ∧ (prmN (boxOf s m) 0 = c ∧ c ≤ 767 ∧ circuitAvailable s c = true) ∧ (prmN (boxOf s m) 1 = a ∧ (1 ≤ a ∧ a ≤ 0xEFF ∨ a = 0xFFF)) ∧ (prmN (boxOf s m) 2 = r ∧ (r ≤ 255 ∨ r = 0xFFF ∨ r = 0xFFFF)) :=
  ⟨running {} 0 0x0132 [24, 5, 7], 0, 24, 5, 7, by decide⟩
theorem witness_RingsAndKeys_4 :
    ∃ (s : State) (m k epoch : Nat) (cs : List Nat), (Serves s m 0x0603 0) ∧ ((boxOf s m).paramWords = 13) ∧ (prmN (boxOf s m) 12 = 1) ∧ (cs = circuitsOf (boxOf s m) 0) ∧ ((∀ c ∈ cs, circuitAvailable s c = true)) ∧ (domOn s 28 = true ∧ domOn s 29 = true) ∧ (freeKey s = some k) ∧ (epoch = s.sec.epochCount + 1 ∧ s.sec.epochCount < 4294967295) ∧ (worn s 1602 = false) :=
  ⟨unworn (running portsActive 0 0x0603 (0x1000000 :: List.replicate 11 0 ++ [1])), 0, 2, 2, circuitsOf (boxOf (unworn (running portsActive 0 0x0603 (0x1000000 :: List.replicate 11 0 ++ [1]))) 0) 0, by decide, by decide, by decide, rfl, by decide +kernel, by decide +kernel, by decide +kernel, by decide, unworn_worn _ rfl _⟩
theorem witness_RingsAndKeys_5 :
    ∃ (s : State) (m : Nat), (Serves s m 0x0830 0) ∧ ((boxOf s m).paramWords = 0) :=
  ⟨running {} 0 0x0830 [], 0, by decide⟩
/-- States and operands that meet the hypotheses of each clause of `BaseboardRequests`. -/
theorem witness_BaseboardRequests_1 :
    ∃ (s : State) (i off n : Nat) (data : List Byte) (body : List Byte), (body = [1, BitVec.ofNat 8 i, BitVec.ofNat 8 (8 + off), BitVec.ofNat 8 n] ++ data) ∧ (data.length = 8 * n) ∧ (i < 4 ∧ 1 ≤ n ∧ n ≤ 14 ∧ off + n ≤ 120) ∧ (boxLocked (boxOf s (24 + i)) = false) :=
  ⟨{}, 1, 3, 1, [1, 2, 3, 4, 5, 6, 7, 8], [1, 1, 11, 1, 1, 2, 3, 4, 5, 6, 7, 8], by decide⟩
theorem witness_BaseboardRequests_2 :
    ∃ (s : State) (body : List Byte) (ws : List Word), (mctpResult 1 body s = 0) ∧ (ws = wordsWith wordBE (mctpWords body) (body.drop 4)) :=
  ⟨{}, [1, 1, 2, 1, 0, 0, 0, 0, 0, 0, 0, 1], [1], by decide⟩
theorem witness_BaseboardRequests_3 :
    ∃ (i off n : Nat), (i < 4 ∧ 1 ≤ n ∧ n ≤ 14 ∧ off + n ≤ 128) :=
  ⟨0, 0, 2, by decide⟩
theorem witness_BaseboardRequests_4 :
    ∃ (i : Nat), (i < 4) :=
  ⟨0, by decide⟩
theorem witness_BaseboardRequests_5 :
    ∃ (s : State) (op r : Nat) (body : List Byte) (i : Instr), ((op = 1 ∧ i = .mctpWrite body ∨ op = 2 ∧ i = .mctpRead body ∨ op = 3 ∧ i = .mctpDoorbell body)) ∧ (mctpResult op body s = r) ∧ (r ≠ 0) :=
  ⟨{}, 1, 4, [7], .mctpWrite [7], by decide⟩
theorem witness_BaseboardRequests_6 :
    ∃ (eid : Nat), (eid < 256) :=
  ⟨9, by decide⟩
/-- States and operands that meet the hypotheses of each clause of `CoresAndWatchdog`. -/
theorem witness_CoresAndWatchdog_1 :
    ∃ (s : State), (runningCode s ≠ 0) :=
  ⟨{ domainsOn with mp := { coreA := { role := .running }, coreB := { role := .standby } } }, by decide⟩
theorem witness_CoresAndWatchdog_2 :
    ∃ (s : State), ((coreOf s (standbyIndex s)).role = .standby ∧ domOn s (standbyIndex s + 1) = true) :=
  ⟨{ domainsOn with mp := { coreA := { role := .running }, coreB := { role := .standby } } }, by decide⟩
theorem witness_CoresAndWatchdog_3 :
    ∃ (s : State) (old : Nat), (runningCode s ≠ 0 ∧ s.mp.lastKick + 50000 ≤ s.clk.now) ∧ (standbyReady s = true) ∧ (s.mp.armed = none ∧ inTrial s = false) ∧ (old = (if runningCode s = 2 then 1 else 0)) :=
  ⟨atTime 50000 { domainsOn with mp := { coreA := { role := .running }, coreB := { role := .standby, ready := true } } }, 0, by decide +kernel⟩
theorem witness_CoresAndWatchdog_4 :
    ∃ (s : State) (old : Nat) (a : FwArmed), (runningCode s ≠ 0 ∧ s.mp.lastKick + 50000 ≤ s.clk.now) ∧ (standbyReady s = true) ∧ (s.mp.armed = some a) ∧ (old = (if runningCode s = 2 then 1 else 0)) :=
  ⟨atTime 50000 { domainsOn with mp := { coreA := { role := .running }, coreB := { role := .standby, ready := true }, armed := some { source := 0 } } }, 0, { source := 0 }, by decide +kernel⟩
theorem witness_CoresAndWatchdog_5 :
    ∃ (s : State) (old : Nat), (runningCode s ≠ 0 ∧ s.mp.lastKick + 50000 ≤ s.clk.now) ∧ (standbyReady s = true) ∧ (s.mp.armed = none ∧ inTrial s = true) ∧ (old = (if runningCode s = 2 then 1 else 0)) :=
  ⟨atTime 50000 { domainsOn with mp := { coreA := { role := .running }, coreB := { role := .standby, ready := true }, stageTrial := true } }, 0, by decide +kernel⟩
theorem witness_CoresAndWatchdog_6 :
    ∃ (s : State) (old : Nat), (runningCode s ≠ 0 ∧ s.mp.lastKick + 50000 ≤ s.clk.now) ∧ (standbyReady s = false) ∧ (old = (if runningCode s = 2 then 1 else 0)) :=
  ⟨atTime 50000 { domainsOn with mp := { coreA := { role := .running }, coreB := { role := .off } } }, 0, by decide⟩
theorem witness_CoresAndWatchdog_7 :
    ∃ (s : State) (aOk bOk : Bool) (k want bank : Nat), (s.mp.serving = false) ∧ (k = s.mp.runner ∧ k < 2 ∧ domOn s (k + 1) = true) ∧ (want = bootBank s) ∧ ((bank = want ∨ bank = 1 - want ∧ ((if want = 0 then aOk else bOk) = false ∨ (bankOf s want).state = .empty ∨ (bankOf s want).state = .invalid))) ∧ ((if bank = 0 then aOk else bOk) = true ∧ (bankOf s bank).state ≠ .empty ∧ (bankOf s bank).state ≠ .invalid) :=
  ⟨{ domainsOn with mp := { serving := false, bankA := { state := .boot } } }, true, false, 0, 0, 0, by decide⟩
theorem witness_CoresAndWatchdog_8 :
    ∃ (s : State) (aOk bOk : Bool) (k : Nat), (s.mp.serving = false) ∧ (k = s.mp.runner ∧ domOn s (k + 1) = true) ∧ ((aOk = false ∨ s.mp.bankA.state = .empty ∨ s.mp.bankA.state = .invalid)) ∧ ((bOk = false ∨ s.mp.bankB.state = .empty ∨ s.mp.bankB.state = .invalid)) :=
  ⟨{ domainsOn with mp := { serving := false } }, false, false, 0, by decide⟩
/-- States and operands that meet the hypotheses of each clause of `RegisterWrites`. -/
theorem witness_RegisterWrites_1 :
    ∃ (s : State), (domOn s 28 = true) :=
  ⟨domainsOn, by decide⟩
theorem witness_RegisterWrites_2 :
    ∃ (s : State), (domOn s 0 = true) :=
  ⟨domainsOn, by decide⟩
theorem witness_RegisterWrites_3 :
    ∃ (q : Nat), (q < 256) :=
  ⟨3, by decide⟩
theorem witness_RegisterWrites_4 :
    ∃ (s : State), (domOn s 28 = true) :=
  ⟨domainsOn, by decide⟩
theorem witness_RegisterWrites_5 :
    ∃ (s : State), (domOn s 0 = true) :=
  ⟨domainsOn, by decide⟩
theorem witness_RegisterWrites_6 :
    ∃ (s : State), (domOn s 0 = true) :=
  ⟨domainsOn, by decide⟩
theorem witness_RegisterWrites_7 :
    ∃ (s : State), (domOn s 28 = true) :=
  ⟨domainsOn, by decide⟩
theorem witness_RegisterWrites_8 :
    ∃ (s : State) (off d : Nat), (blockDomain off = some d ∧ off % 8 = 0 ∧ off ∉ [0x1000, 0x1008, 0x1018]) ∧ (domOn s d = false) :=
  ⟨{}, 0x2000, 28, by decide +kernel⟩
theorem witness_RegisterWrites_9 :
    ∃ (off bytes bar agent : Nat), (1 ≤ agent ∧ agent ≤ 4) ∧ ((bar = 0 ∧ (off < 0xF0000 ∨ 0xF0400 ≤ off) ∧ (bytes ≠ 8 ∨ off % 8 ≠ 0 ∨ blockDomain off = none ∨ agent ≠ 4 ∧ (off < 0x3000 ∨ 0x5000 ≤ off)) ∧ off ∉ [0x1000, 0x1008, 0x1018] ∨ bar = 2 ∧ (off < 0x8000 ∨ 0x9000 ≤ off) ∧ (agent ≠ 4 ∨ bytes ≠ 8 ∨ off % 8 ≠ 0 ∨ 0x6000 ≤ off))) :=
  ⟨0x5004, 8, 0, 4, by decide⟩
/-- States and operands that meet the hypotheses of each clause of `DoorbellsAndCaptures`. -/
theorem witness_DoorbellsAndCaptures_1 :
    ∃ (s : State) (q : Nat) (v : Word), (q < 256) ∧ (domOn s 28 = true) ∧ ((txRing s q).state = .enabled ∧ fieldOf v 15 0 < (txRing s q).size) :=
  ⟨{ domainsOn with host := { tx := [(3, { state := .enabled, size := 64 })] } }, 3, 5, by decide⟩
theorem witness_DoorbellsAndCaptures_2 :
    ∃ (s : State) (q : Nat) (v : Word), (q < 256) ∧ (domOn s 28 = true) ∧ ((rxRing s q).state = .enabled ∧ fieldOf v 15 0 < (rxRing s q).size) :=
  ⟨{ domainsOn with host := { rx := [(3, { state := .enabled, size := 64 })] } }, 3, 5, by decide⟩
theorem witness_DoorbellsAndCaptures_3 :
    ∃ (s : State) (q : Nat) (v : Word) (rx : Bool) (i : Instr), (i = (if rx then .rxDbWrite q v else .txDbWrite q v) ∧ q < 256) ∧ (domOn s 28 = true) ∧ ((ringOf rx s q).state = .enabled ∧ (ringOf rx s q).size ≤ fieldOf v 15 0) :=
  ⟨{ domainsOn with host := { tx := [(3, { state := .enabled, size := 64 })] } }, 3, 64, false, .txDbWrite 3 64, by decide⟩
theorem witness_DoorbellsAndCaptures_4 :
    ∃ (s : State) (q : Nat) (v : Word) (rx : Bool) (i : Instr), (i = (if rx then .rxDbWrite q v else .txDbWrite q v) ∧ q < 256) ∧ (domOn s 28 = true) ∧ ((ringOf rx s q).state ≠ .enabled) :=
  ⟨domainsOn, 3, 64, false, .txDbWrite 3 64, by decide⟩
theorem witness_DoorbellsAndCaptures_5 :
    ∃ (s : State) (n q : Nat) (v : Word), (n < 16) ∧ (domOn s 28 = true) ∧ (tabGet none s.host.xdb n = some q) ∧ ((txRing s q).state = .enabled ∧ fieldOf v 15 0 < (txRing s q).size) :=
  ⟨{ domainsOn with host := { tx := [(3, { state := .enabled, size := 64 })], xdb := [(2, some 3)] } }, 2, 3, 5, by decide⟩
theorem witness_DoorbellsAndCaptures_6 :
    ∃ (s : State) (n q : Nat) (v : Word), (n < 16 ∧ q < 256) ∧ (tabGet none s.host.xdb n = some q) ∧ (¬ ((txRing s q).state = .enabled ∧ fieldOf v 15 0 < (txRing s q).size)) :=
  ⟨{ domainsOn with host := { xdb := [(2, some 3)] } }, 2, 3, 5, by decide⟩
theorem witness_DoorbellsAndCaptures_7 :
    ∃ (s : State) (n : Nat), (n < 16) ∧ (domOn s 28 = true) ∧ (tabGet none s.host.xdb n = none) :=
  ⟨domainsOn, 2, by decide⟩
theorem witness_DoorbellsAndCaptures_8 :
    ∃ (pin : Nat), (pin < 16) :=
  ⟨4, by decide⟩
/-- States and operands that meet the hypotheses of each clause of `KeepStoreWindow`. -/
theorem witness_KeepStoreWindow_1 :
    ∃ (s : State), (ksBusy s = false) ∧ (hostMayWrite s.keep.addr = true) :=
  ⟨{ keep := { addr := 3000 } }, by decide⟩
theorem witness_KeepStoreWindow_2 :
    ∃ (s : State), (ksBusy s = true) :=
  ⟨{ keep := { hostQ := [{ source := .host, word := 3000 }] } }, by decide⟩
theorem witness_KeepStoreWindow_3 :
    ∃ (s : State), (ksBusy s = false) ∧ (hostMayWrite s.keep.addr = false) :=
  ⟨{ keep := { addr := 5 } }, by decide⟩
theorem witness_KeepStoreWindow_4 :
    ∃ (s : State), (hostSealed s.keep.addr = true) :=
  ⟨{ keep := { addr := 4000 } }, by decide⟩
theorem witness_KeepStoreWindow_5 :
    ∃ (s : State), (hostSealed s.keep.addr = false) :=
  ⟨{ keep := { addr := 300 } }, by decide⟩
theorem witness_KeepStoreWindow_6 :
    ∃ (s : State) (w : KeepWrite) (k : Keep), (s.keep.active = none ∧ s.pins.rails.vppKeep = true) ∧ (keepNext s.keep = some (w, k)) ∧ (worn s w.word = false ∧ keepOwned w.source w.word = true) ∧ ((w.source = .host → isProvKey w.word = true → keepWord s w.word = 0)) :=
  ⟨{ pins := { rails := { vppKeep := true } }, keep := { mpQ := [{ word := 300, value := 9 }] } }, { word := 300, value := 9 }, {}, by decide⟩
theorem witness_KeepStoreWindow_7 :
    ∃ (s : State) (w : KeepWrite) (k : Keep), (s.keep.active = none ∧ s.pins.rails.vppKeep = true) ∧ (keepNext s.keep = some (w, k)) ∧ (worn s w.word = true) ∧ (w.source = .host) :=
  ⟨{ pins := { rails := { vppKeep := true } }, keep := { cells := [(3000, { wear := 100000 })], hostQ := [{ source := .host, word := 3000, value := 9 }] } }, { source := .host, word := 3000, value := 9 }, { cells := [(3000, { wear := 100000 })] }, by decide⟩
theorem witness_KeepStoreWindow_8 :
    ∃ (s : State) (w : KeepWrite) (k : Keep), (s.keep.active = none ∧ s.pins.rails.vppKeep = true) ∧ (keepNext s.keep = some (w, k)) ∧ (worn s w.word = true) ∧ (w.source ≠ .host) :=
  ⟨{ pins := { rails := { vppKeep := true } }, keep := { cells := [(300, { wear := 100000 })], mpQ := [{ word := 300, value := 9 }] } }, { word := 300, value := 9 }, { cells := [(300, { wear := 100000 })] }, by decide⟩
theorem witness_KeepStoreWindow_9 :
    ∃ (s : State) (w : KeepWrite) (k : Keep), (s.keep.active = none ∧ s.pins.rails.vppKeep = true) ∧ (keepNext s.keep = some (w, k)) ∧ (worn s w.word = false ∧ (keepOwned w.source w.word = false ∨ isProvKey w.word = true ∧ keepWord s w.word ≠ 0)) ∧ (w.source = .host) :=
  ⟨{ pins := { rails := { vppKeep := true } }, keep := { cells := [(3584, { value := 1, wear := 1 })], hostQ := [{ source := .host, word := 3584, value := 9 }] } }, { source := .host, word := 3584, value := 9 }, { cells := [(3584, { value := 1, wear := 1 })] }, by decide⟩
theorem witness_KeepStoreWindow_10 :
    ∃ (s : State) (w : KeepWrite) (k : Keep), (s.keep.active = none ∧ s.pins.rails.vppKeep = true) ∧ (keepNext s.keep = some (w, k)) ∧ (worn s w.word = false ∧ keepOwned w.source w.word = false) ∧ (w.source ≠ .host) :=
  ⟨{ pins := { rails := { vppKeep := true } }, keep := { mpQ := [{ word := 5, value := 9 }] } }, { word := 5, value := 9 }, {  }, by decide⟩
theorem witness_KeepStoreWindow_11 :
    ∃ (s : State) (w : KeepWrite), (s.keep.active = some w ∧ s.keep.startedAt + 20 ≤ s.clk.now) ∧ (keepOwned w.source w.word = true) ∧ (w.source = .host) :=
  ⟨atTime 20 { keep := { active := some { source := .host, word := 3000, value := 9 } } }, { source := .host, word := 3000, value := 9 }, by decide⟩
theorem witness_KeepStoreWindow_12 :
    ∃ (s : State) (w : KeepWrite), (s.keep.active = some w ∧ s.keep.startedAt + 20 ≤ s.clk.now) ∧ (keepOwned w.source w.word = true) ∧ (w.source ≠ .host) :=
  ⟨atTime 20 { keep := { active := some { word := 300, value := 9, holds := [(0x120, [1])] } } }, { word := 300, value := 9, holds := [(0x120, [1])] }, by decide⟩
theorem witness_KeepStoreWindow_13 :
    ∃ (s : State) (w : KeepWrite) (k : Keep), (s.keep.active = none ∧ s.pins.rails.vppKeep = false) ∧ (keepNext s.keep = some (w, k)) ∧ (w.since + 100000 < s.clk.now) ∧ (w.source = .host) :=
  ⟨atTime 100001 { pins := { rails := { vppKeep := false } }, keep := { hostQ := [{ source := .host, word := 3000, value := 9 }] } }, { source := .host, word := 3000, value := 9 }, {}, by decide⟩
theorem witness_KeepStoreWindow_14 :
    ∃ (s : State) (w : KeepWrite) (k : Keep), (s.keep.active = none ∧ s.pins.rails.vppKeep = false) ∧ (keepNext s.keep = some (w, k)) ∧ (w.since + 100000 < s.clk.now) ∧ (w.source ≠ .host) :=
  ⟨atTime 100001 { pins := { rails := { vppKeep := false } }, keep := { mpQ := [{ word := 300, value := 9 }] } }, { word := 300, value := 9 }, {}, by decide⟩
/-- States and operands that meet the hypotheses of each clause of `StatusReadsAndBulkPort`. -/
theorem witness_StatusReadsAndBulkPort_1 :
    ∃ (s : State), (domOn s 28 = true) :=
  ⟨domainsOn, by decide⟩
theorem witness_StatusReadsAndBulkPort_2 :
    ∃ (s : State), (domOn s 28 = true) :=
  ⟨domainsOn, by decide⟩
theorem witness_StatusReadsAndBulkPort_3 :
    ∃ (s : State), (domOn s 28 = true) :=
  ⟨domainsOn, by decide⟩
theorem witness_StatusReadsAndBulkPort_4 :
    ∃ (s : State), (domOn s 28 = true) :=
  ⟨domainsOn, by decide⟩
theorem witness_StatusReadsAndBulkPort_5 :
    ∃ (s : State) (r : Nat), (1 ≤ r ∧ r ≤ 4) ∧ (domOn s 29 = true) :=
  ⟨domainsOn, 2, by decide⟩
theorem witness_StatusReadsAndBulkPort_6 :
    ∃ (s : State) (i : Instr) (d : Nat), ((i, d) ∈ [(.ledgerCreditRead, 28), (.pairStatusRead, 28), (.hdmViolAddrRead, 28), (.hdmViolCntRead, 28), (.aeadStatusRead 1, 29), (.aeadStatusRead 2, 29), (.aeadStatusRead 3, 29), (.aeadStatusRead 4, 29)]) ∧ (domOn s d = false) :=
  ⟨{}, .pairStatusRead, 28, by decide⟩
theorem witness_StatusReadsAndBulkPort_7 :
    ∃ (s : State) (off d : Nat), (blockDomain off = some d ∧ domOn s d = false) :=
  ⟨{}, 0x3000, 29, by decide⟩
theorem witness_StatusReadsAndBulkPort_8 :
    ∃ (s : State) (off len : Nat), (off + len ≤ 4096) ∧ (domOn s 28 = true) ∧ (bulkError s false off len = 0) ∧ ((∀ l ∈ bulkLines s (s.mem.offset + off) len, tabGet false s.mem.poison l = false)) :=
  ⟨{ domainsOn with mem := { target := 3 } }, 0, 16, by decide⟩
theorem witness_StatusReadsAndBulkPort_9 :
    ∃ (s : State) (off len : Nat), (off + len ≤ 4096) ∧ (domOn s 28 = true) ∧ (bulkError s false off len = 0) :=
  ⟨{ domainsOn with mem := { target := 3, poison := [(0, true)] } }, 0, 16, by decide⟩
theorem witness_StatusReadsAndBulkPort_10 :
    ∃ (s : State) (off len : Nat) (ws : List Word) (i : Instr), ((i = .bulkDataRead off len ∨ i = .bulkDataWrite off ws ∧ len = 8 * ws.length)) ∧ (off + len ≤ 4096) ∧ (domOn s 28 = false) :=
  ⟨{}, 0, 8, [7], .bulkDataWrite 0 [7], by decide⟩
theorem witness_StatusReadsAndBulkPort_11 :
    ∃ (s : State) (off len e : Nat), (off + len ≤ 4096) ∧ (domOn s 28 = true) ∧ (bulkError s false off len = e) ∧ (e ≠ 0) :=
  ⟨domainsOn, 0, 16, 6, by decide⟩
theorem witness_StatusReadsAndBulkPort_12 :
    ∃ (s : State) (off e : Nat) (ws : List Word), (off + 8 * ws.length ≤ 4096) ∧ (domOn s 28 = true) ∧ (bulkError s true off (8 * ws.length) = e ∧ e ≠ 0) :=
  ⟨domainsOn, 0, 6, [7], by decide⟩
theorem witness_StatusReadsAndBulkPort_13 :
    ∃ (s : State) (off : Nat) (ws : List Word), (off + 8 * ws.length ≤ 4096) ∧ (domOn s 28 = true) ∧ (bulkError s true off (8 * ws.length) = 0 ∧ s.mem.target = 2) :=
  ⟨{ domainsOn with mem := { target := 2 } }, 0, [7], by decide⟩
theorem witness_StatusReadsAndBulkPort_14 :
    ∃ (s : State) (off : Nat) (ws : List Word), (off + 8 * ws.length ≤ 4096) ∧ (domOn s 28 = true) ∧ (bulkError s true off (8 * ws.length) = 0 ∧ s.mem.target = 1) :=
  ⟨{ domainsOn with mem := { target := 1 } }, 0, [7], by decide⟩
theorem witness_StatusReadsAndBulkPort_15 :
    ∃ (v : Nat), (v < 64) :=
  ⟨3, by decide⟩
theorem witness_StatusReadsAndBulkPort_16 :
    ∃ (s : State), (s.host.up = true ∧ s.host.pcieOnly = false) :=
  ⟨{ host := { up := true } }, by decide⟩
/-- States and operands that meet the hypotheses of each clause of `AeadLock`. -/
theorem witness_AeadLock_1 :
    ∃ (s : State) (r : Nat), (1 ≤ r ∧ r ≤ 4 ∧ domOn s 29 = true) ∧ (s.aead.owner = 0 ∧ s.aead.claim = false) :=
  ⟨domainsOn, 2, by decide⟩
theorem witness_AeadLock_2 :
    ∃ (s : State) (r : Nat), (1 ≤ r ∧ r ≤ 4 ∧ domOn s 29 = true) ∧ (s.aead.owner ≠ 0 ∧ s.aead.owner ≠ r) :=
  ⟨{ domainsOn with aead := { owner := 1 } }, 2, by decide⟩
theorem witness_AeadLock_3 :
    ∃ (s : State) (r : Nat), (1 ≤ r ∧ r ≤ 4 ∧ domOn s 29 = true) ∧ (s.aead.owner = r) :=
  ⟨{ domainsOn with aead := { owner := 2 } }, 2, by decide⟩
theorem witness_AeadLock_4 :
    ∃ (s : State) (r q : Nat), (1 ≤ r ∧ r ≤ 4 ∧ domOn s 29 = true) ∧ (s.aead.owner = r ∧ s.aead.st ≠ .running) ∧ ((if s.aead.claim && r != 3 then some 3 else leastOf s.aead.queue) = some q) :=
  ⟨{ domainsOn with aead := { owner := 2, queue := [4] } }, 2, 4, by decide⟩
theorem witness_AeadLock_5 :
    ∃ (s : State) (r : Nat), (1 ≤ r ∧ r ≤ 4 ∧ domOn s 29 = true) ∧ (s.aead.owner = r ∧ s.aead.st ≠ .running) ∧ ((if s.aead.claim && r != 3 then some 3 else leastOf s.aead.queue) = none) :=
  ⟨{ domainsOn with aead := { owner := 2 } }, 2, by decide⟩
theorem witness_AeadLock_6 :
    ∃ (s : State) (r : Nat), (1 ≤ r ∧ r ≤ 4 ∧ domOn s 29 = true) ∧ ((s.aead.owner ≠ r ∨ s.aead.st = .running)) :=
  ⟨{ domainsOn with aead := { owner := 1 } }, 2, by decide⟩
theorem witness_AeadLock_7 :
    ∃ (s : State) (r : Nat), ((r = 1 ∨ r = 2 ∨ r = 4) ∧ s.aead.owner = r ∧ s.aead.st ≠ .running ∧ s.aead.claim = false) ∧ (s.aead.lastUse + 10000 ≤ s.clk.now) :=
  ⟨atTime 10000 { domainsOn with aead := { owner := 4 } }, 4, by decide⟩
theorem witness_AeadLock_8 :
    ∃ (s : State) (r : Nat), ((r = 1 ∨ r = 2 ∨ r = 4) ∧ s.aead.owner = r ∧ s.aead.st ≠ .running ∧ s.aead.claim = false) ∧ (s.aead.lastUse + 10000 ≤ s.clk.now) ∧ (s.aead.st = .done ∧ s.aead.statusRead = false) :=
  ⟨atTime 10000 { domainsOn with aead := { owner := 1, st := .done } }, 1, by decide⟩
/-- States and operands that meet the hypotheses of each clause of `AeadStarts`. -/
theorem witness_AeadStarts_1 :
    ∃ (s : State) (r : Nat) (v : Word) (p : AeadPort), (1 ≤ r ∧ r ≤ 4 ∧ domOn s 29 = true) ∧ (s.aead.owner = r ∧ s.aead.st ≠ .running) ∧ (p = ctlFields (aeadPort s r) 2 v) :=
  ⟨{ domainsOn with aead := { owner := 1 } }, 1, 0, { op := 2 }, by decide⟩
theorem witness_AeadStarts_2 :
    ∃ (s : State) (r : Nat) (v : Word) (p : AeadPort), (1 ≤ r ∧ r ≤ 4 ∧ domOn s 29 = true) ∧ (s.aead.owner = r ∧ s.aead.st ≠ .running) ∧ (p = ctlFields (aeadPort s r) 4 v) :=
  ⟨{ domainsOn with aead := { owner := 1 } }, 1, 0, { op := 4 }, by decide⟩
theorem witness_AeadStarts_3 :
    ∃ (s : State) (r : Nat) (v : Word) (p : AeadPort), (1 ≤ r ∧ r ≤ 4 ∧ domOn s 29 = true) ∧ (s.aead.owner = r ∧ s.aead.st ≠ .running) ∧ (p = ctlFields (aeadPort s r) 5 v) :=
  ⟨{ domainsOn with aead := { owner := 1 } }, 1, 0, { op := 5 }, by decide⟩
theorem witness_AeadStarts_4 :
    ∃ (s : State) (r : Nat) (v : Word) (p : AeadPort), (1 ≤ r ∧ r ≤ 4 ∧ domOn s 29 = true) ∧ (s.aead.owner = r ∧ s.aead.st ≠ .running) ∧ (p = ctlFields (aeadPort s r) 6 v) :=
  ⟨{ domainsOn with aead := { owner := 1 } }, 1, 0, { op := 6 }, by decide⟩
theorem witness_AeadStarts_5 :
    ∃ (s : State) (r : Nat) (v : Word) (p : AeadPort), (1 ≤ r ∧ r ≤ 4 ∧ domOn s 29 = true) ∧ (s.aead.owner = r ∧ s.aead.st ≠ .running) ∧ (p = ctlFields (aeadPort s r) 1 v) ∧ (aeadVerdict s r p = none) ∧ ((slotOf s p.slot).counter < 0xFFFFFFFFFFFFFFFF) ∧ (((slotOf s p.slot).counter + 1) % 1048576 ≠ 0 ∧ ((slotOf s p.slot).counter % 1048576 ≠ 0 ∨ markHeld s p.slot ((slotOf s p.slot).counter / 1048576) = true)) :=
  ⟨{ domainsOn with aead := { owner := 1, slot := [(0, { key := some [1, 2], counter := 5 }), (1, { key := some [3, 4] })] } }, 1, 0x10000, { op := 1, tagLen := 16 }, by decide +kernel⟩
theorem witness_AeadStarts_6 :
    ∃ (s u : State) (r : Nat) (v : Word) (p : AeadPort), (1 ≤ r ∧ r ≤ 4 ∧ domOn s 29 = true) ∧ (s.aead.owner = r ∧ s.aead.st ≠ .running) ∧ (p = ctlFields (aeadPort s r) 1 v) ∧ (aeadVerdict s r p = none) ∧ (useCounter p.slot (aeadTouch r (setAeadPort r p s)) = some u) :=
  ⟨{ domainsOn with aead := { owner := 1, slot := [(0, { key := some [1, 2], counter := 1048575 }), (1, { key := some [3, 4] })] } }, ((useCounter 0 (aeadTouch 1 (setAeadPort 1 ({ op := 1, tagLen := 16 }) ({ domainsOn with aead := { owner := 1, slot := [(0, { key := some [1, 2], counter := 1048575 }), (1, { key := some [3, 4] })] } })))).getD {}), 1, 0x10000, { op := 1, tagLen := 16 }, by decide +kernel⟩
theorem witness_AeadStarts_7 :
    ∃ (s : State) (r : Nat) (v : Word) (p : AeadPort), (1 ≤ r ∧ r ≤ 4 ∧ domOn s 29 = true) ∧ (s.aead.owner = r ∧ s.aead.st ≠ .running) ∧ (p = ctlFields (aeadPort s r) 1 v) ∧ ((aeadVerdict s r p ≠ none ∨ useCounter p.slot (aeadTouch r (setAeadPort r p s)) = none)) :=
  ⟨{ domainsOn with aead := { owner := 1, slot := [(0, { key := some [1, 2], counter := 18446744073709551615 }), (1, { key := some [3, 4] })] } }, 1, 0x10000, { op := 1, tagLen := 16 }, by decide +kernel⟩
theorem witness_AeadStarts_8 :
    ∃ (s : State) (r : Nat) (v : Word) (p : AeadPort), (1 ≤ r ∧ r ≤ 4 ∧ domOn s 29 = true) ∧ (s.aead.owner = r ∧ s.aead.st ≠ .running) ∧ (p = ctlFields (aeadPort s r) 3 v) ∧ (aeadVerdict s r p = none) ∧ ((slotOf s p.slot).counter < 0xFFFFFFFFFFFFFFFF) ∧ (((slotOf s p.slot).counter + 1) % 1048576 ≠ 0 ∧ ((slotOf s p.slot).counter % 1048576 ≠ 0 ∨ markHeld s p.slot ((slotOf s p.slot).counter / 1048576) = true)) :=
  ⟨{ domainsOn with aead := { owner := 1, port := [(1, { textLen := 16 })], slot := [(0, { key := some [1, 2], counter := 5 }), (1, { key := some [3, 4] })] } }, 1, 0x30000, { op := 3, target := 1, tagLen := 16, textLen := 16 }, by decide +kernel⟩
theorem witness_AeadStarts_9 :
    ∃ (s u : State) (r : Nat) (v : Word) (p : AeadPort), (1 ≤ r ∧ r ≤ 4 ∧ domOn s 29 = true) ∧ (s.aead.owner = r ∧ s.aead.st ≠ .running) ∧ (p = ctlFields (aeadPort s r) 3 v) ∧ (aeadVerdict s r p = none) ∧ (useCounter p.slot (aeadTouch r (setAeadPort r p s)) = some u) :=
  ⟨{ domainsOn with aead := { owner := 1, port := [(1, { textLen := 16 })], slot := [(0, { key := some [1, 2], counter := 1048575 }), (1, { key := some [3, 4] })] } }, ((useCounter 0 (aeadTouch 1 (setAeadPort 1 ({ op := 3, target := 1, tagLen := 16, textLen := 16 }) ({ domainsOn with aead := { owner := 1, port := [(1, { textLen := 16 })], slot := [(0, { key := some [1, 2], counter := 1048575 }), (1, { key := some [3, 4] })] } })))).getD {}), 1, 0x30000, { op := 3, target := 1, tagLen := 16, textLen := 16 }, by decide +kernel⟩
theorem witness_AeadStarts_10 :
    ∃ (s : State) (r : Nat) (v : Word) (p : AeadPort), (1 ≤ r ∧ r ≤ 4 ∧ domOn s 29 = true) ∧ (s.aead.owner = r ∧ s.aead.st ≠ .running) ∧ (p = ctlFields (aeadPort s r) 3 v) ∧ ((aeadVerdict s r p ≠ none ∨ useCounter p.slot (aeadTouch r (setAeadPort r p s)) = none)) :=
  ⟨{ domainsOn with aead := { owner := 1, port := [(1, { textLen := 16 })], slot := [(0, { key := some [1, 2], counter := 18446744073709551615 }), (1, { key := some [3, 4] })] } }, 1, 0x30000, { op := 3, target := 1, tagLen := 16, textLen := 16 }, by decide +kernel⟩
theorem witness_AeadStarts_11 :
    ∃ (s : State) (r : Nat) (v : Word) (i : Instr), (i ∈ [.aeadEncrypt r v, .aeadDecrypt r v, .aeadWrap r v, .aeadUnwrap r v, .aeadGenerate r v, .aeadJoinMac r v]) ∧ (1 ≤ r ∧ r ≤ 4 ∧ domOn s 29 = true) ∧ ((s.aead.owner ≠ r ∨ s.aead.st = .running)) :=
  ⟨domainsOn, 1, 0, .aeadWrap 1 0, by decide⟩
/-- States and operands that meet the hypotheses of each clause of `AeadOperations`. -/
theorem witness_AeadOperations_1 :
    ∃ (s : State) (a : AeadRun) (c : Nat), (s.aead.run = some a ∧ marksPending s = false) ∧ (a.verdict = some c) ∧ (a.requester ≠ 4 ∧ s.aead.claim = false) :=
  ⟨{ domainsOn with aead := { st := .running, run := some { requester := 1, verdict := some 5 } } }, { requester := 1, verdict := some 5 }, 5, by decide⟩
theorem witness_AeadOperations_2 :
    ∃ (s : State) (a : AeadRun) (c : Nat), (s.aead.run = some a ∧ marksPending s = false) ∧ ((a.verdict = some c ∨ a.verdict = none ∧ a.requester ≠ 4 ∧ c = 8 ∧ (67108864 < a.port.src.toNat + aeadInLen a.port ∨ 67108864 < a.port.dst.toNat + aeadOutLen a.port))) :=
  ⟨{ domainsOn with aead := { st := .running, run := some { requester := 1, port := { op := 1, src := 67108864, textLen := 1 } } } }, { requester := 1, port := { op := 1, src := 67108864, textLen := 1 } }, 8, by decide⟩
theorem witness_AeadOperations_3 :
    ∃ (s : State) (a : AeadRun), (s.aead.run = some a ∧ marksPending s = false) ∧ (a.verdict = none ∧ a.requester ≠ 4) ∧ (a.port.src.toNat + aeadInLen a.port ≤ 67108864 ∧ a.port.dst.toNat + aeadOutLen a.port ≤ 67108864) :=
  ⟨{ domainsOn with aead := { st := .running, run := some { requester := 1, port := { op := 5 } } } }, { requester := 1, port := { op := 5 } }, by decide⟩
theorem witness_AeadOperations_4 :
    ∃ (s : State) (a : AeadRun) (bs : List Byte) (o : List Byte × List Byte), (s.aead.run = some a ∧ marksPending s = false) ∧ (a.verdict = none ∧ a.requester ≠ 4 ∧ s.aead.claim = false ∧ a.port.op = 1) ∧ (a.port.src.toNat + aeadInLen a.port ≤ 67108864 ∧ a.port.dst.toNat + aeadOutLen a.port ≤ 67108864) ∧ (bs = memRead s.mem.near a.port.src.toNat (aeadInLen a.port)) ∧ (o = aeadSeal a.port.ccm a.key (a.nonceH.toNat * 4294967296 + a.nonceL) (bs.take a.port.adLen) ((bs.drop a.port.adLen).take a.port.textLen) a.port.tagLen) :=
  ⟨{ domainsOn with aead := { st := .running, run := some { requester := 1, key := [1, 2], port := { op := 1, tagLen := 16 } } } }, { requester := 1, key := [1, 2], port := { op := 1, tagLen := 16 } }, (memRead [] 0 0), aeadSeal false [1, 2] 0 [] [] 16, by decide +kernel⟩
theorem witness_AeadOperations_5 :
    ∃ (s : State) (a : AeadRun) (bs : List Byte) (o : List Byte), (s.aead.run = some a ∧ marksPending s = false) ∧ (a.verdict = none ∧ a.requester ≠ 4 ∧ s.aead.claim = false ∧ a.port.op = 2) ∧ (a.port.src.toNat + aeadInLen a.port ≤ 67108864 ∧ a.port.dst.toNat + aeadOutLen a.port ≤ 67108864) ∧ (bs = memRead s.mem.near a.port.src.toNat (aeadInLen a.port)) ∧ (aeadOpen a.port.ccm a.key (a.nonceH.toNat * 4294967296 + a.nonceL) (bs.take a.port.adLen) ((bs.drop a.port.adLen).take a.port.textLen) (bs.drop (a.port.adLen + a.port.textLen)) = some o) :=
  ⟨{ domainsOn with aead := { st := .running, run := some { requester := 1, key := [], port := { op := 2 } } } }, { requester := 1, key := [], port := { op := 2 } }, (memRead [] 0 0), [], by decide +kernel⟩
theorem witness_AeadOperations_6 :
    ∃ (s : State) (a : AeadRun) (bs : List Byte), (s.aead.run = some a ∧ marksPending s = false) ∧ (a.verdict = none ∧ a.requester ≠ 4 ∧ s.aead.claim = false ∧ a.port.op = 2) ∧ (a.port.src.toNat + aeadInLen a.port ≤ 67108864 ∧ a.port.dst.toNat + aeadOutLen a.port ≤ 67108864) ∧ (bs = memRead s.mem.near a.port.src.toNat (aeadInLen a.port)) ∧ (aeadOpen a.port.ccm a.key (a.nonceH.toNat * 4294967296 + a.nonceL) (bs.take a.port.adLen) ((bs.drop a.port.adLen).take a.port.textLen) (bs.drop (a.port.adLen + a.port.textLen)) = none) :=
  ⟨{ domainsOn with aead := { st := .running, run := some { requester := 1, key := [1, 2], port := { op := 2, tagLen := 16, textLen := 0 } } } }, { requester := 1, key := [1, 2], port := { op := 2, tagLen := 16, textLen := 0 } }, (memRead [] 0 16), by decide +kernel⟩
theorem witness_AeadOperations_7 :
    ∃ (s : State) (res : AeadAccess) (a : AeadRun) (bs : List Byte), (s.aead.run = some a ∧ marksPending s = false) ∧ (a.verdict = none ∧ a.requester = 4) ∧ (res.src = some bs ∧ res.dstOk = true) :=
  ⟨{ domainsOn with aead := { st := .running, run := some { requester := 4, port := { op := 5 } } } }, { src := some [] }, { requester := 4, port := { op := 5 } }, [], by decide⟩
theorem witness_AeadOperations_8 :
    ∃ (s : State) (res : AeadAccess) (a : AeadRun), (s.aead.run = some a ∧ marksPending s = false) ∧ (a.verdict = none ∧ a.requester = 4) ∧ ((res.src = none ∨ res.dstOk = false)) :=
  ⟨{ domainsOn with aead := { st := .running, run := some { requester := 4, port := { op := 5 } } } }, { src := none }, { requester := 4, port := { op := 5 } }, by decide⟩
theorem witness_AeadOperations_9 :
    ∃ (s : State), ((s.aead.run = none ∨ marksPending s = true)) :=
  ⟨domainsOn, by decide⟩
theorem witness_AeadOperations_10 :
    ∃ (s : State) (r : Nat) (v : Word) (p : AeadPort), (1 ≤ r ∧ r ≤ 4 ∧ domOn s 29 = true) ∧ (p = kslotFields (aeadPort s r) v) ∧ (slotLoadable r p.kSel = true) :=
  ⟨domainsOn, 1, 0, {}, by decide⟩
theorem witness_AeadOperations_11 :
    ∃ (s : State) (r : Nat) (v : Word) (p : AeadPort), (1 ≤ r ∧ r ≤ 4 ∧ domOn s 29 = true) ∧ (p = kslotFields (aeadPort s r) v) ∧ (slotLoadable r p.kSel = false) :=
  ⟨domainsOn, 1, 0x00400000, { kSel := 4 }, by decide⟩
theorem witness_AeadOperations_12 :
    ∃ (s : State) (r : Nat) (v : Word) (p : AeadPort), (1 ≤ r ∧ r ≤ 4 ∧ domOn s 29 = true) ∧ (p = kslotFields (aeadPort s r) v) ∧ ((∀ a, s.aead.run = some a → a.port.slot ≠ p.kSel ∨ a.port.op = 5)) ∧ (slotLoadable r p.kSel = true) :=
  ⟨domainsOn, 1, 0, {}, by decide, by decide, (fun a h => by cases h), by decide⟩
theorem witness_AeadOperations_13 :
    ∃ (s : State) (r : Nat) (v : Word) (p : AeadPort), (1 ≤ r ∧ r ≤ 4 ∧ domOn s 29 = true) ∧ (p = kslotFields (aeadPort s r) v) ∧ (slotLoadable r p.kSel = false) :=
  ⟨domainsOn, 1, 0x00400000, { kSel := 4 }, by decide⟩
theorem witness_AeadOperations_14 :
    ∃ (s : State) (r : Nat) (v : Word) (p : AeadPort) (a : AeadRun), (1 ≤ r ∧ r ≤ 4 ∧ domOn s 29 = true) ∧ (p = kslotFields (aeadPort s r) v) ∧ (s.aead.run = some a ∧ a.port.slot = p.kSel ∧ a.port.op ≠ 5) ∧ (slotLoadable r p.kSel = true) :=
  ⟨{ domainsOn with aead := { run := some { requester := 1, port := { op := 1 } } } }, 1, 0, {}, { requester := 1, port := { op := 1 } }, by decide⟩
theorem witness_AeadOperations_15 :
    ∃ (s : State), (domOn s 29 = true) :=
  ⟨domainsOn, by decide⟩
theorem witness_AeadOperations_16 :
    ∃ (s : State), (domOn s 29 = true ∧ s.aead.drbgHalted = false ∧ 1048576 ≤ s.aead.drbgRequests) :=
  ⟨{ domainsOn with aead := { drbgRequests := 1048576 } }, by decide⟩
/-- States and operands that meet the hypotheses of each clause of `CheckUnitsAndLinkKeys`. -/
theorem witness_CheckUnitsAndLinkKeys_1 :
    ∃ (s : State) (u : Nat), (u < 8 ∧ domOn s 29 = true) :=
  ⟨domainsOn, 3, by decide⟩
theorem witness_CheckUnitsAndLinkKeys_2 :
    ∃ (s : State) (u : Nat), (u < 8 ∧ domOn s 29 = true) :=
  ⟨domainsOn, 3, by decide⟩
theorem witness_CheckUnitsAndLinkKeys_3 :
    ∃ (s : State), (domOn s 29 = true) :=
  ⟨domainsOn, by decide⟩
theorem witness_CheckUnitsAndLinkKeys_4 :
    ∃ (s : State), (s.host.up = true ∧ s.host.pcieOnly = false) :=
  ⟨{ host := { up := true } }, by decide⟩
theorem witness_CheckUnitsAndLinkKeys_5 :
    ∃ (s : State), (s.host.up = true ∧ s.host.pcieOnly = false ∧ s.host.ideActive = true) :=
  ⟨{ host := { up := true, ideActive := true } }, by decide⟩
theorem witness_CheckUnitsAndLinkKeys_6 :
    ∃ (s : State) (m : List Word), (s.host.up = true ∧ runningCode s ≠ 0) ∧ (m = (runningImage s).hash ++ (s.plan.active.drop (s.plan.active.length - 6)).take 6) :=
  ⟨{ host := { up := true }, mp := { coreA := { role := .running } } }, [], by decide +kernel⟩
/-- States and operands that meet the hypotheses of each clause of `ResetAndStart`. -/
theorem witness_ResetAndStart_1 :
    ∃ (s : State), (s.pins.resetReleased = true ∧ (s.pwr.seqRunning && s.pwr.seqStarted) = false) :=
  ⟨domainsOn, by decide⟩
theorem witness_ResetAndStart_2 :
    ∃ (s : State), (s.pins.resetReleased = true ∧ (s.pwr.seqRunning && s.pwr.seqStarted) = true) :=
  ⟨{ domainsOn with pwr := { domainsOn.pwr with seqRunning := true, seqStarted := true } }, by decide⟩
theorem witness_ResetAndStart_3 :
    ∃ (s : State), (s.pins.resetReleased = false) :=
  ⟨{ domainsOn with pins := { domainsOn.pins with resetReleased := false } }, by decide⟩
theorem witness_ResetAndStart_4 :
    ∃ (s : State), (s.pins.resetReleased = false) :=
  ⟨{ domainsOn with pins := { domainsOn.pins with resetReleased := false } }, by decide⟩
theorem witness_ResetAndStart_5 :
    ∃ (s : State), (s.pins.resetReleased = true) :=
  ⟨domainsOn, by decide⟩
theorem witness_ResetAndStart_6 :
    ∃ (s : State) (r : Rails) (d : Nat) (ds : List Nat), (s.pins.resetReleased = true ∧ s.pins.oscPresent = true ∧ s.pins.thermTrip = false ∧ s.pwr.seqStarted = false) ∧ (r.vddAon = true ∧ r.vddIo = true ∧ r.vppKeep = true) ∧ (s.pins.oscSince.all (fun t => decide (t + 100 ≤ s.clk.now)) = true) ∧ ((seqOrder.filter fun d => (domOf s d).state != .absent && !domAbsent (isH s) d && ((domOf s d).inPlace || bitOf s.pwr.bootDomains d)) = d :: ds) :=
  ⟨{ (default : State) with pins := { resetReleased := true } }, {}, 29, seqOrder.drop 1, by decide⟩
theorem witness_ResetAndStart_7 :
    ∃ (s : State) (r : Rails), (s.pins.resetReleased = false ∨ s.pins.oscPresent = false ∨ s.pins.thermTrip = true ∨ s.pwr.seqStarted = true ∨ s.pins.oscSince.any (fun t => decide (s.clk.now < t + 100)) = true ∨ r.vddAon = false ∨ r.vddIo = false ∨ r.vppKeep = false) :=
  ⟨domainsOn, { vddIo := false }, by decide⟩
theorem witness_ResetAndStart_8 :
    ∃ (s : State), (s.pwr.seqRunning = true ∧ s.pwr.seqStarted = true ∧ s.pwr.seqRest = [] ∧ s.pwr.switching = none ∧ s.pins.thermTrip = false) :=
  ⟨{ domainsOn with pwr := { domainsOn.pwr with seqRunning := true, seqStarted := true } }, by decide⟩
/-- States and operands that meet the hypotheses of each clause of `DomainTransitions`. -/
theorem witness_DomainTransitions_1 :
    ∃ (s : State) (d : Nat), (1 ≤ d ∧ d < 30 ∧ s.pwr.switching = some d ∧ (domOf s d).state = .poweringUp ∧ railsFor s.pins.rails d = true) ∧ ((s.pwr.seqRunning = false ∨ s.pwr.seqRest = [])) :=
  ⟨{ domainsOn with pwr := { (setDom 12 { state := .poweringUp } domainsOn).pwr with switching := some 12 } }, 12, by decide⟩
theorem witness_DomainTransitions_2 :
    ∃ (s : State) (d e : Nat) (ds : List Nat), (1 ≤ d ∧ d < 30 ∧ s.pwr.switching = some d ∧ (domOf s d).state = .poweringUp ∧ railsFor s.pins.rails d = true) ∧ (s.pwr.seqRunning = true ∧ s.pwr.seqRest = e :: ds ∧ e ≠ d) :=
  ⟨{ domainsOn with pwr := { (setDom 12 { state := .poweringUp } domainsOn).pwr with switching := some 12, seqRunning := true, seqRest := [13] } }, 12, 13, [], by decide⟩
theorem witness_DomainTransitions_3 :
    ∃ (s : State) (d e : Nat) (ds : List Nat), (1 ≤ d ∧ d < 30 ∧ s.pwr.switching = some d ∧ (domOf s d).state = .poweringUp) ∧ ((domOf s d).inPlace = false ∧ (domOf s d).since + 2 * switchTicks d ≤ s.clk.now) ∧ (s.pwr.seqRunning = true ∧ s.pwr.seqRest = e :: ds ∧ e ≠ d) :=
  ⟨atTime 400 { domainsOn with pwr := { (setDom 12 { state := .poweringUp } domainsOn).pwr with switching := some 12, seqRunning := true, seqRest := [13] } }, 12, 13, [], by decide⟩
theorem witness_DomainTransitions_4 :
    ∃ (s : State) (d : Nat), (1 ≤ d ∧ d < 30 ∧ s.pwr.switching = some d ∧ (domOf s d).state = .poweringUp) ∧ ((domOf s d).inPlace = false ∧ (domOf s d).since + 2 * switchTicks d ≤ s.clk.now) ∧ ((s.pwr.seqRunning = false ∨ s.pwr.seqRest = [])) :=
  ⟨atTime 400 { domainsOn with pwr := { (setDom 12 { state := .poweringUp } domainsOn).pwr with switching := some 12 } }, 12, by decide⟩
theorem witness_DomainTransitions_5 :
    ∃ (s : State) (d : Nat), (1 ≤ d ∧ d < 30 ∧ (s.pwr.switching ≠ some d ∨ (domOf s d).state ≠ .poweringUp ∨ railsFor s.pins.rails d = false)) :=
  ⟨domainsOn, 5, by decide⟩
theorem witness_DomainTransitions_6 :
    ∃ (s : State) (d : Nat), (1 ≤ d ∧ d < 30 ∧ (s.pwr.switching ≠ some d ∨ (domOf s d).state ≠ .poweringUp ∨ (domOf s d).inPlace = true ∨ s.clk.now < (domOf s d).since + 2 * switchTicks d)) :=
  ⟨domainsOn, 5, by decide⟩
theorem witness_DomainTransitions_7 :
    ∃ (s : State) (d : Nat) (up : Bool) (r : List (Nat × Bool)), (s.pwr.seqRunning = false ∧ s.pwr.switching = none ∧ s.pwr.waiting = (d, up) :: r) ∧ ((up = true ∨ (domOf s d).pendUp = false ∨ (domOf s d).state ≠ .draining)) :=
  ⟨{ domainsOn with pwr := { domainsOn.pwr with waiting := [(5, false)] } }, 5, false, [], by decide⟩
theorem witness_DomainTransitions_8 :
    ∃ (s : State) (d : Nat) (r : List (Nat × Bool)), (s.pwr.seqRunning = false ∧ s.pwr.switching = none ∧ s.pwr.waiting = (d, false) :: r) ∧ ((domOf s d).pendUp = true ∧ (domOf s d).state = .draining) :=
  ⟨{ domainsOn with pwr := { (setDom 5 { state := .draining, pendUp := true, drained := true } domainsOn).pwr with waiting := [(5, false)] } }, 5, [], by decide⟩
theorem witness_DomainTransitions_9 :
    ∃ (s : State), (s.pwr.seqRunning = true ∨ s.pwr.switching ≠ none ∨ s.pwr.waiting = []) :=
  ⟨domainsOn, by decide⟩
theorem witness_DomainTransitions_10 :
    ∃ (s : State) (d : Nat), (1 ≤ d ∧ d < 30 ∧ (domOf s d).state = .draining ∧ (domOf s d).drained = false ∧ (domOf s d).pendUp = false ∧ drainBusy d s = false) ∧ ((domOf s d).since < s.clk.now) ∧ (seqFree s = true) :=
  ⟨atTime 1 (setDom 12 { state := .draining } domainsOn), 12, by decide⟩
theorem witness_DomainTransitions_11 :
    ∃ (s : State) (d : Nat), (1 ≤ d ∧ d < 30 ∧ (domOf s d).state = .draining ∧ (domOf s d).drained = false ∧ (domOf s d).pendUp = false ∧ drainBusy d s = false) ∧ ((domOf s d).since < s.clk.now) ∧ (seqFree s = false) :=
  ⟨atTime 1 { domainsOn with pwr := { (setDom 12 { state := .draining } domainsOn).pwr with switching := some 5 } }, 12, by decide⟩
theorem witness_DomainTransitions_12 :
    ∃ (s : State) (d : Nat), (1 ≤ d ∧ d < 30 ∧ (domOf s d).state = .draining ∧ (domOf s d).pendUp = true) ∧ (((domOf s d).drained = true ∨ drainBusy d s = false ∧ (domOf s d).since < s.clk.now)) :=
  ⟨atTime 1 (setDom 12 { state := .draining, pendUp := true } domainsOn), 12, by decide⟩
theorem witness_DomainTransitions_13 :
    ∃ (s : State) (d : Nat), (1 ≤ d ∧ d < 30) ∧ ((domOf s d).state ≠ .draining ∨ (domOf s d).drained = true ∧ (domOf s d).pendUp = false ∨ (domOf s d).drained = false ∧ (drainBusy d s = true ∨ s.clk.now ≤ (domOf s d).since)) :=
  ⟨domainsOn, 5, by decide⟩
theorem witness_DomainTransitions_14 :
    ∃ (s : State) (d : Nat), (1 ≤ d ∧ d < 30 ∧ s.pwr.switching = some d ∧ (domOf s d).state = .poweringDown) ∧ ((domOf s d).since + 1 + switchTicks d ≤ s.clk.now) ∧ ((s.pwr.seqRunning = false ∨ s.pwr.seqRest = [])) :=
  ⟨atTime 201 { domainsOn with pwr := { (setDom 12 { state := .poweringDown } domainsOn).pwr with switching := some 12 } }, 12, by decide⟩
theorem witness_DomainTransitions_15 :
    ∃ (s : State) (d : Nat), (1 ≤ d ∧ d < 30 ∧ (s.pwr.switching ≠ some d ∨ (domOf s d).state ≠ .poweringDown ∨ s.clk.now < (domOf s d).since + 1 + switchTicks d)) :=
  ⟨domainsOn, 5, by decide⟩
/-- States and operands that meet the hypotheses of each clause of `RailsAndSupervision`. -/
theorem witness_RailsAndSupervision_1 :
    ∃ (r : Rail), (r = .vddLane ∨ r = .vddLaneHv ∨ r = .vddHbm ∨ r = .vddqHbm) :=
  ⟨.vddHbm, by decide⟩
theorem witness_RailsAndSupervision_2 :
    ∃ (r : Rail), ((r = .vddCore ∨ r = .vddSram)) :=
  ⟨.vddCore, by decide⟩
theorem witness_RailsAndSupervision_3 :
    ∃ (s : State) (site : Nat), (site < 49 ∧ domPowered (domOf s (sensorDomain site)).state = true) :=
  ⟨domainsOn, 48, by decide⟩
theorem witness_RailsAndSupervision_4 :
    ∃ (s : State) (site : Nat), (site < 49 ∧ domPowered (domOf s (sensorDomain site)).state = false) :=
  ⟨default, 0, by decide⟩
/-- States and operands that meet the hypotheses of each clause of `AdaptiveSupply`. -/
theorem witness_AdaptiveSupply_1 :
    ∃ (s : State) (obs : List SensorObs) (o h : SensorObs), (leastSlack (loopObs s obs) = some o ∧ hottest (liveObs s obs) = some h) :=
  ⟨{ domainsOn with clk := { domainsOn.clk with now := 5000 } }, [{ sensor := 3, slack := 100, temp := 900 }], { sensor := 3, slack := 100, temp := 900 }, { sensor := 3, slack := 100, temp := 900 }, by decide⟩
theorem witness_AdaptiveSupply_2 :
    ∃ (s : State) (obs : List SensorObs), (leastSlack (loopObs s obs) = none) :=
  ⟨domainsOn, [], by decide⟩
theorem witness_AdaptiveSupply_3 :
    ∃ (s : State), (s.avs.busFault = true) :=
  ⟨{ domainsOn with avs := { busFault := true } }, by decide⟩
theorem witness_AdaptiveSupply_4 :
    ∃ (s : State), (s.avs.busFault = false) :=
  ⟨domainsOn, by decide⟩
theorem witness_AdaptiveSupply_5 :
    ∃ (s : State) (a : Nat), (s.avs.limitSince = some a ∧ a + 1000000 ≤ s.clk.now ∧ s.avs.setPoint = 320 ∧ s.age.limitRaised = false) :=
  ⟨atTime 1000007 { domainsOn with avs := { domainsOn.avs with setPoint := 320, limitSince := some 7 } }, 7, by decide⟩
theorem witness_AdaptiveSupply_6 :
    ∃ (s : State), ((∀ a, s.avs.limitSince = some a → s.clk.now < a + 1000000) ∨ s.avs.setPoint ≠ 320 ∨ s.age.limitRaised = true) :=
  ⟨domainsOn, by decide⟩
/-- States and operands that meet the hypotheses of each clause of `MarginLedger`. -/
theorem witness_MarginLedger_1 :
    ∃ (s : State) (m : MeanObs), (m.sensor < 48 ∧ domOn s (sensorDomain m.sensor) = true ∧ ledgerPresent s m.sensor = true) :=
  ⟨ledgerFive, { sensor := 5, slack := 238, volts := 7400, temp := 1248 }, by decide +kernel⟩
theorem witness_MarginLedger_2 :
    ∃ (s : State) (means : List MeanObs), ((∀ m ∈ means, ¬ (m.sensor < 48 ∧ domOn s (sensorDomain m.sensor) = true ∧ ledgerPresent s m.sensor = true))) ∧ (worstSensor s (List.range 48) = none) :=
  ⟨domainsOn, [{ sensor := 5, slack := 238, volts := 7400, temp := 1248 }], by decide +kernel⟩
theorem witness_MarginLedger_3 :
    ∃ (s : State) (n : Nat), (n < 48 ∧ tabGet {} s.age.sensors n ≠ {} ∧ ledgerPresent s n = true ∧ writable s [1205 + 4 * n, 1207 + 4 * n] = true) ∧ ((∀ k, k < 48 → k ≠ n → tabGet {} s.age.sensors k = {})) :=
  ⟨{ ledgerFive with age := { ledgerFive.age with sensors := [(5, { s := 238, now := 264 })] } }, 5, by decide +kernel⟩
/-- States and operands that meet the hypotheses of each clause of `LaneBringUp`. -/
theorem witness_LaneBringUp_1 :
    ∃ (s : State) (lane : Nat), (portExists s (lane / 2) = true ∧ (laneOf s lane).blockLock = false) ∧ ((portOf s (lane / 2)).state = .active ∨ (portOf s (lane / 2)).state = .standby) :=
  ⟨modPort 1 (fun x => { x with state := .active }) domainsOn, 3, by decide⟩
theorem witness_LaneBringUp_2 :
    ∃ (s : State) (lane : Nat), (portExists s (lane / 2) = true ∧ (laneOf s lane).blockLock = false ∧ (portOf s (lane / 2)).state = .bringup ∧ (portOf s (lane / 2)).phase = .acquire) ∧ ((∀ l, l / 2 = lane / 2 → (laneOf s l).train ≠ none ∧ (l ≠ lane → (laneOf s l).blockLock = true))) :=
  ⟨modLanes 1 (fun l => { l with train := some 0, blockLock := true }) (modPort 1 (fun x => { x with state := .bringup }) domainsOn) |> modLane 2 (fun l => { l with blockLock := false }), 2, ⟨by decide, by
    intro l hl
    have : l = 2 ∨ l = 3 := by omega
    rcases this with rfl | rfl <;> decide⟩⟩
theorem witness_LaneBringUp_3 :
    ∃ (s : State) (lane : Nat), (portExists s (lane / 2) = true ∧ portListens (portOf s (lane / 2)) = true ∧ (laneOf s lane).blockLock = false ∧ (portOf s (lane / 2)).state ≠ .test) :=
  ⟨modPort 1 (fun x => { x with state := .dormant, probeOn := true }) domainsOn, 2, by decide⟩
theorem witness_LaneBringUp_4 :
    ∃ (s : State) (lane : Nat), (portExists s (lane / 2) = true ∧ (portListens (portOf s (lane / 2)) = false ∨ (laneOf s lane).blockLock = true ∨ (portOf s (lane / 2)).state = .test)) :=
  ⟨domainsOn, 2, by decide⟩
theorem witness_LaneBringUp_5 :
    ∃ (s : State) (lane : Nat), (portExists s (lane / 2) = true ∧ (laneOf s lane).blockLock = true) :=
  ⟨modLane 2 (fun l => { l with blockLock := true }) domainsOn, 2, by decide⟩
theorem witness_LaneBringUp_6 :
    ∃ (s : State) (lane : Nat), (portExists s (lane / 2) = true ∧ (laneOf s lane).blockLock = false) :=
  ⟨domainsOn, 2, by decide⟩
theorem witness_LaneBringUp_7 :
    ∃ (s : State) (lane : Nat) (w : Word), (portExists s (lane / 2) = true) ∧ ((laneOf s lane).blockLock = false ∨ trainCheckOk w = false ∨ trPhase w ≠ 7 ∧ ((portOf s (lane / 2)).state = .off ∨ (portOf s (lane / 2)).state = .test ∨ (portOf s (lane / 2)).state = .dormant ∧ (portOf s (lane / 2)).probeOn = false) ∨ trPhase w = 7 ∧ (trCount w ≠ 0 ∨ fieldOf w 46 43 = 0 ∨ 3 < fieldOf w 46 43 ∨ portBusy s (lane / 2) = true ∨ (portOf s (lane / 2)).state ≠ .active ∧ (portOf s (lane / 2)).state ≠ .standby)) :=
  ⟨domainsOn, 2, laneWord 0, by decide⟩
theorem witness_LaneBringUp_8 :
    ∃ (s : State) (lane : Nat) (w : Word), (portExists s (lane / 2) = true ∧ (laneOf s lane).blockLock = true ∧ trainCheckOk w = true ∧ trPhase w ≠ 7) ∧ ((portOf s (lane / 2)).waiting ≠ some .retrain ∧ s.plan.activated = false ∧ ((portOf s (lane / 2)).state = .active ∨ (portOf s (lane / 2)).state = .standby)) :=
  ⟨modLane 2 (fun l => { l with blockLock := true }) (modPort 1 (fun x => { x with state := .active }) domainsOn), 2, laneWord 0, by decide +kernel⟩
theorem witness_LaneBringUp_9 :
    ∃ (s : State) (lane : Nat) (w : Word), (portExists s (lane / 2) = true ∧ (laneOf s lane).blockLock = true ∧ trainCheckOk w = true ∧ trPhase w ≠ 7) ∧ ((portOf s (lane / 2)).waiting ≠ some .retrain ∧ s.plan.activated = false ∧ (portOf s (lane / 2)).state = .dormant ∧ (portOf s (lane / 2)).probeOn = true) :=
  ⟨modLane 2 (fun l => { l with blockLock := true }) (modPort 1 (fun x => { x with state := .dormant, probeOn := true }) domainsOn), 2, laneWord 0, by decide +kernel⟩
theorem witness_LaneBringUp_10 :
    ∃ (s : State) (lane : Nat) (w : Word), (portExists s (lane / 2) = true ∧ (laneOf s lane).blockLock = true ∧ trainCheckOk w = true ∧ trPhase w = 7 ∧ trCount w = 0) ∧ (1 ≤ fieldOf w 46 43 ∧ fieldOf w 46 43 ≤ 3 ∧ portBusy s (lane / 2) = false ∧ ((portOf s (lane / 2)).state = .active ∨ (portOf s (lane / 2)).state = .standby)) :=
  ⟨modLane 2 (fun l => { l with blockLock := true }) (modPort 1 (fun x => { x with state := .active }) domainsOn), 2, testWord, by decide +kernel⟩
theorem witness_LaneBringUp_11 :
    ∃ (s : State) (lane o : Nat) (w : Word), (portExists s (lane / 2) = true ∧ (laneOf s lane).blockLock = true ∧ trainCheckOk w = true ∧ trPhase w ≠ 7 ∧ (portOf s (lane / 2)).state = .bringup ∧ (portOf s (lane / 2)).phase ≠ .tune) ∧ (o / 2 = lane / 2 ∧ o ≠ lane ∧ (laneOf s o).train = none) :=
  ⟨modLane 2 (fun l => { l with blockLock := true }) (modPort 1 (fun x => { x with state := .bringup }) domainsOn), 2, 3, laneWord 0, by decide +kernel⟩
theorem witness_LaneBringUp_12 :
    ∃ (s : State) (lane : Nat) (w : Word), (portExists s (lane / 2) = true ∧ (laneOf s lane).blockLock = true ∧ trainCheckOk w = true ∧ trPhase w ≠ 7 ∧ (portOf s (lane / 2)).state = .bringup ∧ (portOf s (lane / 2)).phase = .tune) :=
  ⟨modLanes 1 (fun l => { l with blockLock := true }) (modPort 1 (fun x => { x with state := .bringup, phase := .tune, gen := 1 }) domainsOn), 2, laneWord 0, by decide +kernel⟩
theorem witness_LaneBringUp_13 :
    ∃ (s : State) (p : Nat), (portExists s p = true ∧ (portOf s p).state = .bringup ∧ (portOf s p).bring ≠ .rebring ∧ (portOf s p).tries < 2) :=
  ⟨modPort 1 (fun x => { x with state := .bringup, gen := 1 }) domainsOn, 1, by decide⟩
theorem witness_LaneBringUp_14 :
    ∃ (s : State) (p : Nat), (portExists s p = true ∧ (portOf s p).state = .bringup ∧ (portOf s p).bring ≠ .rebring ∧ 2 ≤ (portOf s p).tries ∧ 1 < (portOf s p).gen) :=
  ⟨modPort 1 (fun x => { x with state := .bringup, gen := 2, tries := 2 }) domainsOn, 1, by decide⟩
theorem witness_LaneBringUp_15 :
    ∃ (s : State) (p : Nat), (portExists s p = true ∧ (portOf s p).state = .bringup ∧ (portOf s p).bring ≠ .rebring ∧ 2 ≤ (portOf s p).tries ∧ (portOf s p).gen ≤ 1) :=
  ⟨modPort 1 (fun x => { x with state := .bringup, gen := 1, tries := 2 }) domainsOn, 1, by decide⟩
theorem witness_LaneBringUp_16 :
    ∃ (s : State) (p : Nat), (portExists s p = true ∧ (portOf s p).state = .bringup ∧ (portOf s p).bring = .rebring) :=
  ⟨modPort 1 (fun x => { x with state := .bringup, gen := 2, bring := .rebring }) domainsOn, 1, by decide⟩
theorem witness_LaneBringUp_17 :
    ∃ (s : State) (p : Nat), (portExists s p = true ∧ (portOf s p).state ≠ .bringup) :=
  ⟨domainsOn, 1, by decide⟩
theorem witness_LaneBringUp_18 :
    ∃ (s : State) (p : Nat), (portExists s p = true ∧ (portOf s p).state ≠ .dormant) :=
  ⟨domainsOn, 1, by decide⟩
theorem witness_LaneBringUp_19 :
    ∃ (s : State) (p : Nat), (portExists s p = true ∧ ((portOf s p).state ≠ .active ∨ (portOf s p).missRun < 100)) :=
  ⟨domainsOn, 1, by decide⟩
theorem witness_LaneBringUp_20 :
    ∃ (s : State) (p : Nat), (portExists s p = true ∧ (portOf s p).state = .dormant ∧ (portOf s p).waiting ≠ some .retrain) ∧ (s.plan.activated = false ∨ (bringing s p = [] ∧ ∀ q, q ≠ p → (portOf s q).waiting = none)) :=
  ⟨modPort 1 (fun x => { x with state := .dormant }) domainsOn, 1, by decide, .inl (by decide)⟩
theorem witness_LaneBringUp_21 :
    ∃ (s : State) (p : Nat), (portExists s p = true ∧ (portOf s p).state = .active ∧ 100 ≤ (portOf s p).missRun ∧ (portOf s p).gen ≠ 0 ∧ (portOf s p).waiting ≠ some .retrain) ∧ (s.plan.activated = false ∨ (bringing s p = [] ∧ ∀ q, q ≠ p → (portOf s q).waiting = none)) :=
  ⟨modPort 1 (fun x => { x with state := .active, missRun := 100, gen := 2 }) domainsOn, 1, by decide, .inl (by decide)⟩
theorem witness_LaneBringUp_22 :
    ∃ (s : State) (p q : Nat) (qs : List Nat), (portExists s p = true ∧ s.plan.activated = true ∧ bringing s p = q :: qs ∧ (portOf s p).state = .dormant ∧ (portOf s p).waiting ≠ some .retrain) :=
  ⟨{ modPort 2 (fun x => { x with state := .bringup }) (modPort 1 (fun x => { x with state := .dormant }) domainsOn) with plan := { activated := true } }, 1, 2, [], by decide⟩
theorem witness_LaneBringUp_23 :
    ∃ (s : State) (p q : Nat), (portExists s p = true ∧ s.plan.activated = true ∧ bringing s p = [q] ∧ (portOf s q).bring = .probe ∧ (portOf s p).state = .active ∧ 100 ≤ (portOf s p).missRun ∧ (portOf s p).waiting = some .retrain) :=
  ⟨{ modPort 2 (fun x => { x with state := .bringup, bring := .probe }) (modPort 1 (fun x => { x with state := .active, missRun := 100, waiting := some .retrain }) domainsOn) with plan := { activated := true } }, 1, 2, by decide⟩
theorem witness_LaneBringUp_24 :
    ∃ (s : State) (p : Nat), (portExists s p = true ∧ (portOf s p).state = .dormant ∧ (portOf s p).probing = true ∧ (portOf s p).probeOn = false) :=
  ⟨modPort 1 (fun x => { x with state := .dormant, probing := true }) domainsOn, 1, by decide⟩
theorem witness_LaneBringUp_25 :
    ∃ (s : State) (p : Nat), (portExists s p = true ∧ ((portOf s p).state ≠ .dormant ∨ (portOf s p).probing = false ∨ (portOf s p).probeOn = true)) :=
  ⟨domainsOn, 1, by decide⟩
theorem witness_LaneBringUp_26 :
    ∃ (s : State) (p : Nat), (portExists s p = true ∧ (portOf s p).probeOn = true) :=
  ⟨modPort 1 (fun x => { x with state := .dormant, probing := true, probeOn := true }) domainsOn, 1, by decide⟩
theorem witness_LaneBringUp_27 :
    ∃ (s : State) (p : Nat), (portExists s p = true ∧ (portOf s p).probeOn = false) :=
  ⟨domainsOn, 1, by decide⟩
theorem witness_LaneBringUp_28 :
    ∃ (s : State) (p : Nat) (k : Bring), (nextWaiting s frontPorts = some p ∧ (portOf s p).waiting = some k ∧ nextWaiting s peerPorts = none) ∧ ((s.plan.activated = false ∨ (frontPorts.any fun p => (portOf s p).state == .bringup) = false)) ∧ (k ≠ .rebring) :=
  ⟨modPort 1 (fun x => { x with state := .dormant, waiting := some .full }) domainsOn, 1, .full, by decide⟩
theorem witness_LaneBringUp_29 :
    ∃ (s : State), (nextWaiting s frontPorts = none ∧ nextWaiting s peerPorts = none) :=
  ⟨domainsOn, by decide⟩
theorem witness_LaneBringUp_30 :
    ∃ (s : State) (l : Nat), (portExists s (l / 2) = true ∧ (portOf s (l / 2)).state = .test ∧ (laneOf s l).prbsLocked = false ∧ (laneOf s l).prbsSeen = List.replicate 64 false) :=
  ⟨modLane 2 (fun x => { x with prbsSeen := List.replicate 64 false }) (modPort 1 (fun x => { x with state := .test, pattern := 1 }) domainsOn), 2, by decide⟩
theorem witness_LaneBringUp_31 :
    ∃ (s : State) (l : Nat), (portExists s (l / 2) = true ∧ ((portOf s (l / 2)).state ≠ .test ∨ (laneOf s l).prbsLocked = true ∨ (laneOf s l).prbsSeen ≠ List.replicate 64 false)) :=
  ⟨domainsOn, 2, by decide⟩
theorem witness_LaneBringUp_32 :
    ∃ (s : State) (l : Nat), (portExists s (l / 2) = true ∧ (portOf s (l / 2)).state = .test ∧ (laneOf s l).prbsLocked = true ∧ 32 ≤ ((laneOf s l).prbsSeen.filter id).length) :=
  ⟨modLane 2 (fun x => { x with prbsLocked := true, prbsSeen := List.replicate 64 true }) (modPort 1 (fun x => { x with state := .test, pattern := 1 }) domainsOn), 2, by decide⟩
theorem witness_LaneBringUp_33 :
    ∃ (s : State) (l : Nat), (portExists s (l / 2) = true ∧ ((portOf s (l / 2)).state ≠ .test ∨ (laneOf s l).prbsLocked = false ∨ ((laneOf s l).prbsSeen.filter id).length < 32)) :=
  ⟨domainsOn, 2, by decide⟩
/-- States and operands that meet the hypotheses of each clause of `FrontEndMessages`. -/
theorem witness_FrontEndMessages_1 :
    ∃ (s : State) (p : Nat), (frontExists s p = true ∧ feActive s p = false) :=
  ⟨domainsOn, 1, by decide⟩
theorem witness_FrontEndMessages_2 :
    ∃ (s : State) (p : Nat), (frontExists s p = true ∧ feActive s p = false) :=
  ⟨domainsOn, 1, by decide⟩
theorem witness_FrontEndMessages_3 :
    ∃ (s : State) (p : Nat), (frontExists s p = true ∧ feActive s p = false) :=
  ⟨domainsOn, 1, by decide⟩
theorem witness_FrontEndMessages_4 :
    ∃ (s : State) (p : Nat), (frontExists s p = true ∧ feActive s p = false) :=
  ⟨domainsOn, 1, by decide⟩
theorem witness_FrontEndMessages_5 :
    ∃ (s : State) (p : Nat), (frontExists s p = true ∧ feActive s p = false) :=
  ⟨domainsOn, 1, by decide⟩
theorem witness_FrontEndMessages_6 :
    ∃ (s : State) (p : Nat), (frontExists s p = true ∧ feActive s p = false) :=
  ⟨domainsOn, 1, by decide⟩
theorem witness_FrontEndMessages_7 :
    ∃ (s : State) (p : Nat), (frontExists s p = true ∧ feActive s p = false) :=
  ⟨domainsOn, 1, by decide⟩
theorem witness_FrontEndMessages_8 :
    ∃ (s : State) (p : Nat), (frontExists s p = true ∧ feActive s p = false) :=
  ⟨domainsOn, 1, by decide⟩
theorem witness_FrontEndMessages_9 :
    ∃ (s : State) (p : Nat), (frontExists s p = true ∧ feActive s p = true ∧ (portOf s p).cal ≠ .identWait) :=
  ⟨modPort 1 (fun x => { x with state := .active, cal := .ready }) domainsOn, 1, by decide⟩
theorem witness_FrontEndMessages_10 :
    ∃ (s : State) (p : Nat) (ws : List Word), (frontExists s p = true ∧ feActive s p = true ∧ (portOf s p).cal = .identWait) ∧ ((portOf s p).calWords ≠ [] ∧ (portOf s p).feSerial = ws.getD 0 0 ∧ (portOf s p).calEpoch = fieldOf (ws.getD 1 0) 23 8) :=
  ⟨modPort 1 (fun x => { x with state := .active, calWords := [1], feSerial := 7 }) domainsOn, 1, [7, 0], by decide⟩
theorem witness_FrontEndMessages_11 :
    ∃ (s : State) (p : Nat) (ws : List Word), (frontExists s p = true ∧ feActive s p = true ∧ (portOf s p).cal = .identWait) ∧ ((portOf s p).calWords = [] ∨ (portOf s p).feSerial ≠ ws.getD 0 0 ∨ (portOf s p).calEpoch ≠ fieldOf (ws.getD 1 0) 23 8) :=
  ⟨modPort 1 (fun x => { x with state := .active }) domainsOn, 1, [7, 0], by decide⟩
theorem witness_FrontEndMessages_12 :
    ∃ (s : State) (p : Nat), (frontExists s p = true ∧ feActive s p = true ∧ (portOf s p).cal ≠ .calWait) :=
  ⟨modPort 1 (fun x => { x with state := .active }) domainsOn, 1, by decide⟩
theorem witness_FrontEndMessages_13 :
    ∃ (s : State) (p : Nat), (frontExists s p = true ∧ feActive s p = true ∧ (portOf s p).cal = .calWait) :=
  ⟨modPort 1 (fun x => { x with state := .active, cal := .calWait, calRun := true }) domainsOn, 1, by decide⟩
theorem witness_FrontEndMessages_14 :
    ∃ (s : State) (p : Nat), (frontExists s p = true ∧ feActive s p = true) :=
  ⟨modPort 1 (fun x => { x with state := .active }) domainsOn, 1, by decide⟩
theorem witness_FrontEndMessages_15 :
    ∃ (s : State) (p : Nat), (frontExists s p = true ∧ feActive s p = true) :=
  ⟨modPort 1 (fun x => { x with state := .active }) domainsOn, 1, by decide⟩
theorem witness_FrontEndMessages_16 :
    ∃ (s : State) (p : Nat) (g : Message), (frontExists s p = true ∧ feActive s p = true ∧ (portOf s p).messages.filter (fun g => decide (g.sentAt + 100 ≤ s.clk.now)) = [g] ∧ g.sends < 3) :=
  ⟨atTime 100 (modPort 1 (fun x => { x with state := .active, messages := [{ mtype := 1 }] }) domainsOn), 1, { mtype := 1 }, by decide⟩
theorem witness_FrontEndMessages_17 :
    ∃ (s : State) (p : Nat) (g : Message), (frontExists s p = true ∧ feActive s p = true ∧ (portOf s p).messages.filter (fun g => decide (g.sentAt + 100 ≤ s.clk.now)) = [g] ∧ 3 ≤ g.sends ∧ (g.mtype ≠ 0x02 ∨ (portOf s p).calRun = false)) :=
  ⟨atTime 100 (modPort 1 (fun x => { x with state := .active, messages := [{ mtype := 1, sends := 3 }] }) domainsOn), 1, { mtype := 1, sends := 3 }, by decide⟩
theorem witness_FrontEndMessages_18 :
    ∃ (s : State) (p : Nat) (g : Message), (frontExists s p = true ∧ feActive s p = true ∧ (portOf s p).messages.filter (fun g => decide (g.sentAt + 100 ≤ s.clk.now)) = [g] ∧ 3 ≤ g.sends ∧ g.mtype = 0x02 ∧ (portOf s p).calRun = true ∧ (portOf s p).calDue = false) :=
  ⟨atTime 100 (modPort 1 (fun x => { x with state := .active, cal := .calWait, calRun := true, messages := [{ mtype := 2, sends := 3 }] }) domainsOn), 1, { mtype := 2, sends := 3 }, by decide⟩
theorem witness_FrontEndMessages_19 :
    ∃ (s : State) (p : Nat), (frontExists s p = true ∧ feActive s p = true) :=
  ⟨modPort 1 (fun x => { x with state := .active }) domainsOn, 1, by decide⟩
theorem witness_FrontEndMessages_20 :
    ∃ (s : State) (p : Nat), (frontExists s p = true ∧ feActive s p = true ∧ 3 ≤ (portOf s p).missRun ∧ (portOf s p).degraded = false) :=
  ⟨modPort 1 (fun x => { x with state := .active, missRun := 3 }) domainsOn, 1, by decide⟩
theorem witness_FrontEndMessages_21 :
    ∃ (s : State) (p : Nat), (frontExists s p = true ∧ feActive s p = true ∧ ((portOf s p).missRun < 3 ∨ (portOf s p).degraded = true)) :=
  ⟨modPort 1 (fun x => { x with state := .active }) domainsOn, 1, by decide⟩
theorem witness_FrontEndMessages_22 :
    ∃ (s : State) (p : Nat), (frontExists s p = true ∧ feActive s p = true ∧ 8 ≤ (portOf s p).goodRun) :=
  ⟨modPort 1 (fun x => { x with state := .active, goodRun := 8 }) domainsOn, 1, by decide⟩
theorem witness_FrontEndMessages_23 :
    ∃ (s : State) (p : Nat), (frontExists s p = true ∧ feActive s p = true ∧ (portOf s p).goodRun < 8) :=
  ⟨modPort 1 (fun x => { x with state := .active }) domainsOn, 1, by decide⟩
theorem witness_FrontEndMessages_24 :
    ∃ (s : State) (p : Nat), (frontExists s p = true ∧ feActive s p = true ∧ (portOf s p).cal = .measure ∧ (portOf s p).measured = true ∧ (portOf s p).configOk = true ∧ (portOf s p).calDue = false) :=
  ⟨modPort 1 (fun x => { x with state := .active, cal := .measure, measured := true, configOk := true }) domainsOn, 1, by decide⟩
theorem witness_FrontEndMessages_25 :
    ∃ (s : State) (p : Nat), (frontExists s p = true ∧ ((portOf s p).cal ≠ .measure ∨ (portOf s p).measured = false ∨ (portOf s p).configOk = false)) :=
  ⟨domainsOn, 1, by decide⟩
/-- States and operands that meet the hypotheses of each clause of `ClassDTraining`. -/
theorem witness_ClassDTraining_1 :
    ∃ (s : State) (c : Nat) (w : Word), (circuitExists s c = true ∧ (inTraining (feedOf s c) = false ∨ cdCheckOk w = false ∨ cdRole w = false)) :=
  ⟨feedPlan, 24, 0, by decide⟩
theorem witness_ClassDTraining_2 :
    ∃ (s : State) (c : Nat) (w : Word), (circuitExists s c = true ∧ inTraining (feedOf s c) = true ∧ cdCheckOk w = true ∧ cdRole w = true) ∧ (cdPhase w ≠ feedPhaseCode (feedOf s c).phase ∨ (feedOf s c).phase = .echo ∨ (feedOf s c).phase = .duplex ∧ (cdReady w = false ∨ cdSnr w < 32 ∨ (feedOf s c).snrOwn < 32) ∨ (feedOf s c).phase = .select ∧ cdChoice w ≠ choiceOf (feedOf s c)) :=
  ⟨setFeed 24 { state := .training } feedPlan, 24, trainingWord, by decide +kernel⟩
theorem witness_ClassDTraining_3 :
    ∃ (s : State) (c : Nat) (w : Word), (circuitExists s c = true ∧ inTraining (feedOf s c) = true ∧ cdCheckOk w = true ∧ cdRole w = true ∧ cdPhase w = 5 ∧ (feedOf s c).phase = .switch) :=
  ⟨setFeed 24 { state := .training, phase := .switch } feedPlan, 24, switchWord, by decide +kernel⟩
theorem witness_ClassDTraining_4 :
    ∃ (s : State) (c : Nat) (w : Word), (circuitExists s c = true ∧ inTraining (feedOf s c) = true ∧ cdCheckOk w = true ∧ cdRole w = true ∧ cdPhase w = 2) ∧ ((feedOf s c).phase = .duplex ∧ cdReady w = true ∧ 32 ≤ cdSnr w ∧ 32 ≤ (feedOf s c).snrOwn) :=
  ⟨setFeed 24 { state := .training, phase := .duplex, snrOwn := 300 } feedPlan, 24, duplexWord, by decide +kernel⟩
theorem witness_ClassDTraining_5 :
    ∃ (s : State) (c : Nat) (w : Word), (circuitExists s c = true ∧ inTraining (feedOf s c) = true ∧ cdCheckOk w = true ∧ cdRole w = true ∧ cdPhase w = 3) ∧ ((feedOf s c).phase = .select ∧ cdChoice w = choiceOf (feedOf s c)) :=
  ⟨setFeed 24 { state := .training, phase := .select } feedPlan, 24, selectWord, by decide +kernel⟩
theorem witness_ClassDTraining_6 :
    ∃ (s : State) (c : Nat) (w : Word), (circuitExists s c = true ∧ inTraining (feedOf s c) = true ∧ cdCheckOk w = true ∧ cdRole w = true ∧ cdPhase w = 4 ∧ (feedOf s c).phase = .precode) :=
  ⟨setFeed 24 { state := .training, phase := .precode } feedPlan, 24, precodeWord, by decide +kernel⟩
theorem witness_ClassDTraining_7 :
    ∃ (s : State) (c : Nat), (circuitExists s c = true ∧ inTraining (feedOf s c) = true ∧ (feedOf s c).phase = .switch ∧ 100 ≤ (feedOf s c).okRun) :=
  ⟨setFeed 24 { state := .training, phase := .switch, okRun := 100 } feedPlan, 24, by decide⟩
theorem witness_ClassDTraining_8 :
    ∃ (s : State) (c : Nat), (circuitExists s c = true ∧ (inTraining (feedOf s c) = false ∨ (feedOf s c).phase ≠ .switch ∨ (feedOf s c).okRun < 100)) :=
  ⟨feedPlan, 24, by decide⟩
theorem witness_ClassDTraining_9 :
    ∃ (s : State) (c : Nat), (circuitExists s c = true ∧ (feedOf s c).phaseAt + 5000 ≤ s.clk.now ∧ (feedOf s c).state = .retrain) :=
  ⟨atTime 5000 (setFeed 24 { state := .retrain } feedPlan), 24, by decide⟩
theorem witness_ClassDTraining_10 :
    ∃ (s : State) (c : Nat), (circuitExists s c = true ∧ (feedOf s c).phaseAt + 5000 ≤ s.clk.now ∧ (feedOf s c).state = .training ∧ (feedOf s c).phase = .switch) :=
  ⟨atTime 5000 (setFeed 24 { state := .training, phase := .switch } feedPlan), 24, by decide⟩
theorem witness_ClassDTraining_11 :
    ∃ (s : State) (c : Nat), (circuitExists s c = true ∧ (feedOf s c).phaseAt + 5000 ≤ s.clk.now ∧ (feedOf s c).state = .training ∧ ((feedOf s c).phase = .echo ∨ (feedOf s c).phase = .duplex) ∧ (feedOf s c).fast = true) :=
  ⟨atTime 5000 (setFeed 24 { state := .training } feedPlan), 24, by decide⟩
theorem witness_ClassDTraining_12 :
    ∃ (s : State) (c : Nat), (circuitExists s c = true ∧ (feedOf s c).phaseAt + 5000 ≤ s.clk.now ∧ (feedOf s c).state = .training) ∧ ((feedOf s c).phase = .select ∨ (feedOf s c).phase = .precode ∨ ((feedOf s c).phase ≠ .switch ∧ (feedOf s c).fast = false)) :=
  ⟨atTime 5000 (setFeed 24 { state := .training, phase := .select } feedPlan), 24, by decide⟩
theorem witness_ClassDTraining_13 :
    ∃ (s : State) (c : Nat), (circuitExists s c = true ∧ (inTraining (feedOf s c) = false ∨ s.clk.now < (feedOf s c).phaseAt + 5000)) :=
  ⟨feedPlan, 24, by decide⟩
theorem witness_ClassDTraining_14 :
    ∃ (s : State) (c : Nat), (circuitExists s c = true ∧ inTraining (feedOf s c) = true ∧ (feedOf s c).startedAt + 200000 ≤ s.clk.now) :=
  ⟨atTime 200000 (setFeed 24 { state := .training } feedPlan), 24, by decide⟩
theorem witness_ClassDTraining_15 :
    ∃ (s : State) (c : Nat), (circuitExists s c = true ∧ (inTraining (feedOf s c) = false ∨ s.clk.now < (feedOf s c).startedAt + 200000)) :=
  ⟨feedPlan, 24, by decide⟩
theorem witness_ClassDTraining_16 :
    ∃ (s : State) (c : Nat), (circuitExists s c = true ∧ (feedOf s c).state = .search ∧ s.circ.profile ≠ 0 ∧ (feedOf s c).startedAt + 1000000 ≤ s.clk.now) :=
  ⟨atTime 1000000 { setFeed 24 { state := .search } feedPlan with circ := { profile := 1 } }, 24, by decide⟩
theorem witness_ClassDTraining_17 :
    ∃ (s : State) (c : Nat), (circuitExists s c = true ∧ ((feedOf s c).state ≠ .search ∨ s.circ.profile = 0 ∨ s.clk.now < (feedOf s c).startedAt + 1000000)) :=
  ⟨setFeed 24 { state := .search } feedPlan, 24, by decide⟩
theorem witness_ClassDTraining_18 :
    ∃ (s : State) (c : Nat), (circuitExists s c = true ∧ (feedOf s c).state = .up ∧ 8 ≤ (feedOf s c).missed) :=
  ⟨setFeed 24 { state := .up, missed := 8 } feedPlan, 24, by decide⟩
theorem witness_ClassDTraining_19 :
    ∃ (s : State) (c : Nat), (circuitExists s c = true ∧ (feedOf s c).state = .up ∧ 9 ≤ (circOf s c).clipRun) :=
  ⟨setCirc 24 { clipRun := 9 } (setFeed 24 { state := .up } feedPlan), 24, by decide⟩
theorem witness_ClassDTraining_20 :
    ∃ (s : State) (c : Nat), (circuitExists s c = true ∧ (feedOf s c).state = .up ∧ (feedOf s c).reverted = true ∧ 1000 ≤ (feedOf s c).mseRun) :=
  ⟨setFeed 24 { state := .up, reverted := true, mseRun := 1000 } feedPlan, 24, by decide⟩
theorem witness_ClassDTraining_21 :
    ∃ (s : State) (c : Nat), (circuitExists s c = true ∧ (feedOf s c).state = .up ∧ ((feedOf s c).drifted = true ∨ 1000 ≤ (feedOf s c).mseRun ∧ (feedOf s c).reverted = false)) :=
  ⟨setFeed 24 { state := .up, drifted := true } feedPlan, 24, by decide⟩
theorem witness_ClassDTraining_22 :
    ∃ (s : State) (c : Nat), (circuitExists s c = true ∧ ((feedOf s c).state ≠ .up ∨ (feedOf s c).missed < 8)) :=
  ⟨feedPlan, 24, by decide⟩
theorem witness_ClassDTraining_23 :
    ∃ (s : State) (c : Nat), (circuitExists s c = true ∧ ((feedOf s c).state ≠ .up ∨ (circOf s c).clipRun < 9)) :=
  ⟨feedPlan, 24, by decide⟩
theorem witness_ClassDTraining_24 :
    ∃ (s : State) (c : Nat), (circuitExists s c = true ∧ ((feedOf s c).state ≠ .up ∨ (feedOf s c).drifted = false ∧ ((feedOf s c).mseRun < 1000 ∨ (feedOf s c).reverted = true))) :=
  ⟨feedPlan, 24, by decide⟩
theorem witness_ClassDTraining_25 :
    ∃ (s : State) (c : Nat), (circuitExists s c = true ∧ ((feedOf s c).state ≠ .up ∨ (feedOf s c).reverted = false ∨ (feedOf s c).mseRun < 1000)) :=
  ⟨feedPlan, 24, by decide⟩
/-- States and operands that meet the hypotheses of each clause of `HostLinkAndDeviceMemory`. -/
theorem witness_HostLinkAndDeviceMemory_1 :
    ∃ (s : State), (domOn s 3 = true ∧ s.host.up = false) :=
  ⟨domainsOn, by decide⟩
theorem witness_HostLinkAndDeviceMemory_2 :
    ∃ (s : State), (domOn s 3 = false ∨ s.host.up = true) :=
  ⟨default, by decide⟩
theorem witness_HostLinkAndDeviceMemory_3 :
    ∃ (s : State), (s.host.up = true ∧ (∀ a, s.aead.run = some a → a.requester ≠ 4)) :=
  ⟨{ domainsOn with host := { up := true } }, ⟨by decide, by intro a h; cases h⟩⟩
theorem witness_HostLinkAndDeviceMemory_4 :
    ∃ (s : State), (s.host.up = true ∧ (∀ a, s.aead.run = some a → a.requester ≠ 4)) :=
  ⟨{ domainsOn with host := { up := true } }, ⟨by decide, by intro a h; cases h⟩⟩
theorem witness_HostLinkAndDeviceMemory_5 :
    ∃ (s : State), (s.host.up = false) :=
  ⟨domainsOn, by decide⟩
theorem witness_HostLinkAndDeviceMemory_6 :
    ∃ (s : State), (s.host.up = false) :=
  ⟨domainsOn, by decide⟩
theorem witness_HostLinkAndDeviceMemory_7 :
    ∃ (s : State) (a : AeadRun), (s.host.up = true ∧ s.aead.run = some a ∧ a.requester = 4) :=
  ⟨{ domainsOn with host := { up := true }, aead := { run := some { requester := 4 } } }, { requester := 4 }, by decide⟩
theorem witness_HostLinkAndDeviceMemory_8 :
    ∃ (s : State), (s.host.up = true ∧ s.host.pcieOnly = false ∧ s.host.ideFailed = false) :=
  ⟨{ domainsOn with host := { up := true } }, by decide⟩
theorem witness_HostLinkAndDeviceMemory_9 :
    ∃ (s : State), (s.host.up = false ∨ s.host.pcieOnly = true ∨ s.host.ideFailed = true) :=
  ⟨domainsOn, by decide⟩
theorem witness_HostLinkAndDeviceMemory_10 :
    ∃ (s : State) (a : Nat), (a < 25769803776 ∧ cxlMemServed s = true ∧ s.host.hdmCommitted = true) :=
  ⟨{ domainsOn with host := { up := true, hdmCommitted := true } }, 25769803775, by decide⟩
theorem witness_HostLinkAndDeviceMemory_11 :
    ∃ (s : State) (a : Nat), (a < 25769803776 ∧ cxlMemServed s = true ∧ s.host.hdmCommitted = false) :=
  ⟨{ domainsOn with host := { up := true } }, 0, by decide⟩
theorem witness_HostLinkAndDeviceMemory_12 :
    ∃ (s : State) (a : Nat), (a < 25769803776 ∧ cxlMemServed s = false) :=
  ⟨domainsOn, 0, by decide⟩
theorem witness_HostLinkAndDeviceMemory_13 :
    ∃ (s : State) (a : Nat) (line : List Byte), (a < 25769803776 ∧ cxlMemServed s = true ∧ s.host.hdmCommitted = true ∧ regionKindAt s a = 7 ∧ line.length = 64) :=
  ⟨{ domainsOn with host := { up := true, hdmCommitted := true } }, 25769803712, List.replicate 64 7, by decide⟩
theorem witness_HostLinkAndDeviceMemory_14 :
    ∃ (s : State) (a : Nat), (a < 25769803776 ∧ cxlMemServed s = true ∧ s.host.hdmCommitted = true ∧ regionKindAt s a ≠ 7) :=
  ⟨{ domainsOn with host := { up := true, hdmCommitted := true } }, 0, by decide⟩
theorem witness_HostLinkAndDeviceMemory_15 :
    ∃ (s : State) (a : Nat), (a < 25769803776 ∧ (cxlMemServed s = false ∨ s.host.hdmCommitted = false)) :=
  ⟨domainsOn, 0, by decide⟩
/-- States and operands that meet the hypotheses of each clause of `RingsServed`. -/
theorem witness_RingsServed_1 :
    ∃ (s : State) (q : Nat), (q < 256 ∧ (mayFetch s q = false ∨ turnOf s q = false)) :=
  ⟨domainsOn, 3, by decide⟩
theorem witness_RingsServed_2 :
    ∃ (s : State) (q : Nat) (resp : DescFetch), (q < 256 ∧ mayFetch s q = true ∧ turnOf s q = true ∧ resp.desc ≠ .ok ∧ s.irq.log.length < 511) :=
  ⟨ringReady, 0, { desc := .timeout }, by decide⟩
theorem witness_RingsServed_3 :
    ∃ (s : State) (q : Nat) (resp : DescFetch), (q < 256 ∧ mayFetch s q = true ∧ turnOf s q = true ∧ resp.desc = .ok ∧ resp.write = .ok ∧ s.pair.role ≠ .standby) ∧ (descStatus s (resp.words.getD 0 0) (resp.words.getD 1 0) (resp.words.getD 3 0) ≠ 0) :=
  ⟨ringReady, 0, {}, by decide⟩
theorem witness_RingsServed_4 :
    ∃ (s : State) (q : Nat) (resp : DescFetch) (r : Record), (q < 256 ∧ mayFetch s q = true ∧ turnOf s q = true ∧ resp.desc = .ok ∧ resp.write = .ok ∧ resp.body = .ok ∧ s.pair.role ≠ .standby ∧ s.pair.journal = []) ∧ (descStatus s (resp.words.getD 0 0) (resp.words.getD 1 0) (resp.words.getD 3 0) = 0 ∧ descDest (resp.words.getD 1 0) ≠ 0xFFF) ∧ (recordAt s (descCircuit (resp.words.getD 1 0)) (descDest (resp.words.getD 1 0)) = some r) :=
  ⟨{ ringReady with link := { records := [{ circuit := 24, addr := some 5, epId := 77 }] }, plan := feedPlan.plan }, 0, { words := [0, 0x0004180050000000] }, { circuit := 24, addr := some 5, epId := 77 }, by decide⟩
theorem witness_RingsServed_5 :
    ∃ (s : State) (q : Nat) (resp : DescFetch), (q < 256 ∧ mayFetch s q = true ∧ turnOf s q = true ∧ resp.desc = .ok) :=
  ⟨ringReady, 0, {}, by decide⟩
theorem witness_RingsServed_6 :
    ∃ (s : State) (q : Nat), (q < 256 ∧ ((rxRing s q).held = [] ∨ ((rxRing s q).state ≠ .enabled ∧ (rxRing s q).state ≠ .draining) ∨ (rxRing s q).head = (rxRing s q).tail ∨ hostReachable s = false)) :=
  ⟨domainsOn, 3, by decide⟩
theorem witness_RingsServed_7 :
    ∃ (s : State) (q : Nat) (resp : DescFetch) (f : RxFrame) (fs : List RxFrame), (q < 256 ∧ (rxRing s q).held = f :: fs ∧ ((rxRing s q).state = .enabled ∨ (rxRing s q).state = .draining) ∧ (rxRing s q).head ≠ (rxRing s q).tail) ∧ (hostReachable s = true ∧ sendsAllowed s = true ∧ resp.desc = .ok ∧ resp.write = .ok ∧ badBuffer s (resp.words.getD 0 0) (resp.words.getD 1 0) = false) :=
  ⟨{ ringReady with host := { ringReady.host with rx := [(0, { state := .enabled, size := 8, tail := 1, held := [{}] })] } }, 0, { words := [0, 0x1800000000000000] }, {}, [], by decide⟩
theorem witness_RingsServed_8 :
    ∃ (s : State) (q : Nat) (resp : DescFetch) (f : RxFrame) (fs : List RxFrame), (q < 256 ∧ (rxRing s q).held = f :: fs ∧ (rxRing s q).state = .enabled ∧ (rxRing s q).head ≠ (rxRing s q).tail) ∧ (hostReachable s = true ∧ sendsAllowed s = true ∧ resp.desc = .ok ∧ badBuffer s (resp.words.getD 0 0) (resp.words.getD 1 0) = true) :=
  ⟨{ ringReady with host := { ringReady.host with rx := [(0, { state := .enabled, size := 8, tail := 1, held := [{}] })] } }, 0, { words := [0, 0] }, {}, [], by decide⟩
theorem witness_RingsServed_9 :
    ∃ (s : State) (rx : Bool) (q : Nat), (q < 256 ∧ 0 < (ringOf rx s q).unsignalled ∧ 0 < (ringOf rx s q).modCount ∧ (ringOf rx s q).modCount ≤ (ringOf rx s q).unsignalled) :=
  ⟨{ domainsOn with host := { up := true, rx := [(3, { unsignalled := 2, modCount := 2 })] } }, true, 3, by decide⟩
theorem witness_RingsServed_10 :
    ∃ (s : State) (rx : Bool) (q : Nat), (q < 256 ∧ 0 < (ringOf rx s q).unsignalled ∧ 0 < (ringOf rx s q).modCount ∧ (ringOf rx s q).oldest + (ringOf rx s q).modTicks ≤ s.clk.now) :=
  ⟨atTime 9 { domainsOn with host := { up := true, rx := [(3, { unsignalled := 1, modCount := 2, modTicks := 4, oldest := 5 })] } }, true, 3, by decide⟩
theorem witness_RingsServed_11 :
    ∃ (s : State) (rx : Bool) (q : Nat), (q < 256 ∧ ((ringOf rx s q).unsignalled = 0 ∨ (ringOf rx s q).modCount = 0 ∨ (ringOf rx s q).unsignalled < (ringOf rx s q).modCount)) :=
  ⟨domainsOn, true, 3, by decide⟩
theorem witness_RingsServed_12 :
    ∃ (s : State) (rx : Bool) (q : Nat), (q < 256 ∧ ((ringOf rx s q).unsignalled = 0 ∨ (ringOf rx s q).modCount = 0 ∨ s.clk.now < (ringOf rx s q).oldest + (ringOf rx s q).modTicks)) :=
  ⟨domainsOn, true, 3, by decide⟩
theorem witness_RingsServed_13 :
    ∃ (s : State) (rx : Bool) (q : Nat), (q < 256 ∧ (ringOf rx s q).state = .draining) ∧ ((if rx then (ringOf rx s q).head = (ringOf rx s q).tail ∨ (ringOf rx s q).held = [] ∨ (ringOf rx s q).cause ≠ 0 else (ringOf rx s q).accepted = 0)) :=
  ⟨{ domainsOn with host := { rx := [(3, { state := .draining })] } }, true, 3, by decide⟩
theorem witness_RingsServed_14 :
    ∃ (s : State) (rx : Bool) (q : Nat), (q < 256 ∧ ((ringOf rx s q).state ≠ .draining ∨ (if rx then (ringOf rx s q).head ≠ (ringOf rx s q).tail ∧ (ringOf rx s q).held ≠ [] ∧ (ringOf rx s q).cause = 0 else (ringOf rx s q).accepted ≠ 0))) :=
  ⟨domainsOn, true, 3, by decide⟩
theorem witness_RingsServed_15 :
    ∃ (s : State) (q : Nat), (q < 256 ∧ fetching s q = true ∧ s.irq.log.length < 511) :=
  ⟨ringReady, 0, by decide⟩
theorem witness_RingsServed_16 :
    ∃ (s : State) (q : Nat), (q < 256 ∧ ((rxRing s q).state = .enabled ∨ (rxRing s q).state = .draining) ∧ s.host.up = true ∧ domOn s 3 = true ∧ s.irq.log.length < 511) :=
  ⟨{ domainsOn with host := { up := true, rx := [(3, { state := .draining })] } }, 3, by decide⟩
theorem witness_RingsServed_17 :
    ∃ (s : State) (q : Nat), (fetching s q = false) :=
  ⟨domainsOn, 3, by decide⟩
theorem witness_RingsServed_18 :
    ∃ (s : State) (q : Nat), (q < 256 ∧ fetching s q = true ∧ s.irq.log.length < 511) :=
  ⟨ringReady, 0, by decide⟩
theorem witness_RingsServed_19 :
    ∃ (s : State) (q : Nat), (q < 256 ∧ ((rxRing s q).state = .enabled ∨ (rxRing s q).state = .draining) ∧ s.host.up = true ∧ domOn s 3 = true ∧ s.irq.log.length < 511) :=
  ⟨{ domainsOn with host := { up := true, rx := [(3, { state := .draining })] } }, 3, by decide⟩
theorem witness_RingsServed_20 :
    ∃ (s : State) (q : Nat), (fetching s q = false) :=
  ⟨domainsOn, 3, by decide⟩
/-- States and operands that meet the hypotheses of each clause of `TimeSources`. -/
theorem witness_TimeSources_1 :
    ∃ (s : State) (i n : Nat) (obs : PpsObs) (p : Int) (q : Bool), (i < 2 ∧ (labelsOf s i).waiting = none ∧ (labelsOf s i).sec = some n) ∧ (p = obs.phase - (if i = 0 then s.tku.settings.ppsDelay0 else s.tku.settings.ppsDelay1 : Nat) + ((nearSec s.tku.devUs : Int) - (n + 1 : Nat)) * 16000000000) ∧ (obs.freqOk = true ∧ obs.alignOk = true ∧ obs.intervalOk = true ∧ (srcOf s (i + 1)).disq = false) ∧ (q = ((srcOf s (i + 1)).qualified || decide (3 ≤ (srcOf s (i + 1)).run))) ∧ (s.tku.state = .acquire ∨ q = false ∨ p.natAbs ≤ s.tku.settings.jumpLimit * 16) :=
  ⟨{ domainsOn with tku := { labels := [(1, { sec := some 4 })] } }, 1, 4, {}, -80000000000, false, by decide⟩
theorem witness_TimeSources_2 :
    ∃ (s : State) (i n : Nat) (obs : PpsObs) (p : Int) (q : Bool), (i < 2 ∧ (labelsOf s i).waiting = none ∧ (labelsOf s i).sec = some n) ∧ (p = obs.phase - (if i = 0 then s.tku.settings.ppsDelay0 else s.tku.settings.ppsDelay1 : Nat) + ((nearSec s.tku.devUs : Int) - (n + 1 : Nat)) * 16000000000) ∧ (obs.freqOk = true ∧ obs.alignOk = true ∧ obs.intervalOk = true ∧ (srcOf s (i + 1)).disq = false) ∧ (q = ((srcOf s (i + 1)).qualified || decide (3 ≤ (srcOf s (i + 1)).run))) ∧ (s.tku.state ≠ .acquire ∧ q = true ∧ s.tku.settings.jumpLimit * 16 < p.natAbs) :=
  ⟨{ domainsOn with tku := { state := .locked, labels := [(1, { sec := some 4 })], src := [(2, { run := 3 })] } }, 1, 4, {}, -80000000000, true, by decide⟩
theorem witness_TimeSources_3 :
    ∃ (s : State) (i n : Nat) (obs : PpsObs) (p : Int), (i < 2 ∧ (labelsOf s i).waiting = none ∧ (labelsOf s i).sec = some n) ∧ (p = obs.phase - (if i = 0 then s.tku.settings.ppsDelay0 else s.tku.settings.ppsDelay1 : Nat) + ((nearSec s.tku.devUs : Int) - (n + 1 : Nat)) * 16000000000) ∧ ((obs.freqOk = false ∨ obs.alignOk = false ∨ (srcOf s (i + 1)).disq = true) ∧ (srcOf s (i + 1)).qualified = false) :=
  ⟨{ domainsOn with tku := { labels := [(1, { sec := some 4 })] } }, 1, 4, { freqOk := false }, -80000000000, by decide⟩
theorem witness_TimeSources_4 :
    ∃ (s : State) (i : Nat), (i < 2 ∧ (srcOf s (i + 1)).lastAt + 1100000 ≤ s.clk.now) :=
  ⟨atTime 1100000 domainsOn, 1, by decide⟩
theorem witness_TimeSources_5 :
    ∃ (s : State) (i : Nat), (i < 2 ∧ s.clk.now < (srcOf s (i + 1)).lastAt + 1100000) :=
  ⟨domainsOn, 1, by decide⟩
theorem witness_TimeSources_6 :
    ∃ (i : Nat), (i < 2) :=
  ⟨1, by decide⟩
theorem witness_TimeSources_7 :
    ∃ (s : State), ((srcOf s 3).lastAt + 100000 ≤ s.clk.now) :=
  ⟨atTime 100000 domainsOn, by decide⟩
theorem witness_TimeSources_8 :
    ∃ (s : State), (s.clk.now < (srcOf s 3).lastAt + 100000) :=
  ⟨domainsOn, by decide⟩
theorem witness_TimeSources_9 :
    ∃ (s : State), ((srcOf s 4).lastAt + 3000000 ≤ s.clk.now) :=
  ⟨atTime 3000000 domainsOn, by decide⟩
theorem witness_TimeSources_10 :
    ∃ (s : State), (s.clk.now < (srcOf s 4).lastAt + 3000000) :=
  ⟨domainsOn, by decide⟩
theorem witness_TimeSources_11 :
    ∃ (s : State) (k : Nat), (1 ≤ k ∧ k ≤ 4 ∧ (srcOf s k).disq = true ∧ (srcOf s k).disqAt + 60000000 ≤ s.clk.now) :=
  ⟨atTime 60000000 { domainsOn with tku := { src := [(3, { disq := true })] } }, 3, by decide⟩
theorem witness_TimeSources_12 :
    ∃ (s : State) (k : Nat), (1 ≤ k ∧ k ≤ 4 ∧ ((srcOf s k).disq = false ∨ s.clk.now < (srcOf s k).disqAt + 60000000)) :=
  ⟨domainsOn, 3, by decide⟩
theorem witness_TimeSources_13 :
    ∃ (m : List Byte) (early : Nat), (m.length ≠ 24 ∨ beField m 0 2 ≠ 0x4757 ∨ beField m 22 2 ≠ todCrc m ∨ early < 10 ∨ 900 < early) :=
  ⟨[], 100, by decide⟩
theorem witness_TimeSources_14 :
    ∃ (m : List Byte) (early : Nat), (m.length = 24 ∧ beField m 0 2 = 0x4757 ∧ beField m 22 2 = todCrc m ∧ 10 ≤ early ∧ early ≤ 900) ∧ (beField m 2 1 ≠ 0x01 ∨ beField m 3 1 ≠ 0x12) :=
  ⟨foreignMessage, 100, by decide +kernel⟩
theorem witness_TimeSources_15 :
    ∃ (s : State) (m : List Byte) (early : Nat), (m.length = 24 ∧ beField m 0 2 = 0x4757 ∧ beField m 22 2 = todCrc m ∧ 10 ≤ early ∧ early ≤ 900) ∧ (beField m 2 1 = 0x01 ∧ beField m 3 1 = 0x12) ∧ (s.tku.utcOffset = signedOf 16 (beField m 10 2) ∧ s.tku.leap = beField m 12 1 / 64 ∧ s.tku.leapAt = beField m 13 6) :=
  ⟨domainsOn, timeMessage, 100, by decide +kernel⟩
theorem witness_TimeSources_16 :
    ∃ (m : List Byte) (early : Nat), (m.length = 24 ∧ beField m 0 2 = 0x4757 ∧ beField m 22 2 = todCrc m ∧ 10 ≤ early ∧ early ≤ 900) ∧ (beField m 2 1 = 0x01 ∧ beField m 3 1 = 0x12) :=
  ⟨timeMessage, 100, by decide +kernel⟩
theorem witness_TimeSources_17 :
    ∃ (s : State), (timePort s = none) :=
  ⟨domainsOn, by decide⟩
theorem witness_TimeSources_18 :
    ∃ (s : State) (b m : Nat), (timePort s = some m) ∧ ((if peerRoleOf s m = 2 then timePeerOffset (portOf s (32 + m)) else pairOffset s (portOf s (32 + m)) b) = none) :=
  ⟨timePeer, 0, 1, by decide⟩
theorem witness_TimeSources_19 :
    ∃ (s : State) (b m : Nat) (o : Int), (timePort s = some m) ∧ ((if peerRoleOf s m = 2 then timePeerOffset (portOf s (32 + m)) else pairOffset s (portOf s (32 + m)) b) = some o) :=
  ⟨{ timePeer with port := { port := [(33, { state := .active, marks := [(0, 100)] })] } }, 0, 1, 50, by decide⟩
/-- States and operands that meet the hypotheses of each clause of `TimeSecondsAndEvidence`. -/
theorem witness_TimeSecondsAndEvidence_1 :
    ∃ (s : State), (s.tku.state = .locked ∧ s.tku.selected ≠ 0 ∧ (∀ k, (srcOf s k).qualified = false) ∧ s.tku.peerForced = false ∧ s.tku.peerOffsets = []) ∧ (s.tku.settingsDue = none ∧ s.tku.peerRoleDue = none ∧ s.link.rangeDue = none) :=
  ⟨{ domainsOn with tku := { state := .locked, selected := 1 } }, ⟨⟨rfl, by decide, fun _ => rfl, rfl, rfl⟩, by decide⟩⟩
theorem witness_TimeSecondsAndEvidence_2 :
    ∃ (s : State), (s.tku.state = .locked ∧ 86400 ≤ s.tku.lockedFor ∧ writable s [256, 257, 258, 259, 260] = true) :=
  ⟨{ domainsOn with tku := { state := .locked, lockedFor := 86400 } }, by decide⟩
theorem witness_TimeSecondsAndEvidence_3 :
    ∃ (s : State), (s.tku.state ≠ .locked ∨ s.tku.lockedFor < 86400 ∨ writable s [256, 257, 258, 259, 260] = false) :=
  ⟨domainsOn, by decide⟩
theorem witness_TimeSecondsAndEvidence_4 :
    ∃ (s : State) (sec : Nat) (d : List Word) (ds : List (Nat × List Word)), (s.ev.due = (sec, d) :: ds ∧ s.ev.started = true ∧ evidenceFull s = false ∧ hostReachable s = true) :=
  ⟨{ domainsOn with host := { up := true }, ev := { named := true, count := 16, started := true, due := [(0, [])] } }, 0, [], [], by decide⟩
theorem witness_TimeSecondsAndEvidence_5 :
    ∃ (s : State) (sec : Nat) (d : List Word) (ds : List (Nat × List Word)), (s.ev.due = (sec, d) :: ds ∧ s.ev.started = true ∧ (evidenceFull s = true ∨ hostReachable s = false)) :=
  ⟨{ domainsOn with ev := { named := true, count := 16, started := true, due := [(0, [])] } }, 0, [], [], by decide⟩
theorem witness_TimeSecondsAndEvidence_6 :
    ∃ (s : State) (sec : Nat) (d : List Word) (ds : List (Nat × List Word)), (s.ev.due = (sec, d) :: ds ∧ s.ev.started = true ∧ sec + 2 ≤ s.tku.devUs / 1000000) :=
  ⟨{ domainsOn with tku := { devUs := 2000000 }, ev := { named := true, count := 16, started := true, due := [(0, [])] } }, 0, [], [], by decide⟩
theorem witness_TimeSecondsAndEvidence_7 :
    ∃ (s : State) (sec : Nat) (d : List Word) (ds : List (Nat × List Word)), (s.ev.due = (sec, d) :: ds ∧ s.tku.devUs / 1000000 < sec + 2) :=
  ⟨{ domainsOn with ev := { named := true, count := 16, started := true, due := [(0, [])] } }, 0, [], [], by decide⟩
theorem witness_TimeSecondsAndEvidence_8 :
    ∃ (s : State), (s.ev.due = []) :=
  ⟨domainsOn, by decide⟩
theorem witness_TimeSecondsAndEvidence_9 :
    ∃ (s : State), (s.ev.due = []) :=
  ⟨domainsOn, by decide⟩
theorem witness_TimeSecondsAndEvidence_10 :
    ∃ (s : State) (sec : Nat) (d : List Word) (ds : List (Nat × List Word)), (s.ev.due = (sec, d) :: ds ∧ s.ev.started = false ∧ evidenceFull s = false ∧ hostReachable s = true) :=
  ⟨{ domainsOn with host := { up := true }, ev := { named := true, count := 16, due := [(0, [])] } }, 0, [], [], by decide⟩
theorem witness_TimeSecondsAndEvidence_11 :
    ∃ (s : State), (s.ev.started = true ∧ s.ev.mark + 1048576 ≤ s.ev.seq) :=
  ⟨{ domainsOn with ev := { started := true, seq := 1048576 } }, by decide⟩
theorem witness_TimeSecondsAndEvidence_12 :
    ∃ (s : State), (s.ev.started = false ∨ s.ev.seq < s.ev.mark + 1048576) :=
  ⟨domainsOn, by decide⟩
/-- States and operands that meet the hypotheses of each clause of `GrantListsAndSuperframes`. -/
theorem witness_GrantListsAndSuperframes_1 :
    ∃ (s : State) (n : Nat), (counting s = true) ∧ (n = s.sf.number + 1) ∧ (s.sf.closed = false) :=
  ⟨{ domainsOn with sf := { running := true, number := 4 } }, 5, by decide⟩
theorem witness_GrantListsAndSuperframes_2 :
    ∃ (s : State) (n : Nat), (counting s = false ∨ n ≠ s.sf.number + 1 ∨ s.sf.closed = true) :=
  ⟨domainsOn, 5, by decide⟩
theorem witness_GrantListsAndSuperframes_3 :
    ∃ (s : State), (4 ≤ s.sf.reuse) ∧ (s.sf.handed = none) :=
  ⟨{ domainsOn with sf := { reuse := 4 } }, by decide⟩
theorem witness_GrantListsAndSuperframes_4 :
    ∃ (s : State), (s.sf.reuse < 4 ∨ s.sf.handed ≠ none) :=
  ⟨domainsOn, by decide⟩
theorem witness_GrantListsAndSuperframes_5 :
    ∃ (s : State), (counting s = true ∧ s.sf.closed = false ∧ s.sf.t0 + 25 * nFixOf s.sf.mainsNom ≤ s.clk.now) :=
  ⟨atTime 20000 { domainsOn with sf := { running := true } }, by decide⟩
theorem witness_GrantListsAndSuperframes_6 :
    ∃ (s : State), (counting s = false ∨ s.sf.closed = true ∨ s.clk.now < s.sf.t0 + 25 * nFixOf s.sf.mainsNom) :=
  ⟨default, by decide⟩
theorem witness_GrantListsAndSuperframes_7 :
    ∃ (s : State), (domOn s 28 = true ∧ s.sf.running = true ∧ s.sf.closed = true ∧ s.sf.t0 + s.sf.len ≤ s.clk.now) :=
  ⟨atTime 20000 { domainsOn with sf := { running := true, closed := true } }, by decide⟩
theorem witness_GrantListsAndSuperframes_8 :
    ∃ (s : State), (domOn s 28 = true ∧ s.sf.running = false) :=
  ⟨domainsOn, by decide⟩
theorem witness_GrantListsAndSuperframes_9 :
    ∃ (s : State), (domOn s 28 = false ∨ s.sf.running = true ∧ (s.sf.closed = false ∨ s.clk.now < s.sf.t0 + s.sf.len)) :=
  ⟨default, by decide⟩
theorem witness_GrantListsAndSuperframes_10 :
    ∃ (s : State), (s.sf.state ≠ .free) ∧ (chosenRef s = none) :=
  ⟨{ domainsOn with sf := { state := .locked } }, by decide⟩
theorem witness_GrantListsAndSuperframes_11 :
    ∃ (s : State), (s.sf.state = .free ∨ (chosenRef s).isSome = true) :=
  ⟨domainsOn, by decide⟩
theorem witness_GrantListsAndSuperframes_12 :
    ∃ (s : State) (c : Nat), (circuitExists s c = true) ∧ (circuitActive s c = true) ∧ (2 ^ (circOf s c).set.chaffAge ≤ (circOf s c).sinceHalving) :=
  ⟨setCirc 24 { sinceHalving := 65536 } feedPlan, 24, by decide⟩
theorem witness_GrantListsAndSuperframes_13 :
    ∃ (s : State) (c : Nat), (circuitExists s c = true) ∧ (circuitActive s c = false ∨ (circOf s c).sinceHalving < 2 ^ (circOf s c).set.chaffAge) :=
  ⟨domainsOn, 24, by decide⟩
theorem witness_GrantListsAndSuperframes_14 :
    ∃ (s : State), (s.sf.running = true) ∧ (s.sf.mark + 1048576 ≤ s.sf.number) :=
  ⟨{ domainsOn with sf := { running := true } }, by decide⟩
theorem witness_GrantListsAndSuperframes_15 :
    ∃ (s : State), (s.sf.running = false ∨ s.sf.number < s.sf.mark + 1048576) :=
  ⟨domainsOn, by decide⟩
theorem witness_GrantListsAndSuperframes_16 :
    ∃ (s : State), (s.sf.running = true) ∧ (s.sf.number % 1024 = 0) :=
  ⟨{ domainsOn with sf := { running := true, number := 1024 } }, by decide⟩
theorem witness_GrantListsAndSuperframes_17 :
    ∃ (s : State), (s.sf.running = false ∨ s.sf.number % 1024 ≠ 0) :=
  ⟨domainsOn, by decide⟩
/-- States and operands that meet the hypotheses of each clause of `RedundantPair`. -/
theorem witness_RedundantPair_1 :
    ∃ (s : State) (q : Nat) (f : PeerFrame), (q < 4 ∧ peerRoleOf s q = 1 ∧ (portOf s (32 + q)).state = .active ∧ peerAccepted s q f = true) ∧ (s.pair.role = .candidate ∧ fieldOf (f.words.getD 0 0) 49 47 = 2) :=
  ⟨peerLinked .candidate, 1, peerMarker, ⟨by decide, by decide, by decide, peerMarker_accepted⟩, by decide⟩
theorem witness_RedundantPair_2 :
    ∃ (s : State) (q : Nat) (f : PeerFrame), (q < 4 ∧ peerRoleOf s q = 1 ∧ (portOf s (32 + q)).state = .active ∧ peerAccepted s q f = true) ∧ (s.pair.role = .active ∧ fieldOf (f.words.getD 0 0) 49 47 ≠ 2 ∧ asksCheckpoint (portOf s (32 + q)).gen f.words = false) :=
  ⟨peerLinked .active, 1, peerCandidate, ⟨by decide, by decide, by decide, peerCandidate_accepted⟩, by decide⟩
theorem witness_RedundantPair_3 :
    ∃ (s : State) (q : Nat) (f : PeerFrame), (q < 4 ∧ peerRoleOf s q = 1 ∧ (portOf s (32 + q)).state = .active ∧ peerAccepted s q f = true) ∧ (s.pair.role = .active ∧ fieldOf (f.words.getD 0 0) 49 47 ≠ 2 ∧ asksCheckpoint (portOf s (32 + q)).gen f.words = true) :=
  ⟨peerLinked .active, 1, peerAsks, ⟨by decide, by decide, by decide, peerAsks_accepted⟩, by decide⟩
theorem witness_RedundantPair_4 :
    ∃ (s : State) (q : Nat) (f : PeerFrame), (q < 4 ∧ (peerRoleOf s q ≠ 1 ∨ (portOf s (32 + q)).state ≠ .active ∨ peerAccepted s q f = false)) :=
  ⟨domainsOn, 3, {}, by decide⟩
theorem witness_RedundantPair_5 :
    ∃ (s : State) (q : Nat) (f : PeerFrame), (q < 4 ∧ (peerRoleOf s q ≠ 2 ∨ (portOf s (32 + q)).state ≠ .active ∨ portLocked s (32 + q) = false ∨ f.valid = false ∨ f.words.length ≠ frameLen (portOf s (32 + q)).gen)) :=
  ⟨domainsOn, 3, {}, by decide⟩
theorem witness_RedundantPair_6 :
    ∃ (s : State) (q : Nat) (f : PeerFrame), (q < 4 ∧ peerRoleOf s q = 2 ∧ (portOf s (32 + q)).state = .active ∧ portLocked s (32 + q) = true ∧ f.words.length = frameLen (portOf s (32 + q)).gen ∧ f.valid = true) ∧ (fieldOf (f.words.getD 0 0) 63 56 = (portOf s (32 + q)).gen * 16 + 4 ∧ fieldOf (f.words.getD (frameLen (portOf s (32 + q)).gen - 1) 0) 31 0 = frameCrc (f.words.take (frameLen (portOf s (32 + q)).gen - 1))) :=
  ⟨timePeer, 1, timePeerWords, ⟨by decide, by decide, by decide, by decide, by decide +kernel, by decide⟩, by decide, timePeerWords_check⟩
theorem witness_RedundantPair_7 :
    ∃ (s : State), (s.pair.role = .standby ∧ 3 ≤ s.pair.missed) :=
  ⟨{ domainsOn with pair := { role := .standby, sbState := 2, missed := 3 } }, by decide⟩
theorem witness_RedundantPair_8 :
    ∃ (s : State), (s.pair.role ≠ .standby ∨ s.pair.missed < 3) :=
  ⟨domainsOn, by decide⟩
theorem witness_RedundantPair_9 :
    ∃ (s : State), (s.pair.role = .active) ∧ (s.pair.afterTakeover = true) ∧ (8 ≤ s.pair.noFollower) :=
  ⟨{ domainsOn with pair := { role := .active, afterTakeover := true, noFollower := 8 } }, by decide⟩
theorem witness_RedundantPair_10 :
    ∃ (s : State), (s.pair.role ≠ .active ∨ s.pair.afterTakeover = false ∨ s.pair.noFollower < 8) :=
  ⟨domainsOn, by decide⟩
theorem witness_RedundantPair_11 :
    ∃ (s : State), (s.pair.role = .isolated) ∧ (s.pair.since + 1000000 ≤ s.clk.now) :=
  ⟨atTime 1000000 { domainsOn with pair := { role := .isolated } }, by decide⟩
theorem witness_RedundantPair_12 :
    ∃ (s : State), (s.pair.role ≠ .isolated ∨ s.clk.now < s.pair.since + 1000000) :=
  ⟨domainsOn, by decide⟩
theorem witness_RedundantPair_13 :
    ∃ (s : State), (s.pair.role = .candidate) ∧ (s.pair.lastPeerFrame = none) ∧ (s.pair.since + 10000000 ≤ s.clk.now) :=
  ⟨atTime 10000000 { domainsOn with pair := { role := .candidate } }, by decide⟩
theorem witness_RedundantPair_14 :
    ∃ (s : State), (s.pair.role ≠ .candidate ∨ s.pair.lastPeerFrame ≠ none ∨ s.clk.now < s.pair.since + 10000000) :=
  ⟨domainsOn, by decide⟩
theorem witness_RedundantPair_15 :
    ∃ (s : State), (s.pair.role = .standby) ∧ (s.pair.sbState = 1) ∧ (s.tku.state = .tracking) :=
  ⟨{ domainsOn with pair := { role := .standby, sbState := 1 }, tku := { state := .tracking } }, by decide⟩
theorem witness_RedundantPair_16 :
    ∃ (s : State), (s.pair.role ≠ .standby ∨ s.pair.sbState ≠ 1 ∨ s.tku.state ≠ .tracking) :=
  ⟨domainsOn, by decide⟩
/-- States and operands that meet the hypotheses of each clause of `TicksAndFrames`. -/
theorem witness_TicksAndFrames_1 :
    ∃ (s : State) (p : Nat), (frontExists s p = true ∧ (feActive s p = false ∨ (portOf s p).landed = true ∨ portLocked s p = false)) :=
  ⟨portsActive, 1, by decide⟩
theorem witness_TicksAndFrames_2 :
    ∃ (s : State) (p : Nat) (f : UpFrame), (frontExists s p = true ∧ feActive s p = true ∧ (portOf s p).landed = false ∧ portLocked s p = true) ∧ (upAccepted s p f = false) :=
  ⟨lockedPorts, 1, {}, by decide⟩
theorem witness_TicksAndFrames_3 :
    ∃ (s : State) (p : Nat) (f : UpFrame), (frontExists s p = true ∧ feActive s p = true ∧ (portOf s p).landed = false ∧ portLocked s p = true) ∧ (upAccepted s p f = true) :=
  ⟨lockedPorts, 1, upFrameOne, ⟨by decide, by decide, by decide, by decide⟩, upFrameOne_accepted⟩
theorem witness_TicksAndFrames_4 :
    ∃ (s : State) (cl : Nat), (clusterExists s cl = true) ∧ (8 ≤ tabGet 0 s.plan.overruns cl) ∧ (s.plan.failing.contains cl = false) :=
  ⟨{ domainsOn with plan := { overruns := [(20, 8)] } }, 20, by decide⟩
theorem witness_TicksAndFrames_5 :
    ∃ (s : State) (cl : Nat), (clusterExists s cl = true) ∧ (tabGet 0 s.plan.overruns cl < 8 ∨ s.plan.failing.contains cl = true) :=
  ⟨domainsOn, 20, by decide⟩
/-- States and operands that meet the hypotheses of each clause of `ReceptionEnds`. -/
theorem witness_ReceptionEnds_1 :
    ∃ (s : State) (c : Nat), (circuitExists s c = true ∧ (circOf s c).rxT.st = .preamble ∧ (circOf s c).rxT.since + 128 ≤ s.clk.now) :=
  ⟨atTime 200 (setCirc 24 { rxT := { st := .preamble } } domainsOn), 24, by decide⟩
theorem witness_ReceptionEnds_2 :
    ∃ (s : State) (c : Nat), (circuitExists s c = true ∧ ((circOf s c).rxT.st ≠ .preamble ∨ s.clk.now < (circOf s c).rxT.since + 128)) :=
  ⟨domainsOn, 24, by decide⟩
theorem witness_ReceptionEnds_3 :
    ∃ (s : State) (c : Nat) (q : Seat), (circuitExists s c = true ∧ (circOf s c).rxA.st = .preamble ∧ seatAt s c (s.clk.now - 2) = some q) ∧ (syncDeadline (setSf q.grant.arg) (circOf s c).rxA + 2 ≤ s.clk.now ∧ (circOf s c).failedSeat ≠ some q.first) :=
  ⟨atTime 1610 (setCirc 24 { rxA := { st := .preamble } } { seatPlan with sf := { running := true, grants := [{ circuit := 24, gtype := 1, addr := 5, slot := 64, slots := 8 }] } }), 24, { grant := { circuit := 24, gtype := 1, addr := 5, slot := 64, slots := 8 }, first := 1600, last := 1799 }, ⟨by decide, by decide, rfl⟩, ⟨by decide, by decide⟩⟩
theorem witness_ReceptionEnds_4 :
    ∃ (s : State) (c : Nat) (q : Seat), (circuitExists s c = true ∧ (circOf s c).rxA.st = .preamble ∧ seatAt s c (s.clk.now - 2) = some q) ∧ (syncDeadline (setSf q.grant.arg) (circOf s c).rxA + 2 ≤ s.clk.now ∧ (circOf s c).failedSeat = some q.first) :=
  ⟨atTime 1610 (setCirc 24 { failedSeat := some 1600, rxA := { st := .preamble } } { seatPlan with sf := { running := true, grants := [{ circuit := 24, gtype := 1, addr := 5, slot := 64, slots := 8 }] } }), 24, { grant := { circuit := 24, gtype := 1, addr := 5, slot := 64, slots := 8 }, first := 1600, last := 1799 }, ⟨by decide, by decide, rfl⟩, ⟨by decide, by decide⟩⟩
theorem witness_ReceptionEnds_5 :
    ∃ (s : State) (c : Nat), (circuitExists s c = true ∧ (circOf s c).rxA.st = .preamble ∧ seatAt s c (s.clk.now - 2) = none) :=
  ⟨setCirc 24 { rxA := { st := .preamble } } domainsOn, 24, by decide⟩
theorem witness_ReceptionEnds_6 :
    ∃ (s : State) (c : Nat), (circuitExists s c = true ∧ ((circOf s c).rxA.st ≠ .preamble ∨ ∃ q, seatAt s c (s.clk.now - 2) = some q ∧ s.clk.now < syncDeadline (setSf q.grant.arg) (circOf s c).rxA + 2)) :=
  ⟨domainsOn, 24, ⟨by decide, .inl (by decide)⟩⟩
theorem witness_ReceptionEnds_7 :
    ∃ (s : State) (c a : Nat), (circuitExists s c = true ∧ rxIndex s c = some a) ∧ ((∃ e ∈ tabGet [] s.plan.queue a, e.1 = c ∧ e.2 + 16 ≤ s.clk.now)) :=
  ⟨atTime 100 { feedPlan with plan := { feedPlan.plan with queue := [(0, [(24, 1)])] } }, 24, 0, ⟨by decide, by decide⟩, ⟨(24, 1), by decide⟩⟩
theorem witness_ReceptionEnds_8 :
    ∃ (s : State) (c a : Nat), (circuitExists s c = true ∧ rxIndex s c = some a) ∧ ((∀ e ∈ tabGet [] s.plan.queue a, e.1 = c → s.clk.now < e.2 + 16)) :=
  ⟨feedPlan, 24, 0, by decide⟩
theorem witness_ReceptionEnds_9 :
    ∃ (s : State) (c : Nat), (circuitExists s c = true ∧ rxIndex s c = none) :=
  ⟨domainsOn, 24, by decide⟩
theorem witness_ReceptionEnds_10 :
    ∃ (s : State) (c : Nat), (circuitExists s c = true ∧ receiving (circOf s c) = true ∧ isFeed s c = false ∧ 9 ≤ (circOf s c).staleRun) :=
  ⟨setCirc 24 { staleRun := 9, clipRun := 9, rxT := { st := .preamble } } domainsOn, 24, by decide⟩
theorem witness_ReceptionEnds_11 :
    ∃ (s : State) (c : Nat), (circuitExists s c = true ∧ receiving (circOf s c) = true ∧ isFeed s c = false ∧ 9 ≤ (circOf s c).clipRun) :=
  ⟨setCirc 24 { staleRun := 9, clipRun := 9, rxT := { st := .preamble } } domainsOn, 24, by decide⟩
theorem witness_ReceptionEnds_12 :
    ∃ (s : State) (c : Nat), (circuitExists s c = true) ∧ ((circOf s c).staleRun < 9 ∨ receiving (circOf s c) = false ∨ isFeed s c = true) :=
  ⟨domainsOn, 24, by decide⟩
theorem witness_ReceptionEnds_13 :
    ∃ (s : State) (c : Nat), (circuitExists s c = true) ∧ ((circOf s c).clipRun < 9 ∨ receiving (circOf s c) = false ∨ isFeed s c = true) :=
  ⟨domainsOn, 24, by decide⟩
theorem witness_ReceptionEnds_14 :
    ∃ (s : State) (c : Nat), (circuitExists s c = true ∧ (circOf s c).rxT.st = .payload ∧ (circOf s c).rxT.endAt + 4 < s.clk.now ∧ (circOf s c).staleRun < 9 ∧ (circOf s c).clipRun < 9) :=
  ⟨atTime 5 (setCirc 24 { rxT := { st := .payload } } domainsOn), 24, by decide⟩
theorem witness_ReceptionEnds_15 :
    ∃ (s : State) (c : Nat), (circuitExists s c = true ∧ (circOf s c).rxA.st = .payload ∧ (circOf s c).rxA.endAt + 4 < s.clk.now ∧ (circOf s c).staleRun < 9 ∧ (circOf s c).clipRun < 9) :=
  ⟨atTime 5 (setCirc 24 { rxA := { st := .payload } } domainsOn), 24, by decide⟩
theorem witness_ReceptionEnds_16 :
    ∃ (s : State) (c : Nat), (circuitExists s c = true ∧ ((circOf s c).rxT.st ≠ .payload ∨ s.clk.now ≤ (circOf s c).rxT.endAt + 4 ∨ 9 ≤ (circOf s c).staleRun ∨ 9 ≤ (circOf s c).clipRun)) :=
  ⟨domainsOn, 24, by decide⟩
theorem witness_ReceptionEnds_17 :
    ∃ (s : State) (c : Nat), (circuitExists s c = true ∧ ((circOf s c).rxA.st ≠ .payload ∨ s.clk.now ≤ (circOf s c).rxA.endAt + 4 ∨ 9 ≤ (circOf s c).staleRun ∨ 9 ≤ (circOf s c).clipRun)) :=
  ⟨domainsOn, 24, by decide⟩
/-- States and operands that meet the hypotheses of each clause of `DecodersAndReassembly`. -/
theorem witness_DecodersAndReassembly_1 :
    ∃ (s : State) (w : Codeword) (d : Nat), (firstWord s.ldpc.queue = some w) ∧ (idleDecoder s = some d) :=
  ⟨{ domainsOn with ldpc := { queue := [{ circuit := 24 }] } }, { circuit := 24 }, 0, by decide⟩
theorem witness_DecodersAndReassembly_2 :
    ∃ (s : State), (firstWord s.ldpc.queue = none ∨ idleDecoder s = none) :=
  ⟨domainsOn, by decide⟩
theorem witness_DecodersAndReassembly_3 :
    ∃ (s : State) (d : Nat), (d < 34) ∧ ((decoderOf s d).busy = none) :=
  ⟨domainsOn, 33, by decide⟩
theorem witness_DecodersAndReassembly_4 :
    ∃ (s : State) (d : Nat) (w : Codeword), (d < 34) ∧ ((decoderOf s d).busy = some w) :=
  ⟨{ domainsOn with ldpc := { decoder := [(33, { busy := some { circuit := 24, cls := 3, entry := 5 } })] } }, 33, { circuit := 24, cls := 3, entry := 5 }, by decide⟩
theorem witness_DecodersAndReassembly_5 :
    ∃ (s : State) (pass : Bool) (d : Nat), (testDecoder s = some d ∧ s.ldpc.testDone = false ∧ s.ldpc.queue = [] ∧ (decoderOf s d).busy = none) ∧ (pass = true ∨ (decoderOf s d).fails = 0) :=
  ⟨domainsOn, true, 0, by decide⟩
theorem witness_DecodersAndReassembly_6 :
    ∃ (s : State) (pass : Bool) (d : Nat), (testDecoder s = some d ∧ s.ldpc.testDone = false ∧ s.ldpc.queue = [] ∧ (decoderOf s d).busy = none) ∧ (pass = false ∧ 0 < (decoderOf s d).fails) :=
  ⟨{ domainsOn with ldpc := { decoder := [(0, { fails := 1 })] } }, false, 0, by decide⟩
theorem witness_DecodersAndReassembly_7 :
    ∃ (s : State), (testDecoder s = none ∨ s.ldpc.testDone = true ∨ s.ldpc.queue ≠ [] ∨ ∃ d, testDecoder s = some d ∧ (decoderOf s d).busy.isSome = true) :=
  ⟨default, .inl (by decide)⟩
theorem witness_DecodersAndReassembly_8 :
    ∃ (s : State) (c : Nat) (e : Entry), (circuitExists s c = true) ∧ (s.ldpc.entries.find? (fun e => e.circuit == c && (decide (e.due + 4 < s.clk.now) || entryAborted s e)) = some e) :=
  ⟨atTime 100 { domainsOn with ldpc := { entries := [{ circuit := 24, id := 5 }] } }, 24, { circuit := 24, id := 5 }, by decide⟩
theorem witness_DecodersAndReassembly_9 :
    ∃ (s : State) (c : Nat), (circuitExists s c = true ∧ s.ldpc.entries.find? (fun e => e.circuit == c && (decide (e.due + 4 < s.clk.now) || entryAborted s e)) = none ∧ frameLate s (feedOf s c) (feedOf s c).openX = true) :=
  ⟨atTime 100000 (setFeed 24 { openX := some {} } domainsOn), 24, by decide⟩
theorem witness_DecodersAndReassembly_10 :
    ∃ (s : State) (c : Nat), (circuitExists s c = true ∧ s.ldpc.entries.find? (fun e => e.circuit == c && (decide (e.due + 4 < s.clk.now) || entryAborted s e)) = none ∧ frameLate s (feedOf s c) (feedOf s c).openX = false ∧ frameLate s (feedOf s c) (feedOf s c).openN = true) :=
  ⟨atTime 100000 (setFeed 24 { openN := some {} } domainsOn), 24, by decide⟩
theorem witness_DecodersAndReassembly_11 :
    ∃ (s : State) (c : Nat), (circuitExists s c = true ∧ s.ldpc.entries.find? (fun e => e.circuit == c && (decide (e.due + 4 < s.clk.now) || entryAborted s e)) = none ∧ frameLate s (feedOf s c) (feedOf s c).openX = false ∧ frameLate s (feedOf s c) (feedOf s c).openN = false) :=
  ⟨domainsOn, 24, by decide⟩
theorem witness_DecodersAndReassembly_12 :
    ∃ (s : State) (c a : Nat) (r : Record) (w : Waiting) (ws : List Waiting) (h : TxFrame), (circuitExists s c = true ∧ recordAt s c a = some r ∧ r.waiting = w :: ws ∧ w.host = some h) ∧ (4 ≤ h.unfit) :=
  ⟨tooLong, 24, 5, { circuit := 24, addr := some 5, epId := 77, waiting := [{ host := some { ring := 3, circuit := 24, unfit := 4 } }] }, { host := some { ring := 3, circuit := 24, unfit := 4 } }, [], { ring := 3, circuit := 24, unfit := 4 }, by decide⟩
theorem witness_DecodersAndReassembly_13 :
    ∃ (s : State) (c a : Nat) (r : Record) (w : Waiting) (ws : List Waiting) (h : TxFrame), (circuitExists s c = true ∧ recordAt s c a = some r ∧ r.waiting = w :: ws ∧ w.host = some h) ∧ (h.unfit < 4) :=
  ⟨{ domainsOn with link := { records := [{ circuit := 24, addr := some 5, epId := 77, waiting := [{ host := some { ring := 3, circuit := 24 } }] }] } }, 24, 5, { circuit := 24, addr := some 5, epId := 77, waiting := [{ host := some { ring := 3, circuit := 24 } }] }, { host := some { ring := 3, circuit := 24 } }, [], { ring := 3, circuit := 24 }, by decide⟩
theorem witness_DecodersAndReassembly_14 :
    ∃ (s : State) (c a : Nat), (circuitExists s c = true ∧ (recordAt s c a = none ∨ ∃ r, recordAt s c a = some r ∧ (r.waiting = [] ∨ ∃ w ws, r.waiting = w :: ws ∧ w.host = none))) :=
  ⟨domainsOn, 24, 5, ⟨by decide, .inl rfl⟩⟩
/-- States and operands that meet the hypotheses of each clause of `UplinkFramesReceived`. -/
theorem witness_UplinkFramesReceived_1 :
    ∃ (s : State) (f : RxFrame) (p : Prop × Instr), (circuitExists s f.circuit = true ∧ p ∈ uplinkCommands f) ∧ (¬ p.1 ∨ f.frame.dest ≠ 0) :=
  ⟨domainsOn, { circuit := 24 }, (({ circuit := 24 } : RxFrame).frame.ftype = 4, Instr.dataFrameRx { circuit := 24 }), ⟨by decide, List.mem_cons_self⟩, .inl (by decide)⟩
theorem witness_UplinkFramesReceived_2 :
    ∃ (s : State) (f : RxFrame) (p : Prop × Instr), (circuitExists s f.circuit = true ∧ p ∈ uplinkCommands f) ∧ (p.1 ∧ f.frame.dest = 0 ∧ senderOf f s = none) :=
  ⟨domainsOn, { circuit := 24, frame := { ftype := 4, src := 9 } }, (({ circuit := 24, frame := { ftype := 4, src := 9 } } : RxFrame).frame.ftype = 4, Instr.dataFrameRx { circuit := 24, frame := { ftype := 4, src := 9 } }), ⟨by decide, List.mem_cons_self⟩, ⟨rfl, by decide, by decide⟩⟩
theorem witness_UplinkFramesReceived_3 :
    ∃ (s : State) (f : RxFrame) (r : Record), (circuitExists s f.circuit = true ∧ f.frame.dest = 0 ∧ senderOf f s = some r ∧ f.frame.ftype = 4) :=
  ⟨oneRecord, fromFive 4 [], fiveRec, ⟨by decide, by decide, by decide, by decide⟩⟩
theorem witness_UplinkFramesReceived_4 :
    ∃ (s : State) (f : RxFrame) (r : Record), (circuitExists s f.circuit = true ∧ f.frame.dest = 0 ∧ senderOf f s = some r ∧ 5 ≤ f.frame.ftype ∧ f.frame.ftype ≤ 7 ∧ (classify f false r.epId (heard f r s)).1 = true) :=
  ⟨oneRecord, fromFive 6 [], fiveRec, ⟨by decide, by decide, by decide, by decide, by decide, by decide⟩⟩
theorem witness_UplinkFramesReceived_5 :
    ∃ (s : State) (f : RxFrame) (r : Record), (circuitExists s f.circuit = true ∧ f.frame.dest = 0 ∧ senderOf f s = some r ∧ 5 ≤ f.frame.ftype ∧ f.frame.ftype ≤ 7 ∧ (classify f false r.epId (heard f r s)).1 = false) :=
  ⟨setRecords [{ fiveRec with upMap := 1 }] oneRecord, fromFive 6 [], { fiveRec with upMap := 1 }, ⟨by decide, by decide, by decide, by decide, by decide, by decide⟩⟩
theorem witness_UplinkFramesReceived_6 :
    ∃ (s : State) (f : RxFrame) (r : Record), (circuitExists s f.circuit = true ∧ f.frame.dest = 0 ∧ senderOf f s = some r ∧ 9 ≤ f.frame.ftype ∧ f.frame.ftype ≤ 11) :=
  ⟨oneRecord, fromFive 10 [], fiveRec, ⟨by decide, by decide, by decide, by decide, by decide⟩⟩
theorem witness_UplinkFramesReceived_7 :
    ∃ (s : State) (f : RxFrame) (r x : Record) (i : Instr) (d : Nat), (circuitExists s f.circuit = true ∧ f.frame.dest = 0 ∧ senderOf f s = some r ∧ recordId (heard f r s) r.epId = some x) ∧ (i = (if f.frame.ftype = 4 then Instr.dataFrameRx f else .mgmtFrameRx f) ∧ (f.frame.ftype = 4 ∨ 5 ≤ f.frame.ftype ∧ f.frame.ftype ≤ 7)) ∧ (d = (f.frame.seq % 4096 + 4096 - x.upBase) % 4096 ∧ 64 ≤ d ∧ d < 4032) :=
  ⟨oneRecord, lateFrame 4 100, fiveRec, asHeard (lateFrame 4 100) (fiveRec) (oneRecord), Instr.dataFrameRx (lateFrame 4 100), 100, ⟨by decide, by decide, by decide, by decide⟩, ⟨by decide, by decide⟩, by decide⟩
theorem witness_UplinkFramesReceived_8 :
    ∃ (s : State) (f : RxFrame) (r x : Record) (i : Instr) (d : Nat), (circuitExists s f.circuit = true ∧ f.frame.dest = 0 ∧ senderOf f s = some r ∧ recordId (heard f r s) r.epId = some x) ∧ (i = (if f.frame.ftype = 4 then Instr.dataFrameRx f else .mgmtFrameRx f) ∧ (f.frame.ftype = 4 ∨ 5 ≤ f.frame.ftype ∧ f.frame.ftype ≤ 7)) ∧ (d = (f.frame.seq % 4096 + 4096 - x.upBase) % 4096 ∧ (4032 ≤ d ∨ d < 64 ∧ bitOf x.upMap d = true)) :=
  ⟨oneRecord, lateFrame 4 4095, fiveRec, asHeard (lateFrame 4 4095) (fiveRec) (oneRecord), Instr.dataFrameRx (lateFrame 4 4095), 4095, ⟨by decide, by decide, by decide, by decide⟩, ⟨by decide, by decide⟩, by decide⟩
theorem witness_UplinkFramesReceived_9 :
    ∃ (s : State) (f : RxFrame) (r x : Record) (i : Instr) (d : Nat), (circuitExists s f.circuit = true ∧ f.frame.dest = 0 ∧ senderOf f s = some r ∧ recordId (heard f r s) r.epId = some x) ∧ (i = (if f.frame.ftype = 4 then Instr.dataFrameRx f else .mgmtFrameRx f) ∧ (f.frame.ftype = 4 ∨ 5 ≤ f.frame.ftype ∧ f.frame.ftype ≤ 7)) ∧ (d = (f.frame.seq % 4096 + 4096 - x.upBase) % 4096 ∧ (4032 ≤ d ∨ d < 64 ∧ bitOf x.upMap d = true) ∧ sendsAllowed s = false) :=
  ⟨asStandby oneRecord, lateFrame 4 4095, fiveRec, asHeard (lateFrame 4 4095) (fiveRec) (asStandby oneRecord), Instr.dataFrameRx (lateFrame 4 4095), 4095, ⟨by decide, by decide, by decide, by decide⟩, ⟨by decide, by decide⟩, by decide⟩
theorem witness_UplinkFramesReceived_10 :
    ∃ (s : State) (f : RxFrame) (r x : Record) (i : Instr) (d : Nat), (circuitExists s f.circuit = true ∧ f.frame.dest = 0 ∧ senderOf f s = some r ∧ recordId (heard f r s) r.epId = some x) ∧ (i = (if f.frame.ftype = 4 then Instr.dataFrameRx f else .mgmtFrameRx f) ∧ (f.frame.ftype = 4 ∨ 5 ≤ f.frame.ftype ∧ f.frame.ftype ≤ 7)) ∧ (d = (f.frame.seq % 4096 + 4096 - x.upBase) % 4096 ∧ f.frame.ftype = 4 ∧ d < 64 ∧ bitOf x.upMap d = false ∧ sendsAllowed s = true ∧ ringTakes (heard f r s) f = false) :=
  ⟨oneRecord, fromFive 4 [], fiveRec, asHeard (fromFive 4 []) (fiveRec) (oneRecord), Instr.dataFrameRx (fromFive 4 []), 0, ⟨by decide, by decide, by decide, by decide⟩, ⟨by decide, by decide⟩, by decide⟩
theorem witness_UplinkFramesReceived_11 :
    ∃ (s : State) (f : RxFrame) (r x : Record) (i : Instr) (d : Nat), (circuitExists s f.circuit = true ∧ f.frame.dest = 0 ∧ senderOf f s = some r ∧ recordId (heard f r s) r.epId = some x) ∧ (i = (if f.frame.ftype = 4 then Instr.dataFrameRx f else .mgmtFrameRx f) ∧ (f.frame.ftype = 4 ∨ 5 ≤ f.frame.ftype ∧ f.frame.ftype ≤ 7)) ∧ (d = (f.frame.seq % 4096 + 4096 - x.upBase) % 4096 ∧ 0 < d ∧ d < 64 ∧ bitOf x.upMap d = false ∧ bitOf x.upMap 0 = false ∧ f.frame.ftype = 4 ∧ ringTakes (heard f r s) f = true ∧ f.frame.flags / 4 % 2 = 0) :=
  ⟨ringOpen oneRecord, lateFrame 4 1, fiveRec, asHeard (lateFrame 4 1) (fiveRec) (ringOpen oneRecord), Instr.dataFrameRx (lateFrame 4 1), 1, ⟨by decide, by decide, by decide, by decide⟩, ⟨by decide, by decide⟩, by decide⟩
theorem witness_UplinkFramesReceived_12 :
    ∃ (s : State) (f : RxFrame) (r x : Record) (i : Instr) (d : Nat), (circuitExists s f.circuit = true ∧ f.frame.dest = 0 ∧ senderOf f s = some r ∧ recordId (heard f r s) r.epId = some x) ∧ (i = (if f.frame.ftype = 4 then Instr.dataFrameRx f else .mgmtFrameRx f) ∧ (f.frame.ftype = 4 ∨ 5 ≤ f.frame.ftype ∧ f.frame.ftype ≤ 7)) ∧ (d = (f.frame.seq % 4096 + 4096 - x.upBase) % 4096 ∧ 0 < d ∧ d < 64 ∧ bitOf x.upMap d = false ∧ bitOf x.upMap 0 = false ∧ f.frame.ftype ≠ 4 ∧ f.frame.flags / 4 % 2 = 0) :=
  ⟨oneRecord, lateFrame 5 1, fiveRec, asHeard (lateFrame 5 1) (fiveRec) (oneRecord), Instr.mgmtFrameRx (lateFrame 5 1), 1, ⟨by decide, by decide, by decide, by decide⟩, ⟨by decide, by decide⟩, by decide⟩
theorem witness_UplinkFramesReceived_13 :
    ∃ (s : State) (f : RxFrame) (r x : Record) (i : Instr) (d : Nat), (circuitExists s f.circuit = true ∧ f.frame.dest = 0 ∧ senderOf f s = some r ∧ recordId (heard f r s) r.epId = some x) ∧ (i = (if f.frame.ftype = 4 then Instr.dataFrameRx f else .mgmtFrameRx f) ∧ (f.frame.ftype = 4 ∨ 5 ≤ f.frame.ftype ∧ f.frame.ftype ≤ 7)) ∧ (d = (f.frame.seq % 4096 + 4096 - x.upBase) % 4096 ∧ f.frame.seq % 4096 = x.upBase ∧ x.upMap = 0 ∧ x.held = [] ∧ f.frame.ftype = 4 ∧ ringTakes (heard f r s) f = true ∧ f.frame.flags / 4 % 2 = 0) :=
  ⟨ringOpen oneRecord, fromFive 4 [], fiveRec, asHeard (fromFive 4 []) (fiveRec) (ringOpen oneRecord), Instr.dataFrameRx (fromFive 4 []), 0, ⟨by decide, by decide, by decide, by decide⟩, ⟨by decide, by decide⟩, by decide⟩
theorem witness_UplinkFramesReceived_14 :
    ∃ (s : State) (f : RxFrame) (r : Record), (circuitExists s f.circuit = true ∧ f.frame.dest = 0 ∧ senderOf f s = some r ∧ f.frame.ftype = 5 ∧ bodyType f = 1) ∧ ((classify f false r.epId (heard f r s)).1 = true) :=
  ⟨oneRecord, fromFive 5 [1, 0, 0, 0, 0, 0, 0, 0], fiveRec, ⟨by decide, by decide, by decide, by decide, by decide⟩, by decide⟩
theorem witness_UplinkFramesReceived_15 :
    ∃ (s : State) (f : RxFrame) (r : Record), (circuitExists s f.circuit = true ∧ f.frame.dest = 0 ∧ senderOf f s = some r ∧ f.frame.ftype = 5 ∧ bodyType f = 1) ∧ ((classify f false r.epId (heard f r s)).1 = false) :=
  ⟨setRecords [{ fiveRec with upMap := 1 }] oneRecord, fromFive 5 [1, 0, 0, 0, 0, 0, 0, 0], { fiveRec with upMap := 1 }, ⟨by decide, by decide, by decide, by decide, by decide⟩, by decide⟩
theorem witness_UplinkFramesReceived_16 :
    ∃ (s : State) (f : RxFrame) (r : Record), (circuitExists s f.circuit = true ∧ f.frame.dest = 0 ∧ senderOf f s = some r ∧ f.frame.ftype = 5 ∧ bodyType f = 6) ∧ ((classify f false r.epId (heard f r s)).1 = true) :=
  ⟨oneRecord, fromFive 5 [6, 0, 0, 0, 0, 0, 0, 0], fiveRec, ⟨by decide, by decide, by decide, by decide, by decide⟩, by decide⟩
theorem witness_UplinkFramesReceived_17 :
    ∃ (s : State) (f : RxFrame) (r : Record), (circuitExists s f.circuit = true ∧ f.frame.dest = 0 ∧ senderOf f s = some r ∧ f.frame.ftype = 5 ∧ bodyType f = 6) ∧ ((classify f false r.epId (heard f r s)).1 = false) :=
  ⟨setRecords [{ fiveRec with upMap := 1 }] oneRecord, fromFive 5 [6, 0, 0, 0, 0, 0, 0, 0], { fiveRec with upMap := 1 }, ⟨by decide, by decide, by decide, by decide, by decide⟩, by decide⟩
theorem witness_UplinkFramesReceived_18 :
    ∃ (s : State) (f : RxFrame) (r : Record), (circuitExists s f.circuit = true ∧ f.frame.dest = 0 ∧ senderOf f s = some r ∧ f.frame.ftype = 5 ∧ bodyType f = 7) ∧ ((classify f false r.epId (heard f r s)).1 = true) :=
  ⟨oneRecord, fromFive 5 [7, 0, 0, 0, 0, 0, 0, 0], fiveRec, ⟨by decide, by decide, by decide, by decide, by decide⟩, by decide⟩
theorem witness_UplinkFramesReceived_19 :
    ∃ (s : State) (f : RxFrame) (r : Record), (circuitExists s f.circuit = true ∧ f.frame.dest = 0 ∧ senderOf f s = some r ∧ f.frame.ftype = 5 ∧ bodyType f = 7) ∧ ((classify f false r.epId (heard f r s)).1 = false) :=
  ⟨setRecords [{ fiveRec with upMap := 1 }] oneRecord, fromFive 5 [7, 0, 0, 0, 0, 0, 0, 0], { fiveRec with upMap := 1 }, ⟨by decide, by decide, by decide, by decide, by decide⟩, by decide⟩
theorem witness_UplinkFramesReceived_20 :
    ∃ (s z : State) (f : RxFrame) (r x : Record) (d : Nat), (circuitExists s f.circuit = true ∧ f.frame.dest = 0 ∧ f.frame.ftype = 5 ∧ bodyType f = 2 ∧ senderOf f s = some r ∧ classify f false r.epId (heard f r s) = (true, z) ∧ recordId z r.epId = some x) ∧ (d = fieldOf (bodyWord f 0) 55 40) :=
  ⟨oneRecord, afterAcks (fromFive 5 [2, 0, 1, 0, 0, 0, 0, 0]) fiveRec (oneRecord), fromFive 5 [2, 0, 1, 0, 0, 0, 0, 0], fiveRec, asClassed (fromFive 5 [2, 0, 1, 0, 0, 0, 0, 0]) fiveRec (oneRecord), 1, ⟨by decide, by decide, by decide, by decide, by decide, Prod.ext (by decide) rfl, by decide⟩, by decide⟩
theorem witness_UplinkFramesReceived_21 :
    ∃ (s : State) (f : RxFrame) (r : Record), (circuitExists s f.circuit = true ∧ f.frame.dest = 0 ∧ senderOf f s = some r ∧ f.frame.ftype = 5 ∧ bodyType f = 2) ∧ ((classify f false r.epId (heard f r s)).1 = false) :=
  ⟨setRecords [{ fiveRec with upMap := 1 }] oneRecord, fromFive 5 [2, 0, 0, 0, 0, 0, 0, 0], { fiveRec with upMap := 1 }, ⟨by decide, by decide, by decide, by decide, by decide⟩, by decide⟩
theorem witness_UplinkFramesReceived_22 :
    ∃ (s : State) (f : RxFrame) (r x : Record) (base : Nat) (map : Word), (circuitExists s f.circuit = true ∧ f.frame.dest = 0 ∧ f.frame.ftype = 8 ∧ f.frame.body.length = 16 ∧ senderOf f s = some r ∧ recordId (heard f r s) r.epId = some x) ∧ (base = fieldOf (bodyWord f 0) 63 52 ∧ map = bodyWord f 1) :=
  ⟨oneRecord, fromFive 8 (List.replicate 16 0), fiveRec, asHeard (fromFive 8 (List.replicate 16 0)) fiveRec (oneRecord), 0, 0, by decide, by decide⟩
theorem witness_UplinkFramesReceived_23 :
    ∃ (s : State) (f : RxFrame) (r x : Record) (base : Nat) (map : Word), (circuitExists s f.circuit = true ∧ f.frame.dest = 0 ∧ f.frame.ftype = 8 ∧ f.frame.body.length = 16 ∧ senderOf f s = some r ∧ recordId (heard f r s) r.epId = some x) ∧ (base = fieldOf (bodyWord f 0) 63 52 ∧ map = bodyWord f 1) ∧ (x.waiting = []) :=
  ⟨oneRecord, fromFive 8 (List.replicate 16 0), fiveRec, asHeard (fromFive 8 (List.replicate 16 0)) fiveRec (oneRecord), 0, 0, by decide, by decide, by decide⟩
/-- States and operands that meet the hypotheses of each clause of `RecordTimers`. -/
theorem witness_RecordTimers_1 :
    ∃ (s : State) (c a : Nat) (i : Instr), (circuitExists s c = true ∧ recordAt s c a = none) ∧ (i ∈ [Instr.ackTimerExpiry c a, .gapSkip c a, .pollAnswerTimeout c a, .readdressTimeout c a, .sleepWake c a]) :=
  ⟨domainsOn, 24, 5, Instr.gapSkip 24 5, by decide⟩
theorem witness_RecordTimers_2 :
    ∃ (s : State) (c a : Nat) (r : Record), (circuitExists s c = true ∧ recordAt s c a = some r) ∧ (r.state ≠ .active ∨ sendsAllowed s = false) :=
  ⟨asStandby oneRecord, 24, 5, fiveRec, by decide⟩
theorem witness_RecordTimers_3 :
    ∃ (s : State) (c a : Nat) (r : Record), (circuitExists s c = true ∧ recordAt s c a = some r) ∧ (gapSince r = none ∨ (∃ n, gapSince r = some n ∧ s.sf.number < n + 12)) :=
  ⟨oneRecord, 24, 5, fiveRec, ⟨by decide, by decide⟩, .inl (by decide)⟩
theorem witness_RecordTimers_4 :
    ∃ (s : State) (c a : Nat) (r : Record), (circuitExists s c = true ∧ recordAt s c a = some r) ∧ (pollUnanswered s r a = none) :=
  ⟨oneRecord, 24, 5, fiveRec, by decide⟩
theorem witness_RecordTimers_5 :
    ∃ (s : State) (c a : Nat) (r : Record), (circuitExists s c = true ∧ recordAt s c a = some r) ∧ (r.newAddr = none ∨ (∃ b n, r.newAddr = some (b, n) ∧ s.sf.number ≤ n + 4)) :=
  ⟨oneRecord, 24, 5, fiveRec, ⟨by decide, by decide⟩, .inl (by decide)⟩
theorem witness_RecordTimers_6 :
    ∃ (s : State) (c a : Nat) (r : Record), (circuitExists s c = true ∧ recordAt s c a = some r) ∧ (r.state ≠ .asleep ∨ s.sf.number < r.wakeSf) :=
  ⟨oneRecord, 24, 5, fiveRec, by decide⟩
theorem witness_RecordTimers_7 :
    ∃ (s : State) (c a : Nat) (r : Record) (due : List Sent), (circuitExists s c = true ∧ recordAt s c a = some r ∧ recordId s r.epId = some r ∧ r.state = .active ∧ sendsAllowed s = true) ∧ (due = (r.sent.filter fun x => !x.gone && !x.out && decide (x.lastSf + 2 ≤ s.sf.number))) :=
  ⟨oneRecord, 24, 5, fiveRec, [], by decide⟩
theorem witness_RecordTimers_8 :
    ∃ (s : State) (c a : Nat) (r : Record) (n : Nat), (circuitExists s c = true ∧ recordAt s c a = some r ∧ recordId s r.epId = some r ∧ gapSince r = some n ∧ n + 12 ≤ s.sf.number) :=
  ⟨{ oneRecord with link := { records := [{ circuit := 24, addr := some 5, epId := 77, upMap := 2, held := [(1, 0, none)] }] }, sf := { oneRecord.sf with number := 12 } }, 24, 5, { circuit := 24, addr := some 5, epId := 77, upMap := 2, held := [(1, 0, none)] }, 0, by decide⟩
theorem witness_RecordTimers_9 :
    ∃ (s : State) (c a : Nat) (r : Record) (n : Nat), (circuitExists s c = true ∧ recordAt s c a = some r ∧ recordId s r.epId = some r ∧ gapSince r = some n ∧ n + 12 ≤ s.sf.number) ∧ (bitOf r.upMap 1 = false) :=
  ⟨{ oneRecord with link := { records := [{ circuit := 24, addr := some 5, epId := 77, upMap := 4, held := [(2, 0, none)] }] }, sf := { oneRecord.sf with number := 12 } }, 24, 5, { circuit := 24, addr := some 5, epId := 77, upMap := 4, held := [(2, 0, none)] }, 0, by decide⟩
theorem witness_RecordTimers_10 :
    ∃ (s : State) (c a : Nat) (r : Record) (n : Nat), (circuitExists s c = true ∧ recordAt s c a = some r ∧ recordId s r.epId = some r ∧ gapSince r = some n ∧ n + 12 ≤ s.sf.number) ∧ (r.upMap = 2) :=
  ⟨{ oneRecord with link := { records := [{ circuit := 24, addr := some 5, epId := 77, upMap := 2, held := [(1, 0, none)] }] }, sf := { oneRecord.sf with number := 12 } }, 24, 5, { circuit := 24, addr := some 5, epId := 77, upMap := 2, held := [(1, 0, none)] }, 0, by decide⟩
theorem witness_RecordTimers_11 :
    ∃ (s : State) (c a : Nat) (r : Record) (k : Nat), (circuitExists s c = true ∧ recordAt s c a = some r ∧ recordId s r.epId = some r ∧ pollUnanswered s r a = some k ∧ r.polls < 2) :=
  ⟨polledState fiveRec, 24, 5, fiveRec, 1600, by decide⟩
theorem witness_RecordTimers_12 :
    ∃ (s : State) (c a : Nat) (r : Record) (k : Nat) (n : Nat), (circuitExists s c = true ∧ recordAt s c a = some r ∧ recordId s r.epId = some r ∧ pollUnanswered s r a = some k ∧ 2 ≤ r.polls ∧ r.state = .active ∧ r.newAddr = none ∧ lowestFree s c = some n) :=
  ⟨polledState { fiveRec with polls := 2 }, 24, 5, { fiveRec with polls := 2 }, 1600, 1, by decide +kernel⟩
theorem witness_RecordTimers_13 :
    ∃ (s : State) (c a : Nat) (r : Record) (k : Nat), (circuitExists s c = true ∧ recordAt s c a = some r ∧ recordId s r.epId = some r ∧ pollUnanswered s r a = some k ∧ 2 ≤ r.polls) ∧ (r.state ≠ .active ∨ r.newAddr.isSome = true ∨ lowestFree s c = none) :=
  ⟨polledState { fiveRec with polls := 2, newAddr := some (6, 0) }, 24, 5, { fiveRec with polls := 2, newAddr := some (6, 0) }, 1600, by decide⟩
theorem witness_RecordTimers_14 :
    ∃ (s : State) (c a b n : Nat) (r : Record), (circuitExists s c = true ∧ recordAt s c a = some r ∧ recordId s r.epId = some r ∧ r.newAddr = some (b, n) ∧ n + 4 < s.sf.number) :=
  ⟨{ oneRecord with link := { records := [{ circuit := 24, addr := some 5, epId := 77, newAddr := some (6, 0) }] }, sf := { oneRecord.sf with number := 5 } }, 24, 5, 6, 0, { circuit := 24, addr := some 5, epId := 77, newAddr := some (6, 0) }, by decide⟩
theorem witness_RecordTimers_15 :
    ∃ (s : State) (c a : Nat) (r : Record), (circuitExists s c = true ∧ recordAt s c a = some r ∧ recordId s r.epId = some r ∧ r.state = .asleep ∧ r.wakeSf ≤ s.sf.number) :=
  ⟨{ oneRecord with link := { records := [{ circuit := 24, addr := some 5, epId := 77, state := .asleep }] } }, 24, 5, { circuit := 24, addr := some 5, epId := 77, state := .asleep }, by decide⟩
theorem witness_RecordTimers_16 :
    ∃ (s : State) (c : Nat), (circuitExists s c = true) :=
  ⟨domainsOn, 24, by decide⟩
theorem witness_RecordTimers_17 :
    ∃ (s : State) (ep : Nat), (recordId s ep = none) :=
  ⟨domainsOn, 77, by decide⟩
theorem witness_RecordTimers_18 :
    ∃ (s : State) (ep : Nat) (r : Record), (recordId s ep = some r ∧ s.sf.number < max r.lastHeard r.wakeSf + (circOf s r.circuit).set.retain) :=
  ⟨setSfNumber 4 oneRecord, 77, fiveRec, by decide⟩
theorem witness_RecordTimers_19 :
    ∃ (s : State) (ep : Nat) (r : Record), (recordId s ep = some r ∧ max r.lastHeard r.wakeSf + (circOf s r.circuit).set.retain ≤ s.sf.number) :=
  ⟨setSfNumber 1000000 oneRecord, 77, fiveRec, by decide⟩
/-- States and operands that meet the hypotheses of each clause of `JoinExchange`. -/
theorem witness_JoinExchange_1 :
    ∃ (s : State) (f : RxFrame), (circuitExists s f.circuit = true) ∧ (f.frame.ftype ≠ 10 ∨ bodyType f ≠ 1 ∨ f.frame.src ≠ 0xFFF ∨ f.frame.dest ≠ 0 ∨ sendsAllowed s = false) :=
  ⟨domainsOn, { circuit := 24 }, by decide⟩
theorem witness_JoinExchange_2 :
    ∃ (s : State) (f : RxFrame), (circuitExists s f.circuit = true) ∧ (f.frame.ftype ≠ 10 ∨ bodyType f ≠ 3 ∨ f.frame.dest ≠ 0 ∨ sendsAllowed s = false) :=
  ⟨domainsOn, { circuit := 24 }, by decide⟩
theorem witness_JoinExchange_3 :
    ∃ (s s0 : State) (f : RxFrame) (c ep en : Nat) (j : Join), (circuitExists s f.circuit = true ∧ f.frame.ftype = 10 ∧ bodyType f = 1 ∧ f.frame.src = 0xFFF ∧ f.frame.dest = 0 ∧ sendsAllowed s = true) ∧ (c = f.circuit ∧ ep = joinId f ∧ en = fieldOf (bodyWord f 0) 31 0) ∧ (s0 = (if f.frame.flags / 2 % 2 = 1 then s else joinsFollow c s)) ∧ (joinOf s c ep = some j) :=
  ⟨{ domainsOn with link := { joins := [{ circuit := 24 }] } }, joinsFollow 24 ({ domainsOn with link := { joins := [{ circuit := 24 }] } }), joinReqFrame, 24, 0, 0, { circuit := 24 }, ⟨by decide, by decide, by decide, by decide, by decide, by decide⟩, ⟨by decide, by decide, by decide⟩, rfl, by decide⟩
theorem witness_JoinExchange_4 :
    ∃ (s s0 : State) (f : RxFrame) (c ep en : Nat), (circuitExists s f.circuit = true ∧ f.frame.ftype = 10 ∧ bodyType f = 1 ∧ f.frame.src = 0xFFF ∧ f.frame.dest = 0 ∧ sendsAllowed s = true) ∧ (c = f.circuit ∧ ep = joinId f ∧ en = fieldOf (bodyWord f 0) 31 0) ∧ (s0 = (if f.frame.flags / 2 % 2 = 1 then s else joinsFollow c s)) ∧ (joinOf s c ep = none ∧ joinKey s ep = []) :=
  ⟨domainsOn, joinsFollow 24 (domainsOn), joinReqFrame, 24, 0, 0, ⟨by decide, by decide, by decide, by decide, by decide, by decide⟩, ⟨by decide, by decide, by decide⟩, rfl, by decide⟩
theorem witness_JoinExchange_5 :
    ∃ (s s0 : State) (f : RxFrame) (c ep en : Nat) (reason : Nat), (circuitExists s f.circuit = true ∧ f.frame.ftype = 10 ∧ bodyType f = 1 ∧ f.frame.src = 0xFFF ∧ f.frame.dest = 0 ∧ sendsAllowed s = true) ∧ (c = f.circuit ∧ ep = joinId f ∧ en = fieldOf (bodyWord f 0) 31 0) ∧ (s0 = (if f.frame.flags / 2 % 2 = 1 then s else joinsFollow c s)) ∧ (joinOf s c ep = none ∧ joinKey s ep ≠ []) ∧ (reason = (if recordId s ep = none ∧ 16384 ≤ s.link.records.length then 1 else if recordId s ep = none ∧ 64 ≤ (s.link.records.filter fun r => r.circuit == c).length then 2 else if (c, ep) ∈ s.link.denied then 3 else 0)) ∧ (reason ≠ 0 ∧ (ep, en) ∉ s.link.rejected) :=
  ⟨{ domainsOn with sec := { joinKeys := [(0, [0])] }, link := { denied := [(24, 0)] } }, joinsFollow 24 ({ domainsOn with sec := { joinKeys := [(0, [0])] }, link := { denied := [(24, 0)] } }), joinReqFrame, 24, 0, 0, 3, ⟨by decide, by decide, by decide, by decide, by decide, by decide⟩, ⟨by decide, by decide, by decide⟩, rfl, by decide, by decide, by decide⟩
theorem witness_JoinExchange_6 :
    ∃ (s s0 : State) (f : RxFrame) (c ep en : Nat) (reason : Nat), (circuitExists s f.circuit = true ∧ f.frame.ftype = 10 ∧ bodyType f = 1 ∧ f.frame.src = 0xFFF ∧ f.frame.dest = 0 ∧ sendsAllowed s = true) ∧ (c = f.circuit ∧ ep = joinId f ∧ en = fieldOf (bodyWord f 0) 31 0) ∧ (s0 = (if f.frame.flags / 2 % 2 = 1 then s else joinsFollow c s)) ∧ (joinOf s c ep = none ∧ joinKey s ep ≠ []) ∧ (reason = (if recordId s ep = none ∧ 16384 ≤ s.link.records.length then 1 else if recordId s ep = none ∧ 64 ≤ (s.link.records.filter fun r => r.circuit == c).length then 2 else if (c, ep) ∈ s.link.denied then 3 else 0)) ∧ (reason ≠ 0 ∧ (ep, en) ∈ s.link.rejected) :=
  ⟨{ domainsOn with sec := { joinKeys := [(0, [0])] }, link := { denied := [(24, 0)], rejected := [(0, 0)] } }, joinsFollow 24 ({ domainsOn with sec := { joinKeys := [(0, [0])] }, link := { denied := [(24, 0)], rejected := [(0, 0)] } }), joinReqFrame, 24, 0, 0, 3, ⟨by decide, by decide, by decide, by decide, by decide, by decide⟩, ⟨by decide, by decide, by decide⟩, rfl, by decide, by decide, by decide⟩
theorem witness_JoinExchange_7 :
    ∃ (s s0 : State) (f : RxFrame) (c ep en : Nat) (reason : Nat), (circuitExists s f.circuit = true ∧ f.frame.ftype = 10 ∧ bodyType f = 1 ∧ f.frame.src = 0xFFF ∧ f.frame.dest = 0 ∧ sendsAllowed s = true) ∧ (c = f.circuit ∧ ep = joinId f ∧ en = fieldOf (bodyWord f 0) 31 0) ∧ (s0 = (if f.frame.flags / 2 % 2 = 1 then s else joinsFollow c s)) ∧ (joinOf s c ep = none ∧ joinKey s ep ≠ []) ∧ (reason = (if recordId s ep = none ∧ 16384 ≤ s.link.records.length then 1 else if recordId s ep = none ∧ 64 ≤ (s.link.records.filter fun r => r.circuit == c).length then 2 else if (c, ep) ∈ s.link.denied then 3 else 0)) ∧ (reason = 0 ∧ joinAddr s c ep = none) :=
  ⟨fullCircuit, joinsFollow 24 (fullCircuit), joinReqFrame, 24, 0, 0, 0, ⟨by decide, by decide, by decide, by decide, by decide, by decide⟩, ⟨by decide, by decide, by decide⟩, rfl, by decide, fullCircuit_reason.1, rfl, fullCircuit_reason.2⟩
theorem witness_JoinExchange_8 :
    ∃ (s s0 : State) (f : RxFrame) (c ep en : Nat) (reason a : Nat) (fresh : Bool), (circuitExists s f.circuit = true ∧ f.frame.ftype = 10 ∧ bodyType f = 1 ∧ f.frame.src = 0xFFF ∧ f.frame.dest = 0 ∧ sendsAllowed s = true) ∧ (c = f.circuit ∧ ep = joinId f ∧ en = fieldOf (bodyWord f 0) 31 0) ∧ (s0 = (if f.frame.flags / 2 % 2 = 1 then s else joinsFollow c s)) ∧ (joinOf s c ep = none ∧ joinKey s ep ≠ []) ∧ (reason = (if recordId s ep = none ∧ 16384 ≤ s.link.records.length then 1 else if recordId s ep = none ∧ 64 ≤ (s.link.records.filter fun r => r.circuit == c).length then 2 else if (c, ep) ∈ s.link.denied then 3 else 0)) ∧ (reason = 0 ∧ joinAddr s c ep = some (a, fresh)) :=
  ⟨{ domainsOn with sec := { joinKeys := [(0, [0])] } }, joinsFollow 24 ({ domainsOn with sec := { joinKeys := [(0, [0])] } }), joinReqFrame, 24, 0, 0, 0, 1, true, ⟨by decide +kernel, by decide +kernel, by decide +kernel, by decide +kernel, by decide +kernel, by decide +kernel⟩, ⟨by decide +kernel, by decide +kernel, by decide +kernel⟩, rfl, by decide +kernel, by decide +kernel, by decide +kernel⟩
theorem witness_JoinExchange_9 :
    ∃ (s : State) (f : RxFrame), (circuitExists s f.circuit = true ∧ f.frame.ftype = 10 ∧ bodyType f = 3 ∧ f.frame.dest = 0 ∧ sendsAllowed s = true) ∧ (joinOf s f.circuit (joinId f) = none ∧ (senderOf f s).isNone = true) :=
  ⟨domainsOn, { circuit := 24, frame := { ftype := 10, body := [3, 0, 0, 0, 0, 0, 0, 0] } }, by decide⟩
theorem witness_JoinExchange_10 :
    ∃ (s : State) (f : RxFrame), (circuitExists s f.circuit = true ∧ f.frame.ftype = 10 ∧ bodyType f = 3 ∧ f.frame.dest = 0 ∧ sendsAllowed s = true) ∧ (joinOf s f.circuit (joinId f) = none ∧ (senderOf f s).isSome = true) :=
  ⟨oneRecord, { circuit := 24, frame := { ftype := 10, src := 5, body := [3, 0, 0, 0, 0, 0, 0, 0] } }, by decide⟩
theorem witness_JoinExchange_11 :
    ∃ (s : State) (f : RxFrame) (j : Join), (circuitExists s f.circuit = true ∧ f.frame.ftype = 10 ∧ bodyType f = 3 ∧ f.frame.dest = 0 ∧ sendsAllowed s = true) ∧ (joinOf s f.circuit (joinId f) = some j ∧ j.paddr ≠ f.frame.src) :=
  ⟨{ domainsOn with link := { joins := [{ circuit := 24, paddr := 9 }] } }, { circuit := 24, frame := { ftype := 10, body := [3, 0, 0, 0, 0, 0, 0, 0] } }, { circuit := 24, paddr := 9 }, by decide⟩
theorem witness_JoinExchange_12 :
    ∃ (s : State) (f : RxFrame) (j : Join), (circuitExists s f.circuit = true ∧ f.frame.ftype = 10 ∧ bodyType f = 3 ∧ f.frame.dest = 0 ∧ sendsAllowed s = true) ∧ (joinOf s f.circuit (joinId f) = some j ∧ j.paddr = f.frame.src) ∧ (responseOk s j f = false) :=
  ⟨{ domainsOn with link := { joins := [{ circuit := 24 }] } }, { circuit := 24, frame := { ftype := 10, body := [3, 0, 0, 0, 0, 0, 0, 0] } }, { circuit := 24 }, ⟨by decide +kernel, by decide +kernel, by decide +kernel, by decide +kernel, by decide +kernel⟩, ⟨by decide +kernel, by decide +kernel⟩, by decide +kernel⟩
theorem witness_JoinExchange_13 :
    ∃ (s : State) (f : RxFrame) (j : Join), (circuitExists s f.circuit = true ∧ f.frame.ftype = 10 ∧ bodyType f = 3 ∧ f.frame.dest = 0 ∧ sendsAllowed s = true) ∧ (joinOf s f.circuit (joinId f) = some j ∧ j.paddr = f.frame.src) ∧ (responseOk s j f = true) :=
  ⟨joinAwaited, joinAnswer, { circuit := 24 }, ⟨by decide +kernel, by decide +kernel, by decide +kernel, by decide +kernel, by decide +kernel⟩, ⟨by decide +kernel, by decide +kernel⟩, by decide +kernel⟩
theorem witness_JoinExchange_14 :
    ∃ (s : State) (c ep : Nat), (circuitExists s c = true ∧ joinOf s c ep = none) :=
  ⟨domainsOn, 24, 77, by decide⟩
theorem witness_JoinExchange_15 :
    ∃ (s : State) (c ep : Nat), (circuitExists s c = true ∧ joinOf s c ep = none) :=
  ⟨domainsOn, 24, 77, by decide⟩
theorem witness_JoinExchange_16 :
    ∃ (s : State) (c ep : Nat) (j : Join), (circuitExists s c = true ∧ joinOf s c ep = some j) ∧ (s.sf.number ≤ j.challengeSf + 2 ∨ j.firstSf + 8 ≤ s.sf.number ∨ sendsAllowed s = false) :=
  ⟨setSfNumber 2 ({ domainsOn with link := { joins := [{ circuit := 24 }] } }), 24, 0, { circuit := 24 }, by decide⟩
theorem witness_JoinExchange_17 :
    ∃ (s : State) (c ep : Nat) (j : Join), (circuitExists s c = true ∧ joinOf s c ep = some j) ∧ (j.challengeSf + 2 < s.sf.number ∧ s.sf.number < j.firstSf + 8 ∧ sendsAllowed s = true) :=
  ⟨setSfNumber 3 ({ domainsOn with link := { joins := [{ circuit := 24 }] } }), 24, 0, { circuit := 24 }, by decide⟩
theorem witness_JoinExchange_18 :
    ∃ (s : State) (c ep : Nat) (j : Join), (circuitExists s c = true ∧ joinOf s c ep = some j) ∧ (s.sf.number < j.firstSf + 8) :=
  ⟨setSfNumber 7 ({ domainsOn with link := { joins := [{ circuit := 24 }] } }), 24, 0, { circuit := 24 }, by decide⟩
theorem witness_JoinExchange_19 :
    ∃ (s : State) (c ep : Nat) (j : Join), (circuitExists s c = true ∧ joinOf s c ep = some j) ∧ (j.firstSf + 8 ≤ s.sf.number) :=
  ⟨setSfNumber 8 ({ domainsOn with link := { joins := [{ circuit := 24 }] } }), 24, 0, { circuit := 24 }, by decide⟩
/-- States and operands that meet the hypotheses of each clause of `RangingAnswers`. -/
theorem witness_RangingAnswers_1 :
    ∃ (s : State) (f : RxFrame) (r x : Record), (circuitExists s f.circuit = true ∧ f.frame.ftype = 11 ∧ bodyType f = 2 ∧ f.frame.dest = 0 ∧ senderOf f s = some r ∧ recordId (heard f r s) r.epId = some x) ∧ (x.range.t1 = none) :=
  ⟨rangingState { fiveRec with range := {} }, fromFive 11 [2, 0, 0, 0, 0, 0, 0, 0], { fiveRec with range := {} }, asHeard (fromFive 11 [2, 0, 0, 0, 0, 0, 0, 0]) { fiveRec with range := {} } (rangingState { fiveRec with range := {} }), by decide⟩
theorem witness_RangingAnswers_2 :
    ∃ (s : State) (f : RxFrame) (r x : Record), (circuitExists s f.circuit = true ∧ f.frame.ftype = 11 ∧ bodyType f = 2 ∧ f.frame.dest = 0 ∧ senderOf f s = some r ∧ recordId (heard f r s) r.epId = some x) ∧ (x.range.t1.isSome = true ∧ (rangeStamp (heard f r s) f.circuit = none ∨ fieldOf (bodyWord f 0) 55 48 ≠ x.range.id ∨ s.sf.beaconTrusted = false)) :=
  ⟨rangingState { fiveRec with range := { t1 := some 0 } }, fromFive 11 [2, 0, 0, 0, 0, 0, 0, 0], { fiveRec with range := { t1 := some 0 } }, asHeard (fromFive 11 [2, 0, 0, 0, 0, 0, 0, 0]) { fiveRec with range := { t1 := some 0 } } (rangingState { fiveRec with range := { t1 := some 0 } }), by decide⟩
theorem witness_RangingAnswers_3 :
    ∃ (s : State) (f : RxFrame) (r x : Record) (t1 t4 d : Int), (circuitExists s f.circuit = true ∧ f.frame.ftype = 11 ∧ bodyType f = 2 ∧ f.frame.dest = 0 ∧ senderOf f s = some r ∧ recordId (heard f r s) r.epId = some x) ∧ (x.range.t1 = some t1 ∧ rangeStamp (heard f r s) f.circuit = some t4 ∧ fieldOf (bodyWord f 0) 55 48 = x.range.id ∧ s.sf.beaconTrusted = true) ∧ (d = (t4 - t1 - fieldOf (bodyWord f 0) 47 0) / 2) ∧ (newDist (rangeReject16 (heard f r s) x.circuit) x.range d = none) :=
  ⟨stamped 16 (rangingState { fiveRec with range := { t1 := some (-4000000), dist := [8] } }), fromFive 11 [2, 0, 0, 0, 0, 0, 0, 0], { fiveRec with range := { t1 := some (-4000000), dist := [8] } }, asHeard (fromFive 11 [2, 0, 0, 0, 0, 0, 0, 0]) { fiveRec with range := { t1 := some (-4000000), dist := [8] } } (stamped 16 (rangingState { fiveRec with range := { t1 := some (-4000000), dist := [8] } })), -4000000, 16, 2000008, by decide⟩
theorem witness_RangingAnswers_4 :
    ∃ (s : State) (f : RxFrame) (r x : Record) (t1 t4 d : Int) (g : Ranging), (circuitExists s f.circuit = true ∧ f.frame.ftype = 11 ∧ bodyType f = 2 ∧ f.frame.dest = 0 ∧ senderOf f s = some r ∧ recordId (heard f r s) r.epId = some x) ∧ (x.range.t1 = some t1 ∧ rangeStamp (heard f r s) f.circuit = some t4 ∧ fieldOf (bodyWord f 0) 55 48 = x.range.id ∧ s.sf.beaconTrusted = true) ∧ (d = (t4 - t1 - fieldOf (bodyWord f 0) 47 0) / 2) ∧ (newDist (rangeReject16 (heard f r s) x.circuit) x.range d = some g) :=
  ⟨stamped 16 (rangingState { fiveRec with range := { t1 := some 0, dist := [8] } }), fromFive 11 [2, 0, 0, 0, 0, 0, 0, 0], { fiveRec with range := { t1 := some 0, dist := [8] } }, asHeard (fromFive 11 [2, 0, 0, 0, 0, 0, 0, 0]) { fiveRec with range := { t1 := some 0, dist := [8] } } (stamped 16 (rangingState { fiveRec with range := { t1 := some 0, dist := [8] } })), 0, 16, 8, { t1 := some 0, dist := [8, 8] }, by decide⟩
theorem witness_RangingAnswers_5 :
    ∃ (reject : Nat) (g : Ranging) (d : Int), (g.dist = [] ∨ (d - medianInt g.dist).natAbs ≤ reject) :=
  ⟨5, { dist := [8] }, 10, by decide⟩
theorem witness_RangingAnswers_6 :
    ∃ (reject : Nat) (g : Ranging) (d : Int) (a b : Int), (g.dist ≠ [] ∧ reject < (d - medianInt g.dist).natAbs ∧ g.outliers = [a, b] ∧ (d - a).natAbs ≤ reject ∧ (d - b).natAbs ≤ reject ∧ (a - b).natAbs ≤ reject) :=
  ⟨5, { dist := [8], outliers := [101, 102] }, 100, 101, 102, by decide⟩
theorem witness_RangingAnswers_7 :
    ∃ (reject : Nat) (g : Ranging) (d : Int), (g.dist ≠ [] ∧ reject < (d - medianInt g.dist).natAbs ∧ g.outliers.length < 2) :=
  ⟨5, { dist := [8] }, 100, by decide⟩
theorem witness_RangingAnswers_8 :
    ∃ (s z : State) (f : RxFrame) (r x : Record), (circuitExists s f.circuit = true ∧ f.frame.dest = 0 ∧ f.frame.ftype = 7 ∧ bodyType f = 0x10 ∧ senderOf f s = some r ∧ classify f false r.epId (heard f r s) = (true, z) ∧ recordId z r.epId = some x) ∧ (x.range.dist = []) :=
  ⟨oneRecord, afterAcks (fromFive 7 [0x10, 0, 0, 0, 0, 0, 0, 0]) fiveRec (oneRecord), fromFive 7 [0x10, 0, 0, 0, 0, 0, 0, 0], fiveRec, asClassed (fromFive 7 [0x10, 0, 0, 0, 0, 0, 0, 0]) fiveRec (oneRecord), ⟨by decide, by decide, by decide, by decide, by decide, Prod.ext (by decide) rfl, by decide⟩, by decide⟩
theorem witness_RangingAnswers_9 :
    ∃ (s z : State) (f : RxFrame) (r x : Record) (d : Int) (ds : List Int), (circuitExists s f.circuit = true ∧ f.frame.dest = 0 ∧ f.frame.ftype = 7 ∧ bodyType f = 0x10 ∧ senderOf f s = some r ∧ classify f false r.epId (heard f r s) = (true, z) ∧ recordId z r.epId = some x) ∧ (x.range.dist = d :: ds) :=
  ⟨rangingState { fiveRec with range := { dist := [8] } }, afterAcks (fromFive 7 [0x10, 0, 0, 0, 0, 0, 0, 0]) { fiveRec with range := { dist := [8] } } (rangingState { fiveRec with range := { dist := [8] } }), fromFive 7 [0x10, 0, 0, 0, 0, 0, 0, 0], { fiveRec with range := { dist := [8] } }, asClassed (fromFive 7 [0x10, 0, 0, 0, 0, 0, 0, 0]) { fiveRec with range := { dist := [8] } } (rangingState { fiveRec with range := { dist := [8] } }), 8, [], ⟨by decide, by decide, by decide, by decide, by decide, Prod.ext (by decide) rfl, by decide⟩, by decide⟩
theorem witness_RangingAnswers_10 :
    ∃ (s z : State) (f : RxFrame) (r : Record), (circuitExists s f.circuit = true ∧ f.frame.dest = 0 ∧ f.frame.ftype = 7 ∧ bodyType f = 0x11 ∧ senderOf f s = some r ∧ classify f false r.epId (heard f r s) = (true, z)) ∧ (recordAt z f.circuit (fieldOf (bodyWord f 0) 47 36) = none) :=
  ⟨oneRecord, afterAcks (fromFive 7 [0x11, 0, 0, 0, 0, 0, 0, 0]) fiveRec oneRecord, fromFive 7 [0x11, 0, 0, 0, 0, 0, 0, 0], fiveRec, ⟨by decide, by decide, by decide, by decide, by decide, Prod.ext (by decide) rfl⟩, by decide⟩
theorem witness_RangingAnswers_11 :
    ∃ (s z : State) (f : RxFrame) (r x : Record) (d : Int), (circuitExists s f.circuit = true ∧ f.frame.dest = 0 ∧ f.frame.ftype = 7 ∧ bodyType f = 0x11 ∧ senderOf f s = some r ∧ classify f false r.epId (heard f r s) = (true, z)) ∧ (recordAt z f.circuit (fieldOf (bodyWord f 0) 47 36) = some x ∧ recordId z x.epId = some x) ∧ (d = (nearest (shortOf (bodyWord f 2) - shortOf (bodyWord f 1)) - fieldOf (bodyWord f 3) 47 0) / 2) ∧ (s.sf.beaconTrusted = false) :=
  ⟨{ rangingState fiveRec with link := { records := [fiveRec, { circuit := 24, addr := some 6, epId := 78, range := {} }] }, sf := { beaconTrusted := false } }, afterAcks farReport fiveRec ({ rangingState fiveRec with link := { records := [fiveRec, { circuit := 24, addr := some 6, epId := 78, range := {} }] }, sf := { beaconTrusted := false } }), farReport, fiveRec, { circuit := 24, addr := some 6, epId := 78, range := {} }, 0, ⟨by decide, by decide, by decide, by decide, by decide, Prod.ext (by decide) rfl⟩, ⟨by decide, by decide⟩, by decide, by decide⟩
theorem witness_RangingAnswers_12 :
    ∃ (s z : State) (f : RxFrame) (r x : Record) (d : Int), (circuitExists s f.circuit = true ∧ f.frame.dest = 0 ∧ f.frame.ftype = 7 ∧ bodyType f = 0x11 ∧ senderOf f s = some r ∧ classify f false r.epId (heard f r s) = (true, z)) ∧ (recordAt z f.circuit (fieldOf (bodyWord f 0) 47 36) = some x ∧ recordId z x.epId = some x) ∧ (d = (nearest (shortOf (bodyWord f 2) - shortOf (bodyWord f 1)) - fieldOf (bodyWord f 3) 47 0) / 2) ∧ (s.sf.beaconTrusted = true ∧ newDist (rangeReject16 z x.circuit) x.range d = none) :=
  ⟨{ rangingState fiveRec with link := { records := [fiveRec, { circuit := 24, addr := some 6, epId := 78, range := { dist := [9000000] } }] } }, afterAcks farReport fiveRec ({ rangingState fiveRec with link := { records := [fiveRec, { circuit := 24, addr := some 6, epId := 78, range := { dist := [9000000] } }] } }), farReport, fiveRec, { circuit := 24, addr := some 6, epId := 78, range := { dist := [9000000] } }, 0, ⟨by decide, by decide, by decide, by decide, by decide, Prod.ext (by decide) rfl⟩, ⟨by decide, by decide⟩, by decide, by decide⟩
theorem witness_RangingAnswers_13 :
    ∃ (s z : State) (f : RxFrame) (r x : Record) (d : Int) (g : Ranging), (circuitExists s f.circuit = true ∧ f.frame.dest = 0 ∧ f.frame.ftype = 7 ∧ bodyType f = 0x11 ∧ senderOf f s = some r ∧ classify f false r.epId (heard f r s) = (true, z)) ∧ (recordAt z f.circuit (fieldOf (bodyWord f 0) 47 36) = some x ∧ recordId z x.epId = some x) ∧ (d = (nearest (shortOf (bodyWord f 2) - shortOf (bodyWord f 1)) - fieldOf (bodyWord f 3) 47 0) / 2) ∧ (s.sf.beaconTrusted = true ∧ newDist (rangeReject16 z x.circuit) x.range d = some g) :=
  ⟨{ rangingState fiveRec with link := { records := [fiveRec, { circuit := 24, addr := some 6, epId := 78, range := {} }] } }, afterAcks farReport fiveRec ({ rangingState fiveRec with link := { records := [fiveRec, { circuit := 24, addr := some 6, epId := 78, range := {} }] } }), farReport, fiveRec, { circuit := 24, addr := some 6, epId := 78, range := {} }, 0, { dist := [0] }, ⟨by decide, by decide, by decide, by decide, by decide, Prod.ext (by decide) rfl⟩, ⟨by decide, by decide⟩, by decide, by decide⟩
theorem witness_RangingAnswers_14 :
    ∃ (s : State) (f : RxFrame) (r : Record), (circuitExists s f.circuit = true ∧ f.frame.dest = 0 ∧ senderOf f s = some r ∧ f.frame.ftype = 7 ∧ (classify f false r.epId (heard f r s)).1 = false ∧ bodyType f = 0x10) :=
  ⟨setRecords [{ fiveRec with upMap := 1 }] oneRecord, fromFive 7 [16, 0, 0, 0, 0, 0, 0, 0], { fiveRec with upMap := 1 }, by decide⟩
theorem witness_RangingAnswers_15 :
    ∃ (s : State) (f : RxFrame) (r : Record), (circuitExists s f.circuit = true ∧ f.frame.dest = 0 ∧ senderOf f s = some r ∧ f.frame.ftype = 7 ∧ (classify f false r.epId (heard f r s)).1 = false ∧ bodyType f = 0x11) :=
  ⟨setRecords [{ fiveRec with upMap := 1 }] oneRecord, fromFive 7 [17, 0, 0, 0, 0, 0, 0, 0], { fiveRec with upMap := 1 }, by decide⟩
/-- States and operands that meet the hypotheses of each clause of `KeySlotLoads`. -/
theorem witness_KeySlotLoads_1 :
    ∃ (s : State) (r : Nat) (v : Word), (1 ≤ r ∧ r ≤ 4 ∧ domOn s 29 = true ∧ slotLoadable r (fieldOf v 24 20) = true) :=
  ⟨domainsOn, 4, 25165824, by decide⟩
theorem witness_KeySlotLoads_2 :
    ∃ (s : State) (res : AeadAccess) (a : AeadRun), (s.aead.run = some a ∧ marksPending s = false ∧ a.verdict = none ∧ a.port.op = opGenerate) ∧ ((a.requester = 4 → res.src.isSome = true ∧ res.dstOk = true) ∧ (a.requester ≠ 4 → a.port.src.toNat ≤ 67108864 ∧ a.port.dst.toNat ≤ 67108864)) :=
  ⟨{ domainsOn with aead := { st := .running, run := some { requester := 1, port := { op := 5, target := 9 } } } }, { src := none, dstOk := false }, { requester := 1, port := { op := 5, target := 9 } }, by decide⟩
theorem witness_KeySlotLoads_3 :
    ∃ (s : State) (res : AeadAccess) (a : AeadRun) (src : List Byte), (s.aead.run = some a ∧ marksPending s = false ∧ a.verdict = none ∧ a.port.op = opUnwrap) ∧ ((a.requester = 4 → res.src = some src ∧ res.dstOk = true) ∧ (a.requester ≠ 4 → src = memRead s.mem.near a.port.src.toNat (aeadInLen a.port) ∧ a.port.src.toNat + aeadInLen a.port ≤ 67108864 ∧ a.port.dst.toNat ≤ 67108864)) :=
  ⟨{ domainsOn with aead := { st := .running, run := some { requester := 4, port := { op := 4, target := 24 } } } }, { src := some [], dstOk := true }, { requester := 4, port := { op := 4, target := 24 } }, [], by decide⟩
theorem witness_KeySlotLoads_4 :
    ∃ (s : State) (r op : Nat) (v : Word) (i : Instr), (1 ≤ r ∧ r ≤ 4 ∧ domOn s 29 = true ∧ s.aead.owner = r ∧ s.aead.st ≠ .running) ∧ ((op, i) ∈ [(1, .aeadEncrypt r v), (2, .aeadDecrypt r v), (3, .aeadWrap r v), (4, .aeadUnwrap r v), (5, .aeadGenerate r v), (6, .aeadJoinMac r v)]) :=
  ⟨{ domainsOn with aead := { owner := 1 } }, 1, 5, 0, .aeadGenerate 1 0, by decide⟩
/-- States and operands that meet the hypotheses of each clause of `KeepStoreWear`. -/
theorem witness_KeepStoreWear_1 :
    ∃ (i : Instr) (s t : State), (exec i s = .next t) :=
  ⟨.mbTake, State.reset, _, rfl⟩
theorem witness_KeepStoreWear_2 :
    ∃ (s : State) (w : KeepWrite), (s.keep.active = some w ∧ keepOwned w.source w.word = true ∧ s.keep.startedAt + 20 ≤ s.clk.now) :=
  ⟨{ keep := { active := some { word := 300, value := 9 } }, clk := { now := 20 } }, { word := 300, value := 9 }, by decide⟩
theorem witness_KeepStoreWear_3 :
    ∃ (s : State) (w : KeepWrite) (k : Keep), (s.keep.active = none ∧ s.pins.rails.vppKeep = true ∧ keepNext s.keep = some (w, k) ∧ worn s w.word = true) :=
  ⟨{ pins := { rails := { vppKeep := true } }, keep := { cells := [(3000, { wear := 100000 })], hostQ := [{ source := .host, word := 3000, value := 9 }] } }, { source := .host, word := 3000, value := 9 }, { cells := [(3000, { wear := 100000 })] }, by decide⟩
theorem witness_KeepStoreWear_4 :
    ∃ (s : State), (worn s s.keep.addr = true ∧ hostSealed s.keep.addr = false) :=
  ⟨{ keep := { addr := 300, cells := [(300, { value := 9, wear := 100000 })] } }, by decide⟩
/-- States and operands that meet the hypotheses of each clause of `PendingRiseSignals`. -/
theorem witness_PendingRiseSignals :
    ∃ (i : Instr) (s t : State), (exec i s = .next t ∧ intPending t &&& ~~~ intPending s ≠ 0) :=
  ⟨.intMaskWrite 0, { irq := { cause := 0x200 } }, _, rfl, by decide⟩
/-- States and operands that meet the hypotheses of each clause of `StepKeepsInvariant`. -/
theorem witness_StepKeepsInvariant :
    ∃ (s t : State), (Inv s ∧ step s = .next t) :=
  ⟨State.reset, State.reset, by decide, rfl⟩
/-- States and operands that meet the hypotheses of each clause of `NoStepStops`. -/
theorem witness_NoStepStops :
    ∃ (s : State), (Inv s) :=
  ⟨State.reset, by decide⟩
/-- States and operands that meet the hypotheses of each clause of `OneRecordForEachIdentity`. -/
theorem witness_OneRecordForEachIdentity :
    ∃ (i : Instr) (s t : State), (exec i s = .next t ∧ OneRecordEach s) :=
  ⟨.mbTake, State.reset, _, rfl, by decide⟩
/-- States and operands that meet the hypotheses of each clause of `CodewordMeetsChecks`. -/
theorem witness_CodewordMeetsChecks :
    ∃ (z : Nat) (u : List Bool), (0 < z ∧ u.length = 16 * z) :=
  ⟨1, [true, false, true, true, false, false, true, false, true, true, false, false, true, true, true, false], by decide⟩
/-- States and operands that meet the hypotheses of each clause of `ScramblerAndInterleaver`. -/
theorem witness_ScramblerAndInterleaver :
    ∃ (l i : Nat), (l % 16 = 0 ∧ i < l) :=
  ⟨576, 575, by decide⟩

/-! Ill-formed commands are refused, one for each check of `Instr.wf`, at the first value past its range. -/

theorem test_wf_mailboxes : ([.mbPost 32, .mbRelease 32, .mbCancel 32, .mailboxTimeout 32, .deviceIdentify 28, .endpointEvict 28, .powerDomainSet 28] : List Instr).all
    (fun i => !i.wf false) = true := by decide
theorem test_wf_objects : ([.overload 768, .ackRx { circuit := 768 }, .feAck 32 0, .dormantProbe 36, .blockLockLost 72, .prbsLockLoss 72, .overrunLimit 272,
    .ppsInLoss 2, .peerFrame 4 {}, .jumpDisqualifyEnd 0, .jumpDisqualifyEnd 5, .gpioEdgeCapture 16 0, .ldpcDecodeDone 34] : List Instr).all
    (fun i => !i.wf false) = true := by decide
theorem test_wf_blocks : ([.txDbWrite 256 0, .xdbWrite 16 0, .msixVectorUnmask 64, .bulkDataRead 4096 1, .bulkDataWrite 4089 [0], .cxlmemHostRead 25769803776,
    .aeadLockRequest 0, .aeadLockRequest 5, .chkStart false 8, .powerGood 0, .powerGood 30, .thermalTrip 49, .registerWrite 0 0 0 8 0, .registerWrite 4 1 0 8 0] :
    List Instr).all (fun i => !i.wf false) = true := by decide
/-- The PT-8800-H has half the circuits and clusters and lacks P16 to P31 (R3); the peer ports stay. -/
theorem test_wf_variant : (Instr.overload 384).wf true = false ∧ (Instr.overload 384).wf false = true ∧ (Instr.feAck 16 0).wf true = false
    ∧ (Instr.overrunLimit 136).wf true = false ∧ (Instr.dormantProbe 32).wf true = true := by decide

/-! The manual's worked figures. -/

/-- A step goes on, to a state with a property. -/
def nextHolds (o : Host.Outcome State Fault Refusal) (p : State → Bool) : Bool :=
  match o with
  | .next t => p t
  | .fault _ => false
  | .refused _ => false
def ascii9 : List Byte := [0x31, 0x32, 0x33, 0x34, 0x35, 0x36, 0x37, 0x38, 0x39]
/-- spec/17, Checking a unit: NATIVE over "123456789". -/
theorem test_crc_native : crc32c ascii9 = 0xE3069283 := by decide +kernel
/-- spec/17, Checking a unit: the header CRC of R156 over the same bytes. -/
theorem test_crc_header : crc16 0xFFFF (ascii9.flatMap bitsBE) = 0x29B1 := by decide +kernel
/-- spec/06 R150 and spec/07 R172: the first 16 elements of each base sequence. -/
theorem test_base_sequences :
    [31, 63, 127, 255, 511].map (fun l => bitsNat ((baseSeq l).take 16)) = [0xF8DD, 0xFC10, 0xFE04, 0xFF0B, 0xFF83] := by decide +kernel
/-- spec/04, packing one group: positions 0 to 8 of group 14. -/
theorem test_pack_group : ((packSamples (List.replicate 126 0 ++ [1, -1, 8191, -8191, 4660, 0, -8192, 2748, -256])).drop 28).take 2
    = [0x0007FFF7FFE00148, 0xD00008000ABCFC00] := by decide +kernel
theorem test_unpack_group :
    (List.range 9).map (fun i => unpackSample (List.replicate 28 0 ++ [0x0007FFF7FFE00148, 0xD00008000ABCFC00]) (126 + i))
    = [1, -1, 8191, -8191, 4660, 0, -8192, 2748, -256] := by decide +kernel
/-- spec/11, the second grant of superframe 41,001. -/
theorem test_grant_entry : grantWord { gtype := 1, addr := 0x02A, slot := 97, slots := 1, arg := 0x6120 } = 0x205430806120 := by decide
/-- spec/11, superframe 41,001: P = 20,000.8 and phi = 0.3 give L = 20,001. -/
theorem test_superframe_length :
    (sizing 50 false 41000 20001 0 { periods := List.replicate 8 320012800, valid := some (16000 * 41000 - 4800) }).length = 20001 := by decide +kernel
/-- spec/17 and spec/12: the header and the two words of an ACK to endpoint 0x02A. -/
theorem test_ack_frame : macHeader { ftype := 8, dest := 0x02A } 20 = 0x802A000000005000
    ∧ (ackFrame { addr := some 0x02A, upBase := 0x3FF, upMap := 0xA }).body = bytesBE 0x3FF0000000000000 ++ bytesBE 0xA := by decide
/-- spec/14, one frame each way: word 1 of the transmit descriptor. -/
theorem test_tx_descriptor : descLen 0x0060640448000000 = 24 ∧ descCircuit 0x0060640448000000 = 100 ∧ descDest 0x0060640448000000 = 0x044 := by decide
/-- spec/14, one frame each way: words 2 and 3 of the receive descriptor. -/
theorem test_rx_descriptor :
    rxWord2 { circuit := 100, cls := 2, frame := { src := 0x02A, seq := 0x3FE, body := List.replicate 204 0 } } = 0x03506402A3FE0201
    ∧ (rxWord3 { cls := 2, rssi := 1344, snr := 296, eqSinr := 272 }).toNat / 65536 = 0x054001280110 := by decide +kernel
/-- spec/19, headroom from one sensor: NOW 0x0108, NEED_V 0.742 V and YEARS_LEFT 11. -/
theorem test_ledger : ledgerNow 640 (-32) { sensor := 5, slack := 238, volts := 7400, temp := 1248 } = 0x0108
    ∧ ledgerNeed 640 (-32) 0x0108 = 74200 ∧ ledgerYears 640 (-32) 0x0108 20 = 11 := by decide
/-- spec/09, the span of circuit 172: D = 5,821. -/
theorem test_span : branchD { span := 4704, upw := { pam := 3 } } = 5821 := by decide
/-- spec/10, levels on circuit 100: the EU profile leaves 22.15 MHz of Class T and 52.5 MHz of Class A. -/
theorem test_open_width : openWidth 0 (profileBands 1) = 22150 ∧ openWidth 1 (profileBands 1) = 52500 := by decide +kernel
/-- spec/16, a host encryption: AEAD_CTL 0x9641_0000 starts ENCRYPT from slot 25 with a tag of 16. -/
theorem test_aead_start :
    nextHolds (exec (.aeadEncrypt 4 0x96410000) { domainsOn with aead := { owner := 4 } }) (fun t => (t.aead.run.map fun a => (a.port.op, a.port.slot, a.port.tagLen)) = some (1, 25, 16)) = true := by decide
/-- spec/21, serving EVENT_VECTOR, steps 4 and 6: RELEASE clears the mailbox's MB_DONE_MAP bit, and the write of one clears RING_FAULT. -/
theorem test_release :
    nextHolds (exec (.mbRelease 2) (setBox 2 { st := .done } domainsOn)) (fun t => (boxOf t 2).st = .idle) = true := by decide
theorem test_cause_cleared :
    nextHolds (exec (.intCauseWrite 0x200) { domainsOn with irq := { cause := 0x222 } }) (fun t => t.irq.cause &&& 0x200 = 0) = true := by decide
end

section
/-! SUPPORT. No step stops: every shared outcome of the commands answers a next state on an object that the device has, and a well-formed command
names only such objects (R3, R13). -/
namespace Sys2Proof.Machine

/-- An outcome is a next state: no fault and no refusal. -/
abbrev Goes (o : Result) : Prop := ∃ t, o = .next t

theorem commit_goes (s t : State) : Goes (commit s t) := ⟨_, commit_eq s t⟩

theorem commitWrite_goes (t : State) : Goes (commitWrite t) := ⟨_, rfl⟩

theorem onObject_goes {ok : Bool} {s t : State} (h : ok = true) : Goes (onObject ok s t) := by
  rw [onObject_true h]
  exact commit_goes s t

theorem ite_goes {c : Prop} [Decidable c] {a b : Result} (ha : Goes a) (hb : Goes b) : Goes (if c then a else b) := by
  split
  · exact ha
  · exact hb

/-- A refusal of R386 is a status in the mailbox, so of a mailbox command only the mailbox's own number matters. -/
theorem mailboxCommand_goes {op owner m : Nat} {words : Nat → Bool} {s : State} {body : Mailbox → Reply} (h : decide (m < 28) = true) :
    Goes (mailboxCommand op owner words m s body) := onObject_goes h

theorem csetReadout_goes {op m : Nat} {s : State} {ok : Nat → Bool × Nat × Nat} {ws : Nat → List Word} {ks : List Ctr} (h : decide (m < 28) = true) :
    Goes (csetReadout op m s ok ws ks) := by
  unfold csetReadout
  exact mailboxCommand_goes h

theorem csetConfig_goes {op m : Nat} {rows : List (Int × Int)} {s : State} {ok : Nat → Bool × Nat × Nat} {f : (Nat → Option Int) → Circuit → Circuit}
    (h : decide (m < 28) = true) : Goes (csetConfig op rows m s ok f) := by
  unfold csetConfig
  exact mailboxCommand_goes h

theorem execSecurityStatus_goes {m : Nat} {s : State} (h : decide (m < 28) = true) : Goes (execSecurityStatus m s) := by
  unfold execSecurityStatus
  exact mailboxCommand_goes h

theorem execDeviceReset_goes {m : Nat} {s : State} (h : decide (m < 28) = true) : Goes (execDeviceReset m s) := by
  unfold execDeviceReset
  dsimp only
  split
  · exact ite_goes (ite_goes (commit_goes _ _) (ite_goes (commit_goes _ _) ⟨_, rfl⟩)) ⟨_, rfl⟩
  · next stops =>
    obtain ⟨t, ht⟩ := mailboxCommand_goes h
    exact absurd ht (stops t)

/-- The requesters and the two BARs that the model knows are all that a register write can name (R349, R486). -/
theorem execRegisterWrite_goes {agent bar off bytes : Nat} {v : Word} {s : State} (h : 1 ≤ agent ∧ agent ≤ 4 ∧ (bar = 0 ∨ bar = 2)) :
    Goes (execRegisterWrite agent bar off bytes v s) := by
  obtain ⟨hlow, hhigh, hbar⟩ := h
  unfold execRegisterWrite
  rw [if_neg (by simp [hlow, hhigh, hbar])]
  exact ite_goes (commit_goes _ _) (ite_goes (commitWrite_goes _) (ite_goes (commitWrite_goes _) (ite_goes (commitWrite_goes _) (commit_goes _ _))))

/-- A well-formed command completes: `Instr.wf` is the very check that its arm makes of the object it names. -/
theorem exec_goes_of_wf (i : Instr) (s : State) (h : i.wf (isH s) = true) : Goes (exec i s) := by
  unfold exec
  cases i with
  -- Commands served from a mailbox of the host, a core or the management bus (R376).
  | deviceIdentify | deviceStatus | deviceEvents | deviceHostMode | portStatus | portRetrain | portSetState | portSetPreset | clockSetSpread
  | portFrameCounters | portCalibrate | portConfig | deviceSetRegion | deviceRegionStatus | deviceSfConfig | deviceSfStatus | deviceRingConfig
  | deviceRingStatus | deviceRxSteer | deviceGranaryConfig | deviceEventVector | circuitSetClass | circuitRxConfig | circuitAgc | circuitXtSurvey
  | circuitCdRetrain | circuitChaffMap | circuitTxConfig | circuitTxFilter | circuitNotch | circuitRelay | circuitRelayStatus | planLoad
  | planActivate | planAbort | planStatus | planEdit | planRead | planStageWrite | planSaveBoot | endpointList | endpointStatus | endpointEvict
  | endpointReaddress | endpointSetRepeater | endpointLinkConfig | endpointDeny | endpointCaSnapshot | timeStatus | timeSourceConfig | timeSetTai
  | timeHostOffset | timeResync | timeEvidenceRing | timeEndpointStatus | timeRangeConfig | timeModel | timePeerConfig | securityJoinKey
  | securityCircuitKey | securityZeroise | securityAttest | securityCert | firmwareStatus | firmwareStageWrite | firmwareVerify | firmwareWriteBank
  | firmwareActivate | firmwareCommit | firmwareRevert | firmwareSetBoot | diagMpStatus | diagNearRead | lanePrbs | laneMarginScan | laneCounters
  | ldpcStatus | diagCapture | diagCaptureStatus | powerDomainSet | powerDomainStatus | powerAvsStatus | ageingLedger | ageingClusterTest => exact mailboxCommand_goes h
  | circuitRxStatus | circuitRxCounters | circuitCaStatus | circuitCdStatus | circuitCodeCounters | circuitTxStatus | circuitMacCounters
  | endpointLinkCounters => exact csetReadout_goes h
  | circuitCaConfig | circuitCdConfig | circuitChaffConfig | circuitBeaconConfig => exact csetConfig_goes h
  | securityStatus => exact execSecurityStatus_goes h
  | deviceReset => exact execDeviceReset_goes h
  -- Events and accesses that name a numbered object: a circuit, port, lane, cluster, ring, domain, check unit or requester (R13).
  | mbPost | mbRelease | mbCancel | mailboxTimeout | txDbWrite | rxDbWrite | xdbWrite | gpioEdgeCapture | bulkDataRead | bulkDataWrite
  | aeadLockRequest | aeadLockRelease | aeadEncrypt | aeadDecrypt | aeadWrap | aeadUnwrap | aeadGenerate | aeadJoinMac | aeadKeyWrite
  | aeadKeyZeroise | chkStart | chkDataWrite | powerGood | powerGoodTimeout | drainEnd | powerDownDone | thermalTrip | overrunLimit | qualLate
  | noSync | samplesLost | overload | receptionTimeout | upstreamTickFrame | portDegraded | portReadyAgain | portRebring | calMeasureDone
  | feIdentity | feCalReport | feAlarm | feAck | feMessageResend | blockLockAcquired | blockLockLost | trainWordReceived | bringupPhaseTimeout
  | signalDetected | dormantProbe | probeWindowEnd | peerFrame | timePeerFrame | ldpcDecodeDone | reasmTimeout | dataFrameRx | mgmtFrameRx | ackRx
  | reportRx | sleepReqRx | relayBeaconRx | leaveRx | joinReq | joinResponse | joinChallengeTimeout | joinAbandon | rangeReply | turnReport
  | rangeReport | ackTimerExpiry | gapSkip | pollAnswerTimeout | readdressTimeout | quarantineExpiry | sleepWake | txDescFetch | txTooLong
  | rxFrameDeliver | msixModCount | msixModTicks | ringDrainEnd | cxlmemHostRead | cxlmemHostWrite | chaffAgeHalving | ppsInEdge | ppsInLoss
  | freqInLoss | jumpDisqualifyEnd | cdTrainWord | cdSwitchExit | cdPhaseTimeout | cdTrainingTimeout | feedSearchRetry | linkLost | feedOverload
  | tapRevert | tapGuardFail | prbsCheckerLock | prbsLockLoss | msixVectorUnmask | aeadStatusRead => exact onObject_goes h
  | registerWrite => exact execRegisterWrite_goes (of_decide_eq_true h)
  -- Commands that name no numbered object.
  | intCauseWrite | intMaskWrite | mbDoneMapWrite => exact commitWrite_goes _
  | mbTake | backgroundOpDone | mctpWrite | mctpRead | mctpDoorbell | setEndpointId | getEndpointId | getMctpVersionSupport | getMessageTypeSupport
  | getVendorDefinedMsgSupport | journalEntry | standbyReady | watchdogKick | watchdogExpiry | eventVectorWrite | evConsWrite | tcapCapture
  | tcapDoneClear | tcapArmGpio | ksDataWrite | ksDataRead | keepWriteStart | keepWriteDone | keepWriteWaitTimeout | aeadOpDone | aeadIdleRelease
  | entropyHealthFail | drbgReseed | chkPipeCntRead | ledgerCreditRead | pairStatusRead | hdmViolAddrRead | hdmViolCntRead | resetNAssert
  | resetNRelease | sequenceStart | sequenceDone | railRemoved | domainSwitchStart | vddCoreWindowFlag | oscInLoss | oscInReturn | avsMeasurement
  | avsBusFault | avsBusRetry | pmbusPoll | ledgerHourlyUpdate | ledgerDailyWrite | ledgerYearlySnapshot | avsAtLimitExpiry | tickStrobe
  | captureFreeze | bringupQueueStart | peerMarkerMissing | followerTestExpiry | isolatedExpiry | candidateExpiry | checkpointComplete
  | ldpcDispatch | ldpcKnownAnswerTest | retainExpiry | hostRequestFailed | cxlCompletionTimeout | hostLinkUp | hostLinkDown | hotReset | h2dSnoop
  | ideMacFail | ideKeyProgram | spdmRequest | grantListHandover | grantListClose | grantListReuseExpiry | superframeBoundary | sfMarkWrite
  | endpointSummaryWrite | sfRefLost | todInMessage | todOutSend | tkuSecond | peerSourceLoss | hostSourceLoss | peerExchange | modelWrite
  | evidenceRecord | evLate | recordSeqMarkWrite | alertNRelease | mpBootDone | hdmDecoderCommit | offBlockRead => exact commit_goes _ _

/-- Taking a command from the queue leaves the identity word, which says the variant (R444). -/
@[simp] theorem isH_withPending (s : State) (q : List Instr) : isH (s.withPending q) = isH s := rfl

/-- Settles O55: on an empty queue the block idles, and the command at the front of a queue that meets the invariant is well-formed. -/
theorem noStepStops : Obligations.NoStepStops := by
  rintro s ⟨-, hqueue⟩
  cases hp : s.pending with
  | nil => exact ⟨s, by simp only [step, hp]⟩
  | cons i q =>
    have hwf : i.wf (isH (s.withPending q)) = true := by
      simpa only [isH_withPending] using hqueue i (by simp [hp])
    obtain ⟨t, ht⟩ := exec_goes_of_wf i (s.withPending q) hwf
    exact ⟨t, by simp only [step, hp, ht]⟩

end Sys2Proof.Machine
end

section
/-! SUPPORT. What the superframe timer keeps: one lemma for each operation of a boundary or a close that leaves it as it was. -/
namespace Sys2Proof.Machine

/-- Steps that each keep the timer keep it together. -/
@[simp] theorem foldl_sf {α : Type} {f : State → α → State} {l : List α} {s : State} (h : ∀ t a, (f t a).sf = t.sf) : (l.foldl f s).sf = s.sf := by
  induction l generalizing s with
  | nil => rfl
  | cons a l ih => rw [List.foldl_cons, ih, h]

/-- Where both branches of a choice keep the timer, so does the choice. -/
@[simp] theorem ite_sf (c : Prop) [Decidable c] (s t : State) : (if c then s else t).sf = if c then s.sf else t.sf := apply_ite State.sf c s t

/-! Circuits, rings and records. -/

@[simp] theorem setCirc_sf (c : Nat) (x : Circuit) (s : State) : (setCirc c x s).sf = s.sf := rfl
@[simp] theorem modCirc_sf (c : Nat) (f : Circuit → Circuit) (s : State) : (modCirc c f s).sf = s.sf := rfl
@[simp] theorem setFeed_sf (c : Nat) (x : Feed) (s : State) : (setFeed c x s).sf = s.sf := rfl
@[simp] theorem modFeed_sf (c : Nat) (f : Feed → Feed) (s : State) : (modFeed c f s).sf = s.sf := rfl
@[simp] theorem modTxRing_sf (q : Nat) (f : Ring → Ring) (s : State) : (modTxRing q f s).sf = s.sf := rfl
@[simp] theorem modRecords_sf (f : Record → Record) (s : State) : (modRecords f s).sf = s.sf := rfl
@[simp] theorem modRecordId_sf (ep : Nat) (f : Record → Record) (s : State) : (modRecordId ep f s).sf = s.sf := rfl
@[simp] theorem dropOutgoing_sf (p : Outgoing → Bool) (s : State) : (dropOutgoing p s).sf = s.sf := rfl
@[simp] theorem setRoute_sf (ep : Nat) (via : Option Nat) (s : State) : (setRoute ep via s).sf = s.sf := rfl
@[simp] theorem rangeMiss_sf (ep : Nat) (s : State) : (rangeMiss ep s).sf = s.sf := rfl
@[simp] theorem trainNext_sf (c : Nat) (s : State) : (trainNext c s).sf = s.sf := rfl
@[simp] theorem toRing_sf (f : RxFrame) (s : State) : (toRing f s).sf = s.sf := rfl
@[simp] theorem toRings_sf (fs : List RxFrame) (s : State) : (toRings fs s).sf = s.sf := foldl_sf fun t f => toRing_sf f t

@[simp] theorem release_sf (c : Nat) (a : Option Nat) (s : State) : (release c a s).sf = s.sf := by
  unfold release; split <;> rfl

@[simp] theorem releaseHeld_sf (ep : Nat) (s : State) : (releaseHeld ep s).sf = s.sf := by
  unfold releaseHeld
  split
  · rfl
  · split <;> simp

@[simp] theorem completeTx_sf (f : TxFrame) (status : Nat) (s : State) : (completeTx f status s).sf = s.sf := by
  unfold completeTx
  dsimp only
  split
  · rfl
  · split <;> simp

@[simp] theorem returnFrames_sf (fs : List TxFrame) (status : Nat) (s : State) : (returnFrames fs status s).sf = s.sf := by simp [returnFrames]

/-! Feed links. -/

@[simp] theorem enterFeedPhase_sf (c : Nat) (ph : FeedPhase) (s : State) : (enterFeedPhase c ph s).sf = s.sf := by
  unfold enterFeedPhase
  dsimp only
  split <;> simp

@[simp] theorem retrain_sf (c : Nat) (s : State) : (retrain c s).sf = s.sf := by simp [retrain, beginTraining, dropOpen]

@[simp] theorem retrainUp_sf (c : Nat) (s : State) : (retrainUp c s).sf = s.sf := by
  unfold retrainUp; split <;> simp

/-! The AES engine: its slots and its lock. -/

@[simp] theorem setSlot_sf (k : Nat) (x : Slot) (s : State) : (setSlot k x s).sf = s.sf := rfl

@[simp] theorem lockFree_sf (s : State) : (lockFree s).sf = s.sf := by
  unfold lockFree
  dsimp only
  split
  · rfl
  · split <;> rfl

@[simp] theorem lockRevoke_sf (s : State) : (lockRevoke s).sf = s.sf := by
  unfold lockRevoke; split <;> rfl

@[simp] theorem lockClaim_sf (s : State) : (lockClaim s).sf = s.sf := by
  unfold lockClaim
  dsimp only
  split
  · rfl
  · split <;> simp

@[simp] theorem aeadEnd_sf (a : AeadRun) (result bytes : Nat) (s : State) : (aeadEnd a result bytes s).sf = s.sf := by
  unfold aeadEnd
  dsimp only
  split <;> split <;> simp

@[simp] theorem aeadOutput_sf (r : Nat) (dst : Word) (bs : List Byte) (s : State) : (aeadOutput r dst bs s).sf = s.sf := by
  unfold aeadOutput
  split
  · rfl
  · split <;> rfl

@[simp] theorem aeadFail_sf (a : AeadRun) (result : Nat) (s : State) : (aeadFail a result s).sf = s.sf := by simp [aeadFail]

@[simp] theorem zeroiseSlot_sf (k : Nat) (s : State) : (zeroiseSlot k s).sf = s.sf := by
  unfold zeroiseSlot
  dsimp only
  split
  · split <;> simp
  · simp

@[simp] theorem aeadCoreLost_sf (r : Nat) (s : State) : (aeadCoreLost r s).sf = s.sf := by
  unfold aeadCoreLost
  dsimp only
  split
  · split <;> split <;> simp
  · rfl

/-- A counter used up goes to the keep store as a mark, and to nothing else but the engine (R416). -/
theorem queueMark_sameBut {k counter : Nat} {s t : State} (h : queueMark k counter s = some t) : SameBut [.aead, .keep] s t := by
  unfold queueMark at h
  dsimp only at h
  split at h
  · exact nomatch h
  · obtain rfl := Option.some.inj h
    intro g hg; cases g <;> simp_all [Group.same]

theorem setSlot_sameBut (k : Nat) (x : Slot) (s : State) : SameBut [.aead] s (setSlot k x s) := by
  intro g hg; cases g <;> simp_all [Group.same, setSlot]

theorem useCounter_sameBut {k : Nat} {s t : State} (h : useCounter k s = some t) : SameBut [.aead, .keep] s t := by
  have marked : ∀ {x : Slot} {n : Nat}, queueMark k n (setSlot k x s) = some t → SameBut [.aead, .keep] s t := fun {x n} hm =>
    ((setSlot_sameBut k x s).trans (queueMark_sameBut hm)).mono (by simp)
  unfold useCounter at h
  dsimp only at h
  split at h
  · exact nomatch h
  · split at h
    · exact marked h
    · split at h
      · exact marked h
      · obtain rfl := Option.some.inj h
        exact (setSlot_sameBut _ _ _).mono (by simp)

theorem useCounter_sf {k : Nat} {s t : State} (h : useCounter k s = some t) : t.sf = s.sf := useCounter_sameBut h .sf (by decide)

@[simp] theorem protect_sf (r : Record) (f : Frame) (s : State) : (protect r f s).2.sf = s.sf := by
  unfold protect sealFrame
  dsimp only
  split
  · split
    · next huse =>
      split
      · exact useCounter_sf huse
      · rfl
    · rfl
  · rfl

@[simp] theorem taggedFrame_sf (ftype c : Nat) (body : Nat → Nat → List Byte) (s : State) : (taggedFrame ftype c body s).2.sf = s.sf := by
  unfold taggedFrame
  dsimp only
  split
  · next huse =>
    split
    · exact useCounter_sf huse
    · rfl
  · rfl

/-! What is sent to the endpoints. -/

@[simp] theorem sendOut_sf (c : Nat) (f : Frame) (text : Option (List Byte)) (o : Outgoing) (way : Way) (s : State) :
    (sendOut c f text o way s).sf = s.sf := by
  unfold sendOut
  dsimp only
  rw [emit_sf]
  split
  · rfl
  · split
    · rfl
    · split <;> rfl

@[simp] theorem sendFirst_sf (ep : Nat) (w : Waiting) (r : Record) (s : State) : (sendFirst ep w r s).sf = s.sf := by simp [sendFirst]

@[simp] theorem pumpFrom_sf (n ep : Nat) (s : State) : (pumpFrom n ep s).sf = s.sf := by
  induction n generalizing s with
  | zero => rfl
  | succ n ih =>
    unfold pumpFrom
    split
    · rfl
    · split
      · rfl
      · split
        · rw [ih, sendFirst_sf]
        · rfl

@[simp] theorem sendControl_sf (ep : Nat) (ws : List Word) (s : State) : (sendControl ep ws s).sf = s.sf := by
  simp [sendControl, queueDown, pump]

@[simp] theorem sendTime_sf (ep : Nat) (ws : List Word) (s : State) : (sendTime ep ws s).sf = s.sf := by simp [sendTime, queueDown, pump]

@[simp] theorem sendTimeInfo_sf (ep : Nat) (s : State) : (sendTimeInfo ep s).sf = s.sf := by simp [sendTimeInfo]

@[simp] theorem sendFeedTime_sf (ep : Nat) (s : State) : (sendFeedTime ep s).sf = s.sf := by
  unfold sendFeedTime
  split
  · rfl
  · split <;> simp

@[simp] theorem sendAck_sf (ep : Nat) (s : State) : (sendAck ep s).sf = s.sf := by
  unfold sendAck
  split
  · rfl
  · split <;> simp

@[simp] theorem sendKeyUpdate_sf (s : State) (ep : Nat) : (sendKeyUpdate s ep).sf = s.sf := by
  unfold sendKeyUpdate; split <;> simp

@[simp] theorem sendRelay_sf (ep : Nat) (s : State) : (sendRelay ep s).sf = s.sf := by
  unfold sendRelay; split <;> simp

@[simp] theorem refreshRelays_sf (old s : State) : (refreshRelays old s).sf = s.sf := by simp [refreshRelays]

@[simp] theorem startReaddress_sf (ep : Nat) (s : State) : (startReaddress ep s).sf = s.sf := by
  unfold startReaddress
  split
  · rfl
  · split
    · rfl
    · split <;> simp

@[simp] theorem deleteRecord_sf (ep : Nat) (s : State) : (deleteRecord ep s).sf = s.sf := by
  unfold deleteRecord; split <;> simp

/-! The end of a superframe. -/

@[simp] theorem unusedGrant_sf (s : State) (g : Grant) : (unusedGrant s g).sf = s.sf := by
  unfold unusedGrant
  split
  · rfl
  · split
    · dsimp only
      split <;> simp
    · rfl

@[simp] theorem endOfSuperframe_sf (s : State) : (endOfSuperframe s).sf = s.sf := by
  unfold endOfSuperframe
  dsimp only
  rw [modRecords_sf, foldl_sf fun t ep => deleteRecord_sf ep t, foldl_sf fun t ep => rangeMiss_sf ep t, foldl_sf unusedGrant_sf]

/-! Firmware. -/

@[simp] theorem cancelRunning_sf (s : State) : (cancelRunning s).sf = s.sf :=
  foldl_sf (fun t m => by split <;> simp)

@[simp] theorem dropAdmitting_sf (s : State) : (dropAdmitting s).sf = s.sf := by
  unfold dropAdmitting; split <;> rfl

@[simp] theorem setBank_sf (k : Nat) (b : Bank) (s : State) : (setBank k b s).sf = s.sf := by
  unfold setBank; split <;> rfl

@[simp] theorem restartStandby_sf (s : State) : (restartStandby s).sf = s.sf := by
  unfold restartStandby
  dsimp only
  split <;> simp

@[simp] theorem changeCores_sf (cause : Nat) (s : State) : (changeCores cause s).sf = s.sf := by simp [changeCores, switchCore]

@[simp] theorem beginTrial_sf (source : Nat) (s : State) : (beginTrial source s).sf = s.sf := by
  unfold beginTrial
  dsimp only
  split <;> simp

@[simp] theorem endOfTrial_sf (s : State) : (endOfTrial s).sf = s.sf := by simp [endOfTrial]

@[simp] theorem firmwareBoundary_sf (n : Nat) (s : State) : (firmwareBoundary n s).sf = s.sf := by
  unfold firmwareBoundary
  split
  · simp
  · split
    · split <;> simp
    · rfl

@[simp] theorem firmwareClose_sf (s : State) : (firmwareClose s).sf = s.sf := by
  unfold firmwareClose
  split
  · rfl
  · split
    · rfl
    · split <;> simp

/-! The plan. -/

@[simp] theorem retireCluster_sf (c : Nat) (s : State) : (retireCluster c s).sf = s.sf := by
  unfold retireCluster; split <;> simp

@[simp] theorem substitute_sf (a c : Nat) (s : State) : (substitute a c s).sf = s.sf := by
  unfold substitute; split <;> simp

@[simp] theorem failingCluster_sf (s : State) (c : Nat) : (failingCluster s c).sf = s.sf := by
  unfold failingCluster
  split
  · simp
  · split <;> simp

@[simp] theorem retireUnmapped_sf (s : State) : (retireUnmapped s).sf = s.sf :=
  foldl_sf (fun t c => by split <;> simp)

@[simp] theorem takeEffect_sf (img : List Word) (s : State) : (takeEffect img s).sf = s.sf := by
  unfold takeEffect
  rw [foldl_sf (fun t w => by split <;> simp), retireUnmapped_sf]

@[simp] theorem planSwap_sf (s : State) : (planSwap s).sf = s.sf := by simp [planSwap]

@[simp] theorem overrunBoundary_sf (fresh : List Nat) (s : State) : (overrunBoundary fresh s).sf = s.sf := by simp [overrunBoundary]

@[simp] theorem noteSubst_sf (before s : State) : (noteSubst before s).sf = s.sf := by
  unfold noteSubst; split <;> rfl

@[simp] theorem swapBoundary_sf (n : Nat) (s : State) : (swapBoundary n s).sf = s.sf := by
  unfold swapBoundary
  dsimp only
  split <;> simp [noteOverruns]

@[simp] theorem clusterTested_sf (c : Nat) (pass : Bool) (s : State) : (clusterTested c pass s).sf = s.sf := by
  unfold clusterTested
  dsimp only
  split
  · simp
  · split
    · simp
    · split
      · simp
      · split <;> simp

@[simp] theorem abandonTest_sf (s : State) : (abandonTest s).sf = s.sf := by
  unfold abandonTest
  split
  · rfl
  · split <;> simp

/-- A plan that fails its check again goes back to LOADED (R58). -/
@[simp] theorem planClose_sf (s : State) : (planClose s).sf = s.sf := by
  unfold planClose
  split
  · split <;> simp
  · rfl

/-! Region, ledgers, circuits and keys. -/

@[simp] theorem applyProfile_sf (profile : Nat) (s : State) : (applyProfile profile s).sf = s.sf := by
  unfold applyProfile
  dsimp only
  split
  · rfl
  · rw [mpHold_sf, foldl_sf (fun t c => by split <;> simp)]
    rfl

@[simp] theorem regionBoundary_sf (s : State) : (regionBoundary s).sf = s.sf := by
  unfold regionBoundary
  split
  · split <;> simp
  · rfl

@[simp] theorem creditDue_sf (s : State) (p : Nat) : (creditDue s p).sf = s.sf := by
  unfold creditDue; split <;> rfl

@[simp] theorem hfCheck_sf (s : State) : (hfCheck s).sf = s.sf := by
  unfold hfCheck
  dsimp only
  split <;> simp

@[simp] theorem applyShaping_sf (c : Nat) (s : State) : (applyShaping c s).sf = s.sf := by
  unfold applyShaping
  dsimp only
  split
  · rfl
  · split <;> split <;> simp

@[simp] theorem circuitBoundary_sf (s : State) (c : Nat) : (circuitBoundary s c).sf = s.sf := by simp [circuitBoundary]

@[simp] theorem dropKey_sf (s : State) (k : Nat) : (dropKey s k).sf = s.sf := by
  unfold dropKey; split <;> simp

@[simp] theorem rotateKeys_sf (s : State) : (rotateKeys s).sf = s.sf := by
  unfold rotateKeys
  dsimp only
  split
  · rfl
  · simp [moveKeys]

@[simp] theorem recordsBoundary_sf (s : State) : (recordsBoundary s).sf = s.sf := by
  unfold recordsBoundary
  dsimp only
  split
  · split <;> simp
  · simp

@[simp] theorem serveGrant_sf (s : State) (g : Grant) : (serveGrant s g).sf = s.sf := by
  unfold serveGrant
  split
  · rfl
  · split
    · rfl
    · split
      · dsimp only
        split <;> simp
      · rfl

@[simp] theorem releaseClaim_sf (s : State) : (releaseClaim s).sf = s.sf := by
  unfold releaseClaim
  dsimp only
  split <;> simp

/-! Beacons. -/

@[simp] theorem dropHeads_sf (start c : Nat) (s : State) : (dropHeads start c s).sf = s.sf := rfl

@[simp] theorem noteGrants_sf (s : State) : (noteGrants s).sf = s.sf := by
  unfold noteGrants
  dsimp only
  rw [foldl_sf fun _ _ => modCirc_sf _ _ _, modRecords_sf]

@[simp] theorem sendSheet_sf (s : State) (p : Nat × Dealt) : (sendSheet s p).sf = s.sf := by
  unfold sendSheet
  dsimp only
  split
  · rfl
  · split <;> simp

@[simp] theorem sendBeacon_sf (s : State) (p : Nat × Dealt) : (sendBeacon s p).sf = s.sf := by
  unfold sendBeacon
  dsimp only
  split
  · rw [emit_sf]
    split <;> simp
  · simp

/-- Of the timer, the beacons change the grants in force, the grants of the next superframe, which are taken up, and whether the beacons sent could
be trusted (R278, R333). -/
theorem sendBeacons_sf (s : State) :
    (sendBeacons s).sf = { s.sf with grants := (sendBeacons s).sf.grants, grantsNext := [], beaconTrusted := (sendBeacons s).sf.beaconTrusted } := by
  unfold sendBeacons
  dsimp only
  split
  · rfl
  · rw [foldl_sf sendBeacon_sf, foldl_sf sendSheet_sf, noteGrants_sf, foldl_sf fun _ _ => (dropHeads_sf _ _ _).trans (modCirc_sf _ _ _)]

end Sys2Proof.Machine
end

section
/-! SUPPORT. The close of a grant list: the length it fixes and the grants it takes (R37, R262, R284). -/
namespace Sys2Proof.Machine

/-! The length of the next superframe (R262). -/

theorem clampTo_bounds {lo hi : Int} (x : Int) (h : lo ≤ hi) : lo ≤ clampTo lo hi x ∧ clampTo lo hi x ≤ hi := by
  unfold clampTo
  split
  · omega
  · split <;> omega

/-- A clamp between limits that hold a point moves nothing away from it. -/
theorem clampTo_near {lo hi p x : Int} (hlo : lo ≤ p) (hhi : p ≤ hi) (h : p - 1 ≤ x ∧ x ≤ p + 1) :
    p - 1 ≤ clampTo lo hi x ∧ clampTo lo hi x ≤ p + 1 := by
  unfold clampTo
  split
  · omega
  · split <;> omega

/-- From a length within the limits, the next one is within them and within a tick of it (R262). -/
theorem sizing_length {mains prev : Nat} (free : Bool) (t0 : Nat) (anchor : Int) (x : Crossing) (h : lMinOf mains ≤ prev ∧ prev ≤ lMaxOf mains) :
    let l := (sizing mains free t0 prev anchor x).length
    lMinOf mains ≤ l ∧ l ≤ lMaxOf mains ∧ prev ≤ l + 1 ∧ l ≤ prev + 1 := by
  obtain ⟨hlo, hhi⟩ := h
  have hlo' : (lMinOf mains : Int) ≤ prev := by exact_mod_cast hlo
  have hhi' : (prev : Int) ≤ lMaxOf mains := by exact_mod_cast hhi
  have inner := fun w => clampTo_bounds (lo := (prev : Int) - 1) (hi := prev + 1) w (by omega)
  have limits := fun w => clampTo_bounds (clampTo ((prev : Int) - 1) (prev + 1) w) (Int.le_trans hlo' hhi')
  have near := fun w => clampTo_near hlo' hhi' (inner w)
  intro l
  obtain ⟨w, hw⟩ : ∃ w, l = (clampTo (lMinOf mains) (lMaxOf mains) (clampTo ((prev : Int) - 1) (prev + 1) w)).toNat := ⟨_, rfl⟩
  have := limits w
  have := near w
  omega

/-- The reference that a close follows changes nothing but itself, its count, and the state with its run (R261, R263). -/
theorem followRef_eq (s : State) : ∃ ref switches st run,
    followRef s = { s with sf := { s.sf with ref := ref, refSwitch := switches, state := st, lockRun := run } } := by
  unfold followRef
  split
  · exact ⟨_, _, _, _, rfl⟩
  · split
    · exact ⟨_, _, _, _, rfl⟩
    · exact ⟨_, _, _, _, rfl⟩

/-- What a close fixes as the next length: the L_nom of a MAINS_NOM that waits, and otherwise one within a tick of the present length where that lies
within the limits (R260, R262). -/
def NextLength (sf : Sf) (l : Nat) : Prop :=
  (sf.mainsDue.isSome = true → l = lNomOf (sf.mainsDue.getD sf.mainsNom))
  ∧ (sf.mainsDue = none → lMinOf sf.mainsNom ≤ sf.len ∧ sf.len ≤ lMaxOf sf.mainsNom →
      lMinOf sf.mainsNom ≤ l ∧ l ≤ lMaxOf sf.mainsNom ∧ sf.len ≤ l + 1 ∧ l ≤ sf.len + 1)

/-- The superframe timer's work at a close changes the timer alone: its state and reference, and what it fixes for the next superframe. -/
theorem closeTimer_eq (s : State) : ∃ ref switches st run phi period l, NextLength s.sf l ∧
    closeTimer s = { s with sf := { s.sf with
      ref := ref, refSwitch := switches, state := st, lockRun := run, phi := phi, period := period
      mainsNom := s.sf.mainsDue.getD s.sf.mainsNom, mainsDue := none, lenNext := some l } } := by
  obtain ⟨ref, switches, st, run, hf⟩ := followRef_eq s
  unfold closeTimer
  rw [hf]
  dsimp only
  refine ⟨_, _, _, _, _, _, _, ?_, rfl⟩
  cases hdue : s.sf.mainsDue with
  | some m => exact ⟨fun _ => by simp [hdue], fun h => by simp [hdue] at h⟩
  | none => exact ⟨fun h => by simp [hdue] at h, fun _ h => sizing_length _ _ _ _ h⟩

/-! The check of the entries (R284). -/

/-- What R284 asks of one entry by itself. -/
def EntryOk (nFix : Nat) (g : Grant) : Prop := grantCoded g = true ∧ grantPlaced nFix g = true ∧ (grantBand g = 1 → coversExpress g = false)

theorem grantPasses_iff (nFix : Nat) (taken : List Grant) (g : Grant) :
    grantPasses nFix taken g = true ↔ EntryOk nFix g ∧ ∀ h ∈ taken, grantsMeet g h = false := by
  simp only [grantPasses, EntryOk, Bool.and_eq_true, Bool.not_eq_true', Bool.and_eq_false_imp, List.any_eq_false, beq_iff_eq, Bool.not_eq_true]
  exact ⟨fun ⟨⟨⟨hcoded, hplaced⟩, hmeet⟩, hexpress⟩ => ⟨⟨hcoded, hplaced, hexpress⟩, hmeet⟩,
    fun ⟨⟨hcoded, hplaced, hexpress⟩, hmeet⟩ => ⟨⟨⟨hcoded, hplaced⟩, hmeet⟩, hexpress⟩⟩

/-- The entries taken are each as R284 asks, and none meets one taken before it. -/
theorem checkGrants_taken (nFix : Nat) (gs taken : List Grant) (s : State) (hok : ∀ g ∈ taken, EntryOk nFix g)
    (hapart : taken.Pairwise fun g h => grantsMeet h g = false) :
    (∀ g ∈ (checkGrants nFix gs taken s).1, EntryOk nFix g) ∧ (checkGrants nFix gs taken s).1.Pairwise fun g h => grantsMeet h g = false := by
  induction gs generalizing taken s with
  | nil => exact ⟨hok, hapart⟩
  | cons g gs ih =>
    unfold checkGrants
    split
    · next hpass =>
      obtain ⟨hg, hmeet⟩ := (grantPasses_iff nFix taken g).1 hpass
      refine ih _ _ (fun h hh => ?_) (List.pairwise_append.2 ⟨hapart, List.pairwise_singleton _ _, fun a ha b hb => ?_⟩)
      · rcases List.mem_append.1 hh with hh | hh
        · exact hok h hh
        · rwa [List.mem_singleton.1 hh]
      · rw [List.mem_singleton.1 hb]
        exact hmeet a ha
    · exact ih _ _ hok hapart

@[simp] theorem dropGrant_sf (g : Grant) (s : State) : (dropGrant g s).sf = s.sf := by
  unfold dropGrant
  dsimp only
  split <;> rfl

@[simp] theorem checkGrants_sf (nFix : Nat) (gs taken : List Grant) (s : State) : (checkGrants nFix gs taken s).2.sf = s.sf := by
  induction gs generalizing taken s with
  | nil => rfl
  | cons g gs ih =>
    unfold checkGrants
    split
    · exact ih _ _
    · exact (ih _ _).trans (dropGrant_sf g s)

/-! The list (R37). -/

/-- Where the device may send, the list handed is taken, and without one the last list is kept and its reuse counted. -/
theorem listForClose_sf_of_sends {s : State} (h : sendsAllowed s = true) :
    (listForClose s).2.sf = { s.sf with
      handed := none, lastList := s.sf.handed.getD s.sf.lastList, reuse := if s.sf.handed.isSome then 0 else min (s.sf.reuse + 1) 5 } := by
  unfold listForClose
  rw [if_pos h]
  cases hh : s.sf.handed with
  | some l => rfl
  | none => simp [hh]

/-- A standby takes no list (R465). -/
theorem listForClose_of_standby {s : State} (h : sendsAllowed s = false) : listForClose s = ([], s) := if_neg (by simp [h])

/-! The whole close. -/

/-- The state at a close whose list is to be taken: the timer has fixed the length, and firmware's list has been scheduled (R44, R262). -/
def closeScheduled (s : State) : State :=
  let t := planClose (closeTimer s)
  let t := modRecords (snapAtGrant t) t
  { t with sf := { t.sf with handed := t.sf.handed.map (scheduleList t) } }

/-- The list of a close checked against R284: the entries taken, and the state with the drops counted. -/
def closeChecked (s : State) : List Grant × State :=
  let l := listForClose (closeScheduled s)
  checkGrants (nFixOf l.2.sf.mainsNom) l.1 [] l.2

/-- What a close leaves. -/
def afterClose (s : State) : State :=
  let k := closeChecked s
  let t := firmwareClose { k.2 with sf := { k.2.sf with
    grantsNext := if sendsAllowed (closeScheduled s) then k.1 else k.2.sf.grantsNext, closed := true } }
  if domOn t 29 && sendsAllowed t then lockClaim t else t

/-- GRANT_LIST_CLOSE acts once in a superframe, from the start of the rejoin window on (R37, R44). -/
theorem exec_grantListClose (s : State) :
    exec .grantListClose s
      = commit s (if !counting s || s.sf.closed || decide (s.clk.now < s.sf.t0 + 25 * nFixOf s.sf.mainsNom) then s else afterClose s) := rfl

theorem planClose_pair (s : State) : (planClose s).pair = s.pair := by
  unfold planClose
  split
  · split <;> simp
  · rfl

theorem closeTimer_pair (s : State) : (closeTimer s).pair = s.pair := by
  obtain ⟨_, _, _, _, _, _, _, -, h⟩ := closeTimer_eq s
  rw [h]

theorem sendsAllowed_closeScheduled (s : State) : sendsAllowed (closeScheduled s) = sendsAllowed s := by
  have : (closeScheduled s).pair = s.pair := (planClose_pair _).trans (closeTimer_pair s)
  unfold sendsAllowed
  rw [this]

/-- Before its list is taken a close changes of the timer what the length rests on, and the settings of the list handed (R183, R262). -/
theorem closeScheduled_sf (s : State) : ∃ handed : List Grant → List Grant,
    (closeScheduled s).sf = { (closeTimer s).sf with handed := s.sf.handed.map handed } := by
  obtain ⟨_, _, _, _, _, _, _, -, h⟩ := closeTimer_eq s
  refine ⟨scheduleList (modRecords (snapAtGrant (planClose (closeTimer s))) (planClose (closeTimer s))), ?_⟩
  unfold closeScheduled
  simp [h]

theorem afterClose_sf (s : State) :
    (afterClose s).sf = { (listForClose (closeScheduled s)).2.sf with
      grantsNext := if sendsAllowed s then (closeChecked s).1 else (listForClose (closeScheduled s)).2.sf.grantsNext, closed := true } := by
  simp [afterClose, closeChecked, sendsAllowed_closeScheduled]

end Sys2Proof.Machine
end

section
/-! SUPPORT. The boundary between superframes: the first one, and the one after a close (R262, R264). -/
namespace Sys2Proof.Machine

/-- A boundary moves the count on and takes up the grants; the rest of the timer stays as the close left it (R262, R264). -/
theorem nextSuperframe_sf (s : State) : ∃ grants trusted, (nextSuperframe s).sf = { s.sf with
    number := (s.sf.number + 1) % 1099511627776, t0 := s.sf.t0 + s.sf.len, lenPrev := s.sf.len, len := s.sf.lenNext.getD s.sf.len
    lenNext := none, closed := false, grants := grants, grantsNext := [], beaconTrusted := trusted } := by
  unfold nextSuperframe
  dsimp only
  rw [releaseClaim_sf, ite_sf, foldl_sf serveGrant_sf, ite_self, sendBeacons_sf, recordsBoundary_sf, rotateKeys_sf, foldl_sf circuitBoundary_sf,
    hfCheck_sf, foldl_sf creditDue_sf, regionBoundary_sf, abandonTest_sf, swapBoundary_sf]
  simp only [advanceSf, firmwareBoundary_sf, endOfSuperframe_sf]
  exact ⟨_, _, rfl⟩

/-- Steps of one frame have it together. -/
theorem foldl_sameBut {α : Type} {gs : List Group} {f : State → α → State} (h : ∀ t a, SameBut gs t (f t a)) (l : List α) (s : State) :
    SameBut gs s (l.foldl f s) := by
  induction l generalizing s with
  | nil => exact sameBut_refl _ _
  | cons a l ih => exact ((h s a).trans (ih _)).mono (by simp)

theorem creditDue_sameBut (s : State) (p : Nat) : SameBut [.port] s (creditDue s p) := by
  unfold creditDue
  split
  · intro g hg; cases g <;> simp_all [Group.same]
  · exact sameBut_refl _ _

theorem restoreKeys_sameBut (s : State) : SameBut [.aead] s (restoreKeys s) := by
  unfold restoreKeys
  split
  · refine foldl_sameBut (fun t k => ?_) _ _
    unfold restoreKey
    dsimp only
    split
    · split
      · exact setSlot_sameBut _ _ _
      · exact sameBut_refl _ _
    · exact sameBut_refl _ _
  · exact sameBut_refl _ _

theorem wrapUnder_sameBut (k : Nat) (ad key : List Byte) (s : State) : SameBut [.aead, .keep] s (wrapUnder k ad key s).2 := by
  unfold wrapUnder
  dsimp only
  cases h : useCounter k s with
  | none => exact sameBut_refl _ _
  | some t => exact useCounter_sameBut h

theorem drawDrbg_sameBut (n : Nat) (s : State) : SameBut [.clk, .aead] s (drawDrbg n s).2 := by
  intro g hg; cases g <;> simp_all [Group.same, drawDrbg]

theorem withSec_sameBut (x : Sec) (s : State) : SameBut [.sec] s { s with sec := x } := by
  intro g hg; cases g <;> simp_all [Group.same]

/-- A circuit key is drawn into its slot, and its wrapped form kept (R420). -/
theorem makeKey_sameBut (k epoch : Nat) (s : State) : SameBut [.sec, .aead, .keep, .clk] s (makeKey k epoch s) := by
  unfold makeKey
  exact ((((drawDrbg_sameBut 4 s).trans (setSlot_sameBut _ _ _)).trans (wrapUnder_sameBut 1 _ _ _)).trans (withSec_sameBut _ _)).mono (by simp)

theorem ensureKeys_sameBut (s : State) : SameBut [.sec, .aead, .keep, .clk] s (ensureKeys s) := by
  unfold ensureKeys
  dsimp only
  split
  · split
    · exact ((restoreKeys_sameBut s).trans (makeKey_sameBut 1 1 _)).mono (by simp)
    · exact (restoreKeys_sameBut s).mono (by simp)
  · exact sameBut_refl _ _

/-- The timer as the first superframe begins with it (R264). -/
def firstSf (s : State) : Sf :=
  { s.sf with running := true, t0 := s.clk.now, len := lNomOf s.sf.mainsNom, lenPrev := lNomOf s.sf.mainsNom, lenNext := none
              state := .free, lockRun := 0, phi := 0, period := 0, closed := false }

theorem withSf_sameBut (x : Sf) (s : State) : SameBut [.sf] s { s with sf := x } := by
  intro g hg; cases g <;> simp_all [Group.same]

theorem firstSuperframe_spec (s : State) :
    (firstSuperframe s).sf = firstSf s ∧ SameBut [.sf, .port, .sec, .aead, .keep, .clk] s (firstSuperframe s) := by
  have after : SameBut [.port, .sec, .aead, .keep, .clk] { s with sf := firstSf s } (firstSuperframe s) :=
    (foldl_sameBut creditDue_sameBut (List.range 32) _).trans (ensureKeys_sameBut _)
  exact ⟨after .sf (by decide), (withSf_sameBut _ s).trans after⟩

theorem exec_superframeBoundary (s : State) :
    exec .superframeBoundary s
      = commit s (if !domOn s 28 then s
          else if !s.sf.running then firstSuperframe s
          else if s.sf.closed && decide (s.sf.t0 + s.sf.len ≤ s.clk.now) then nextSuperframe s else s) := rfl

end Sys2Proof.Machine
end

section
/-! Settles O40: the grant lists and the superframes, one lemma for each clause. -/
namespace Sys2Proof.Machine

/-! How a command completes. -/

/-- A command without effect completes and changes nothing. -/
theorem completes_unchanged {i : Instr} {s : State} (h : exec i s = commit s s) : Completes i s fun t => t = s :=
  ⟨s, h.trans (commit_self s), rfl⟩

/-- The superframe timer raises no cause of INT_CAUSE (R480), so a command that changes it alone leaves exactly that. -/
theorem commit_withSf (s : State) (x : Sf) : commit s { s with sf := x } = .next { s with sf := x } := by
  have : intPending s &&& ~~~ intPending s = 0 := by simp
  exact congrArg Host.Outcome.next (if_pos this)

/-- A command whose effect is `e` completes with what follows from it. -/
theorem completes_of_exec {i : Instr} {s e : State} {P : State → Prop} (h : exec i s = commit s e) (hp : ∀ u, Becomes s e u → P u) :
    Completes i s P := by
  unfold Completes
  rw [h]
  exact completes_becomes hp

/-! What each command of the family does. -/

theorem exec_grantListHandover (n : Nat) (list : List Grant) (s : State) :
    exec (.grantListHandover n list) s
      = commit s (if counting s && n == s.sf.number + 1 && !s.sf.closed then { s with sf := { s.sf with handed := some list } } else s) := rfl

theorem exec_grantListReuseExpiry (s : State) :
    exec .grantListReuseExpiry s = commit s (if 4 ≤ s.sf.reuse ∧ s.sf.handed = none then { s with sf := { s.sf with lastList := [] } } else s) := rfl

/-- The timer without a reference: FREE, and the loss counted (R263). -/
def refLostSf (sf : Sf) : Sf := { sf with state := .free, ref := none, lockRun := 0, lockLoss := sat32 sf.lockLoss 1 }

theorem exec_sfRefLost (s : State) :
    exec .sfRefLost s
      = commit s (if s.sf.state = .free ∨ (chosenRef s).isSome = true then s else raise 0x0022 0 { s with sf := refLostSf s.sf }) := rfl

/-- A circuit with its chaff counts halved and its marks made anew (R237). -/
def chaffHalved (x : Circuit) : Circuit :=
  let y := { x with sinceHalving := 0, bins := tabMap 0 (· / 2) x.bins }
  { y with noisy := noisyMarks y }

/-- The marks come from the counts and the settings, not from the marks before (R237). -/
theorem noisyMarks_withNoisy (x : Circuit) (w : Word) : noisyMarks { x with noisy := w } = noisyMarks x := by
  simp only [noisyMarks]

theorem chaffHalved_noisy (x : Circuit) : (chaffHalved x).noisy = noisyMarks (chaffHalved x) := (noisyMarks_withNoisy _ _).symm

theorem exec_chaffAgeHalving {c : Nat} {s : State} (h : circuitExists s c = true) :
    exec (.chaffAgeHalving c) s
      = commit s (if circuitActive s c = true ∧ 2 ^ (circOf s c).set.chaffAge ≤ (circOf s c).sinceHalving then modCirc c chaffHalved s else s) :=
  onObject_true h

theorem exec_sfMarkWrite (s : State) :
    exec .sfMarkWrite s
      = commit s (if s.sf.running ∧ s.sf.mark + 1048576 ≤ s.sf.number then
          mpWrite 1600 (BitVec.ofNat 64 s.sf.number) { s with sf := { s.sf with mark := s.sf.number } } else s) := rfl

theorem exec_endpointSummaryWrite (s : State) :
    exec .endpointSummaryWrite s
      = commit s (if s.sf.running ∧ s.sf.number % 1024 = 0 then mpWrite (summaryPlace s) (summaryWord s) s else s) := rfl

/-- What a word of the keep store will hold depends on the keep store alone. -/
theorem keepQueued_congr {s t : State} (h : t.keep = s.keep) (w : Nat) : keepQueued t w = keepQueued s w := by
  unfold keepQueued keepWord cellOf
  rw [h]

/-! The clauses. -/

theorem handover_holds {s : State} {n : Nat} (list : List Grant) (hc : counting s = true) (hn : n = s.sf.number + 1) (ho : s.sf.closed = false) :
    Completes (.grantListHandover n list) s fun t => t = { s with sf := { s.sf with handed := some list } } := by
  refine ⟨_, ?_, rfl⟩
  rw [exec_grantListHandover, if_pos (by simp [hc, hn, ho]), commit_withSf]

theorem handover_ignored {s : State} {n : Nat} (list : List Grant) (h : counting s = false ∨ n ≠ s.sf.number + 1 ∨ s.sf.closed = true) :
    Completes (.grantListHandover n list) s fun t => t = s := by
  refine completes_unchanged ?_
  rw [exec_grantListHandover, if_neg]
  rcases h with h | h | h <;> simp [h]

theorem reuseExpiry_empties {s : State} (hr : 4 ≤ s.sf.reuse) (hh : s.sf.handed = none) :
    Completes .grantListReuseExpiry s fun t => t = { s with sf := { s.sf with lastList := [] } } := by
  refine ⟨_, ?_, rfl⟩
  rw [exec_grantListReuseExpiry, if_pos ⟨hr, hh⟩, commit_withSf]

theorem reuseExpiry_ignored {s : State} (h : s.sf.reuse < 4 ∨ s.sf.handed ≠ none) : Completes .grantListReuseExpiry s fun t => t = s := by
  refine completes_unchanged ?_
  rw [exec_grantListReuseExpiry, if_neg]
  rintro ⟨hr, hh⟩
  rcases h with h | h
  · omega
  · exact h hh

/-- The entries that a close takes for the next superframe (R284). -/
theorem closeChecked_taken (s : State) :
    (∀ g ∈ (closeChecked s).1, EntryOk (nFixOf (afterClose s).sf.mainsNom) g) ∧ (closeChecked s).1.Pairwise fun g h => grantsMeet h g = false := by
  rw [afterClose_sf]
  exact checkGrants_taken _ _ [] _ (by simp) List.Pairwise.nil

/-- What a close makes of the timer where the device may send, and as a standby (R37, R262, R465). -/
theorem afterClose_fixes (s : State) : ∃ ref switches st run phi period l, NextLength s.sf l ∧ ∃ handed : List Grant → List Grant,
    (afterClose s).sf = { s.sf with
      ref := ref, refSwitch := switches, state := st, lockRun := run, phi := phi, period := period
      mainsNom := s.sf.mainsDue.getD s.sf.mainsNom, mainsDue := none, lenNext := some l, closed := true
      grantsNext := if sendsAllowed s then (closeChecked s).1 else s.sf.grantsNext
      handed := if sendsAllowed s then none else s.sf.handed.map handed
      lastList := if sendsAllowed s then (s.sf.handed.map handed).getD s.sf.lastList else s.sf.lastList
      reuse := if sendsAllowed s then (if s.sf.handed.isSome then 0 else min (s.sf.reuse + 1) 5) else s.sf.reuse } := by
  obtain ⟨ref, switches, st, run, phi, period, l, hl, htimer⟩ := closeTimer_eq s
  obtain ⟨handed, hsf⟩ := closeScheduled_sf s
  refine ⟨ref, switches, st, run, phi, period, l, hl, handed, ?_⟩
  rw [afterClose_sf]
  cases hs : sendsAllowed s with
  | true =>
    rw [listForClose_sf_of_sends ((sendsAllowed_closeScheduled s).trans hs), hsf, htimer]
    simp
  | false =>
    rw [listForClose_of_standby ((sendsAllowed_closeScheduled s).trans hs), hsf, htimer]
    simp

theorem close_fixes {s : State} (hc : counting s = true) (ho : s.sf.closed = false) (hw : s.sf.t0 + 25 * nFixOf s.sf.mainsNom ≤ s.clk.now) :
    Completes .grantListClose s fun t =>
      t.sf.closed = true ∧ t.sf.number = s.sf.number ∧ t.sf.t0 = s.sf.t0 ∧ t.sf.len = s.sf.len
      ∧ t.sf.mainsNom = s.sf.mainsDue.getD s.sf.mainsNom ∧ t.sf.mainsDue = none
      ∧ (∃ l, t.sf.lenNext = some l ∧ (s.sf.mainsDue.isSome = true → l = lNomOf t.sf.mainsNom)
        ∧ (s.sf.mainsDue = none → lMinOf s.sf.mainsNom ≤ s.sf.len ∧ s.sf.len ≤ lMaxOf s.sf.mainsNom →
            lMinOf s.sf.mainsNom ≤ l ∧ l ≤ lMaxOf s.sf.mainsNom ∧ s.sf.len ≤ l + 1 ∧ l ≤ s.sf.len + 1))
      ∧ (sendsAllowed s = true → ∀ g ∈ t.sf.grantsNext,
          grantCoded g = true ∧ grantPlaced (nFixOf t.sf.mainsNom) g = true ∧ (grantBand g = 1 → coversExpress g = false))
      ∧ (sendsAllowed s = true → t.sf.grantsNext.Pairwise (fun g h => grantsMeet h g = false))
      ∧ (sendsAllowed s = true → t.sf.handed = none ∧ (s.sf.handed.isSome = true → t.sf.reuse = 0)
          ∧ (s.sf.handed = none → t.sf.lastList = s.sf.lastList ∧ t.sf.reuse = min (s.sf.reuse + 1) 5))
      ∧ (sendsAllowed s = false → t.sf.grantsNext = s.sf.grantsNext) := by
  have hexec : exec .grantListClose s = commit s (afterClose s) := by
    rw [exec_grantListClose, if_neg]
    simpa [hc, ho] using hw
  refine completes_of_exec hexec fun t ht => ?_
  obtain ⟨hok, hapart⟩ := closeChecked_taken s
  obtain ⟨ref, switches, st, run, phi, period, l, ⟨hdue, hnear⟩, handed, hsf⟩ := afterClose_fixes s
  have htsf : t.sf = (afterClose s).sf := ht.1 .sf (by decide)
  rw [hsf] at hok
  rw [htsf, hsf]
  refine ⟨rfl, rfl, rfl, rfl, rfl, rfl, ⟨l, rfl, hdue, hnear⟩, fun hs g hg => hok g ?_, fun hs => ?_,
    fun hs => ⟨?_, fun hh => ?_, fun hh => ⟨?_, ?_⟩⟩, fun hs => ?_⟩
  · simpa [hs] using hg
  · simpa [hs] using hapart
  · simp [hs]
  · simp [hs, hh]
  · simp [hs, hh]
  · simp [hs, hh]
  · simp [hs]

theorem close_ignored {s : State} (h : counting s = false ∨ s.sf.closed = true ∨ s.clk.now < s.sf.t0 + 25 * nFixOf s.sf.mainsNom) :
    Completes .grantListClose s fun t => t = s := by
  refine completes_unchanged ?_
  rw [exec_grantListClose, if_pos]
  rcases h with h | h | h <;> simp [h]

theorem boundary_advances {s : State} (hd : domOn s 28 = true) (hr : s.sf.running = true) (hc : s.sf.closed = true)
    (he : s.sf.t0 + s.sf.len ≤ s.clk.now) :
    Completes .superframeBoundary s fun t =>
      t.sf.number = (s.sf.number + 1) % 1099511627776 ∧ t.sf.t0 = s.sf.t0 + s.sf.len ∧ t.sf.lenPrev = s.sf.len ∧ t.sf.len = s.sf.lenNext.getD s.sf.len
      ∧ t.sf.lenNext = none ∧ t.sf.closed = false ∧ t.sf.grantsNext = [] ∧ t.sf.state = s.sf.state ∧ t.sf.mark = s.sf.mark := by
  have hexec : exec .superframeBoundary s = commit s (nextSuperframe s) := by
    rw [exec_superframeBoundary, if_neg (by simp [hd]), if_neg (by simp [hr]), if_pos (by simp [hc, he])]
  refine completes_of_exec hexec fun t ht => ?_
  obtain ⟨grants, trusted, hsf⟩ := nextSuperframe_sf s
  have htsf : t.sf = (nextSuperframe s).sf := ht.1 .sf (by decide)
  rw [htsf, hsf]
  exact ⟨rfl, rfl, rfl, rfl, rfl, rfl, rfl, rfl, rfl⟩

theorem boundary_begins {s : State} (hd : domOn s 28 = true) (hr : s.sf.running = false) :
    Completes .superframeBoundary s fun t => t.sf = firstSf s ∧ SameBut [.sf, .port, .sec, .aead, .keep, .clk, .irq, .out] s t := by
  have hexec : exec .superframeBoundary s = commit s (firstSuperframe s) := by
    rw [exec_superframeBoundary, if_neg (by simp [hd]), if_pos (by simp [hr])]
  refine completes_of_exec hexec fun t ht => ?_
  obtain ⟨hsf, hframe⟩ := firstSuperframe_spec s
  exact ⟨(ht.1 .sf (by decide)).trans hsf, (becomes_same hframe ht).mono (by simp)⟩

theorem boundary_ignored {s : State} (h : domOn s 28 = false ∨ s.sf.running = true ∧ (s.sf.closed = false ∨ s.clk.now < s.sf.t0 + s.sf.len)) :
    Completes .superframeBoundary s fun t => t = s := by
  refine completes_unchanged ?_
  rw [exec_superframeBoundary]
  rcases h with h | ⟨hr, h⟩
  · rw [if_pos (by simp [h])]
  · have hend : ¬(s.sf.closed && decide (s.sf.t0 + s.sf.len ≤ s.clk.now)) = true := by rcases h with h | h <;> simp [h]
    simp [hr, hend]

theorem refLost_frees {s : State} (hs : s.sf.state ≠ .free) (hc : chosenRef s = none) :
    Completes .sfRefLost s fun t => t.sf = refLostSf s.sf ∧ Logged 0x0022 0 s t ∧ SameBut [.sf, .irq, .mem, .out] s t := by
  have hexec : exec .sfRefLost s = commit s (raise 0x0022 0 { s with sf := refLostSf s.sf }) := by
    rw [exec_sfRefLost, if_neg (by simp [hs, hc])]
  refine completes_of_exec hexec fun t ht => ?_
  have hsf : t.sf = (raise 0x0022 0 { s with sf := refLostSf s.sf }).sf := ht.1 .sf (by decide)
  refine ⟨hsf.trans (raise_sf _ _ _), raise_logged (s := { s with sf := refLostSf s.sf }) _ _ ht.2.1, ?_⟩
  have hraise : SameBut [.irq, .mem] { s with sf := refLostSf s.sf } (raise 0x0022 0 { s with sf := refLostSf s.sf }) := by
    intro g hg; cases g <;> simp_all [Group.same]
  exact (becomes_same ((withSf_sameBut _ s).trans hraise) ht).mono (by simp)

theorem refLost_ignored {s : State} (h : s.sf.state = .free ∨ (chosenRef s).isSome = true) : Completes .sfRefLost s fun t => t = s :=
  completes_unchanged (by rw [exec_sfRefLost, if_pos h])

theorem chaffAge_halves {s : State} {c : Nat} (hx : circuitExists s c = true) (ha : circuitActive s c = true)
    (hn : 2 ^ (circOf s c).set.chaffAge ≤ (circOf s c).sinceHalving) :
    Completes (.chaffAgeHalving c) s fun t =>
      (∀ b, tabGet 0 (circOf t c).bins b = tabGet 0 (circOf s c).bins b / 2) ∧ (circOf t c).sinceHalving = 0
      ∧ (circOf t c).noisy = noisyMarks (circOf t c) ∧ (∀ d, d ≠ c → circOf t d = circOf s d) ∧ Alone [.circ] s t := by
  have hexec : exec (.chaffAgeHalving c) s = commit s (modCirc c chaffHalved s) := by
    rw [exec_chaffAgeHalving hx, if_pos ⟨ha, hn⟩]
  refine completes_of_exec hexec fun t ht => ?_
  have hcirc : t.circ = (modCirc c chaffHalved s).circ := ht.1 .circ (by decide)
  have hself : circOf t c = chaffHalved (circOf s c) := (circOf_congr hcirc c).trans (circOf_setCirc _ _ _)
  rw [hself]
  refine ⟨fun b => tabGet_tabMap 0 (· / 2) rfl _ b, rfl, chaffHalved_noisy _,
    fun d hd => (circOf_congr hcirc d).trans (circOf_setCirc_ne _ _ _ _ hd), becomes_alone ?_ (by decide) ht⟩
  intro g hg; cases g <;> simp_all [Group.same, modCirc, setCirc]

theorem chaffAge_ignored {s : State} {c : Nat} (hx : circuitExists s c = true)
    (h : circuitActive s c = false ∨ (circOf s c).sinceHalving < 2 ^ (circOf s c).set.chaffAge) :
    Completes (.chaffAgeHalving c) s fun t => t = s := by
  refine completes_unchanged ?_
  rw [exec_chaffAgeHalving hx, if_neg]
  rintro ⟨ha, hn⟩
  rcases h with h | h
  · simp [h] at ha
  · omega

theorem sfMark_queued {s : State} (hr : s.sf.running = true) (hm : s.sf.mark + 1048576 ≤ s.sf.number) :
    Completes .sfMarkWrite s fun t =>
      t.sf = { s.sf with mark := s.sf.number } ∧ keepQueued t 1600 = BitVec.ofNat 64 s.sf.number ∧ Alone [.sf, .keep] s t := by
  refine completes_of_exec (by rw [exec_sfMarkWrite, if_pos ⟨hr, hm⟩]) fun t ht => ?_
  have hkeep := ht.1 .keep (by decide)
  refine ⟨(ht.1 .sf (by decide)).trans (mpWrite_sf _ _ _), (keepQueued_congr hkeep _).trans (keepQueued_mpWrite _ _ _), ?_⟩
  exact becomes_alone ((withSf_sameBut _ s).trans (mpWrite_sameBut _ _ _)) (by decide) ht

theorem sfMark_ignored {s : State} (h : s.sf.running = false ∨ s.sf.number < s.sf.mark + 1048576) : Completes .sfMarkWrite s fun t => t = s := by
  refine completes_unchanged ?_
  rw [exec_sfMarkWrite, if_neg]
  rintro ⟨hr, hm⟩
  rcases h with h | h
  · simp [h] at hr
  · omega

/-- The summary ring is the 256 words from 1603 on (R440). -/
theorem summaryPlace_mem (s : State) : 1603 ≤ summaryPlace s ∧ summaryPlace s ≤ 1858 := by
  unfold summaryPlace
  dsimp only
  generalize hfind : List.find? (fun k => !worn s (1603 + k)) _ = found
  cases found with
  | none => simp only [Option.getD_none]; omega
  | some k =>
    obtain ⟨j, -, rfl⟩ := List.mem_map.1 (List.mem_of_find?_eq_some hfind)
    simp only [Option.getD_some]; omega

theorem summary_queued {s : State} (hr : s.sf.running = true) (hn : s.sf.number % 1024 = 0) :
    Completes .endpointSummaryWrite s fun t =>
      keepQueued t (summaryPlace s) = summaryWord s ∧ 1603 ≤ summaryPlace s ∧ summaryPlace s ≤ 1858 ∧ Alone [.keep] s t := by
  refine completes_of_exec (by rw [exec_endpointSummaryWrite, if_pos ⟨hr, hn⟩]) fun t ht => ?_
  obtain ⟨hlow, hhigh⟩ := summaryPlace_mem s
  have hkeep := ht.1 .keep (by decide)
  exact ⟨(keepQueued_congr hkeep _).trans (keepQueued_mpWrite _ _ _), hlow, hhigh, becomes_alone (mpWrite_sameBut _ _ _) (by decide) ht⟩

theorem summary_ignored {s : State} (h : s.sf.running = false ∨ s.sf.number % 1024 ≠ 0) : Completes .endpointSummaryWrite s fun t => t = s := by
  refine completes_unchanged ?_
  rw [exec_endpointSummaryWrite, if_neg]
  rintro ⟨hr, hn⟩
  rcases h with h | h
  · simp [h] at hr
  · exact h hn

/-- Settles O40: each clause is what one command of the superframe does, or that it does nothing outside its condition. -/
theorem grantListsAndSuperframes : Obligations.GrantListsAndSuperframes :=
  ⟨fun _ _ list => handover_holds list, fun _ _ list => handover_ignored list, fun _ => reuseExpiry_empties, fun _ => reuseExpiry_ignored,
    fun _ ⟨hc, ho, hw⟩ => close_fixes hc ho hw, fun _ => close_ignored,
    fun _ ⟨hd, hr, hc, he⟩ => boundary_advances hd hr hc he, fun _ ⟨hd, hr⟩ => boundary_begins hd hr, fun _ => boundary_ignored,
    fun _ => refLost_frees, fun _ => refLost_ignored, fun _ _ => chaffAge_halves, fun _ _ => chaffAge_ignored,
    fun _ => sfMark_queued, fun _ => sfMark_ignored, fun _ => summary_queued, fun _ => summary_ignored⟩

end Sys2Proof.Machine
end

section
/-! SUPPORT. The end of a reception: what it leaves of its circuit, the watch over receptions begun in a JOIN grant, and commands that change one
circuit (R128, R138, R140, R291). -/
namespace Sys2Proof.Machine

/-! What the operations on a circuit leave of it. -/

/-- A thaw changes the AGC's state alone (R128). -/
theorem thaw_eq (x : Circuit) : thaw x = { x with agc := if x.agc = .frozen ∧ receiving x = false then x.agcBack else x.agc } := by
  unfold thaw; split <;> rfl

@[simp] theorem thaw_joinUntil (x : Circuit) : (thaw x).joinUntil = x.joinUntil := by rw [thaw_eq]
@[simp] theorem thaw_failedSeat (x : Circuit) : (thaw x).failedSeat = x.failedSeat := by rw [thaw_eq]
@[simp] theorem bump_joinUntil (k : Ctr) (x : Circuit) : (bump k x).joinUntil = x.joinUntil := rfl
@[simp] theorem bump_failedSeat (k : Ctr) (x : Circuit) : (bump k x).failedSeat = x.failedSeat := rfl
@[simp] theorem bump_agc (k : Ctr) (x : Circuit) : (bump k x).agc = x.agc := rfl
@[simp] theorem bump_gain (k : Ctr) (x : Circuit) : (bump k x).gain = x.gain := rfl
@[simp] theorem bump_clipRun (k : Ctr) (x : Circuit) : (bump k x).clipRun = x.clipRun := rfl

/-- Leaving a Class A reception changes EQ_SINR alone (R186). -/
theorem leaveSinr_eq (x : Circuit) : leaveSinr x = { x with eqSinr := if x.rxA.st = .payload then eqSinrOf x.rxA else x.eqSinr } := by
  unfold leaveSinr; split <;> rfl

/-- An abort changes the two receivers and EQ_SINR alone (R136, R140). -/
theorem abortAll_eq (close : Nat) (x : Circuit) :
    abortAll close x = { x with
      eqSinr := if x.rxA.st = .payload then eqSinrOf x.rxA else x.eqSinr
      rxT := restart x.rxT, rxA := if x.rxA.st = .idle then x.rxA else { closedTo := close } } := by
  unfold abortAll; rw [leaveSinr_eq]

@[simp] theorem abortAll_joinUntil (close : Nat) (x : Circuit) : (abortAll close x).joinUntil = x.joinUntil := by rw [abortAll_eq]
@[simp] theorem abortAll_agc (close : Nat) (x : Circuit) : (abortAll close x).agc = x.agc := by rw [abortAll_eq]
@[simp] theorem abortAll_gain (close : Nat) (x : Circuit) : (abortAll close x).gain = x.gain := by rw [abortAll_eq]
@[simp] theorem abortAll_clipRun (close : Nat) (x : Circuit) : (abortAll close x).clipRun = x.clipRun := by rw [abortAll_eq]
@[simp] theorem abortAll_counters (close : Nat) (x : Circuit) : (abortAll close x).counters = x.counters := by rw [abortAll_eq]
@[simp] theorem abortAll_rxT_st (close : Nat) (x : Circuit) : (abortAll close x).rxT.st = .idle := rfl
@[simp] theorem abortAll_rxA_st (close : Nat) (x : Circuit) : (abortAll close x).rxA.st = .idle := by
  rw [abortAll_eq]
  dsimp only
  split
  · assumption
  · rfl

/-! Circuits and records in the state. -/

theorem setCirc_sameBut (c : Nat) (x : Circuit) (s : State) : SameBut [.circ] s (setCirc c x s) := by
  intro g hg; cases g <;> simp_all [Group.same, setCirc]

theorem modRecordAt_sameBut (c a : Nat) (f : Record → Record) (s : State) : SameBut [.link] s (modRecordAt c a f s) := by
  intro g hg; cases g <;> simp_all [Group.same, modRecordAt, modRecords]

@[simp] theorem circOf_modRecordAt (c a d : Nat) (f : Record → Record) (s : State) : circOf (modRecordAt c a f s) d = circOf s d := rfl
@[simp] theorem modRecordAt_link (c a : Nat) (f : Record → Record) (s : State) :
    (modRecordAt c a f s).link = { s.link with records := s.link.records.map fun r => if r.circuit = c ∧ r.addr = some a then f r else r } := rfl
@[simp] theorem setCirc_link (c : Nat) (x : Circuit) (s : State) : (setCirc c x s).link = s.link := rfl

/-- An event is logged, or counted as overflow, and may fire the capture ring (R372, R394). -/
theorem raise_sameBut (code obj : Nat) (s : State) : SameBut [.irq, .mem] s (raise code obj s) := by
  intro g hg; cases g <;> simp_all [Group.same]

/-- What the log says of an event depends on the interrupt state and the tick before it. -/
theorem logged_congr {s r u : State} {code obj : Nat} (hirq : r.irq = s.irq) (hclk : r.clk = s.clk) (h : Logged code obj r u) :
    Logged code obj s u := by
  unfold Logged at h ⊢
  rwa [hirq, hclk] at h

/-! The watch over receptions begun in a JOIN grant (R291). -/

/-- The watch changes how long JOIN grants follow, and nothing else of the circuit. -/
theorem circOf_watchJoin (c : Nat) (x y : Circuit) (s : State) :
    circOf (watchJoin c x (setCirc c y s)) c = { y with
      joinUntil := if x.rxT.st ≠ .idle ∧ lossesT x < lossesT y ∧ inJoin s c x.rxT.since = true then s.sf.number + 8 else y.joinUntil } := by
  have hself : circOf (setCirc c y s) c = y := circOf_setCirc c y s
  have hjoin : inJoin (setCirc c y s) c x.rxT.since = inJoin s c x.rxT.since := rfl
  unfold watchJoin
  rw [hself, hjoin]
  split
  · exact (circOf_setCirc _ _ _).trans (by rw [hself]; rfl)
  · exact hself

theorem circOf_watchJoin_ne (c d : Nat) (x : Circuit) (s : State) (h : d ≠ c) : circOf (watchJoin c x s) d = circOf s d := by
  unfold watchJoin
  split
  · exact circOf_setCirc_ne _ _ _ _ h
  · rfl

theorem watchJoin_sameBut (c : Nat) (x : Circuit) (s : State) : SameBut [.circ] s (watchJoin c x s) := by
  unfold watchJoin
  split
  · exact setCirc_sameBut _ _ _
  · exact sameBut_refl _ _

theorem watchJoin_setCirc_ne (c d : Nat) (x y : Circuit) (s : State) (h : d ≠ c) : circOf (watchJoin c x (setCirc c y s)) d = circOf s d :=
  (circOf_watchJoin_ne _ _ _ _ h).trans (circOf_setCirc_ne _ _ _ _ h)

theorem watchJoin_setCirc_sameBut (c : Nat) (x y : Circuit) (s : State) : SameBut [.circ] s (watchJoin c x (setCirc c y s)) :=
  ((setCirc_sameBut c y s).trans (watchJoin_sameBut c x _)).mono (by simp)

/-! Commands that change one circuit. -/

/-- A command whose effect `e` is on circuit c and on other groups than the interrupt state completes with that circuit as `e` has it. -/
theorem completes_circuit {gs : List Group} {i : Instr} {s e : State} {c : Nat} (h : exec i s = commit s e) (hs : SameBut gs s e)
    (hirq : Group.irq ∉ gs) (hother : ∀ d, d ≠ c → circOf e d = circOf s d) :
    Completes i s fun t =>
      circOf t c = circOf e c ∧ (∀ d, d ≠ c → circOf t d = circOf s d) ∧ Alone gs s t ∧ SameBut [.irq, .out, .pending] e t := by
  refine completes_of_exec h fun t ht => ?_
  have hcirc : t.circ = e.circ := ht.1 .circ (by decide)
  exact ⟨circOf_congr hcirc c, fun d hd => (circOf_congr hcirc d).trans (hother d hd), becomes_alone hs hirq ht, ht.1⟩

/-- A command that replaces one circuit. -/
theorem completes_setCirc {i : Instr} {s : State} {c : Nat} {y : Circuit} (h : exec i s = commit s (setCirc c y s)) :
    Completes i s fun t => circOf t c = y ∧ (∀ d, d ≠ c → circOf t d = circOf s d) ∧ Alone [.circ] s t := by
  obtain ⟨t, ht, hself, hother, halone, -⟩ :=
    completes_circuit h (setCirc_sameBut c y s) (by decide) fun d hd => circOf_setCirc_ne _ _ _ _ hd
  exact ⟨t, ht, hself.trans (circOf_setCirc c y s), hother, halone⟩

/-- A command that ends a Class T reception with a loss: JOIN grants follow where the reception began in one (R291). -/
theorem completes_watchJoin {i : Instr} {s : State} {c : Nat} {y : Circuit} (hy : y.joinUntil = (circOf s c).joinUntil)
    (h : exec i s = commit s (watchJoin c (circOf s c) (setCirc c y s))) :
    Completes i s fun t =>
      circOf t c = { y with joinUntil := (circOf t c).joinUntil }
      ∧ (circOf t c).joinUntil = (if (circOf s c).rxT.st ≠ .idle ∧ lossesT (circOf s c) < lossesT y ∧ inJoin s c (circOf s c).rxT.since = true
          then s.sf.number + 8 else (circOf s c).joinUntil)
      ∧ (∀ d, d ≠ c → circOf t d = circOf s d) ∧ Alone [.circ] s t := by
  obtain ⟨t, ht, hself, hother, halone, -⟩ :=
    completes_circuit h (watchJoin_setCirc_sameBut c _ y s) (by decide) fun d hd => watchJoin_setCirc_ne _ _ _ _ _ hd
  rw [circOf_watchJoin, hy] at hself
  exact ⟨t, ht, by rw [hself], by rw [hself], hother, halone⟩

/-! A granted seat's loss (R193). -/

/-- The record of an endpoint that loses one more granted uplink: with the second in a row its snapshot is STALE. -/
def recordLost (r : Record) : Record :=
  if 2 ≤ r.lost + 1 then staleSnap { r with lost := r.lost + 1 } else { r with lost := r.lost + 1 }

/-- A grant that has not failed yet marks its seat and counts against its endpoint's record. -/
def firstLoss (c : Nat) (q : Seat) (y : Circuit) (s : State) : State :=
  modRecordAt c q.grant.addr recordLost (setCirc c { y with failedSeat := some q.first } (setCirc c y s))

theorem grantLost_first {c : Nat} {q : Seat} {y : Circuit} {s : State} (h : y.failedSeat ≠ some q.first) :
    grantLost c q (setCirc c y s) = firstLoss c q y s := by
  have hself : circOf (setCirc c y s) c = y := circOf_setCirc c y s
  refine (if_neg (by rwa [hself])).trans ?_
  rw [modCirc, hself]
  rfl

theorem circOf_firstLoss (c : Nat) (q : Seat) (y : Circuit) (s : State) : circOf (firstLoss c q y s) c = { y with failedSeat := some q.first } := by
  rw [firstLoss, circOf_modRecordAt, circOf_setCirc]

theorem circOf_firstLoss_ne (c d : Nat) (q : Seat) (y : Circuit) (s : State) (h : d ≠ c) : circOf (firstLoss c q y s) d = circOf s d := by
  rw [firstLoss, circOf_modRecordAt, circOf_setCirc_ne _ _ _ _ h, circOf_setCirc_ne _ _ _ _ h]

theorem firstLoss_link (c : Nat) (q : Seat) (y : Circuit) (s : State) :
    (firstLoss c q y s).link
      = { s.link with records := s.link.records.map fun r => if r.circuit = c ∧ r.addr = some q.grant.addr then recordLost r else r } := by
  rw [firstLoss, modRecordAt_link, setCirc_link, setCirc_link]

theorem firstLoss_sameBut (c : Nat) (q : Seat) (y : Circuit) (s : State) : SameBut [.circ, .link] s (firstLoss c q y s) :=
  (((setCirc_sameBut c y s).trans (setCirc_sameBut c _ _)).trans (modRecordAt_sameBut c _ _ _)).mono (by simp)

theorem grantLost_again {c : Nat} {q : Seat} {s : State} (h : (circOf s c).failedSeat = some q.first) : grantLost c q s = s := if_pos h

end Sys2Proof.Machine
end

section
/-! Settles O43: how receptions end, one lemma for each clause. -/
namespace Sys2Proof.Machine

/-! What each command of the family does. -/

/-- The circuit after NO_SYNC of its Class T reception, and of its Class A one (R138). -/
def noSyncT (x : Circuit) : Circuit := thaw (bump .noSync { x with rxT := restart x.rxT })
def noSyncA (x : Circuit) : Circuit := thaw (bump .noSync { x with rxA := restart x.rxA })

theorem exec_noSync_T {s : State} {c : Nat} (hx : circuitExists s c = true) :
    exec (.noSync c 1) s
      = commit s (if (circOf s c).rxT.st = .preamble ∧ (circOf s c).rxT.since + 128 ≤ s.clk.now then
          watchJoin c (circOf s c) (setCirc c (noSyncT (circOf s c)) s) else s) := onObject_true hx

theorem exec_noSync_A_idle {s : State} {c : Nat} (hx : circuitExists s c = true) (hst : (circOf s c).rxA.st ≠ .preamble) :
    exec (.noSync c 2) s = commit s s := (onObject_true hx).trans (by simp [hst])

theorem exec_noSync_A_unseated {s : State} {c : Nat} (hx : circuitExists s c = true) (hst : (circOf s c).rxA.st = .preamble)
    (hq : seatAt s c (s.clk.now - 2) = none) :
    exec (.noSync c 2) s = commit s (setCirc c (noSyncA (circOf s c)) s) := (onObject_true hx).trans (by simp [hst, hq, noSyncA])

theorem exec_noSync_A_seated {s : State} {c : Nat} {q : Seat} (hx : circuitExists s c = true) (hst : (circOf s c).rxA.st = .preamble)
    (hq : seatAt s c (s.clk.now - 2) = some q) :
    exec (.noSync c 2) s
      = commit s (if syncDeadline (setSf q.grant.arg) (circOf s c).rxA + 2 ≤ s.clk.now then
          grantLost c q (setCirc c (noSyncA (circOf s c)) s) else s) := (onObject_true hx).trans (by simp [hst, hq, noSyncA])

/-- A request of the circuit in a qualifier queue has waited 16 ticks (R49). -/
def requestLate (s : State) (c : Nat) (queue : List (Nat × Nat)) : Bool := queue.any fun e => e.1 == c && decide (e.2 + 16 ≤ s.clk.now)

theorem requestLate_iff {s : State} {c : Nat} {queue : List (Nat × Nat)} :
    requestLate s c queue = true ↔ ∃ e ∈ queue, e.1 = c ∧ e.2 + 16 ≤ s.clk.now := by simp [requestLate]

/-- The circuit's requests taken from the queue of active index `a` (R49). -/
def withoutRequests (c a : Nat) (s : State) : State :=
  { s with plan := { s.plan with queue := tabPut [] s.plan.queue a ((tabGet [] s.plan.queue a).filter fun e => e.1 != c) } }

/-- QUAL_LATE counts, and a candidate is dropped with its request (R138). -/
def qualifierMissed (x : Circuit) : Circuit := if x.rxT.st = .candidate then dropT (bump .qualLate x) else bump .qualLate x

theorem exec_qualLate_none {s : State} {c : Nat} (hx : circuitExists s c = true) (hi : rxIndex s c = none) :
    exec (.qualLate c) s = commit s s := (onObject_true hx).trans (by rw [hi])

theorem exec_qualLate_some {s : State} {c a : Nat} (hx : circuitExists s c = true) (hi : rxIndex s c = some a) :
    exec (.qualLate c) s
      = commit s (if requestLate s c (tabGet [] s.plan.queue a) = true then modCirc c qualifierMissed (withoutRequests c a s) else s) :=
  (onObject_true hx).trans (by rw [hi]; rfl)

/-- To where an abort closes the correlator of the circuit's seat: the instant after the seat's last (R136). -/
abbrev seatClose (s : State) (c : Nat) : Nat := (seatAt s c (s.clk.now - 2)).elim 0 (fun q => q.last + 1)

/-- The circuit after SAMPLES_LOST (R140). -/
def samplesLostCircuit (close : Nat) (x : Circuit) : Circuit := thaw (abortAll close (bump .samplesLost x))

theorem exec_samplesLost {s : State} {c : Nat} (hx : circuitExists s c = true) :
    exec (.samplesLost c) s
      = commit s (if 9 ≤ (circOf s c).staleRun ∧ receiving (circOf s c) = true ∧ isFeed s c = false then
          watchJoin c (circOf s c) (setCirc c (samplesLostCircuit (seatClose s c) (circOf s c)) s) else s) := by
  refine (onObject_true hx).trans ?_
  unfold seatClose
  cases seatAt s c (s.clk.now - 2) <;> rfl

/-- The gain at an overload: an AGC that is not FIXED takes 12 from the step and acquires anew (R128). -/
def backOff (x : Circuit) : Circuit := if x.agc = .fixed then x else command (x.gain - 12) true { x with agc := .acquire, inBand := 0 }

@[simp] theorem backOff_rxT (x : Circuit) : (backOff x).rxT = x.rxT := by unfold backOff; split <;> rfl
@[simp] theorem backOff_rxA (x : Circuit) : (backOff x).rxA = x.rxA := by unfold backOff; split <;> rfl
@[simp] theorem backOff_clipRun (x : Circuit) : (backOff x).clipRun = x.clipRun := by unfold backOff; split <;> rfl
@[simp] theorem backOff_counters (x : Circuit) : (backOff x).counters = x.counters := by unfold backOff; split <;> rfl

theorem backOff_of_not_fixed {x : Circuit} (h : x.agc ≠ .fixed) : backOff x = command (x.gain - 12) true { x with agc := .acquire, inBand := 0 } :=
  if_neg h

/-- The circuit after OVERLOAD: its receptions end, and the gain backs off (R128, R131, R140). -/
def overloadCircuit (close : Nat) (x : Circuit) : Circuit :=
  backOff (abortAll close (bump .overload { x with clipRun := 0, reinit := some (0, 0, 0, 0) }))

theorem exec_overload {s : State} {c : Nat} (hx : circuitExists s c = true) :
    exec (.overload c) s
      = commit s (if 9 ≤ (circOf s c).clipRun ∧ receiving (circOf s c) = true ∧ isFeed s c = false then
          raise 0x0043 c (watchJoin c (circOf s c) (setCirc c (overloadCircuit (seatClose s c) (circOf s c)) s)) else s) := by
  refine (onObject_true hx).trans ?_
  unfold seatClose
  cases seatAt s c (s.clk.now - 2) <;> rfl

/-- What an overload makes of the receivers, the run of clipped ticks, the counters and the gain. -/
theorem overloadCircuit_spec (close : Nat) (x : Circuit) :
    (overloadCircuit close x).rxT.st = .idle ∧ (overloadCircuit close x).rxA.st = .idle ∧ (overloadCircuit close x).clipRun = 0
    ∧ (overloadCircuit close x).counters = (bump .overload x).counters
    ∧ (x.agc ≠ .fixed → (overloadCircuit close x).gainCmd = some (x.gain - 12, true) ∧ (overloadCircuit close x).agc = .acquire) := by
  refine ⟨by simp [overloadCircuit], by simp [overloadCircuit], by simp [overloadCircuit], ?_, fun hagc => ?_⟩
  · rw [overloadCircuit, backOff_counters, abortAll_counters]
    rfl
  · have hagc' : (abortAll close (bump .overload { x with clipRun := 0, reinit := some (0, 0, 0, 0) })).agc ≠ .fixed := by simpa using hagc
    rw [overloadCircuit, backOff_of_not_fixed hagc']
    exact ⟨by simp [command], rfl⟩

/-- A reception's payload is not done 4 ticks after its end, and neither SAMPLES_LOST nor OVERLOAD is due (R136, R140). -/
def timeoutDue (s : State) (x : Circuit) (r : Receiver) : Bool :=
  r.st == .payload && decide (r.endAt + 4 < s.clk.now) && decide (x.staleRun < 9 ∧ x.clipRun < 9)

theorem timeoutDue_iff {s : State} {x : Circuit} {r : Receiver} :
    timeoutDue s x r = true ↔ r.st = .payload ∧ r.endAt + 4 < s.clk.now ∧ x.staleRun < 9 ∧ x.clipRun < 9 := by
  simp [timeoutDue, and_assoc]

/-- A time-out is not due where one of its conditions fails. -/
theorem not_timeoutDue {s : State} {x : Circuit} {r : Receiver}
    (h : r.st ≠ .payload ∨ s.clk.now ≤ r.endAt + 4 ∨ 9 ≤ x.staleRun ∨ 9 ≤ x.clipRun) : ¬timeoutDue s x r = true := by
  rw [timeoutDue_iff]
  rintro ⟨hst, hend, hstale, hclip⟩
  rcases h with h | h
  · exact h hst
  · omega

/-- The circuit after the time-out of its Class T reception, and of its Class A one. -/
def timedOutT (x : Circuit) : Circuit := thaw (bump .timeout { x with rxT := restart x.rxT })
def timedOutA (close : Nat) (x : Circuit) : Circuit := thaw (bump .timeout { leaveSinr x with rxA := { closedTo := close } })

theorem exec_receptionTimeout_T {s : State} {c : Nat} (hx : circuitExists s c = true) :
    exec (.receptionTimeout c 1) s
      = commit s (if timeoutDue s (circOf s c) (circOf s c).rxT = true then
          watchJoin c (circOf s c) (setCirc c (timedOutT (circOf s c)) s) else s) := onObject_true hx

theorem exec_receptionTimeout_A {s : State} {c : Nat} (hx : circuitExists s c = true) :
    exec (.receptionTimeout c 2) s
      = commit s (if timeoutDue s (circOf s c) (circOf s c).rxA = true then setCirc c (timedOutA (seatClose s c) (circOf s c)) s else s) := by
  refine (onObject_true hx).trans ?_
  unfold seatClose
  cases seatAt s c (s.clk.now - 2) <;> rfl

/-! The clauses. -/

theorem noSync_T_ends {s : State} {c : Nat} (hx : circuitExists s c = true) (hst : (circOf s c).rxT.st = .preamble)
    (hdue : (circOf s c).rxT.since + 128 ≤ s.clk.now) :
    Completes (.noSync c 1) s fun t =>
      circOf t c = { noSyncT (circOf s c) with joinUntil := (circOf t c).joinUntil }
      ∧ (circOf t c).joinUntil = (if (circOf s c).rxT.st ≠ .idle ∧ lossesT (circOf s c) < lossesT (noSyncT (circOf s c))
          ∧ inJoin s c (circOf s c).rxT.since = true then s.sf.number + 8 else (circOf s c).joinUntil)
      ∧ (∀ d, d ≠ c → circOf t d = circOf s d) ∧ Alone [.circ] s t :=
  completes_watchJoin (by simp [noSyncT]) (by rw [exec_noSync_T hx, if_pos ⟨hst, hdue⟩])

theorem noSync_T_ignored {s : State} {c : Nat} (hx : circuitExists s c = true)
    (h : (circOf s c).rxT.st ≠ .preamble ∨ s.clk.now < (circOf s c).rxT.since + 128) : Completes (.noSync c 1) s fun t => t = s := by
  refine completes_unchanged ?_
  rw [exec_noSync_T hx, if_neg]
  rintro ⟨hst, hdue⟩
  rcases h with h | h
  · exact h hst
  · omega

/-- A seat's first loss: the seat is marked, and its endpoint's record counts it (R138, R193). -/
theorem noSync_A_first {s : State} {c : Nat} {q : Seat} (hx : circuitExists s c = true) (hst : (circOf s c).rxA.st = .preamble)
    (hq : seatAt s c (s.clk.now - 2) = some q) (hdue : syncDeadline (setSf q.grant.arg) (circOf s c).rxA + 2 ≤ s.clk.now)
    (hnew : (circOf s c).failedSeat ≠ some q.first) :
    Completes (.noSync c 2) s fun t =>
      circOf t c = { noSyncA (circOf s c) with failedSeat := some q.first } ∧ (∀ d, d ≠ c → circOf t d = circOf s d)
      ∧ t.link = { s.link with records := s.link.records.map fun r => if r.circuit = c ∧ r.addr = some q.grant.addr then recordLost r else r }
      ∧ Alone [.circ, .link] s t := by
  have hfail : (noSyncA (circOf s c)).failedSeat = (circOf s c).failedSeat := by simp [noSyncA]
  have hexec : exec (.noSync c 2) s = commit s (firstLoss c q (noSyncA (circOf s c)) s) := by
    rw [exec_noSync_A_seated hx hst hq, if_pos hdue, grantLost_first (by rwa [hfail])]
  obtain ⟨t, ht, hself, hother, halone, heff⟩ := completes_circuit hexec (firstLoss_sameBut c q _ s) (by decide)
    fun d hd => circOf_firstLoss_ne c d q _ s hd
  exact ⟨t, ht, hself.trans (circOf_firstLoss c q _ s), hother, (heff .link (by decide)).trans (firstLoss_link c q _ s), halone⟩

theorem noSync_A_again {s : State} {c : Nat} {q : Seat} (hx : circuitExists s c = true) (hst : (circOf s c).rxA.st = .preamble)
    (hq : seatAt s c (s.clk.now - 2) = some q) (hdue : syncDeadline (setSf q.grant.arg) (circOf s c).rxA + 2 ≤ s.clk.now)
    (hold : (circOf s c).failedSeat = some q.first) :
    Completes (.noSync c 2) s fun t =>
      circOf t c = noSyncA (circOf s c) ∧ (∀ d, d ≠ c → circOf t d = circOf s d) ∧ Alone [.circ] s t := by
  refine completes_setCirc ?_
  rw [exec_noSync_A_seated hx hst hq, if_pos hdue, grantLost_again]
  rw [circOf_setCirc, ← hold]
  simp [noSyncA]

theorem noSync_A_unseated {s : State} {c : Nat} (hx : circuitExists s c = true) (hst : (circOf s c).rxA.st = .preamble)
    (hq : seatAt s c (s.clk.now - 2) = none) :
    Completes (.noSync c 2) s fun t =>
      circOf t c = noSyncA (circOf s c) ∧ (∀ d, d ≠ c → circOf t d = circOf s d) ∧ Alone [.circ] s t :=
  completes_setCirc (exec_noSync_A_unseated hx hst hq)

theorem noSync_A_ignored {s : State} {c : Nat} (hx : circuitExists s c = true)
    (h : (circOf s c).rxA.st ≠ .preamble
      ∨ ∃ q, seatAt s c (s.clk.now - 2) = some q ∧ s.clk.now < syncDeadline (setSf q.grant.arg) (circOf s c).rxA + 2) :
    Completes (.noSync c 2) s fun t => t = s := by
  refine completes_unchanged ?_
  by_cases hst : (circOf s c).rxA.st = .preamble
  · obtain ⟨q, hq, hearly⟩ := h.resolve_left (not_not_intro hst)
    rw [exec_noSync_A_seated hx hst hq, if_neg (Nat.not_le.2 hearly)]
  · exact exec_noSync_A_idle hx hst

theorem qualLate_drops {s : State} {c a : Nat} (hx : circuitExists s c = true) (hi : rxIndex s c = some a)
    (hlate : ∃ e ∈ tabGet [] s.plan.queue a, e.1 = c ∧ e.2 + 16 ≤ s.clk.now) :
    Completes (.qualLate c) s fun t =>
      tabGet [] t.plan.queue a = (tabGet [] s.plan.queue a).filter (fun e => e.1 != c) ∧ circOf t c = qualifierMissed (circOf s c)
      ∧ (∀ d, d ≠ c → circOf t d = circOf s d) ∧ Alone [.plan, .circ] s t := by
  have hexec : exec (.qualLate c) s = commit s (modCirc c qualifierMissed (withoutRequests c a s)) := by
    rw [exec_qualLate_some hx hi, if_pos (requestLate_iff.2 hlate)]
  have hframe : SameBut [.plan, .circ] s (modCirc c qualifierMissed (withoutRequests c a s)) := by
    intro g hg; cases g <;> simp_all [Group.same, modCirc, setCirc, withoutRequests]
  obtain ⟨t, ht, hself, hother, halone, heff⟩ := completes_circuit (c := c) hexec hframe (by decide) fun d hd => circOf_setCirc_ne _ _ _ _ hd
  have hplan : t.plan = (withoutRequests c a s).plan := heff .plan (by decide)
  exact ⟨t, ht, by rw [hplan]; exact tabGet_tabPut_self _ _ _ _, hself.trans (circOf_setCirc _ _ _), hother, halone⟩

theorem qualLate_early {s : State} {c a : Nat} (hx : circuitExists s c = true) (hi : rxIndex s c = some a)
    (hearly : ∀ e ∈ tabGet [] s.plan.queue a, e.1 = c → s.clk.now < e.2 + 16) : Completes (.qualLate c) s fun t => t = s := by
  refine completes_unchanged ?_
  rw [exec_qualLate_some hx hi, if_neg]
  intro hlate
  obtain ⟨e, hmem, hc, hwait⟩ := requestLate_iff.1 hlate
  exact absurd (hearly e hmem hc) (Nat.not_lt.2 hwait)

theorem qualLate_unplaced {s : State} {c : Nat} (hx : circuitExists s c = true) (hi : rxIndex s c = none) :
    Completes (.qualLate c) s fun t => t = s := completes_unchanged (exec_qualLate_none hx hi)

theorem samplesLost_ends {s : State} {c : Nat} (hx : circuitExists s c = true) (hr : receiving (circOf s c) = true) (hf : isFeed s c = false)
    (hn : 9 ≤ (circOf s c).staleRun) :
    Completes (.samplesLost c) s fun t =>
      circOf t c = { samplesLostCircuit (seatClose s c) (circOf s c) with joinUntil := (circOf t c).joinUntil }
      ∧ (circOf t c).joinUntil = (if (circOf s c).rxT.st ≠ .idle
          ∧ lossesT (circOf s c) < lossesT (samplesLostCircuit (seatClose s c) (circOf s c))
          ∧ inJoin s c (circOf s c).rxT.since = true then s.sf.number + 8 else (circOf s c).joinUntil)
      ∧ (∀ d, d ≠ c → circOf t d = circOf s d) ∧ Alone [.circ] s t :=
  completes_watchJoin (by simp [samplesLostCircuit]) (by rw [exec_samplesLost hx, if_pos ⟨hn, hr, hf⟩])

/-- OVERLOAD comes only while a reception is under way (log entry 17). -/
theorem overload_ends {s : State} {c : Nat} (hx : circuitExists s c = true) (hr : receiving (circOf s c) = true) (hf : isFeed s c = false)
    (hn : 9 ≤ (circOf s c).clipRun) :
    Completes (.overload c) s fun t =>
      (circOf t c).rxT.st = .idle ∧ (circOf t c).rxA.st = .idle ∧ (circOf t c).clipRun = 0
      ∧ (circOf t c).counters = (bump .overload (circOf s c)).counters
      ∧ ((circOf s c).agc ≠ .fixed → (circOf t c).gainCmd = some ((circOf s c).gain - 12, true) ∧ (circOf t c).agc = .acquire)
      ∧ (∀ d, d ≠ c → circOf t d = circOf s d) ∧ Logged 0x0043 c s t ∧ SameBut [.circ, .irq, .mem, .out] s t := by
  refine completes_of_exec (by rw [exec_overload hx, if_pos ⟨hn, hr, hf⟩]) fun t ht => ?_
  have hjoin := watchJoin_setCirc_sameBut c (circOf s c) (overloadCircuit (seatClose s c) (circOf s c)) s
  have hcirc := (ht.1 .circ (by decide)).trans (raise_circ _ _ _)
  obtain ⟨hT, hA, hclip, hcounters, hgain⟩ := overloadCircuit_spec (seatClose s c) (circOf s c)
  rw [(circOf_congr hcirc c).trans (circOf_watchJoin _ _ _ _)]
  refine ⟨hT, hA, hclip, hcounters, hgain, fun d hd => (circOf_congr hcirc d).trans (watchJoin_setCirc_ne _ _ _ _ _ hd), ?_, ?_⟩
  · exact logged_congr (hjoin .irq (by decide)) (hjoin .clk (by decide)) (raise_logged _ _ ht.2.1)
  · exact (becomes_same (hjoin.trans (raise_sameBut _ _ _)) ht).mono (by simp)

/-- The run is short, no reception is under way, or the circuit is a feed. -/
theorem not_run_due {s : State} {c n : Nat} (h : n < 9 ∨ receiving (circOf s c) = false ∨ isFeed s c = true) :
    ¬(9 ≤ n ∧ receiving (circOf s c) = true ∧ isFeed s c = false) := by
  rintro ⟨hn, hr, hf⟩
  rcases h with h | h | h
  · omega
  · simp [h] at hr
  · simp [h] at hf

theorem samplesLost_ignored {s : State} {c : Nat} (hx : circuitExists s c = true)
    (h : (circOf s c).staleRun < 9 ∨ receiving (circOf s c) = false ∨ isFeed s c = true) : Completes (.samplesLost c) s fun t => t = s :=
  completes_unchanged (by rw [exec_samplesLost hx, if_neg (not_run_due h)])

theorem overload_ignored {s : State} {c : Nat} (hx : circuitExists s c = true)
    (h : (circOf s c).clipRun < 9 ∨ receiving (circOf s c) = false ∨ isFeed s c = true) : Completes (.overload c) s fun t => t = s :=
  completes_unchanged (by rw [exec_overload hx, if_neg (not_run_due h)])

theorem timeout_T_ends {s : State} {c : Nat} (hx : circuitExists s c = true) (hdue : timeoutDue s (circOf s c) (circOf s c).rxT = true) :
    Completes (.receptionTimeout c 1) s fun t =>
      circOf t c = { timedOutT (circOf s c) with joinUntil := (circOf t c).joinUntil }
      ∧ (circOf t c).joinUntil = (if (circOf s c).rxT.st ≠ .idle ∧ lossesT (circOf s c) < lossesT (timedOutT (circOf s c))
          ∧ inJoin s c (circOf s c).rxT.since = true then s.sf.number + 8 else (circOf s c).joinUntil)
      ∧ (∀ d, d ≠ c → circOf t d = circOf s d) ∧ Alone [.circ] s t :=
  completes_watchJoin (by simp [timedOutT]) (by rw [exec_receptionTimeout_T hx, if_pos hdue])

theorem timeout_A_ends {s : State} {c : Nat} (hx : circuitExists s c = true) (hdue : timeoutDue s (circOf s c) (circOf s c).rxA = true) :
    Completes (.receptionTimeout c 2) s fun t =>
      circOf t c = timedOutA (seatClose s c) (circOf s c) ∧ (∀ d, d ≠ c → circOf t d = circOf s d) ∧ Alone [.circ] s t :=
  completes_setCirc (by rw [exec_receptionTimeout_A hx, if_pos hdue])

theorem timeout_T_ignored {s : State} {c : Nat} (hx : circuitExists s c = true) (h : ¬timeoutDue s (circOf s c) (circOf s c).rxT = true) :
    Completes (.receptionTimeout c 1) s fun t => t = s := completes_unchanged (by rw [exec_receptionTimeout_T hx, if_neg h])

theorem timeout_A_ignored {s : State} {c : Nat} (hx : circuitExists s c = true) (h : ¬timeoutDue s (circOf s c) (circOf s c).rxA = true) :
    Completes (.receptionTimeout c 2) s fun t => t = s := completes_unchanged (by rw [exec_receptionTimeout_A hx, if_neg h])

/-- Settles O43: each clause is one way in which a command ends the receptions of its circuit, or that it does nothing outside its condition. -/
theorem receptionEnds : Obligations.ReceptionEnds :=
  ⟨fun _ _ ⟨hx, hst, hdue⟩ => noSync_T_ends hx hst hdue, fun _ _ ⟨hx, h⟩ => noSync_T_ignored hx h,
    fun _ _ _ ⟨hx, hst, hq⟩ ⟨hdue, hnew⟩ => noSync_A_first hx hst hq hdue hnew,
    fun _ _ _ ⟨hx, hst, hq⟩ ⟨hdue, hold⟩ => noSync_A_again hx hst hq hdue hold,
    fun _ _ ⟨hx, hst, hq⟩ => noSync_A_unseated hx hst hq, fun _ _ ⟨hx, h⟩ => noSync_A_ignored hx h,
    fun _ _ _ ⟨hx, hi⟩ => qualLate_drops hx hi, fun _ _ _ ⟨hx, hi⟩ => qualLate_early hx hi, fun _ _ ⟨hx, hi⟩ => qualLate_unplaced hx hi,
    fun _ _ ⟨hx, hr, hf, hn⟩ => samplesLost_ends hx hr hf hn, fun _ _ ⟨hx, hr, hf, hn⟩ => overload_ends hx hr hf hn,
    fun _ _ => samplesLost_ignored, fun _ _ => overload_ignored,
    fun _ _ ⟨hx, hdue⟩ => timeout_T_ends hx (timeoutDue_iff.2 hdue), fun _ _ ⟨hx, hdue⟩ => timeout_A_ends hx (timeoutDue_iff.2 hdue),
    fun _ _ ⟨hx, h⟩ => timeout_T_ignored hx (not_timeoutDue h), fun _ _ ⟨hx, h⟩ => timeout_A_ignored hx (not_timeoutDue h)⟩

end Sys2Proof.Machine
end

section
/-! SUPPORT. What the operations on ports and lanes change: a read of a port or a lane after each of them, and the groups each leaves as they were
(R81 to R88, R110). -/
namespace Sys2Proof.Machine

/-! Ports and lanes in the state. -/

@[simp] theorem portOf_modPort_self (p : Nat) (f : Port → Port) (s : State) : portOf (modPort p f s) p = f (portOf s p) := portOf_setPort _ _ _
theorem portOf_modPort_ne (p q : Nat) (f : Port → Port) (s : State) (h : q ≠ p) : portOf (modPort p f s) q = portOf s q :=
  portOf_setPort_ne _ _ _ _ h
@[simp] theorem laneOf_modPort (p l : Nat) (f : Port → Port) (s : State) : laneOf (modPort p f s) l = laneOf s l := rfl
@[simp] theorem laneOf_modLane_self (l : Nat) (f : Lane → Lane) (s : State) : laneOf (modLane l f s) l = f (laneOf s l) := laneOf_setLane _ _ _
theorem laneOf_modLane_ne (l k : Nat) (f : Lane → Lane) (s : State) (h : k ≠ l) : laneOf (modLane l f s) k = laneOf s k :=
  laneOf_setLane_ne _ _ _ _ h
@[simp] theorem portOf_modLane (l q : Nat) (f : Lane → Lane) (s : State) : portOf (modLane l f s) q = portOf s q := rfl
@[simp] theorem portOf_modLanes (p q : Nat) (f : Lane → Lane) (s : State) : portOf (modLanes p f s) q = portOf s q := rfl
@[simp] theorem laneOf_emit (o : Out) (l : Nat) (s : State) : laneOf (emit o s) l = laneOf s l := rfl
@[simp] theorem portOf_drawFree (q : Nat) (s : State) : portOf (drawFree s).2 q = portOf s q := rfl

/-- A port has the two lanes whose half is its number (R13). -/
theorem mem_lanesOf (p l : Nat) : l ∈ lanesOf p ↔ l / 2 = p := by simp only [lanesOf, List.mem_cons, List.not_mem_nil, or_false]; omega

theorem modLanes_eq (p : Nat) (f : Lane → Lane) (s : State) : modLanes p f s = modLane (2 * p + 1) f (modLane (2 * p) f s) := rfl

/-- A change of a port's lanes reaches both of them and no other. -/
theorem laneOf_modLanes (p l : Nat) (f : Lane → Lane) (s : State) :
    laneOf (modLanes p f s) l = if l / 2 = p then f (laneOf s l) else laneOf s l := by
  rw [modLanes_eq]
  by_cases hsecond : l = 2 * p + 1
  · subst hsecond
    rw [laneOf_modLane_self, laneOf_modLane_ne _ _ _ _ (by omega), if_pos (by omega)]
  · rw [laneOf_modLane_ne _ _ _ _ hsecond]
    by_cases hfirst : l = 2 * p
    · subst hfirst
      rw [laneOf_modLane_self, if_pos (by omega)]
    · rw [laneOf_modLane_ne _ _ _ _ hfirst, if_neg (by omega)]

theorem setPort_sameBut (p : Nat) (x : Port) (s : State) : SameBut [.port] s (setPort p x s) := by
  intro g hg; cases g <;> simp_all [Group.same]
theorem modPort_sameBut (p : Nat) (f : Port → Port) (s : State) : SameBut [.port] s (modPort p f s) := setPort_sameBut _ _ _
theorem modLane_sameBut (l : Nat) (f : Lane → Lane) (s : State) : SameBut [.port] s (modLane l f s) := by
  intro g hg; cases g <;> simp_all [Group.same]
theorem modLanes_sameBut (p : Nat) (f : Lane → Lane) (s : State) : SameBut [.port] s (modLanes p f s) :=
  ((modLane_sameBut _ f s).trans (modLane_sameBut _ f _)).mono (by simp)
theorem emit_sameBut (o : Out) (s : State) : SameBut [.out] s (emit o s) := by
  intro g hg; cases g <;> simp_all [Group.same]
theorem drawFree_sameBut (s : State) : SameBut [.clk] s (drawFree s).2 := by
  intro g hg; cases g <;> simp_all [Group.same]

/-- A second write of a key replaces the first, where neither value is the default. -/
theorem tabPut_tabPut {α : Type} [DecidableEq α] {d v w : α} (t : Tab α) (i : Nat) (hv : v ≠ d) (hw : w ≠ d) :
    tabPut d (tabPut d t i v) i w = tabPut d t i w := by
  simp only [tabPut, if_neg hv, if_neg hw]
  induction t with
  | nil => simp [tabIns]
  | cons e t ih =>
    rcases Nat.lt_trichotomy i e.1 with h | h | h
    · simp [tabIns, h]
    · simp [tabIns, h]
    · simp [tabIns, Nat.not_lt_of_gt h, Nat.ne_of_gt h, ih]

/-- Writes of two keys commute, where neither value is the default. -/
theorem tabPut_comm {α : Type} [DecidableEq α] {d v w : α} (t : Tab α) {i j : Nat} (hij : i ≠ j) (hv : v ≠ d) (hw : w ≠ d) :
    tabPut d (tabPut d t i v) j w = tabPut d (tabPut d t j w) i v := by
  simp only [tabPut, if_neg hv, if_neg hw]
  induction t with
  | nil => rcases Nat.lt_or_gt_of_ne hij with h | h <;> simp [tabIns, h, Nat.not_lt_of_gt h, Nat.ne_of_gt h]
  | cons e t ih =>
    simp only [tabIns]
    grind [tabIns]

theorem modPort_eq (p : Nat) (f : Port → Port) (s : State) : modPort p f s = setPort p (f (portOf s p)) s := rfl

theorem setPort_setPort (p : Nat) {x y : Port} (s : State) (hx : x ≠ {}) (hy : y ≠ {}) : setPort p y (setPort p x s) = setPort p y s :=
  congrArg (fun t => { s with port := { s.port with port := t } }) (tabPut_tabPut _ p hx hy)

theorem setPort_comm {p q : Nat} (h : p ≠ q) {x y : Port} (s : State) (hx : x ≠ {}) (hy : y ≠ {}) :
    setPort q y (setPort p x s) = setPort p x (setPort q y s) :=
  congrArg (fun t => { s with port := { s.port with port := t } }) (tabPut_comm _ h hx hy)

/-- Two changes of a lane in a row are one, where neither leaves it as after reset. -/
theorem modLane_modLane {l : Nat} {f g : Lane → Lane} {s : State} (hf : f (laneOf s l) ≠ {}) (hg : g (f (laneOf s l)) ≠ {}) :
    modLane l g (modLane l f s) = modLane l (fun y => g (f y)) s := by
  rw [modLane, laneOf_modLane_self]
  exact congrArg (fun t => { s with port := { s.port with lane := t } }) (tabPut_tabPut _ l hf hg)

/-! Training words (R81, R82). -/

/-- Two lanes that differ at most in the training word they sent last. -/
abbrev SameLane (y z : Lane) : Prop := y = { z with sentWord := y.sentWord }

section
variable {s t : State} {p : Nat} (hport : portOf t p = portOf s p) (hlane : ∀ k, SameLane (laneOf t k) (laneOf s k))
include hport hlane

theorem trainWords_congr : trainWords t p = trainWords s p := by
  have htrain : ∀ k, (laneOf t k).train = (laneOf s k).train := fun k => by rw [hlane k]
  simp only [trainWords, hport, htrain]

theorem rxReady_congr (hspread : t.port.spread = s.port.spread) (l : Nat) : rxReady t p l = rxReady s p l := by
  have hready : ∀ k, (laneOf t k).ready = (laneOf s k).ready := fun k => by rw [hlane k]
  have hlock : ∀ k, (laneOf t k).blockLock = (laneOf s k).blockLock := fun k => by rw [hlane k]
  unfold rxReady
  rw [trainWords_congr hport hlane]
  simp only [hport, hspread, hready, hlock]

/-- What a lane sent last is no part of what it is to send. -/
theorem trainWordOf_congr (hspread : t.port.spread = s.port.spread) (l : Nat) : trainWordOf t p l = trainWordOf s p l := by
  have hrequest : (laneOf t l).request = (laneOf s l).request := by rw [hlane l]
  have hpresets : (laneOf t l).presets = (laneOf s l).presets := by rw [hlane l]
  unfold trainWordOf
  rw [trainWords_congr hport hlane, rxReady_congr hport hlane hspread]
  simp only [hport, hspread, hrequest, hpresets]
end

theorem trainWordOf_congr_port {s t : State} (h : t.port = s.port) (p l : Nat) : trainWordOf t p l = trainWordOf s p l :=
  trainWordOf_congr (portOf_congr h p) (fun k => by rw [laneOf_congr h k]) (by rw [h]) l

@[simp] theorem portOf_sendTrainLane (p l q : Nat) (s : State) : portOf (sendTrainLane p s l) q = portOf s q := by
  unfold sendTrainLane; dsimp only; split <;> rfl

/-- A lane has sent its word, whether it sends it now or sent it before. -/
theorem laneOf_sendTrainLane_self (p l : Nat) (s : State) :
    laneOf (sendTrainLane p s l) l = { laneOf s l with sentWord := some (trainWordOf s p l) } := by
  unfold sendTrainLane
  dsimp only
  split
  · next hsent => rw [← hsent]
  · rw [laneOf_emit, laneOf_modLane_self]

theorem laneOf_sendTrainLane_ne (p l k : Nat) (s : State) (h : k ≠ l) : laneOf (sendTrainLane p s l) k = laneOf s k := by
  unfold sendTrainLane
  dsimp only
  split
  · rfl
  · rw [laneOf_emit, laneOf_modLane_ne _ _ _ _ h]

theorem trainWordOf_sendTrainLane (p l k : Nat) (s : State) : trainWordOf (sendTrainLane p s l) p k = trainWordOf s p k := by
  refine trainWordOf_congr (portOf_sendTrainLane ..) (fun k => ?_) ?_ k
  · by_cases hk : k = l
    · subst hk; rw [SameLane, laneOf_sendTrainLane_self]
    · rw [SameLane, laneOf_sendTrainLane_ne _ _ _ _ hk]
  · unfold sendTrainLane; dsimp only; split <;> rfl

theorem mem_out_sendTrainLane {o : Out} {p l : Nat} {s : State} (h : o ∈ s.out) : o ∈ (sendTrainLane p s l).out := by
  unfold sendTrainLane
  dsimp only
  split
  · exact h
  · exact List.mem_cons_of_mem _ h

/-- A lane that has sent nothing yet sends its word. -/
theorem sendTrainLane_sends {p l : Nat} {s : State} (h : (laneOf s l).sentWord = none) :
    .train l (trainBlock (trainWordOf s p l)) ∈ (sendTrainLane p s l).out := by
  unfold sendTrainLane
  dsimp only
  rw [h, if_neg (by simp)]
  exact List.mem_cons_self

theorem sendTrainLane_sameBut (p l : Nat) (s : State) : SameBut [.out, .port] s (sendTrainLane p s l) := by
  unfold sendTrainLane
  dsimp only
  split
  · exact sameBut_refl _ _
  · exact ((modLane_sameBut _ _ s).trans (emit_sameBut _ _)).mono (by simp)

/-- A port that sends training words: in bring-up, and while it probes (R81, R88). -/
abbrev SendsTrain (x : Port) : Prop := x.state = .bringup ∨ (x.state = .dormant ∧ x.probeOn = true)

theorem sendTrain_of_silent {p : Nat} {s : State} (h : ¬SendsTrain (portOf s p)) : sendTrain p s = s := if_neg h

theorem sendTrain_of_sends {p : Nat} {s : State} (h : SendsTrain (portOf s p)) :
    sendTrain p s = sendTrainLane p (sendTrainLane p s (2 * p)) (2 * p + 1) := if_pos h

@[simp] theorem portOf_sendTrain (p q : Nat) (s : State) : portOf (sendTrain p s) q = portOf s q := by
  by_cases h : SendsTrain (portOf s p)
  · simp [sendTrain_of_sends h]
  · rw [sendTrain_of_silent h]

theorem laneOf_sendTrain_ne (p l : Nat) (s : State) (h : l / 2 ≠ p) : laneOf (sendTrain p s) l = laneOf s l := by
  by_cases hs : SendsTrain (portOf s p)
  · rw [sendTrain_of_sends hs, laneOf_sendTrainLane_ne _ _ _ _ (by omega), laneOf_sendTrainLane_ne _ _ _ _ (by omega)]
  · rw [sendTrain_of_silent hs]

theorem trainWordOf_sendTrain (p l : Nat) (s : State) : trainWordOf (sendTrain p s) p l = trainWordOf s p l := by
  by_cases h : SendsTrain (portOf s p)
  · rw [sendTrain_of_sends h, trainWordOf_sendTrainLane, trainWordOf_sendTrainLane]
  · rw [sendTrain_of_silent h]

/-- Both lanes of a port that sends have sent the port's present words. -/
theorem laneOf_sendTrain {p l : Nat} {s : State} (hs : SendsTrain (portOf s p)) (h : l / 2 = p) :
    laneOf (sendTrain p s) l = { laneOf s l with sentWord := some (trainWordOf (sendTrain p s) p l) } := by
  rw [trainWordOf_sendTrain, sendTrain_of_sends hs]
  obtain rfl | rfl : l = 2 * p ∨ l = 2 * p + 1 := by omega
  · rw [laneOf_sendTrainLane_ne _ _ _ _ (by omega), laneOf_sendTrainLane_self]
  · rw [laneOf_sendTrainLane_self, laneOf_sendTrainLane_ne _ _ _ _ (by omega), trainWordOf_sendTrainLane]

/-- Of a lane, sending changes what it sent last alone. -/
theorem laneOf_sendTrain_eq (p l : Nat) (s : State) :
    laneOf (sendTrain p s) l = { laneOf s l with sentWord := (laneOf (sendTrain p s) l).sentWord } := by
  by_cases hs : SendsTrain (portOf s p)
  · by_cases h : l / 2 = p
    · rw [laneOf_sendTrain hs h]
    · rw [laneOf_sendTrain_ne _ _ _ h]
  · rw [sendTrain_of_silent hs]

theorem sendTrain_sends {p l : Nat} {s : State} (hs : SendsTrain (portOf s p)) (hnone : ∀ k, k / 2 = p → (laneOf s k).sentWord = none)
    (h : l / 2 = p) :
    .train l (trainBlock (trainWordOf (sendTrain p s) p l)) ∈ (sendTrain p s).out := by
  rw [trainWordOf_sendTrain, sendTrain_of_sends hs]
  obtain rfl | rfl : l = 2 * p ∨ l = 2 * p + 1 := by omega
  · exact mem_out_sendTrainLane (sendTrainLane_sends (hnone _ h))
  · rw [← trainWordOf_sendTrainLane p (2 * p)]
    exact sendTrainLane_sends (by rw [laneOf_sendTrainLane_ne _ _ _ _ (by omega), hnone _ h])

theorem sendTrain_sameBut (p : Nat) (s : State) : SameBut [.out, .port] s (sendTrain p s) := by
  by_cases h : SendsTrain (portOf s p)
  · rw [sendTrain_of_sends h]
    exact ((sendTrainLane_sameBut p _ s).trans (sendTrainLane_sameBut p _ _)).mono (by simp)
  · rw [sendTrain_of_silent h]
    exact sameBut_refl _ _

/-! A try, and the phases of a bring-up (R83, R84). -/

/-- The TAG that a port draws for its next try or probe (R82). -/
def newTag (s : State) : Nat := (drawFree s).1.toNat % 65536

theorem newTag_lt (s : State) : newTag s < 65536 := Nat.mod_lt _ (by decide)

/-- A lane that acquires anew (R83). -/
def acquiring (l : Lane) : Lane := { l with blockLock := false, inverted := false, train := none, ready := false, sentWord := none }

/-- A try before its first words are sent. -/
def tryBegun (p gen : Nat) (s : State) : State :=
  modLanes p acquiring (modPort p (fun x => { x with gen := gen, phase := .acquire, swapped := false, tag := newTag s }) (drawFree s).2)

theorem startTry_eq (p gen : Nat) (s : State) : startTry p gen s = sendTrain p (tryBegun p gen s) := rfl

theorem portOf_startTry (p gen : Nat) (s : State) :
    portOf (startTry p gen s) p = { portOf s p with gen := gen, phase := .acquire, swapped := false, tag := newTag s } := by
  simp [startTry_eq, tryBegun]

theorem portOf_startTry_ne (p gen q : Nat) (s : State) (h : q ≠ p) : portOf (startTry p gen s) q = portOf s q := by
  simp [startTry_eq, tryBegun, portOf_modPort_ne _ _ _ _ h]

/-- A port in bring-up that begins a try sends its training words on both lanes. -/
theorem startTry_lanesAcquire {p : Nat} {s : State} (gen : Nat) (h : (portOf s p).state = .bringup) : LanesAcquire p s (startTry p gen s) := by
  have hsends : SendsTrain (portOf (tryBegun p gen s) p) := .inl (by simpa [tryBegun] using h)
  have hlane : ∀ l, laneOf (tryBegun p gen s) l = if l / 2 = p then acquiring (laneOf s l) else laneOf s l := fun l => laneOf_modLanes _ _ _ _
  rw [startTry_eq]
  refine ⟨fun l hl => ⟨?_, sendTrain_sends hsends (fun k hk => by rw [hlane, if_pos hk]; rfl) hl⟩, fun l hl => ?_⟩
  · rw [laneOf_sendTrain hsends hl, hlane, if_pos hl]; rfl
  · rw [laneOf_sendTrain_ne _ _ _ hl, hlane, if_neg hl]

theorem startTry_sameBut (p gen : Nat) (s : State) : SameBut [.out, .port, .clk] s (startTry p gen s) :=
  (((drawFree_sameBut s).trans (modPort_sameBut _ _ _)).trans ((modLanes_sameBut _ _ _).trans (sendTrain_sameBut p _))).mono (by simp)

theorem portOf_enterPhase (p : Nat) (ph : Phase) (s : State) : portOf (enterPhase p ph s) p = { portOf s p with phase := ph, count := 7 } := by
  simp [enterPhase]

theorem portOf_enterPhase_ne (p q : Nat) (ph : Phase) (s : State) (h : q ≠ p) : portOf (enterPhase p ph s) q = portOf s q := by
  simp [enterPhase, portOf_modPort_ne _ _ _ _ h]

theorem laneOf_enterPhase {p l : Nat} (ph : Phase) (s : State) (h : l / 2 = p) :
    laneOf (enterPhase p ph s) l = { laneOf s l with ready := false, eyes := [], request := none, waited := 0 } := by
  simp [enterPhase, laneOf_modLanes, h]

theorem enterPhase_sameBut (p : Nat) (ph : Phase) (s : State) : SameBut [.port] s (enterPhase p ph s) :=
  ((modPort_sameBut _ _ s).trans (modLanes_sameBut _ _ _)).mono (by simp)

/-- Both lanes of a port in ACQUIRE are locked and have a training word: EXCHANGE begins (R83). -/
theorem exitPhase_acquire {p : Nat} {s : State} (hst : (portOf s p).state = .bringup) (hph : (portOf s p).phase = .acquire)
    (hl : ∀ l, l / 2 = p → (laneOf s l).train ≠ none ∧ (laneOf s l).blockLock = true) : exitPhase p s = enterPhase p .exchange s := by
  obtain ⟨a, ha⟩ := Option.ne_none_iff_exists'.1 (hl (2 * p) (by omega)).1
  obtain ⟨b, hb⟩ := Option.ne_none_iff_exists'.1 (hl (2 * p + 1) (by omega)).1
  have hwords : ∃ v w, trainWords s p = (some v, some w) := by
    unfold trainWords
    dsimp only
    rw [ha, hb]
    split <;> exact ⟨_, _, rfl⟩
  have hlocked : ((lanesOf p).all fun l => (laneOf s l).blockLock) = true :=
    List.all_eq_true.2 fun l hmem => (hl l ((mem_lanesOf p l).1 hmem)).2
  obtain ⟨v, w, hvw⟩ := hwords
  simp [exitPhase, hst, hvw, hlocked, hph]

theorem unheard_words {p o : Nat} {s : State} (ho : o / 2 = p) (hnone : (laneOf s o).train = none) :
    (trainWords s p).1 = none ∨ (trainWords s p).2 = none := by
  unfold trainWords
  dsimp only
  obtain rfl | rfl : o = 2 * p ∨ o = 2 * p + 1 := by omega
  · rw [hnone]; split <;> simp
  · rw [hnone]; split <;> simp

/-- A port that has not heard both lanes stays in its phase. -/
theorem exitPhase_of_unheard {p o : Nat} {s : State} (ho : o / 2 = p) (hnone : (laneOf s o).train = none) : exitPhase p s = s := by
  have hwords := unheard_words ho hnone
  unfold exitPhase
  dsimp only
  split
  · next hw => simp [hw] at hwords
  · rfl

theorem exitPhase_of_not_bringup {p : Nat} {s : State} (h : (portOf s p).state ≠ .bringup) : exitPhase p s = s := by
  unfold exitPhase
  dsimp only
  split
  · next hst _ => exact absurd hst h
  · rfl

theorem stepCount_of_unheard {p o lane : Nat} {s : State} (ho : o / 2 = p) (hnone : (laneOf s o).train = none) : stepCount p lane s = s := by
  have hwords := unheard_words ho hnone
  unfold stepCount
  dsimp only
  split
  · next hw => simp [hw] at hwords
  · rfl

theorem stepCount_of_phase {p lane : Nat} {s : State} (h : (portOf s p).phase ≠ .step) : stepCount p lane s = s := by
  unfold stepCount
  dsimp only
  split
  · next hph _ => exact absurd hph h
  · rfl

theorem advancePhase_of_silent {p : Nat} {s : State} (h : ¬SendsTrain (portOf s p)) : advancePhase p s = s := by
  rw [advancePhase, exitPhase_of_not_bringup fun hst => h (.inl hst), sendTrain_of_silent h]

/-! A port that leaves what it did (R110, R322). -/

theorem withTku_sameBut (x : Tku) (s : State) : SameBut [.tku] s { s with tku := x } := by
  intro g hg; cases g <;> simp_all [Group.same]

/-- The time source on a port is lost or stays: the time-keeping unit alone sees the ports change. -/
theorem afterPorts_sameBut (s t : State) : SameBut [.tku] t (afterPorts s t) := by
  unfold afterPorts
  split
  · exact sameBut_refl _ _
  · exact withTku_sameBut _ t

theorem afterPorts_port (s t : State) : (afterPorts s t).port = t.port := afterPorts_sameBut s t .port (by decide)

/-- A port whose queued calibration starts: its turn, and CAL_REQUEST queued (R110). -/
abbrev TakesTurn (x y : Port) : Prop :=
  x.calDue = true ∧ x.state = .active
    ∧ ∃ cells messages seq, y = { x with calDue := false, calRun := true, cells := cells, messages := messages, msgSeq := seq }

theorem portOf_calNext (q : Nat) (s : State) : portOf (calNext s) q = portOf s q ∨ TakesTurn (portOf s q) (portOf (calNext s) q) := by
  unfold calNext
  split
  · exact .inl rfl
  · split
    · exact .inl rfl
    · next p hp =>
      by_cases hq : q = p
      · subst hq
        have hdue := List.find?_some hp
        simp only [Bool.and_eq_true, beq_iff_eq] at hdue
        exact .inr ⟨hdue.1, hdue.2, _, _, _, by simp only [sendMessage, portOf_modPort_self]; rfl⟩
      · exact .inl (by simp only [sendMessage, portOf_modPort_ne _ _ _ _ hq])

theorem calNext_sameBut (s : State) : SameBut [.port] s (calNext s) := by
  unfold calNext
  split
  · exact sameBut_refl _ _
  · split
    · exact sameBut_refl _ _
    · exact ((modPort_sameBut _ _ s).trans (modPort_sameBut _ _ _)).mono (by simp)

theorem laneOf_calNext (l : Nat) (s : State) : laneOf (calNext s) l = laneOf s l := by
  unfold calNext
  split
  · rfl
  · split <;> rfl

/-- A port replaced by `f` of it, with what follows for the PEER source and for the calibration turns: the port leaves what it did. -/
def leavePort (p : Nat) (f : Port → Port) (s : State) : State := passTurn s (afterPorts s (modPort p f s))

theorem leavePort_sameBut (p : Nat) (f : Port → Port) (s : State) : SameBut [.port, .tku] s (leavePort p f s) := by
  have hchange : SameBut [.port, .tku] s (afterPorts s (modPort p f s)) := (modPort_sameBut p f s).trans (afterPorts_sameBut s _)
  unfold leavePort passTurn
  split
  · exact (hchange.trans (calNext_sameBut _)).mono (by simp)
  · exact hchange

theorem laneOf_leavePort (p l : Nat) (f : Port → Port) (s : State) : laneOf (leavePort p f s) l = laneOf s l := by
  unfold leavePort passTurn
  split
  · rw [laneOf_calNext, laneOf_congr (afterPorts_port s _), laneOf_modPort]
  · rw [laneOf_congr (afterPorts_port s _), laneOf_modPort]

/-- The port itself, where it has no calibration queued then. -/
theorem portOf_leavePort {p : Nat} {f : Port → Port} {s : State} (h : (f (portOf s p)).calDue = false) :
    portOf (leavePort p f s) p = f (portOf s p) := by
  have hself : portOf (afterPorts s (modPort p f s)) p = f (portOf s p) := by rw [portOf_congr (afterPorts_port s _), portOf_modPort_self]
  unfold leavePort passTurn
  split
  · rcases portOf_calNext p (afterPorts s (modPort p f s)) with hstays | ⟨hdue, -⟩
    · exact hstays.trans hself
    · rw [hself, h] at hdue; cases hdue
  · exact hself

/-- Another port stays, but that the turn which the port gives up passes to one that waits for it. -/
theorem portOf_leavePort_ne {p q : Nat} (f : Port → Port) (s : State) (h : q ≠ p) :
    portOf (leavePort p f s) q = portOf s q
      ∨ ((portOf s p).calRun = true ∧ TakesTurn (portOf s q) (portOf (leavePort p f s) q)) := by
  have hother : ∀ k, k ≠ p → portOf (afterPorts s (modPort p f s)) k = portOf s k := fun k hk => by
    rw [portOf_congr (afterPorts_port s _), portOf_modPort_ne _ _ _ _ hk]
  unfold leavePort passTurn
  split
  · next hturn =>
    rcases portOf_calNext q (afterPorts s (modPort p f s)) with hstays | htakes
    · exact .inl (hstays.trans (hother q h))
    · rw [hother q h] at htakes
      refine .inr ⟨?_, htakes⟩
      simp only [Bool.and_eq_true, List.any_eq_true, Bool.not_eq_true', List.any_eq_false] at hturn
      obtain ⟨⟨k, hk, hrun⟩, hnone⟩ := hturn
      by_cases hkp : k = p
      · rwa [hkp] at hrun
      · exact absurd (by rwa [hother k hkp]) (hnone k hk)
  · exact .inl (hother q h)

theorem leavePort_othersKeep (p : Nat) (f : Port → Port) (s : State) : OthersKeep p s (leavePort p f s) := by
  intro q hq
  rcases portOf_leavePort_ne f s hq with hstays | ⟨hrun, hdue, hactive, _, _, _, htakes⟩
  · exact .inl hstays
  · exact .inr ⟨hrun, hdue, hactive, by rw [htakes], by rw [htakes]⟩

/-- A turn that passes changes no port's wait for its bring-up. -/
theorem waiting_leavePort_ne {p q : Nat} (f : Port → Port) (s : State) (h : q ≠ p) :
    (portOf (leavePort p f s) q).waiting = (portOf s q).waiting := by
  rcases portOf_leavePort_ne f s h with hstays | ⟨-, -, -, _, _, _, htakes⟩
  · rw [hstays]
  · rw [htakes]

/-- What a port's departure does depends on what the ports are, not on how the table came to hold them. -/
theorem leavePort_congr {p : Nat} {f : Port → Port} {s t : State} (hport : ∀ q, portOf t q = portOf s q) (htku : t.tku = s.tku)
    (hmod : modPort p f t = modPort p f s) : leavePort p f t = leavePort p f s := by
  have htime : timePort t = timePort s := by simp only [timePort, peerRoleOf, hport, htku]
  have hafter : afterPorts t (modPort p f t) = afterPorts s (modPort p f s) := by simp only [afterPorts, htime, hmod]
  unfold leavePort
  rw [hafter]
  simp only [passTurn, hport]

/-! A bring-up begins (R84, R86, R87). -/

/-- A port that begins a bring-up of kind `k`. -/
def bringingUp (k : Bring) (x : Port) : Port :=
  { portQuiet x with
    state := .bringup, bring := k, tries := 0, fallen := false, waiting := none, probing := false, probeOn := false, pattern := 0
    capped := x.capped && k != .retrain }

/-- The generation at which it begins (R84, R87). -/
def bringGen (k : Bring) (x : Port) : Nat := if k = .rebring ∧ x.gen ≠ 0 then x.gen else 1

theorem bringGen_of_ne_rebring {k : Bring} (x : Port) (h : k ≠ .rebring) : bringGen k x = 1 := if_neg fun ⟨hk, _⟩ => h hk
theorem bringGen_rebring {x : Port} (h : x.gen ≠ 0) : bringGen .rebring x = x.gen := if_pos ⟨rfl, h⟩

theorem beginBring_eq (k : Bring) (p : Nat) (s : State) :
    beginBring k p s = startTry p (bringGen k (portOf s p)) (leavePort p (bringingUp k) s) := rfl

theorem leavePort_bringingUp (k : Bring) (p : Nat) (s : State) : portOf (leavePort p (bringingUp k) s) p = bringingUp k (portOf s p) :=
  portOf_leavePort rfl

theorem waiting_beginBring (k : Bring) (p q : Nat) (s : State) :
    (portOf (beginBring k p s) q).waiting = if q = p then none else (portOf s q).waiting := by
  rw [beginBring_eq]
  by_cases h : q = p
  · subst h
    rw [if_pos rfl, portOf_startTry, leavePort_bringingUp]
    rfl
  · rw [if_neg h, portOf_startTry_ne _ _ _ _ h, waiting_leavePort_ne _ _ h]

/-- A frame that leaves the interrupt state is one of a command that changes those groups alone. -/
theorem alone_of_sameBut {gs : List Group} {s t : State} (h : SameBut (.out :: gs) s t) (hirq : Group.irq ∉ gs) : Alone gs s t := by
  have hsame : t.irq = s.irq := h .irq (by simpa using hirq)
  exact ⟨h.mono fun g hg => List.mem_cons_of_mem _ hg, by rw [hsame]⟩

theorem beginBring_bringsUp {k : Bring} {p gen : Nat} {s : State} (hg : bringGen k (portOf s p) = gen) :
    BringsUp k p gen s (beginBring k p s) := by
  have hself := leavePort_bringingUp k p s
  rw [beginBring_eq, hg]
  obtain ⟨hlanes, hrest⟩ := startTry_lanesAcquire gen (congrArg Port.state hself)
  simp only [laneOf_leavePort] at hlanes hrest
  refine ⟨⟨_, newTag_lt (leavePort p (bringingUp k) s), ?_⟩, fun q hq => ?_, ⟨hlanes, hrest⟩, alone_of_sameBut ?_ (by decide)⟩
  · rw [portOf_startTry, hself]; rfl
  · rw [portOf_startTry_ne _ _ _ _ hq]; exact leavePort_othersKeep _ _ _ q hq
  · exact ((leavePort_sameBut p _ s).trans (startTry_sameBut p _ _)).mono (by simp)

/-- A wait that the bring-up ends is no part of what the port was. -/
theorem bringsUp_of_waiting {k w : Bring} {p gen : Nat} {s t : State}
    (h : BringsUp k p gen (modPort p (fun x => { x with waiting := some w }) s) t) : BringsUp k p gen s t := by
  obtain ⟨hself, hothers, hlanes, hframe, hirq⟩ := h
  rw [portOf_modPort_self] at hself
  refine ⟨hself, fun q hq => ?_, hlanes, ((modPort_sameBut _ _ s).trans hframe).mono (by simp), hirq⟩
  have hother := hothers q hq
  rwa [portOf_modPort_self, portOf_modPort_ne _ _ _ _ hq] at hother

/-- A list without repeats whose one member is `a`. -/
theorem nodup_eq_singleton {α : Type} {a : α} {l : List α} (hnodup : l.Nodup) (hmem : a ∈ l) (hall : ∀ b ∈ l, b = a) : l = [a] := by
  match l with
  | [] => cases hmem
  | [b] => rw [hall b List.mem_cons_self]
  | b :: c :: r =>
    have hbc : b = c := (hall b List.mem_cons_self).trans (hall c (List.mem_cons_of_mem _ List.mem_cons_self)).symm
    exact absurd (hbc ▸ List.mem_cons_self) (List.nodup_cons.1 hnodup).1

/-- A port that asks for a bring-up, where none of its kind is under way and none waits, is the next to start. -/
theorem nextWaiting_alone {p : Nat} {s : State} {ps : List Nat} (hmem : p ∈ ps) (hnodup : ps.Nodup) (hself : (portOf s p).waiting.isSome = true)
    (hothers : ∀ q, q ≠ p → (portOf s q).waiting = none) : nextWaiting s ps = some p := by
  have hfilter : (ps.filter fun q => (portOf s q).waiting.isSome) = [p] := by
    refine nodup_eq_singleton (hnodup.filter _) (List.mem_filter.2 ⟨hmem, hself⟩) fun q hq => ?_
    have hwaits := (List.mem_filter.1 hq).2
    by_cases hqp : q = p
    · exact hqp
    · rw [hothers q hqp] at hwaits; cases hwaits
  unfold nextWaiting
  rw [hfilter]
  dsimp only
  rw [List.find?_nil, ite_self]

theorem mem_kindOf {p : Nat} (h : p < 36) : p ∈ kindOf p := by
  by_cases hp : 32 ≤ p
  · simp only [kindOf, isPeer, hp, decide_true, if_true, peerPorts, List.mem_cons, List.not_mem_nil, or_false]; omega
  · simp only [kindOf, isPeer, hp, decide_false, Bool.false_eq_true, if_false, frontPorts, List.mem_range]; omega

theorem kindOf_nodup (p : Nat) : (kindOf p).Nodup := by
  unfold kindOf
  split
  · decide
  · exact List.nodup_range

/-- A bring-up asked for begins at once before the first plan, and after it where no other of the port's kind is under way or waits (R86). -/
theorem requestBring_bringsUp {k : Bring} {p gen : Nat} {s : State} (hp : p < 36) (hg : bringGen k (portOf s p) = gen)
    (hw : (portOf s p).waiting ≠ some .retrain)
    (hfree : s.plan.activated = false ∨ (bringing s p = [] ∧ ∀ q, q ≠ p → (portOf s q).waiting = none)) :
    BringsUp k p gen s (requestBring k p s) := by
  simp only [requestBring, if_neg hw]
  by_cases hnow : !s.plan.activated ∨ (portOf s p).state = .bringup
  · rw [if_pos hnow]
    exact beginBring_bringsUp hg
  · obtain ⟨hnone, hothers⟩ := hfree.resolve_left fun h => hnow (.inl (by rw [h]; rfl))
    have hnext : nextWaiting (modPort p (fun x => { x with waiting := some k }) s) (kindOf p) = some p :=
      nextWaiting_alone (mem_kindOf hp) (kindOf_nodup p) (by rw [portOf_modPort_self]; rfl) fun q hq => by
        rw [portOf_modPort_ne _ _ _ _ hq]; exact hothers q hq
    rw [if_neg hnow, hnone]
    dsimp only
    rw [if_pos hnext]
    exact bringsUp_of_waiting (beginBring_bringsUp (by rw [portOf_modPort_self]; exact hg))

/-- While another of its kind is under way a bring-up but a retrain waits (R86). -/
theorem requestBring_waits {k : Bring} {p q : Nat} {qs : List Nat} {s : State} (hw : (portOf s p).waiting ≠ some .retrain) (hk : k ≠ .retrain)
    (hact : s.plan.activated = true) (hst : (portOf s p).state ≠ .bringup) (hq : bringing s p = q :: qs) :
    requestBring k p s = modPort p (fun x => { x with waiting := some k }) s := by
  simp only [requestBring, if_neg hw]
  rw [if_neg (by simp [hact, hst]), hq]
  dsimp only
  rw [if_neg fun h => hk h.1]

/-- A port on its way out of a probe's bring-up for a retrain's sake: DORMANT, probing, and waiting (R86). -/
def givesWay (x : Port) : Port := { x with state := .dormant, probing := true, gen := 0, waiting := some .probe }

/-- A waiting retrain takes the place of a bring-up that a probe started (R86). -/
theorem requestBring_retrain {k : Bring} {p q : Nat} {s : State} (hw : (portOf s p).waiting = some .retrain) (hact : s.plan.activated = true)
    (hst : (portOf s p).state ≠ .bringup) (hq : bringing s p = [q]) (hprobe : (portOf s q).bring = .probe) :
    requestBring k p s = beginBring .retrain p (modPort q givesWay (modPort p (fun x => { x with waiting := some .retrain }) s)) := by
  simp only [requestBring, if_pos hw]
  rw [if_neg (by simp [hact, hst]), hq]
  dsimp only
  rw [if_pos ⟨trivial, hprobe⟩]
  rfl

/-- Marking the port that waits for a retrain once more leaves the bring-up that begins as it is. -/
theorem beginBring_remarked {p q : Nat} {s : State} (hpq : q ≠ p) (hw : (portOf s p).waiting = some .retrain) :
    beginBring .retrain p (modPort q givesWay (modPort p (fun x => { x with waiting := some .retrain }) s))
      = beginBring .retrain p (modPort q givesWay s) := by
  have hsame : ∀ r, portOf (modPort p (fun x => { x with waiting := some .retrain }) s) r = portOf s r := fun r => by
    by_cases hr : r = p
    · subst hr; rw [portOf_modPort_self, ← hw]
    · exact portOf_modPort_ne _ _ _ _ hr
  have hport : ∀ r, portOf (modPort q givesWay (modPort p (fun x => { x with waiting := some .retrain }) s)) r = portOf (modPort q givesWay s) r := by
    intro r
    by_cases hr : r = q
    · subst hr; rw [portOf_modPort_self, portOf_modPort_self, hsame]
    · rw [portOf_modPort_ne _ _ _ _ hr, portOf_modPort_ne _ _ _ _ hr, hsame]
  have hmark : { portOf s p with waiting := some .retrain } ≠ ({} : Port) := fun h => by cases congrArg Port.waiting h
  have hgives : givesWay (portOf s q) ≠ {} := fun h => by cases congrArg Port.state h
  have hbrings : bringingUp .retrain (portOf s p) ≠ {} := fun h => by cases congrArg Port.state h
  have hmod : modPort p (bringingUp .retrain) (modPort q givesWay (modPort p (fun x => { x with waiting := some .retrain }) s))
      = modPort p (bringingUp .retrain) (modPort q givesWay s) := by
    simp only [modPort_eq p (bringingUp _), hport]
    rw [portOf_modPort_ne _ _ _ _ hpq.symm, modPort_eq q, modPort_eq q, hsame, modPort_eq p, setPort_comm hpq.symm s hmark hgives,
      setPort_setPort _ _ hmark hbrings]
  rw [beginBring_eq, beginBring_eq, hport, leavePort_congr hport rfl hmod]

/-- The search of TUNE keeps the word that the lane heard. -/
theorem tuneLane_train (gen : Nat) (w : Word) (eye : Nat) (l : Lane) : (tuneLane gen w eye l).train = l.train := by
  unfold tuneLane
  lift_lets
  extract_lets taken now
  have htaken : taken.train = l.train := by
    unfold taken
    split <;> rfl
  clear_value taken
  rw [← htaken]
  repeat' split
  all_goals rfl

/-! How a command on ports completes. -/

theorem alone_becomes {gs : List Group} {s e t : State} (h : Alone gs s e) (b : Becomes s e t) : Alone gs s t := by
  obtain ⟨hframe, hirq⟩ := h
  refine ⟨(becomes_same hframe b).mono (by simp), ?_⟩
  rw [b.2.1]
  exact hirq

/-- A command whose effect `e` changes some groups alone completes with what the ports and the words sent then are. -/
theorem completes_ports {gs : List Group} {i : Instr} {s e : State} {P : State → Prop} (h : exec i s = commit s e) (hs : SameBut (.out :: gs) s e)
    (hirq : Group.irq ∉ gs) (hp : ∀ t, t.port = e.port → (∀ o ∈ e.out, o ∈ t.out) → Alone gs s t → P t) : Completes i s P :=
  completes_of_exec h fun t ht => hp t (ht.1 .port (by decide)) ht.2.2.1 (alone_becomes (alone_of_sameBut hs hirq) ht)

/-- A command with an effect `e` completes, and the effect is what it leaves. -/
theorem completes_leaves {i : Instr} {s e : State} (h : exec i s = commit s e) : Completes i s fun t => Leaves s e t :=
  completes_of_exec h fun _ ht => ⟨ht.1.mono (by simp), ht.2.2.2⟩

theorem othersKeep_of_port {p : Nat} {s e t : State} (h : OthersKeep p s e) (hport : t.port = e.port) : OthersKeep p s t := by
  intro q hq
  rw [portOf_congr hport]
  exact h q hq

theorem lanesAcquire_of_port {p : Nat} {s e t : State} (h : LanesAcquire p s e) (hport : t.port = e.port) (hout : ∀ o ∈ e.out, o ∈ t.out) :
    LanesAcquire p s t := by
  refine ⟨fun l hl => ?_, fun l hl => (laneOf_congr hport l).trans (h.2 l hl)⟩
  rw [laneOf_congr hport, trainWordOf_congr_port hport]
  exact ⟨(h.1 l hl).1, hout _ (h.1 l hl).2⟩

/-- A command whose effect is a bring-up completes with it; what the effect is measured from may differ from the state before in anything but the
queue. -/
theorem completes_bringsUp {i : Instr} {k : Bring} {p gen : Nat} {s r e : State} (h : exec i s = commit s e) (hr : r.pending = s.pending)
    (hb : BringsUp k p gen r e) : Completes i s fun t => BringsUp k p gen r t := by
  obtain ⟨hself, hothers, hlanes, halone⟩ := hb
  refine completes_of_exec h fun t ⟨hframe, hirq, hout, hqueue⟩ => ?_
  have hport : t.port = e.port := hframe .port (by decide)
  exact ⟨by rw [portOf_congr hport]; exact hself, othersKeep_of_port hothers hport, lanesAcquire_of_port hlanes hport hout,
    alone_becomes halone ⟨hframe, hirq, hout, hqueue.trans hr.symm⟩⟩

/-- A command that changes one lane alone. -/
theorem completes_modLane {i : Instr} {s : State} {l : Nat} {f : Lane → Lane} (h : exec i s = commit s (modLane l f s)) :
    Completes i s fun t =>
      laneOf t l = f (laneOf s l) ∧ (∀ k, k ≠ l → laneOf t k = laneOf s k) ∧ (∀ q, portOf t q = portOf s q) ∧ Alone [.port] s t := by
  refine completes_ports h ((modLane_sameBut l f s).mono (by simp)) (by decide) fun t hport _ halone => ⟨?_, fun k hk => ?_, fun q => ?_, halone⟩
  · rw [laneOf_congr hport, laneOf_modLane_self]
  · rw [laneOf_congr hport, laneOf_modLane_ne _ _ _ _ hk]
  · rw [portOf_congr hport, portOf_modLane]

theorem portExists_lt {s : State} {p : Nat} (h : portExists s p = true) : p < 36 := by
  simp only [portExists, portInRange, Bool.and_eq_true, decide_eq_true_eq] at h
  exact h.1

end Sys2Proof.Machine
end

section
/-! Settles O33: block lock, training words and the bring-up of ports, one lemma for each clause. -/
namespace Sys2Proof.Machine

/-! Block lock (R74, R83, R85). -/

/-- A lane that has found its blocks, of a port that was as `x`. -/
def locked (x : Port) (inv : Bool) (l : Lane) : Lane :=
  { l with blockLock := true, inverted := if x.state = .bringup ∧ x.phase = .acquire then inv else l.inverted }

section
variable {s : State} {lane : Nat} (hx : portExists s (lane / 2) = true)
include hx

theorem exec_blockLockAcquired (inv : Bool) :
    exec (.blockLockAcquired lane inv) s
      = commit s (if portListens (portOf s (lane / 2)) && !(laneOf s lane).blockLock && (portOf s (lane / 2)).state != .test then
          advancePhase (lane / 2) (modLane lane (locked (portOf s (lane / 2)) inv) s) else s) := onObject_true hx

theorem exec_blockLockAcquired_listens (inv : Bool) (hl : portListens (portOf s (lane / 2)) = true) (hb : (laneOf s lane).blockLock = false)
    (ht : (portOf s (lane / 2)).state ≠ .test) :
    exec (.blockLockAcquired lane inv) s = commit s (advancePhase (lane / 2) (modLane lane (locked (portOf s (lane / 2)) inv) s)) := by
  rw [exec_blockLockAcquired hx, if_pos (by simp [hl, hb, ht])]

theorem lock_active (inv : Bool) (hb : (laneOf s lane).blockLock = false)
    (hst : (portOf s (lane / 2)).state = .active ∨ (portOf s (lane / 2)).state = .standby) :
    Completes (.blockLockAcquired lane inv) s fun t =>
      laneOf t lane = { laneOf s lane with blockLock := true } ∧ (∀ l, l ≠ lane → laneOf t l = laneOf s l) ∧ (∀ q, portOf t q = portOf s q)
      ∧ Alone [.port] s t := by
  have hlocked : locked (portOf s (lane / 2)) inv (laneOf s lane) = { laneOf s lane with blockLock := true } := by
    rcases hst with hst | hst <;> simp [locked, hst]
  have hlistens : portListens (portOf s (lane / 2)) = true := by rcases hst with hst | hst <;> simp [portListens, hst]
  have hsilent : ¬SendsTrain (portOf (modLane lane (locked (portOf s (lane / 2)) inv) s) (lane / 2)) := by
    rcases hst with hst | hst <;> simp [SendsTrain, hst]
  rw [← hlocked]
  refine completes_modLane ?_
  rw [exec_blockLockAcquired_listens hx inv hlistens hb (by rcases hst with hst | hst <;> simp [hst]), advancePhase_of_silent hsilent]

theorem lock_ends_acquire (inv : Bool) (hb : (laneOf s lane).blockLock = false) (hst : (portOf s (lane / 2)).state = .bringup)
    (hph : (portOf s (lane / 2)).phase = .acquire)
    (hl : ∀ l, l / 2 = lane / 2 → (laneOf s l).train ≠ none ∧ (l ≠ lane → (laneOf s l).blockLock = true)) :
    Completes (.blockLockAcquired lane inv) s fun t =>
      (portOf t (lane / 2)) = { portOf s (lane / 2) with phase := .exchange, count := 7 } ∧ (laneOf t lane).blockLock = true
      ∧ (laneOf t lane).inverted = inv ∧ (∀ l, l / 2 = lane / 2 → (laneOf t l).ready = false)
      ∧ (∀ q, q ≠ lane / 2 → portOf t q = portOf s q) ∧ Alone [.port] s t := by
  have hlocks : ∀ l, l / 2 = lane / 2 → (laneOf (modLane lane (locked (portOf s (lane / 2)) inv) s) l).train ≠ none
      ∧ (laneOf (modLane lane (locked (portOf s (lane / 2)) inv) s) l).blockLock = true := by
    intro l hport
    by_cases h : l = lane
    · subst h; rw [laneOf_modLane_self]; exact ⟨(hl l hport).1, rfl⟩
    · rw [laneOf_modLane_ne _ _ _ _ h]; exact ⟨(hl l hport).1, (hl l hport).2 h⟩
  have hexec := exec_blockLockAcquired_listens hx inv (by simp [portListens, hst]) hb (by simp [hst])
  rw [advancePhase, exitPhase_acquire (by rwa [portOf_modLane]) (by rwa [portOf_modLane]) hlocks] at hexec
  refine completes_ports hexec (((modLane_sameBut _ _ s).trans ((enterPhase_sameBut _ _ _).trans (sendTrain_sameBut _ _))).mono (by simp)) (by decide)
    fun t hport _ halone => ⟨?_, ?_, ?_, fun l hl => ?_, fun q hq => ?_, halone⟩
  · rw [portOf_congr hport, portOf_sendTrain, portOf_enterPhase, portOf_modLane]
  · rw [laneOf_congr hport, laneOf_sendTrain_eq, laneOf_enterPhase _ _ rfl, laneOf_modLane_self]; rfl
  · rw [laneOf_congr hport, laneOf_sendTrain_eq, laneOf_enterPhase _ _ rfl, laneOf_modLane_self]
    exact if_pos ⟨hst, hph⟩
  · rw [laneOf_congr hport, laneOf_sendTrain_eq, laneOf_enterPhase _ _ hl]
  · rw [portOf_congr hport, portOf_sendTrain, portOf_enterPhase_ne _ _ _ _ hq, portOf_modLane]

theorem lock_advances (inv : Bool) (hl : portListens (portOf s (lane / 2)) = true) (hb : (laneOf s lane).blockLock = false)
    (ht : (portOf s (lane / 2)).state ≠ .test) :
    Completes (.blockLockAcquired lane inv) s fun t =>
      Leaves s (advancePhase (lane / 2) (modLane lane (locked (portOf s (lane / 2)) inv) s)) t :=
  completes_leaves (exec_blockLockAcquired_listens hx inv hl hb ht)

theorem lock_ignored (inv : Bool)
    (h : portListens (portOf s (lane / 2)) = false ∨ (laneOf s lane).blockLock = true ∨ (portOf s (lane / 2)).state = .test) :
    Completes (.blockLockAcquired lane inv) s fun t => t = s := by
  refine completes_unchanged ?_
  rw [exec_blockLockAcquired hx, if_neg]
  rcases h with h | h | h <;> simp [h]

theorem exec_blockLockLost :
    exec (.blockLockLost lane) s
      = commit s (if (laneOf s lane).blockLock then modLane lane (fun l => { l with blockLock := false, lockLoss := sat32 l.lockLoss 1 }) s else s) :=
  onObject_true hx

theorem lock_lost (hb : (laneOf s lane).blockLock = true) :
    Completes (.blockLockLost lane) s fun t =>
      laneOf t lane = { laneOf s lane with blockLock := false, lockLoss := sat32 (laneOf s lane).lockLoss 1 }
      ∧ (∀ l, l ≠ lane → laneOf t l = laneOf s l) ∧ (∀ q, portOf t q = portOf s q) ∧ Alone [.port] s t :=
  completes_modLane (by rw [exec_blockLockLost hx, if_pos hb])

theorem lock_lost_ignored (hb : (laneOf s lane).blockLock = false) : Completes (.blockLockLost lane) s fun t => t = s :=
  completes_unchanged (by rw [exec_blockLockLost hx, if_neg (by simp [hb])])

/-! Training words (R81, R83, R87 to R89). -/

theorem trainWord_ignored {w : Word} (obs : TrainObs)
    (h : (laneOf s lane).blockLock = false ∨ trainCheckOk w = false
      ∨ trPhase w ≠ 7 ∧ ((portOf s (lane / 2)).state = .off ∨ (portOf s (lane / 2)).state = .test
        ∨ (portOf s (lane / 2)).state = .dormant ∧ (portOf s (lane / 2)).probeOn = false)
      ∨ trPhase w = 7 ∧ (trCount w ≠ 0 ∨ fieldOf w 46 43 = 0 ∨ 3 < fieldOf w 46 43 ∨ portBusy s (lane / 2) = true
        ∨ (portOf s (lane / 2)).state ≠ .active ∧ (portOf s (lane / 2)).state ≠ .standby)) :
    Completes (.trainWordReceived lane w obs) s fun t => t = s := by
  refine completes_unchanged ((onObject_true hx).trans (congrArg (commit s) ?_))
  rcases h with hb | hc | ⟨h7, hst⟩ | ⟨h7, htest⟩
  · simp [hb]
  · simp [hc]
  · rcases hst with hst | hst | ⟨hst, hp⟩
    · simp [h7, hst]
    · simp [h7, hst]
    · simp [h7, hst, hp]
  · have hno : ¬(trCount w = 0 ∧ 1 ≤ fieldOf w 46 43 ∧ fieldOf w 46 43 ≤ 3 ∧ portBusy s (lane / 2) = false
        ∧ ((portOf s (lane / 2)).state = .active ∨ (portOf s (lane / 2)).state = .standby)) := by
      rintro ⟨hcount, hlow, hhigh, hbusy, hst⟩
      rcases htest with hn | hn | hn | hn | ⟨hactive, hstandby⟩
      · exact hn hcount
      · omega
      · omega
      · rw [hbusy] at hn; cases hn
      · exact hst.elim hactive hstandby
    rw [if_pos h7, if_neg hno, ite_self]

end

section
variable {s : State} {lane : Nat} {w : Word} (hx : portExists s (lane / 2) = true) (hb : (laneOf s lane).blockLock = true)
  (hc : trainCheckOk w = true)
include hx hb hc

theorem trainWord_bringsUp (obs : TrainObs) (h7 : trPhase w ≠ 7) (hw : (portOf s (lane / 2)).waiting ≠ some .retrain)
    (hact : s.plan.activated = false) (hst : (portOf s (lane / 2)).state = .active ∨ (portOf s (lane / 2)).state = .standby) :
    Completes (.trainWordReceived lane w obs) s fun t => BringsUp .full (lane / 2) 1 s t := by
  have hexec : exec (.trainWordReceived lane w obs) s = commit s (requestBring .full (lane / 2) s) := by
    refine (onObject_true hx).trans (congrArg (commit s) ?_)
    rcases hst with hst | hst <;> simp [hb, hc, h7, hst]
  exact completes_bringsUp hexec rfl
    (requestBring_bringsUp (portExists_lt hx) (bringGen_of_ne_rebring _ (by decide)) hw (.inl hact))

theorem trainWord_probe_bringsUp (obs : TrainObs) (h7 : trPhase w ≠ 7) (hw : (portOf s (lane / 2)).waiting ≠ some .retrain)
    (hact : s.plan.activated = false) (hst : (portOf s (lane / 2)).state = .dormant) (hp : (portOf s (lane / 2)).probeOn = true) :
    Completes (.trainWordReceived lane w obs) s fun t => BringsUp .probe (lane / 2) 1 s t := by
  have hexec : exec (.trainWordReceived lane w obs) s = commit s (requestBring .probe (lane / 2) s) :=
    (onObject_true hx).trans (by simp [hb, hc, h7, hst, hp])
  exact completes_bringsUp hexec rfl
    (requestBring_bringsUp (portExists_lt hx) (bringGen_of_ne_rebring _ (by decide)) hw (.inl hact))

end

/-- A port in TEST with a pattern, and a lane whose checker starts anew (R89). -/
def testing (pattern : Nat) (x : Port) : Port :=
  { portQuiet x with state := .test, pattern := pattern, probing := false, probeOn := false, waiting := none }
def checkerAnew (l : Lane) : Lane := { l with blockLock := false, prbsLocked := false, prbsReg := 0, prbsSeen := [] }

/-- The state of a port and its lanes in TEST before the generators start, and the pattern's first bits on a lane. -/
def testSet (p pattern : Nat) (s : State) : State := modLanes p checkerAnew (leavePort p (testing pattern) s)
def testBits (p pattern : Nat) (s : State) (l : Nat) : Out :=
  .prbs l (prbsRun pattern 64 ((drawFree (testSet p pattern s)).1.toNat / 2 ^ (l % 2) % 2147483648))

theorem enterTest_eq (p pattern : Nat) (s : State) :
    enterTest p pattern s
      = emit (testBits p pattern s (2 * p + 1)) (emit (testBits p pattern s (2 * p)) (drawFree (testSet p pattern s)).2) := rfl

theorem enterTest_port (p pattern : Nat) (s : State) : (enterTest p pattern s).port = (testSet p pattern s).port := rfl

theorem testBits_sent {p l : Nat} (pattern : Nat) (s : State) (h : l / 2 = p) : testBits p pattern s l ∈ (enterTest p pattern s).out := by
  rw [enterTest_eq]
  obtain rfl | rfl : l = 2 * p ∨ l = 2 * p + 1 := by omega
  · exact List.mem_cons_of_mem _ List.mem_cons_self
  · exact List.mem_cons_self

theorem enterTest_sameBut (p pattern : Nat) (s : State) : SameBut [.out, .port, .tku, .clk] s (enterTest p pattern s) :=
  (((leavePort_sameBut p _ s).trans (modLanes_sameBut _ _ _)).trans
    (((drawFree_sameBut _).trans (emit_sameBut _ _)).trans (emit_sameBut _ _))).mono (by simp)

theorem trainWord_test {s : State} {lane : Nat} {w : Word} (obs : TrainObs) (hx : portExists s (lane / 2) = true)
    (hb : (laneOf s lane).blockLock = true) (hc : trainCheckOk w = true) (h7 : trPhase w = 7) (hcount : trCount w = 0)
    (hlow : 1 ≤ fieldOf w 46 43) (hhigh : fieldOf w 46 43 ≤ 3) (hbusy : portBusy s (lane / 2) = false)
    (hst : (portOf s (lane / 2)).state = .active ∨ (portOf s (lane / 2)).state = .standby) :
    Completes (.trainWordReceived lane w obs) s fun t =>
      portOf t (lane / 2) = { portQuiet (portOf s (lane / 2)) with
        state := .test, pattern := fieldOf w 46 43, probing := false, probeOn := false, waiting := none }
      ∧ (∀ l, laneOf t l = if l / 2 = lane / 2 then
          { laneOf s l with blockLock := false, prbsLocked := false, prbsReg := 0, prbsSeen := [] } else laneOf s l)
      ∧ (∀ l, l / 2 = lane / 2 → ∃ r, .prbs l (prbsRun (fieldOf w 46 43) 64 r) ∈ t.out) ∧ OthersKeep (lane / 2) s t
      ∧ Alone [.port, .tku, .clk] s t := by
  have hexec : exec (.trainWordReceived lane w obs) s = commit s (enterTest (lane / 2) (fieldOf w 46 43) s) := by
    refine (onObject_true hx).trans (congrArg (commit s) ?_)
    rw [if_neg (by simp [hb, hc]), if_pos h7, if_pos ⟨hcount, hlow, hhigh, hbusy, hst⟩]
  refine completes_ports hexec (enterTest_sameBut _ _ s) (by decide) fun t hport hout halone => ?_
  have hset := hport.trans (enterTest_port _ _ s)
  refine ⟨?_, fun l => ?_, fun l hl => ⟨_, hout _ (testBits_sent _ s hl)⟩, othersKeep_of_port (fun q hq => ?_) hset, halone⟩
  · rw [portOf_congr hset, testSet, portOf_modLanes, portOf_leavePort rfl]; rfl
  · rw [laneOf_congr hset, testSet, laneOf_modLanes, laneOf_leavePort]; rfl
  · exact leavePort_othersKeep _ _ s q hq

/-- A lane that has heard a training word while its port was as `x` in BRINGUP. -/
def heardWord (x : Port) (w : Word) (obs : TrainObs) (l : Lane) : Lane :=
  { l with
    train := some (w &&& fieldAt 55 0 0xFFFFFFFFFFFFFF)
    ready := l.ready || (x.phase == .align && obs.ready && decide (obs.deskew ≤ 32))
    rxLatency := if x.phase = .align then obs.rxLatency else l.rxLatency
    txLatency := if x.phase = .align then obs.txLatency else l.txLatency
    deskew := if x.phase = .align then obs.deskew else l.deskew }

section
variable {s : State} {lane : Nat} {w : Word} (hx : portExists s (lane / 2) = true) (hb : (laneOf s lane).blockLock = true)
  (hc : trainCheckOk w = true) (h7 : trPhase w ≠ 7) (hst : (portOf s (lane / 2)).state = .bringup)
include hx hb hc h7 hst

theorem exec_trainWord_bringup (obs : TrainObs) (hph : (portOf s (lane / 2)).phase ≠ .tune) :
    exec (.trainWordReceived lane w obs) s
      = commit s (advancePhase (lane / 2) (stepCount (lane / 2) lane (modLane lane (heardWord (portOf s (lane / 2)) w obs) s))) := by
  refine (onObject_true hx).trans (congrArg (commit s) ?_)
  rw [if_neg (by simp [hb, hc]), if_neg h7, hst]
  dsimp only
  rw [if_neg hph]
  rfl

theorem exec_trainWord_tune (obs : TrainObs) (hph : (portOf s (lane / 2)).phase = .tune) :
    exec (.trainWordReceived lane w obs) s
      = commit s (advancePhase (lane / 2) (stepCount (lane / 2) lane
          (modLane lane (tuneLane (portOf s (lane / 2)).gen w obs.eye) (modLane lane (heardWord (portOf s (lane / 2)) w obs) s)))) := by
  refine (onObject_true hx).trans (congrArg (commit s) ?_)
  rw [if_neg (by simp [hb, hc]), if_neg h7, hst]
  dsimp only
  rw [if_pos hph]
  rfl

theorem trainWord_held {o : Nat} (obs : TrainObs) (hph : (portOf s (lane / 2)).phase ≠ .tune) (ho : o / 2 = lane / 2) (hne : o ≠ lane)
    (hnone : (laneOf s o).train = none) :
    Completes (.trainWordReceived lane w obs) s fun t =>
      (laneOf t lane).train = some (w &&& fieldAt 55 0 0xFFFFFFFFFFFFFF)
      ∧ (laneOf t lane).ready = ((laneOf s lane).ready || ((portOf s (lane / 2)).phase == .align && obs.ready && decide (obs.deskew ≤ 32)))
      ∧ (∀ q, portOf t q = portOf s q) ∧ (∀ l, l / 2 ≠ lane / 2 → laneOf t l = laneOf s l)
      ∧ { laneOf t o with sentWord := (laneOf s o).sentWord } = laneOf s o ∧ Alone [.port] s t := by
  have hother : (laneOf (modLane lane (heardWord (portOf s (lane / 2)) w obs) s) o).train = none := by rw [laneOf_modLane_ne _ _ _ _ hne, hnone]
  have hexec := exec_trainWord_bringup hx hb hc h7 hst obs hph
  rw [stepCount_of_unheard ho hother, advancePhase, exitPhase_of_unheard ho hother] at hexec
  refine completes_ports hexec (((modLane_sameBut _ _ s).trans (sendTrain_sameBut _ _)).mono (by simp)) (by decide)
    fun t hport _ halone => ⟨?_, ?_, fun q => ?_, fun l hl => ?_, ?_, halone⟩
  · rw [laneOf_congr hport, laneOf_sendTrain_eq, laneOf_modLane_self]; rfl
  · rw [laneOf_congr hport, laneOf_sendTrain_eq, laneOf_modLane_self]; rfl
  · rw [portOf_congr hport, portOf_sendTrain, portOf_modLane]
  · rw [laneOf_congr hport, laneOf_sendTrain_ne _ _ _ hl, laneOf_modLane_ne _ _ _ _ fun h => hl (by rw [h])]
  · rw [laneOf_congr hport, laneOf_sendTrain_eq, laneOf_modLane_ne _ _ _ _ hne]

theorem trainWord_tunes (obs : TrainObs) (hph : (portOf s (lane / 2)).phase = .tune) :
    Completes (.trainWordReceived lane w obs) s fun t =>
      Leaves s (advancePhase (lane / 2) (modLane lane (fun l =>
        tuneLane (portOf s (lane / 2)).gen w obs.eye { l with train := some (w &&& fieldAt 55 0 0xFFFFFFFFFFFFFF) }) s)) t := by
  have hheard : heardWord (portOf s (lane / 2)) w obs = fun l => { l with train := some (w &&& fieldAt 55 0 0xFFFFFFFFFFFFFF) } := by
    funext l; simp [heardWord, hph]
  have hexec := exec_trainWord_tune hx hb hc h7 hst obs hph
  rw [stepCount_of_phase (by simp [hph]), hheard, modLane_modLane] at hexec
  · exact completes_leaves hexec
  · exact fun h => by cases congrArg Lane.train h
  · exact fun h => by cases (tuneLane_train ..).symm.trans (congrArg Lane.train h)

end

/-! The end of a try (R84, R88). -/

/-- A lane of a port whose try failed, and a port whose try failed for a reason. -/
def failCounted (l : Lane) : Lane := { l with bringupFail := sat32 l.bringupFail 1 }
def failNoted (reason : Nat) (x : Port) : Port := { x with lastFail := reason }

/-- A failed try counted on both lanes (the model's choice: R91 names BRINGUP_FAIL and does not say what it counts), and a further one begun at a
generation on the port changed by `f`. -/
def counted (p reason : Nat) (s : State) : State := modLanes p failCounted (modPort p (failNoted reason) s)
def tryAgain (p reason gen : Nat) (f : Port → Port) (s : State) : State := startTry p gen (modPort p f (counted p reason s))

theorem portOf_counted (p reason : Nat) (s : State) : portOf (counted p reason s) p = failNoted reason (portOf s p) := by
  rw [counted, portOf_modLanes, portOf_modPort_self]

theorem laneOf_counted (p reason l : Nat) (s : State) : laneOf (counted p reason s) l = laneOf (modLanes p failCounted s) l := by
  rw [counted, laneOf_modLanes, laneOf_modLanes, laneOf_modPort]

theorem failTry_rebring {p reason : Nat} {s : State} (hb : (portOf s p).bring = .rebring) :
    failTry p reason s = beginBring .full p (counted p reason s) := by
  unfold failTry; dsimp only; rw [if_pos hb]; rfl

section
variable {p reason : Nat} {s : State} (hb : (portOf s p).bring ≠ .rebring)
include hb

theorem failTry_repeats (ht : (portOf s p).tries < 2) :
    failTry p reason s = tryAgain p reason (portOf s p).gen (fun x => { x with tries := x.tries + 1 }) s := by
  unfold failTry; dsimp only; rw [if_neg hb, if_pos ht]; rfl

theorem failTry_falls (ht : 2 ≤ (portOf s p).tries) (hg : 1 < (portOf s p).gen) :
    failTry p reason s = tryAgain p reason ((portOf s p).gen - 1) (fun x => { x with tries := 0, fallen := true }) s := by
  unfold failTry; dsimp only; rw [if_neg hb, if_neg (by omega), if_neg (by omega)]; rfl

theorem failTry_dormant (ht : 2 ≤ (portOf s p).tries) (hg : (portOf s p).gen ≤ 1) : failTry p reason s = failDormant p reason s := by
  unfold failTry; dsimp only; rw [if_neg hb, if_neg (by omega), if_pos hg]

end

/-- A command by which a port in bring-up tries again, at a generation and changed by `f` (R84). -/
theorem completes_tryAgain {i : Instr} {s : State} {p reason gen : Nat} {f : Port → Port} (h : exec i s = commit s (tryAgain p reason gen f s))
    (hst : (portOf s p).state = .bringup) (hf : ∀ x, (f x).state = x.state) :
    Completes i s fun t =>
      (∃ tag, portOf t p = { f (failNoted reason (portOf s p)) with gen := gen, phase := .acquire, swapped := false, tag := tag })
      ∧ LanesAcquire p (modLanes p failCounted s) t ∧ (∀ q, q ≠ p → portOf t q = portOf s q) ∧ Alone [.port, .clk] s t := by
  have hself : portOf (modPort p f (counted p reason s)) p = f (failNoted reason (portOf s p)) := by rw [portOf_modPort_self, portOf_counted]
  have hup : (portOf (modPort p f (counted p reason s)) p).state = .bringup := by rw [hself, hf]; exact hst
  have hlanes := startTry_lanesAcquire gen hup
  simp only [LanesAcquire, laneOf_modPort, laneOf_counted] at hlanes
  refine completes_ports h ((((modPort_sameBut _ _ s).trans (modLanes_sameBut _ _ _)).trans
      ((modPort_sameBut _ _ _).trans (startTry_sameBut p _ _))).mono (by simp)) (by decide)
    fun t hport hout halone => ⟨⟨newTag (modPort p f (counted p reason s)), ?_⟩, lanesAcquire_of_port hlanes hport hout, fun q hq => ?_, halone⟩
  · rw [portOf_congr hport, tryAgain, portOf_startTry, hself]
  · rw [portOf_congr hport, tryAgain, portOf_startTry_ne _ _ _ _ hq, portOf_modPort_ne _ _ _ _ hq, counted, portOf_modLanes,
      portOf_modPort_ne _ _ _ _ hq]

/-- A port that goes DORMANT after a failure, and its lanes (R84, R88). -/
def failedPort (reason : Nat) (x : Port) : Port :=
  { portQuiet x with state := .dormant, probing := true, probeOn := false, gen := 0, lastFail := reason, tries := 0, fallen := false }
def failedLane (l : Lane) : Lane := { l with blockLock := false, train := none, ready := false, bringupFail := sat32 l.bringupFail 1 }

theorem failDormant_eq (p reason : Nat) (s : State) : failDormant p reason s = modLanes p failedLane (leavePort p (failedPort reason) s) := rfl

/-- The state in which a port's probe begins: a TAG of its own, and no word sent yet. -/
def probeBegun (p : Nat) (s : State) : State :=
  modLanes p (fun l => { l with sentWord := none }) (modPort p (fun x => { x with probeOn := true, tag := newTag s }) (drawFree s).2)

section
variable {s : State} {p : Nat} (hx : portExists s p = true)
include hx

theorem exec_bringupPhaseTimeout (hst : (portOf s p).state = .bringup) :
    exec (.bringupPhaseTimeout p) s = commit s (failTry p (2 + phaseCode (portOf s p).phase) s) :=
  (onObject_true hx).trans (by rw [if_pos hst])

theorem timeout_repeats (hst : (portOf s p).state = .bringup) (hb : (portOf s p).bring ≠ .rebring) (ht : (portOf s p).tries < 2) :
    Completes (.bringupPhaseTimeout p) s fun t =>
      (∃ tag, portOf t p = { portOf s p with
        lastFail := 2 + phaseCode (portOf s p).phase, tries := (portOf s p).tries + 1, phase := .acquire, swapped := false, tag := tag })
      ∧ LanesAcquire p (modLanes p (fun l => { l with bringupFail := sat32 l.bringupFail 1 }) s) t ∧ (∀ q, q ≠ p → portOf t q = portOf s q)
      ∧ Alone [.port, .clk] s t := by
  have hexec := exec_bringupPhaseTimeout hx hst
  rw [failTry_repeats hb ht] at hexec
  exact completes_tryAgain hexec hst fun _ => rfl

theorem timeout_falls (hst : (portOf s p).state = .bringup) (hb : (portOf s p).bring ≠ .rebring) (ht : 2 ≤ (portOf s p).tries)
    (hg : 1 < (portOf s p).gen) :
    Completes (.bringupPhaseTimeout p) s fun t =>
      (∃ tag, portOf t p = { portOf s p with
        lastFail := 2 + phaseCode (portOf s p).phase, tries := 0, fallen := true, gen := (portOf s p).gen - 1, phase := .acquire
        swapped := false, tag := tag })
      ∧ LanesAcquire p (modLanes p (fun l => { l with bringupFail := sat32 l.bringupFail 1 }) s) t ∧ (∀ q, q ≠ p → portOf t q = portOf s q)
      ∧ Alone [.port, .clk] s t := by
  have hexec := exec_bringupPhaseTimeout hx hst
  rw [failTry_falls hb ht hg] at hexec
  exact completes_tryAgain hexec hst fun _ => rfl

theorem timeout_dormant (hst : (portOf s p).state = .bringup) (hb : (portOf s p).bring ≠ .rebring) (ht : 2 ≤ (portOf s p).tries)
    (hg : (portOf s p).gen ≤ 1) :
    Completes (.bringupPhaseTimeout p) s fun t =>
      portOf t p = { portQuiet (portOf s p) with
        state := .dormant, probing := true, probeOn := false, gen := 0, lastFail := 2 + phaseCode (portOf s p).phase, tries := 0, fallen := false }
      ∧ (∀ l, laneOf t l = if l / 2 = p then
          { laneOf s l with blockLock := false, train := none, ready := false, bringupFail := sat32 (laneOf s l).bringupFail 1 } else laneOf s l)
      ∧ OthersKeep p s t ∧ Alone [.port, .tku] s t := by
  have hexec := exec_bringupPhaseTimeout hx hst
  rw [failTry_dormant hb ht hg, failDormant_eq] at hexec
  refine completes_ports hexec (((leavePort_sameBut p _ s).trans (modLanes_sameBut _ _ _)).mono (by simp)) (by decide)
    fun t hport _ halone => ⟨?_, fun l => ?_, othersKeep_of_port (fun q hq => ?_) hport, halone⟩
  · rw [portOf_congr hport, portOf_modLanes, portOf_leavePort rfl]; rfl
  · rw [laneOf_congr hport, laneOf_modLanes, laneOf_leavePort]; rfl
  · exact leavePort_othersKeep _ _ s q hq

theorem timeout_rebring (hst : (portOf s p).state = .bringup) (hb : (portOf s p).bring = .rebring) :
    Completes (.bringupPhaseTimeout p) s fun t =>
      BringsUp .full p 1 (modLanes p (fun l => { l with bringupFail := sat32 l.bringupFail 1 })
        (modPort p (fun x => { x with lastFail := 2 + phaseCode (portOf s p).phase }) s)) t := by
  have hexec := exec_bringupPhaseTimeout hx hst
  rw [failTry_rebring hb] at hexec
  change Completes _ s fun t => BringsUp .full p 1 (counted p (2 + phaseCode (portOf s p).phase) s) t
  exact completes_bringsUp hexec rfl (beginBring_bringsUp (bringGen_of_ne_rebring _ (by decide)))

theorem timeout_ignored (hst : (portOf s p).state ≠ .bringup) : Completes (.bringupPhaseTimeout p) s fun t => t = s :=
  completes_unchanged ((onObject_true hx).trans (by rw [if_neg hst]))

/-! Signals and missing frames (R86, R87). -/

theorem exec_signalDetected (hst : (portOf s p).state = .dormant) : exec (.signalDetected p) s = commit s (requestBring .full p s) :=
  (onObject_true hx).trans (by rw [if_pos hst])

theorem exec_portRebring (hst : (portOf s p).state = .active) (hm : 100 ≤ (portOf s p).missRun) :
    exec (.portRebring p) s = commit s (requestBring .rebring p s) := (onObject_true hx).trans (by rw [if_pos ⟨hst, hm⟩])

theorem signal_ignored (hst : (portOf s p).state ≠ .dormant) : Completes (.signalDetected p) s fun t => t = s :=
  completes_unchanged ((onObject_true hx).trans (by rw [if_neg hst]))

theorem rebring_ignored (h : (portOf s p).state ≠ .active ∨ (portOf s p).missRun < 100) : Completes (.portRebring p) s fun t => t = s := by
  refine completes_unchanged ((onObject_true hx).trans (congrArg (commit s) (if_neg ?_)))
  rintro ⟨hst, hm⟩
  rcases h with h | h
  · exact h hst
  · omega

theorem signal_bringsUp (hst : (portOf s p).state = .dormant) (hw : (portOf s p).waiting ≠ some .retrain)
    (hfree : s.plan.activated = false ∨ (bringing s p = [] ∧ ∀ q, q ≠ p → (portOf s q).waiting = none)) :
    Completes (.signalDetected p) s fun t => BringsUp .full p 1 s t :=
  completes_bringsUp (exec_signalDetected hx hst) rfl
    (requestBring_bringsUp (portExists_lt hx) (bringGen_of_ne_rebring _ (by decide)) hw hfree)

theorem rebring_bringsUp (hst : (portOf s p).state = .active) (hm : 100 ≤ (portOf s p).missRun) (hg : (portOf s p).gen ≠ 0)
    (hw : (portOf s p).waiting ≠ some .retrain)
    (hfree : s.plan.activated = false ∨ (bringing s p = [] ∧ ∀ q, q ≠ p → (portOf s q).waiting = none)) :
    Completes (.portRebring p) s fun t => BringsUp .rebring p (portOf s p).gen s t :=
  completes_bringsUp (exec_portRebring hx hst hm) rfl (requestBring_bringsUp (portExists_lt hx) (bringGen_rebring hg) hw hfree)

theorem signal_waits {q : Nat} {qs : List Nat} (hact : s.plan.activated = true) (hq : bringing s p = q :: qs)
    (hst : (portOf s p).state = .dormant) (hw : (portOf s p).waiting ≠ some .retrain) :
    Completes (.signalDetected p) s fun t =>
      portOf t p = { portOf s p with waiting := some .full } ∧ (∀ k, k ≠ p → portOf t k = portOf s k) ∧ (∀ l, laneOf t l = laneOf s l)
      ∧ Alone [.port] s t := by
  have hexec := exec_signalDetected hx hst
  rw [requestBring_waits hw (by decide) hact (by simp [hst]) hq] at hexec
  refine completes_ports hexec ((modPort_sameBut _ _ s).mono (by simp)) (by decide)
    fun t hport _ halone => ⟨?_, fun k hk => ?_, fun l => ?_, halone⟩
  · rw [portOf_congr hport, portOf_modPort_self]
  · rw [portOf_congr hport, portOf_modPort_ne _ _ _ _ hk]
  · rw [laneOf_congr hport, laneOf_modPort]

theorem rebring_retrain {q : Nat} (hact : s.plan.activated = true) (hq : bringing s p = [q]) (hprobe : (portOf s q).bring = .probe)
    (hst : (portOf s p).state = .active) (hm : 100 ≤ (portOf s p).missRun) (hw : (portOf s p).waiting = some .retrain) :
    Completes (.portRebring p) s fun t =>
      Leaves s (beginBring .retrain p (modPort q (fun x => { x with state := .dormant, probing := true, gen := 0, waiting := some .probe }) s)) t := by
  have hne : q ≠ p := by
    have hmem : q ∈ bringing s p := by rw [hq]; exact List.mem_cons_self
    simp only [bringing, List.mem_filter, Bool.and_eq_true, bne_iff_ne] at hmem
    exact hmem.2.1
  have hexec := exec_portRebring hx hst hm
  rw [requestBring_retrain hw hact (by simp [hst]) hq hprobe, beginBring_remarked hne hw] at hexec
  exact completes_leaves hexec

/-! Probes (R88). -/

theorem probe_ignored (h : (portOf s p).state ≠ .dormant ∨ (portOf s p).probing = false ∨ (portOf s p).probeOn = true) :
    Completes (.dormantProbe p) s fun t => t = s := by
  refine completes_unchanged ((onObject_true hx).trans (congrArg (commit s) (if_neg ?_)))
  rintro ⟨hst, hprobing, hoff⟩
  rcases h with h | h | h
  · exact h hst
  · rw [hprobing] at h; cases h
  · rw [hoff] at h; cases h

theorem exec_dormantProbe (hst : (portOf s p).state = .dormant) (hprobing : (portOf s p).probing = true) (hoff : (portOf s p).probeOn = false) :
    exec (.dormantProbe p) s = commit s (sendTrain p (probeBegun p s)) := (onObject_true hx).trans (by rw [if_pos ⟨hst, hprobing, hoff⟩]; rfl)

theorem probe_sends (hst : (portOf s p).state = .dormant) (hprobing : (portOf s p).probing = true) (hoff : (portOf s p).probeOn = false) :
    Completes (.dormantProbe p) s fun t =>
      (∃ tag, tag < 65536 ∧ portOf t p = { portOf s p with probeOn := true, tag := tag }) ∧ (∀ k, k ≠ p → portOf t k = portOf s k)
      ∧ (∀ l, l / 2 = p → laneOf t l = { laneOf s l with sentWord := some (trainWordOf t p l) } ∧ .train l (trainBlock (trainWordOf t p l)) ∈ t.out)
      ∧ (∀ l, l / 2 ≠ p → laneOf t l = laneOf s l) ∧ Alone [.port, .clk] s t := by
  have hself : portOf (probeBegun p s) p = { portOf s p with probeOn := true, tag := newTag s } := by
    rw [probeBegun, portOf_modLanes, portOf_modPort_self, portOf_drawFree]
  have hlane : ∀ l, laneOf (probeBegun p s) l = if l / 2 = p then { laneOf s l with sentWord := none } else laneOf s l :=
    fun l => laneOf_modLanes _ _ _ _
  have hsends : SendsTrain (portOf (probeBegun p s) p) := .inr (by rw [hself]; exact ⟨hst, rfl⟩)
  refine completes_ports (exec_dormantProbe hx hst hprobing hoff) ((((drawFree_sameBut s).trans (modPort_sameBut _ _ _)).trans
      ((modLanes_sameBut _ _ _).trans (sendTrain_sameBut p _))).mono (by simp)) (by decide)
    fun t hport hout halone => ⟨⟨newTag s, newTag_lt s, ?_⟩, fun k hk => ?_, fun l hl => ⟨?_, ?_⟩, fun l hl => ?_, halone⟩
  · rw [portOf_congr hport, portOf_sendTrain, hself]
  · rw [portOf_congr hport, portOf_sendTrain, probeBegun, portOf_modLanes, portOf_modPort_ne _ _ _ _ hk, portOf_drawFree]
  · rw [laneOf_congr hport, trainWordOf_congr_port hport, laneOf_sendTrain hsends hl, hlane, if_pos hl]
  · rw [trainWordOf_congr_port hport]
    exact hout _ (sendTrain_sends hsends (fun k hk => by rw [hlane, if_pos hk]) hl)
  · rw [laneOf_congr hport, laneOf_sendTrain_ne _ _ _ hl, hlane, if_neg hl]

theorem exec_probeWindowEnd :
    exec (.probeWindowEnd p) s
      = commit s (if (portOf s p).probeOn then
          modLanes p (fun l => { l with blockLock := false, train := none }) (modPort p (fun x => { x with probeOn := false }) s) else s) :=
  onObject_true hx

theorem probeWindow_ends (hon : (portOf s p).probeOn = true) :
    Completes (.probeWindowEnd p) s fun t =>
      portOf t p = { portOf s p with probeOn := false } ∧ (∀ k, k ≠ p → portOf t k = portOf s k)
      ∧ (∀ l, laneOf t l = if l / 2 = p then { laneOf s l with blockLock := false, train := none } else laneOf s l) ∧ Alone [.port] s t := by
  refine completes_ports (by rw [exec_probeWindowEnd hx, if_pos hon]) (((modPort_sameBut _ _ s).trans (modLanes_sameBut _ _ _)).mono (by simp))
    (by decide) fun t hport _ halone => ⟨?_, fun k hk => ?_, fun l => ?_, halone⟩
  · rw [portOf_congr hport, portOf_modLanes, portOf_modPort_self]
  · rw [portOf_congr hport, portOf_modLanes, portOf_modPort_ne _ _ _ _ hk]
  · rw [laneOf_congr hport, laneOf_modLanes, laneOf_modPort]

theorem probeWindow_ignored (hoff : (portOf s p).probeOn = false) : Completes (.probeWindowEnd p) s fun t => t = s :=
  completes_unchanged (by rw [exec_probeWindowEnd hx, if_neg (by simp [hoff])])

end

/-! The queue of bring-ups (R86). -/

theorem exec_bringupQueueStart (s : State) : exec .bringupQueueStart s = commit s (startWaiting peerPorts (startWaiting frontPorts s)) := rfl

theorem startWaiting_none {s : State} {ps : List Nat} (h : nextWaiting s ps = none) : startWaiting ps s = s := by
  unfold startWaiting
  rw [h]
  exact ite_self _

theorem startWaiting_next {s : State} {ps : List Nat} {p : Nat} {k : Bring}
    (hfree : s.plan.activated = false ∨ (ps.any fun p => (portOf s p).state == .bringup) = false) (hnext : nextWaiting s ps = some p)
    (hw : (portOf s p).waiting = some k) : startWaiting ps s = beginBring k p s := by
  unfold startWaiting
  rw [if_neg (by rcases hfree with h | h <;> simp [h]), hnext]
  dsimp only
  rw [hw]
  rfl

/-- No port is next exactly where none waits. -/
theorem nextWaiting_eq_none {s : State} {ps : List Nat} : nextWaiting s ps = none ↔ ∀ p ∈ ps, (portOf s p).waiting = none := by
  have hfilter : (ps.filter fun p => (portOf s p).waiting.isSome) = [] ↔ ∀ p ∈ ps, (portOf s p).waiting = none := by
    simp [List.filter_eq_nil_iff]
  rw [← hfilter]
  unfold nextWaiting
  split
  · next h => simp [h]
  · next h =>
    rw [h]
    split
    · split <;> simp
    · simp

theorem queue_starts {s : State} {p : Nat} {k : Bring} (hnext : nextWaiting s frontPorts = some p) (hw : (portOf s p).waiting = some k)
    (hpeers : nextWaiting s peerPorts = none)
    (hfree : s.plan.activated = false ∨ (frontPorts.any fun p => (portOf s p).state == .bringup) = false) (hk : k ≠ .rebring) :
    Completes .bringupQueueStart s fun t => BringsUp k p 1 s t := by
  have hstill : nextWaiting (beginBring k p s) peerPorts = none := by
    rw [nextWaiting_eq_none] at hpeers ⊢
    intro q hq
    rw [waiting_beginBring, hpeers q hq, ite_self]
  have hexec := exec_bringupQueueStart s
  rw [startWaiting_next hfree hnext hw, startWaiting_none hstill] at hexec
  exact completes_bringsUp hexec rfl (beginBring_bringsUp (bringGen_of_ne_rebring _ hk))

theorem queue_ignored {s : State} (hfront : nextWaiting s frontPorts = none) (hpeers : nextWaiting s peerPorts = none) :
    Completes .bringupQueueStart s fun t => t = s :=
  completes_unchanged (by rw [exec_bringupQueueStart, startWaiting_none hfront, startWaiting_none hpeers])

/-! PRBS checkers (R89). -/

section
variable {s : State} {l : Nat} (hx : portExists s (l / 2) = true)
include hx

theorem exec_prbsCheckerLock :
    exec (.prbsCheckerLock l) s
      = commit s (if (portOf s (l / 2)).state = .test ∧ (laneOf s l).prbsLocked = false ∧ (laneOf s l).prbsSeen = List.replicate 64 false then
          modLane l (fun x => { x with prbsLocked := true }) s else s) := onObject_true hx

theorem checker_locks (hst : (portOf s (l / 2)).state = .test) (hl : (laneOf s l).prbsLocked = false)
    (hseen : (laneOf s l).prbsSeen = List.replicate 64 false) :
    Completes (.prbsCheckerLock l) s fun t =>
      laneOf t l = { laneOf s l with prbsLocked := true } ∧ (∀ k, k ≠ l → laneOf t k = laneOf s k) ∧ (∀ q, portOf t q = portOf s q)
      ∧ Alone [.port] s t := completes_modLane (by rw [exec_prbsCheckerLock hx, if_pos ⟨hst, hl, hseen⟩])

theorem checker_lock_ignored
    (h : (portOf s (l / 2)).state ≠ .test ∨ (laneOf s l).prbsLocked = true ∨ (laneOf s l).prbsSeen ≠ List.replicate 64 false) :
    Completes (.prbsCheckerLock l) s fun t => t = s := by
  refine completes_unchanged ((exec_prbsCheckerLock hx).trans (congrArg (commit s) (if_neg ?_)))
  rintro ⟨hst, hl, hseen⟩
  rcases h with h | h | h
  · exact h hst
  · rw [hl] at h; cases h
  · exact h hseen

theorem exec_prbsLockLoss :
    exec (.prbsLockLoss l) s
      = commit s (if (portOf s (l / 2)).state = .test ∧ (laneOf s l).prbsLocked = true ∧ 32 ≤ ((laneOf s l).prbsSeen.filter id).length then
          modLane l (fun x => { x with prbsLocked := false, prbsSeen := [], lockLoss := sat32 x.lockLoss 1 }) s else s) := onObject_true hx

theorem checker_loses_lock (hst : (portOf s (l / 2)).state = .test) (hl : (laneOf s l).prbsLocked = true)
    (hseen : 32 ≤ ((laneOf s l).prbsSeen.filter id).length) :
    Completes (.prbsLockLoss l) s fun t =>
      laneOf t l = { laneOf s l with prbsLocked := false, prbsSeen := [], lockLoss := sat32 (laneOf s l).lockLoss 1 }
      ∧ (∀ k, k ≠ l → laneOf t k = laneOf s k) ∧ (∀ q, portOf t q = portOf s q) ∧ Alone [.port] s t :=
  completes_modLane (by rw [exec_prbsLockLoss hx, if_pos ⟨hst, hl, hseen⟩])

theorem checker_loss_ignored
    (h : (portOf s (l / 2)).state ≠ .test ∨ (laneOf s l).prbsLocked = false ∨ ((laneOf s l).prbsSeen.filter id).length < 32) :
    Completes (.prbsLockLoss l) s fun t => t = s := by
  refine completes_unchanged ((exec_prbsLockLoss hx).trans (congrArg (commit s) (if_neg ?_)))
  rintro ⟨hst, hl, hseen⟩
  rcases h with h | h | h
  · exact h hst
  · rw [hl] at h; cases h
  · omega

end

/-- Settles O33: each clause is what one command of lanes and ports does, or that it does nothing outside its condition. -/
theorem laneBringUp : Obligations.LaneBringUp :=
  ⟨fun _ _ ⟨hx, hb⟩ hst inv => lock_active hx inv hb hst,
    fun _ _ inv ⟨hx, hb, hst, hph⟩ hl => lock_ends_acquire hx inv hb hst hph hl,
    fun _ _ inv ⟨hx, hl, hb, ht⟩ => lock_advances hx inv hl hb ht,
    fun _ _ inv ⟨hx, h⟩ => lock_ignored hx inv h,
    fun _ _ ⟨hx, hb⟩ => lock_lost hx hb,
    fun _ _ ⟨hx, hb⟩ => lock_lost_ignored hx hb,
    fun _ _ _ obs hx h => trainWord_ignored hx obs h,
    fun _ _ _ obs ⟨hx, hb, hc, h7⟩ ⟨hw, hact, hst⟩ => trainWord_bringsUp hx hb hc obs h7 hw hact hst,
    fun _ _ _ obs ⟨hx, hb, hc, h7⟩ ⟨hw, hact, hst, hp⟩ => trainWord_probe_bringsUp hx hb hc obs h7 hw hact hst hp,
    fun _ _ _ obs ⟨hx, hb, hc, h7, hcount⟩ ⟨hlow, hhigh, hbusy, hst⟩ => trainWord_test obs hx hb hc h7 hcount hlow hhigh hbusy hst,
    fun _ _ _ _ obs ⟨hx, hb, hc, h7, hst, hph⟩ ⟨ho, hne, hnone⟩ => trainWord_held hx hb hc h7 hst obs hph ho hne hnone,
    fun _ _ _ obs ⟨hx, hb, hc, h7, hst, hph⟩ => trainWord_tunes hx hb hc h7 hst obs hph,
    fun _ _ ⟨hx, hst, hb, ht⟩ => timeout_repeats hx hst hb ht,
    fun _ _ ⟨hx, hst, hb, ht, hg⟩ => timeout_falls hx hst hb ht hg,
    fun _ _ ⟨hx, hst, hb, ht, hg⟩ => timeout_dormant hx hst hb ht hg,
    fun _ _ ⟨hx, hst, hb⟩ => timeout_rebring hx hst hb,
    fun _ _ ⟨hx, hst⟩ => timeout_ignored hx hst,
    fun _ _ ⟨hx, hst⟩ => signal_ignored hx hst,
    fun _ _ ⟨hx, h⟩ => rebring_ignored hx h,
    fun _ _ ⟨hx, hst, hw⟩ hfree => signal_bringsUp hx hst hw hfree,
    fun _ _ ⟨hx, hst, hm, hg, hw⟩ hfree => rebring_bringsUp hx hst hm hg hw hfree,
    fun _ _ _ _ ⟨hx, hact, hq, hst, hw⟩ => signal_waits hx hact hq hst hw,
    fun _ _ _ ⟨hx, hact, hq, hprobe, hst, hm, hw⟩ => rebring_retrain hx hact hq hprobe hst hm hw,
    fun _ _ ⟨hx, hst, hprobing, hoff⟩ => probe_sends hx hst hprobing hoff,
    fun _ _ ⟨hx, h⟩ => probe_ignored hx h,
    fun _ _ ⟨hx, hon⟩ => probeWindow_ends hx hon,
    fun _ _ ⟨hx, hoff⟩ => probeWindow_ignored hx hoff,
    fun _ _ _ ⟨hnext, hw, hpeers⟩ hfree hk => queue_starts hnext hw hpeers hfree hk,
    fun _ ⟨hfront, hpeers⟩ => queue_ignored hfront hpeers,
    fun s => completes_leaves (exec_bringupQueueStart s),
    fun _ _ ⟨hx, hst, hl, hseen⟩ => checker_locks hx hst hl hseen,
    fun _ _ ⟨hx, h⟩ => checker_lock_ignored hx h,
    fun _ _ ⟨hx, hst, hl, hseen⟩ => checker_loses_lock hx hst hl hseen,
    fun _ _ ⟨hx, h⟩ => checker_loss_ignored hx h⟩

end Sys2Proof.Machine
end

section
/-! SUPPORT. Changes of one port alone, an event raised after a change, and the turns of the calibrations (R100 to R110). -/
namespace Sys2Proof.Machine

/-! One port changes. -/

/-- The state `e` is `s` but that port p is `x` in it. -/
abbrev PortBecomes (p : Nat) (x : Port) (s e : State) : Prop :=
  portOf e p = x ∧ (∀ q, q ≠ p → portOf e q = portOf s q) ∧ (∀ l, laneOf e l = laneOf s l) ∧ SameBut [.port] s e

theorem portBecomes_modPort (p : Nat) (f : Port → Port) (s : State) : PortBecomes p (f (portOf s p)) s (modPort p f s) :=
  ⟨portOf_modPort_self _ _ _, fun q hq => portOf_modPort_ne p q f s hq, fun l => laneOf_modPort p l f s, modPort_sameBut _ _ _⟩

/-- Changes of the same port in a row. -/
theorem PortBecomes.thenModPort {p : Nat} {x : Port} {s e : State} (h : PortBecomes p x s e) (f : Port → Port) :
    PortBecomes p (f x) s (modPort p f e) := by
  obtain ⟨hself, hothers, hlanes, hframe⟩ := h
  refine ⟨by rw [portOf_modPort_self, hself], fun q hq => (portOf_modPort_ne p q f e hq).trans (hothers q hq),
    fun l => (laneOf_modPort p l f e).trans (hlanes l), (hframe.trans (modPort_sameBut p f e)).mono (by simp)⟩

/-- A command whose effect is on port p alone. -/
theorem completes_portBecomes {i : Instr} {p : Nat} {x : Port} {s e : State} (h : exec i s = commit s e) (he : PortBecomes p x s e) :
    Completes i s fun t =>
      portOf t p = x ∧ (∀ q, q ≠ p → portOf t q = portOf s q) ∧ (∀ l, laneOf t l = laneOf s l) ∧ Alone [.port] s t := by
  obtain ⟨hself, hothers, hlanes, hframe⟩ := he
  exact completes_ports h (hframe.mono (by simp)) (by decide) fun t hport _ halone =>
    ⟨(portOf_congr hport p).trans hself, fun q hq => (portOf_congr hport q).trans (hothers q hq), fun l => (laneOf_congr hport l).trans (hlanes l),
      halone⟩

/-- A completed command has what follows from what it is known to leave. -/
theorem Completes.imp {i : Instr} {s : State} {P Q : State → Prop} (h : Completes i s P) (hq : ∀ t, P t → Q t) : Completes i s Q := by
  obtain ⟨t, ht, hp⟩ := h
  exact ⟨t, ht, hq t hp⟩

/-- A command that raises an event after a change of ports alone. -/
theorem completes_raise {i : Instr} {code obj : Nat} {s e : State} (h : exec i s = commit s (raise code obj e)) (he : SameBut [.port] s e) :
    Completes i s fun t => Logged code obj s t ∧ t.port = e.port ∧ SameBut [.port, .irq, .mem, .out] s t :=
  completes_of_exec h fun _ ht =>
    ⟨logged_congr (he .irq (by decide)) (he .clk (by decide)) (raise_logged code obj ht.2.1), (ht.1 .port (by decide)).trans (raise_port _ _ _),
      (becomes_same (he.trans (raise_sameBut code obj e)) ht).mono (by simp)⟩

/-- A command that raises an event after a change of port p alone. -/
theorem completes_portRaise {i : Instr} {code obj p : Nat} {x : Port} {s e : State} (h : exec i s = commit s (raise code obj e))
    (he : PortBecomes p x s e) :
    Completes i s fun t =>
      Logged code obj s t ∧ portOf t p = x ∧ (∀ q, q ≠ p → portOf t q = portOf s q) ∧ SameBut [.port, .irq, .mem, .out] s t := by
  obtain ⟨hself, hothers, -, hframe⟩ := he
  exact (completes_raise h hframe).imp fun t ⟨hlog, hport, hrest⟩ =>
    ⟨hlog, (portOf_congr hport p).trans hself, fun q hq => (portOf_congr hport q).trans (hothers q hq), hrest⟩

/-! Calibrations, one port at a time (R110). -/

theorem mem_frontPorts {p : Nat} : p ∈ frontPorts ↔ p < 32 := List.mem_range

/-- While a calibration is under way no other starts. -/
theorem calNext_of_run {q : Nat} {s : State} (hq : q < 32) (hrun : (portOf s q).calRun = true) : calNext s = s :=
  if_pos (List.any_eq_true.2 ⟨q, mem_frontPorts.2 hq, hrun⟩)

/-- A port with no calibration queued is none that starts. -/
theorem portOf_calNext_of_not_due {q : Nat} {s : State} (h : (portOf s q).calDue = false) : portOf (calNext s) q = portOf s q := by
  rcases portOf_calNext q s with hstays | ⟨hdue, -⟩
  · exact hstays
  · rw [h] at hdue; cases hdue

/-- A port whose calibration is queued: it waits for its turn, or has it. -/
theorem calibrate_queues (p : Nat) (s : State) :
    (portOf (calibrate p s) p).cal = .calWait ∧ (portOf (calibrate p s) p).seenSerial = (portOf s p).seenSerial
      ∧ (portOf (calibrate p s) p).calRun = !(portOf (calibrate p s) p).calDue := by
  have hqueued := portOf_modPort_self p (fun x => { x with cal := .calWait, calDue := true, calRun := false }) s
  unfold calibrate
  rcases portOf_calNext p (modPort p (fun x => { x with cal := .calWait, calDue := true, calRun := false }) s)
    with hwaits | ⟨-, -, _, _, _, hturn⟩
  · rw [hwaits, hqueued]; exact ⟨rfl, rfl, rfl⟩
  · rw [hturn, hqueued]; exact ⟨rfl, rfl, rfl⟩

/-- A port whose MEASURE begins. -/
def measuring (x : Port) : Port := { x with cal := .measure, measured := false, pathSum := 0, dRefSum := 0, pathCount := 0 }

theorem beginMeasure_eq (p : Nat) (s : State) : beginMeasure p s = modPort p measuring s := rfl

/-- It waits while another port's is under way. -/
theorem calibrate_waits {p q : Nat} {s : State} (hq : q < 32) (hne : q ≠ p) (hrun : (portOf s q).calRun = true) :
    (portOf (calibrate p s) p).calDue = true := by
  unfold calibrate
  rw [calNext_of_run hq (by rw [portOf_modPort_ne _ _ _ _ hne]; exact hrun), portOf_modPort_self]

theorem calibrate_sameBut (p : Nat) (s : State) : SameBut [.port] s (calibrate p s) :=
  ((modPort_sameBut _ _ s).trans (calNext_sameBut _)).mono (by simp)

/-- No turn passes where none is given up. -/
theorem passTurn_of_kept {s t : State} (h : ∀ q, (portOf t q).calRun = (portOf s q).calRun) : passTurn s t = t := by
  unfold passTurn
  simp only [h, Bool.and_not_self, Bool.false_eq_true, if_false]

theorem passTurn_sameBut (s t : State) : SameBut [.port] t (passTurn s t) := by
  unfold passTurn
  split
  · exact calNext_sameBut t
  · exact sameBut_refl _ _

/-- The time source on a port does not see a change that keeps the port's state. -/
theorem afterPorts_of_state {p : Nat} {f : Port → Port} {s : State} (h : (f (portOf s p)).state = (portOf s p).state) :
    afterPorts s (modPort p f s) = modPort p f s := by
  have hstate : ∀ q, (portOf (modPort p f s) q).state = (portOf s q).state := fun q => by
    by_cases hq : q = p
    · rw [hq, portOf_modPort_self, h]
    · rw [portOf_modPort_ne _ _ _ _ hq]
  have htku : (modPort p f s).tku = s.tku := modPort_sameBut p f s .tku (by decide)
  have htime : timePort (modPort p f s) = timePort s := by simp only [timePort, peerRoleOf, hstate, htku]
  exact if_pos (.inr htime)

/-- A port that gives up its turn and keeps its state. -/
theorem leavePort_of_state {p : Nat} {f : Port → Port} {s : State} (h : (f (portOf s p)).state = (portOf s p).state) :
    leavePort p f s = passTurn s (modPort p f s) := by
  unfold leavePort
  rw [afterPorts_of_state h]

theorem raiseRange_sameBut (p : Nat) (s : State) : SameBut [.circ, .irq, .mem] s (raiseRange p s) :=
  foldl_sameBut (fun t _ => foldl_sameBut (fun u _ => ((setCirc_sameBut _ _ u).trans (raise_sameBut _ _ _)).mono (by simp)) _ t) _ s

end Sys2Proof.Machine
end

section
/-! Settles O34: the messages of the front ends, their calibration and their runs of frames, one lemma for each clause. -/
namespace Sys2Proof.Machine

/-- A command that serves ACTIVE front-end ports alone changes nothing on another. -/
theorem completes_inactive {i : Instr} {p : Nat} {s e : State} (h : exec i s = commit s (if feActive s p then e else s))
    (ha : feActive s p = false) : Completes i s fun t => t = s :=
  completes_unchanged (by rw [h, if_neg (by simp [ha])])

/-- On an ACTIVE front-end port it has its effect. -/
theorem exec_of_active {i : Instr} {p : Nat} {s e : State} (h : exec i s = commit s (if feActive s p then e else s))
    (ha : feActive s p = true) : exec i s = commit s e := by rw [h, if_pos ha]

/-! IDENTITY (R105, R110). -/

/-- A port that has its answer to IDENT_REQUEST. -/
def identified (serial : Word) (x : Port) : Port :=
  { x with freed := (x.freed + 1) % 65536, messages := x.messages.filter fun g => g.mtype != 0x04, seenSerial := serial }

/-- The state with that answer, before what follows from it. -/
def identityHeard (p : Nat) (serial : Word) (s : State) : State :=
  modPort p (fun x => { x with seenSerial := serial }) (answered p 0x04 (freeCells p 1 s))

theorem identityHeard_becomes (p : Nat) (serial : Word) (s : State) :
    PortBecomes p (identified serial (portOf s p)) s (identityHeard p serial s) :=
  ((portBecomes_modPort p _ s).thenModPort _).thenModPort _

/-- The identity is the one of the stored record (R110). -/
abbrev RecordMatches (x : Port) (ws : List Word) : Prop :=
  x.calWords ≠ [] ∧ x.feSerial = ws.getD 0 0 ∧ x.calEpoch = fieldOf (ws.getD 1 0) 23 8

theorem not_recordMatches {x : Port} {ws : List Word} :
    ¬RecordMatches x ws ↔ x.calWords = [] ∨ x.feSerial ≠ ws.getD 0 0 ∨ x.calEpoch ≠ fieldOf (ws.getD 1 0) 23 8 := by
  rw [Classical.not_and_iff_not_or_not, Classical.not_and_iff_not_or_not, Classical.not_not]

/-- What an identity leads to. -/
def afterIdentity (p : Nat) (ws : List Word) (s : State) : State :=
  if (portOf s p).cal ≠ .identWait then identityHeard p (ws.getD 0 0) s
  else if RecordMatches (portOf s p) ws then beginMeasure p (identityHeard p (ws.getD 0 0) s)
  else calibrate p (identityHeard p (ws.getD 0 0) s)

section
variable {s : State} {p : Nat} (hx : frontExists s p = true)
include hx

theorem exec_feIdentity (ws : List Word) :
    exec (.feIdentity p ws) s = commit s (if feActive s p then afterIdentity p ws s else s) := by
  refine (onObject_true hx).trans (congrArg (commit s) ?_)
  have hmatch : (!(portOf s p).calWords.isEmpty && (portOf s p).feSerial == ws.getD 0 0
      && (portOf s p).calEpoch == fieldOf (ws.getD 1 0) 23 8) = true ↔ RecordMatches (portOf s p) ws := by
    simp [RecordMatches, and_assoc]
  cases feActive s p
  · rfl
  · simp only [hmatch]; rfl

theorem identity_heard (ws : List Word) (ha : feActive s p = true) (hcal : (portOf s p).cal ≠ .identWait) :
    Completes (.feIdentity p ws) s fun t =>
      portOf t p = { portOf s p with
        freed := ((portOf s p).freed + 1) % 65536, messages := (portOf s p).messages.filter fun g => g.mtype != 0x04, seenSerial := ws.getD 0 0 }
      ∧ (∀ q, q ≠ p → portOf t q = portOf s q) ∧ (∀ l, laneOf t l = laneOf s l) ∧ Alone [.port] s t :=
  completes_portBecomes (by rw [exec_of_active (exec_feIdentity hx ws) ha, afterIdentity, if_pos hcal]) (identityHeard_becomes p _ s)

theorem identity_measures {ws : List Word} (ha : feActive s p = true) (hcal : (portOf s p).cal = .identWait)
    (hmatch : RecordMatches (portOf s p) ws) :
    Completes (.feIdentity p ws) s fun t =>
      (portOf t p).cal = .measure ∧ (portOf t p).measured = false ∧ (portOf t p).pathCount = 0 ∧ (portOf t p).seenSerial = ws.getD 0 0
      ∧ (portOf t p).freed = ((portOf s p).freed + 1) % 65536 ∧ (portOf t p).calWords = (portOf s p).calWords
      ∧ (∀ q, q ≠ p → portOf t q = portOf s q) ∧ Alone [.port] s t := by
  have hexec : exec (.feIdentity p ws) s = commit s (beginMeasure p (identityHeard p (ws.getD 0 0) s)) := by
    rw [exec_of_active (exec_feIdentity hx ws) ha, afterIdentity, if_neg fun hne => hne hcal, if_pos hmatch]
  refine (completes_portBecomes hexec ((identityHeard_becomes p _ s).thenModPort _)).imp fun t ⟨hself, hothers, _, halone⟩ => ?_
  rw [hself]
  exact ⟨rfl, rfl, rfl, rfl, rfl, rfl, hothers, halone⟩

theorem identity_calibrates {ws : List Word} (ha : feActive s p = true) (hcal : (portOf s p).cal = .identWait)
    (hdiffers : ¬RecordMatches (portOf s p) ws) :
    Completes (.feIdentity p ws) s fun t =>
      (portOf t p).cal = .calWait ∧ (portOf t p).seenSerial = ws.getD 0 0 ∧ (portOf t p).calRun = !(portOf t p).calDue
      ∧ ((∃ q, q < 32 ∧ q ≠ p ∧ (portOf s q).calRun = true) → (portOf t p).calDue = true) ∧ Alone [.port] s t := by
  have hexec : exec (.feIdentity p ws) s = commit s (calibrate p (identityHeard p (ws.getD 0 0) s)) := by
    rw [exec_of_active (exec_feIdentity hx ws) ha, afterIdentity, if_neg fun hne => hne hcal, if_neg hdiffers]
  obtain ⟨hself, hothers, -, hframe⟩ := identityHeard_becomes p (ws.getD 0 0) s
  obtain ⟨hwait, hserial, hturn⟩ := calibrate_queues p (identityHeard p (ws.getD 0 0) s)
  refine completes_ports (gs := [.port]) hexec ((hframe.trans (calibrate_sameBut p _)).mono (by simp)) (by decide) fun t hport _ halone => ?_
  rw [portOf_congr hport]
  refine ⟨hwait, by rw [hserial, hself]; rfl, hturn, fun ⟨q, hq, hne, hrun⟩ => ?_, halone⟩
  exact calibrate_waits hq hne (by rw [hothers q hne]; exact hrun)

end

/-! CAL_REPORT (R105, R110). -/

/-- The 24 channel words of a CAL_REPORT. -/
def reportWords (ws : List Word) : List Word := (ws.drop 1 ++ List.replicate 24 0).take 24

/-- The state with the answer to CAL_REQUEST, before what follows from it. -/
def reportHeard (p : Nat) (s : State) : State := answered p 0x02 (freeCells p 4 s)

theorem reportHeard_becomes (p : Nat) (s : State) :
    PortBecomes p { portOf s p with freed := ((portOf s p).freed + 4) % 65536, messages := (portOf s p).messages.filter fun g => g.mtype != 0x02 }
      s (reportHeard p s) := (portBecomes_modPort p _ s).thenModPort _

/-- A port whose record is this report. -/
def recordTaken (ws : List Word) (x : Port) : Port :=
  { x with feSerial := x.seenSerial, calEpoch := fieldOf (ws.getD 0 0) 63 48, calWords := reportWords ws }

/-- The report taken as the port's record, and queued for the keep store. -/
def recordQueued (p : Nat) (ws : List Word) (s : State) : State :=
  mpWrites (calRecord p (portOf s p).seenSerial (fieldOf (ws.getD 0 0) 63 48) (reportWords ws)) (modPort p (recordTaken ws) (reportHeard p s))

theorem length_calRecord (p : Nat) (serial : Word) (epoch : Nat) (ws : List Word) : (calRecord p serial epoch ws).length = 27 := by
  simp [calRecord]

/-- The record's words are those from word 340 + 27 p on (R440). -/
theorem calRecord_place {p : Nat} {serial : Word} {epoch i : Nat} {ws : List Word} (h : i < (calRecord p serial epoch ws).length) :
    ((calRecord p serial epoch ws)[i]).1 = 340 + 27 * p + i := by
  simp [calRecord]

theorem keepQueued_calRecord {p : Nat} {serial : Word} {epoch i : Nat} {ws : List Word} (s : State) (hi : i < 27) :
    keepQueued (mpWrites (calRecord p serial epoch ws) s) (340 + 27 * p + i) = ((calRecord p serial epoch ws).getD i (0, 0)).2 := by
  have hlen : i < (calRecord p serial epoch ws).length := by rw [length_calRecord]; exact hi
  rw [mpWrites_at _ s _ (fun _ => calRecord_place) i hlen, List.getD_eq_getElem?_getD, List.getElem?_eq_getElem hlen, Option.getD_some]

theorem keepQueued_calRecord_ne {p : Nat} {serial : Word} {epoch w : Nat} {ws : List Word} (s : State)
    (hw : w < 340 + 27 * p ∨ 367 + 27 * p ≤ w) : keepQueued (mpWrites (calRecord p serial epoch ws) s) w = keepQueued s w := by
  refine mpWrites_ne _ s w fun x hmem => ?_
  obtain ⟨i, hi, rfl⟩ := List.mem_iff_getElem.1 hmem
  have hlen := length_calRecord p serial epoch ws
  rw [calRecord_place hi]
  omega

section
variable {s : State} {p : Nat} (hx : frontExists s p = true)
include hx

theorem exec_feCalReport (ws : List Word) :
    exec (.feCalReport p ws) s
      = commit s (if feActive s p then (if (portOf s p).cal = .calWait then beginMeasure p (recordQueued p ws s) else reportHeard p s) else s) := by
  refine (onObject_true hx).trans (congrArg (commit s) ?_)
  cases feActive s p <;> rfl

theorem report_heard (ws : List Word) (ha : feActive s p = true) (hcal : (portOf s p).cal ≠ .calWait) :
    Completes (.feCalReport p ws) s fun t =>
      portOf t p = { portOf s p with freed := ((portOf s p).freed + 4) % 65536, messages := (portOf s p).messages.filter fun g => g.mtype != 0x02 }
      ∧ (∀ q, q ≠ p → portOf t q = portOf s q) ∧ Alone [.port] s t :=
  (completes_portBecomes (by rw [exec_of_active (exec_feCalReport hx ws) ha, if_neg hcal]) (reportHeard_becomes p s)).imp
    fun _ ⟨hself, hothers, _, halone⟩ => ⟨hself, hothers, halone⟩

theorem report_stored (ws : List Word) (ha : feActive s p = true) (hcal : (portOf s p).cal = .calWait) :
    Completes (.feCalReport p ws) s fun t =>
      (portOf t p).cal = .measure ∧ (portOf t p).feSerial = (portOf s p).seenSerial ∧ (portOf t p).calEpoch = fieldOf (ws.getD 0 0) 63 48
      ∧ (portOf t p).calWords = (ws.drop 1 ++ List.replicate 24 0).take 24 ∧ (portOf t p).freed = ((portOf s p).freed + 4) % 65536
      ∧ (∀ i, i < 27 → keepQueued t (340 + 27 * p + i)
          = ((calRecord p (portOf s p).seenSerial (fieldOf (ws.getD 0 0) 63 48) ((ws.drop 1 ++ List.replicate 24 0).take 24)).getD i (0, 0)).2)
      ∧ (∀ w, w < 340 + 27 * p ∨ 367 + 27 * p ≤ w → keepQueued t w = keepQueued s w)
      ∧ (∀ q, q ≠ p → portOf t q = portOf s q) ∧ Alone [.port, .keep] s t := by
  have hexec : exec (.feCalReport p ws) s = commit s (beginMeasure p (recordQueued p ws s)) := by
    rw [exec_of_active (exec_feCalReport hx ws) ha, if_pos hcal]
  obtain ⟨hself, hothers, -, hframe⟩ := (reportHeard_becomes p s).thenModPort (recordTaken ws)
  have hwrites : SameBut [.keep] _ (recordQueued p ws s) := mpWrites_sameBut _ _
  have hmeasures : SameBut [.port] _ (beginMeasure p (recordQueued p ws s)) := modPort_sameBut p measuring _
  have hall : SameBut [.port, .keep] s (beginMeasure p (recordQueued p ws s)) :=
    ((hframe.trans hwrites).trans hmeasures).mono (by simp)
  have hports := portOf_congr (hwrites .port (by decide))
  refine completes_of_exec hexec fun t ht => ?_
  have hport : t.port = (beginMeasure p (recordQueued p ws s)).port := ht.1 .port (by decide)
  have hkeep : t.keep = (recordQueued p ws s).keep  :=
    (ht.1 .keep (by decide)).trans (hmeasures .keep (by decide))
  have hbefore : (modPort p (recordTaken ws) (reportHeard p s)).keep = s.keep := hframe .keep (by decide)
  rw [portOf_congr hport p, beginMeasure_eq, portOf_modPort_self, hports p, hself]
  refine ⟨rfl, rfl, rfl, rfl, rfl, fun i hi => ?_, fun w hw => ?_, fun q hq => ?_, becomes_alone hall (by decide) ht⟩
  · rw [keepQueued_congr hkeep]
    exact keepQueued_calRecord _ hi
  · rw [keepQueued_congr hkeep, ← keepQueued_congr hbefore]
    exact keepQueued_calRecord_ne _ hw
  · rw [portOf_congr hport q, beginMeasure_eq, portOf_modPort_ne _ _ _ _ hq, hports q, hothers q hq]

/-! ALARM and ACK (R105, R110). -/

theorem exec_feAlarm (ws : List Word) :
    exec (.feAlarm p ws) s = commit s (if feActive s p then raise 0x0006 p (freeCells p 1 s) else s) := onObject_true hx

theorem event_of_alarm (ws : List Word) (ha : feActive s p = true) :
    Completes (.feAlarm p ws) s fun t =>
      Logged 0x0006 p s t ∧ portOf t p = { portOf s p with freed := ((portOf s p).freed + 1) % 65536 } ∧ (∀ q, q ≠ p → portOf t q = portOf s q)
      ∧ SameBut [.port, .irq, .mem, .out] s t :=
  completes_portRaise (exec_of_active (exec_feAlarm hx ws) ha) (portBecomes_modPort p _ s)

end

/-- An ACK of this MSG_SEQ answers a message but those that IDENTITY and CAL_REPORT answer (R105). -/
def acked (seq : Nat) (g : Message) : Bool := g.seq == seq && g.mtype != 0x02 && g.mtype != 0x04

/-- A port whose messages an ACK answers; a PORT_CONFIG counts as acknowledged with status OK alone (the model's choice). -/
def ackTaken (w : Word) (x : Port) : Port :=
  { x with
    messages := x.messages.filter fun g => !acked (fieldOf w 63 48) g
    configOk := x.configOk || (fieldOf w 47 40 == 0 && x.messages.any fun g => acked (fieldOf w 63 48) g && g.mtype == 0x01) }

/-- A message that no ACK of this MSG_SEQ answers is of another number, or waits for its own kind of answer. -/
theorem not_acked (seq : Nat) (g : Message) : (!acked seq g) = (g.seq != seq || g.mtype == 0x02 || g.mtype == 0x04) := by
  unfold acked bne
  rw [Bool.not_and, Bool.not_and, Bool.not_not, Bool.not_not]

theorem acked_config (seq : Nat) (g : Message) : (acked seq g && g.mtype == 0x01) = (g.seq == seq && g.mtype == 0x01) := by
  cases h : g.mtype == 0x01
  · rw [Bool.and_false, Bool.and_false]
  · simp [acked, beq_iff_eq.1 h]

section
variable {s : State} {p : Nat} (hx : frontExists s p = true)
include hx

theorem exec_feAck (w : Word) :
    exec (.feAck p w) s = commit s (if feActive s p then modPort p (ackTaken w) (freeCells p 1 s) else s) := onObject_true hx

theorem ack_answers (w : Word) (ha : feActive s p = true) :
    Completes (.feAck p w) s fun t =>
      portOf t p = { portOf s p with
        freed := ((portOf s p).freed + 1) % 65536
        messages := (portOf s p).messages.filter fun g => g.seq != fieldOf w 63 48 || g.mtype == 0x02 || g.mtype == 0x04
        configOk := (portOf s p).configOk || (fieldOf w 47 40 == 0 && (portOf s p).messages.any fun g => g.seq == fieldOf w 63 48 && g.mtype == 0x01) }
      ∧ (∀ q, q ≠ p → portOf t q = portOf s q) ∧ Alone [.port] s t := by
  refine (completes_portBecomes (exec_of_active (exec_feAck hx w) ha) ((portBecomes_modPort p _ s).thenModPort (ackTaken w))).imp
    fun t ⟨hself, hothers, _, halone⟩ => ⟨hself.trans ?_, hothers, halone⟩
  simp only [ackTaken, not_acked, acked_config]

end

/-! Messages without an answer (R106). -/

/-- A port that sends a message again. -/
def sentAgain (now : Nat) (g : Message) (x : Port) : Port :=
  { x with
    messages := x.messages.map fun h => if h.seq = g.seq ∧ h.mtype = g.mtype then { h with sends := h.sends + 1, sentAt := now } else h
    cells := x.cells ++ g.cells }

/-- A port that gives a message up, and with a CAL_REQUEST its turn (the model's choice). -/
def givenUp (g : Message) (x : Port) : Port :=
  { x with messages := x.messages.filter fun h => !(h.seq == g.seq && h.mtype == g.mtype), calRun := x.calRun && g.mtype != 0x02 }

theorem resendOne_again {p : Nat} {s : State} {g : Message} (h : g.sends < 3) : resendOne p s g = modPort p (sentAgain s.clk.now g) s := if_pos h

theorem resendOne_last {p : Nat} {s : State} {g : Message} (h : 3 ≤ g.sends) :
    resendOne p s g = raise 0x0004 p (passTurn s (modPort p (givenUp g) s)) := if_neg (Nat.not_lt.2 h)

/-- The messages of a port that have waited 100 ticks for their answer (R106). -/
def overdue (s : State) (p : Nat) : List Message := (portOf s p).messages.filter fun g => decide (g.sentAt + 100 ≤ s.clk.now)

section
variable {s : State} {p : Nat} (hx : frontExists s p = true)
include hx

theorem exec_feMessageResend :
    exec (.feMessageResend p) s = commit s (if feActive s p then (overdue s p).foldl (resendOne p) s else s) := onObject_true hx

theorem exec_feMessageResend_one {g : Message} (ha : feActive s p = true) (hg : overdue s p = [g]) :
    exec (.feMessageResend p) s = commit s (resendOne p s g) := by
  rw [exec_of_active (exec_feMessageResend hx) ha, hg, List.foldl_cons, List.foldl_nil]

theorem message_sent_again {g : Message} (ha : feActive s p = true) (hg : overdue s p = [g]) (hsends : g.sends < 3) :
    Completes (.feMessageResend p) s fun t =>
      portOf t p = { portOf s p with
        messages := (portOf s p).messages.map fun h =>
          if h.seq = g.seq ∧ h.mtype = g.mtype then { h with sends := h.sends + 1, sentAt := s.clk.now } else h
        cells := (portOf s p).cells ++ g.cells }
      ∧ (∀ q, q ≠ p → portOf t q = portOf s q) ∧ (∀ l, laneOf t l = laneOf s l) ∧ Alone [.port] s t :=
  completes_portBecomes (by rw [exec_feMessageResend_one hx ha hg, resendOne_again hsends]) (portBecomes_modPort p _ s)

theorem message_given_up {g : Message} (ha : feActive s p = true) (hg : overdue s p = [g]) (hsends : 3 ≤ g.sends)
    (hkept : g.mtype ≠ 0x02 ∨ (portOf s p).calRun = false) :
    Completes (.feMessageResend p) s fun t =>
      portOf t p = { portOf s p with messages := (portOf s p).messages.filter fun h => !(h.seq == g.seq && h.mtype == g.mtype) } ∧ Logged 0x0004 p s t
      ∧ (∀ q, q ≠ p → portOf t q = portOf s q) ∧ SameBut [.port, .irq, .mem, .out] s t := by
  have hturn : ((portOf s p).calRun && g.mtype != 0x02) = (portOf s p).calRun := by rcases hkept with h | h <;> simp [h]
  have hpass : passTurn s (modPort p (givenUp g) s) = modPort p (givenUp g) s := passTurn_of_kept fun q => by
    by_cases hq : q = p
    · rw [hq, portOf_modPort_self]; exact hturn
    · rw [portOf_modPort_ne _ _ _ _ hq]
  have hexec := exec_feMessageResend_one hx ha hg
  rw [resendOne_last hsends, hpass] at hexec
  refine (completes_portRaise hexec (portBecomes_modPort p (givenUp g) s)).imp
    fun t ⟨hlog, hself, hothers, hframe⟩ => ⟨hself.trans ?_, hlog, hothers, hframe⟩
  rw [givenUp, hturn]

theorem turn_given_up {g : Message} (ha : feActive s p = true) (hg : overdue s p = [g]) (hsends : 3 ≤ g.sends) (hcal : g.mtype = 0x02)
    (hdue : (portOf s p).calDue = false) :
    Completes (.feMessageResend p) s fun t =>
      portOf t p = { portOf s p with messages := (portOf s p).messages.filter (fun h => !(h.seq == g.seq && h.mtype == g.mtype)), calRun := false }
      ∧ Logged 0x0004 p s t ∧ OthersKeep p s t ∧ SameBut [.port, .irq, .mem, .out] s t := by
  have hexec := exec_feMessageResend_one hx ha hg
  rw [resendOne_last hsends] at hexec
  have hframe : SameBut [.port] s (passTurn s (modPort p (givenUp g) s)) :=
    ((modPort_sameBut p _ s).trans (passTurn_sameBut s _)).mono (by simp)
  refine (completes_raise hexec hframe).imp fun t ⟨hlog, hport, hrest⟩ => ?_
  rw [← leavePort_of_state (f := givenUp g) rfl] at hport
  refine ⟨?_, hlog, othersKeep_of_port (leavePort_othersKeep p _ s) hport, hrest⟩
  rw [portOf_congr hport, portOf_leavePort hdue, givenUp, hcal]
  simp

theorem messages_resent (ha : feActive s p = true) :
    Completes (.feMessageResend p) s fun t => Leaves s ((overdue s p).foldl (resendOne p) s) t :=
  completes_leaves (exec_of_active (exec_feMessageResend hx) ha)

/-! Runs of frames (R100). -/

theorem exec_portDegraded :
    exec (.portDegraded p) s
      = commit s (if feActive s p then
          (if 3 ≤ (portOf s p).missRun ∧ (portOf s p).degraded = false then raise 0x0002 p (modPort p (fun x => { x with degraded := true }) s) else s)
          else s) := by
  refine (onObject_true hx).trans (congrArg (commit s) ?_)
  cases feActive s p
  · rfl
  · simp

theorem frames_degrade (ha : feActive s p = true) (hmiss : 3 ≤ (portOf s p).missRun) (hd : (portOf s p).degraded = false) :
    Completes (.portDegraded p) s fun t =>
      portOf t p = { portOf s p with degraded := true } ∧ Logged 0x0002 p s t ∧ (∀ q, q ≠ p → portOf t q = portOf s q)
      ∧ SameBut [.port, .irq, .mem, .out] s t :=
  (completes_portRaise ((exec_of_active (exec_portDegraded hx) ha).trans (congrArg (commit s) (if_pos ⟨hmiss, hd⟩))) (portBecomes_modPort p _ s)).imp
    fun _ ⟨hlog, hself, hothers, hframe⟩ => ⟨hself, hlog, hothers, hframe⟩

theorem degrade_ignored (ha : feActive s p = true) (h : (portOf s p).missRun < 3 ∨ (portOf s p).degraded = true) :
    Completes (.portDegraded p) s fun t => t = s := by
  refine completes_unchanged ?_
  rw [exec_of_active (exec_portDegraded hx) ha, if_neg]
  rintro ⟨hmiss, hd⟩
  rcases h with h | h
  · omega
  · rw [hd] at h; cases h

theorem exec_portReadyAgain :
    exec (.portReadyAgain p) s
      = commit s (if feActive s p then (if 8 ≤ (portOf s p).goodRun then modPort p (fun x => { x with degraded := false }) s else s) else s) := by
  refine (onObject_true hx).trans (congrArg (commit s) ?_)
  cases feActive s p
  · rfl
  · simp

theorem frames_recover (ha : feActive s p = true) (hgood : 8 ≤ (portOf s p).goodRun) :
    Completes (.portReadyAgain p) s fun t =>
      portOf t p = { portOf s p with degraded := false } ∧ (∀ q, q ≠ p → portOf t q = portOf s q) ∧ Alone [.port] s t :=
  (completes_portBecomes ((exec_of_active (exec_portReadyAgain hx) ha).trans (congrArg (commit s) (if_pos hgood))) (portBecomes_modPort p _ s)).imp
    fun _ ⟨hself, hothers, _, halone⟩ => ⟨hself, hothers, halone⟩

theorem recovery_ignored (ha : feActive s p = true) (hgood : (portOf s p).goodRun < 8) : Completes (.portReadyAgain p) s fun t => t = s :=
  completes_unchanged (by rw [exec_of_active (exec_portReadyAgain hx) ha, if_neg (by omega)])

end

/-! The end of MEASURE (R110). -/

/-- A port whose calibration is over. -/
def calibrated (x : Port) : Port := { x with cal := .ready, calRun := false }

/-- The state with the port READY and the ranges found wanting reported, the next calibration under way (R110, R189). -/
def measureEnded (p : Nat) (s : State) : State := calNext (raiseRange p (modPort p calibrated s))

theorem measureEnded_sameBut (p : Nat) (s : State) : SameBut [.port, .circ, .irq, .mem] s (measureEnded p s) :=
  (((modPort_sameBut p _ s).trans (raiseRange_sameBut p _)).trans (calNext_sameBut _)).mono (by simp)

theorem portOf_measureEnded {p : Nat} {s : State} (hdue : (portOf s p).calDue = false) :
    portOf (measureEnded p s) p = calibrated (portOf s p) := by
  have hself : portOf (raiseRange p (modPort p calibrated s)) p = calibrated (portOf s p) := by
    rw [portOf_congr (raiseRange_sameBut p _ .port (by decide)), portOf_modPort_self]
  exact (portOf_calNext_of_not_due (by rw [hself]; exact hdue)).trans hself

section
variable {s : State} {p : Nat} (hx : frontExists s p = true)
include hx

theorem exec_calMeasureDone :
    exec (.calMeasureDone p) s
      = commit s (if feActive s p then
          (if (portOf s p).cal = .measure ∧ (portOf s p).measured = true ∧ (portOf s p).configOk = true then measureEnded p s else s) else s) := by
  refine (onObject_true hx).trans (congrArg (commit s) ?_)
  cases feActive s p
  · rfl
  · simp only [Bool.true_and, Bool.and_eq_true, beq_iff_eq, and_assoc]; rfl

theorem measure_ends (ha : feActive s p = true) (hcal : (portOf s p).cal = .measure) (hm : (portOf s p).measured = true)
    (hok : (portOf s p).configOk = true) (hdue : (portOf s p).calDue = false) :
    Completes (.calMeasureDone p) s fun t =>
      (portOf t p).cal = .ready ∧ (portOf t p).calRun = false ∧ (portOf t p).path = (portOf s p).path
      ∧ (portOf t p).messages = (portOf s p).messages ∧ SameBut [.port, .circ, .irq, .mem, .out] s t := by
  have hexec := exec_of_active (exec_calMeasureDone hx) ha
  rw [if_pos ⟨hcal, hm, hok⟩] at hexec
  refine completes_of_exec hexec fun t ht => ?_
  rw [portOf_congr (ht.1 .port (by decide)), portOf_measureEnded hdue]
  exact ⟨rfl, rfl, rfl, rfl, (becomes_same (measureEnded_sameBut p s) ht).mono (by simp)⟩

theorem measure_goes_on (h : (portOf s p).cal ≠ .measure ∨ (portOf s p).measured = false ∨ (portOf s p).configOk = false) :
    Completes (.calMeasureDone p) s fun t => t = s := by
  have hnot : ¬((portOf s p).cal = .measure ∧ (portOf s p).measured = true ∧ (portOf s p).configOk = true) := by
    rintro ⟨hcal, hm, hok⟩
    rcases h with h | h | h
    · exact h hcal
    · rw [hm] at h; cases h
    · rw [hok] at h; cases h
  exact completes_unchanged (by rw [exec_calMeasureDone hx, if_neg hnot, ite_self])

end

/-- Settles O34: each clause is what one command of a front-end port does, or that it does nothing outside its condition. -/
theorem frontEndMessages : Obligations.FrontEndMessages :=
  ⟨fun _ _ ws ⟨hx, ha⟩ => completes_inactive (exec_feIdentity hx ws) ha,
    fun _ _ ws ⟨hx, ha⟩ => completes_inactive (exec_feCalReport hx ws) ha,
    fun _ _ ws ⟨hx, ha⟩ => completes_inactive (exec_feAlarm hx ws) ha,
    fun _ _ w ⟨hx, ha⟩ => completes_inactive (exec_feAck hx w) ha,
    fun _ _ ⟨hx, ha⟩ => completes_inactive (exec_feMessageResend hx) ha,
    fun _ _ ⟨hx, ha⟩ => completes_inactive (exec_portDegraded hx) ha,
    fun _ _ ⟨hx, ha⟩ => completes_inactive (exec_portReadyAgain hx) ha,
    fun _ _ ⟨hx, ha⟩ => completes_inactive (exec_calMeasureDone hx) ha,
    fun _ _ ws ⟨hx, ha, hcal⟩ => identity_heard hx ws ha hcal,
    fun _ _ _ ⟨hx, ha, hcal⟩ hmatch => identity_measures hx ha hcal hmatch,
    fun _ _ _ ⟨hx, ha, hcal⟩ hdiffers => identity_calibrates hx ha hcal (not_recordMatches.2 hdiffers),
    fun _ _ ws ⟨hx, ha, hcal⟩ => report_heard hx ws ha hcal,
    fun _ _ ws ⟨hx, ha, hcal⟩ => report_stored hx ws ha hcal,
    fun _ _ ws ⟨hx, ha⟩ => event_of_alarm hx ws ha,
    fun _ _ w ⟨hx, ha⟩ => ack_answers hx w ha,
    fun _ _ _ ⟨hx, ha, hg, hsends⟩ => message_sent_again hx ha hg hsends,
    fun _ _ _ ⟨hx, ha, hg, hsends, hkept⟩ => message_given_up hx ha hg hsends hkept,
    fun _ _ _ ⟨hx, ha, hg, hsends, hcal, _, hdue⟩ => turn_given_up hx ha hg hsends hcal hdue,
    fun _ _ ⟨hx, ha⟩ => messages_resent hx ha,
    fun _ _ ⟨hx, ha, hmiss, hd⟩ => frames_degrade hx ha hmiss hd,
    fun _ _ ⟨hx, ha, h⟩ => degrade_ignored hx ha h,
    fun _ _ ⟨hx, ha, hgood⟩ => frames_recover hx ha hgood,
    fun _ _ ⟨hx, ha, hgood⟩ => recovery_ignored hx ha hgood,
    fun _ _ ⟨hx, ha, hcal, hm, hok, hdue⟩ => measure_ends hx ha hcal hm hok hdue,
    fun _ _ ⟨hx, h⟩ => measure_goes_on hx h⟩

end Sys2Proof.Machine
end

section
/-! SUPPORT. Changes of one feed link: its record, its circuit, and what a phase entered, a training begun and a training failed make of both
(R210 to R213, R232). -/
namespace Sys2Proof.Machine

/-! One feed link changes. -/

theorem setFeed_sameBut (c : Nat) (f : Feed) (s : State) : SameBut [.feed] s (setFeed c f s) := by
  intro g hg; cases g <;> simp_all [Group.same, setFeed]

/-- The state `e` is `s` but that the feed link on circuit c is `f`, the circuit is `x`, and words may have been sent. -/
abbrev LinkBecomes (c : Nat) (f : Feed) (x : Circuit) (s e : State) : Prop :=
  feedOf e c = f ∧ circOf e c = x ∧ (∀ d, d ≠ c → feedOf e d = feedOf s d ∧ circOf e d = circOf s d) ∧ SameBut [.out, .feed, .circ] s e

theorem linkBecomes_refl (c : Nat) (s : State) : LinkBecomes c (feedOf s c) (circOf s c) s s :=
  ⟨rfl, rfl, fun _ _ => ⟨rfl, rfl⟩, sameBut_refl _ _⟩

section
variable {c : Nat} {f : Feed} {x : Circuit} {s e : State} (h : LinkBecomes c f x s e)
include h

theorem LinkBecomes.thenSetFeed (g : Feed) : LinkBecomes c g x s (setFeed c g e) := by
  obtain ⟨-, hcirc, hothers, hframe⟩ := h
  exact ⟨feedOf_setFeed c g e, hcirc, fun d hd => ⟨(feedOf_setFeed_ne c d g e hd).trans (hothers d hd).1, (hothers d hd).2⟩,
    (hframe.trans (setFeed_sameBut c g e)).mono (by simp)⟩

theorem LinkBecomes.thenModFeed (g : Feed → Feed) : LinkBecomes c (g f) x s (modFeed c g e) := by
  obtain ⟨hfeed, -, -, -⟩ := id h
  rw [modFeed, hfeed]
  exact LinkBecomes.thenSetFeed h (g f)

theorem LinkBecomes.thenSetCirc (y : Circuit) : LinkBecomes c f y s (setCirc c y e) := by
  obtain ⟨hfeed, -, hothers, hframe⟩ := h
  exact ⟨hfeed, circOf_setCirc c y e, fun d hd => ⟨(hothers d hd).1, (circOf_setCirc_ne c d y e hd).trans (hothers d hd).2⟩,
    (hframe.trans (setCirc_sameBut c y e)).mono (by simp)⟩

theorem LinkBecomes.thenModCirc (g : Circuit → Circuit) : LinkBecomes c f (g x) s (modCirc c g e) := by
  obtain ⟨-, hcirc, -, -⟩ := id h
  rw [modCirc, hcirc]
  exact LinkBecomes.thenSetCirc h (g x)

theorem LinkBecomes.thenEmit (o : Out) : LinkBecomes c f x s (emit o e) := by
  obtain ⟨hfeed, hcirc, hothers, hframe⟩ := h
  exact ⟨hfeed, hcirc, hothers, (hframe.trans (emit_sameBut o e)).mono (by simp)⟩

/-- A command whose effect is on one feed link alone. -/
theorem completes_link {i : Instr} (hexec : exec i s = commit s e) :
    Completes i s fun t =>
      feedOf t c = f ∧ circOf t c = x ∧ (∀ d, d ≠ c → feedOf t d = feedOf s d ∧ circOf t d = circOf s d) ∧ (∀ o ∈ e.out, o ∈ t.out)
      ∧ Alone [.feed, .circ] s t := by
  obtain ⟨hfeed, hcirc, hothers, hframe⟩ := h
  refine completes_of_exec hexec fun t ht => ?_
  have hfeeds := feedOf_congr (ht.1 .feed (by decide))
  have hcircs := circOf_congr (ht.1 .circ (by decide))
  exact ⟨(hfeeds c).trans hfeed, (hcircs c).trans hcirc,
    fun d hd => ⟨(hfeeds d).trans (hothers d hd).1, (hcircs d).trans (hothers d hd).2⟩, ht.2.2.1,
    alone_becomes (alone_of_sameBut hframe (by decide)) ht⟩

end

/-- Where the link's own circuit stays, every circuit does. -/
theorem circuits_stay {c : Nat} {s t : State} (hself : circOf t c = circOf s c)
    (hothers : ∀ d, d ≠ c → feedOf t d = feedOf s d ∧ circOf t d = circOf s d) (d : Nat) : circOf t d = circOf s d := by
  by_cases hd : d = c
  · rw [hd, hself]
  · exact (hothers d hd).2

/-- A command that changes the record of one feed link and nothing else. -/
theorem completes_feed {i : Instr} {c : Nat} {f : Feed} {x : Circuit} {s e : State} (hexec : exec i s = commit s e) (h : LinkBecomes c f x s e)
    (hframe : SameBut [.feed] s e) : Completes i s fun t => feedOf t c = f ∧ (∀ d, d ≠ c → feedOf t d = feedOf s d) ∧ Alone [.feed] s t := by
  obtain ⟨hfeed, -, hothers, -⟩ := h
  refine completes_of_exec hexec fun t ht => ?_
  have hfeeds := feedOf_congr (ht.1 .feed (by decide))
  exact ⟨(hfeeds c).trans hfeed, fun d hd => (hfeeds d).trans (hothers d hd).1, becomes_alone hframe (by decide) ht⟩

/-! A phase is entered (R210, R211). -/

/-- A link that enters a phase: the taps of an earlier PRECODE and the end of an earlier countdown are forgotten. -/
def phaseEntered (ph : FeedPhase) (now : Nat) (f : Feed) : Feed :=
  { f with phase := ph, phaseAt := now, taps := if ph = .precode then [] else f.taps, wire := { f.wire with upFrom := none } }

/-- A circuit whose link selects its settings: the AGC freezes where it is not FIXED. -/
def selecting (x : Circuit) : Circuit := if x.agc = .fixed then x else { x with agc := .frozen, agcBack := .track, gainCmd := none }

theorem enterFeedPhase_becomes {c : Nat} {f : Feed} {x : Circuit} {s e : State} (ph : FeedPhase) (h : LinkBecomes c f x s e) :
    LinkBecomes c (phaseEntered ph s.clk.now f) (if ph = .select then selecting x else x) s (enterFeedPhase c ph e) := by
  obtain ⟨-, -, -, hframe⟩ := id h
  have hclk : e.clk = s.clk := hframe .clk (by decide)
  rw [← hclk]
  unfold enterFeedPhase
  split
  · exact ((h.thenModFeed (phaseEntered ph e.clk.now)).thenModCirc selecting).thenEmit _
  · exact (h.thenModFeed (phaseEntered ph e.clk.now)).thenEmit _

/-- The word of the phase goes out as it is entered. -/
theorem enterFeedPhase_sends (c : Nat) (ph : FeedPhase) (s : State) :
    .feedWord c (headWord (feedOf (enterFeedPhase c ph s) c)) ∈ (enterFeedPhase c ph s).out := by
  unfold enterFeedPhase
  exact List.mem_cons_self

/-- A command by which a link enters a phase. -/
theorem completes_phase {i : Instr} {c : Nat} {ph : FeedPhase} {f : Feed} {x : Circuit} {s e : State}
    (hexec : exec i s = commit s (enterFeedPhase c ph e)) (h : LinkBecomes c f x s e) :
    Completes i s fun t =>
      feedOf t c = phaseEntered ph s.clk.now f ∧ circOf t c = (if ph = .select then selecting x else x)
      ∧ .feedWord c (headWord (feedOf t c)) ∈ t.out ∧ (∀ d, d ≠ c → feedOf t d = feedOf s d ∧ circOf t d = circOf s d)
      ∧ Alone [.feed, .circ] s t := by
  have hentered := enterFeedPhase_becomes ph h
  refine (completes_link hentered hexec).imp fun t ⟨hfeed, hcirc, hothers, hout, halone⟩ => ⟨hfeed, hcirc, hout _ ?_, hothers, halone⟩
  rw [hfeed, ← hentered.1]
  exact enterFeedPhase_sends c ph e

/-! The selection (R212) changes the two settings, LIFT and the symbol rate. -/

theorem selectSettings_eq (x : Circuit) (f : Feed) :
    selectSettings x f = { f with
      upw := (selectSettings x f).upw, dn := (selectSettings x f).dn, lift := (selectSettings x f).lift, fast := (selectSettings x f).fast } := by
  unfold selectSettings
  dsimp only
  split <;> rfl

theorem selectSettings_wire (x : Circuit) (f : Feed) : (selectSettings x f).wire = f.wire := by rw [selectSettings_eq]
theorem selectSettings_state (x : Circuit) (f : Feed) : (selectSettings x f).state = f.state := by rw [selectSettings_eq]
theorem selectSettings_lower (x : Circuit) (f : Feed) : (selectSettings x f).lower = f.lower := by rw [selectSettings_eq]
theorem selectSettings_session (x : Circuit) (f : Feed) : (selectSettings x f).session = f.session := by rw [selectSettings_eq]

/-! Data mode is left (R232), and with it a training begins or fails (R211, R213). -/

/-- The frames open on a link's two streams. -/
abbrev openFrames (f : Feed) : Nat := f.openX.toList.length + f.openN.toList.length

theorem dropOpen_becomes (c : Nat) (s : State) :
    LinkBecomes c { feedOf s c with openX := none, openN := none } (bumpBy .reasmTimeout (openFrames (feedOf s c)) (circOf s c)) s (dropOpen c s) :=
  ((linkBecomes_refl c s).thenSetFeed _).thenModCirc _

/-- A link at the start of a training, before ECHO. -/
def trainingBegun (st : FeedState) (fast : Bool) (span now : Nat) (f : Feed) : Feed :=
  { leaveData f with
    state := st, fast := fast, startedAt := now, lower := 0, span := span
    wire := { now := if st = .retrain then f.wire.trained else {}, trained := f.wire.trained, own := f.wire.own
              place := if st = .retrain then f.wire.place else none
              queueX := f.wire.queueX, queueC := f.wire.queueC, queueN := f.wire.queueN } }

/-- Its circuit: the Class D settings and the filter that wait come into force, and the AGC acquires where it is not FIXED. -/
def trainingCircuit (x : Circuit) : Circuit :=
  { x with
    set := { x.set with cdPamMax := x.want.cdPamMax, cdRateMargin := x.want.cdRateMargin, cdLift := x.want.cdLift, cdThp := x.want.cdThp }
    agc := if x.agc = .fixed then .fixed else .acquire, inBand := 0, clipRun := 0, staleRun := 0
    filterD := match x.filtersDue with
      | some d => d.2.2
      | none => x.filterD }

theorem beginTraining_becomes (c : Nat) (st : FeedState) (fast : Bool) (s : State) :
    LinkBecomes c (phaseEntered .echo s.clk.now (trainingBegun st fast (effectiveSpan (circuitSpan s c)) s.clk.now (feedOf s c)))
      (trainingCircuit (bumpBy .reasmTimeout (openFrames (feedOf s c)) (circOf s c))) s (beginTraining c st fast s) :=
  enterFeedPhase_becomes .echo (((dropOpen_becomes c s).thenModFeed
    (trainingBegun st fast (effectiveSpan (circuitSpan s c)) s.clk.now)).thenModCirc trainingCircuit)

theorem beginTraining_begins (c : Nat) (st : FeedState) (fast : Bool) (s : State) : BeginsTraining c st fast s (beginTraining c st fast s) := by
  obtain ⟨hfeed, hcirc, hothers, -⟩ := beginTraining_becomes c st fast s
  refine ⟨hfeed, ?_, enterFeedPhase_sends c .echo _, hothers⟩
  rw [hcirc]
  exact ⟨rfl, rfl, rfl, rfl, rfl, rfl, rfl, rfl⟩

/-- What begins a training depends on the links, the circuits and the words sent. -/
theorem beginsTraining_congr {c : Nat} {st : FeedState} {fast : Bool} {s e t : State} (h : BeginsTraining c st fast s e) (hfeed : t.feed = e.feed)
    (hcirc : t.circ = e.circ) (hout : ∀ o ∈ e.out, o ∈ t.out) : BeginsTraining c st fast s t := by
  obtain ⟨hself, hcircuit, hword, hothers⟩ := h
  have hfeeds := feedOf_congr hfeed
  have hcircs := circOf_congr hcirc
  exact ⟨(hfeeds c).trans hself, by rw [hcircs]; exact hcircuit, by rw [hfeeds]; exact hout _ hword,
    fun d hd => ⟨(hfeeds d).trans (hothers d hd).1, (hcircs d).trans (hothers d hd).2⟩⟩

/-- A command that begins a training. -/
theorem completes_training {i : Instr} {c : Nat} {st : FeedState} {fast : Bool} {s : State}
    (hexec : exec i s = commit s (beginTraining c st fast s)) :
    Completes i s fun t => BeginsTraining c st fast s t ∧ Alone [.feed, .circ] s t := by
  obtain ⟨-, -, -, hframe⟩ := beginTraining_becomes c st fast s
  exact completes_of_exec hexec fun t ht =>
    ⟨beginsTraining_congr (beginTraining_begins c st fast s) (ht.1 .feed (by decide)) (ht.1 .circ (by decide)) ht.2.2.1,
      alone_becomes (alone_of_sameBut hframe (by decide)) ht⟩

/-- A command that counts on a circuit, begins the retraining of its link and raises the event. -/
theorem completes_retrainRaise {i : Instr} {c code : Nat} {k : Ctr} {s : State}
    (hexec : exec i s = commit s (raise code c (retrain c (modCirc c (bump k) s)))) :
    Completes i s fun t =>
      BeginsTraining c .retrain (feedOf s c).fast (modCirc c (bump k) s) t ∧ Logged code c s t ∧ SameBut [.feed, .circ, .irq, .mem, .out] s t := by
  have hcounted : SameBut [.circ] s (modCirc c (bump k) s) := setCirc_sameBut c _ s
  obtain ⟨-, -, -, htrains⟩ := beginTraining_becomes c .retrain (feedOf s c).fast (modCirc c (bump k) s)
  have hframe := hcounted.trans htrains
  refine completes_of_exec hexec fun t ht => ⟨?_, ?_, ?_⟩
  · refine beginsTraining_congr (beginTraining_begins c .retrain (feedOf s c).fast _) ((ht.1 .feed (by decide)).trans (raise_feed _ _ _))
      ((ht.1 .circ (by decide)).trans (raise_circ _ _ _)) fun o ho => ht.2.2.1 o ?_
    rw [raise_out]
    exact ho
  · exact logged_congr (hframe .irq (by decide)) (hframe .clk (by decide)) (raise_logged code c ht.2.1)
  · exact (becomes_same (hframe.trans (raise_sameBut code c _)) ht).mono (by simp)

theorem trainFails_becomes (c : Nat) (s : State) :
    LinkBecomes c { leaveData (feedOf s c) with state := .search }
      (bump .trainFail (bumpBy .reasmTimeout (openFrames (feedOf s c)) (circOf s c))) s (trainFails c s) :=
  ((dropOpen_becomes c s).thenModFeed fun f => { leaveData f with state := .search }).thenModCirc _

/-- A command by which a training fails. -/
theorem completes_trainFails {i : Instr} {c : Nat} {s : State} (hexec : exec i s = commit s (trainFails c s)) :
    Completes i s fun t =>
      feedOf t c = { leaveData (feedOf s c) with state := .search }
      ∧ circOf t c = bump .trainFail (bumpBy .reasmTimeout (openFrames (feedOf s c)) (circOf s c))
      ∧ (∀ d, d ≠ c → feedOf t d = feedOf s d ∧ circOf t d = circOf s d) ∧ Alone [.feed, .circ] s t :=
  (completes_link (trainFails_becomes c s) hexec).imp fun _ ⟨hfeed, hcirc, hothers, _, halone⟩ => ⟨hfeed, hcirc, hothers, halone⟩

end Sys2Proof.Machine
end

section
/-! Settles O35: the training and the retraining of a feed link, one lemma for each clause. -/
namespace Sys2Proof.Machine

/-! Training words (R210, R211). -/

/-- A link that has heard a training word: the endpoint's SNR and its capabilities. -/
def wordHeard (w : Word) (f : Feed) : Feed := { f with snrFar := cdSnr w, farThp := cdThpCap w, farPam := cdPamCap w }

/-- The feedback taps with the one of a PRECODE word, where downstream precodes. -/
abbrev tapsWith (w : Word) (f : Feed) : Tab Int :=
  if f.dn.thp = true ∧ cdCount w < 24 then (cdCount w, signedOf 16 (cdValue w)) :: f.taps.filter (fun e => e.1 != cdCount w) else f.taps

/-- A link that takes in that tap. -/
def tapHeard (w : Word) (f : Feed) : Feed :=
  if f.dn.thp && decide (cdCount w < 24) then { f with taps := (cdCount w, signedOf 16 (cdValue w)) :: f.taps.filter fun e => e.1 != cdCount w }
  else f

theorem tapHeard_eq (w : Word) (f : Feed) : tapHeard w f = { f with taps := tapsWith w f } := by
  unfold tapHeard tapsWith
  simp only [Bool.and_eq_true, decide_eq_true_eq]
  split <;> rfl

/-- A link whose endpoint has begun its countdown, which ends at an instant of the device. -/
def countdownHeard (w : Word) (now : Nat) (f : Feed) : Feed := { f with wire := { f.wire with upFrom := some (now + cdCount w * spanLen f) } }

section
variable {s : State} {c : Nat} {w : Word}

theorem heard_becomes : LinkBecomes c (wordHeard w (feedOf s c)) (circOf s c) s (modFeed c (wordHeard w) s) :=
  (linkBecomes_refl c s).thenModFeed _

theorem trainWord_of_deaf (h : inTraining (feedOf s c) = false ∨ cdCheckOk w = false ∨ cdRole w = false) : trainWord c w s = s := by
  refine if_pos ?_
  rcases h with h | h | h <;> simp [h]

/-- A word that counts is one of a link in training, with a good CHECK and from the endpoint. -/
abbrev WordCounts (s : State) (c : Nat) (w : Word) : Prop := inTraining (feedOf s c) = true ∧ cdCheckOk w = true ∧ cdRole w = true

/-- What a word of the link's own phase leads to, once it is heard. -/
def ownPhaseWord (c : Nat) (w : Word) (f : Feed) (t : State) : State :=
  match f.phase with
  | .duplex =>
    if cdReady w && decide (32 ≤ cdSnr w) && decide (32 ≤ f.snrOwn) then enterFeedPhase c .select (setFeed c (selectSettings (circOf t c) f) t) else t
  | .select => if cdChoice w = choiceOf f then enterFeedPhase c (if f.dn.thp || f.upw.thp then .precode else .switch) t else t
  | .precode =>
    if cdReady w && tapsComplete (tapHeard w f) then enterFeedPhase c .switch (setFeed c (tapHeard w f) t) else setFeed c (tapHeard w f) t
  | .switch => modFeed c (countdownHeard w t.clk.now) t
  | .echo => t

theorem trainWord_of_counts (h : WordCounts s c w) :
    trainWord c w s
      = if cdPhase w ≠ feedPhaseCode (feedOf s c).phase then modFeed c (wordHeard w) s
        else ownPhaseWord c w (wordHeard w (feedOf s c)) (modFeed c (wordHeard w) s) := by
  obtain ⟨ht, hc, hr⟩ := h
  obtain ⟨hheard, -, -, -⟩ := heard_becomes (s := s) (c := c) (w := w)
  have hgo : ¬(!inTraining (feedOf s c) || !cdCheckOk w || !cdRole w) = true := by simp [ht, hc, hr]
  refine (if_neg hgo).trans ?_
  change (if cdPhase w ≠ feedPhaseCode (feedOf (modFeed c (wordHeard w) s) c).phase then modFeed c (wordHeard w) s
    else ownPhaseWord c w (feedOf (modFeed c (wordHeard w) s) c) (modFeed c (wordHeard w) s)) = _
  rw [hheard]
  rfl

/-- In a link's own phase. -/
theorem trainWord_of_ownPhase (h : WordCounts s c w) (hph : cdPhase w = feedPhaseCode (feedOf s c).phase) :
    trainWord c w s = ownPhaseWord c w (wordHeard w (feedOf s c)) (modFeed c (wordHeard w) s) := by
  rw [trainWord_of_counts h, if_neg (not_not_intro hph)]

/-- A word that is of another phase, or comes before its phase may end. -/
abbrev WordEarly (w : Word) (f : Feed) : Prop :=
  cdPhase w ≠ feedPhaseCode f.phase ∨ f.phase = .echo ∨ f.phase = .duplex ∧ (cdReady w = false ∨ cdSnr w < 32 ∨ f.snrOwn < 32)
    ∨ f.phase = .select ∧ cdChoice w ≠ choiceOf f

/-- It is heard and leads to nothing more. -/
theorem trainWord_of_early (h : WordCounts s c w) (hearly : WordEarly w (feedOf s c)) :
    trainWord c w s = modFeed c (wordHeard w) s := by
  by_cases hph : cdPhase w = feedPhaseCode (feedOf s c).phase
  · rw [trainWord_of_ownPhase h hph]
    rcases hearly with hne | hecho | ⟨hduplex, hnot⟩ | ⟨hselect, hne⟩
    · exact absurd hph hne
    · simp only [ownPhaseWord, wordHeard, hecho]
    · have hwait : (cdReady w && decide (32 ≤ cdSnr w) && decide (32 ≤ (feedOf s c).snrOwn)) = false := by
        rcases hnot with hready | hfar | hown
        · simp only [hready, Bool.false_and]
        · simp only [decide_eq_false (Int.not_le.2 hfar), Bool.and_false, Bool.false_and]
        · simp only [decide_eq_false (Int.not_le.2 hown), Bool.and_false]
      simp [ownPhaseWord, wordHeard, hduplex, hwait]
    · have hchoice : choiceOf (wordHeard w (feedOf s c)) = choiceOf (feedOf s c) := rfl
      simp only [ownPhaseWord, hchoice, if_neg hne]
      simp [wordHeard, hselect]
  · rw [trainWord_of_counts h, if_pos hph]

/-! The words' clauses. -/

variable (hx : circuitExists s c = true)
include hx

theorem exec_cdTrainWord : exec (.cdTrainWord c w) s = commit s (trainWord c w s) := onObject_true hx

theorem feedWord_ignored (h : inTraining (feedOf s c) = false ∨ cdCheckOk w = false ∨ cdRole w = false) :
    Completes (.cdTrainWord c w) s fun t => t = s := completes_unchanged (by rw [exec_cdTrainWord hx, trainWord_of_deaf h])

theorem feedWord_heard (hw : WordCounts s c w) (hearly : WordEarly w (feedOf s c)) :
    Completes (.cdTrainWord c w) s fun t =>
      feedOf t c = { feedOf s c with snrFar := cdSnr w, farThp := cdThpCap w, farPam := cdPamCap w } ∧ (∀ d, d ≠ c → feedOf t d = feedOf s d)
      ∧ Alone [.feed] s t := 
  completes_feed (by rw [exec_cdTrainWord hx, trainWord_of_early hw hearly]) heard_becomes (setFeed_sameBut c _ s)

theorem feedWord_countdown (hw : WordCounts s c w) (h5 : cdPhase w = 5) (hph : (feedOf s c).phase = .switch) :
    Completes (.cdTrainWord c w) s fun t =>
      feedOf t c = { feedOf s c with
        snrFar := cdSnr w, farThp := cdThpCap w, farPam := cdPamCap w
        wire := { (feedOf s c).wire with upFrom := some (s.clk.now + cdCount w * spanLen (feedOf s c)) } }
      ∧ (∀ d, d ≠ c → feedOf t d = feedOf s d) ∧ Alone [.feed] s t := by
  have hexec : exec (.cdTrainWord c w) s = commit s (modFeed c (countdownHeard w s.clk.now) (modFeed c (wordHeard w) s)) := by
    rw [exec_cdTrainWord hx, trainWord_of_ownPhase hw (by rw [h5, hph, feedPhaseCode])]
    simp only [ownPhaseWord, show (wordHeard w (feedOf s c)).phase = .switch from hph]
    rfl
  exact completes_feed hexec (heard_becomes.thenModFeed (countdownHeard w s.clk.now))
    (((setFeed_sameBut c _ s).trans (setFeed_sameBut c _ _)).mono (by simp))

/-- A link that meets no entry at 100 MBd selects one at 25 MBd (log entry 272). -/
theorem feedWord_selects (hw : WordCounts s c w) (h2 : cdPhase w = 2) (hph : (feedOf s c).phase = .duplex) (hready : cdReady w = true)
    (hfar : 32 ≤ cdSnr w) (hown : 32 ≤ (feedOf s c).snrOwn) :
    Completes (.cdTrainWord c w) s fun t =>
      feedOf t c = { selectSettings (circOf s c) { feedOf s c with snrFar := cdSnr w, farThp := cdThpCap w, farPam := cdPamCap w } with
        phase := .select, phaseAt := s.clk.now, wire := { (feedOf s c).wire with upFrom := none } }
      ∧ .feedWord c (headWord (feedOf t c)) ∈ t.out
      ∧ circOf t c = (if (circOf s c).agc = .fixed then circOf s c else { circOf s c with agc := .frozen, agcBack := .track, gainCmd := none })
      ∧ (∀ d, d ≠ c → feedOf t d = feedOf s d ∧ circOf t d = circOf s d) ∧ Alone [.feed, .circ] s t := by
  have hexec : exec (.cdTrainWord c w) s = commit s (enterFeedPhase c .select
      (setFeed c (selectSettings (circOf s c) (wordHeard w (feedOf s c))) (modFeed c (wordHeard w) s))) := by
    rw [exec_cdTrainWord hx, trainWord_of_ownPhase hw (by rw [h2, hph, feedPhaseCode])]
    simp only [ownPhaseWord, show (wordHeard w (feedOf s c)).phase = .duplex from hph]
    exact congrArg (commit s) (if_pos (by simp [hready, hfar, wordHeard, hown]))
  refine (completes_phase hexec (heard_becomes.thenSetFeed _)).imp
    fun t ⟨hfeed, hcirc, hword, hothers, halone⟩ => ⟨hfeed.trans ?_, hword, hcirc, hothers, halone⟩
  rw [phaseEntered, selectSettings_wire]
  rfl

theorem feedWord_settles (hw : WordCounts s c w) (h3 : cdPhase w = 3) (hph : (feedOf s c).phase = .select)
    (hchoice : cdChoice w = choiceOf (feedOf s c)) :
    Completes (.cdTrainWord c w) s fun t =>
      (feedOf t c).phase = (if (feedOf s c).dn.thp || (feedOf s c).upw.thp then .precode else .switch) ∧ (feedOf t c).phaseAt = s.clk.now
      ∧ (feedOf t c).snrFar = cdSnr w ∧ (feedOf t c).dn = (feedOf s c).dn ∧ (feedOf t c).upw = (feedOf s c).upw ∧ (feedOf t c).state = (feedOf s c).state
      ∧ .feedWord c (headWord (feedOf t c)) ∈ t.out ∧ (∀ d, d ≠ c → feedOf t d = feedOf s d) ∧ (∀ d, circOf t d = circOf s d)
      ∧ Alone [.feed, .circ] s t := by
  have hexec : exec (.cdTrainWord c w) s = commit s (enterFeedPhase c (if (feedOf s c).dn.thp || (feedOf s c).upw.thp then .precode else .switch)
      (modFeed c (wordHeard w) s)) := by
    rw [exec_cdTrainWord hx, trainWord_of_ownPhase hw (by rw [h3, hph, feedPhaseCode])]
    simp only [ownPhaseWord, show (wordHeard w (feedOf s c)).phase = .select from hph]
    exact congrArg (commit s) (if_pos hchoice)
  refine (completes_phase hexec heard_becomes).imp fun t ⟨hfeed, hcirc, hword, hothers, halone⟩ => ?_
  rw [hfeed] at hword ⊢
  refine ⟨rfl, rfl, rfl, rfl, rfl, rfl, hword, fun d hd => (hothers d hd).1, circuits_stay (hcirc.trans (if_neg ?_)) hothers, halone⟩
  split <;> simp

theorem feedWord_tap (hw : WordCounts s c w) (h4 : cdPhase w = 4) (hph : (feedOf s c).phase = .precode) :
    Completes (.cdTrainWord c w) s fun t =>
      (feedOf t c).taps = (if (feedOf s c).dn.thp = true ∧ cdCount w < 24 then
          (cdCount w, signedOf 16 (cdValue w)) :: (feedOf s c).taps.filter (fun e => e.1 != cdCount w) else (feedOf s c).taps)
      ∧ (feedOf t c).phase = (if cdReady w && tapsComplete { feedOf s c with taps := (feedOf t c).taps } then .switch else .precode)
      ∧ (feedOf t c).dn = (feedOf s c).dn ∧ (feedOf t c).snrFar = cdSnr w ∧ (∀ d, d ≠ c → feedOf t d = feedOf s d) ∧ (∀ d, circOf t d = circOf s d)
      ∧ Alone [.feed, .circ] s t := by
  have hcomplete : tapsComplete (tapHeard w (wordHeard w (feedOf s c))) = tapsComplete { feedOf s c with taps := tapsWith w (feedOf s c) } := by
    rw [tapHeard_eq]; rfl
  have hbefore := (heard_becomes (s := s) (c := c) (w := w)).thenSetFeed (tapHeard w (wordHeard w (feedOf s c)))
  have hexec := exec_cdTrainWord (w := w) hx
  rw [trainWord_of_ownPhase hw (by rw [h4, hph, feedPhaseCode])] at hexec
  simp only [ownPhaseWord, show (wordHeard w (feedOf s c)).phase = .precode from hph, hcomplete] at hexec
  by_cases hdone : (cdReady w && tapsComplete { feedOf s c with taps := tapsWith w (feedOf s c) }) = true
  · rw [if_pos hdone] at hexec
    refine (completes_phase hexec hbefore).imp fun t ⟨hfeed, hcirc, _, hothers, halone⟩ => ?_
    rw [tapHeard_eq] at hfeed
    rw [hfeed]
    exact ⟨rfl, (if_pos hdone).symm, rfl, rfl, fun d hd => (hothers d hd).1, circuits_stay hcirc hothers, halone⟩
  · rw [if_neg hdone] at hexec
    refine (completes_link hbefore hexec).imp fun t ⟨hfeed, hcirc, hothers, _, halone⟩ => ?_
    rw [tapHeard_eq] at hfeed
    rw [hfeed]
    exact ⟨rfl, hph.trans (if_neg hdone).symm, rfl, rfl, fun d hd => (hothers d hd).1, circuits_stay hcirc hothers, halone⟩

end

/-! SWITCH's exit (R211, R213). -/

/-- The mean square of the samples of a tick that are not clipped (R123). -/
abbrev unclippedSq (x : Circuit) : Nat := meanSq (x.buffer.filter (· != clipCode))

/-- A link that comes UP, with the trained snapshot and the level at the coupler. -/
def broughtUp (s : State) (x : Circuit) (c : Nat) (f : Feed) : Feed :=
  { f with
    state := .up, trainedSnr := f.snrOwn, trainedMse := f.mse, missed := 0, mseRun := 0, drifted := false, reverted := false
    wire := { f.wire with trained := f.wire.now }, rssi := coupler16 s c x.gain (unclippedSq x) }

/-- Its circuit, with the reference level of data mode and the AGC frozen where it is not FIXED. -/
def referenced (x : Circuit) : Circuit :=
  { x with refSq := unclippedSq x, refGain := x.gain, agc := if x.agc = .fixed then .fixed else .frozen, agcBack := .track }

/-- SWITCH may end. -/
abbrev SwitchDone (f : Feed) : Prop := inTraining f = true ∧ f.phase = .switch ∧ 100 ≤ f.okRun

theorem switchExit_of_done {c : Nat} {s : State} (h : SwitchDone (feedOf s c)) :
    switchExit c s = setCirc c (referenced (circOf s c)) (setFeed c (broughtUp s (circOf s c) c (feedOf s c)) s) := by
  obtain ⟨ht, hph, hrun⟩ := h
  refine if_neg ?_
  simp only [ht, hph, decide_eq_false (Nat.not_lt.2 hrun), Bool.not_true, bne_self_eq_false, Bool.or_false, Bool.false_eq_true, not_false_eq_true]

theorem switchExit_of_not_done {c : Nat} {s : State}
    (h : inTraining (feedOf s c) = false ∨ (feedOf s c).phase ≠ .switch ∨ (feedOf s c).okRun < 100) : switchExit c s = s := by
  refine if_pos ?_
  rcases h with h | h | h
  · simp only [h, Bool.not_false, Bool.true_or]
  · simp only [bne_iff_ne.2 h, Bool.or_true, Bool.true_or]
  · simp only [decide_eq_true h, Bool.or_true]

/-! Timeouts of a phase (R211, R213). -/

/-- A link whose SWITCH timed out, one entry lower on the ladder. -/
def oneLower (f : Feed) : Feed := { f with lower := f.lower + 1 }

section
variable {s : State} {c : Nat}

theorem phaseTimeout_of_retrain (h : (feedOf s c).state = .retrain) : phaseTimeout c s = beginTraining c .training true s := by
  simp only [phaseTimeout, h, train]

theorem phaseTimeout_of_switch (h : (feedOf s c).state = .training) (hph : (feedOf s c).phase = .switch) :
    phaseTimeout c s
      = enterFeedPhase c .select (setFeed c (leaveData (selectSettings (circOf s c) (oneLower (feedOf s c)))) (modFeed c oneLower s)) := by
  obtain ⟨hfeed, hcirc, -, -⟩ := (linkBecomes_refl c s).thenModFeed oneLower
  rw [← hfeed, ← hcirc]
  simp only [phaseTimeout, h, hph]
  rfl

theorem phaseTimeout_of_fast (h : (feedOf s c).state = .training) (hph : (feedOf s c).phase = .echo ∨ (feedOf s c).phase = .duplex)
    (hfast : (feedOf s c).fast = true) :
    phaseTimeout c s = modFeed c (fun f => { f with startedAt := (feedOf s c).startedAt }) (beginTraining c .training false s) := by
  rcases hph with hph | hph <;> simp [phaseTimeout, h, hph, hfast]

/-- SELECT and PRECODE fail at any symbol rate (log entry 58), ECHO and DUPLEX at 25 MBd. -/
theorem phaseTimeout_fails (h : (feedOf s c).state = .training)
    (hph : (feedOf s c).phase = .select ∨ (feedOf s c).phase = .precode ∨ ((feedOf s c).phase ≠ .switch ∧ (feedOf s c).fast = false)) :
    phaseTimeout c s = trainFails c s := by
  cases hp : (feedOf s c).phase with
  | select | precode => simp only [phaseTimeout, h, hp]
  | echo | duplex =>
    have hslow : (feedOf s c).fast = false := by simpa [hp] using hph
    simp [phaseTimeout, h, hp, hslow]
  | switch => simp [hp] at hph

theorem phaseTimeout_of_idle (h : inTraining (feedOf s c) = false) : phaseTimeout c s = s := by
  cases hst : (feedOf s c).state with
  | training | retrain => simp [inTraining, hst] at h
  | off | up | search => simp only [phaseTimeout, hst]

/-! The clauses of a link in training or in FEED_SEARCH. -/

variable (hx : circuitExists s c = true)
include hx

theorem exec_cdSwitchExit : exec (.cdSwitchExit c) s = commit s (switchExit c s) := onObject_true hx

theorem switch_bringsUp (h : SwitchDone (feedOf s c)) :
    Completes (.cdSwitchExit c) s fun t =>
      feedOf t c = broughtUp s (circOf s c) c (feedOf s c) ∧ circOf t c = referenced (circOf s c)
      ∧ (∀ d, d ≠ c → feedOf t d = feedOf s d ∧ circOf t d = circOf s d) ∧ Alone [.feed, .circ] s t := by
  have hexec := exec_cdSwitchExit hx
  rw [switchExit_of_done h] at hexec
  exact (completes_link (((linkBecomes_refl c s).thenSetFeed _).thenSetCirc _) hexec).imp
    fun t ⟨hfeed, hcirc, hothers, _, halone⟩ => ⟨hfeed, hcirc, hothers, halone⟩

theorem switch_goes_on (h : inTraining (feedOf s c) = false ∨ (feedOf s c).phase ≠ .switch ∨ (feedOf s c).okRun < 100) :
    Completes (.cdSwitchExit c) s fun t => t = s := completes_unchanged (by rw [exec_cdSwitchExit hx, switchExit_of_not_done h])

theorem exec_cdPhaseTimeout :
    exec (.cdPhaseTimeout c) s = commit s (if (feedOf s c).phaseAt + 5000 ≤ s.clk.now then phaseTimeout c s else s) := onObject_true hx

theorem exec_cdPhaseTimeout_due (hdue : (feedOf s c).phaseAt + 5000 ≤ s.clk.now) :
    exec (.cdPhaseTimeout c) s = commit s (phaseTimeout c s) := by rw [exec_cdPhaseTimeout hx, if_pos hdue]

/-- The training after a retrain that timed out begins from scratch (log entry 59). -/
theorem phaseTimeout_retrain_trains (hdue : (feedOf s c).phaseAt + 5000 ≤ s.clk.now) (h : (feedOf s c).state = .retrain) :
    Completes (.cdPhaseTimeout c) s fun t => BeginsTraining c .training true s t ∧ Alone [.feed, .circ] s t :=
  completes_training (by rw [exec_cdPhaseTimeout_due hx hdue, phaseTimeout_of_retrain h])

theorem phaseTimeout_lowers (hdue : (feedOf s c).phaseAt + 5000 ≤ s.clk.now) (h : (feedOf s c).state = .training)
    (hph : (feedOf s c).phase = .switch) :
    Completes (.cdPhaseTimeout c) s fun t =>
      (feedOf t c).state = .training ∧ (feedOf t c).phase = .select ∧ (feedOf t c).phaseAt = s.clk.now ∧ (feedOf t c).lower = (feedOf s c).lower + 1
      ∧ (feedOf t c).soft = [] ∧ (feedOf t c).session = (feedOf s c).session + 1
      ∧ (feedOf t c).dn = (selectSettings (circOf s c) (oneLower (feedOf s c))).dn
      ∧ (feedOf t c).upw = (selectSettings (circOf s c) (oneLower (feedOf s c))).upw
      ∧ .feedWord c (headWord (feedOf t c)) ∈ t.out
      ∧ (∀ d, d ≠ c → feedOf t d = feedOf s d ∧ circOf t d = circOf s d) ∧ Alone [.feed, .circ] s t := by
  have hexec := exec_cdPhaseTimeout_due hx hdue
  rw [phaseTimeout_of_switch h hph] at hexec
  refine (completes_phase hexec (((linkBecomes_refl c s).thenModFeed oneLower).thenSetFeed _)).imp
    fun t ⟨hfeed, _, hword, hothers, halone⟩ => ?_
  rw [hfeed] at hword ⊢
  exact ⟨(selectSettings_state _ _).trans h, rfl, rfl, selectSettings_lower _ _, rfl, congrArg (· + 1) (selectSettings_session _ _), rfl, rfl, hword,
    hothers, halone⟩

theorem phaseTimeout_slows (hdue : (feedOf s c).phaseAt + 5000 ≤ s.clk.now) (h : (feedOf s c).state = .training)
    (hph : (feedOf s c).phase = .echo ∨ (feedOf s c).phase = .duplex) (hfast : (feedOf s c).fast = true) :
    Completes (.cdPhaseTimeout c) s fun t =>
      (feedOf t c).state = .training ∧ (feedOf t c).phase = .echo ∧ (feedOf t c).fast = false ∧ (feedOf t c).startedAt = (feedOf s c).startedAt
      ∧ (feedOf t c).phaseAt = s.clk.now ∧ (feedOf t c).lower = 0 ∧ (feedOf t c).span = effectiveSpan (circuitSpan s c)
      ∧ (∀ d, d ≠ c → feedOf t d = feedOf s d ∧ circOf t d = circOf s d) ∧ Alone [.feed, .circ] s t := by
  have hexec := exec_cdPhaseTimeout_due hx hdue
  rw [phaseTimeout_of_fast h hph hfast] at hexec
  refine (completes_link ((beginTraining_becomes c .training false s).thenModFeed _) hexec).imp fun t ⟨hfeed, _, hothers, _, halone⟩ => ?_
  rw [hfeed]
  exact ⟨rfl, rfl, rfl, rfl, rfl, rfl, rfl, hothers, halone⟩

theorem phaseTimeout_searches (hdue : (feedOf s c).phaseAt + 5000 ≤ s.clk.now) (h : (feedOf s c).state = .training)
    (hph : (feedOf s c).phase = .select ∨ (feedOf s c).phase = .precode ∨ ((feedOf s c).phase ≠ .switch ∧ (feedOf s c).fast = false)) :
    Completes (.cdPhaseTimeout c) s fun t =>
      feedOf t c = { leaveData (feedOf s c) with state := .search }
      ∧ circOf t c = bump .trainFail (bumpBy .reasmTimeout (openFrames (feedOf s c)) (circOf s c))
      ∧ (∀ d, d ≠ c → feedOf t d = feedOf s d ∧ circOf t d = circOf s d) ∧ Alone [.feed, .circ] s t :=
  completes_trainFails (by rw [exec_cdPhaseTimeout_due hx hdue, phaseTimeout_fails h hph])

theorem phaseTimeout_ignored (h : inTraining (feedOf s c) = false ∨ s.clk.now < (feedOf s c).phaseAt + 5000) :
    Completes (.cdPhaseTimeout c) s fun t => t = s := by
  refine completes_unchanged ?_
  rw [exec_cdPhaseTimeout hx]
  rcases h with hidle | hearly
  · rw [phaseTimeout_of_idle hidle, ite_self]
  · rw [if_neg (Nat.not_le.2 hearly)]

theorem exec_cdTrainingTimeout :
    exec (.cdTrainingTimeout c) s
      = commit s (if inTraining (feedOf s c) = true ∧ (feedOf s c).startedAt + 200000 ≤ s.clk.now then trainFails c s else s) := onObject_true hx

theorem training_fails (ht : inTraining (feedOf s c) = true) (hdue : (feedOf s c).startedAt + 200000 ≤ s.clk.now) :
    Completes (.cdTrainingTimeout c) s fun t =>
      feedOf t c = { leaveData (feedOf s c) with state := .search }
      ∧ circOf t c = bump .trainFail (bumpBy .reasmTimeout (openFrames (feedOf s c)) (circOf s c))
      ∧ (∀ d, d ≠ c → feedOf t d = feedOf s d ∧ circOf t d = circOf s d) ∧ Alone [.feed, .circ] s t :=
  completes_trainFails (by rw [exec_cdTrainingTimeout hx, if_pos ⟨ht, hdue⟩])

theorem training_goes_on (h : inTraining (feedOf s c) = false ∨ s.clk.now < (feedOf s c).startedAt + 200000) :
    Completes (.cdTrainingTimeout c) s fun t => t = s := by
  refine completes_unchanged ?_
  rw [exec_cdTrainingTimeout hx, if_neg]
  rintro ⟨ht, hdue⟩
  rcases h with h | h
  · rw [ht] at h; cases h
  · omega

theorem exec_feedSearchRetry :
    exec (.feedSearchRetry c) s
      = commit s (if (feedOf s c).state = .search ∧ s.circ.profile ≠ 0 ∧ (feedOf s c).startedAt + 1000000 ≤ s.clk.now then train c s else s) :=
  onObject_true hx

theorem search_trains (h : (feedOf s c).state = .search) (hprofile : s.circ.profile ≠ 0) (hdue : (feedOf s c).startedAt + 1000000 ≤ s.clk.now) :
    Completes (.feedSearchRetry c) s fun t => BeginsTraining c .training true s t ∧ Alone [.feed, .circ] s t :=
  completes_training (by rw [exec_feedSearchRetry hx, if_pos ⟨h, hprofile, hdue⟩, train])

theorem search_goes_on (h : (feedOf s c).state ≠ .search ∨ s.circ.profile = 0 ∨ s.clk.now < (feedOf s c).startedAt + 1000000) :
    Completes (.feedSearchRetry c) s fun t => t = s := by
  refine completes_unchanged ?_
  rw [exec_feedSearchRetry hx, if_neg]
  rintro ⟨hst, hprofile, hdue⟩
  rcases h with h | h | h
  · exact h hst
  · exact hprofile h
  · omega

end

/-! Links that are UP (R144, R213, R214). -/

/-- A link whose taps are the trained ones again. -/
def tapsReverted (f : Feed) : Feed :=
  { f with drifted := false, mseRun := 0, reverted := true, wire := { f.wire with now := f.wire.trained } }

section
variable {s : State} {c : Nat} (hx : circuitExists s c = true)
include hx

theorem exec_linkLost :
    exec (.linkLost c) s
      = commit s (if (feedOf s c).state = .up ∧ 8 ≤ (feedOf s c).missed then raise 0x0045 c (retrain c (modCirc c (bump .linkLost) s)) else s) :=
  onObject_true hx

theorem linkLost_retrains (h : (feedOf s c).state = .up) (hn : 8 ≤ (feedOf s c).missed) :
    Completes (.linkLost c) s fun t =>
      BeginsTraining c .retrain (feedOf s c).fast (modCirc c (bump .linkLost) s) t ∧ Logged 0x0045 c s t
      ∧ SameBut [.feed, .circ, .irq, .mem, .out] s t := completes_retrainRaise (by rw [exec_linkLost hx, if_pos ⟨h, hn⟩])

theorem linkLost_ignored (h : (feedOf s c).state ≠ .up ∨ (feedOf s c).missed < 8) : Completes (.linkLost c) s fun t => t = s := by
  refine completes_unchanged ?_
  rw [exec_linkLost hx, if_neg]
  rintro ⟨hst, hn⟩
  rcases h with h | h
  · exact h hst
  · omega

theorem exec_feedOverload :
    exec (.feedOverload c) s
      = commit s (if (feedOf s c).state = .up ∧ 9 ≤ (circOf s c).clipRun then raise 0x0044 c (retrain c (modCirc c (bump .feedOverload) s)) else s) :=
  onObject_true hx

theorem feedOverload_retrains (h : (feedOf s c).state = .up) (hn : 9 ≤ (circOf s c).clipRun) :
    Completes (.feedOverload c) s fun t =>
      BeginsTraining c .retrain (feedOf s c).fast (modCirc c (bump .feedOverload) s) t ∧ Logged 0x0044 c s t
      ∧ SameBut [.feed, .circ, .irq, .mem, .out] s t := completes_retrainRaise (by rw [exec_feedOverload hx, if_pos ⟨h, hn⟩])

theorem feedOverload_ignored (h : (feedOf s c).state ≠ .up ∨ (circOf s c).clipRun < 9) : Completes (.feedOverload c) s fun t => t = s := by
  refine completes_unchanged ?_
  rw [exec_feedOverload hx, if_neg]
  rintro ⟨hst, hn⟩
  rcases h with h | h
  · exact h hst
  · omega

theorem exec_tapRevert :
    exec (.tapRevert c) s
      = commit s (if (feedOf s c).state = .up ∧ ((feedOf s c).drifted = true ∨ (1000 ≤ (feedOf s c).mseRun ∧ (feedOf s c).reverted = false)) then
          modCirc c (bump .tapRevert) (setFeed c (tapsReverted (feedOf s c)) s) else s) := onObject_true hx

theorem taps_revert (h : (feedOf s c).state = .up) (hd : (feedOf s c).drifted = true ∨ 1000 ≤ (feedOf s c).mseRun ∧ (feedOf s c).reverted = false) :
    Completes (.tapRevert c) s fun t =>
      feedOf t c = tapsReverted (feedOf s c) ∧ circOf t c = bump .tapRevert (circOf s c)
      ∧ (∀ d, d ≠ c → feedOf t d = feedOf s d ∧ circOf t d = circOf s d) ∧ Alone [.feed, .circ] s t := by
  have hexec := exec_tapRevert hx
  rw [if_pos ⟨h, hd⟩] at hexec
  exact (completes_link (((linkBecomes_refl c s).thenSetFeed _).thenModCirc _) hexec).imp
    fun t ⟨hfeed, hcirc, hothers, _, halone⟩ => ⟨hfeed, hcirc, hothers, halone⟩

theorem revert_ignored
    (h : (feedOf s c).state ≠ .up ∨ (feedOf s c).drifted = false ∧ ((feedOf s c).mseRun < 1000 ∨ (feedOf s c).reverted = true)) :
    Completes (.tapRevert c) s fun t => t = s := by
  refine completes_unchanged ?_
  rw [exec_tapRevert hx, if_neg]
  rintro ⟨hst, hdue⟩
  rcases h with h | ⟨hd, hcalm⟩
  · exact h hst
  · rcases hdue with hdue | ⟨hn, hr⟩
    · rw [hd] at hdue; cases hdue
    · rcases hcalm with hcalm | hcalm
      · omega
      · rw [hr] at hcalm; cases hcalm

theorem exec_tapGuardFail :
    exec (.tapGuardFail c) s
      = commit s (if (feedOf s c).state = .up ∧ (feedOf s c).reverted = true ∧ 1000 ≤ (feedOf s c).mseRun then retrain c s else s) := onObject_true hx

theorem guard_retrains (h : (feedOf s c).state = .up) (hr : (feedOf s c).reverted = true) (hn : 1000 ≤ (feedOf s c).mseRun) :
    Completes (.tapGuardFail c) s fun t => BeginsTraining c .retrain (feedOf s c).fast s t ∧ Alone [.feed, .circ] s t :=
  completes_training (by rw [exec_tapGuardFail hx, if_pos ⟨h, hr, hn⟩, retrain])

theorem guard_ignored (h : (feedOf s c).state ≠ .up ∨ (feedOf s c).reverted = false ∨ (feedOf s c).mseRun < 1000) :
    Completes (.tapGuardFail c) s fun t => t = s := by
  refine completes_unchanged ?_
  rw [exec_tapGuardFail hx, if_neg]
  rintro ⟨hst, hr, hn⟩
  rcases h with h | h | h
  · exact h hst
  · rw [hr] at h; cases h
  · omega

end

/-- Settles O35: each clause is what one command of a feed link does, or that it does nothing outside its condition. -/
theorem classDTraining : Obligations.ClassDTraining :=
  ⟨fun _ _ _ ⟨hx, h⟩ => feedWord_ignored hx h,
    fun _ _ _ ⟨hx, hw⟩ hearly => feedWord_heard hx hw hearly,
    fun _ _ _ ⟨hx, ht, hc, hr, h5, hph⟩ => feedWord_countdown hx ⟨ht, hc, hr⟩ h5 hph,
    fun _ _ _ ⟨hx, ht, hc, hr, h2⟩ ⟨hph, hready, hfar, hown⟩ => feedWord_selects hx ⟨ht, hc, hr⟩ h2 hph hready hfar hown,
    fun _ _ _ ⟨hx, ht, hc, hr, h3⟩ ⟨hph, hchoice⟩ => feedWord_settles hx ⟨ht, hc, hr⟩ h3 hph hchoice,
    fun _ _ _ ⟨hx, ht, hc, hr, h4, hph⟩ => feedWord_tap hx ⟨ht, hc, hr⟩ h4 hph,
    fun _ _ ⟨hx, h⟩ => switch_bringsUp hx h,
    fun _ _ ⟨hx, h⟩ => switch_goes_on hx h,
    fun _ _ ⟨hx, hdue, h⟩ => phaseTimeout_retrain_trains hx hdue h,
    fun _ _ ⟨hx, hdue, h, hph⟩ => phaseTimeout_lowers hx hdue h hph,
    fun _ _ ⟨hx, hdue, h, hph, hfast⟩ => phaseTimeout_slows hx hdue h hph hfast,
    fun _ _ ⟨hx, hdue, h⟩ hph => phaseTimeout_searches hx hdue h hph,
    fun _ _ ⟨hx, h⟩ => phaseTimeout_ignored hx h,
    fun _ _ ⟨hx, ht, hdue⟩ => training_fails hx ht hdue,
    fun _ _ ⟨hx, h⟩ => training_goes_on hx h,
    fun _ _ ⟨hx, h, hprofile, hdue⟩ => search_trains hx h hprofile hdue,
    fun _ _ ⟨hx, h⟩ => search_goes_on hx h,
    fun _ _ ⟨hx, h, hn⟩ => linkLost_retrains hx h hn,
    fun _ _ ⟨hx, h, hn⟩ => feedOverload_retrains hx h hn,
    fun _ _ ⟨hx, h, hr, hn⟩ => guard_retrains hx h hr hn,
    fun _ _ ⟨hx, h, hd⟩ => taps_revert hx h hd,
    fun _ _ ⟨hx, h⟩ => linkLost_ignored hx h,
    fun _ _ ⟨hx, h⟩ => feedOverload_ignored hx h,
    fun _ _ ⟨hx, h⟩ => revert_ignored hx h,
    fun _ _ ⟨hx, h⟩ => guard_ignored hx h⟩

end Sys2Proof.Machine
end

section
/-! Settles O57: blocks of bits added modulo 2, the parity blocks of the encoding, and the check of each block row (R218, R219, R223). -/
namespace Sys2Proof.Machine

/-! Addition modulo 2 of bit strings of one length. -/

/-- The block of Z zeros. -/
abbrev zeroBlock (z : Nat) : List Bool := List.replicate z false

@[simp] theorem xorBits_length (a b : List Bool) : (xorBits a b).length = min a.length b.length := List.length_zipWith

theorem xorBits_comm (a b : List Bool) : xorBits a b = xorBits b a := List.zipWith_comm_of_comm Bool.xor_comm

theorem xorBits_assoc (a b c : List Bool) : xorBits (xorBits a b) c = xorBits a (xorBits b c) := by
  induction a generalizing b c with
  | nil => simp [xorBits]
  | cons x a ih =>
    match b, c with
    | [], _ => simp [xorBits]
    | _ :: _, [] => simp [xorBits]
    | y :: b, w :: c => simpa [xorBits] using ih b c

theorem xorBits_right_comm (a b c : List Bool) : xorBits (xorBits a b) c = xorBits (xorBits a c) b := by
  rw [xorBits_assoc, xorBits_comm b, ← xorBits_assoc]

theorem xorBits_self (a : List Bool) : xorBits a a = zeroBlock a.length := by
  simp [xorBits, List.zipWith_self, List.map_const']

theorem xorBits_zero {z : Nat} {a : List Bool} (h : a.length = z) : xorBits a (zeroBlock z) = a :=
  List.ext_getElem (by simp [h]) fun n _ _ => by simp [xorBits]

theorem xorBits_cancel {a b : List Bool} (h : a.length = b.length) : xorBits (xorBits a b) b = a := by
  rw [xorBits_assoc, xorBits_self, xorBits_zero h]

/-- A sum of blocks is a block. -/
theorem foldl_xorBits_length {α : Type} {z : Nat} {f : α → List Bool} {l : List α} (hf : ∀ e ∈ l, (f e).length = z) {a : List Bool}
    (ha : a.length = z) : (l.foldl (fun a e => xorBits a (f e)) a).length = z := by
  induction l generalizing a with
  | nil => exact ha
  | cons e l ih =>
    obtain ⟨he, hl⟩ := List.forall_mem_cons.1 hf
    exact ih hl (by simp [ha, he])

/-- Sums of the same blocks are the same. -/
theorem foldl_xorBits_congr {α : Type} {f g : α → List Bool} {l : List α} (h : ∀ e ∈ l, f e = g e) (a : List Bool) :
    l.foldl (fun a e => xorBits a (f e)) a = l.foldl (fun a e => xorBits a (g e)) a := by
  induction l generalizing a with
  | nil => rfl
  | cons e l ih =>
    obtain ⟨he, hl⟩ := List.forall_mem_cons.1 h
    rw [List.foldl_cons, List.foldl_cons, he, ih hl]

/-! Blocks and their permutations (R219). -/

@[simp] theorem permBlock_length (x : Nat) (v : List Bool) : (permBlock x v).length = v.length := by
  simp only [permBlock, List.length_append, List.length_drop, List.length_take]
  omega

@[simp] theorem permBlock_zero (v : List Bool) : permBlock 0 v = v := by simp [permBlock]

theorem blockOf_length {z j : Nat} {u : List Bool} (hu : u.length = 16 * z) (hj : j < 16) : (blockOf z j u).length = z := by
  have hjz : j * z ≤ 15 * z := Nat.mul_le_mul_right z (by omega)
  simp only [blockOf, List.length_take, List.length_drop, hu]
  omega

/-! The parity blocks (R223). -/

/-- Parity block p[k]. -/
def parityBlock (z : Nat) (u : List Bool) (k : Nat) : List Bool := (parityBlocks z u).getD k []

/-- The sum of the first n row products. -/
def rowSum (z : Nat) (u : List Bool) (n : Nat) : List Bool := (List.range n).foldl (fun a i => xorBits a (rowProduct z u i)) (zeroBlock z)

theorem rowSum_succ (z : Nat) (u : List Bool) (n : Nat) : rowSum z u (n + 1) = xorBits (rowSum z u n) (rowProduct z u n) := by
  simp [rowSum, List.range_succ]

/-- What the encoding adds to p[k + 1] beside row product and p[k]: p[0] in row 7, the one row between 0 and 15 with column 16. -/
abbrev joined (z : Nat) (p0 : List Bool) (k : Nat) : List Bool := if k = 7 then p0 else zeroBlock z

theorem parityFrom_length (z : Nat) (u p0 : List Bool) (n k : Nat) (pk : List Bool) : (parityFrom z u p0 n k pk).length = n := by
  induction n generalizing k pk with
  | zero => rfl
  | succ n ih => simp [parityFrom, ih]

theorem parityBlocks_length (z : Nat) (u : List Bool) : (parityBlocks z u).length = 16 := by
  simp [parityBlocks, parityFrom_length]

theorem parityFrom_getD (z : Nat) (u p0 : List Bool) {n j : Nat} (hj : j < n) (k : Nat) (pk : List Bool) :
    (parityFrom z u p0 n k pk).getD j [] =
      xorBits (xorBits (rowProduct z u (k + j)) ((pk :: parityFrom z u p0 n k pk).getD j [])) (joined z p0 (k + j)) := by
  induction n generalizing j k pk with
  | zero => omega
  | succ n ih =>
    cases j with
    | zero => simp [parityFrom]
    | succ j =>
      have h := ih (Nat.lt_of_succ_lt_succ hj) (k + 1) (xorBits (xorBits (rowProduct z u k) pk) (joined z p0 k))
      rw [show k + 1 + j = k + (j + 1) by omega] at h
      simpa [parityFrom] using h

theorem parityBlock_zero (z : Nat) (u : List Bool) : parityBlock z u 0 = rowSum z u 16 := by
  rw [parityBlock, parityBlocks, List.getD_cons_zero, rowSum]

theorem parityBlock_one (z : Nat) (u : List Bool) :
    parityBlock z u 1 = xorBits (rowProduct z u 0) (permBlock (110 % z) (parityBlock z u 0)) := by
  rw [parityBlock_zero, parityBlock, parityBlocks, List.getD_cons_succ, List.getD_cons_zero, rowSum]

theorem parityBlock_add_two (z : Nat) (u : List Bool) (j : Nat) :
    parityBlock z u (j + 2) = (parityFrom z u (parityBlock z u 0) 14 1 (parityBlock z u 1)).getD j [] := by
  rw [parityBlock_one, parityBlock_zero, parityBlock, parityBlocks, List.getD_cons_succ, List.getD_cons_succ, rowSum]

theorem parityBlock_succ (z : Nat) (u : List Bool) {k : Nat} (h1 : 1 ≤ k) (hk : k < 15) :
    parityBlock z u (k + 1) = xorBits (xorBits (rowProduct z u k) (parityBlock z u k)) (joined z (parityBlock z u 0) k) := by
  obtain ⟨j, rfl⟩ := Nat.exists_eq_add_of_le' h1
  have hprev : (parityBlock z u 1 :: parityFrom z u (parityBlock z u 0) 14 1 (parityBlock z u 1)).getD j [] = parityBlock z u (j + 1) := by
    cases j with
    | zero => rw [List.getD_cons_zero]
    | succ j => rw [List.getD_cons_succ, ← parityBlock_add_two]
  rw [parityBlock_add_two, parityFrom_getD z u _ (show j < 14 by omega), Nat.add_comm 1 j, hprev]

section Lengths
variable {z : Nat} {u : List Bool} (hu : u.length = 16 * z)
include hu

theorem rowProduct_length (i : Nat) : (rowProduct z u i).length = z :=
  foldl_xorBits_length (fun e he => by
    rw [permBlock_length, blockOf_length hu (of_decide_eq_true (List.mem_filter.1 he).2)]) (by simp)

theorem rowSum_length (n : Nat) : (rowSum z u n).length = z :=
  foldl_xorBits_length (fun i _ => rowProduct_length hu i) (by simp)

theorem parityBlock_zero_length : (parityBlock z u 0).length = z := by rw [parityBlock_zero, rowSum_length hu]

theorem joined_length (k : Nat) : (joined z (parityBlock z u 0) k).length = z := by
  unfold joined
  split
  · exact parityBlock_zero_length hu
  · simp

theorem parityBlock_length {k : Nat} (hk : k < 16) : (parityBlock z u k).length = z := by
  induction k with
  | zero => exact parityBlock_zero_length hu
  | succ k ih =>
    rcases Nat.eq_zero_or_pos k with rfl | h1
    · simp [parityBlock_one, rowProduct_length hu, parityBlock_zero_length hu]
    · simp [parityBlock_succ z u h1 (by omega), rowProduct_length hu, ih (by omega), joined_length hu]

end Lengths

/-! The block rows (R218). -/

/-- The block of column c of the codeword. -/
def columnBlock (z : Nat) (u : List Bool) (c : Nat) : List Bool := if c < 16 then blockOf z c u else parityBlock z u (c - 16)

theorem columnBlock_info (z : Nat) (u : List Bool) {c : Nat} (hc : c < 16) : columnBlock z u c = blockOf z c u := if_pos hc

theorem columnBlock_parity (z : Nat) (u : List Bool) (k : Nat) : columnBlock z u (16 + k) = parityBlock z u k := by
  rw [columnBlock, if_neg (by omega), Nat.add_sub_cancel_left]

/-- The sum of the shifted blocks of a codeword over some entries of a block row, on from a block. -/
def entrySum (z : Nat) (u : List Bool) (es : List (Nat × Nat)) (a : List Bool) : List Bool :=
  es.foldl (fun a e => xorBits a (permBlock (e.2 % z) (columnBlock z u e.1))) a

@[simp] theorem entrySum_nil (z : Nat) (u a : List Bool) : entrySum z u [] a = a := rfl

@[simp] theorem entrySum_parity (z : Nat) (u a : List Bool) (k x : Nat) (es : List (Nat × Nat)) :
    entrySum z u ((16 + k, x) :: es) a = entrySum z u es (xorBits a (permBlock (x % z) (parityBlock z u k))) := by
  rw [← columnBlock_parity]
  rfl

@[simp] theorem entrySum_diagonal (z : Nat) (u a : List Bool) (k : Nat) (es : List (Nat × Nat)) :
    entrySum z u ((16 + k, 0) :: es) a = entrySum z u es (xorBits a (parityBlock z u k)) := by
  rw [entrySum_parity, Nat.zero_mod, permBlock_zero]

/-- The entries of a block row in the parity columns. -/
abbrev parityEntries (i : Nat) : List (Nat × Nat) := (hbRow i).filter fun e => decide (16 ≤ e.1)

/-- Each row lists its information columns first. -/
theorem hbRow_split : ∀ i < 16, hbRow i = ((hbRow i).filter fun e => decide (e.1 < 16)) ++ parityEntries i := by decide

/-- Columns 17 to 31 form a dual diagonal, and column 16 stands in rows 0, 7 and 15. -/
theorem parityEntries_first : parityEntries 0 = [(16 + 0, 110), (16 + 1, 0)] := by decide

theorem parityEntries_middle : ∀ i < 15, 1 ≤ i →
    parityEntries i = (if i = 7 then [(16 + 0, 0)] else []) ++ [(16 + i, 0), (16 + (i + 1), 0)] := by decide

theorem parityEntries_last : parityEntries 15 = [(16 + 0, 110), (16 + 15, 0)] := by decide

/-- The sum over a block row is its row product and then its parity columns. -/
theorem entrySum_hbRow (z : Nat) (u : List Bool) {i : Nat} (hi : i < 16) :
    entrySum z u (hbRow i) (zeroBlock z) = entrySum z u (parityEntries i) (rowProduct z u i) := by
  have hinfo : entrySum z u ((hbRow i).filter fun e => decide (e.1 < 16)) (zeroBlock z) = rowProduct z u i :=
    foldl_xorBits_congr (fun _ he => by rw [columnBlock_info z u (of_decide_eq_true (List.mem_filter.1 he).2)]) _
  conv => lhs; rw [hbRow_split i hi, entrySum, List.foldl_append]
  exact congrArg (entrySum z u (parityEntries i)) hinfo

section Checks
variable {z : Nat} {u : List Bool} (hu : u.length = 16 * z)
include hu

/-- Row 0 holds by the choice of p[1]. -/
theorem entrySum_hbRow_first : entrySum z u (hbRow 0) (zeroBlock z) = zeroBlock z := by
  rw [entrySum_hbRow z u (by decide), parityEntries_first, entrySum_parity, entrySum_diagonal, entrySum_nil, ← parityBlock_one, xorBits_self,
    parityBlock_length hu (by decide)]

/-- Row k between 0 and 15 holds by the choice of p[k + 1]. -/
theorem entrySum_hbRow_middle {k : Nat} (h1 : 1 ≤ k) (hk : k < 15) : entrySum z u (hbRow k) (zeroBlock z) = zeroBlock z := by
  have hsum : entrySum z u (parityEntries k) (rowProduct z u k) = xorBits (parityBlock z u (k + 1)) (parityBlock z u (k + 1)) := by
    have hrow : (xorBits (rowProduct z u k) (parityBlock z u k)).length = z := by
      simp [rowProduct_length hu, parityBlock_length hu (show k < 16 by omega)]
    have hnext := parityBlock_succ z u h1 hk
    rw [parityEntries_middle k hk h1]
    by_cases h7 : k = 7
    · rw [joined, if_pos h7] at hnext
      rw [if_pos h7, List.singleton_append, entrySum_diagonal, entrySum_diagonal, entrySum_diagonal, entrySum_nil, xorBits_right_comm _ _
        (parityBlock z u k), ← hnext]
    · rw [joined, if_neg h7, xorBits_zero hrow] at hnext
      rw [if_neg h7, List.nil_append, entrySum_diagonal, entrySum_diagonal, entrySum_nil, ← hnext]
  rw [entrySum_hbRow z u (by omega), hsum, xorBits_self, parityBlock_length hu (by omega)]

/-- The chain of the dual diagonal: p[k + 1] is the sum of row products 0 to k, the shifted p[0] of row 0 and, from row 7 on, p[0]. -/
theorem parityBlock_chain {k : Nat} (hk : k < 15) :
    parityBlock z u (k + 1) = xorBits (xorBits (rowSum z u (k + 1)) (permBlock (110 % z) (parityBlock z u 0)))
      (if 7 ≤ k then parityBlock z u 0 else zeroBlock z) := by
  have hp0 := parityBlock_zero_length hu
  induction k with
  | zero =>
    have hone : rowSum z u 1 = rowProduct z u 0 := (xorBits_comm _ _).trans (xorBits_zero (rowProduct_length hu 0))
    rw [parityBlock_one, hone, if_neg (by decide), xorBits_zero (by simp [rowProduct_length hu, hp0])]
  | succ k ih =>
    have hjoin : xorBits (if 7 ≤ k then parityBlock z u 0 else zeroBlock z) (joined z (parityBlock z u 0) (k + 1)) =
        if 7 ≤ k + 1 then parityBlock z u 0 else zeroBlock z := by
      rcases Nat.lt_trichotomy (k + 1) 7 with h | h | h
      · rw [joined, if_neg (by omega), if_neg (by omega), if_neg (by omega), xorBits_zero (by simp)]
      · rw [joined, if_neg (by omega), if_pos h, if_pos (by omega), xorBits_comm, xorBits_zero hp0]
      · rw [joined, if_pos (by omega), if_neg (by omega), if_pos (by omega), xorBits_zero hp0]
    have : Std.Associative xorBits := ⟨xorBits_assoc⟩
    have : Std.Commutative xorBits := ⟨xorBits_comm⟩
    rw [parityBlock_succ z u (by omega) hk, ih (by omega), ← hjoin, rowSum_succ z u (k + 1)]
    ac_rfl

/-- Row 15 holds because p[0] is the sum of all row products. -/
theorem entrySum_hbRow_last : entrySum z u (hbRow 15) (zeroBlock z) = zeroBlock z := by
  have hp0 : parityBlock z u 0 = xorBits (rowSum z u 15) (rowProduct z u 15) := by rw [parityBlock_zero, rowSum_succ]
  have hp15 : parityBlock z u 15 = xorBits (rowProduct z u 15) (permBlock (110 % z) (parityBlock z u 0)) := by
    have hp : (permBlock (110 % z) (parityBlock z u 0)).length = z := by rw [permBlock_length, parityBlock_zero_length hu]
    rw [parityBlock_chain hu (k := 14) (by decide), if_pos (by decide)]
    generalize permBlock (110 % z) (parityBlock z u 0) = p at hp ⊢
    have : Std.Associative xorBits := ⟨xorBits_assoc⟩
    have : Std.Commutative xorBits := ⟨xorBits_comm⟩
    calc xorBits (xorBits (rowSum z u 15) p) (parityBlock z u 0)
        = xorBits (xorBits (xorBits (rowProduct z u 15) p) (rowSum z u 15)) (rowSum z u 15) := by rw [hp0]; ac_rfl
      _ = xorBits (rowProduct z u 15) p := xorBits_cancel (by simp [rowProduct_length hu, rowSum_length hu, hp])
  rw [entrySum_hbRow z u (by decide), parityEntries_last, entrySum_parity, entrySum_diagonal, entrySum_nil, ← hp15, xorBits_self,
    parityBlock_length hu (by decide)]

end Checks

/-- Settles O57: the first row fixes p[1], each row of the dual diagonal the next parity block, and the last row holds by the sum of all rows. -/
theorem codewordMeetsChecks : Obligations.CodewordMeetsChecks := by
  rintro z u ⟨-, hu⟩
  refine ⟨parityBlocks_length z u, fun i hi => ?_⟩
  show entrySum z u (hbRow i) (zeroBlock z) = zeroBlock z
  obtain rfl | ⟨h1, h15⟩ | rfl : i = 0 ∨ (1 ≤ i ∧ i < 15) ∨ i = 15 := by omega
  · exact entrySum_hbRow_first hu
  · exact entrySum_hbRow_middle hu h1 h15
  · exact entrySum_hbRow_last hu

end Sys2Proof.Machine
end

section
/-! Settles O58: the scrambler as a register of 15 bits, and the wire positions of a Class A PPDU (R222, R233). -/
namespace Sys2Proof.Machine

/-! The scrambler's register (R222). -/

/-- The bit that a register gives, s[14] ⊕ s[13]. -/
def scrambleOut (x : BitVec 15) : Bool := x.getLsbD 14 ^^ x.getLsbD 13

/-- The register after it shifts that bit in. -/
def scrambleNext (x : BitVec 15) : BitVec 15 := (x <<< 1) ||| (if scrambleOut x then 1 else 0)

/-- The register after n bits. -/
def scrambleReg : Nat → BitVec 15 → BitVec 15
  | 0, x => x
  | n + 1, x => scrambleReg n (scrambleNext x)

theorem scrambleReg_succ (n : Nat) (x : BitVec 15) : scrambleReg (n + 1) x = scrambleNext (scrambleReg n x) := by
  induction n generalizing x with
  | zero => rfl
  | succ n ih => exact ih (scrambleNext x)

/-- The register as loaded for a codeword. -/
def scrambleLoad (c k : Nat) : BitVec 15 := BitVec.ofNat 1 1 ++ BitVec.ofNat 10 c ++ BitVec.ofNat 4 k

theorem scrambleLoad_toNat (c k : Nat) : (scrambleLoad c k).toNat = scrambleSeed c k := by
  have hload : (scrambleLoad c k).toNat = (1 <<< 10 ||| c % 2 ^ 10) <<< 4 ||| k % 2 ^ 4 := by
    simp only [scrambleLoad, BitVec.toNat_append, BitVec.toNat_ofNat]
  rw [hload, ← Nat.shiftLeft_add_eq_or_of_lt (Nat.mod_lt _ (by decide)), ← Nat.shiftLeft_add_eq_or_of_lt (Nat.mod_lt _ (by decide)),
    Nat.shiftLeft_eq, Nat.shiftLeft_eq, scrambleSeed]
  omega

theorem scrambleOut_toNat (x : BitVec 15) : (scrambleOut x).toNat = (x.toNat / 16384 + x.toNat / 8192) % 2 := by
  have hbit (i : Nat) : (x.getLsbD i).toNat = x.toNat / 2 ^ i % 2 := by rw [← BitVec.testBit_toNat, Nat.toNat_testBit]
  have hxor (a b : Bool) : (a ^^ b).toNat = (a.toNat + b.toNat) % 2 := by cases a <;> cases b <;> rfl
  simp only [scrambleOut, hxor, hbit, ← Nat.add_mod, Nat.reducePow]

theorem scrambleNext_toNat (x : BitVec 15) : (scrambleNext x).toNat = x.toNat * 2 % 32768 + (scrambleOut x).toNat := by
  have hshift : (x <<< 1).toNat = (x.toNat % 16384) <<< 1 := by
    rw [BitVec.toNat_shiftLeft, Nat.shiftLeft_eq, Nat.shiftLeft_eq]; omega
  have hbit : (if scrambleOut x then (1 : BitVec 15) else 0).toNat = (scrambleOut x).toNat := by cases scrambleOut x <;> rfl
  rw [scrambleNext, BitVec.toNat_or, hshift, hbit, ← Nat.shiftLeft_add_eq_or_of_lt (Bool.toNat_lt _), Nat.shiftLeft_eq]
  omega

/-- A sequence begins with its register's bit and goes on from the next register. -/
theorem scrambleSeq_succ (n : Nat) (x : BitVec 15) :
    scrambleSeq (n + 1) x.toNat = scrambleOut x :: scrambleSeq n (scrambleNext x).toNat := by
  rw [scrambleNext_toNat, scrambleOut_toNat, scrambleSeq, ← scrambleOut_toNat]
  cases scrambleOut x <;> rfl

theorem scrambleSeq_length (n s : Nat) : (scrambleSeq n s).length = n := by
  induction n generalizing s with
  | zero => rfl
  | succ n ih => simp [scrambleSeq, ih]

theorem scrambleSeq_getD {m n : Nat} (h : n < m) (x : BitVec 15) :
    (scrambleSeq m x.toNat).getD n false = scrambleOut (scrambleReg n x) := by
  induction m generalizing n x with
  | zero => omega
  | succ m ih =>
    rw [scrambleSeq_succ]
    cases n with
    | zero => rfl
    | succ n => exact ih (Nat.lt_of_succ_lt_succ h) (scrambleNext x)

theorem xorBits_getD {a b : List Bool} {n : Nat} (ha : n < a.length) (hb : n < b.length) :
    (xorBits a b).getD n false = (a.getD n false ^^ b.getD n false) := by
  have hn : n < (xorBits a b).length := by rw [xorBits_length]; omega
  simp only [List.getD_eq_getElem?_getD, List.getElem?_eq_getElem, ha, hb, hn, Option.getD_some]
  exact List.getElem_zipWith

theorem scramble_length (c k : Nat) (bs : List Bool) : (scramble c k bs).length = bs.length := by
  simp [scramble, scrambleSeq_length]

theorem scramble_scramble (c k : Nat) (bs : List Bool) : scramble c k (scramble c k bs) = bs := by
  rw [scramble, scramble_length, scramble, xorBits_cancel (scrambleSeq_length _ _).symm]

theorem scramble_getD (c k : Nat) {bs : List Bool} {n : Nat} (h : n < bs.length) :
    (scramble c k bs).getD n false = (bs.getD n false ^^ scrambleOut (scrambleReg n (scrambleLoad c k))) := by
  rw [scramble, xorBits_getD h (by rwa [scrambleSeq_length]), ← scrambleLoad_toNat, scrambleSeq_getD h]

/-! The wire positions of a Class A PPDU of 16 Q coded bits (R233). -/

theorem wirePos_mod (d l i : Nat) : wirePos d l i % 16 = i % 16 := by
  unfold wirePos; omega

theorem wirePos_div (d l i : Nat) : wirePos d l i / 16 = (i / 16 + i % 16 * d) % max (l / 16) 1 := by
  unfold wirePos; omega

/-- A delay modulo the number of rows keeps two rows apart. -/
theorem add_mod_cancel {a b c q : Nat} (ha : a < q) (hb : b < q) (h : (a + c) % q = (b + c) % q) : a = b := by
  have hab := Nat.sub_mod_eq_zero_of_mod_eq h
  have hba := Nat.sub_mod_eq_zero_of_mod_eq h.symm
  rw [Nat.add_sub_add_right, Nat.mod_eq_of_lt (by omega)] at hab hba
  omega

section Positions
variable {l i : Nat} (hl : l % 16 = 0) (hi : i < l)
include hl hi

theorem max_div_eq : max (l / 16) 1 = l / 16 := by omega

theorem wirePos_lt (d : Nat) : wirePos d l i < l := by
  have hrow : wirePos d l i / 16 < l / 16 := by
    rw [wirePos_div, max_div_eq hl hi]
    exact Nat.mod_lt _ (by omega)
  omega

/-- Bits of one branch are delayed alike, so they keep apart. -/
theorem wirePos_inj (d : Nat) {j : Nat} (hj : j < l) (h : wirePos d l j = wirePos d l i) : j = i := by
  have hbranch : j % 16 = i % 16 := by rw [← wirePos_mod d l j, h, wirePos_mod]
  have hrow : (j / 16 + i % 16 * d) % (l / 16) = (i / 16 + i % 16 * d) % (l / 16) := by
    have hdiv := congrArg (· / 16) h
    simpa only [wirePos_div, max_div_eq hl hi, hbranch] using hdiv
  have := add_mod_cancel (by omega) (by omega) hrow
  omega

theorem wirePos_zero : wirePos 0 l i = i := by
  have hrow : wirePos 0 l i / 16 = i / 16 := by
    rw [wirePos_div, max_div_eq hl hi, Nat.mul_zero, Nat.add_zero, Nat.mod_eq_of_lt (by omega)]
  have hbranch := wirePos_mod 0 l i
  omega

end Positions

theorem deinterleaveA_getD {l i : Nat} (hi : i < l) (d : Nat) (bs : List Int) :
    (deinterleaveA l d bs).getD i 0 = bs.getD (wirePos d l i) 0 := by
  simp [deinterleaveA, List.getD_eq_getElem?_getD, hi]

/-- Settles O58: the register after n bits is `scrambleReg` from its load, and a wire position keeps its branch. -/
theorem scramblerAndInterleaver : Obligations.ScramblerAndInterleaver :=
  ⟨fun c k bs => ⟨scramble_scramble c k bs, scramble_length c k bs, fun n => scrambleReg n (scrambleLoad c k), rfl,
      fun n => scrambleReg_succ n (scrambleLoad c k), fun _ hn => scramble_getD c k hn⟩,
    fun d _ _ ⟨hl, hi⟩ => ⟨wirePos_lt hl hi d, fun _ hj h => wirePos_inj hl hi d hj h, wirePos_zero hl hi,
      fun bs _ => deinterleaveA_getD hi d bs⟩⟩

end Sys2Proof.Machine
end

section
/-! SUPPORT. The endpoint records: a record found again after a change, what sending to endpoints leaves of the records and of the rest of the
state, and frames that complete (R305, R311, R358). -/
namespace Sys2Proof.Machine

/-! A record found again. -/

theorem recordAt_place {s : State} {c a : Nat} {r : Record} (h : recordAt s c a = some r) : r.circuit = c ∧ r.addr = some a := by
  simpa using List.find?_some h

theorem recordId_epId {s : State} {id : Nat} {r : Record} (h : recordId s id = some r) : r.epId = id := by simpa using List.find?_some h

theorem recordId_congr {s t : State} (h : t.link = s.link) (id : Nat) : recordId t id = recordId s id := by unfold recordId; rw [h]

/-- A change that keeps the identities reaches the record that its identity finds. -/
theorem found_modRecordId {id : Nat} {f : Record → Record} {s : State} {r : Record} (hr : recordId s id = some r)
    (hf : ∀ x, (f x).epId = x.epId) : recordId (modRecordId id f s) id = some (f r) := by
  have hkeeps : ((fun x : Record => x.epId == id) ∘ fun x => if x.epId = id then f x else x) = fun x => x.epId == id := by
    funext x
    simp only [Function.comp_apply]
    split <;> simp [hf]
  have hfind : s.link.records.find? (fun x => x.epId == id) = some r := hr
  show (s.link.records.map _).find? _ = _
  rw [List.find?_map, hkeeps, hfind, Option.map_some, if_pos (recordId_epId hr)]

/-- What the record of an identity has, found among what the records have. -/
theorem recordId_map_eq_find {β : Type} {g : Record → β} {p : β → Bool} {id : Nat} (h : ∀ r, p (g r) = (r.epId == id)) (s : State) :
    (recordId s id).map g = (s.link.records.map g).find? p := by
  rw [List.find?_map, show p ∘ g = fun r => r.epId == id from funext h]
  rfl

theorem modRecordId_sameBut (id : Nat) (f : Record → Record) (s : State) : SameBut [.link] s (modRecordId id f s) := by
  intro g hg; cases g <;> simp_all [Group.same, modRecordId, modRecords]

theorem modRecordId_link (id : Nat) (f : Record → Record) (s : State) :
    (modRecordId id f s).link = { s.link with records := s.link.records.map fun r => if r.epId = id then f r else r } := rfl

/-- What a change leaves of each record it leaves of all. -/
theorem map_modRecordId {β : Type} {g : Record → β} {f : Record → Record} (hf : ∀ r, g (f r) = g r) (id : Nat) (s : State) :
    (modRecordId id f s).link.records.map g = s.link.records.map g := by
  rw [modRecordId_link, List.map_map]
  refine List.map_congr_left fun r _ => ?_
  simp only [Function.comp_apply]
  split
  · exact hf r
  · rfl

theorem modCirc_sameBut (c : Nat) (f : Circuit → Circuit) (s : State) : SameBut [.circ] s (modCirc c f s) := setCirc_sameBut _ _ _

/-! The identities that have records. -/

/-- The same identities have records, in the same order. -/
abbrev SameIdentities (s t : State) : Prop := t.link.records.map (·.epId) = s.link.records.map (·.epId)

theorem SameIdentities.isSome_recordId {s t : State} (h : SameIdentities s t) (id : Nat) : (recordId t id).isSome = (recordId s id).isSome := by
  have hfind := recordId_map_eq_find (g := fun r => r.epId) (p := (· == id)) (id := id) fun _ => rfl
  have hsame : (recordId t id).map (·.epId) = (recordId s id).map (·.epId) := by rw [hfind, hfind, h]
  simpa using congrArg Option.isSome hsame

theorem modRecordId_identities {id : Nat} {f : Record → Record} (s : State) (hf : ∀ r, (f r).epId = r.epId) :
    SameIdentities s (modRecordId id f s) := map_modRecordId (g := fun r => r.epId) hf id s

theorem sameIdentities_of_sameBut {gs : List Group} {s t : State} (h : SameBut gs s t) (hlink : Group.link ∉ gs) : SameIdentities s t := by
  have : t.link = s.link := h .link hlink
  rw [SameIdentities, this]

/-! Sending to endpoints. -/

/-- A record but for its downlink queue and window and the training form of its downlinks, which sending changes (R181, R305). -/
def unqueued (r : Record) : Record := { r with dnNext := 0, sent := [], waiting := [], trainReq := false, lastTrain := none }

/-- From `s` to `t` no more was done than to send frames to endpoints: of the records their queues and windows may differ. -/
def SendsOnly (s t : State) : Prop :=
  SameBut [.link, .circ, .air, .keep, .aead, .out] s t ∧ t.link = { s.link with records := t.link.records }
    ∧ t.link.records.map unqueued = s.link.records.map unqueued

theorem SendsOnly.refl (s : State) : SendsOnly s s := ⟨sameBut_refl _ _, rfl, rfl⟩

theorem SendsOnly.trans {s t u : State} (h : SendsOnly s t) (k : SendsOnly t u) : SendsOnly s u := by
  obtain ⟨hsame, hlink, hrecords⟩ := h
  obtain ⟨ksame, klink, krecords⟩ := k
  exact ⟨(hsame.trans ksame).mono (by simp), by rw [klink, hlink], krecords.trans hrecords⟩

theorem SendsOnly.identities {s t : State} (h : SendsOnly s t) : SameIdentities s t := by
  obtain ⟨-, -, hrecords⟩ := h
  simpa [unqueued, Function.comp_def] using congrArg (List.map (·.epId)) hrecords

theorem sendsOnly_of_sameBut {s t : State} (h : SameBut [.circ, .air, .keep, .aead, .out] s t) : SendsOnly s t := by
  have hlink : t.link = s.link := h .link (by decide)
  exact ⟨h.mono (by simp), by rw [hlink], by rw [hlink]⟩

theorem sendsOnly_foldl {α : Type} {f : State → α → State} (h : ∀ t a, SendsOnly t (f t a)) (l : List α) (s : State) :
    SendsOnly s (l.foldl f s) := by
  induction l generalizing s with
  | nil => exact SendsOnly.refl s
  | cons a l ih => exact (h s a).trans (ih _)

theorem SendsOnly.quarantine {s t : State} (h : SendsOnly s t) : t.link.quarantine = s.link.quarantine := by
  obtain ⟨-, hlink, -⟩ := h
  rw [hlink]

/-- What sending leaves of the record that an identity finds. -/
theorem SendsOnly.recordId_unqueued {s t : State} (h : SendsOnly s t) (id : Nat) : (recordId t id).map unqueued = (recordId s id).map unqueued := by
  obtain ⟨-, -, hrecords⟩ := h
  have hfind := recordId_map_eq_find (g := unqueued) (p := fun r => r.epId == id) (id := id) fun _ => rfl
  rw [hfind, hfind, hrecords]

/-- What a downlink queue has no part in is as it was. -/
theorem SendsOnly.recordId_map {β : Type} {s t : State} {f : Record → β} (h : SendsOnly s t) (hf : ∀ r, f (unqueued r) = f r) (id : Nat) :
    (recordId t id).map f = (recordId s id).map f := by
  have := congrArg (Option.map f) (h.recordId_unqueued id)
  simpa only [Option.map_map, Function.comp_def, hf] using this

theorem modRecordId_sendsOnly {id : Nat} {f : Record → Record} (s : State) (hf : ∀ r, unqueued (f r) = unqueued r) :
    SendsOnly s (modRecordId id f s) := ⟨(modRecordId_sameBut id f s).mono (by simp), rfl, map_modRecordId hf id s⟩

theorem protect_sameBut (r : Record) (f : Frame) (s : State) : SameBut [.aead, .keep] s (protect r f s).2 := by
  unfold protect sealFrame
  dsimp only
  split
  · split
    · next huse =>
      split
      · exact useCounter_sameBut huse
      · exact sameBut_refl _ _
    · exact sameBut_refl _ _
  · exact sameBut_refl _ _

theorem sendOut_sameBut (c : Nat) (f : Frame) (text : Option (List Byte)) (o : Outgoing) (way : Way) (s : State) :
    SameBut [.air, .circ, .out] s (sendOut c f text o way s) := by
  have queued : ∀ l : List Outgoing, SameBut [.air] s { s with air := { s.air with outbox := l } } := fun l g hg => by
    cases g <;> simp_all [Group.same]
  unfold sendOut
  dsimp only
  refine (SameBut.trans (gs := [.air, .circ]) ?_ (emit_sameBut _ _)).mono (by simp)
  split
  · exact sameBut_refl _ _
  · split
    · exact (queued _).mono (by simp)
    · split
      · exact ((queued _).trans (modCirc_sameBut _ _ _)).mono (by simp)
      · exact (queued _).mono (by simp)

theorem sendOut_sendsOnly (c : Nat) (f : Frame) (text : Option (List Byte)) (o : Outgoing) (way : Way) (s : State) :
    SendsOnly s (sendOut c f text o way s) := sendsOnly_of_sameBut ((sendOut_sameBut c f text o way s).mono (by simp))

theorem sendFirst_sendsOnly (ep : Nat) (w : Waiting) (r : Record) (s : State) : SendsOnly s (sendFirst ep w r s) := by
  have hprotect : SendsOnly s (protect r (outgoing r w) s).2 := sendsOnly_of_sameBut ((protect_sameBut _ _ _).mono (by simp))
  refine (hprotect.trans (modRecordId_sendsOnly _ ?_)).trans (sendOut_sendsOnly _ _ _ _ _ _)
  exact fun _ => rfl

theorem pumpFrom_sendsOnly (n ep : Nat) (s : State) : SendsOnly s (pumpFrom n ep s) := by
  induction n generalizing s with
  | zero => exact SendsOnly.refl s
  | succ n ih =>
    unfold pumpFrom
    split
    · exact SendsOnly.refl s
    · split
      · exact SendsOnly.refl s
      · split
        · exact (sendFirst_sendsOnly _ _ _ _).trans (ih _)
        · exact SendsOnly.refl s

theorem pump_sendsOnly (ep : Nat) (s : State) : SendsOnly s (pump ep s) := pumpFrom_sendsOnly _ _ _

/-- With an empty queue nothing goes out. -/
theorem pump_of_empty {ep : Nat} {s : State} {r : Record} (h : recordId s ep = some r) (hw : r.waiting = []) : pump ep s = s := by
  simp [pump, h, hw, pumpFrom]

theorem sendControl_sendsOnly (ep : Nat) (ws : List Word) (s : State) : SendsOnly s (sendControl ep ws s) := by
  refine (modRecordId_sendsOnly s ?_).trans (pump_sendsOnly _ _)
  exact fun _ => rfl

theorem sendRelay_sendsOnly (ep : Nat) (s : State) : SendsOnly s (sendRelay ep s) := by
  unfold sendRelay
  split
  · exact SendsOnly.refl s
  · exact sendControl_sendsOnly _ _ _

theorem refreshRelays_sendsOnly (old s : State) : SendsOnly s (refreshRelays old s) := sendsOnly_foldl (fun t ep => sendRelay_sendsOnly ep t) _ _

/-! Frames that complete. -/

theorem modTxRing_sameBut (q : Nat) (f : Ring → Ring) (s : State) : SameBut [.host] s (modTxRing q f s) := by
  intro g hg; cases g <;> simp_all [Group.same, modTxRing, setTxRing]

theorem modRxRing_sameBut (q : Nat) (f : Ring → Ring) (s : State) : SameBut [.host] s (modRxRing q f s) := by
  intro g hg; cases g <;> simp_all [Group.same, modRxRing, setRxRing]

theorem withPair_sameBut (x : Pair) (s : State) : SameBut [.pair] s { s with pair := x } := by
  intro g hg; cases g <;> simp_all [Group.same]

/-- The ledger with one more frame completed (R374). -/
def ledgerCounted (status : Nat) (s : State) : State :=
  { s with pair := { s.pair with
    hfDelivered := s.pair.hfDelivered + (if status = 0 then 1 else 0), hfReturned := s.pair.hfReturned + (if status = 0 then 0 else 1)
    hfHeld := s.pair.hfHeld - 1 } }

/-- The ring of a frame that completed in `s` told of it (R355, R366). -/
def ringTold (f : TxFrame) (status : Nat) (s t : State) : State :=
  if 256 ≤ f.ring then t
  else
    let x := txRing t f.ring
    let u := modTxRing f.ring (fun x => { x with accepted := x.accepted - 1 }) t
    if x.state = .disabled ∨ hostReachable s = false then u
    else emit (.host (x.base.toNat + 32 * f.index + 24) (bytesLE (txWord3 f status s.sf.number))) (modTxRing f.ring (unsignal u.clk.now) u)

theorem completeTx_eq (f : TxFrame) (status : Nat) (s : State) : completeTx f status s = ringTold f status s (ledgerCounted status s) := rfl

theorem ringTold_sameBut (f : TxFrame) (status : Nat) (s t : State) : SameBut [.host, .out] t (ringTold f status s t) := by
  unfold ringTold
  dsimp only
  split
  · exact sameBut_refl _ _
  · split
    · exact (modTxRing_sameBut _ _ _).mono (by simp)
    · exact (((modTxRing_sameBut _ _ _).trans (modTxRing_sameBut _ _ _)).trans (emit_sameBut _ _)).mono (by simp)

theorem completeTx_sameBut (f : TxFrame) (status : Nat) (s : State) : SameBut [.pair, .host, .out] s (completeTx f status s) := by
  rw [completeTx_eq]
  exact ((withPair_sameBut _ s).trans (ringTold_sameBut f status s _)).mono (by simp)

theorem completeTx_returned (f : TxFrame) {status : Nat} (s : State) (h : status ≠ 0) :
    (completeTx f status s).pair.hfReturned = s.pair.hfReturned + 1 ∧ (completeTx f status s).pair.hfDelivered = s.pair.hfDelivered := by
  have hpair : (ringTold f status s (ledgerCounted status s)).pair = (ledgerCounted status s).pair := ringTold_sameBut _ _ _ _ .pair (by decide)
  rw [completeTx_eq, hpair]
  simp [ledgerCounted, h]

theorem returnFrames_sameBut (fs : List TxFrame) (status : Nat) (s : State) : SameBut [.pair, .host, .out] s (returnFrames fs status s) :=
  foldl_sameBut (fun t f => completeTx_sameBut f status t) fs s

theorem returnFrames_returned (fs : List TxFrame) {status : Nat} (s : State) (h : status ≠ 0) :
    (returnFrames fs status s).pair.hfReturned = s.pair.hfReturned + fs.length := by
  induction fs generalizing s with
  | nil => rfl
  | cons f fs ih =>
    show (returnFrames fs status (completeTx f status s)).pair.hfReturned = _
    rw [ih, (completeTx_returned f s h).1, List.length_cons]
    omega

theorem toRings_sameBut (fs : List RxFrame) (s : State) : SameBut [.host] s (toRings fs s) :=
  foldl_sameBut (fun t _ => modRxRing_sameBut _ _ t) fs s

/-! Records that end. -/

theorem dropOutgoing_sameBut (p : Outgoing → Bool) (s : State) : SameBut [.air] s (dropOutgoing p s) := by
  intro g hg; cases g <;> simp_all [Group.same, dropOutgoing]

theorem setRoute_sameBut (ep : Nat) (via : Option Nat) (s : State) : SameBut [.link] s (setRoute ep via s) := by
  intro g hg; cases g <;> simp_all [Group.same, setRoute, modRecords]

theorem withLink_sameBut (x : Links) (s : State) : SameBut [.link] s { s with link := x } := by
  intro g hg; cases g <;> simp_all [Group.same]

theorem release_sameBut (c : Nat) (a : Option Nat) (s : State) : SameBut [.link] s (release c a s) := by
  unfold release
  split
  · exact sameBut_refl _ _
  · exact withLink_sameBut _ _

theorem release_records (c : Nat) (a : Option Nat) (s : State) : (release c a s).link.records = s.link.records := by
  unfold release; split <;> rfl

/-- Both addresses of a record in quarantine (R289, R300). -/
def addressesReleased (r : Record) (s : State) : State := release r.circuit (r.newAddr.map (·.1)) (release r.circuit r.addr s)

theorem addressesReleased_sameBut (r : Record) (s : State) : SameBut [.link] s (addressesReleased r s) :=
  ((release_sameBut _ _ _).trans (release_sameBut _ _ _)).mono (by simp)

theorem recordId_addressesReleased (r : Record) (s : State) (id : Nat) : recordId (addressesReleased r s) id = recordId s id := by
  simp only [recordId, addressesReleased, release_records]

theorem quarantine_addressesReleased {r : Record} {a b n : Nat} (s : State) (ha : r.addr = some a) (hb : r.newAddr = some (b, n)) :
    (addressesReleased r s).link.quarantine = s.link.quarantine
      ++ [{ circuit := r.circuit, addr := a, untilSf := s.sf.number + 2 * (circOf s r.circuit).set.liveness },
        { circuit := r.circuit, addr := b, untilSf := s.sf.number + 2 * (circOf s r.circuit).set.liveness }] := by
  rw [addressesReleased, ha, hb]
  exact List.append_assoc _ _ _

theorem releaseHeld_sameBut (ep : Nat) (s : State) : SameBut [.link, .host] s (releaseHeld ep s) := by
  unfold releaseHeld
  split
  · exact sameBut_refl _ _
  · split
    · exact sameBut_refl _ _
    · exact ((modRecordId_sameBut _ _ _).trans (toRings_sameBut _ _)).mono (by simp)

end Sys2Proof.Machine
end

section
/-! SUPPORT. What the timers of a record do to it: retries, gaps, polls, re-addressing, waking and the end of a record (R289, R300 to R309). -/
namespace Sys2Proof.Machine

/-! The ACK timer (R307). -/

/-- An unacknowledged frame given up, which keeps its place in the window (R305). -/
def abandoned (ep : Nat) (x : Sent) (s : State) : State :=
  modRecordId ep (fun r => { r with sent := r.sent.map fun z => if z.seq = x.seq then { x with gone := true } else z }) s

/-- Its host, where it has one, hears of it (R311). -/
def hostTold (x : Sent) (s : State) : State :=
  match x.host with
  | some h => completeTx h txNoAck s
  | none => s

section Retry
variable {ep : Nat} {s : State} {r : Record} {x : Sent}

theorem retryOne_again (hr : recordId s ep = some r) (h : x.retries < 4) : SendsOnly s (retryOne ep x s) := by
  unfold retryOne
  rw [hr]
  dsimp only
  rw [if_pos h]
  refine (modRecordId_sendsOnly s ?_).trans (sendOut_sendsOnly _ _ _ _ _ _)
  exact fun _ => rfl

theorem retryOne_spent (hr : recordId s ep = some r) (h : 4 ≤ x.retries) :
    retryOne ep x s = if isSleepAck x.frame then fallAsleep ep (hostTold x (abandoned ep x s)) else hostTold x (abandoned ep x s) := by
  unfold retryOne
  rw [hr]
  dsimp only
  rw [if_neg (by omega)]
  rfl

theorem abandoned_leaves (ep : Nat) (x : Sent) (s : State) : SameBut [.link] s (abandoned ep x s) ∧ SameIdentities s (abandoned ep x s) :=
  ⟨modRecordId_sameBut _ _ _, modRecordId_identities s fun _ => rfl⟩

theorem hostTold_sameBut (x : Sent) (s : State) : SameBut [.pair, .host, .out] s (hostTold x s) := by
  unfold hostTold
  split
  · exact completeTx_sameBut _ _ _
  · exact sameBut_refl _ _

theorem hostTold_pair (x : Sent) (s : State) :
    (hostTold x s).pair.hfReturned = s.pair.hfReturned + (if x.host.isSome then 1 else 0) ∧ (hostTold x s).pair.hfDelivered = s.pair.hfDelivered := by
  unfold hostTold
  cases x.host with
  | none => exact ⟨rfl, rfl⟩
  | some h => exact completeTx_returned h s (by decide)

theorem fallAsleep_leaves (ep : Nat) (s : State) : SameBut [.link] s (fallAsleep ep s) ∧ SameIdentities s (fallAsleep ep s) :=
  ⟨modRecordId_sameBut _ _ _, modRecordId_identities s fun _ => by split <;> rfl⟩

/-- A frame given up leaves the records' identities and all but the links, the host's rings and the ledger. -/
theorem retryOne_spent_leaves (hr : recordId s ep = some r) (h : 4 ≤ x.retries) :
    SameBut [.link, .pair, .host, .out] s (retryOne ep x s) ∧ SameIdentities s (retryOne ep x s)
      ∧ (retryOne ep x s).pair = (hostTold x (abandoned ep x s)).pair := by
  obtain ⟨hsame, hids⟩ := abandoned_leaves ep x s
  have htold := hostTold_sameBut x (abandoned ep x s)
  have hids' := (sameIdentities_of_sameBut htold (by decide)).trans hids
  rw [retryOne_spent hr h]
  split
  · obtain ⟨ksame, kids⟩ := fallAsleep_leaves ep (hostTold x (abandoned ep x s))
    exact ⟨((hsame.trans htold).trans ksame).mono (by simp), kids.trans hids', ksame .pair (by decide)⟩
  · exact ⟨(hsame.trans htold).mono (by simp), hids', rfl⟩

theorem retryOne_of_no_record (hr : recordId s ep = none) : retryOne ep x s = s := by
  unfold retryOne; rw [hr]

theorem retryOne_leaves (ep : Nat) (x : Sent) (s : State) :
    SameBut [.link, .circ, .pair, .host, .air, .keep, .aead, .out] s (retryOne ep x s) ∧ SameIdentities s (retryOne ep x s) := by
  cases hr : recordId s ep with
  | none => rw [retryOne_of_no_record hr]; exact ⟨sameBut_refl _ _, rfl⟩
  | some r =>
    by_cases h : x.retries < 4
    · exact ⟨(retryOne_again hr h).1.mono (by simp), (retryOne_again hr h).identities⟩
    · obtain ⟨hsame, hids, -⟩ := retryOne_spent_leaves (x := x) hr (by omega)
      exact ⟨hsame.mono (by simp), hids⟩

/-- A host frame returns after its fourth retry, and no frame is delivered (R307, R311). -/
theorem retryOne_pair (hr : (recordId s ep).isSome = true) (x : Sent) :
    (retryOne ep x s).pair.hfReturned = s.pair.hfReturned + (if decide (4 ≤ x.retries) && x.host.isSome then 1 else 0)
      ∧ (retryOne ep x s).pair.hfDelivered = s.pair.hfDelivered := by
  obtain ⟨r, hr⟩ := Option.isSome_iff_exists.1 hr
  by_cases h : x.retries < 4
  · have hpair : (retryOne ep x s).pair = s.pair := (retryOne_again hr h).1 .pair (by decide)
    simp [hpair, show ¬4 ≤ x.retries by omega]
  · have hspent : 4 ≤ x.retries := by omega
    obtain ⟨-, -, hpair⟩ := retryOne_spent_leaves hr hspent
    have hbefore : (abandoned ep x s).pair = s.pair := rfl
    simpa [hpair, hspent, hbefore] using hostTold_pair x (abandoned ep x s)

/-- All frames that are due, one after the other. -/
theorem retryAll_pair (hr : (recordId s ep).isSome = true) (due : List Sent) :
    (due.foldl (fun t x => retryOne ep x t) s).pair.hfReturned
        = s.pair.hfReturned + (due.filter fun x => decide (4 ≤ x.retries) && x.host.isSome).length
      ∧ (due.foldl (fun t x => retryOne ep x t) s).pair.hfDelivered = s.pair.hfDelivered := by
  induction due generalizing s with
  | nil => exact ⟨rfl, rfl⟩
  | cons x due ih =>
    have hnext : (recordId (retryOne ep x s) ep).isSome = true := ((retryOne_leaves ep x s).2.isSome_recordId ep).trans hr
    obtain ⟨hret, hdel⟩ := retryOne_pair hr x
    obtain ⟨ihret, ihdel⟩ := ih hnext
    rw [List.foldl_cons, ihret, ihdel, hret, hdel, List.filter_cons]
    refine ⟨?_, rfl⟩
    split
    · rw [List.length_cons]; omega
    · omega

end Retry

/-- The frames whose ACK timer has lapsed (R307). -/
def dueFrames (s : State) (r : Record) : List Sent := r.sent.filter fun x => !x.gone && !x.out && decide (x.lastSf + 2 ≤ s.sf.number)

/-! How the commands complete. -/

theorem leaves_of_becomes {s e t : State} (h : Becomes s e t) : Leaves s e t := by
  obtain ⟨hframe, -, -, hpending⟩ := h
  exact ⟨hframe.mono (by simp), hpending⟩

/-- A command that counts on a circuit, its other effect leaving the circuits. -/
theorem completes_counted {gs : List Group} {i : Instr} {k : Ctr} {c : Nat} {s e : State} (h : exec i s = commit s (modCirc c (bump k) e))
    (he : SameBut gs s e) (hcirc : Group.circ ∉ gs) (hirq : Group.irq ∉ gs) :
    Completes i s fun t => circOf t c = bump k (circOf s c) ∧ (∀ d, d ≠ c → circOf t d = circOf s d) ∧ Alone (gs ++ [.circ]) s t
      ∧ t.link = e.link ∧ t.host = e.host := by
  have hbefore : ∀ d, circOf e d = circOf s d := fun d => circOf_congr (he .circ hcirc) d
  obtain ⟨t, ht, hself, hothers, halone, heffect⟩ := completes_circuit h (he.trans (modCirc_sameBut c (bump k) e)) (by simp [hirq])
    fun d hd => (circOf_setCirc_ne _ _ _ _ hd).trans (hbefore d)
  refine ⟨t, ht, hself.trans ((circOf_setCirc _ _ _).trans (by rw [hbefore])), hothers, halone, heffect .link (by decide), heffect .host (by decide)⟩

/-! Gaps (R309). -/

/-- BASE passes one SEQ (R309). -/
def pastBase (r : Record) : Record := { r with upBase := (r.upBase + 1) % 4096, upMap := r.upMap >>> 1 }

/-- BASE passes a SEQ whose frame is held, which is delivered (R309). -/
def pastHeld (r : Record) : Record :=
  { r with upBase := (r.upBase + 1) % 4096, upMap := r.upMap >>> 1, held := r.held.filter fun h => h.1 != r.upBase }

theorem bitOf_shift_one (w : Word) : bitOf (w >>> 1) 0 = bitOf w 1 := by simp [bitOf]

theorem advanceBase_at_gap {ep : Nat} {s : State} {r : Record} (n : Nat) (hr : recordId s ep = some r) (hgap : bitOf r.upMap 0 = false) :
    advanceBase n ep s = s := by
  cases n with
  | zero => rfl
  | succ n => unfold advanceBase; rw [hr]; dsimp only; rw [if_neg (by simp [hgap])]

theorem advanceBase_at_held {ep : Nat} {s : State} {r : Record} (n : Nat) (hr : recordId s ep = some r) (hheld : bitOf r.upMap 0 = true) :
    advanceBase (n + 1) ep s
      = advanceBase n ep (toRings ((r.held.filter fun h => h.1 == r.upBase).filterMap (·.2.2)) (modRecordId ep pastHeld s)) := by
  rw [advanceBase, hr]
  dsimp only
  rw [if_pos hheld]
  rfl

theorem advanceBase_sameBut (n ep : Nat) (s : State) : SameBut [.link, .host] s (advanceBase n ep s) := by
  induction n generalizing s with
  | zero => exact sameBut_refl _ _
  | succ n ih =>
    unfold advanceBase
    split
    · exact sameBut_refl _ _
    · split
      · exact (((modRecordId_sameBut _ _ _).trans (toRings_sameBut _ _)).trans (ih _)).mono (by simp)
      · exact sameBut_refl _ _

/-- What reaches the rings depends on the rings and their steering alone. -/
theorem toRings_host_congr (fs : List RxFrame) {s t : State} (h : t.host = s.host) : (toRings fs t).host = (toRings fs s).host := by
  induction fs generalizing s t with
  | nil => exact h
  | cons f fs ih => exact ih (by simp [toRing, steerRing, modRxRing, setRxRing, rxRing, h])

/-! Polls and re-addressing (R286, R303). -/

/-- A poll that began at `k` failed (R286). -/
def pollFailed (k : Nat) (r : Record) : Record := { r with polls := r.polls + 1, pollAt := k }

/-- Re-addressing begins in a superframe (R303). -/
def readdressing (n sf : Nat) (r : Record) : Record := { r with newAddr := some (n, sf), polls := 0, unused := 0, badTags := 0 }

theorem lowestFree_congr {s t : State} (h : t.link = s.link) (c : Nat) : lowestFree t c = lowestFree s c := by
  unfold lowestFree addrFree
  rw [h]

/-- Free addresses depend on the circuits and addresses of the records alone. -/
theorem lowestFree_modRecordId {f : Record → Record} (hf : ∀ r, (f r).circuit = r.circuit ∧ (f r).addr = r.addr ∧ (f r).newAddr = r.newAddr)
    (id c : Nat) (s : State) : lowestFree (modRecordId id f s) c = lowestFree s c := by
  have hfree : addrFree (modRecordId id f s) c = addrFree s c := by
    funext a
    unfold addrFree
    rw [modRecordId_link]
    dsimp only
    rw [List.any_map]
    congr 4
    funext r
    obtain ⟨hcirc, haddr, hnew⟩ := hf r
    simp only [Function.comp_apply]
    split
    · rw [hcirc, haddr, hnew]
    · rfl
  unfold lowestFree
  rw [hfree]

/-- The failed poll of a record, counted on its circuit too (R286). -/
def pollCounted (k c : Nat) (r : Record) (s : State) : State := modRecordId r.epId (pollFailed k) (modCirc c (bump .pollFail) s)

section Poll
variable {k c : Nat} {s : State} {r : Record}

theorem recordId_pollCounted (hr : recordId s r.epId = some r) : recordId (pollCounted k c r s) r.epId = some (pollFailed k r) :=
  found_modRecordId hr fun _ => rfl

theorem lowestFree_pollCounted (d : Nat) : lowestFree (pollCounted k c r s) d = lowestFree s d := by
  have hcounted : (modCirc c (bump .pollFail) s).link = s.link := rfl
  rw [pollCounted, lowestFree_modRecordId (f := pollFailed k) fun _ => ⟨rfl, rfl, rfl⟩, lowestFree_congr hcounted]

theorem pollCounted_sameBut : SameBut [.circ, .link] s (pollCounted k c r s) := (modCirc_sameBut _ _ _).trans (modRecordId_sameBut _ _ _)

theorem poll_counts {i : Instr} (hr : recordId s r.epId = some r) (hexec : exec i s = commit s (pollCounted k c r s)) :
    Completes i s fun t =>
      recordId t r.epId = some { r with polls := r.polls + 1, pollAt := k } ∧ circOf t c = bump .pollFail (circOf s c)
      ∧ (∀ d, d ≠ c → circOf t d = circOf s d) ∧ Alone [.link, .circ] s t := by
  have hlinked : exec i s = commit s (modCirc c (bump .pollFail) (modRecordId r.epId (pollFailed k) s)) := hexec
  have hfound : recordId (modRecordId r.epId (pollFailed k) s) r.epId = some (pollFailed k r) := found_modRecordId hr fun _ => rfl
  refine (completes_counted hlinked (modRecordId_sameBut _ _ _) (by decide) (by decide)).imp ?_
  exact fun t ⟨hself, hothers, halone, hlink, _⟩ => ⟨(recordId_congr hlink _).trans hfound, hself, hothers, halone⟩

end Poll

theorem startReaddress_barred {ep : Nat} {s : State} {r : Record} (hr : recordId s ep = some r)
    (h : r.state ≠ .active ∨ r.newAddr.isSome = true ∨ lowestFree s r.circuit = none) : startReaddress ep s = s := by
  unfold startReaddress
  rw [hr]
  dsimp only
  split
  · rfl
  · next hidle =>
    rw [not_or] at hidle
    obtain ⟨hactive, hnone⟩ := hidle
    rw [h.resolve_left hactive |>.resolve_left hnone]

theorem startReaddress_starts {ep n : Nat} {s : State} {r : Record} (hr : recordId s ep = some r) (hactive : r.state = .active)
    (hnew : r.newAddr = none) (hfree : lowestFree s r.circuit = some n) :
    startReaddress ep s = sendControl ep [fieldAt 63 56 4 ||| fieldAt 55 44 n] (modRecordId ep (readdressing n s.sf.number) s) := by
  unfold startReaddress
  rw [hr]
  dsimp only
  rw [if_neg (by simp [hactive, hnew]), hfree]
  rfl

/-- A record without an address, its host frames returned (R289, R303). -/
def absented (r : Record) : Record := { r with state := .absent, addr := none, newAddr := none, sent := [], waiting := r.waiting.filter (·.host.isNone) }

/-- A record made ABSENT, its addresses in quarantine and its frames returned, before the repeaters hear of it (R289, R303, R311). -/
def withdrawn (r : Record) (s : State) : State :=
  returnFrames (hostFrames r) txAbsent (dropOutgoing (toRecord r) (modRecordId r.epId absented (addressesReleased r s)))

theorem absentRecord_eq {s : State} {r : Record} (hr : recordId s r.epId = some r) :
    absentRecord r.epId s = refreshRelays s (withdrawn r s) := by
  unfold absentRecord; rw [hr]; rfl

theorem withdrawn_sameBut (r : Record) (s : State) : SameBut [.link, .pair, .host, .air, .out] s (withdrawn r s) :=
  ((((addressesReleased_sameBut r s).trans (modRecordId_sameBut _ _ _)).trans (dropOutgoing_sameBut _ _)).trans (returnFrames_sameBut _ _ _)).mono
    (by simp)

theorem withdrawn_link (r : Record) (s : State) : (withdrawn r s).link = (modRecordId r.epId absented (addressesReleased r s)).link :=
  returnFrames_sameBut _ _ _ .link (by decide)

theorem withdrawn_returned (r : Record) (s : State) : (withdrawn r s).pair.hfReturned = s.pair.hfReturned + (hostFrames r).length := by
  have hbefore : (addressesReleased r s).pair = s.pair := addressesReleased_sameBut r s .pair (by decide)
  rw [← hbefore]
  exact returnFrames_returned _ _ (by decide)

theorem recordId_withdrawn {s : State} {r : Record} (hr : recordId s r.epId = some r) : recordId (withdrawn r s) r.epId = some (absented r) := by
  rw [recordId_congr (withdrawn_link r s)]
  exact found_modRecordId ((recordId_addressesReleased r s _).trans hr) fun _ => rfl

/-- A record of an endpoint that woke: the ACK timers go on from where they paused (R302). -/
def woken (sf wake : Nat) (r : Record) : Record :=
  { r with state := .active, wakeSf := wake, sent := r.sent.map fun x => { x with lastSf := x.lastSf + (sf - r.asleepSf) } }

theorem wakeRecord_eq (ep wake : Nat) (s : State) : wakeRecord ep wake s = pump ep (modRecordId ep (woken s.sf.number wake) s) := rfl

/-! The end of a record (R289). -/

/-- The state without the records of an identity. -/
def withoutRecord (ep : Nat) (s : State) : State := { s with link := { s.link with records := s.link.records.filter fun x => x.epId != ep } }

theorem recordId_withoutRecord (ep : Nat) (s : State) : recordId (withoutRecord ep s) ep = none := by simp [recordId, withoutRecord]

/-- A record leaves, its addresses, frames and routes having been seen to, and then the repeaters hear of it. -/
theorem deleteRecord_eq {ep : Nat} {s : State} {r : Record} (hr : recordId s ep = some r) :
    ∃ u, SameBut [.link, .host, .pair, .out, .air] s u ∧ deleteRecord ep s = refreshRelays s (withoutRecord ep u) := by
  refine ⟨setRoute ep none (dropOutgoing (toRecord r) (returnFrames (hostFrames r) txNoEndpoint
    (addressesReleased r (releaseHeld ep s)))), ?_, ?_⟩
  · have hreturned := ((releaseHeld_sameBut ep s).trans (addressesReleased_sameBut r _)).trans (returnFrames_sameBut (hostFrames r) txNoEndpoint _)
    exact ((hreturned.trans (dropOutgoing_sameBut _ _)).trans (setRoute_sameBut _ _ _)).mono (by simp)
  · unfold deleteRecord; rw [hr]; rfl

theorem deleteRecord_sameBut {ep : Nat} {s : State} {r : Record} (hr : recordId s ep = some r) :
    SameBut [.link, .circ, .pair, .host, .air, .keep, .aead, .out] s (deleteRecord ep s) := by
  obtain ⟨u, hsame, he⟩ := deleteRecord_eq hr
  rw [he]
  exact ((hsame.trans (withLink_sameBut _ u)).trans (refreshRelays_sendsOnly s (withoutRecord ep u)).1).mono (by simp)

theorem recordId_deleteRecord {ep : Nat} {s : State} {r : Record} (hr : recordId s ep = some r) : recordId (deleteRecord ep s) ep = none := by
  obtain ⟨u, -, he⟩ := deleteRecord_eq hr
  have hleft := (refreshRelays_sendsOnly s (withoutRecord ep u)).recordId_unqueued ep
  rw [he]
  simpa [recordId_withoutRecord] using hleft

end Sys2Proof.Machine
end

section
/-! Settles O46: the timers of an endpoint's record, one lemma for each clause. -/
namespace Sys2Proof.Machine

section Record
variable {s : State} {c a : Nat} {r : Record} (hx : circuitExists s c = true) (ha : recordAt s c a = some r)
include hx

/-! What each command does with the record that its address finds. -/

/-- At an address that no record holds there is no timer. -/
theorem timer_of_no_record (hnone : recordAt s c a = none) {i : Instr}
    (hi : i ∈ [Instr.ackTimerExpiry c a, .gapSkip c a, .pollAnswerTimeout c a, .readdressTimeout c a, .sleepWake c a]) :
    Completes i s fun t => t = s := by
  refine completes_unchanged ?_
  simp only [List.mem_cons, List.not_mem_nil, or_false] at hi
  rcases hi with rfl | rfl | rfl | rfl | rfl <;> exact (onObject_true hx).trans (by rw [hnone])

include ha

theorem exec_ackTimerExpiry :
    exec (.ackTimerExpiry c a) s = commit s (if r.state ≠ .active ∨ sendsAllowed s = false then s
      else pump r.epId (modRecordId r.epId (closeGone s) ((dueFrames s r).foldl (fun t x => retryOne r.epId x t) s))) :=
  (onObject_true hx).trans (by rw [ha]; rfl)

theorem exec_gapSkip {n : Nat} (hn : gapSince r = some n) :
    exec (.gapSkip c a) s = commit s (if s.sf.number < n + 12 then s
      else modCirc c (bump .gapSkip) (advanceBase 64 r.epId (modRecordId r.epId pastBase s))) :=
  (onObject_true hx).trans (by rw [ha]; dsimp only; rw [hn]; rfl)

theorem exec_pollAnswerTimeout {k : Nat} (hk : pollUnanswered s r a = some k) :
    exec (.pollAnswerTimeout c a) s
      = commit s (if 3 ≤ r.polls + 1 then startReaddress r.epId (pollCounted k c r s) else pollCounted k c r s) :=
  (onObject_true hx).trans (by rw [ha]; dsimp only; rw [hk]; rfl)

theorem exec_readdressTimeout {b n : Nat} (hb : r.newAddr = some (b, n)) :
    exec (.readdressTimeout c a) s = commit s (if n + 4 < s.sf.number then absentRecord r.epId s else s) :=
  (onObject_true hx).trans (by rw [ha]; dsimp only; rw [hb])

theorem exec_sleepWake :
    exec (.sleepWake c a) s = commit s (if r.state = .asleep ∧ r.wakeSf ≤ s.sf.number then wakeRecord r.epId r.wakeSf s else s) :=
  (onObject_true hx).trans (by rw [ha])

/-! Timers that have not run down. -/

theorem ackTimer_ignored (h : r.state ≠ .active ∨ sendsAllowed s = false) : Completes (.ackTimerExpiry c a) s fun t => t = s :=
  completes_unchanged (by rw [exec_ackTimerExpiry hx ha, if_pos h])

theorem gapSkip_ignored (h : gapSince r = none ∨ (∃ n, gapSince r = some n ∧ s.sf.number < n + 12)) :
    Completes (.gapSkip c a) s fun t => t = s := by
  refine completes_unchanged ?_
  rcases h with hnone | ⟨n, hn, hearly⟩
  · exact (onObject_true hx).trans (by rw [ha]; dsimp only; rw [hnone])
  · rw [exec_gapSkip hx ha hn, if_pos hearly]

theorem poll_ignored (hnone : pollUnanswered s r a = none) : Completes (.pollAnswerTimeout c a) s fun t => t = s :=
  completes_unchanged ((onObject_true hx).trans (by rw [ha]; dsimp only; rw [hnone]))

theorem readdress_ignored (h : r.newAddr = none ∨ (∃ b n, r.newAddr = some (b, n) ∧ s.sf.number ≤ n + 4)) :
    Completes (.readdressTimeout c a) s fun t => t = s := by
  refine completes_unchanged ?_
  rcases h with hnone | ⟨b, n, hb, hearly⟩
  · exact (onObject_true hx).trans (by rw [ha]; dsimp only; rw [hnone])
  · rw [exec_readdressTimeout hx ha hb, if_neg (by omega)]

theorem sleepWake_ignored (h : r.state ≠ .asleep ∨ s.sf.number < r.wakeSf) : Completes (.sleepWake c a) s fun t => t = s := by
  refine completes_unchanged ?_
  rw [exec_sleepWake hx ha, if_neg]
  rintro ⟨hasleep, hdue⟩
  rcases h with h | h
  · exact h hasleep
  · omega

/-! Timers that have run down. -/

theorem gapSkip_counts {n : Nat} (hn : gapSince r = some n) (hdue : n + 12 ≤ s.sf.number) :
    Completes (.gapSkip c a) s fun t =>
      circOf t c = bump .gapSkip (circOf s c) ∧ (∀ d, d ≠ c → circOf t d = circOf s d) ∧ Alone [.link, .circ, .host] s t := by
  have hexec := exec_gapSkip hx ha hn
  rw [if_neg (by omega)] at hexec
  refine (completes_counted hexec ((modRecordId_sameBut _ _ _).trans (advanceBase_sameBut _ _ _)) (by decide) (by decide)).imp ?_
  exact fun t ⟨hself, hothers, ⟨hframe, hirq⟩, _⟩ => ⟨hself, hothers, hframe.mono (by simp), hirq⟩

section Found
variable (hr : recordId s r.epId = some r)
include hr

theorem ackTimer_retries (hactive : r.state = .active) (hsends : sendsAllowed s = true) :
    Completes (.ackTimerExpiry c a) s fun t =>
      Leaves s (pump r.epId (modRecordId r.epId (closeGone s) ((dueFrames s r).foldl (fun t x => retryOne r.epId x t) s))) t
      ∧ t.pair.hfReturned = s.pair.hfReturned + ((dueFrames s r).filter fun x => decide (4 ≤ x.retries) && x.host.isSome).length
      ∧ t.pair.hfDelivered = s.pair.hfDelivered ∧ (dueFrames s r = [] → r.waiting = [] → recordId t r.epId = some (closeGone s r))
      ∧ SameBut [.link, .circ, .pair, .host, .air, .keep, .aead, .irq, .out] s t := by
  refine completes_of_exec (by rw [exec_ackTimerExpiry hx ha, if_neg (by simp [hactive, hsends])]) fun t ht => ?_
  obtain ⟨hret, hdel⟩ := retryAll_pair (by rw [hr]; rfl) (dueFrames s r)
  have hretried := foldl_sameBut (fun t x => (retryOne_leaves r.epId x t).1) (dueFrames s r) s
  generalize hu : (dueFrames s r).foldl (fun t x => retryOne r.epId x t) s = u at *
  have hclosed := modRecordId_sameBut r.epId (closeGone s) u
  have hpumped := (pump_sendsOnly r.epId (modRecordId r.epId (closeGone s) u)).1
  have hpair : t.pair = u.pair := (ht.1 .pair (by decide)).trans (hpumped .pair (by decide))
  refine ⟨leaves_of_becomes ht, by rw [hpair, hret], by rw [hpair, hdel], fun hnone hempty => ?_,
    (becomes_same ((hretried.trans hclosed).trans hpumped) ht).mono (by simp)⟩
  rw [hnone, List.foldl_nil] at hu
  subst hu
  have hfound : recordId (modRecordId r.epId (closeGone s) s) r.epId = some (closeGone s r) := found_modRecordId hr fun _ => rfl
  rw [recordId_congr (ht.1 .link (by decide)), pump_of_empty hfound hempty, hfound]

theorem gapSkip_passes {n : Nat} (hn : gapSince r = some n) (hdue : n + 12 ≤ s.sf.number) (hgap : bitOf r.upMap 1 = false) :
    Completes (.gapSkip c a) s fun t =>
      recordId t r.epId = some { r with upBase := (r.upBase + 1) % 4096, upMap := r.upMap >>> 1 } ∧ Alone [.link, .circ] s t := by
  have hfound : recordId (modRecordId r.epId pastBase s) r.epId = some (pastBase r) := found_modRecordId hr fun _ => rfl
  have hexec := exec_gapSkip hx ha hn
  rw [if_neg (by omega), advanceBase_at_gap 64 hfound ((bitOf_shift_one r.upMap).trans hgap)] at hexec
  refine (completes_counted hexec (modRecordId_sameBut _ _ _) (by decide) (by decide)).imp ?_
  exact fun t ⟨_, _, halone, hlink, _⟩ => ⟨(recordId_congr hlink _).trans hfound, halone⟩

theorem gapSkip_delivers {n : Nat} (hn : gapSince r = some n) (hdue : n + 12 ≤ s.sf.number) (hmap : r.upMap = 2) :
    Completes (.gapSkip c a) s fun t =>
      (recordId t r.epId).map (fun y => (y.upBase, y.upMap)) = some (((r.upBase + 1) % 4096 + 1) % 4096, 0)
      ∧ t.host = (toRings ((r.held.filter fun h => h.1 == (r.upBase + 1) % 4096).filterMap (·.2.2)) s).host := by
  have hpast : recordId (modRecordId r.epId pastBase s) r.epId = some (pastBase r) := found_modRecordId hr fun _ => rfl
  have hheld : bitOf (pastBase r).upMap 0 = true := by simp only [pastBase, hmap]; decide
  generalize hfs : (r.held.filter fun h => h.1 == (r.upBase + 1) % 4096).filterMap (·.2.2) = fs
  have hadvance := advanceBase_at_held 63 hpast hheld
  have hfound : recordId (toRings fs (modRecordId r.epId pastHeld (modRecordId r.epId pastBase s))) r.epId = some (pastHeld (pastBase r)) := by
    rw [recordId_congr (toRings_sameBut fs _ .link (by decide)), found_modRecordId (f := pastHeld) hpast fun _ => rfl]
  have hmap' : (pastHeld (pastBase r)).upMap = 0 := by simp only [pastHeld, pastBase, hmap]; decide
  rw [show ((pastBase r).held.filter fun h => h.1 == (pastBase r).upBase).filterMap (·.2.2) = fs from hfs,
    advanceBase_at_gap 63 hfound (by rw [hmap']; decide)] at hadvance
  have hexec := exec_gapSkip hx ha hn
  rw [if_neg (by omega), hadvance] at hexec
  refine (completes_counted hexec (((modRecordId_sameBut _ _ _).trans (modRecordId_sameBut _ _ _)).trans (toRings_sameBut _ _)) (by decide)
    (by decide)).imp ?_
  rintro t ⟨-, -, -, hlink, hhost⟩
  refine ⟨?_, hhost.trans (toRings_host_congr fs rfl)⟩
  rw [recordId_congr hlink, hfound, Option.map_some, hmap']
  rfl

theorem poll_fails {k : Nat} (hk : pollUnanswered s r a = some k) (hpolls : r.polls < 2) :
    Completes (.pollAnswerTimeout c a) s fun t =>
      recordId t r.epId = some { r with polls := r.polls + 1, pollAt := k } ∧ circOf t c = bump .pollFail (circOf s c)
      ∧ (∀ d, d ≠ c → circOf t d = circOf s d) ∧ Alone [.link, .circ] s t :=
  poll_counts hr (by rw [exec_pollAnswerTimeout hx ha hk, if_neg (by omega)])

theorem poll_readdresses {k n : Nat} (hk : pollUnanswered s r a = some k) (hpolls : 2 ≤ r.polls) (hactive : r.state = .active)
    (hnew : r.newAddr = none) (hfree : lowestFree s c = some n) :
    Completes (.pollAnswerTimeout c a) s fun t =>
      (recordId t r.epId).map (fun y => (y.newAddr, y.addr, y.polls)) = some (some (n, s.sf.number), some a, 0)
      ∧ SameBut [.link, .circ, .air, .keep, .aead, .irq, .out] s t := by
  obtain ⟨hcirc, haddr⟩ := recordAt_place ha
  have hlowest : lowestFree (pollCounted k c r s) r.circuit = some n := by rw [lowestFree_pollCounted, hcirc, hfree]
  have hnumber : (pollCounted k c r s).sf = s.sf := rfl
  have hexec := exec_pollAnswerTimeout hx ha hk
  rw [if_pos (by omega), startReaddress_starts (recordId_pollCounted hr) hactive hnew hlowest, hnumber] at hexec
  have hsent := sendControl_sendsOnly r.epId [fieldAt 63 56 4 ||| fieldAt 55 44 n]
    (modRecordId r.epId (readdressing n s.sf.number) (pollCounted k c r s))
  refine completes_of_exec hexec fun t ht => ⟨?_,
    (becomes_same ((pollCounted_sameBut.trans (modRecordId_sameBut _ _ _)).trans hsent.1) ht).mono (by simp)⟩
  rw [recordId_congr (ht.1 .link (by decide)), hsent.recordId_map (fun _ => rfl),
    found_modRecordId (f := readdressing n s.sf.number) (recordId_pollCounted hr) fun _ => rfl, ← haddr]
  rfl

theorem poll_barred {k : Nat} (hk : pollUnanswered s r a = some k) (hpolls : 2 ≤ r.polls)
    (h : r.state ≠ .active ∨ r.newAddr.isSome = true ∨ lowestFree s c = none) :
    Completes (.pollAnswerTimeout c a) s fun t =>
      recordId t r.epId = some { r with polls := r.polls + 1, pollAt := k } ∧ circOf t c = bump .pollFail (circOf s c) ∧ Alone [.link, .circ] s t := by
  have hlowest : lowestFree (pollCounted k c r s) r.circuit = lowestFree s c := by rw [lowestFree_pollCounted, (recordAt_place ha).1]
  have hexec := exec_pollAnswerTimeout hx ha hk
  rw [if_pos (by omega), startReaddress_barred (recordId_pollCounted hr) (hlowest.symm ▸ h)] at hexec
  exact (poll_counts hr hexec).imp fun t ⟨hfound, hself, _, halone⟩ => ⟨hfound, hself, halone⟩

theorem readdress_gives_up {b n : Nat} (hb : r.newAddr = some (b, n)) (hdue : n + 4 < s.sf.number) :
    Completes (.readdressTimeout c a) s fun t =>
      (recordId t r.epId).map (fun y => (y.state, y.addr, y.newAddr)) = some (.absent, none, none)
      ∧ t.link.quarantine = s.link.quarantine ++ [{ circuit := c, addr := a, untilSf := s.sf.number + 2 * (circOf s c).set.liveness },
          { circuit := c, addr := b, untilSf := s.sf.number + 2 * (circOf s c).set.liveness }]
      ∧ t.pair.hfReturned = s.pair.hfReturned + (hostFrames r).length
      ∧ SameBut [.link, .circ, .pair, .host, .air, .keep, .aead, .irq, .out] s t := by
  obtain ⟨hcirc, haddr⟩ := recordAt_place ha
  have hexec := exec_readdressTimeout hx ha hb
  rw [if_pos hdue, absentRecord_eq hr] at hexec
  have hsent := refreshRelays_sendsOnly s (withdrawn r s)
  refine completes_of_exec hexec fun t ht => ⟨?_, ?_, ?_, (becomes_same ((withdrawn_sameBut r s).trans hsent.1) ht).mono (by simp)⟩
  · rw [recordId_congr (ht.1 .link (by decide)), hsent.recordId_map (fun _ => rfl), recordId_withdrawn hr]
    rfl
  · have hquarantine : t.link.quarantine = (withdrawn r s).link.quarantine :=
      (congrArg Links.quarantine (ht.1 .link (by decide))).trans hsent.quarantine
    rw [hquarantine, withdrawn_link, ← hcirc]
    exact quarantine_addressesReleased s haddr hb
  · have hpair : t.pair = (withdrawn r s).pair := (ht.1 .pair (by decide)).trans (hsent.1 .pair (by decide))
    rw [hpair, withdrawn_returned]

theorem sleepWake_wakes (hasleep : r.state = .asleep) (hdue : r.wakeSf ≤ s.sf.number) :
    Completes (.sleepWake c a) s fun t =>
      (recordId t r.epId).map (fun y => (y.state, y.addr, y.wakeSf)) = some (.active, some a, r.wakeSf)
      ∧ (r.waiting = [] → recordId t r.epId = some { r with
          state := .active, sent := r.sent.map fun x => { x with lastSf := x.lastSf + (s.sf.number - r.asleepSf) } })
      ∧ SameBut [.link, .circ, .air, .keep, .aead, .irq, .out] s t := by
  have hexec := exec_sleepWake hx ha
  rw [if_pos ⟨hasleep, hdue⟩, wakeRecord_eq] at hexec
  have hwoken : recordId (modRecordId r.epId (woken s.sf.number r.wakeSf) s) r.epId = some (woken s.sf.number r.wakeSf r) := found_modRecordId hr fun _ => rfl
  have hpumped := pump_sendsOnly r.epId (modRecordId r.epId (woken s.sf.number r.wakeSf) s)
  refine completes_of_exec hexec fun t ht => ?_
  have hlink := ht.1 .link (by decide)
  refine ⟨?_, fun hempty => ?_, (becomes_same ((modRecordId_sameBut _ _ _).trans hpumped.1) ht).mono (by simp)⟩
  · rw [recordId_congr hlink, hpumped.recordId_map (fun _ => rfl), hwoken, ← (recordAt_place ha).2]
    rfl
  · rw [recordId_congr hlink, pump_of_empty hwoken hempty, hwoken]
    rfl

end Found
end Record

/-! Quarantines and records that are not heard. -/

/-- The quarantine of an address has run out (R300). -/
def quarantineOver (s : State) (c a : Nat) (q : Quarantine) : Bool := q.circuit == c && q.addr == a && decide (q.untilSf ≤ s.sf.number)

theorem quarantineOver_iff {s : State} {c a : Nat} {q : Quarantine} :
    quarantineOver s c a q = true ↔ q.circuit = c ∧ q.addr = a ∧ q.untilSf ≤ s.sf.number := by simp [quarantineOver, and_assoc]

theorem exec_quarantineExpiry {s : State} {c : Nat} (a : Nat) (hx : circuitExists s c = true) :
    exec (.quarantineExpiry c a) s
      = commit s { s with link := { s.link with quarantine := s.link.quarantine.filter fun q => !quarantineOver s c a q } } := onObject_true hx

theorem quarantine_ends {s : State} {c : Nat} (a : Nat) (hx : circuitExists s c = true) :
    Completes (.quarantineExpiry c a) s fun t =>
      (∀ q, q ∈ t.link.quarantine ↔ q ∈ s.link.quarantine ∧ ¬(q.circuit = c ∧ q.addr = a ∧ q.untilSf ≤ s.sf.number))
      ∧ t.link = { s.link with quarantine := t.link.quarantine } ∧ Alone [.link] s t := by
  refine completes_of_exec (exec_quarantineExpiry a hx) fun t ht => ?_
  have hlink := ht.1 .link (by decide)
  simp only [Group.same] at hlink
  refine ⟨fun q => ?_, by rw [hlink], becomes_alone (withLink_sameBut _ _) (by decide) ht⟩
  rw [hlink, List.mem_filter, ← quarantineOver_iff, Bool.not_eq_true', Bool.not_eq_true]

theorem exec_retainExpiry {s : State} {ep : Nat} {r : Record} (hr : recordId s ep = some r) :
    exec (.retainExpiry ep) s = commit s (if max r.lastHeard r.wakeSf + (circOf s r.circuit).set.retain ≤ s.sf.number then
      raise 0x0030 (epWord r.circuit (r.addr.getD 0xFFF)).toNat (deleteRecord ep s) else s) := by
  show commit s _ = _
  rw [hr]

theorem retain_of_no_record {s : State} {ep : Nat} (hr : recordId s ep = none) : Completes (.retainExpiry ep) s fun t => t = s :=
  completes_unchanged (by show commit s _ = _; rw [hr])

theorem retain_goes_on {s : State} {ep : Nat} {r : Record} (hr : recordId s ep = some r)
    (h : s.sf.number < max r.lastHeard r.wakeSf + (circOf s r.circuit).set.retain) : Completes (.retainExpiry ep) s fun t => t = s :=
  completes_unchanged (by rw [exec_retainExpiry hr, if_neg (by omega)])

theorem retain_ends {s : State} {ep : Nat} {r : Record} (hr : recordId s ep = some r)
    (h : max r.lastHeard r.wakeSf + (circOf s r.circuit).set.retain ≤ s.sf.number) :
    Completes (.retainExpiry ep) s fun t =>
      recordId t ep = none ∧ Logged 0x0030 (epWord r.circuit (r.addr.getD 0xFFF)).toNat s t
      ∧ SameBut [.link, .circ, .pair, .host, .air, .keep, .aead, .mem, .irq, .out] s t := by
  have hdeleted := deleteRecord_sameBut hr
  refine completes_of_exec (by rw [exec_retainExpiry hr, if_pos h]) fun t ht => ⟨?_, ?_, ?_⟩
  · rw [recordId_congr ((ht.1 .link (by decide)).trans (raise_link _ _ _)), recordId_deleteRecord hr]
  · exact logged_congr (hdeleted .irq (by decide)) (hdeleted .clk (by decide)) (raise_logged _ _ ht.2.1)
  · exact (becomes_same (hdeleted.trans (raise_sameBut _ _ _)) ht).mono (by simp)

/-- Settles O46: each clause is what one timer of a record does when it has run down, or that before then it does nothing. -/
theorem recordTimers : Obligations.RecordTimers :=
  ⟨fun _ _ _ _ ⟨hx, hnone⟩ => timer_of_no_record hx hnone, fun _ _ _ _ ⟨hx, ha⟩ => ackTimer_ignored hx ha,
    fun _ _ _ _ ⟨hx, ha⟩ => gapSkip_ignored hx ha, fun _ _ _ _ ⟨hx, ha⟩ => poll_ignored hx ha, fun _ _ _ _ ⟨hx, ha⟩ => readdress_ignored hx ha,
    fun _ _ _ _ ⟨hx, ha⟩ => sleepWake_ignored hx ha,
    fun _ _ _ _ _ ⟨hx, ha, hr, hactive, hsends⟩ hdue => hdue ▸ ackTimer_retries hx ha hr hactive hsends,
    fun _ _ _ _ _ ⟨hx, ha, _, hn, hdue⟩ => gapSkip_counts hx ha hn hdue, fun _ _ _ _ _ ⟨hx, ha, hr, hn, hdue⟩ => gapSkip_passes hx ha hr hn hdue,
    fun _ _ _ _ _ ⟨hx, ha, hr, hn, hdue⟩ => gapSkip_delivers hx ha hr hn hdue,
    fun _ _ _ _ _ ⟨hx, ha, hr, hk, hpolls⟩ => poll_fails hx ha hr hk hpolls,
    fun _ _ _ _ _ _ ⟨hx, ha, hr, hk, hpolls, hactive, hnew, hfree⟩ => poll_readdresses hx ha hr hk hpolls hactive hnew hfree,
    fun _ _ _ _ _ ⟨hx, ha, hr, hk, hpolls⟩ => poll_barred hx ha hr hk hpolls,
    fun _ _ _ _ _ _ ⟨hx, ha, hr, hb, hdue⟩ => readdress_gives_up hx ha hr hb hdue,
    fun _ _ _ _ ⟨hx, ha, hr, hasleep, hdue⟩ => sleepWake_wakes hx ha hr hasleep hdue, fun _ _ a => quarantine_ends a,
    fun _ _ => retain_of_no_record, fun _ _ _ ⟨hr, h⟩ => retain_goes_on hr h, fun _ _ _ ⟨hr, h⟩ => retain_ends hr h⟩

end Sys2Proof.Machine
end

section
/-! SUPPORT. Commands that change one group or raise no cause, and what the operations of the host attachment leave of the rest: the memories, the
engine's failed operation, an event raised (R346, R366 to R369, R394). -/
namespace Sys2Proof.Machine

/-! How a command completes. -/

/-- An effect that leaves PENDING as it was signals nothing, so the command ends in that effect itself (R481). -/
theorem completes_still {i : Instr} {s e : State} {P : State → Prop} (h : exec i s = commit s e) (hrise : intPending e = intPending s)
    (hqueue : e.pending = s.pending) (hp : P e) : Completes i s P := by
  refine ⟨e, h.trans ?_, hp⟩
  have hnone : intPending { e with pending := s.pending } &&& ~~~ intPending s = 0 := by
    show intPending e &&& _ = 0
    simp [hrise]
  have hsame : { e with pending := s.pending } = e := by rw [← hqueue]
  rw [commit_eq, signalRise, if_pos hnone, hsame]

/-- A command whose effect `e` changes some groups alone completes with what follows from the effect. -/
theorem completes_changes {gs : List Group} {i : Instr} {s e : State} {P : State → Prop} (h : exec i s = commit s e)
    (hs : SameBut (.out :: gs) s e) (hirq : Group.irq ∉ gs)
    (hp : ∀ t, SameBut [.irq, .out, .pending] e t → (∀ o ∈ e.out, o ∈ t.out) → Alone gs s t → P t) : Completes i s P :=
  completes_of_exec h fun t ht => hp t ht.1 ht.2.2.1 (alone_becomes (alone_of_sameBut hs hirq) ht)

/-- A command that sets a cause, and beside it at most sends, leaves that cause set (R475, R480). -/
theorem completes_causeSet {i : Instr} {b : Nat} {s e : State} (h : exec i s = commit s (setCause b e)) (hs : SameBut [.out] s e) :
    Completes i s fun t => (∀ o ∈ e.out, o ∈ t.out) ∧ CauseSet b s t := by
  have hset : SameBut [.out, .irq] s (setCause b e) := by
    intro g hg
    have := hs g
    cases g <;> simp_all [Group.same]
  have hirq : e.irq = s.irq := hs .irq (by decide)
  refine completes_of_exec h fun t ht => ⟨ht.2.2.1, ?_, (becomes_same hset ht).mono (by simp)⟩
  rw [ht.2.1, setCause, hirq]

/-! One group replaced. -/

theorem withHost_sameBut (x : HostLink) (s : State) : SameBut [.host] s { s with host := x } := by
  intro g hg; cases g <;> simp_all [Group.same]

theorem withMem_sameBut (x : Memory) (s : State) : SameBut [.mem] s { s with mem := x } := by
  intro g hg; cases g <;> simp_all [Group.same]

theorem withAead_sameBut (x : Aead) (s : State) : SameBut [.aead] s { s with aead := x } := by
  intro g hg; cases g <;> simp_all [Group.same]

theorem setCause_sameBut (b : Nat) (s : State) : SameBut [.irq] s (setCause b s) := by
  intro g hg; cases g <;> simp_all [Group.same]

/-! Events. -/

/-- Of the memories an event raised may change the capture ring, which it fires (R372). -/
theorem raise_mem (code obj : Nat) (s : State) : (raise code obj s).mem = { s.mem with cap := (raise code obj s).mem.cap } := by
  unfold raise fireCapture
  dsimp only
  split <;> split <;> rfl

/-- What the log says of an event depends on the log, the overflow count and the tick before it. -/
theorem logged_of_log_eq {s r u : State} {code obj : Nat} (hlog : r.irq.log = s.irq.log) (hover : r.irq.overflow = s.irq.overflow)
    (hclk : r.clk = s.clk) (h : Logged code obj r u) : Logged code obj s u := by
  unfold Logged at h ⊢
  rwa [hlog, hover, hclk] at h

/-- Two states with one log and one overflow count have logged the same. -/
theorem logged_of_same_log {s t u : State} {code obj : Nat} (hlog : u.irq.log = t.irq.log) (hover : u.irq.overflow = t.irq.overflow)
    (h : Logged code obj s t) : Logged code obj s u := by
  unfold Logged at h ⊢
  rwa [hlog, hover]

/-! A failed operation of the AES engine (R367, R412). -/

theorem lockFree_sameBut (s : State) : SameBut [.aead] s (lockFree s) := by
  unfold lockFree
  dsimp only
  split
  · exact withAead_sameBut _ s
  · split
    · exact withAead_sameBut _ s
    · exact withAead_sameBut _ s

theorem lockRevoke_sameBut (s : State) : SameBut [.aead] s (lockRevoke s) := by
  unfold lockRevoke
  split
  · exact withAead_sameBut _ s
  · exact sameBut_refl _ s

theorem aeadOutput_sameBut (r : Nat) (dst : Word) (bs : List Byte) (s : State) : SameBut [.out, .mem] s (aeadOutput r dst bs s) := by
  unfold aeadOutput
  split
  · exact sameBut_refl _ s
  · split
    · exact (emit_sameBut _ s).mono (by simp)
    · exact (withMem_sameBut _ s).mono (by simp)

/-- An operation's end may set AEAD_DONE and pass the lock on; it logs nothing (R408, R412, R480). -/
theorem aeadEnd_leaves (a : AeadRun) (result bytes : Nat) (s : State) :
    SameBut [.aead, .irq] s (aeadEnd a result bytes s) ∧ (aeadEnd a result bytes s).irq.log = s.irq.log
      ∧ (aeadEnd a result bytes s).irq.overflow = s.irq.overflow := by
  have hpass : ∀ t : State, SameBut [.aead] t (if t.aead.claim && t.aead.owner != 3 then lockFree (lockRevoke t) else t) := fun t => by
    split
    · exact ((lockRevoke_sameBut t).trans (lockFree_sameBut _)).mono (by simp)
    · exact sameBut_refl _ t
  have hended : ∀ x : Aead,
      SameBut [.aead, .irq] s (if a.requester = 4 then setCause 10 { s with aead := x } else { s with aead := x }) := fun x => by
    split
    · exact (withAead_sameBut x s).trans (setCause_sameBut 10 _)
    · exact (withAead_sameBut x s).mono (by simp)
  have hirq : ∀ t u : State, SameBut [.aead] t u → u.irq = t.irq := fun t u h => h .irq (by decide)
  unfold aeadEnd
  dsimp only
  refine ⟨((hended _).trans (hpass _)).mono (by simp), ?_, ?_⟩
  · rw [hirq _ _ (hpass _)]; split <;> rfl
  · rw [hirq _ _ (hpass _)]; split <;> rfl

theorem aeadFail_leaves (a : AeadRun) (result : Nat) (s : State) :
    (aeadFail a result s).clk = s.clk ∧ (aeadFail a result s).irq.log = s.irq.log ∧ (aeadFail a result s).irq.overflow = s.irq.overflow := by
  obtain ⟨hframe, hlog, hover⟩ := aeadEnd_leaves a result 0 (aeadOutput a.requester a.port.dst (List.replicate (aeadOutLen a.port) 0) s)
  have hout := aeadOutput_sameBut a.requester a.port.dst (List.replicate (aeadOutLen a.port) 0) s
  have hirq : (aeadOutput a.requester a.port.dst (List.replicate (aeadOutLen a.port) 0) s).irq = s.irq := hout .irq (by decide)
  rw [hirq] at hlog hover
  exact ⟨(hframe .clk (by decide)).trans (hout .clk (by decide)), hlog, hover⟩

/-! Tables written in runs. -/

/-- A run of values reads back as written. -/
theorem tabGetMany_tabPutMany {α : Type} [DecidableEq α] (d : α) (vs : List α) (t : Tab α) (i : Nat) :
    tabGetMany d (tabPutMany d t i vs) i vs.length = vs := by
  induction vs generalizing t i with
  | nil => rfl
  | cons v vs ih =>
    have hhead : tabGet d (tabPutMany d (tabPut d t i v) (i + 1) vs) i = v := by
      rw [tabGet_tabPutMany_ne _ _ _ _ _ (by omega), tabGet_tabPut_self]
    have htail := ih (tabPut d t i v) (i + 1)
    simp only [tabGetMany] at htail
    simp only [tabGetMany, tabPutMany, List.length_cons, List.range_succ_eq_map, List.map_cons, List.map_map, Nat.add_zero, hhead]
    congr 1
    refine Eq.trans (List.map_congr_left fun j _ => ?_) htail
    simp only [Function.comp_apply, Nat.succ_eq_add_one]
    congr 1
    omega

theorem memRead_memWrite (m : Tab Byte) (a : Nat) (bs : List Byte) : memRead (memWrite m a bs) a bs.length = bs := tabGetMany_tabPutMany 0 bs m a

/-- Keys set to one value one by one: the others stay. -/
theorem tabGet_foldl_tabPut_ne {α : Type} [DecidableEq α] (d v : α) (ls : List Nat) (t : Tab α) (k : Nat) (h : k ∉ ls) :
    tabGet d (ls.foldl (fun t l => tabPut d t l v) t) k = tabGet d t k := by
  induction ls generalizing t with
  | nil => rfl
  | cons l ls ih =>
    obtain ⟨hl, hls⟩ := not_or.1 (mt List.mem_cons.2 h)
    rw [List.foldl_cons, ih _ hls, tabGet_tabPut_ne _ _ _ _ _ hl]

@[simp] theorem length_bytesLE (w : Word) : (bytesLE w).length = 8 := by simp [bytesLE]

end Sys2Proof.Machine
end

section
/-! Settles O36: the host link, snoops and the granary as the host reads and writes it, one lemma for each clause. -/
namespace Sys2Proof.Machine

/-! What each command does. -/

/-- The host link come up (R348, R375). -/
def hostUp (cxl : Bool) (h : HostLink) : HostLink :=
  { h with up := true, pcieOnly := h.hostMode || !cxl, ideNeeded := h.ideRequired, ideActive := false, ideFailed := false }

theorem exec_hostLinkUp (cxl : Bool) (s : State) :
    exec (.hostLinkUp cxl) s = commit s (if !domOn s 3 || s.host.up then s else { s with host := hostUp cxl s.host }) := rfl

theorem exec_hostLinkDown (s : State) : exec .hostLinkDown s = commit s (if s.host.up then abandonRequests s else s) := rfl

/-- A state with the MSI-X structures as after reset (R369). -/
def msixCleared (s : State) : State := { s with irq := { s.irq with msix := [] } }

theorem exec_hotReset (s : State) : exec .hotReset s = commit s (msixCleared (if s.host.up then abandonRequests s else s)) := rfl

theorem exec_h2dSnoop (a : Nat) (s : State) :
    exec (.h2dSnoop a) s = commit s (if s.host.up && !s.host.pcieOnly && !s.host.ideFailed then emit (.snoopMiss a) s else s) := rfl

theorem exec_cxlmemHostRead {a : Nat} (ha : a < 25769803776) (s : State) :
    exec (.cxlmemHostRead a) s = commit s (if !cxlMemServed s then s
      else if s.host.hdmCommitted then emit (.cxl (memRead s.mem.granary (64 * (a / 64)) 64) (tabGet false s.mem.poison (a / 64))) s
      else emit (.cxl ((List.range 8).flatMap fun _ => bytesLE (drawFree s).1) true) (drawFree s).2) := onObject_true (decide_eq_true ha)

/-- A line of the granary stored with its marker (R351, R368). -/
def lineStored (a : Nat) (line : List Byte) (poison : Bool) (s : State) : State :=
  let t := granaryWrite (a / 64 * 64) line s
  { t with mem := { t.mem with poison := tabPut false t.mem.poison (a / 64) poison } }

theorem exec_cxlmemHostWrite {a : Nat} (ha : a < 25769803776) (line : List Byte) (poison : Bool) (s : State) :
    exec (.cxlmemHostWrite a line poison) s = commit s (if !cxlMemServed s || !s.host.hdmCommitted then s
      else if regionKindAt s a = 7 then lineStored a ((line ++ List.replicate 64 0).take 64) poison s
      else refuseWrite a s) := onObject_true (decide_eq_true ha)

/-! The link (R348, R366, R369). -/

theorem linkUp_holds {s : State} {cxl : Bool} (hd : domOn s 3 = true) (hu : s.host.up = false) :
    Completes (.hostLinkUp cxl) s fun t => t.host = hostUp cxl s.host ∧ Alone [.host] s t := by
  have hexec : exec (.hostLinkUp cxl) s = commit s { s with host := hostUp cxl s.host } := by
    rw [exec_hostLinkUp, if_neg (by simp [hd, hu])]
  exact completes_still hexec rfl rfl ⟨rfl, alone_of_sameBut ((withHost_sameBut _ s).mono (by simp)) (by decide)⟩

theorem linkUp_ignored {s : State} {cxl : Bool} (h : domOn s 3 = false ∨ s.host.up = true) : Completes (.hostLinkUp cxl) s fun t => t = s := by
  refine completes_unchanged ?_
  rw [exec_hostLinkUp, if_pos]
  rcases h with h | h <;> simp [h]

theorem linkLost_sameBut (s : State) : SameBut [.link, .air, .host] s (linkLost s) := by
  intro g hg; cases g <;> simp_all [Group.same, linkLost]

/-- Every ring that the link leaves is DISABLED and without its configuration (R366). -/
theorem ringsCleared (rings : Tab Ring) : ∀ p ∈ tabMap {} ringCleared rings, p.2.state = .disabled ∧ p.2.size = 0 ∧ p.2.base = 0 :=
  tabMap_all (P := fun r : Ring => r.state = .disabled ∧ r.size = 0 ∧ r.base = 0) _ _ _ fun _ => ⟨rfl, rfl, rfl⟩

/-- Without an operation of the host in the AES engine nothing is abandoned but the rings (R369). -/
theorem abandonRequests_of_no_run {s : State} (h : ∀ a, s.aead.run = some a → a.requester ≠ 4) : abandonRequests s = linkLost s := by
  unfold abandonRequests
  cases hrun : s.aead.run with
  | none => rfl
  | some a => simp only [if_neg (h a hrun)]

theorem abandonRequests_of_run {s : State} {a : AeadRun} (hrun : s.aead.run = some a) (hr : a.requester = 4) :
    abandonRequests s = linkLost (aeadAccessFault a s) := by
  unfold abandonRequests
  simp only [hrun, if_pos hr]

/-- From `s` to `t` the host link is lost: every ring is cleared, the frames accepted for the rings stay without them, and the MSI-X structures are
`m` (R366, R369). -/
abbrev LinkCleared (m : Tab Msix) (s t : State) : Prop :=
  t.host.up = false ∧ (∀ p ∈ t.host.tx, p.2.state = .disabled ∧ p.2.size = 0 ∧ p.2.base = 0)
  ∧ (∀ p ∈ t.host.rx, p.2.state = .disabled ∧ p.2.size = 0 ∧ p.2.base = 0) ∧ t.host.xdb = [] ∧ t.host.hdmCommitted = false
  ∧ t.host.ideActive = false ∧ t.link = unbindFrames s.link ∧ t.air = unbindAir s.air ∧ t.irq = { s.irq with msix := m }
  ∧ SameBut [.host, .link, .air, .irq, .out] s t

theorem linkDown_clears {s : State} (hu : s.host.up = true) (hrun : ∀ a, s.aead.run = some a → a.requester ≠ 4) :
    Completes .hostLinkDown s fun t => LinkCleared t.irq.msix s t := by
  have hexec : exec .hostLinkDown s = commit s (linkLost s) := by rw [exec_hostLinkDown, if_pos hu, abandonRequests_of_no_run hrun]
  exact completes_still hexec rfl rfl
    ⟨rfl, ringsCleared _, ringsCleared _, rfl, rfl, rfl, rfl, rfl, rfl, (linkLost_sameBut s).mono (by simp)⟩

theorem msixCleared_sameBut (s : State) : SameBut [.irq] s (msixCleared s) := by
  intro g hg; cases g <;> simp_all [Group.same, msixCleared]

theorem hotReset_clears {s : State} (hu : s.host.up = true) (hrun : ∀ a, s.aead.run = some a → a.requester ≠ 4) :
    Completes .hotReset s fun t => LinkCleared [] s t := by
  have hexec : exec .hotReset s = commit s (msixCleared (linkLost s)) := by rw [exec_hotReset, if_pos hu, abandonRequests_of_no_run hrun]
  exact completes_still hexec rfl rfl
    ⟨rfl, ringsCleared _, ringsCleared _, rfl, rfl, rfl, rfl, rfl, rfl, ((linkLost_sameBut s).trans (msixCleared_sameBut _)).mono (by simp)⟩

theorem linkDown_ignored {s : State} (hu : s.host.up = false) : Completes .hostLinkDown s fun t => t = s :=
  completes_unchanged (by rw [exec_hostLinkDown, if_neg (by simp [hu])])

theorem hotReset_unlinked {s : State} (hu : s.host.up = false) : Completes .hotReset s fun t => t = msixCleared s := by
  have hexec : exec .hotReset s = commit s (msixCleared s) := by rw [exec_hotReset, if_neg (by simp [hu])]
  exact completes_still hexec rfl rfl rfl

/-- The engine's host operation is outstanding when the link goes: it ends in ACCESS_FAULT, and HOST_ACCESS_FAIL is logged (R367, R369, R412). -/
theorem linkDown_faults {s : State} {a : AeadRun} (hu : s.host.up = true) (hrun : s.aead.run = some a) (hr : a.requester = 4) :
    Completes .hostLinkDown s fun t => t.host.up = false ∧ Logged 0x0046 0xFFFF s t ∧ t.aead = (aeadFail a 0x08 s).aead := by
  have hexec : exec .hostLinkDown s = commit s (linkLost (aeadAccessFault a s)) := by
    rw [exec_hostLinkDown, if_pos hu, abandonRequests_of_run hrun hr]
  refine completes_of_exec hexec fun t ⟨hframe, hirq, _, _⟩ => ?_
  have hhost : t.host = (linkLost (aeadAccessFault a s)).host := hframe .host (by decide)
  have haead : t.aead = (aeadAccessFault a s).aead := hframe .aead (by decide)
  obtain ⟨hclk, hlog, hover⟩ := aeadFail_leaves a 0x08 s
  exact ⟨by rw [hhost]; rfl, logged_of_log_eq hlog hover hclk (raise_logged (s := aeadFail a 0x08 s) _ _ hirq), haead.trans (raise_aead _ _ _)⟩

/-! Snoops (R346). -/

theorem snoop_misses {s : State} {a : Nat} (hu : s.host.up = true) (hp : s.host.pcieOnly = false) (hi : s.host.ideFailed = false) :
    Completes (.h2dSnoop a) s fun t => .snoopMiss a ∈ t.out ∧ Alone [] s t := by
  have hexec : exec (.h2dSnoop a) s = commit s (emit (.snoopMiss a) s) := by rw [exec_h2dSnoop, if_pos (by simp [hu, hp, hi])]
  exact completes_still hexec rfl rfl ⟨List.mem_cons_self, alone_of_sameBut (emit_sameBut _ s) (by decide)⟩

theorem snoop_ignored {s : State} {a : Nat} (h : s.host.up = false ∨ s.host.pcieOnly = true ∨ s.host.ideFailed = true) :
    Completes (.h2dSnoop a) s fun t => t = s := by
  refine completes_unchanged ?_
  rw [exec_h2dSnoop, if_neg]
  rcases h with h | h | h <;> simp [h]

/-! The granary (R351, R353, R368). -/

section Granary
variable {s : State} {a : Nat} {line : List Byte} {poison : Bool} (ha : a < 25769803776)
include ha

theorem hostRead_line (hs : cxlMemServed s = true) (hc : s.host.hdmCommitted = true) :
    Completes (.cxlmemHostRead a) s fun t =>
      .cxl (memRead s.mem.granary (64 * (a / 64)) 64) (tabGet false s.mem.poison (a / 64)) ∈ t.out ∧ Alone [] s t := by
  have hexec := exec_cxlmemHostRead ha s
  rw [if_neg (by simp [hs]), if_pos hc] at hexec
  exact completes_still hexec rfl rfl ⟨List.mem_cons_self, alone_of_sameBut (emit_sameBut _ s) (by decide)⟩

theorem hostRead_poisoned (hs : cxlMemServed s = true) (hc : s.host.hdmCommitted = false) :
    Completes (.cxlmemHostRead a) s fun t => (∃ bs, .cxl bs true ∈ t.out ∧ bs.length = 64) ∧ t.mem = s.mem ∧ Alone [.clk] s t := by
  have hexec := exec_cxlmemHostRead ha s
  rw [if_neg (by simp [hs]), if_neg (by simp [hc])] at hexec
  have hlength : ((List.range 8).flatMap fun _ => bytesLE (drawFree s).1).length = 64 := by
    rw [length_flatMap_const _ 8 _ fun _ => length_bytesLE _, List.length_range]
  exact completes_still hexec rfl rfl ⟨⟨_, List.mem_cons_self, hlength⟩, rfl,
    alone_of_sameBut (((drawFree_sameBut s).trans (emit_sameBut _ _)).mono (by simp)) (by decide)⟩

theorem hostRead_unserved (hs : cxlMemServed s = false) : Completes (.cxlmemHostRead a) s fun t => t = s :=
  completes_unchanged (by rw [exec_cxlmemHostRead ha, if_pos (by simp [hs])])

omit ha in
theorem lineStored_sameBut : SameBut [.mem] s (lineStored a line poison s) := withMem_sameBut _ s

omit ha in
/-- A stored line clears no marker but its own, which then is set as the write says (R368). -/
theorem lineStored_poison_ne (hline : line.length = 64) {l : Nat} (hl : l ≠ a / 64) :
    tabGet false (lineStored a line poison s).mem.poison l = tabGet false s.mem.poison l := by
  refine (tabGet_tabPut_ne _ _ _ _ _ hl).trans (tabGet_foldl_tabPut_ne _ _ _ _ _ fun hmem => hl ?_)
  obtain ⟨hrange, hbelow⟩ := List.mem_filter.1 hmem
  obtain ⟨i, -, hi⟩ := List.mem_map.1 hrange
  have : l * 64 < a / 64 * 64 + line.length := of_decide_eq_true hbelow
  omega

theorem hostWrite_stores (hs : cxlMemServed s = true) (hc : s.host.hdmCommitted = true) (hk : regionKindAt s a = 7) (hline : line.length = 64) :
    Completes (.cxlmemHostWrite a line poison) s fun t =>
      memRead t.mem.granary (64 * (a / 64)) 64 = line ∧ (∀ b, b / 64 ≠ a / 64 → tabGet 0 t.mem.granary b = tabGet 0 s.mem.granary b)
      ∧ tabGet false t.mem.poison (a / 64) = poison ∧ (∀ l, l ≠ a / 64 → tabGet false t.mem.poison l = tabGet false s.mem.poison l)
      ∧ t.mem.near = s.mem.near ∧ Alone [.mem] s t := by
  have hwhole : (line ++ List.replicate 64 0).take 64 = line := by rw [← hline, List.take_left]
  have hexec := exec_cxlmemHostWrite ha line poison s
  rw [if_neg (by simp [hs, hc]), if_pos hk, hwhole] at hexec
  have hgranary : (lineStored a line poison s).mem.granary = memWrite s.mem.granary (64 * (a / 64)) line := by rw [Nat.mul_comm]; rfl
  refine completes_still hexec rfl rfl ⟨?_, fun b hb => ?_, tabGet_tabPut_self _ _ _ _, fun l hl => lineStored_poison_ne hline hl, rfl,
    alone_of_sameBut (lineStored_sameBut.mono (by simp)) (by decide)⟩
  · rw [hgranary, ← hline, memRead_memWrite]
  · rw [hgranary, tabGet_memWrite_ne _ _ _ _ (by omega)]

/-- The memories after a refused write: counted, and the first address latched (R484). -/
def memRefused (a : Nat) (m : Memory) : Memory :=
  { m with violCount := sat32 m.violCount 1, violValid := true, violAddr := if m.violValid then m.violAddr else a / 64 * 64 }

omit ha in
theorem refuseWrite_eq : refuseWrite a s = raise 0x0040 0 { s with mem := memRefused a s.mem } := rfl

theorem hostWrite_refused (hs : cxlMemServed s = true) (hc : s.host.hdmCommitted = true) (hk : regionKindAt s a ≠ 7) :
    Completes (.cxlmemHostWrite a line poison) s fun t =>
      t.mem.granary = s.mem.granary ∧ t.mem.poison = s.mem.poison ∧ t.mem.violCount = sat32 s.mem.violCount 1 ∧ t.mem.violValid = true
      ∧ t.mem.violAddr = (if s.mem.violValid then s.mem.violAddr else a / 64 * 64) ∧ Logged 0x0040 0 s t ∧ SameBut [.mem, .irq, .out] s t := by
  have hexec := exec_cxlmemHostWrite ha line poison s
  rw [if_neg (by simp [hs, hc]), if_neg hk, refuseWrite_eq] at hexec
  refine completes_of_exec hexec fun t ht => ?_
  have hmem : t.mem = (raise 0x0040 0 { s with mem := memRefused a s.mem }).mem := ht.1 .mem (by decide)
  rw [hmem, raise_mem]
  refine ⟨rfl, rfl, rfl, rfl, rfl, raise_logged (s := { s with mem := memRefused a s.mem }) _ _ ht.2.1, ?_⟩
  exact (becomes_same ((withMem_sameBut _ s).trans (raise_sameBut _ _ _)) ht).mono (by simp)

theorem hostWrite_unserved (h : cxlMemServed s = false ∨ s.host.hdmCommitted = false) :
    Completes (.cxlmemHostWrite a line poison) s fun t => t = s := by
  refine completes_unchanged ?_
  rw [exec_cxlmemHostWrite ha, if_pos]
  rcases h with h | h <;> simp [h]
end Granary

/-- Settles O36: each clause is what one command of the host link or of device memory does, or that it does nothing outside its condition. -/
theorem hostLinkAndDeviceMemory : Obligations.HostLinkAndDeviceMemory :=
  ⟨fun _ _ ⟨hd, hu⟩ => linkUp_holds hd hu, fun _ _ => linkUp_ignored, fun _ ⟨hu, hrun⟩ => linkDown_clears hu hrun,
    fun _ ⟨hu, hrun⟩ => hotReset_clears hu hrun, fun _ => linkDown_ignored, fun _ => hotReset_unlinked,
    fun _ _ ⟨hu, hrun, hr⟩ => linkDown_faults hu hrun hr, fun _ _ ⟨hu, hp, hi⟩ => snoop_misses hu hp hi, fun _ _ => snoop_ignored,
    fun _ _ ⟨ha, hs, hc⟩ => hostRead_line ha hs hc, fun _ _ ⟨ha, hs, hc⟩ => hostRead_poisoned ha hs hc,
    fun _ _ ⟨ha, hs⟩ => hostRead_unserved ha hs, fun _ _ _ _ ⟨ha, hs, hc, hk, hline⟩ => hostWrite_stores ha hs hc hk hline,
    fun _ _ _ _ ⟨ha, hs, hc, hk⟩ => hostWrite_refused ha hs hc hk, fun _ _ _ _ ⟨ha, h⟩ => hostWrite_unserved ha h⟩

end Sys2Proof.Machine
end

section
/-! Settles O21: ring doorbells, express doorbells and time captures, one lemma for each clause. -/
namespace Sys2Proof.Machine

/-! Rings in the state. -/

/-- A transmit or a receive ring replaced. -/
def setRing (rx : Bool) (q : Nat) (x : Ring) (s : State) : State := if rx then setRxRing q x s else setTxRing q x s

theorem ringOf_setRing (rx : Bool) (q : Nat) (x : Ring) (s : State) : ringOf rx (setRing rx q x s) q = x := by
  cases rx with
  | false => exact tabGet_tabPut_self _ _ _ _
  | true => exact tabGet_tabPut_self _ _ _ _

theorem ringOf_setRing_ne (rx : Bool) {q p : Nat} (x : Ring) (s : State) (h : p ≠ q) : ringOf rx (setRing rx q x s) p = ringOf rx s p := by
  cases rx with
  | false => exact tabGet_tabPut_ne _ _ _ _ _ h
  | true => exact tabGet_tabPut_ne _ _ _ _ _ h

theorem ringOf_congr {s t : State} (h : t.host = s.host) (rx : Bool) (q : Nat) : ringOf rx t q = ringOf rx s q := by
  unfold ringOf
  rw [rxRing_congr h, txRing_congr h]

theorem setRing_sameBut (rx : Bool) (q : Nat) (x : Ring) (s : State) : SameBut [.host] s (setRing rx q x s) := by
  cases rx with
  | false => exact withHost_sameBut _ s
  | true => exact withHost_sameBut _ s

/-- What a ring holds is no cause of INT_CAUSE (R480). -/
theorem intPending_setRing (rx : Bool) (q : Nat) (x : Ring) (s : State) : intPending (setRing rx q x s) = intPending s := by cases rx <;> rfl

theorem setRing_irq (rx : Bool) (q : Nat) (x : Ring) (s : State) : (setRing rx q x s).irq = s.irq := setRing_sameBut rx q x s .irq (by decide)
theorem setRing_clk (rx : Bool) (q : Nat) (x : Ring) (s : State) : (setRing rx q x s).clk = s.clk := setRing_sameBut rx q x s .clk (by decide)
theorem setRing_pending (rx : Bool) (q : Nat) (x : Ring) (s : State) : (setRing rx q x s).pending = s.pending :=
  setRing_sameBut rx q x s .pending (by decide)

/-- An ENABLED ring goes into FAULT with its cause; one that drains keeps draining, with the cause latched (R365). -/
def ringFailed (cause : Nat) (x : Ring) : Ring := { x with state := if x.state = .enabled then .fault else x.state, cause := cause }

theorem ringFault_eq (rx : Bool) (q cause : Nat) (s : State) :
    ringFault rx q cause s = setCause 9 (raise 0x0042 (ringObject rx q) (setRing rx q (ringFailed cause (ringOf rx s q)) s)) := by
  cases rx <;> rfl

/-- A doorbell by the ring's state and the TAIL it writes (R354, R365, R483). -/
theorem doorbell_eq (rx : Bool) (q : Nat) (v : Word) (s : State) :
    doorbell rx q v s = if (ringOf rx s q).state ≠ .enabled then s else if (ringOf rx s q).size ≤ fieldOf v 15 0 then ringFault rx q 1 s
      else setRing rx q { ringOf rx s q with tail := fieldOf v 15 0 } s := by
  cases rx <;> rfl

/-- A command that fails a ring leaves it so, with the event logged and INT_CAUSE[9] set (R365, R394, R480). -/
theorem completes_ringFault {i : Instr} {rx : Bool} {q cause : Nat} {s : State} (h : exec i s = commit s (ringFault rx q cause s)) :
    Completes i s fun t =>
      ringOf rx t q = ringFailed cause (ringOf rx s q) ∧ (∀ p, p ≠ q → ringOf rx t p = ringOf rx s p)
      ∧ Logged 0x0042 (ringObject rx q) s t ∧ t.irq.cause = s.irq.cause ||| bitAt 9 true ∧ SameBut [.host, .irq, .out, .mem] s t := by
  rw [ringFault_eq] at h
  generalize ringFailed cause (ringOf rx s q) = y at h ⊢
  refine completes_of_exec h fun t ht => ?_
  have hhost : t.host = (setRing rx q y s).host := (ht.1 .host (by decide)).trans (raise_host _ _ _)
  have hcause : t.irq.cause = (raise 0x0042 (ringObject rx q) (setRing rx q y s)).irq.cause ||| bitAt 9 true := by rw [ht.2.1]; rfl
  have hraised : Logged 0x0042 (ringObject rx q) (setRing rx q y s) (raise 0x0042 (ringObject rx q) (setRing rx q y s)) := raise_logged _ _ rfl
  refine ⟨?_, fun p hp => ?_, ?_, ?_, ?_⟩
  · rw [ringOf_congr hhost, ringOf_setRing]
  · rw [ringOf_congr hhost, ringOf_setRing_ne _ _ _ hp]
  · exact logged_of_same_log (by rw [ht.2.1]; rfl) (by rw [ht.2.1]; rfl) (logged_congr (setRing_irq _ _ _ _) (setRing_clk _ _ _ _) hraised)
  · rw [hcause, raise_irq_cause, setRing_irq]
  · exact (becomes_same (((setRing_sameBut rx q y s).trans (raise_sameBut _ _ _)).trans (setCause_sameBut _ _)) ht).mono (by simp)

/-! What each command does. -/

theorem inDomain_on {d : Nat} {s t : State} (h : domOn s d = true) : inDomain d s t = t := if_pos h

/-- The doorbell of a transmit or a receive ring (R354). -/
abbrev ringBell (rx : Bool) (q : Nat) (v : Word) : Instr := if rx then .rxDbWrite q v else .txDbWrite q v

section Doorbell
variable {s : State} {rx : Bool} {q : Nat} {v : Word} (hq : q < 256) (hd : domOn s 28 = true)
include hq hd

theorem exec_ringBell : exec (ringBell rx q v) s = commit s (doorbell rx q v s) := by
  have hon : ∀ rx, inDomain 28 s (doorbell rx q v s) = doorbell rx q v s := fun _ => inDomain_on hd
  cases rx with
  | false => exact (onObject_true (decide_eq_true hq)).trans (by rw [hon])
  | true => exact (onObject_true (decide_eq_true hq)).trans (by rw [hon])

/-! Doorbells (R354, R365). -/

theorem doorbell_moves (he : (ringOf rx s q).state = .enabled) (ht : fieldOf v 15 0 < (ringOf rx s q).size) :
    Completes (ringBell rx q v) s fun t => t = setRing rx q { ringOf rx s q with tail := fieldOf v 15 0 } s := by
  have hexec : exec (ringBell rx q v) s = commit s (setRing rx q { ringOf rx s q with tail := fieldOf v 15 0 } s) := by
    rw [exec_ringBell hq hd, doorbell_eq, if_neg (by simp [he]), if_neg (Nat.not_le.2 ht)]
  exact completes_still hexec (intPending_setRing _ _ _ _) (setRing_pending _ _ _ _) rfl

theorem doorbell_faults (he : (ringOf rx s q).state = .enabled) (ht : (ringOf rx s q).size ≤ fieldOf v 15 0) :
    Completes (ringBell rx q v) s fun t =>
      ringOf rx t q = { ringOf rx s q with state := .fault, cause := 1 } ∧ (∀ p, p ≠ q → ringOf rx t p = ringOf rx s p)
      ∧ Logged 0x0042 (ringObject rx q) s t ∧ t.irq.cause = s.irq.cause ||| bitAt 9 true ∧ SameBut [.host, .irq, .out, .mem] s t := by
  have hfailed : ringFailed 1 (ringOf rx s q) = { ringOf rx s q with state := .fault, cause := 1 } := by rw [ringFailed, if_pos he]
  rw [← hfailed]
  exact completes_ringFault (by rw [exec_ringBell hq hd, doorbell_eq, if_neg (by simp [he]), if_pos ht])

theorem doorbell_ignored (he : (ringOf rx s q).state ≠ .enabled) : Completes (ringBell rx q v) s fun t => t = s :=
  completes_unchanged (by rw [exec_ringBell hq hd, doorbell_eq, if_pos he])

end Doorbell

theorem txDoorbell_moves {s : State} {q : Nat} {v : Word} (hq : q < 256) (hd : domOn s 28 = true) (he : (txRing s q).state = .enabled)
    (ht : fieldOf v 15 0 < (txRing s q).size) :
    Completes (.txDbWrite q v) s fun t =>
      txRing t q = { txRing s q with tail := fieldOf v 15 0 } ∧ (∀ p, p ≠ q → txRing t p = txRing s p)
      ∧ { t.host with tx := s.host.tx } = s.host ∧ Alone [.host] s t := by
  obtain ⟨t, hexec, rfl⟩ := doorbell_moves (rx := false) hq hd he ht
  exact ⟨_, hexec, ringOf_setRing false q _ s, fun p hp => ringOf_setRing_ne false _ s hp, rfl,
    alone_of_sameBut ((setRing_sameBut _ _ _ s).mono (by simp)) (by decide)⟩

theorem rxDoorbell_moves {s : State} {q : Nat} {v : Word} (hq : q < 256) (hd : domOn s 28 = true) (he : (rxRing s q).state = .enabled)
    (ht : fieldOf v 15 0 < (rxRing s q).size) :
    Completes (.rxDbWrite q v) s fun t =>
      rxRing t q = { rxRing s q with tail := fieldOf v 15 0 } ∧ (∀ p, p ≠ q → rxRing t p = rxRing s p)
      ∧ { t.host with rx := s.host.rx } = s.host ∧ Alone [.host] s t := by
  obtain ⟨t, hexec, rfl⟩ := doorbell_moves (rx := true) hq hd he ht
  exact ⟨_, hexec, ringOf_setRing true q _ s, fun p hp => ringOf_setRing_ne true _ s hp, rfl,
    alone_of_sameBut ((setRing_sameBut _ _ _ s).mono (by simp)) (by decide)⟩

/-! Express doorbells (R363, R483). -/

section Express
variable {s : State} {n q : Nat} {v : Word} (hn : n < 16)
include hn

theorem exec_xdbWrite : exec (.xdbWrite n v) s = commit s (inDomain 28 s (xdbPost n v s)) := onObject_true (decide_eq_true hn)

omit hn in
/-- A bound express doorbell moves its ring's tail as a doorbell does, and marks what it posts (R363). -/
theorem xdbPost_bound (hb : tabGet none s.host.xdb n = some q) :
    xdbPost n v s = if (txRing s q).state = .enabled ∧ fieldOf v 15 0 < (txRing s q).size then
        modTxRing q (fun y => { y with express := y.express
          ++ (indicesTo (txRing s q).size (txRing s q).tail (fieldOf v 15 0)).map (·, s.clk.now) }) (doorbell false q v s)
      else doorbell false q v s := by
  unfold xdbPost
  rw [hb]

theorem express_moves (hd : domOn s 28 = true) (hb : tabGet none s.host.xdb n = some q) (he : (txRing s q).state = .enabled)
    (ht : fieldOf v 15 0 < (txRing s q).size) :
    Completes (.xdbWrite n v) s fun t =>
      txRing t q = { txRing s q with tail := fieldOf v 15 0, express := (txRing s q).express
        ++ (indicesTo (txRing s q).size (txRing s q).tail (fieldOf v 15 0)).map (·, s.clk.now) }
      ∧ (∀ p, p ≠ q → txRing t p = txRing s p) ∧ { t.host with tx := s.host.tx } = s.host ∧ Alone [.host] s t := by
  have hbell : doorbell false q v s = setTxRing q { txRing s q with tail := fieldOf v 15 0 } s := by
    exact (doorbell_eq false q v s).trans ((if_neg (not_not.2 he)).trans (if_neg (Nat.not_le.2 ht)))
  have hself : txRing (setTxRing q { txRing s q with tail := fieldOf v 15 0 } s) q = { txRing s q with tail := fieldOf v 15 0 } :=
    tabGet_tabPut_self _ _ _ _
  have hexec : exec (.xdbWrite n v) s = _ := exec_xdbWrite hn
  rw [inDomain_on hd, xdbPost_bound hb, if_pos ⟨he, ht⟩, hbell, modTxRing, hself] at hexec
  refine completes_still hexec rfl rfl ⟨tabGet_tabPut_self _ _ _ _, fun p hp => ?_, rfl, alone_of_sameBut ?_ (by decide)⟩
  · exact (tabGet_tabPut_ne _ _ _ _ _ hp).trans (tabGet_tabPut_ne _ _ _ _ _ hp)
  · exact (withHost_sameBut _ s).mono (by simp)

/-- Where it moves no tail, an express doorbell does what the ring's own doorbell does. -/
theorem express_as_doorbell (hq : q < 256) (hb : tabGet none s.host.xdb n = some q)
    (h : ¬((txRing s q).state = .enabled ∧ fieldOf v 15 0 < (txRing s q).size)) : exec (.xdbWrite n v) s = exec (.txDbWrite q v) s := by
  have hring : exec (.txDbWrite q v) s = commit s (inDomain 28 s (doorbell false q v s)) := onObject_true (decide_eq_true hq)
  rw [exec_xdbWrite hn, xdbPost_bound hb, if_neg h, hring]

theorem express_unbound (hd : domOn s 28 = true) (hb : tabGet none s.host.xdb n = none) :
    Completes (.xdbWrite n v) s fun t => Logged 0x0041 n s t ∧ SameBut [.irq, .out, .mem] s t := by
  have hpost : xdbPost n v s = raise 0x0041 n s := by unfold xdbPost; rw [hb]
  have hexec : exec (.xdbWrite n v) s = commit s (raise 0x0041 n s) := by rw [exec_xdbWrite hn, inDomain_on hd, hpost]
  exact completes_of_exec hexec fun t ht => ⟨raise_logged _ _ ht.2.1, (becomes_same (raise_sameBut _ _ s) ht).mono (by simp)⟩

end Express

/-! Time captures (R320). -/

/-- A field is not changed by a bit set outside it. -/
theorem fieldOf_or_bitAt (w : Word) {hi lo i : Nat} (h : i < lo ∨ hi < i) : fieldOf (w ||| bitAt i true) hi lo = fieldOf w hi lo := by
  refine Nat.eq_of_testBit_eq fun j => ?_
  simp only [fieldOf, Nat.testBit_mod_two_pow, Nat.testBit_div_two_pow]
  by_cases hj : j < hi + 1 - lo
  · have hbit := bitOf_or_bitAt_ne w i (j + lo) (by omega)
    simp only [bitOf] at hbit
    simp only [BitVec.testBit_toNat, hbit]
  · simp [hj]

/-- The unit with device time and tick count latched and DONE set (R320). -/
def captured (sub tick : Nat) (x : Tku) : Tku :=
  { x with capDone := true, capH := timeHigh x.devUs sub, capL := timeLow x.devUs sub, capTick := BitVec.ofNat 64 tick }

/-- The unit after a write of TCAP_CTL that sets the pin and its arming, and clears DONE where it says so (R320). -/
def tcapSet (v : Word) (x : Tku) : Tku := { x with capDone := x.capDone && !bitOf v 8, gpioSel := fieldOf v 7 4, armGpio := bitOf v 1 }

/-- The unit after a write of TCAP_CTL: CAPTURE latches unless DONE is then set (R320). -/
def tcapTku (v : Word) (sub tick : Nat) (x : Tku) : Tku :=
  if bitOf v 0 && !(x.capDone && !bitOf v 8) then captured sub tick (tcapSet v x) else tcapSet v x

theorem tcapWrite_eq (v : Word) (sub : Nat) (s : State) : tcapWrite v sub s = { s with tku := tcapTku v sub s.clk.tick s.tku } := by
  unfold tcapWrite tcapTku
  dsimp only
  split <;> rfl

/-- A command that replaces the time-keeping unit's state changes that alone. -/
theorem completes_withTku {i : Instr} {s : State} {x : Tku} (h : exec i s = commit s { s with tku := x }) :
    Completes i s fun t => t.tku = x ∧ Alone [.tku] s t :=
  completes_changes h ((withTku_sameBut x s).mono (by simp)) (by decide) fun _ ht _ halone => ⟨ht .tku (by decide), halone⟩

/-- A command that writes TCAP_CTL leaves the unit as the write does. -/
theorem completes_tcapWrite {i : Instr} {s : State} {v : Word} {sub : Nat} {x : Tku} (h : exec i s = commit s (tcapWrite v sub s))
    (hx : tcapTku v sub s.clk.tick s.tku = x) : Completes i s fun t => t.tku = x ∧ Alone [.tku] s t :=
  completes_withTku (by rw [h, tcapWrite_eq, hx])

section Capture
variable (v : Word) (sub tick : Nat) (x : Tku)

theorem tcapTku_capture : tcapTku (v ||| bitAt 0 true) sub tick x
    = if x.capDone && !bitOf v 8 then { x with gpioSel := fieldOf v 7 4, armGpio := bitOf v 1 }
      else captured sub tick { x with gpioSel := fieldOf v 7 4, armGpio := bitOf v 1 } := by
  simp only [tcapTku, tcapSet, bitOf_or_bitAt v 0 (by decide), bitOf_or_bitAt_ne v 0 8 (by decide), bitOf_or_bitAt_ne v 0 1 (by decide),
    fieldOf_or_bitAt v (show 0 < 4 ∨ 7 < 0 by decide)]
  cases hkept : x.capDone && !bitOf v 8 with
  | false => rfl
  | true => simp [(Bool.and_eq_true_iff.1 hkept).1]

theorem tcapTku_doneClear : tcapTku (v ||| bitAt 8 true) sub tick x
    = if bitOf v 0 then captured sub tick { x with gpioSel := fieldOf v 7 4, armGpio := bitOf v 1 }
      else { x with gpioSel := fieldOf v 7 4, armGpio := bitOf v 1, capDone := false } := by
  simp only [tcapTku, tcapSet, bitOf_or_bitAt v 8 (by decide), bitOf_or_bitAt_ne v 8 0 (by decide), bitOf_or_bitAt_ne v 8 1 (by decide),
    fieldOf_or_bitAt v (show 8 < 4 ∨ 7 < 8 by decide), Bool.not_true, Bool.and_false, Bool.not_false, Bool.and_true]
  cases bitOf v 0 <;> rfl

theorem tcapTku_armGpio : tcapTku (v ||| bitAt 1 true) sub tick x
    = if bitOf v 0 && !(x.capDone && !bitOf v 8) then captured sub tick { x with gpioSel := fieldOf v 7 4, armGpio := true }
      else { x with gpioSel := fieldOf v 7 4, armGpio := true, capDone := x.capDone && !bitOf v 8 } := by
  simp only [tcapTku, tcapSet, bitOf_or_bitAt v 1 (by decide), bitOf_or_bitAt_ne v 1 0 (by decide), bitOf_or_bitAt_ne v 1 8 (by decide),
    fieldOf_or_bitAt v (show 1 < 4 ∨ 7 < 1 by decide)]
  cases bitOf v 0 && !(x.capDone && !bitOf v 8) <;> rfl

end Capture

/-- The armed pin's edge while DONE is clear captures, and disarms the pin (R320). -/
theorem exec_gpioEdgeCapture {pin : Nat} (sub : Nat) {s : State} (hpin : pin < 16) :
    exec (.gpioEdgeCapture pin sub) s = commit s (if s.tku.armGpio && !s.tku.capDone && s.tku.gpioSel == pin then
      { s with tku := { captured sub s.clk.tick s.tku with armGpio := false } } else s) := onObject_true (decide_eq_true hpin)

theorem gpioEdge_captures {pin : Nat} (sub : Nat) {s : State} (hpin : pin < 16) :
    Completes (.gpioEdgeCapture pin sub) s fun t =>
      (if s.tku.armGpio = true ∧ s.tku.capDone = false ∧ s.tku.gpioSel = pin then
        t.tku = { captured sub s.clk.tick s.tku with armGpio := false } else t.tku = s.tku) ∧ Alone [.tku] s t := by
  have hexec := exec_gpioEdgeCapture sub (s := s) hpin
  by_cases h : s.tku.armGpio = true ∧ s.tku.capDone = false ∧ s.tku.gpioSel = pin
  · simp only [if_pos h]
    exact completes_withTku (hexec.trans (by rw [if_pos (by simp [h])]))
  · simp only [if_neg h]
    refine completes_still (e := s) (hexec.trans ?_) rfl rfl ⟨rfl, alone_of_sameBut (sameBut_refl _ s) (by decide)⟩
    rw [if_neg]
    simpa [and_assoc] using h

/-- Settles O21: each clause is what one doorbell or one capture does, by the ring's state and by DONE. -/
theorem doorbellsAndCaptures : Obligations.DoorbellsAndCaptures :=
  ⟨fun _ _ _ hq hd ⟨he, ht⟩ => txDoorbell_moves hq hd he ht, fun _ _ _ hq hd ⟨he, ht⟩ => rxDoorbell_moves hq hd he ht,
    fun _ _ _ _ _ ⟨hi, hq⟩ hd ⟨he, ht⟩ => hi ▸ doorbell_faults hq hd he ht,
    fun _ _ _ _ _ ⟨hi, hq⟩ hd he => hi ▸ doorbell_ignored hq hd he,
    fun _ _ _ _ hn hd hb ⟨he, ht⟩ => express_moves hn hd hb he ht, fun _ _ _ _ ⟨hn, hq⟩ hb h => express_as_doorbell hn hq hb h,
    fun _ _ _ hn hd hb => express_unbound hn hd hb, fun _ v sub => completes_tcapWrite rfl (tcapTku_capture v sub _ _),
    fun _ v sub => completes_tcapWrite rfl (tcapTku_doneClear v sub _ _), fun _ v sub => completes_tcapWrite rfl (tcapTku_armGpio v sub _ _),
    fun _ _ sub hpin => gpioEdge_captures sub hpin⟩

end Sys2Proof.Machine
end

section
/-! Settles O23: status registers whose read clears or counts, the bulk port, and the MSI-X table, one lemma for each clause. -/
namespace Sys2Proof.Machine

/-! Registers whose read clears or counts (R409, R459, R475, R484). -/

section Read
variable {i : Instr} {d : Nat} {w : Word} {s e : State} (h : exec i s = commit s (readIn d w s e))
include h

/-- In an ENABLED domain the read returns the word, and its effect takes hold. -/
theorem completes_read {gs : List Group} (hd : domOn s d = true) (hs : SameBut gs s e) (hirq : Group.irq ∉ gs) :
    Completes i s fun t => Out.read [w] ∈ t.out ∧ SameBut [.irq, .out, .pending] e t ∧ Alone gs s t := by
  have hexec : exec i s = commit s (emit (.read [w]) e) := by rw [h, readIn, if_pos hd]
  refine completes_changes hexec ((hs.trans (emit_sameBut _ e)).mono (by simp [or_comm])) hirq fun t ht hout halone => ?_
  exact ⟨hout _ List.mem_cons_self, ((emit_sameBut _ e).trans ht).mono (by simp), halone⟩

/-- In a domain that is not it returns zero and sets REG_OFF (R475). -/
theorem completes_readOff (hd : domOn s d = false) : Completes i s fun t => Out.read [0] ∈ t.out ∧ CauseSet 12 s t := by
  have hexec : exec i s = commit s (setCause 12 (emit (.read [0]) s)) := by rw [h, readIn, if_neg (by simp [hd])]
  obtain ⟨t, hnext, hout, hcause⟩ := completes_causeSet hexec (emit_sameBut _ s)
  exact ⟨t, hnext, hout _ List.mem_cons_self, hcause⟩

end Read

/-- A read that clears counts of the redundant pair clears nothing else (R459). -/
theorem completes_readPair {i : Instr} {d : Nat} {w : Word} {s : State} {x : Pair} (h : exec i s = commit s (readIn d w s { s with pair := x }))
    (hd : domOn s d = true) : Completes i s fun t => Out.read [w] ∈ t.out ∧ t.pair = x ∧ Alone [.pair] s t := by
  obtain ⟨t, hnext, hread, hframe, halone⟩ := completes_read h hd (withPair_sameBut x s) (by decide)
  exact ⟨t, hnext, hread, hframe .pair (by decide), halone⟩

/-- A read that clears what was latched of refused host writes clears nothing else (R484). -/
theorem completes_readMem {i : Instr} {d : Nat} {w : Word} {s : State} {x : Memory} (h : exec i s = commit s (readIn d w s { s with mem := x }))
    (hd : domOn s d = true) : Completes i s fun t => Out.read [w] ∈ t.out ∧ t.mem = x ∧ Alone [.mem] s t := by
  obtain ⟨t, hnext, hread, hframe, halone⟩ := completes_read h hd (withMem_sameBut x s) (by decide)
  exact ⟨t, hnext, hread, hframe .mem (by decide), halone⟩

/-- The engine after a requester's read of AEAD_STATUS: the owner's is an access, and keeps a DONE result (R409). -/
def statusTaken (s : State) (r : Nat) : Aead :=
  if s.aead.owner = r then { s.aead with lastUse := s.clk.now, statusRead := s.aead.st == .done || s.aead.statusRead } else s.aead

theorem exec_aeadStatusRead {s : State} {r : Nat} (hr : 1 ≤ r ∧ r ≤ 4) :
    exec (.aeadStatusRead r) s = commit s (readIn 29 (aeadStatus s) s { s with aead := statusTaken s r }) := by
  have heffect : (if s.aead.owner = r ∧ s.aead.st = .done then { aeadTouch r s with aead := { (aeadTouch r s).aead with statusRead := true } }
      else aeadTouch r s) = { s with aead := statusTaken s r } := by
    have hr0 : r ≠ 0 := by omega
    by_cases ho : s.aead.owner = r
    · by_cases hst : s.aead.st = .done
      · simp [statusTaken, aeadTouch, ho, hst, hr0]
      · simp [statusTaken, aeadTouch, ho, hst, hr0]
    · simp [statusTaken, aeadTouch, ho]
  refine (onObject_true (decide_eq_true hr)).trans ?_
  rw [heffect]

theorem aeadStatus_taken {s : State} {r : Nat} (hr : 1 ≤ r ∧ r ≤ 4) (hd : domOn s 29 = true) :
    Completes (.aeadStatusRead r) s fun t => Out.read [aeadStatus s] ∈ t.out ∧ t.aead = statusTaken s r ∧ Alone [.aead] s t := by
  obtain ⟨t, hnext, hread, hframe, halone⟩ := completes_read (exec_aeadStatusRead hr) hd (withAead_sameBut _ s) (by decide)
  exact ⟨t, hnext, hread, hframe .aead (by decide), halone⟩

/-- Each of these reads, in a domain that is not ENABLED, returns zero and clears nothing (R475). -/
theorem statusRead_off {s : State} {i : Instr} {d : Nat} (hi : (i, d) ∈ [(.ledgerCreditRead, 28), (.pairStatusRead, 28), (.hdmViolAddrRead, 28),
      (.hdmViolCntRead, 28), (.aeadStatusRead 1, 29), (.aeadStatusRead 2, 29), (.aeadStatusRead 3, 29), (.aeadStatusRead 4, 29)])
    (hd : domOn s d = false) : Completes i s fun t => Out.read [0] ∈ t.out ∧ CauseSet 12 s t := by
  simp only [List.mem_cons, List.not_mem_nil, or_false, Prod.mk.injEq] at hi
  rcases hi with ⟨rfl, rfl⟩ | ⟨rfl, rfl⟩ | ⟨rfl, rfl⟩ | ⟨rfl, rfl⟩ | ⟨rfl, rfl⟩ | ⟨rfl, rfl⟩ | ⟨rfl, rfl⟩ | ⟨rfl, rfl⟩
  · exact completes_readOff (i := .ledgerCreditRead) rfl hd
  · exact completes_readOff (i := .pairStatusRead) rfl hd
  · exact completes_readOff (i := .hdmViolAddrRead) rfl hd
  · exact completes_readOff (i := .hdmViolCntRead) rfl hd
  · exact completes_readOff (exec_aeadStatusRead (by decide)) hd
  · exact completes_readOff (exec_aeadStatusRead (by decide)) hd
  · exact completes_readOff (exec_aeadStatusRead (by decide)) hd
  · exact completes_readOff (exec_aeadStatusRead (by decide)) hd

theorem blockRead_off {s : State} {off d : Nat} (hb : blockDomain off = some d) (hd : domOn s d = false) :
    Completes (.offBlockRead off) s fun t => Out.read [0] ∈ t.out ∧ CauseSet 12 s t := by
  have hexec : exec (.offBlockRead off) s = commit s (setCause 12 (emit (.read [0]) s)) := by
    refine congrArg (commit s) ?_
    rw [hb]
    exact if_neg (by simp [hd])
  obtain ⟨t, hnext, hout, hcause⟩ := completes_causeSet hexec (emit_sameBut _ s)
  exact ⟨t, hnext, hout _ List.mem_cons_self, hcause⟩

/-! The bulk port (R370, R371, R475, R487). -/

/-- AUTO_INC changes the offset and nothing else (R370). -/
theorem bulkAdvance_eq (off len : Nat) (s : State) :
    bulkAdvance off len s = { s with mem := { s.mem with offset := (bulkAdvance off len s).mem.offset } } := by
  unfold bulkAdvance
  split <;> rfl

theorem bulkAdvance_sameBut (off len : Nat) (s : State) : SameBut [.mem] s (bulkAdvance off len s) := by
  rw [bulkAdvance_eq]
  exact withMem_sameBut _ s

@[simp] theorem bulkAdvance_out (off len : Nat) (s : State) : (bulkAdvance off len s).out = s.out := by rw [bulkAdvance_eq]

theorem bulkAdvance_mem_congr {s t : State} (h : t.mem = s.mem) (off len : Nat) : (bulkAdvance off len t).mem = (bulkAdvance off len s).mem := by
  unfold bulkAdvance
  rw [h]
  split
  · rfl
  · exact h

theorem bulkFail_sameBut (code : Nat) (s : State) : SameBut [.mem] s (bulkFail code s) := by
  unfold bulkFail
  split
  · exact sameBut_refl _ s
  · exact withMem_sameBut _ s

/-- A failure sets ERR, and keeps the first cause since ERR was cleared (R370). -/
theorem bulkFail_mem {code : Nat} (h : code ≠ 0) (s : State) :
    (bulkFail code s).mem = { s.mem with err := true, errCode := if s.mem.err then s.mem.errCode else code } := by
  rw [bulkFail, if_neg h]

/-- Reads of lines that are not marked find nothing (R368). -/
theorem foldl_poisonRead_of_clean {ls : List Nat} {s : State} (h : ∀ l ∈ ls, tabGet false s.mem.poison l = false) :
    ls.foldl poisonRead s = s := by
  induction ls with
  | nil => rfl
  | cons l ls ih =>
    obtain ⟨hl, hls⟩ := List.forall_mem_cons.1 h
    rw [List.foldl_cons, poisonRead, if_pos hl, ih hls]

/-- A failed access changes the bulk port's error and its offset alone (R370). -/
abbrev BulkFailed (e : Nat) (s t : State) : Prop :=
  t.mem.err = true ∧ t.mem.errCode = (if s.mem.err then s.mem.errCode else e)
  ∧ { t.mem with err := s.mem.err, errCode := s.mem.errCode, offset := s.mem.offset } = s.mem ∧ Alone [.mem] s t

theorem bulkFailed_of_mem {e off len : Nat} {s t : State} (he : e ≠ 0) (h : t.mem = (bulkAdvance off len (bulkFail e s)).mem)
    (halone : Alone [.mem] s t) : BulkFailed e s t := by
  rw [bulkAdvance_eq, bulkFail_mem he] at h
  exact ⟨by rw [h], by rw [h], by rw [h], halone⟩

section BulkRead
variable {s : State} {off len : Nat} (hlen : off + len ≤ 4096)
include hlen

theorem exec_bulkDataRead :
    exec (.bulkDataRead off len) s = commit s (if !domOn s 28 then emit (.read (List.replicate (len / 8) 0)) (bulkOff s)
      else if bulkError s false off len ≠ 0 then
        bulkAdvance off len (emit (.read (List.replicate (len / 8) 0)) (bulkFail (bulkError s false off len) s))
      else bulkAdvance off len (emit (.read (bulkWords s (s.mem.offset + off) len).1)
        (bulkFail (bulkWords s (s.mem.offset + off) len).2 ((bulkLines s (s.mem.offset + off) len).foldl poisonRead s)))) :=
  onObject_true (decide_eq_true hlen)

section Good
variable (hd : domOn s 28 = true) (hgood : bulkError s false off len = 0)
include hd hgood

theorem bulkRead_returns :
    Completes (.bulkDataRead off len) s fun t => Out.read (bulkWords s (s.mem.offset + off) len).1 ∈ t.out
      ∧ Leaves s (bulkAdvance off len (emit (.read (bulkWords s (s.mem.offset + off) len).1)
          (bulkFail (bulkWords s (s.mem.offset + off) len).2 ((bulkLines s (s.mem.offset + off) len).foldl poisonRead s)))) t := by
  have hexec := exec_bulkDataRead hlen (s := s)
  rw [if_neg (by simp [hd]), if_neg (by simp [hgood])] at hexec
  refine completes_of_exec hexec fun t ⟨hframe, _, hout, hqueue⟩ => ⟨hout _ ?_, hframe.mono (by simp), hqueue⟩
  rw [bulkAdvance_out]
  exact List.mem_cons_self

theorem bulkRead_clean (hclean : ∀ l ∈ bulkLines s (s.mem.offset + off) len, tabGet false s.mem.poison l = false) :
    Completes (.bulkDataRead off len) s fun t =>
      Out.read (bulkWords s (s.mem.offset + off) len).1 ∈ t.out
      ∧ t.mem = (bulkAdvance off len (bulkFail (bulkWords s (s.mem.offset + off) len).2 s)).mem ∧ Alone [.mem] s t := by
  have hexec := exec_bulkDataRead hlen (s := s)
  rw [if_neg (by simp [hd]), if_neg (by simp [hgood]), foldl_poisonRead_of_clean hclean] at hexec
  have hs := ((bulkFail_sameBut (bulkWords s (s.mem.offset + off) len).2 s).trans
    (emit_sameBut (.read (bulkWords s (s.mem.offset + off) len).1) _)).trans (bulkAdvance_sameBut off len _)
  refine completes_changes hexec (hs.mono (by simp)) (by decide) fun t hframe hout halone => ⟨hout _ ?_, ?_, halone⟩
  · rw [bulkAdvance_out]
    exact List.mem_cons_self
  · exact (hframe .mem (by decide)).trans (bulkAdvance_mem_congr (emit_mem _ _) off len)

end Good

theorem bulkRead_fails {e : Nat} (hd : domOn s 28 = true) (herr : bulkError s false off len = e) (he : e ≠ 0) :
    Completes (.bulkDataRead off len) s fun t => Out.read (List.replicate (len / 8) 0) ∈ t.out ∧ BulkFailed e s t := by
  have hexec := exec_bulkDataRead hlen (s := s)
  rw [herr, if_neg (by simp [hd]), if_pos he] at hexec
  have hs := ((bulkFail_sameBut e s).trans (emit_sameBut (.read (List.replicate (len / 8) 0)) _)).trans (bulkAdvance_sameBut off len _)
  refine completes_changes hexec (hs.mono (by simp)) (by decide) fun t hframe hout halone =>
    ⟨hout _ ?_, bulkFailed_of_mem (off := off) (len := len) he ?_ halone⟩
  · rw [bulkAdvance_out]
    exact List.mem_cons_self
  · exact (hframe .mem (by decide)).trans (bulkAdvance_mem_congr (emit_mem _ _) off len)

end BulkRead

/-- A write into FW_STAGE stores its bytes and withdraws the verified stage (R401). -/
theorem stageWrite_leaves (off : Nat) (bs : List Byte) (s : State) :
    (stageWrite off bs s).mem.granary = memWrite s.mem.granary (stageBase s + off) bs ∧ (stageWrite off bs s).mp = { s.mp with stage := none }
      ∧ SameBut [.mem, .mp, .out] s (stageWrite off bs s) := by
  refine ⟨by simp [stageWrite, ownWrite, granaryWrite], by simp [stageWrite, ownWrite], ?_⟩
  intro g hg
  cases g <;> simp_all [Group.same, stageWrite, ownWrite]

section BulkWrite
variable {s : State} {off : Nat} {ws : List Word} (hlen : off + 8 * ws.length ≤ 4096)
include hlen

theorem exec_bulkDataWrite :
    exec (.bulkDataWrite off ws) s = commit s (if !domOn s 28 then bulkOff s
      else if bulkError s true off (8 * ws.length) ≠ 0 then bulkAdvance off (8 * ws.length) (bulkFail (bulkError s true off (8 * ws.length)) s)
      else bulkAdvance off (8 * ws.length) (if s.mem.target = 1 then stageWrite (s.mem.offset + off) (wordsBytes ws) s
        else { s with mem := { s.mem with planStage := memWriteWords s.mem.planStage (s.mem.offset + off) ws } })) :=
  onObject_true (decide_eq_true hlen)

theorem bulkWrite_fails {e : Nat} (hd : domOn s 28 = true) (herr : bulkError s true off (8 * ws.length) = e) (he : e ≠ 0) :
    Completes (.bulkDataWrite off ws) s fun t => BulkFailed e s t := by
  have hexec := exec_bulkDataWrite hlen (s := s)
  rw [herr, if_neg (by simp [hd]), if_pos he] at hexec
  have hs := (bulkFail_sameBut e s).trans (bulkAdvance_sameBut off (8 * ws.length) _)
  exact completes_changes hexec (hs.mono (by simp)) (by decide) fun t hframe _ halone => bulkFailed_of_mem he (hframe .mem (by decide)) halone

section Good
variable (hd : domOn s 28 = true) (hgood : bulkError s true off (8 * ws.length) = 0)
include hd hgood

theorem bulkWrite_planStage (htarget : s.mem.target = 2) :
    Completes (.bulkDataWrite off ws) s fun t =>
      t.mem.planStage = memWriteWords s.mem.planStage (s.mem.offset + off) ws
      ∧ { t.mem with planStage := s.mem.planStage, offset := s.mem.offset } = s.mem ∧ Alone [.mem] s t := by
  have hexec := exec_bulkDataWrite hlen (s := s)
  rw [if_neg (by simp [hd]), if_neg (by simp [hgood]), if_neg (by simp [htarget])] at hexec
  have hs := (withMem_sameBut { s.mem with planStage := memWriteWords s.mem.planStage (s.mem.offset + off) ws } s).trans
    (bulkAdvance_sameBut off (8 * ws.length) _)
  refine completes_changes (gs := [.mem]) hexec (hs.mono (by simp)) (by decide) fun t hframe _ halone => ?_
  rw [bulkAdvance_eq] at hframe
  have hmem : t.mem = _ := hframe .mem (by decide)
  exact ⟨by rw [hmem], by rw [hmem], halone⟩

theorem bulkWrite_fwStage (htarget : s.mem.target = 1) :
    Completes (.bulkDataWrite off ws) s fun t =>
      t.mem.granary = memWrite s.mem.granary (stageBase s + (s.mem.offset + off)) (wordsBytes ws) ∧ t.mp = { s.mp with stage := none }
      ∧ Alone [.mem, .mp] s t := by
  have hexec := exec_bulkDataWrite hlen (s := s)
  rw [if_neg (by simp [hd]), if_neg (by simp [hgood]), if_pos htarget] at hexec
  obtain ⟨hgranary, hmp, hs⟩ := stageWrite_leaves (s.mem.offset + off) (wordsBytes ws) s
  refine completes_changes (gs := [.mem, .mp]) hexec ((hs.trans (bulkAdvance_sameBut _ _ _)).mono (by simp)) (by decide) fun t hframe _ halone => ?_
  rw [bulkAdvance_eq] at hframe
  have hmem : t.mem = _ := hframe .mem (by decide)
  have hstage : t.mp = _ := hframe .mp (by decide)
  exact ⟨by rw [hmem]; exact hgranary, hstage.trans hmp, halone⟩

end Good
end BulkWrite

/-- A state in which an access of the bulk port, with D28 off, has left BUSY due (R487). -/
def busyLeft (s : State) : State := { s with mem := { s.mem with busyDue := true } }

/-- A command that at most sends beside an access with D28 off leaves BUSY due and REG_OFF set (R475, R487). -/
theorem completes_bulkOff {i : Instr} {s e : State} (h : exec i s = commit s e) (he : SameBut [.out] (bulkOff s) e) :
    Completes i s fun t =>
      t.mem = { s.mem with busyDue := true } ∧ t.irq.cause = s.irq.cause ||| bitAt 12 true ∧ SameBut [.mem, .irq, .out] s t := by
  have hleft := ((withMem_sameBut { s.mem with busyDue := true } s).trans (setCause_sameBut 12 (busyLeft s))).trans he
  have hirq : e.irq = (bulkOff s).irq := he .irq (by decide)
  refine completes_of_exec h fun t ht => ⟨?_, ?_, (becomes_same hleft ht).mono (by simp)⟩
  · exact (ht.1 .mem (by decide)).trans (he .mem (by decide))
  · rw [ht.2.1, hirq]
    rfl

theorem bulk_off {s : State} {off len : Nat} {ws : List Word} {i : Instr}
    (hi : i = .bulkDataRead off len ∨ i = .bulkDataWrite off ws ∧ len = 8 * ws.length) (hlen : off + len ≤ 4096) (hd : domOn s 28 = false) :
    Completes i s fun t =>
      t.mem = { s.mem with busyDue := true } ∧ t.irq.cause = s.irq.cause ||| bitAt 12 true ∧ SameBut [.mem, .irq, .out] s t := by
  rcases hi with rfl | ⟨rfl, rfl⟩
  · have hexec := exec_bulkDataRead hlen (s := s)
    rw [if_pos (by simp [hd])] at hexec
    exact completes_bulkOff hexec (emit_sameBut _ _)
  · have hexec := exec_bulkDataWrite hlen (s := s)
    rw [if_pos (by simp [hd])] at hexec
    exact completes_bulkOff hexec (sameBut_refl _ _)

/-! The MSI-X table and the HDM decoder (R351, R362). -/

/-- A vector of the table unmasked, with nothing pending. -/
def vectorOpened (v : Nat) (s : State) : State :=
  { s with irq := { s.irq with msix := tabPut {} s.irq.msix v { tabGet {} s.irq.msix v with masked := false, pend := false } } }

/-- Unmasking a vector with a pending message sends it where the host link is up (R362). -/
theorem unmaskVector_eq (v : Nat) (s : State) :
    unmaskVector v s = if (tabGet {} s.irq.msix v).pend = true ∧ s.host.up = true then
      emit (.msix v (tabGet {} s.irq.msix v).addr (tabGet {} s.irq.msix v).data) (vectorOpened v s) else vectorOpened v s := by
  have hentry : tabGet {} (vectorOpened v s).irq.msix v = { tabGet {} s.irq.msix v with masked := false, pend := false } := tabGet_tabPut_self _ _ _ _
  have hsend : signalVector v (vectorOpened v s) = if s.host.up = true then
      emit (.msix v (tabGet {} s.irq.msix v).addr (tabGet {} s.irq.msix v).data) (vectorOpened v s) else vectorOpened v s := by
    unfold signalVector
    rw [hentry]
    rfl
  have hunmask : unmaskVector v s = if (tabGet {} s.irq.msix v).pend then signalVector v (vectorOpened v s) else vectorOpened v s := rfl
  rw [hunmask, hsend]
  cases (tabGet {} s.irq.msix v).pend <;> simp

theorem vectorOpened_sameBut (v : Nat) (s : State) : SameBut [.irq] s (vectorOpened v s) := by
  intro g hg; cases g <;> simp_all [Group.same, vectorOpened]

theorem unmask_sends {s : State} {v : Nat} (hv : v < 64) :
    Completes (.msixVectorUnmask v) s fun t =>
      ((tabGet {} s.irq.msix v).pend = true → s.host.up = true → Out.msix v (tabGet {} s.irq.msix v).addr (tabGet {} s.irq.msix v).data ∈ t.out)
      ∧ tabGet {} t.irq.msix v = { (tabGet {} s.irq.msix v) with masked := false, pend := false }
      ∧ (∀ k, k ≠ v → tabGet {} t.irq.msix k = tabGet {} s.irq.msix k) ∧ SameBut [.irq, .out] s t
      ∧ { t.irq with msix := s.irq.msix } = s.irq := by
  have hexec : exec (.msixVectorUnmask v) s = commit s (unmaskVector v s) := onObject_true (decide_eq_true hv)
  rw [unmaskVector_eq] at hexec
  have hself : tabGet {} (vectorOpened v s).irq.msix v = { tabGet {} s.irq.msix v with masked := false, pend := false } := tabGet_tabPut_self _ _ _ _
  have hother : ∀ k, k ≠ v → tabGet {} (vectorOpened v s).irq.msix k = tabGet {} s.irq.msix k := fun k hk => tabGet_tabPut_ne _ _ _ _ _ hk
  by_cases hsend : (tabGet {} s.irq.msix v).pend = true ∧ s.host.up = true
  · rw [if_pos hsend] at hexec
    exact completes_still hexec rfl rfl ⟨fun _ _ => List.mem_cons_self, hself, hother,
      ((vectorOpened_sameBut v s).trans (emit_sameBut _ _)).mono (by simp), rfl⟩
  · rw [if_neg hsend] at hexec
    exact completes_still hexec rfl rfl ⟨fun hp hu => absurd ⟨hp, hu⟩ hsend, hself, hother, (vectorOpened_sameBut v s).mono (by simp), rfl⟩

theorem hdmDecoder_commits {s : State} {base : Nat} (hu : s.host.up = true) (hp : s.host.pcieOnly = false) :
    Completes (.hdmDecoderCommit base) s fun t => t.host = { s.host with hdmCommitted := true, hdmBase := base } ∧ Alone [.host] s t := by
  have hexec : exec (.hdmDecoderCommit base) s = commit s { s with host := { s.host with hdmCommitted := true, hdmBase := base } } :=
    congrArg (commit s) (if_pos (by simp [hu, hp]))
  exact completes_still hexec rfl rfl ⟨rfl, alone_of_sameBut ((withHost_sameBut _ s).mono (by simp)) (by decide)⟩

/-- Settles O23: each clause is what one read, one bulk access or one write of the MSI-X table does. -/
theorem statusReadsAndBulkPort : Obligations.StatusReadsAndBulkPort :=
  ⟨fun _ => completes_readPair rfl, fun _ => completes_readPair rfl, fun _ => completes_readMem rfl, fun _ => completes_readMem rfl,
    fun _ _ hr hd => aeadStatus_taken hr hd, fun _ _ _ hi hd => statusRead_off hi hd, fun _ _ _ ⟨hb, hd⟩ => blockRead_off hb hd,
    fun _ _ _ hlen hd hgood hclean => bulkRead_clean hlen hd hgood hclean, fun _ _ _ hlen hd hgood => bulkRead_returns hlen hd hgood,
    fun _ _ _ _ _ hi hlen hd => bulk_off hi hlen hd, fun _ _ _ _ hlen hd herr he => bulkRead_fails hlen hd herr he,
    fun _ _ _ _ hlen hd ⟨herr, he⟩ => bulkWrite_fails hlen hd herr he,
    fun _ _ _ hlen hd ⟨hgood, htarget⟩ => bulkWrite_planStage hlen hd hgood htarget,
    fun _ _ _ hlen hd ⟨hgood, htarget⟩ => bulkWrite_fwStage hlen hd hgood htarget, fun _ _ hv => unmask_sends hv,
    fun _ _ ⟨hu, hp⟩ => hdmDecoder_commits hu hp⟩

end Sys2Proof.Machine
end

section
/-! SUPPORT. The reset state, one step, and what every command signals: each outcome is a commit, a write of the interrupt registers or a fault, and the
first two signal EVENT_VECTOR where a bit of PENDING rises (R435, R481, R482). -/
namespace Sys2Proof.Machine

/-- Settles O54: at reset the keep store holds the words of identity and of the boot record in their order, and the memories hold nothing. -/
theorem invariantAtReset : Obligations.InvariantAtReset := by
  refine ⟨⟨by decide, ?_⟩, ⟨by decide, by decide, by decide⟩, ?_, ?_⟩
  · intro i hi
    exact absurd hi List.not_mem_nil
  · exact List.nodup_nil
  · intro k hk
    exact absurd hk (Option.some_ne_none k).symm

/-- Settles O52: `step` looks at the queue alone, and the two states differ in nothing else. -/
theorem stepRunsTheFront : Obligations.StepRunsTheFront := fun _ _ _ => ⟨rfl, rfl⟩

/-! A message on a vector leaves what PENDING is made of. -/

/-- PENDING depends on the causes and their sources, not on the MSI-X table or what was sent (R480, R481). -/
theorem intPending_congr {s t : State} (h : SameBut [.irq, .out, .pending] s t) (hirq : t.irq = { s.irq with msix := t.irq.msix }) :
    intPending t = intPending s := by
  have haead : t.aead = s.aead := h .aead (by decide)
  have hmem : t.mem = s.mem := h .mem (by decide)
  have htku : t.tku = s.tku := h .tku (by decide)
  have hpwr : t.pwr = s.pwr := h .pwr (by decide)
  have hpair : t.pair = s.pair := h .pair (by decide)
  unfold intPending intCause
  rw [hirq, haead, hmem, htku, hpwr, hpair]

theorem intPending_signalVector (v : Nat) (s : State) : intPending (signalVector v s) = intPending s :=
  intPending_congr ((signalVector_same v s).1.mono (by simp)) (signalVector_same v s).2

/-- A message on EVENT_VECTOR tells: a masked vector is left pending, and an unmasked one is sent (R362). -/
theorem told_signalVector (s : State) : Told (signalVector s.irq.vector s) := by
  unfold signalVector
  dsimp only
  by_cases hm : (tabGet {} s.irq.msix s.irq.vector).masked = true
  · simp only [if_pos hm, Told, tabGet_tabPut_self]
  · by_cases hu : s.host.up = true
    · simp only [if_neg hm, if_pos hu, Told, emit_irq, emit_host]
      exact fun _ => List.mem_cons_self
    · simp only [if_neg hm, if_neg hu, Told]
      exact fun h => absurd h hu

/-- At most one message goes out (R481). -/
theorem out_signalVector (v : Nat) (s : State) : (signalVector v s).out = s.out ∨ ∃ o, (signalVector v s).out = o :: s.out := by
  unfold signalVector
  dsimp only
  split
  · exact .inl rfl
  · split
    · exact .inr ⟨_, rfl⟩
    · exact .inl rfl

/-! The outcomes of commands. -/

/-- Where the outcome is a next state in which a bit of PENDING rose, EVENT_VECTOR is signalled in it. -/
def Tells (s : State) (o : Result) : Prop := ∀ t, o = .next t → intPending t &&& ~~~ intPending s ≠ 0 → Told t

theorem commit_tells (s e : State) : Tells s (commit s e) := by
  intro t ht hrise
  rw [commit_eq] at ht
  obtain rfl := Host.Outcome.next.inj ht
  unfold signalRise at hrise ⊢
  split at hrise
  · next hnone => exact absurd hnone hrise
  · next hsome =>
    rw [if_neg hsome]
    exact told_signalVector _

theorem commitWrite_tells {s : State} (e : State) : Tells s (commitWrite e) := by
  intro t ht hrise
  obtain rfl := Host.Outcome.next.inj ht
  split at hrise
  · next hnone => simp [hnone] at hrise
  · next hsome =>
    rw [if_neg hsome]
    exact told_signalVector _

theorem fault_tells {s : State} (f : Fault) : Tells s (.fault f) := by
  intro t ht
  cases ht

theorem ite_tells {c : Prop} [Decidable c] {s : State} {a b : Result} (ha : Tells s a) (hb : Tells s b) : Tells s (if c then a else b) := by
  split
  · exact ha
  · exact hb

theorem onObject_tells (ok : Bool) (s e : State) : Tells s (onObject ok s e) := ite_tells (commit_tells s e) (fault_tells _)

theorem mailboxCommand_tells {op owner m : Nat} {words : Nat → Bool} {s : State} {body : Mailbox → Reply} {o : Result}
    (h : mailboxCommand op owner words m s body = o) : Tells s o := h ▸ onObject_tells _ s _

theorem execDeviceReset_tells (m : Nat) (s : State) : Tells s (execDeviceReset m s) := by
  unfold execDeviceReset
  dsimp only
  split
  · next hserved =>
    have hplain := mailboxCommand_tells hserved
    exact ite_tells (ite_tells (commit_tells s _) (ite_tells (commit_tells s _) hplain)) hplain
  · exact mailboxCommand_tells rfl

theorem execRegisterWrite_tells (agent bar off bytes : Nat) (v : Word) (s : State) : Tells s (execRegisterWrite agent bar off bytes v s) :=
  ite_tells (fault_tells _) (ite_tells (commit_tells s _) (ite_tells (commitWrite_tells _) (ite_tells (commitWrite_tells _)
    (ite_tells (commitWrite_tells _) (commit_tells s _)))))

theorem execTkuSecond_tells (s : State) : Tells s (execTkuSecond s) := by
  have hsame : intPending (ppsOut s) = intPending s := by
    unfold ppsOut
    dsimp only
    split <;> rfl
  intro t ht hrise
  exact commit_tells (ppsOut s) _ t ht (hsame ▸ hrise)

/-- Whatever the command, PENDING does not rise unsignalled (R481). -/
theorem exec_tells (i : Instr) (s : State) : Tells s (exec i s) := by
  unfold exec
  cases i with
  | deviceReset => exact execDeviceReset_tells _ s
  | registerWrite => exact execRegisterWrite_tells _ _ _ _ _ s
  -- The three registers whose write signals where PENDING stays non-zero.
  | intCauseWrite | intMaskWrite | mbDoneMapWrite => exact commitWrite_tells _
  -- Commands that name no numbered object.
  | mbTake | backgroundOpDone | mctpWrite | mctpRead | mctpDoorbell | setEndpointId | getEndpointId | getMctpVersionSupport | getMessageTypeSupport
  | getVendorDefinedMsgSupport | journalEntry | standbyReady | watchdogKick | watchdogExpiry | eventVectorWrite | evConsWrite | tcapCapture
  | tcapDoneClear | tcapArmGpio | ksDataWrite | ksDataRead | keepWriteStart | keepWriteDone | keepWriteWaitTimeout | aeadOpDone | aeadIdleRelease
  | entropyHealthFail | drbgReseed | chkPipeCntRead | ledgerCreditRead | pairStatusRead | hdmViolAddrRead | hdmViolCntRead | resetNAssert
  | resetNRelease | sequenceStart | sequenceDone | railRemoved | domainSwitchStart | vddCoreWindowFlag | oscInLoss | oscInReturn | avsMeasurement
  | avsBusFault | avsBusRetry | pmbusPoll | ledgerHourlyUpdate | ledgerDailyWrite | ledgerYearlySnapshot | avsAtLimitExpiry | tickStrobe
  | captureFreeze | bringupQueueStart | peerMarkerMissing | followerTestExpiry | isolatedExpiry | candidateExpiry | checkpointComplete
  | ldpcDispatch | ldpcKnownAnswerTest | retainExpiry | hostRequestFailed | cxlCompletionTimeout | hostLinkUp | hostLinkDown | hotReset | h2dSnoop
  | ideMacFail | ideKeyProgram | spdmRequest | grantListHandover | grantListClose | grantListReuseExpiry | superframeBoundary | sfMarkWrite
  | endpointSummaryWrite | sfRefLost | todInMessage | todOutSend | peerSourceLoss | hostSourceLoss | peerExchange | modelWrite
  | evidenceRecord | evLate | recordSeqMarkWrite | alertNRelease | mpBootDone | hdmDecoderCommit | offBlockRead => exact commit_tells s _
  | tkuSecond => exact execTkuSecond_tells s
  -- Commands of a mailbox, and those that name a circuit, port, lane, cluster, ring, domain, check unit or requester.
  | _ => exact onObject_tells _ s _

/-! The clauses about single registers. -/

/-- A write of INT_CAUSE, INT_MASK or MB_DONE_MAP signals where PENDING stays non-zero, with one message at most (R481). -/
theorem completes_commitWrite {i : Instr} {s e : State} (h : exec i s = commitWrite e) (hout : e.out = s.out) :
    Completes i s fun t => (intPending t ≠ 0 → Told t) ∧ (t.out = s.out ∨ ∃ o, t.out = o :: s.out) := by
  refine ⟨_, h, ?_⟩
  rw [← hout]
  split
  · next hnone => exact ⟨fun hsome => absurd hnone hsome, .inl rfl⟩
  · exact ⟨fun _ => told_signalVector e, out_signalVector _ e⟩

theorem interruptWrite_signals (s : State) (v : Word) : ∀ i ∈ [Instr.intCauseWrite v, .intMaskWrite v, .mbDoneMapWrite v,
    .registerWrite 4 0 0x1000 8 v, .registerWrite 4 0 0x1008 8 v, .registerWrite 4 0 0x1018 8 v],
    Completes i s fun t => (intPending t ≠ 0 → Told t) ∧ (t.out = s.out ∨ ∃ o, t.out = o :: s.out) := by
  intro i hi
  simp only [List.mem_cons, List.not_mem_nil, or_false] at hi
  rcases hi with rfl | rfl | rfl | rfl | rfl | rfl
  · exact completes_commitWrite (e := causeWrite v s) rfl rfl
  · exact completes_commitWrite (e := maskWrite v s) rfl rfl
  · exact completes_commitWrite (e := doneMapWrite v s) rfl rfl
  · exact completes_commitWrite (e := causeWrite v s) rfl rfl
  · exact completes_commitWrite (e := maskWrite v s) rfl rfl
  · exact completes_commitWrite (e := doneMapWrite v s) rfl rfl

theorem eventVectorWrite_sets (s : State) (v : Word) :
    Completes (.eventVectorWrite v) s fun t => t.irq.vector = fieldOf v 5 0 ∧ t.irq.vector < 64 := by
  refine completes_of_exec (e := vectorWrite v s) rfl fun t ht => ?_
  have hvector : t.irq.vector = fieldOf v 5 0 := by rw [ht.2.1]; rfl
  exact ⟨hvector, hvector ▸ Nat.mod_lt _ (by decide)⟩

theorem mbDoneMapWrite_clears (s : State) (v : Word) : Completes (.mbDoneMapWrite v) s fun t => t.irq.mbDone = s.irq.mbDone &&& ~~~ v :=
  completes_write fun u _ hirq _ => by rw [hirq]; rfl

theorem mbCancel_setsDone {s : State} {m : Nat} (hm : m < 24) (hlocked : (boxOf s m).st = .posted ∨ (boxOf s m).st = .running) :
    Completes (.mbCancel m) s fun t => t.irq.mbDone = s.irq.mbDone ||| bitAt m true := by
  have hbox : boxCancel m s = finish m stCancelled 0 [] s := if_pos (by rcases hlocked with h | h <;> simp [boxLocked, h])
  refine completes_of_exec (e := finish m stCancelled 0 [] s) ?_ fun t ht => ?_
  · rw [← hbox]
    exact onObject_true (decide_eq_true (by omega))
  · rw [ht.2.1, finish_irq, if_pos hm]

/-- Settles O51: every outcome tells of a rise, and the clauses about one register are what its write does. -/
theorem pendingRiseSignals : Obligations.PendingRiseSignals :=
  ⟨fun i s t ⟨hexec, hrise⟩ => exec_tells i s t hexec hrise, interruptWrite_signals,
    fun s v => ⟨eventVectorWrite_sets s v, mbDoneMapWrite_clears s v, rfl, rfl, fun _ hm hlocked => mbCancel_setsDone hm hlocked⟩⟩

end Sys2Proof.Machine
end

section
/-! SUPPORT. A served mailbox command that answers OK: what its completion leaves of its effect, and what follows for the rest of the state (R378, R380,
R385, R482). -/
namespace Sys2Proof.Machine

theorem noWords_of_eq {n : Nat} (h : n = 0) : noWords n = true := by rw [h]; rfl
theorem exactly_of_eq {k n : Nat} (h : n = k) : exactly k n = true := by rw [h]; exact beq_self_eq_true k

/-- A scalar within its range passes its check. -/
theorem inRange_fst {b : Mailbox} {i lo hi : Nat} : (inRange b i lo hi).1 = true ↔ lo ≤ prmN b i ∧ prmN b i ≤ hi := by simp [inRange]

/-- A word below 2^63 is the number it reads as. -/
theorem intOf_prm {b : Mailbox} {i x : Nat} (h : prmN b i = x) (hx : x < 2 ^ 63) : intOf (prm b i) = (x : Int) := by
  have hlt : 2 * (prm b i).toNat < 2 ^ 64 := by
    unfold prmN at h
    omega
  rw [← h, intOf, BitVec.toInt_eq_toNat_of_lt hlt, prmN]

/-- Mailbox m answers these words, and beside its completion the state `u` is the effect `e` of its command on `s`. -/
structure Served (m : Nat) (ws : List Word) (s e u : State) : Prop where
  answers : Answers u m ws
  same : SameBut [.mb, .irq, .out, .pending] e u
  pending : u.pending = s.pending
  other : ∀ n, n ≠ m → boxOf u n = boxOf e n
  background : u.mb.background = e.mb.background
  irq : u.irq = { e.irq with mbDone := if m < 24 then e.irq.mbDone ||| bitAt m true else e.irq.mbDone, msix := u.irq.msix }
  sent : ∀ o ∈ e.out, o ∈ u.out

theorem out_finish (m st d : Nat) (ws : List Word) (s : State) : (finish m st d ws s).out = s.out := by
  unfold finish setBox
  dsimp only
  split <;> rfl

/-- A served command whose reply is an inline OK ends in a state where its mailbox is served. -/
theorem served_next {op owner m : Nat} {words : Nat → Bool} {s e : State} {ws : List Word} {body : Mailbox → Reply} (h : Serves s m op owner)
    (hw : words (boxOf s m).paramWords = true) (hb : body (boxOf s m) = okay ws e) (hl : ws.length ≤ 120) :
    ∃ u, mailboxCommand op owner words m s body = .next u ∧ Served m ws s e u := by
  refine ⟨_, mailbox_okay h hw hb hl, answers_finish m ws s e s.pending, finish_sameBut m 0 0 ws s e, by simp, fun n hn => ?_, ?_, ?_, ?_⟩
  · rw [boxOf_signalRise]
    exact boxOf_finish_ne m n 0 0 ws e hn
  · simp
  · refine (irq_signalRise s _).trans ?_
    dsimp only
    rw [finish_irq]
  · intro o ho
    exact mem_out_signalRise ((out_finish m 0 0 ws e).symm ▸ ho)

/-- It completes with what follows from that. -/
theorem completes_served {i : Instr} {op owner m : Nat} {words : Nat → Bool} {s e : State} {ws : List Word} {body : Mailbox → Reply}
    {P : State → Prop} {o : Result} (ho : exec i s = o) (hi : o = mailboxCommand op owner words m s body) (h : Serves s m op owner)
    (hw : words (boxOf s m).paramWords = true) (hb : body (boxOf s m) = okay ws e) (hl : ws.length ≤ 120)
    (hp : ∀ u, Served m ws s e u → P u) : Completes i s P := by
  obtain ⟨u, hnext, hu⟩ := served_next h hw hb hl
  exact ⟨u, (ho.trans hi).trans hnext, hp u hu⟩

/-- Where the effect leaves all but some groups, so does the command, its mailbox and the interrupt state apart. -/
theorem Served.sameBut {m : Nat} {ws : List Word} {gs : List Group} {s e u : State} (h : Served m ws s e u) (hs : SameBut gs s e) :
    SameBut (.mb :: .irq :: .out :: gs) s u := by
  intro g hg
  simp only [List.mem_cons, not_or] at hg
  have heffect := hs g
  have hsame := h.same g
  have hqueue := h.pending
  cases g <;> simp_all [Group.same]

/-- An effect that reaches neither mailboxes nor the interrupt state leaves the command alone with its mailbox and those groups. -/
theorem Served.doneAlone {m : Nat} {ws : List Word} {gs : List Group} {s e u : State} (h : Served m ws s e u) (hs : SameBut gs s e)
    (hmb : Group.mb ∉ gs) (hirq : Group.irq ∉ gs) : DoneAlone m gs s u := by
  have hboxes : e.mb = s.mb := hs .mb hmb
  have hcauses : e.irq = s.irq := hs .irq hirq
  refine ⟨h.sameBut hs, fun n hn => (h.other n hn).trans (boxOf_congr hboxes n), ?_, ?_, ?_⟩
  · rw [h.background, hboxes]
  · rw [h.irq, hcauses]
  · rw [h.irq, hcauses]

/-- A served command that only reads answers its words and changes its mailbox alone. -/
theorem completes_readout {i : Instr} {op owner m : Nat} {words : Nat → Bool} {s : State} {ws : List Word} {body : Mailbox → Reply}
    {o : Result} (ho : exec i s = o) (hi : o = mailboxCommand op owner words m s body) (h : Serves s m op owner)
    (hw : words (boxOf s m).paramWords = true) (hb : body (boxOf s m) = okay ws s) (hl : ws.length ≤ 120) : Completes i s fun t => Answers t m ws ∧ DoneAlone m [] s t :=
  completes_served ho hi h hw hb hl fun _ hu => ⟨hu.answers, hu.doneAlone (sameBut_refl [] s) (by decide) (by decide)⟩

/-- Settles O2: each of the six commands only reads. -/
theorem deviceReadouts : Obligations.DeviceReadouts := by
  refine ⟨fun s m h hn => ?_, fun s m h hn => ?_, fun s m h hn => ?_, fun s m h hn => ?_, fun s m h hn => ?_, fun s m h hn => ?_⟩
  · exact completes_readout (o := execDeviceIdentify m s) rfl rfl h (noWords_of_eq hn) rfl (by simp)
  · exact completes_readout (o := execDeviceStatus m s) rfl rfl h (noWords_of_eq hn) rfl (by simp)
  · exact completes_readout (o := execPowerDomainStatus m s) rfl rfl h (noWords_of_eq hn) rfl (by simp)
  · exact (completes_readout (o := execFirmwareStatus m s) rfl rfl h (noWords_of_eq hn) rfl (by simp)).imp fun _ ⟨ha, hd⟩ => ⟨⟨_, ha⟩, hd⟩
  · exact completes_readout (o := execDiagMpStatus m s) rfl rfl h (noWords_of_eq hn) rfl (by simp)
  · exact completes_readout (o := execDiagCaptureStatus m s) rfl rfl h (noWords_of_eq hn) rfl (by simp)

/-! The event log, the security counters, the near store and the settings (R388, R394, R439, R507). -/

theorem withIrq_sameBut (x : Irq) (s : State) : SameBut [.irq] s { s with irq := x } := by
  intro g hg; cases g <;> simp_all [Group.same]

theorem deviceEvents_answers {s : State} {m n : Nat} (h : Serves s m 0x0103 0) (hw : (boxOf s m).paramWords = 1) (hn : prmN (boxOf s m) 0 = n)
    (hrange : 1 ≤ n ∧ n ≤ 56) : Completes (.deviceEvents m) s fun t =>
      Answers t m ([BitVec.ofNat 64 (s.irq.log.take n).length, BitVec.ofNat 64 s.irq.overflow]
        ++ (s.irq.log.take n).flatMap fun e => [fieldAt 63 48 e.code ||| fieldAt 47 0 e.object, BitVec.ofNat 64 e.tick])
      ∧ t.irq.log = s.irq.log.drop n ∧ t.irq.overflow = 0 ∧ SameBut [.mb, .irq, .out] s t := by
  subst hn
  refine completes_served (o := execDeviceEvents m s) rfl rfl h (exactly_of_eq hw) (checked_pass ?_) ?_ fun u hu =>
    ⟨hu.answers, ?_, ?_, (hu.sameBut (withIrq_sameBut _ s)).mono (by simp)⟩
  · simpa [inRange] using hrange
  · have htaken : (s.irq.log.take (prmN (boxOf s m) 0)).length ≤ 56 := (List.length_take_le _ _).trans hrange.2
    rw [List.length_append, length_flatMap_const _ 2 _ fun _ => rfl]
    simp only [List.length_cons, List.length_nil]
    omega
  · rw [hu.irq]
  · rw [hu.irq]

theorem securityStatus_answers {s : State} {m : Nat} (h : Serves s m 0x0601 0) (hw : (boxOf s m).paramWords = 0) :
    Completes (.securityStatus m) s fun t =>
      Answers t m ((List.range 32).map (fun k =>
          bitAt 63 (slotOf s k).key.isSome ||| bitAt 62 (slotOf s k).size ||| fieldAt 31 0 (slotOf s k).epoch)
        ++ [twoCounts (tabGet 0 s.aead.grants 1) (tabGet 0 s.aead.grants 2), twoCounts (tabGet 0 s.aead.grants 3) (tabGet 0 s.aead.grants 4),
            twoCounts s.aead.revocations s.aead.idleReleases, fieldAt 63 32 s.aead.mismatch])
      ∧ t.aead = { s.aead with grants := [], revocations := 0, idleReleases := 0, mismatch := 0 } ∧ DoneAlone m [.aead] s t := by
  refine completes_served (o := mailboxCommand 0x0601 0 noWords m s fun _ => okay _ _) rfl rfl h (noWords_of_eq hw) rfl ?_ fun _ hu => ⟨?_, ?_, ?_⟩
  · simp
  · exact hu.answers
  · exact hu.same .aead (by decide)
  · exact hu.doneAlone (withAead_sameBut _ s) (by decide) (by decide)

theorem diagNearRead_answers {s : State} {m off n : Nat} (h : Serves s m 0x0802 0) (hw : (boxOf s m).paramWords = 2)
    (hoff : prmN (boxOf s m) 0 = off) (hn : prmN (boxOf s m) 1 = n) (hrange : 1 ≤ n ∧ n ≤ 120) (hend : off + 8 * n ≤ 67108864)
    (hd : domOn s 28 = true) :
    Completes (.diagNearRead m) s fun t => Answers t m (memWords s.mem.near off n) ∧ DoneAlone m [] s t := by
  subst hoff hn
  refine completes_readout (o := execDiagNearRead m s) rfl rfl h (exactly_of_eq hw) (checked_pass ?_) ?_
  · simp [inRange, hrange, hend, hd]
  · simpa [memWords] using hrange.2

theorem deviceEventVector_sets {s : State} {m v : Nat} (h : Serves s m 0x0134 1) (hw : (boxOf s m).paramWords = 1)
    (hv : prmN (boxOf s m) 0 = v) (hrange : v ≤ 63) :
    Completes (.deviceEventVector m) s fun t =>
      Answers t m [] ∧ t.irq.vector = v ∧ t.irq.mask = s.irq.mask ∧ t.irq.cause = s.irq.cause ∧ t.irq.log = s.irq.log
      ∧ SameBut [.mb, .irq, .out] s t := by
  subst hv
  refine completes_served (o := execDeviceEventVector m s) rfl rfl h (exactly_of_eq hw) (checked_pass ?_) (by simp) fun u hu =>
    ⟨hu.answers, ?_, ?_, ?_, ?_, (hu.sameBut (withIrq_sameBut _ s)).mono (by simp)⟩
  · simpa [inRange] using hrange
  all_goals rw [hu.irq]

/-- A device-wide setting that changes fields of the host link, its word not worn, has the word queued and changes nothing else (R439). -/
theorem completes_hostSetting {i : Instr} {op owner m : Nat} {words : Nat → Bool} {s : State} {vs : List Int} {x : HostLink}
    {body : Mailbox → Reply} {o : Result} (ho : exec i s = o) (hi : o = mailboxCommand op owner words m s body) (h : Serves s m op owner)
    (hw : words (boxOf s m).paramWords = true) (hworn : worn s (settingWordOf op) = false)
    (hb : body (boxOf s m) = storeSetting op vs s { s with host := x }) :
    Completes i s fun t => Answers t m [] ∧ t.host = x ∧ t.keep = (mpHold (settingWordOf op) op vs s).keep ∧ DoneAlone m [.host, .keep] s t := by
  refine completes_served ho hi h hw (hb.trans (storeSetting_ok vs _ hworn)) (by simp) fun u hu => ⟨hu.answers, ?_, ?_, ?_⟩
  · exact (hu.same .host (by decide)).trans (mpHold_sameBut _ _ _ _ .host (by decide))
  · exact (hu.same .keep (by decide)).trans (mpHold_keep_congr _ _ _ rfl rfl)
  · exact hu.doneAlone (((withHost_sameBut x s).trans (mpHold_sameBut _ _ _ _)).mono (by simp)) (by decide) (by decide)

theorem deviceHostMode_sets {s : State} {m x y : Nat} (h : Serves s m 0x0105 0) (hw : (boxOf s m).paramWords = 2) (hx : prmN (boxOf s m) 0 = x)
    (hy : prmN (boxOf s m) 1 = y) (hrange : x ≤ 1 ∧ y ≤ 1) (hworn : worn s (settingWordOf 0x0105) = false) :
    Completes (.deviceHostMode m) s fun t =>
      Answers t m [] ∧ t.host = { s.host with hostMode := x == 1, ideRequired := y == 1 }
      ∧ t.keep = (mpHold (settingWordOf 0x0105) 0x0105 [(x : Int), (y : Int)] s).keep ∧ DoneAlone m [.host, .keep] s t := by
  refine completes_hostSetting (o := execDeviceHostMode m s) rfl rfl h (exactly_of_eq hw) hworn ((checked_pass ?_).trans ?_)
  · simp [inRange, hx, hy, hrange]
  · rw [intOf_prm hx (by omega), intOf_prm hy (by omega), hx, hy]

theorem deviceGranaryConfig_sets {s : State} {m x y : Nat} (h : Serves s m 0x0133 1) (hw : (boxOf s m).paramWords = 2)
    (hx : prmN (boxOf s m) 0 = x) (hy : prmN (boxOf s m) 1 = y) (hrange : x ≤ 8 ∧ y ≤ 4) (hworn : worn s (settingWordOf 0x0133) = false) :
    Completes (.deviceGranaryConfig m) s fun t =>
      Answers t m [] ∧ t.host = { s.host with captureGib := x, historyGib := y }
      ∧ t.keep = (mpHold (settingWordOf 0x0133) 0x0133 [(x : Int), (y : Int)] s).keep ∧ DoneAlone m [.host, .keep] s t := by
  refine completes_hostSetting (o := execDeviceGranaryConfig m s) rfl rfl h (exactly_of_eq hw) hworn ((checked_pass ?_).trans ?_)
  · simp [inRange, hx, hy, hrange]
  · rw [intOf_prm hx (by omega), intOf_prm hy (by omega), hx, hy]

/-- Settles O3: each clause is what one command does where its parameters are in range. -/
theorem deviceLogAndSettings : Obligations.DeviceLogAndSettings :=
  ⟨fun _ _ _ h hw hn hrange => deviceEvents_answers h hw hn hrange, fun _ _ h hw => securityStatus_answers h hw,
    fun _ _ _ _ h hw hoff hn hrange hend hd => diagNearRead_answers h hw hoff hn hrange hend hd,
    fun _ _ _ h hw hv hrange => deviceEventVector_sets h hw hv hrange,
    fun _ _ _ _ h hw hx hy hrange hworn => deviceHostMode_sets h hw hx hy hrange hworn,
    fun _ _ _ _ h hw hx hy hrange hworn => deviceGranaryConfig_sets h hw hx hy hrange hworn⟩

end Sys2Proof.Machine
end

section
/-! SUPPORT. The states of a mailbox: what each event leaves of the mailbox, of the others and of the rest (R378 to R382, R482). -/
namespace Sys2Proof.Machine

theorem setBox_sameBut (m : Nat) (b : Mailbox) (s : State) : SameBut [.mb] s (setBox m b s) := by
  intro g hg; cases g <;> simp_all [Group.same]

theorem finish_frame (m st d : Nat) (ws : List Word) (s : State) : SameBut [.mb, .irq] s (finish m st d ws s) := by
  unfold finish
  dsimp only
  split
  · exact (setBox_sameBut m _ s).trans (withIrq_sameBut _ _)
  · exact (setBox_sameBut m _ s).mono (by simp)

/-- The mailbox that POST leaves: its results are forgotten and the running core is told (R380). -/
def boxPosted (m : Nat) (x : Mailbox) (s : State) : State :=
  emit (.mpIrq m) { setBox m x s with mb := { (setBox m x s).mb with results := tabPut (0, []) (setBox m x s).mb.results m (0, []) } }

theorem boxOf_boxPosted (m : Nat) (x : Mailbox) (s : State) : boxOf (boxPosted m x s) m = x := boxOf_setBox m x s
theorem boxOf_boxPosted_ne {m n : Nat} (x : Mailbox) (s : State) (h : n ≠ m) : boxOf (boxPosted m x s) n = boxOf s n := boxOf_setBox_ne m n x s h

theorem boxPosted_sameBut (m : Nat) (x : Mailbox) (s : State) : SameBut [.mb, .out] s (boxPosted m x s) := by
  intro g hg; cases g <;> simp_all [Group.same, boxPosted]

/-- POST of an IDLE mailbox, and of a DONE one, whose result and DONE bit go (R380, R482). -/
theorem boxPost_idle {s : State} {m : Nat} (h : (boxOf s m).st = .idle) :
    boxPost m s = boxPosted m { boxOf s m with st := .posted, postTick := s.clk.tick % 4294967296 } s := by simp only [boxPost, h, boxPosted]

/-- The mailbox's DONE bit cleared (R482). -/
def undone (m : Nat) (s : State) : State := { s with irq := { s.irq with mbDone := s.irq.mbDone &&& ~~~ bitAt m true } }

theorem undone_sameBut (m : Nat) (s : State) : SameBut [.irq] s (undone m s) := withIrq_sameBut _ s

theorem boxPost_done {s : State} {m : Nat} (h : (boxOf s m).st = .done) :
    boxPost m s = undone m (boxPosted m
      { boxOf s m with st := .posted, postTick := s.clk.tick % 4294967296, status := 0, resultWords := 0, detail := 0, doneTick := 0 } s) := by simp only [boxPost, h, boxPosted, undone]

theorem boxPost_locked {s : State} {m : Nat} (h : (boxOf s m).st = .posted ∨ (boxOf s m).st = .running) : boxPost m s = s := by
  rcases h with h | h <;> simp only [boxPost, h]

theorem boxRelease_done {s : State} {m : Nat} (h : (boxOf s m).st = .done) :
    boxRelease m s = undone m (setBox m { boxOf s m with st := .idle } s) := if_pos h

theorem boxLocked_iff (b : Mailbox) : boxLocked b = true ↔ b.st = .posted ∨ b.st = .running := by simp [boxLocked]

theorem boxCancel_locked {s : State} {m : Nat} (h : (boxOf s m).st = .posted ∨ (boxOf s m).st = .running) :
    boxCancel m s = finish m stCancelled 0 [] s := if_pos ((boxLocked_iff _).2 h)

theorem boxCancel_of_unlocked {s : State} {m : Nat} (h : (boxOf s m).st = .idle ∨ (boxOf s m).st = .done) : boxCancel m s = s :=
  if_neg (by rcases h with h | h <;> simp [boxLocked, h])

/-- A mailbox that ends DONE without a result, and the others as they were (R378, R380). -/
theorem completes_ended {i : Instr} {s : State} {m st : Nat} (h : exec i s = commit s (finish m st 0 [] s)) : Completes i s fun t =>
    boxOf t m = { boxOf s m with st := .done, status := st, resultWords := 0, detail := 0, doneTick := s.clk.tick % 4294967296, data := [] }
    ∧ (∀ n, n ≠ m → boxOf t n = boxOf s n) ∧ SameBut [.mb, .irq, .out] s t :=
  completes_of_exec h fun _ ht =>
    have hmb := ht.1 .mb (by decide)
    ⟨(boxOf_congr hmb m).trans (boxOf_finish m st 0 [] s), fun n hn => (boxOf_congr hmb n).trans (boxOf_finish_ne m n st 0 [] s hn),
      (becomes_same (finish_frame m st 0 [] s) ht).mono (by simp)⟩

section Box
variable {s : State} {m : Nat} (hm : m < 32)
include hm

theorem exec_mbPost : exec (.mbPost m) s = commit s (boxPost m s) := onObject_true (decide_eq_true hm)
theorem exec_mbRelease : exec (.mbRelease m) s = commit s (boxRelease m s) := onObject_true (decide_eq_true hm)
theorem exec_mbCancel : exec (.mbCancel m) s = commit s (boxCancel m s) := onObject_true (decide_eq_true hm)

theorem mbPost_idle (h : (boxOf s m).st = .idle) : Completes (.mbPost m) s fun t =>
    boxOf t m = { boxOf s m with st := .posted, postTick := s.clk.tick % 4294967296 } ∧ Out.mpIrq m ∈ t.out
    ∧ (∀ n, n ≠ m → boxOf t n = boxOf s n) ∧ Alone [.mb] s t :=
  completes_of_exec ((exec_mbPost hm).trans (congrArg _ (boxPost_idle h))) fun _ ht =>
    have hmb := ht.1 .mb (by decide)
    ⟨(boxOf_congr hmb m).trans (boxOf_boxPosted m _ s), ht.2.2.1 _ List.mem_cons_self,
      fun n hn => (boxOf_congr hmb n).trans (boxOf_boxPosted_ne _ s hn),
      alone_becomes (alone_of_sameBut ((boxPosted_sameBut m _ s).mono (by simp)) (by decide)) ht⟩

theorem mbPost_done (h : (boxOf s m).st = .done) : Completes (.mbPost m) s fun t =>
    boxOf t m = { boxOf s m with st := .posted, postTick := s.clk.tick % 4294967296, status := 0, resultWords := 0, detail := 0, doneTick := 0 }
    ∧ Out.mpIrq m ∈ t.out ∧ (∀ n, n ≠ m → boxOf t n = boxOf s n) ∧ SameBut [.mb, .irq, .out] s t :=
  completes_of_exec ((exec_mbPost hm).trans (congrArg _ (boxPost_done h))) fun _ ht =>
    have hmb := ht.1 .mb (by decide)
    ⟨(boxOf_congr hmb m).trans (boxOf_boxPosted m _ s), ht.2.2.1 _ List.mem_cons_self,
      fun n hn => (boxOf_congr hmb n).trans (boxOf_boxPosted_ne _ s hn),
      (becomes_same ((boxPosted_sameBut m _ s).trans (undone_sameBut m _)) ht).mono (by simp)⟩

theorem mbRelease_done (h : (boxOf s m).st = .done) : Completes (.mbRelease m) s fun t =>
    boxOf t m = { boxOf s m with st := .idle } ∧ (∀ n, n ≠ m → boxOf t n = boxOf s n) ∧ SameBut [.mb, .irq, .out] s t :=
  completes_of_exec ((exec_mbRelease hm).trans (congrArg _ (boxRelease_done h))) fun _ ht =>
    have hmb := ht.1 .mb (by decide)
    ⟨(boxOf_congr hmb m).trans (boxOf_setBox m _ s), fun n hn => (boxOf_congr hmb n).trans (boxOf_setBox_ne m n _ s hn),
      (becomes_same ((setBox_sameBut m _ s).trans (undone_sameBut m _)) ht).mono (by simp)⟩

theorem mbCancel_ends (h : (boxOf s m).st = .posted ∨ (boxOf s m).st = .running) : Completes (.mbCancel m) s fun t =>
    (boxOf t m).st = .done ∧ (boxOf t m).status = stCancelled ∧ (boxOf t m).resultWords = 0 ∧ (boxOf t m).detail = 0 ∧ (boxOf t m).data = []
    ∧ (boxOf t m).opcode = (boxOf s m).opcode ∧ (boxOf t m).tag = (boxOf s m).tag
    ∧ (∀ n, n ≠ m → boxOf t n = boxOf s n) ∧ SameBut [.mb, .irq, .out] s t :=
  (completes_ended ((exec_mbCancel hm).trans (congrArg _ (boxCancel_locked h)))).imp fun t ⟨hbox, hother, hrest⟩ => by
    rw [hbox]
    exact ⟨rfl, rfl, rfl, rfl, rfl, rfl, rfl, hother, hrest⟩

theorem mailboxTimeout_ends (h : (boxOf s m).st = .posted ∨ (boxOf s m).st = .running)
    (hdue : 500000 ≤ (s.clk.tick + 4294967296 - (boxOf s m).postTick) % 4294967296) : Completes (.mailboxTimeout m) s fun t =>
    (boxOf t m).st = .done ∧ (boxOf t m).status = stTimeout ∧ (boxOf t m).resultWords = 0 ∧ (boxOf t m).data = []
    ∧ (∀ n, n ≠ m → boxOf t n = boxOf s n) ∧ SameBut [.mb, .irq, .out] s t := by
  have hexpired : boxExpired m s = true := by simp [boxExpired, (boxLocked_iff _).2 h, hdue]
  have hexec : exec (.mailboxTimeout m) s = commit s (finish m stTimeout 0 [] s) :=
    (onObject_true (decide_eq_true hm)).trans (congrArg _ (if_pos hexpired))
  refine (completes_ended hexec).imp fun t ⟨hbox, hother, hrest⟩ => ?_
  rw [hbox]
  exact ⟨rfl, rfl, rfl, rfl, hother, hrest⟩

theorem mailbox_ignores : ((boxOf s m).st = .posted ∨ (boxOf s m).st = .running → exec (.mbPost m) s = .next s)
    ∧ ((boxOf s m).st ≠ .done → exec (.mbRelease m) s = .next s)
    ∧ ((boxOf s m).st = .idle ∨ (boxOf s m).st = .done → exec (.mbCancel m) s = .next s) := by
  refine ⟨fun h => ?_, fun h => ?_, fun h => ?_⟩
  · rw [exec_mbPost hm, boxPost_locked h, commit_self]
  · rw [exec_mbRelease hm, boxRelease, if_neg h, commit_self]
  · rw [exec_mbCancel hm, boxCancel_of_unlocked h, commit_self]

end Box

/-- The running core takes the mailbox that is next (R381). -/
theorem mbTake_runs {s : State} {m : Nat} (hserving : s.mp.serving = true) (hhand : handingOver s = false)
    (hfree : ∀ n ∈ List.range 28, (boxOf s n).st ≠ .running) (hnext : nextPosted s = some m) (hknown : knownOpcode (boxOf s m).opcode = true) :
    Completes .mbTake s fun t =>
      boxOf t m = { boxOf s m with st := .running } ∧ (∀ n, n ≠ m → boxOf t n = boxOf s n) ∧ Alone [.mb] s t := by
  have hexec : exec .mbTake s = commit s (setBox m { boxOf s m with st := .running } s) := by
    have hnone : ((List.range 28).any fun n => (boxOf s n).st == .running) = false :=
      List.any_eq_false.2 fun n hn => by simpa using hfree n hn
    show execMbTake s = _
    simp [execMbTake, hserving, hhand, hnone, hnext, hknown]
  refine completes_of_exec hexec fun t ht => ⟨?_, fun n hn => ?_, ?_⟩
  · exact (boxOf_congr (ht.1 .mb (by decide)) m).trans (boxOf_setBox m _ s)
  · exact (boxOf_congr (ht.1 .mb (by decide)) n).trans (boxOf_setBox_ne m n _ s hn)
  · exact alone_becomes (alone_of_sameBut ((setBox_sameBut m _ s).mono (by simp)) (by decide)) ht

/-- Settles O1: each clause is what one event does to a mailbox in the state that it names. -/
theorem mailboxStates : Obligations.MailboxStates :=
  ⟨fun _ _ hm h => mbPost_idle hm h, fun _ _ hm h => mbPost_done hm h, fun _ _ hm h => mbRelease_done hm h, fun _ _ hm h => mbCancel_ends hm h,
    fun _ _ hm h hdue => mailboxTimeout_ends hm h hdue,
    fun _ _ hserving hhand hfree hnext hknown => mbTake_runs hserving hhand hfree hnext hknown, fun _ _ hm => mailbox_ignores hm⟩

end Sys2Proof.Machine
end

section
/-! SUPPORT. Replies that a completion puts into the mailbox, and the firmware commands: the stage, the banks and the hand-over (R371, R386, R399, R401). -/
namespace Sys2Proof.Machine

/-- The same as `Served.doneAlone` for an effect that also sends. -/
theorem Served.doneAlone_sent {m : Nat} {ws : List Word} {gs : List Group} {s e u : State} (h : Served m ws s e u) (hs : SameBut (.out :: gs) s e)
    (hmb : Group.mb ∉ gs) (hirq : Group.irq ∉ gs) : DoneAlone m gs s u := by
  obtain ⟨hsame, hrest⟩ := h.doneAlone hs (by simpa using hmb) (by simpa using hirq)
  exact ⟨hsame.mono (by simp), hrest⟩

/-- A served command that is refused ends with the status and without a result, and changes its mailbox alone (R386). -/
theorem completes_refused {i : Instr} {op owner m st d : Nat} {words : Nat → Bool} {s : State} {body : Mailbox → Reply} {o : Result}
    (ho : exec i s = o) (hi : o = mailboxCommand op owner words m s body) (h : Serves s m op owner) (hw : words (boxOf s m).paramWords = true)
    (hb : body (boxOf s m) = refuse st d s) :
    Completes i s fun t => Refuses t m st ∧ (boxOf t m).detail = d ∧ DoneAlone m [] s t := by
  have hexec : exec i s = commit s (finish m st d [] s) := by
    rw [ho, hi, mailboxCommand_serves h hw, hb]
    rfl
  refine completes_of_exec hexec fun t ht => ?_
  have hmb := ht.1 .mb (by decide)
  have hbox := (boxOf_congr hmb m).trans (boxOf_finish m st d [] s)
  refine ⟨?_, ?_, (becomes_same (finish_frame m st d [] s) ht).mono (by simp), fun n hn => ?_, ?_, ?_, ?_⟩
  · rw [Refuses, hbox]
    exact ⟨rfl, rfl, rfl⟩
  · rw [hbox]
  · exact (boxOf_congr hmb n).trans (boxOf_finish_ne m n st d [] s hn)
  · exact (congrArg (fun x => x.background) hmb).trans (finish_background m st d [] s)
  · rw [ht.2.1, finish_irq]
  · rw [ht.2.1, finish_irq]

/-! The management processors' records. -/

theorem withMp_sameBut (x : Mp) (s : State) : SameBut [.mp] s { s with mp := x } := by
  intro g hg; cases g <;> simp_all [Group.same]

theorem setCore_sameBut (k : Nat) (c : Core) (s : State) : SameBut [.mp] s (setCore k c s) := by
  intro g hg; cases g <;> simp_all [Group.same]

theorem setBank_sameBut (k : Nat) (b : Bank) (s : State) : SameBut [.mp] s (setBank k b s) := by
  unfold setBank
  split <;> exact withMp_sameBut _ s

theorem restartStandby_sameBut (s : State) : SameBut [.mp] s (restartStandby s) := by
  unfold restartStandby
  dsimp only
  split
  · exact setCore_sameBut _ _ s
  · exact sameBut_refl _ s

/-- What the restart of the standby leaves depends on the management processors' records alone. -/
theorem restartStandby_mp_congr {s t : State} (h : t.mp = s.mp) : (restartStandby t).mp = (restartStandby s).mp := by
  have hcore : ∀ k, coreOf t k = coreOf s k := fun k => by unfold coreOf; rw [h]
  have hindex : standbyIndex t = standbyIndex s := by unfold standbyIndex runningCode; rw [h]
  unfold restartStandby setCore
  dsimp only
  rw [hindex, hcore]
  split
  · split <;> simp only [h]
  · exact h

theorem restartStandby_armed (s : State) : (restartStandby s).mp.armed = s.mp.armed := by
  unfold restartStandby setCore
  dsimp only
  split
  · split <;> rfl
  · rfl

theorem addBackground_sameBut (g : Background) (s : State) : SameBut [.mb] s (addBackground g s) := by
  intro g hg; cases g <;> simp_all [Group.same, addBackground]

theorem setBank_mb (k : Nat) (b : Bank) (s : State) : (setBank k b s).mb = s.mb := setBank_sameBut k b s .mb (by decide)

/-! The commands. -/

theorem firmwareStageWrite_writes {s : State} {m off : Nat} {b : Mailbox} (h : Serves s m 0x0702 0) (hb : boxOf s m = b)
    (hw : 1 ≤ b.paramWords ∧ b.paramWords ≤ 119) (hoff : prmN b 0 = off) (hrange : off % 8 = 0 ∧ off + 8 * (b.paramWords - 1) ≤ 16777216)
    (hd : domOn s 28 = true) (hidle : updateInProgress s = false) :
    Completes (.firmwareStageWrite m) s fun t =>
      Answers t m [] ∧ t.mp = { s.mp with stage := none }
      ∧ t.mem = (granaryWrite (stageBase s + off) (wordsBytes (prms b 1 (b.paramWords - 1))) s).mem ∧ DoneAlone m [.mem, .mp] s t := by
  subst hb hoff
  obtain ⟨-, hmp, hframe⟩ := stageWrite_leaves (prmN (boxOf s m) 0) (wordsBytes (prms (boxOf s m) 1 ((boxOf s m).paramWords - 1))) s
  refine completes_served (o := execFirmwareStageWrite m s) rfl rfl h (decide_eq_true hw) (checked_pass ?_) (by simp) fun u hu => ⟨hu.answers, ?_, ?_, ?_⟩
  · simp [hrange, hd, hidle]
  · exact (hu.same .mp (by decide)).trans hmp
  · exact (hu.same .mem (by decide)).trans (by simp [stageWrite, ownWrite])
  · exact hu.doneAlone_sent (hframe.mono (by simp)) (by decide) (by decide)

/-- The image that a firmware header names (R399). -/
def headerImage (h : List Word) : Image :=
  { release := fieldOf (hdr h 1) 63 48, build := fieldOf (hdr h 1) 31 0, sec := fieldOf (hdr h 1) 47 32, hash := (h.drop 4).take 6 }

theorem firmwareVerify_decides {s : State} {m : Nat} {h : List Word} (hs : Serves s m 0x0703 0) (hw : (boxOf s m).paramWords = 0)
    (hh : memWords s.mem.granary (stageBase s) 512 = h) (hd : domOn s 28 = true) (hformat : fwFormatOk h = true)
    (hpart : fieldOf (hdr h 2) 63 48 = 0x8800 ∧ fieldOf (hdr h 2) 47 40 ≤ siliconRev s ∧ fwSecMin s ≤ fieldOf (hdr h 1) 47 32) :
    Completes (.firmwareVerify m) s fun t =>
      (if fwSignatureOk s ((wordsBytes h).take 80) (((wordsBytes h).drop 80).take 96) = true
          ∧ sha384 (memRead s.mem.granary (stageBase s + 4096) (hdr h 3).toNat) = (h.drop 4).take 6 then
        Answers t m [BitVec.ofNat 64 (fieldOf (hdr h 1) 63 48), BitVec.ofNat 64 (fieldOf (hdr h 1) 47 32), BitVec.ofNat 64 (fieldOf (hdr h 1) 31 0)]
        ∧ t.mp = { s.mp with stage := some (headerImage h) }
      else Refuses t m 0x15 ∧ t.mp = s.mp)
      ∧ SameBut [.mp, .mb, .irq, .out] s t := by
  subst hh
  obtain ⟨hnumber, hrev, hsec⟩ := hpart
  split
  · next hgood =>
    refine completes_served (o := execFirmwareVerify m s) rfl rfl hs (noWords_of_eq hw) (checked_pass ?_) (by simp) fun u hu =>
      ⟨⟨hu.answers, hu.same .mp (by decide)⟩, (hu.sameBut (withMp_sameBut _ s)).mono (by simp)⟩
    simp [hd, hformat, hnumber, hrev, hsec, hgood]
  · next hbad =>
    refine (completes_refused (o := execFirmwareVerify m s) (st := 0x15) (d := 0) rfl rfl hs (noWords_of_eq hw) ?_).imp
      fun t ⟨hrefused, _, hframe, _⟩ => ⟨⟨hrefused, hframe .mp (by decide)⟩, hframe.mono (by simp)⟩
    have hlast : (fwSignatureOk s ((wordsBytes (memWords s.mem.granary (stageBase s) 512)).take 80)
        (((wordsBytes (memWords s.mem.granary (stageBase s) 512)).drop 80).take 96)
        && sha384 (memRead s.mem.granary (stageBase s + 4096) (hdr (memWords s.mem.granary (stageBase s) 512) 3).toNat)
          == ((memWords s.mem.granary (stageBase s) 512).drop 4).take 6) = false := by simpa using hbad
    simp [checked, firstFail, hd, hformat, hnumber, hrev, hsec, hlast]

theorem firmwareWriteBank_begins {s : State} {m k : Nat} {img : Image} (h : Serves s m 0x0704 0) (hw : (boxOf s m).paramWords = 0)
    (hk : k = 1 - bootBank s) (hstage : s.mp.stage = some img) (htrial : (bankOf s k).state ≠ .trial) (hidle : flashBusy s = false) :
    Completes (.firmwareWriteBank m) s fun t =>
      Answers t m [BitVec.ofNat 64 k] ∧ t.mp = (setBank k { state := .invalid, image := img } s).mp
      ∧ t.mb.background = s.mb.background ++ [.writeBank k] ∧ SameBut [.mp, .mb, .irq, .out] s t := by
  subst hk
  have hbody : checked [(s.mp.stage.isSome, stState, 0), ((bankOf s (1 - bootBank s)).state != .trial, stState, 0), (!flashBusy s, stBusy, 0)] s
      (okay [BitVec.ofNat 64 (1 - bootBank s)]
        (addBackground (.writeBank (1 - bootBank s)) (setBank (1 - bootBank s) { state := .invalid, image := s.mp.stage.getD {} } s)))
      = okay [BitVec.ofNat 64 (1 - bootBank s)]
        (addBackground (.writeBank (1 - bootBank s)) (setBank (1 - bootBank s) { state := .invalid, image := img } s)) := by
    rw [hstage, checked_pass (by simp [htrial, hidle])]
    rfl
  refine completes_served (o := execFirmwareWriteBank m s) rfl rfl h (noWords_of_eq hw) hbody (by simp) fun u hu => ⟨hu.answers, ?_, ?_, ?_⟩
  · exact hu.same .mp (by decide)
  · rw [hu.background]
    exact congrArg (fun x => x.background ++ _) (setBank_mb _ _ s)
  · exact (hu.sameBut ((setBank_sameBut _ _ s).trans (addBackground_sameBut _ _))).mono (by simp)

theorem firmwareActivate_arms {s : State} {m x src : Nat} (h : Serves s m 0x0705 0) (hw : (boxOf s m).paramWords = 2)
    (hx : prmN (boxOf s m) 0 = x) (hsrc : prmN (boxOf s m) 1 = src) (hrange : x < 2 ^ 40 ∧ src ≤ 1) (hcounting : counting s = true)
    (himage : (if src = 0 then s.mp.stage.isSome else (bankOf s (1 - bootBank s)).state == .valid) = true) (htrial : inTrial s = false)
    (harmed : s.mp.armed = none) (hopen : s.sf.number + 2 ≤ x) :
    Completes (.firmwareActivate m) s fun t =>
      Answers t m [] ∧ t.mp = (restartStandby { s with mp := { s.mp with armed := some { sf := x, source := src } } }).mp
      ∧ t.mp.armed = some { sf := x, source := src } ∧ DoneAlone m [.mp] s t := by
  subst hx hsrc
  refine completes_served (o := execFirmwareActivate m s) rfl rfl h (exactly_of_eq hw) (checked_pass ?_) (by simp) fun u hu => ⟨hu.answers, ?_, ?_, ?_⟩
  · intro c hc
    simp only [List.mem_cons, List.not_mem_nil, or_false] at hc
    rcases hc with rfl | rfl | rfl | rfl | rfl | rfl | rfl
    · exact decide_eq_true hrange.1
    · exact inRange_fst.2 ⟨Nat.zero_le _, hrange.2⟩
    · exact hcounting
    · exact himage
    · simp [htrial]
    · simp [harmed]
    · exact decide_eq_true hopen
  · exact hu.same .mp (by decide)
  · rw [hu.same .mp (by decide), restartStandby_armed]
  · exact hu.doneAlone (((withMp_sameBut _ s).trans (restartStandby_sameBut _)).mono (by simp)) (by decide) (by decide)

/-- The bank k becomes the boot bank, and the one that was becomes VALID (R401). -/
def swapBoot (k : Nat) (s : State) : State := setBank k { bankOf s k with state := .boot } (setBank (1 - k) { bankOf s (1 - k) with state := .valid } s)

theorem swapBoot_sameBut (k : Nat) (s : State) : SameBut [.mp] s (swapBoot k s) :=
  ((setBank_sameBut _ _ s).trans (setBank_sameBut _ _ _)).mono (by simp)

theorem writable_one {s : State} {w : Nat} (h : worn s w = false) : writable s [w] = true := by simp [writable, h]

/-- A write queued behind the exchange of the boot bank is the write queued before it (R438). -/
theorem mpWrite_swapBoot_keep (w : Nat) (v : Word) (k : Nat) (s : State) : (mpWrite w v (swapBoot k s)).keep = (mpWrite w v s).keep :=
  mpWrite_keep_congr w v (swapBoot_sameBut k s .keep (by decide)) (swapBoot_sameBut k s .clk (by decide))

theorem firmwareCommit_swaps {s : State} {m k : Nat} (h : Serves s m 0x0706 0) (hw : (boxOf s m).paramWords = 0) (hk : k = 1 - bootBank s)
    (htrial : (bankOf s k).state = .trial) (hidle : flashBusy s = false) (hworn : worn s 261 = false) :
    Completes (.firmwareCommit m) s fun t =>
      Answers t m [] ∧ t.mp = (restartStandby (swapBoot k s)).mp
      ∧ t.keep = (mpWrite 261 (bootWord k (max (fwSecMin s) (bankOf s k).image.sec)) s).keep
      ∧ t.mb.background = s.mb.background ++ [.commitBank k] ∧ SameBut [.mp, .keep, .mb, .irq, .out] s t := by
  subst hk
  have hframe (v : Word) : SameBut [.mp, .keep] s (restartStandby (mpWrite 261 v (swapBoot (1 - bootBank s) s))) :=
    (((swapBoot_sameBut _ s).trans (mpWrite_sameBut 261 v _)).trans (restartStandby_sameBut _)).mono (by simp)
  refine completes_served (o := execFirmwareCommit m s) (e := addBackground (.commitBank (1 - bootBank s)) (restartStandby
    (mpWrite 261 (bootWord (1 - bootBank s) (max (fwSecMin s) (bankOf s (1 - bootBank s)).image.sec)) (swapBoot (1 - bootBank s) s))))
    rfl rfl h (noWords_of_eq hw) (checked_pass ?_) (by simp) fun u hu => ⟨hu.answers, ?_, ?_, ?_, ?_⟩
  · simp [htrial, hidle, writable_one hworn]
  · rw [hu.same .mp (by decide), addBackground_sameBut _ _ .mp (by decide)]
    exact restartStandby_mp_congr (mpWrite_sameBut 261 _ _ .mp (by decide))
  · rw [hu.same .keep (by decide), addBackground_sameBut _ _ .keep (by decide), restartStandby_sameBut _ .keep (by decide)]
    exact mpWrite_swapBoot_keep _ _ _ s
  · rw [hu.background, addBackground, hframe _ .mb (by decide)]
  · exact (hu.sameBut ((hframe _).trans (addBackground_sameBut _ _))).mono (by simp)

theorem firmwareRevert_due {s : State} {m : Nat} (h : Serves s m 0x0707 0) (hw : (boxOf s m).paramWords = 0) (htrial : inTrial s = true) :
    Completes (.firmwareRevert m) s fun t => Answers t m [] ∧ t.mp = { s.mp with revertDue := true } ∧ DoneAlone m [.mp] s t := by
  refine completes_served (o := execFirmwareRevert m s) rfl rfl h (noWords_of_eq hw) (checked_pass ?_) (by simp) fun u hu =>
    ⟨hu.answers, hu.same .mp (by decide), hu.doneAlone (withMp_sameBut _ s) (by decide) (by decide)⟩
  simp [htrial]

theorem firmwareSetBoot_swaps {s : State} {m k : Nat} (h : Serves s m 0x0708 2) (hw : (boxOf s m).paramWords = 1) (hk : prmN (boxOf s m) 0 = k)
    (hrange : k ≤ 1) (hvalid : (bankOf s k).state = .valid) (hworn : worn s 261 = false) :
    Completes (.firmwareSetBoot m) s fun t =>
      Answers t m [] ∧ t.mp = (swapBoot k s).mp ∧ t.keep = (mpWrite 261 (bootWord k (fwSecMin s)) s).keep ∧ DoneAlone m [.mp, .keep] s t := by
  subst hk
  refine completes_served (o := execFirmwareSetBoot m s) rfl rfl h (exactly_of_eq hw) (checked_pass ?_) (by simp) fun u hu => ⟨hu.answers, ?_, ?_, ?_⟩
  · simp [inRange, hrange, hvalid, writable_one hworn]
  · exact (hu.same .mp (by decide)).trans (mpWrite_sameBut 261 _ _ .mp (by decide))
  · exact (hu.same .keep (by decide)).trans (mpWrite_swapBoot_keep _ _ _ s)
  · exact hu.doneAlone (((swapBoot_sameBut _ s).trans (mpWrite_sameBut 261 _ _)).mono (by simp)) (by decide) (by decide)

/-- Settles O4: each clause is what one firmware command does where its checks pass. -/
theorem firmwareUpdate : Obligations.FirmwareUpdate :=
  ⟨fun _ _ _ _ h hb hw hoff hrange hd hidle => firmwareStageWrite_writes h hb hw hoff hrange hd hidle,
    fun _ _ _ h hw hh hd hformat hpart => firmwareVerify_decides h hw hh hd hformat hpart,
    fun _ _ _ _ h hw hk hstage htrial hidle => firmwareWriteBank_begins h hw hk hstage htrial hidle,
    fun _ _ _ _ h hw hx hsrc hrange hcounting himage htrial harmed hopen => firmwareActivate_arms h hw hx hsrc hrange hcounting himage htrial harmed hopen,
    fun _ _ _ h hw hk htrial hidle hworn => firmwareCommit_swaps h hw hk htrial hidle hworn, fun _ _ h hw htrial => firmwareRevert_due h hw htrial,
    fun _ _ _ h hw hk hrange hvalid hworn => firmwareSetBoot_swaps h hw hk hrange hvalid hworn⟩

end Sys2Proof.Machine
end

section
/-! SUPPORT. The readouts and the settings of ports and lanes: counters read and cleared, and what each command of a PSET leaves (R384, R385, R388). -/
namespace Sys2Proof.Machine

/-- A served command that returns words of any number completes with what follows from them and from its effect (R385). -/
theorem completes_delivered {gs : List Group} {i : Instr} {op owner m : Nat} {words : Nat → Bool} {s e : State} {ws : List Word}
    {body : Mailbox → Reply} {P : State → Prop} {o : Result} (ho : exec i s = o) (hi : o = mailboxCommand op owner words m s body)
    (h : Serves s m op owner) (hw : words (boxOf s m).paramWords = true) (hb : body (boxOf s m) = okay ws e)
    (hl : ws.length ≤ 120 ∨ domOn s 28 = true) (hn : ws.length < 2 ^ 32) (hs : SameBut gs s e) (hclk : Group.clk ∉ gs) (hmem : Group.mem ∉ gs)
    (hp : ∀ u, Delivers s u m ws → SameBut (.clk :: .mem :: .mb :: .irq :: .out :: gs) s u → SameBut [.clk, .mem, .mb, .irq, .out, .pending] e u → P u) :
    Completes i s P := by
  unfold Completes
  rw [ho, hi]
  exact completes_delivers h hw hb hl (by omega) hs hclk hmem hp

theorem Served.leaves {m : Nat} {ws : List Word} {s e u : State} (h : Served m ws s e u) : Leaves s e u := ⟨h.same, h.pending⟩

/-! Sets of ports and of lanes. -/

theorem portsOf_length (w : Word) : (portsOf w).length ≤ 36 := (List.length_filter_le _ _).trans (by simp)

theorem lanesOfPorts_nodup (w : Word) : ((portsOf w).flatMap lanesOf).Nodup := by
  refine List.nodup_flatMap.2 ⟨fun p _ => by simp [lanesOf], (portsOf_nodup w).imp fun {p q} hne l hp hq => hne ?_⟩
  exact ((mem_lanesOf p l).1 hp).symm.trans ((mem_lanesOf q l).1 hq)

theorem mem_lanesOfPorts (w : Word) (l : Nat) : l ∈ (portsOf w).flatMap lanesOf ↔ l / 2 ∈ portsOf w := by
  simp only [List.mem_flatMap, mem_lanesOf]
  exact ⟨fun ⟨_, hp, hl⟩ => hl ▸ hp, fun h => ⟨l / 2, h, rfl⟩⟩

/-- Ports changed one by one leave the lanes, and lanes changed one by one leave the ports. -/
theorem port_foldl_lane (g : Nat → Port → Port) (ps : List Nat) (s : State) : (ps.foldl (fun t p => modPort p (g p) t) s).port.lane = s.port.lane := by
  induction ps generalizing s with
  | nil => rfl
  | cons p ps ih => exact ih _
theorem lane_foldl_port (g : Nat → Lane → Lane) (ls : List Nat) (s : State) : (ls.foldl (fun t l => modLane l (g l) t) s).port.port = s.port.port := by
  induction ls generalizing s with
  | nil => rfl
  | cons l ls ih => exact ih _

/-! The readouts. -/

theorem portStatus_answers {s : State} {m : Nat} {w : Word} (h : Serves s m 0x0110 0) (hw : (boxOf s m).paramWords = 1)
    (hset : prm (boxOf s m) 0 = w) (hc : ChecksPass (psetChecks s (boxOf s m))) :
    Completes (.portStatus m) s fun t => Answers t m ((portsOf w).flatMap (portStatus s)) ∧ DoneAlone m [] s t := by
  subst hset
  refine completes_readout (o := execPortStatus m s) rfl rfl h (exactly_of_eq hw) (checked_pass hc) ?_
  rw [length_flatMap_const _ 3 _ fun _ => rfl]
  have := portsOf_length (prm (boxOf s m) 0)
  omega

/-- The port with the seven counters of `port.frame_counters` cleared (R119). -/
def frameCountsCleared (x : Port) : Port :=
  { x with frameOk := 0, missed := 0, tagSlip := 0, cellLost := 0, ledgerFail := 0, pathDrift := 0, txConflict := 0 }

theorem portFrameCounters_delivers {s : State} {m : Nat} {w : Word} (h : Serves s m 0x0115 0) (hw : (boxOf s m).paramWords = 1)
    (hset : prm (boxOf s m) 0 = w) (hc : ChecksPass (psetChecks s (boxOf s m))) (hd : domOn s 28 = true) :
    Completes (.portFrameCounters m) s fun t =>
      Delivers s t m ((portsOf w).flatMap fun p => let x := portOf s p
        packCounts [x.frameOk, x.missed, x.tagSlip, x.cellLost, x.ledgerFail, x.pathDrift, x.txConflict])
      ∧ (∀ p, portOf t p = if p ∈ portsOf w then frameCountsCleared (portOf s p) else portOf s p)
      ∧ t.port.lane = s.port.lane ∧ SameBut [.port, .clk, .mem, .mb, .irq, .out] s t := by
  subst hset
  refine completes_delivered (o := execPortFrameCounters m s) rfl rfl h (exactly_of_eq hw) (checked_pass hc) (.inr hd) ?_
    (port_foldl_sameBut (fun _ => frameCountsCleared) _ s) (by decide) (by decide) fun u hu hframe hsame => ⟨hu, fun p => ?_, ?_, hframe.mono (by simp)⟩
  · rw [length_flatMap_const _ 4 _ fun _ => rfl]
    have := portsOf_length (prm (boxOf s m) 0)
    omega
  · rw [portOf_congr (hsame .port (by decide))]
    exact portOf_foldl (fun _ => frameCountsCleared) _ s (portsOf_nodup _) p
  · rw [hsame .port (by decide)]
    exact port_foldl_lane (fun _ => frameCountsCleared) _ s

/-- The lane with the five counters of `lane.counters` cleared (R91). -/
def laneCountsCleared (x : Lane) : Lane := { x with blockErr := 0, syncErr := 0, lockLoss := 0, bringupFail := 0, prbsErr := 0 }

theorem laneCounters_delivers {s : State} {m : Nat} {w : Word} (h : Serves s m 0x0822 0) (hw : (boxOf s m).paramWords = 1)
    (hset : prm (boxOf s m) 0 = w) (hc : ChecksPass (psetChecks s (boxOf s m))) (hd : domOn s 28 = true) :
    Completes (.laneCounters m) s fun t =>
      Delivers s t m (((portsOf w).flatMap lanesOf).flatMap fun l => let x := laneOf s l
        packCounts [x.blockErr, x.syncErr, x.lockLoss, x.bringupFail, x.prbsErr])
      ∧ (∀ l, laneOf t l = if l / 2 ∈ portsOf w then laneCountsCleared (laneOf s l) else laneOf s l)
      ∧ t.port.port = s.port.port ∧ SameBut [.port, .clk, .mem, .mb, .irq, .out] s t := by
  subst hset
  refine completes_delivered (o := execLaneCounters m s) rfl rfl h (exactly_of_eq hw) (checked_pass hc) (.inr hd) ?_
    (lane_foldl_sameBut (fun _ => laneCountsCleared) _ s) (by decide) (by decide) fun u hu hframe hsame => ⟨hu, fun l => ?_, ?_, hframe.mono (by simp)⟩
  · rw [length_flatMap_const _ 3 _ fun _ => rfl, length_flatMap_const _ 2 _ fun _ => rfl]
    have := portsOf_length (prm (boxOf s m) 0)
    omega
  · rw [laneOf_congr (hsame .port (by decide))]
    refine (laneOf_foldl (fun _ => laneCountsCleared) _ s (lanesOfPorts_nodup _) l).trans ?_
    simp only [mem_lanesOfPorts]
  · rw [hsame .port (by decide)]
    exact lane_foldl_port (fun _ => laneCountsCleared) _ s

theorem laneMarginScan_begins {s : State} {m l dwell : Nat} (h : Serves s m 0x0821 0) (hw : (boxOf s m).paramWords = 2)
    (hl : prmN (boxOf s m) 0 = l ∧ l ≤ 71) (hdwell : prmN (boxOf s m) 1 = dwell ∧ 6 ≤ dwell ∧ dwell ≤ 10)
    (hon : portExists s (l / 2) = true ∧ domOn s (portDomain (l / 2)) = true ∧ domOn s 28 = true)
    (hfree : ∀ q n, Background.marginScan q n ∈ s.mb.background → portDomain (q / 2) ≠ portDomain (l / 2)) :
    Completes (.laneMarginScan m) s fun t => ∃ near, Answers t m [BitVec.ofNat 64 near]
      ∧ t.mb.background = s.mb.background ++ [.marginScan l near] ∧ SameBut [.clk, .mb, .irq, .out] s t := by
  obtain ⟨rfl, hl⟩ := hl
  obtain ⟨rfl, hdwell⟩ := hdwell
  obtain ⟨hexists, hdom, hnear⟩ := hon
  refine completes_served (o := execLaneMarginScan m s) rfl rfl h (exactly_of_eq hw) (checked_pass ?_) (by simp) fun u hu =>
    ⟨_, hu.answers, hu.background, (hu.sameBut ((drawFree_sameBut s).trans (addBackground_sameBut _ _))).mono (by simp)⟩
  intro c hc
  simp only [List.mem_cons, List.not_mem_nil, or_false] at hc
  rcases hc with rfl | rfl | rfl | rfl
  · exact inRange_fst.2 ⟨Nat.zero_le _, hl⟩
  · exact inRange_fst.2 hdwell
  · simp [hexists, hdom, hnear]
  · simp only [Bool.not_eq_true', List.any_eq_false]
    intro g hg
    cases g with
    | marginScan q n => simpa using hfree q n hg
    | _ => simp

/-- Settles O8: each clause is what one readout of ports or lanes does on its set. -/
theorem portReadouts : Obligations.PortReadouts :=
  ⟨fun _ _ _ h hw hset hc => portStatus_answers h hw hset hc, fun _ _ _ h hw hset hc hd => portFrameCounters_delivers h hw hset hc hd,
    fun _ _ _ h hw hset hc hd => laneCounters_delivers h hw hset hc hd,
    fun _ _ _ _ h hw hl hdwell hon hfree => laneMarginScan_begins h hw hl hdwell hon hfree⟩

end Sys2Proof.Machine
end

section
/-! SUPPORT. The controls of ports: what each command of a PSET leaves, and the words of the settings that it queues (R67, R80, R87, R98, R109, R440). -/
namespace Sys2Proof.Machine

theorem checksPass_append {cs ds : List (Bool × Nat × Nat)} (hc : ChecksPass cs) (hd : ChecksPass ds) : ChecksPass (cs ++ ds) := by
  intro c h
  exact (List.mem_append.1 h).elim (hc c) (hd c)

theorem checksPass_one {b : Bool} {st d : Nat} (h : b = true) : ChecksPass [(b, st, d)] := by
  intro c hc
  rw [List.mem_singleton.1 hc]
  exact h

theorem portRetrain_leaves {s : State} {m : Nat} {w : Word} (h : Serves s m 0x0111 0) (hw : (boxOf s m).paramWords = 1)
    (hset : prm (boxOf s m) 0 = w) (hc : ChecksPass (psetChecks s (boxOf s m)) ∧ portsOn s w = true) :
    Completes (.portRetrain m) s fun t => Answers t m [] ∧ Leaves s ((portsOf w).foldl (fun t p => requestBring .retrain p t) s) t := by
  subst hset
  exact completes_served (o := execPortRetrain m s) rfl rfl h (exactly_of_eq hw) (checked_pass (checksPass_append hc.1 (checksPass_one hc.2)))
    (by simp) fun u hu => ⟨hu.answers, hu.leaves⟩

theorem portCalibrate_leaves {s : State} {m : Nat} {w : Word} (h : Serves s m 0x0116 0) (hw : (boxOf s m).paramWords = 1)
    (hset : prm (boxOf s m) 0 = w) (hc : ChecksPass (psetChecks s (boxOf s m)) ∧ portsOn s w = true) :
    Completes (.portCalibrate m) s fun t => Answers t m []
      ∧ Leaves s ((portsOf w).foldl (fun t p => if feActive t p && (portOf t p).cal == .ready then calibrate p t else t) s) t := by
  subst hset
  exact completes_served (o := execPortCalibrate m s) rfl rfl h (exactly_of_eq hw) (checked_pass (checksPass_append hc.1 (checksPass_one hc.2)))
    (by simp) fun u hu => ⟨hu.answers, hu.leaves⟩

/-- A move of one STANDBY port to ACTIVE, or of one ACTIVE port to STANDBY, ends there (R87). -/
theorem setPortState_standby {s : State} {p : Nat} (h : (portOf s p).state = .standby) : (portOf (setPortState 0 p s) p).state = .active := by
  unfold setPortState
  dsimp only
  rw [portOf_congr (afterPorts_port s _), h]
  simp
theorem setPortState_active {s : State} {p : Nat} (h : (portOf s p).state = .active) : (portOf (setPortState 1 p s) p).state = .standby := by
  unfold setPortState
  dsimp only
  rw [portOf_congr (afterPorts_port s _), h]
  simp

theorem portSetState_moves {s : State} {m code : Nat} {w : Word} (h : Serves s m 0x0112 0) (hw : (boxOf s m).paramWords = 2)
    (hp : prm (boxOf s m) 0 = w ∧ prmN (boxOf s m) 1 = code ∧ code ≤ 2) (hc : ChecksPass (psetChecks s (boxOf s m)) ∧ portsOn s w = true)
    (hleave : code = 0 ∨ ∀ p ∈ portsOf w, (portOf s p).state = .active → portBusy s p = false ∧ carriesMirror s p = false) :
    Completes (.portSetState m) s fun t =>
      Answers t m [] ∧ Leaves s ((portsOf w).foldl (fun t p => setPortState code p t) s) t
      ∧ (∀ p, portsOf w = [p] → (portOf s p).state = .standby → code = 0 → (portOf t p).state = .active)
      ∧ (∀ p, portsOf w = [p] → (portOf s p).state = .active → code = 1 → (portOf t p).state = .standby) := by
  obtain ⟨rfl, rfl, hcode⟩ := hp
  have hfree : (prmN (boxOf s m) 1 == 0 || (portsOf (prm (boxOf s m) 0)).all fun p =>
      !((portOf s p).state == .active && (portBusy s p || carriesMirror s p))) = true := by
    rcases hleave with h0 | hall
    · simp [h0]
    · simp only [Bool.or_eq_true, List.all_eq_true]
      refine .inr fun p hp => ?_
      by_cases hst : (portOf s p).state = .active
      · simp [(hall p hp hst).1, (hall p hp hst).2]
      · simp [hst]
  refine completes_served (o := execPortSetState m s) rfl rfl h (exactly_of_eq hw) (checked_pass (checksPass_append hc.1 ?_)) (by simp)
    fun u hu => ⟨hu.answers, hu.leaves, fun p hp hst h0 => ?_, fun p hp hst h1 => ?_⟩
  · intro c hmem
    simp only [List.mem_cons, List.not_mem_nil, or_false] at hmem
    rcases hmem with rfl | rfl | rfl
    · exact inRange_fst.2 ⟨Nat.zero_le _, hcode⟩
    · exact hc.2
    · exact hfree
  · rw [portOf_congr (hu.same .port (by decide)), hp, h0]
    exact setPortState_standby hst
  · rw [portOf_congr (hu.same .port (by decide)), hp, h1]
    exact setPortState_active hst

theorem lanePrbs_leaves {s : State} {m pat act : Nat} {w : Word} (h : Serves s m 0x0820 0) (hw : (boxOf s m).paramWords = 3)
    (hp : prm (boxOf s m) 0 = w ∧ prmN (boxOf s m) 1 = pat ∧ prmN (boxOf s m) 2 = act) (hrange : 1 ≤ pat ∧ pat ≤ 3 ∧ 1 ≤ act ∧ act ≤ 2)
    (hc : ChecksPass (psetChecks s (boxOf s m)) ∧ portsOn s w = true)
    (hidle : act = 2 ∨ ∀ p ∈ portsOf w, portBusy s p = false ∧ (portOf s p).state ≠ .bringup) :
    Completes (.lanePrbs m) s fun t => Answers t m [] ∧ Leaves s ((portsOf w).foldl (fun t p =>
      if act = 1 then enterTest p pat (announceTest p pat t) else if (portOf t p).state = .test then requestBring .rebring p t else t) s) t := by
  obtain ⟨rfl, rfl, rfl⟩ := hp
  obtain ⟨hlow, hhigh, hact⟩ := hrange
  have hfree : (!(prmN (boxOf s m) 2 == 1) || (portsOf (prm (boxOf s m) 0)).all fun p => !portBusy s p && (portOf s p).state != .bringup) = true := by
    rcases hidle with h2 | hall
    · simp [h2]
    · simp only [Bool.or_eq_true, List.all_eq_true]
      exact .inr fun p hp => by simp [(hall p hp).1, (hall p hp).2]
  refine completes_served (o := execLanePrbs m s) rfl rfl h (exactly_of_eq hw) (checked_pass (checksPass_append hc.1 ?_)) (by simp)
    fun u hu => ⟨hu.answers, ?_⟩
  · intro c hmem
    simp only [List.mem_cons, List.not_mem_nil, or_false] at hmem
    rcases hmem with rfl | rfl | rfl | rfl
    · exact inRange_fst.2 ⟨hlow, hhigh⟩
    · exact inRange_fst.2 hact
    · exact hc.2
    · exact hfree
  · have hleaves := hu.leaves
    simp only [beq_iff_eq] at hleaves
    exact hleaves

/-- The lane with a preset of a generation pinned, or released (R80). -/
def presetPinned (g v : Nat) (x : Lane) : Lane :=
  { x with pinned := x.pinned.set g (v != 15), presets := if v = 15 then x.presets else x.presets.set g v }

theorem setLane_sameBut (l : Nat) (x : Lane) (s : State) : SameBut [.port] s (setLane l x s) := by
  intro g hg; cases g <;> simp_all [Group.same]

theorem portSetPreset_sets {s : State} {m : Nat} {b : Mailbox} {x : Lane} (h : Serves s m 0x0113 0) (hb : boxOf s m = b) (hw : b.paramWords = 4)
    (hrange : prmN b 0 ≤ 35 ∧ prmN b 1 ≤ 1 ∧ 1 ≤ prmN b 2 ∧ prmN b 2 ≤ 3 ∧ (prmN b 3 < 12 ∨ prmN b 3 = 15)) (hexists : portExists s (prmN b 0) = true)
    (hworn : worn s (268 + (2 * prmN b 0 + prmN b 1)) = false) (hx : x = laneOf s (2 * prmN b 0 + prmN b 1)) :
    Completes (.portSetPreset m) s fun t =>
      Answers t m [] ∧ laneOf t (2 * prmN b 0 + prmN b 1) = presetPinned (prmN b 2 - 1) (prmN b 3) x
      ∧ (∀ l, l ≠ 2 * prmN b 0 + prmN b 1 → laneOf t l = laneOf s l) ∧ t.port.port = s.port.port
      ∧ t.keep = (mpWrite (268 + (2 * prmN b 0 + prmN b 1)) (laneWord (laneOf t (2 * prmN b 0 + prmN b 1))) s).keep
      ∧ DoneAlone m [.port, .keep] s t := by
  subst hb hx
  obtain ⟨hport, hlane, hlow, hhigh, hpreset⟩ := hrange
  refine completes_served (o := execPortSetPreset m s) (e := mpWrite (268 + (2 * prmN (boxOf s m) 0 + prmN (boxOf s m) 1))
    (laneWord (presetPinned (prmN (boxOf s m) 2 - 1) (prmN (boxOf s m) 3) (laneOf s (2 * prmN (boxOf s m) 0 + prmN (boxOf s m) 1))))
    (setLane (2 * prmN (boxOf s m) 0 + prmN (boxOf s m) 1)
      (presetPinned (prmN (boxOf s m) 2 - 1) (prmN (boxOf s m) 3) (laneOf s (2 * prmN (boxOf s m) 0 + prmN (boxOf s m) 1))) s))
    rfl rfl h (exactly_of_eq hw) ((checked_pass ?_).trans ?_) (ws := []) (Nat.zero_le _) fun u hu => ?_
  · simp [inRange, hport, hlane, hlow, hhigh, hpreset, hexists, writable_one hworn]
  · by_cases h15 : prmN (boxOf s m) 3 = 15 <;> simp [presetPinned, h15]
  · have huport := (hu.same .port (by decide)).trans (mpWrite_sameBut _ _ _ .port (by decide))
    have hself := (laneOf_congr huport _).trans (laneOf_setLane (2 * prmN (boxOf s m) 0 + prmN (boxOf s m) 1) _ s)
    refine ⟨hu.answers, hself, fun l hl => (laneOf_congr huport l).trans (laneOf_setLane_ne _ l _ s hl), ?_, ?_, ?_⟩
    · rw [huport]
      rfl
    · rw [hself, hu.same .keep (by decide)]
      exact mpWrite_keep_congr _ _ rfl rfl
    · exact hu.doneAlone (((setLane_sameBut _ _ s).trans (mpWrite_sameBut _ _ _)).mono (by simp)) (by decide) (by decide)

theorem clockSetSpread_sets {s : State} {m v : Nat} (h : Serves s m 0x0114 0) (hw : (boxOf s m).paramWords = 1)
    (hv : prmN (boxOf s m) 0 = v ∧ v ≤ 3) (hdown : ∀ p ∈ frontPorts, (portOf s p).state = .off ∨ (portOf s p).state = .dormant)
    (hworn : worn s (settingWordOf 0x0114) = false) :
    Completes (.clockSetSpread m) s fun t =>
      Answers t m [] ∧ t.port = { s.port with spread := v }
      ∧ t.keep = (mpHold (settingWordOf 0x0114) 0x0114 [(v : Int)] s).keep ∧ DoneAlone m [.port, .keep] s t := by
  obtain ⟨rfl, hrange⟩ := hv
  have hsettings : intOf (prm (boxOf s m) 0) = (prmN (boxOf s m) 0 : Int) := intOf_prm rfl (by omega)
  have hpass : (frontPorts.all fun p => (portOf s p).state == .off || (portOf s p).state == .dormant) = true :=
    List.all_eq_true.2 fun p hp => by simpa using hdown p hp
  have hport (x : Ports) : SameBut [.port] s { s with port := x } := by
    intro g hg; cases g <;> simp_all [Group.same]
  refine completes_served (o := execClockSetSpread m s) rfl rfl h (exactly_of_eq hw) ((checked_pass ?_).trans (storeSetting_ok _ _ hworn)) (by simp)
    fun u hu => ⟨hu.answers, ?_, ?_, ?_⟩
  · simp [inRange, hrange, hpass]
  · rw [hu.same .port (by decide), mpHold_sameBut _ _ _ _ .port (by decide)]
  · rw [hu.same .keep (by decide), hsettings]
    exact mpHold_keep_congr _ _ _ rfl rfl
  · exact hu.doneAlone (((hport _).trans (mpHold_sameBut _ _ _ _)).mono (by simp)) (by decide) (by decide)

/-! Settings of several ports. -/

theorem storePorts_sameBut (ps : List Nat) (f : Nat → Port → Port) (s : State) : SameBut [.port, .keep] s (storePorts ps f s) :=
  foldl_sameBut (fun t p => ((modPort_sameBut p (f p) t).trans (mpHold_sameBut _ _ _ _)).mono (by simp)) ps s

theorem portOf_storePorts {ps : List Nat} (f : Nat → Port → Port) (s : State) (h : ps.Nodup) (p : Nat) :
    portOf (storePorts ps f s) p = if p ∈ ps then f p (portOf s p) else portOf s p := by
  induction ps generalizing s with
  | nil => rfl
  | cons q ps ih =>
    obtain ⟨hq, hps⟩ := List.nodup_cons.1 h
    have hstep : ∀ k, portOf (mpHold (portSettingWord q) 0x0117 (portSettings (f q (portOf s q))) (modPort q (f q) s)) k = portOf (modPort q (f q) s) k :=
      fun k => portOf_congr (mpHold_sameBut _ _ _ _ .port (by decide)) k
    refine (ih _ hps).trans ?_
    rw [hstep]
    by_cases hp : p = q
    · subst hp
      simp [hq]
    · simp [hp, portOf_modPort_ne q p (f q) s hp]

/-- What is stored for several ports leaves the device's own settings. -/
theorem storePorts_device (ps : List Nat) (f : Nat → Port → Port) (s : State) :
    (storePorts ps f s).port.rxLead = s.port.rxLead ∧ (storePorts ps f s).port.txLag = s.port.txLag := by
  induction ps generalizing s with
  | nil => exact ⟨rfl, rfl⟩
  | cons q ps ih =>
    have hstep : (mpHold (portSettingWord q) 0x0117 (portSettings (f q (portOf s q))) (modPort q (f q) s)).port = (modPort q (f q) s).port :=
      mpHold_sameBut _ _ _ _ .port (by decide)
    have hrest := ih (mpHold (portSettingWord q) 0x0117 (portSettings (f q (portOf s q))) (modPort q (f q) s))
    rw [hstep] at hrest
    exact hrest

/-- What `port.config` makes of a port of its set (R98, R388). -/
def portConfigured (b : Mailbox) (p : Nat) (x : Port) : Port :=
  { x with spref := if isPeer p then x.spref else pick (settingOf b 1 4 2) id x.spref, genMax := pick (settingOf b 1 4 3) Int.toNat x.genMax }

/-- The port-scope settings of `port.config` stored, and the device's own set. -/
def portsConfigured (b : Mailbox) (s : State) : State :=
  if bitOf (prm b 1) 2 || bitOf (prm b 1) 3 then storePorts (portsOf (prm b 0)) (portConfigured b) s else s
def timesConfigured (b : Mailbox) (t : State) : State :=
  { t with port := { t.port with
    rxLead := pick (settingOf b 1 4 0) (fun v => v.toNat * 4) t.port.rxLead, txLag := pick (settingOf b 1 4 1) (fun v => v.toNat * 4) t.port.txLag } }

theorem settingOf_of_bit {b : Mailbox} {i n r : Nat} (h : bitOf (prm b i) r = false) : settingOf b i n r = none := if_neg (by simp [h])

theorem portOf_portsConfigured (b : Mailbox) (s : State) (p : Nat) :
    portOf (portsConfigured b s) p = if p ∈ portsOf (prm b 0) then portConfigured b p (portOf s p) else portOf s p := by
  unfold portsConfigured
  split
  · exact portOf_storePorts _ s (portsOf_nodup _) p
  · next hnone =>
    obtain ⟨h2, h3⟩ : bitOf (prm b 1) 2 = false ∧ bitOf (prm b 1) 3 = false := by simpa using hnone
    simp [portConfigured, settingOf_of_bit h2, settingOf_of_bit h3, pick]

theorem portsConfigured_sameBut (b : Mailbox) (s : State) : SameBut [.port, .keep] s (portsConfigured b s) := by
  unfold portsConfigured
  split
  · exact storePorts_sameBut _ _ s
  · exact sameBut_refl _ s

theorem portsConfigured_device (b : Mailbox) (s : State) :
    (portsConfigured b s).port.rxLead = s.port.rxLead ∧ (portsConfigured b s).port.txLag = s.port.txLag := by
  unfold portsConfigured
  split
  · exact storePorts_device _ _ s
  · exact ⟨rfl, rfl⟩

theorem timesConfigured_sameBut (b : Mailbox) (t : State) : SameBut [.port] t (timesConfigured b t) := by
  intro g hg; cases g <;> simp_all [Group.same, timesConfigured]

/-- All that `port.config` leaves: the device's own word is queued where one of its settings was selected (R440). -/
def portConfigEffect (b : Mailbox) (s : State) : State :=
  let t := timesConfigured b (portsConfigured b s)
  if (settingOf b 1 4 0).isSome || (settingOf b 1 4 1).isSome then
    mpHold (settingWordOf 0x0117) 0x0117 [(t.port.rxLead : Int), (t.port.txLag : Int)] t else t

theorem portConfigEffect_queues (b : Mailbox) (s : State) : SameBut [.keep] (timesConfigured b (portsConfigured b s)) (portConfigEffect b s) := by
  unfold portConfigEffect
  dsimp only
  split
  · exact mpHold_sameBut _ _ _ _
  · exact sameBut_refl _ _

theorem portConfigEffect_sameBut (b : Mailbox) (s : State) : SameBut [.port, .keep] s (portConfigEffect b s) :=
  (((portsConfigured_sameBut b s).trans (timesConfigured_sameBut b _)).trans (portConfigEffect_queues b s)).mono (by simp)

theorem portConfigEffect_device (b : Mailbox) (s : State) :
    (portConfigEffect b s).port.rxLead = pick (settingOf b 1 4 0) (fun v => v.toNat * 4) s.port.rxLead
      ∧ (portConfigEffect b s).port.txLag = pick (settingOf b 1 4 1) (fun v => v.toNat * 4) s.port.txLag := by
  obtain ⟨hlead, hlag⟩ := portsConfigured_device b s
  rw [portConfigEffect_queues b s .port (by decide), ← hlead, ← hlag]
  exact ⟨rfl, rfl⟩

theorem portOf_portConfigEffect (b : Mailbox) (s : State) (p : Nat) :
    portOf (portConfigEffect b s) p = if p ∈ portsOf (prm b 0) then portConfigured b p (portOf s p) else portOf s p :=
  (portOf_congr (portConfigEffect_queues b s .port (by decide)) p).trans (portOf_portsConfigured b s p)

theorem portConfig_sets {s : State} {m : Nat} {b : Mailbox} (h : Serves s m 0x0117 0) (hb : boxOf s m = b) (hw : 2 ≤ b.paramWords)
    (hc : ChecksPass (psetChecks s b ++ settingsOk b 1 [(300, 499), (300, 499), (-1, 1048575), (1, 3)]))
    (hdevice : ((settingOf b 1 4 0).isNone ∧ (settingOf b 1 4 1).isNone) ∨ ((∀ p ∈ frontPorts, portBusy s p = false) ∧ worn s (settingWordOf 0x0117) = false))
    (hworn : ∀ p ∈ portsOf (prm b 0), worn s (portSettingWord p) = false) :
    Completes (.portConfig m) s fun t =>
      Answers t m [] ∧ t.port.rxLead = pick (settingOf b 1 4 0) (fun v => v.toNat * 4) s.port.rxLead
      ∧ t.port.txLag = pick (settingOf b 1 4 1) (fun v => v.toNat * 4) s.port.txLag
      ∧ (∀ p ∈ portsOf (prm b 0), (portOf t p).genMax = pick (settingOf b 1 4 3) Int.toNat (portOf s p).genMax
          ∧ (portOf t p).spref = if isPeer p then (portOf s p).spref else pick (settingOf b 1 4 2) id (portOf s p).spref)
      ∧ (∀ p, p ∉ portsOf (prm b 0) → portOf t p = portOf s p) ∧ DoneAlone m [.port, .keep] s t := by
  subst hb
  have hwritable : writable s ((portsOf (prm (boxOf s m) 0)).map portSettingWord) = true := by simpa [writable] using hworn
  refine completes_served (o := execPortConfig m s) (e := portConfigEffect (boxOf s m) s) (ws := []) rfl rfl h (decide_eq_true hw)
    (checked_pass (checksPass_append hc ?_)) (Nat.zero_le _) fun u hu => ?_
  · intro c hmem
    simp only [List.mem_cons, List.not_mem_nil, or_false] at hmem
    rcases hdevice with ⟨hlead, hlag⟩ | ⟨hidle, hdevworn⟩
    · rw [Option.isNone_iff_eq_none] at hlead hlag
      rcases hmem with rfl | rfl <;> simp [hlead, hlag, hwritable]
    · rcases hmem with rfl | rfl
      · simp only [Bool.or_eq_true, List.all_eq_true]
        exact .inr fun p hp => by simp [hidle p hp]
      · simp [hdevworn, hwritable]
  · have hport := hu.same .port (by decide)
    obtain ⟨hlead, hlag⟩ := portConfigEffect_device (boxOf s m) s
    refine ⟨hu.answers, (congrArg Ports.rxLead hport).trans hlead, (congrArg Ports.txLag hport).trans hlag, fun p hp => ?_, fun p hp => ?_,
      hu.doneAlone (portConfigEffect_sameBut _ s) (by decide) (by decide)⟩
    · rw [portOf_congr hport, portOf_portConfigEffect, if_pos hp]
      exact ⟨rfl, rfl⟩
    · rw [portOf_congr hport, portOf_portConfigEffect, if_neg hp]

/-- Settles O9: each clause is what one control of ports leaves where its checks pass. -/
theorem portControls : Obligations.PortControls :=
  ⟨fun _ _ _ h hw hset hc => portRetrain_leaves h hw hset hc, fun _ _ _ _ h hw hp hc hleave => portSetState_moves h hw hp hc hleave,
    fun _ _ _ h hw hset hc => portCalibrate_leaves h hw hset hc, fun _ _ _ _ _ h hw hp hrange hc hidle => lanePrbs_leaves h hw hp hrange hc hidle,
    fun _ _ _ _ h hb hw hrange hexists hworn hx => portSetPreset_sets h hb hw hrange hexists hworn hx,
    fun _ _ _ h hw hv hdown hworn => clockSetSpread_sets h hw hv hdown hworn,
    fun _ _ _ h hb hw hc hdevice hworn => portConfig_sets h hb hw hc hdevice hworn⟩

end Sys2Proof.Machine
end

section
/-! SUPPORT. The commands of the plan: submission to admission, arming, reading and saving (R44, R57, R58, R63, R390, R507). -/
namespace Sys2Proof.Machine

/-- A served command with any reply of at most 120 words completes with what follows from the mailbox that the reply leaves and from its effect. -/
theorem completes_replied {i : Instr} {op owner m : Nat} {words : Nat → Bool} {s : State} {r : Reply} {body : Mailbox → Reply} {P : State → Prop}
    {o : Result} (ho : exec i s = o) (hi : o = mailboxCommand op owner words m s body) (h : Serves s m op owner)
    (hw : words (boxOf s m).paramWords = true) (hb : body (boxOf s m) = r) (hl : r.words.length ≤ 120)
    (hp : ∀ u, (boxOf u m).st = .done → (boxOf u m).status = r.status → (boxOf u m).data = boxData (r.words.take 120) →
      SameBut [.mb, .irq, .out, .pending] r.after u → u.pending = s.pending → P u) : Completes i s P := by
  unfold Completes
  rw [ho, hi]
  refine completes_reply h hw hb hl fun u hbox => hp u ?_ ?_ ?_
  · rw [hbox]
  · rw [hbox]
  · rw [hbox]

/-- Where an effect leaves all but some groups, so does the completion with it, mailboxes and the interrupt state apart. -/
theorem completed_sameBut {gs : List Group} {s e u : State} (hs : SameBut gs s e) (hsame : SameBut [.mb, .irq, .out, .pending] e u)
    (hqueue : u.pending = s.pending) : SameBut (.mb :: .irq :: .out :: gs) s u := by
  intro g hg
  simp only [List.mem_cons, not_or] at hg
  have heffect := hs g
  have hrest := hsame g
  cases g <;> simp_all [Group.same]

theorem withPlan_sameBut (x : Plans) (s : State) : SameBut [.plan] s { s with plan := x } := by
  intro g hg; cases g <;> simp_all [Group.same]

theorem refusalWords_length (r : PlanRefusal) : (refusalWords r).length = 3 := rfl

/-- A plan refused is answered with its status and its three words (R57). -/
def planRefused (r : PlanRefusal) (s : State) : Reply := { status := r.status, words := refusalWords r, after := s }

/-! What submission, the planner's run and arming answer. -/

theorem submit_admitted {s : State} {img : List Word} (h : admission s img = none) :
    submit img s = okay [BitVec.ofNat 64 (planId img)] (stageImage img s) := by
  unfold submit
  rw [h]
theorem submit_refused {s : State} {img : List Word} {r : PlanRefusal} (h : admission s img = some r) : submit img s = planRefused r (unstage s) := by
  unfold submit
  rw [h]
  rfl

/-- A reply about the staged slot: at most three words, the active plan as it was, and with a status other than OK the slot EMPTY (R58). -/
structure Stages (s : State) (r : Reply) : Prop where
  length : r.words.length ≤ 3
  frame : SameBut [.plan, .clk] s r.after
  active : r.after.plan.active = s.plan.active
  empty : r.status ≠ 0 → r.after.plan.stage = .empty

theorem unstage_stages (st : Nat) (r : PlanRefusal) (s : State) : Stages s { status := st, words := refusalWords r, after := unstage s } where
  length := Nat.le_refl 3
  frame := (withPlan_sameBut _ s).mono (by simp)
  active := rfl
  empty := fun _ => rfl

theorem submit_stages (img : List Word) (s : State) : Stages s (submit img s) := by
  cases h : admission s img with
  | none =>
    rw [submit_admitted h]
    exact ⟨by simp [okay], (withPlan_sameBut _ s).mono (by simp), rfl, fun hst => absurd rfl hst⟩
  | some r =>
    rw [submit_refused h]
    exact unstage_stages _ r s

theorem Stages.of_drawFree {s : State} {r : Reply} (h : Stages (drawFree s).2 r) : Stages s r :=
  ⟨h.length, ((drawFree_sameBut s).trans h.frame).mono (by simp), h.active, h.empty⟩

theorem editPlan_stages (ws : List Word) (s : State) : Stages s (editPlan ws s) := by
  unfold editPlan
  dsimp only
  refine Stages.of_drawFree ?_
  split
  · exact unstage_stages _ _ _
  · split
    · exact unstage_stages _ _ _
    · exact submit_stages _ _

/-- Arming, its own checks passing: ARMED for the superframe, or what checks 4 and 5 refuse (R57, R58). -/
theorem armPlan_armed {s : State} {pid x : Nat} (hcounting : counting s = true) (hplan : s.plan.stage = .loaded ∧ planId s.plan.staged = pid)
    (hopen : s.sf.number < x ∧ ¬ (x = s.sf.number + 1 ∧ s.sf.closed = true)) :
    (recheck s s.plan.staged = none → armPlan pid x s = okay [] { s with plan := { s.plan with stage := .armed, armedSf := x } })
    ∧ ∀ r, recheck s s.plan.staged = some r → armPlan pid x s = planRefused r s := by
  have hlate : (decide (x ≤ s.sf.number) || (x == s.sf.number + 1 && s.sf.closed)) = false := by
    simp only [Bool.or_eq_false_iff, decide_eq_false_iff_not]
    exact ⟨by omega, by simpa using hopen.2⟩
  have hchecks : ChecksPass [(counting s, stState, 0), (s.plan.stage != .armed, stBusy, 0),
      (s.plan.stage == .loaded && planId s.plan.staged == pid, stState, 0),
      (!(decide (x ≤ s.sf.number) || (x == s.sf.number + 1 && s.sf.closed)), stBusy, 0)] := by
    intro c hc
    simp only [List.mem_cons, List.not_mem_nil, or_false] at hc
    rcases hc with rfl | rfl | rfl | rfl
    · exact hcounting
    · simp [hplan.1]
    · simp [hplan]
    · simp [hlate]
  refine ⟨fun hok => (checked_pass hchecks).trans ?_, fun r hbad => (checked_pass hchecks).trans ?_⟩
  · rw [hok]
  · rw [hbad]
    rfl

/-- Whatever arming answers, its words are few, and it changes the plans alone. -/
theorem armPlan_frame (pid x : Nat) (s : State) : (armPlan pid x s).words.length ≤ 3 ∧ SameBut [.plan] s (armPlan pid x s).after := by
  unfold armPlan checked
  dsimp only
  split
  · exact ⟨by simp [refuse], sameBut_refl _ s⟩
  · split
    · exact ⟨Nat.le_refl 3, sameBut_refl _ s⟩
    · exact ⟨by simp [okay], withPlan_sameBut _ s⟩

/-! The commands. -/

theorem planLoad_submits {s : State} {m : Nat} {img : List Word} (h : Serves s m 0x0301 0) (hw : (boxOf s m).paramWords = 0)
    (hd : domOn s 28 = true) (hst : s.plan.stage ≠ .armed)
    (himg : img = imageOf (memWords s.mem.planStage 0 (14 + fieldOf (memWord s.mem.planStage 8) 31 16 % 16385))) :
    Completes (.planLoad m) s fun t =>
      (admission s img = none → Answers t m [BitVec.ofNat 64 (planId img)] ∧ t.plan = { s.plan with stage := .loaded, staged := img, armedSf := 0 })
      ∧ (∀ r, admission s img = some r → (boxOf t m).st = .done ∧ (boxOf t m).status = r.status ∧ (boxOf t m).data = boxData (refusalWords r)
          ∧ t.plan = { s.plan with stage := .empty, staged := [], armedSf := 0 })
      ∧ SameBut [.plan, .mb, .irq, .out] s t := by
  have hpass : ChecksPass (loadChecks s) := by
    intro c hc
    simp only [loadChecks, List.mem_cons, List.not_mem_nil, or_false] at hc
    rcases hc with rfl | rfl
    · exact hd
    · simpa using hst
  have hbody : checked (loadChecks s) s
      (submit (imageOf (memWords s.mem.planStage 0 (14 + fieldOf (memWord s.mem.planStage 8) 31 16 % 16385))) s) = submit img s := by
    rw [checked_pass hpass, himg]
  cases hadm : admission s img with
  | none =>
    refine completes_served (o := execPlanLoad m s) rfl rfl h (noWords_of_eq hw) (hbody.trans (submit_admitted hadm)) (by simp) fun u hu =>
      ⟨fun _ => ⟨hu.answers, hu.same .plan (by decide)⟩, nofun, (hu.sameBut (withPlan_sameBut _ s)).mono (by simp)⟩
  | some r =>
    refine completes_replied (o := execPlanLoad m s) rfl rfl h (noWords_of_eq hw) (hbody.trans (submit_refused hadm)) (by simp [planRefused, refusalWords])
      fun u hdone hstatus hdata hsame hqueue =>
      ⟨nofun, fun q hq => ?_, (completed_sameBut (withPlan_sameBut _ s) hsame hqueue).mono (by simp)⟩
    obtain rfl := Option.some.inj hq
    exact ⟨hdone, hstatus, hdata, hsame .plan (by decide)⟩

theorem planActivate_arms {s : State} {m pid x : Nat} (h : Serves s m 0x0302 0) (hw : (boxOf s m).paramWords = 2)
    (hpid : prmN (boxOf s m) 0 = pid ∧ pid < 2 ^ 32) (hx : prmN (boxOf s m) 1 = x ∧ x < 2 ^ 40) (hcounting : counting s = true)
    (hplan : s.plan.stage = .loaded ∧ planId s.plan.staged = pid) (hopen : s.sf.number < x ∧ ¬ (x = s.sf.number + 1 ∧ s.sf.closed = true)) :
    Completes (.planActivate m) s fun t =>
      (recheck s s.plan.staged = none → Answers t m [] ∧ t.plan = { s.plan with stage := .armed, armedSf := x })
      ∧ (∀ r, recheck s s.plan.staged = some r → (boxOf t m).st = .done ∧ (boxOf t m).status = r.status
          ∧ (boxOf t m).data = boxData (refusalWords r) ∧ t.plan = s.plan)
      ∧ SameBut [.plan, .mb, .irq, .out] s t := by
  obtain ⟨rfl, hpid⟩ := hpid
  obtain ⟨rfl, hx⟩ := hx
  have hpass : ChecksPass [(decide (prmN (boxOf s m) 0 < 2 ^ 32), stParam, 0), sfOk (boxOf s m) 1] := by
    intro c hc
    simp only [List.mem_cons, List.not_mem_nil, or_false] at hc
    rcases hc with rfl | rfl
    · exact decide_eq_true hpid
    · exact decide_eq_true hx
  obtain ⟨hok, hbad⟩ := armPlan_armed hcounting hplan hopen
  cases hre : recheck s s.plan.staged with
  | none =>
    exact completes_served (o := execPlanActivate m s) rfl rfl h (exactly_of_eq hw) ((checked_pass hpass).trans (hok hre)) (by simp) fun u hu =>
      ⟨fun _ => ⟨hu.answers, hu.same .plan (by decide)⟩, nofun, (hu.sameBut (withPlan_sameBut _ s)).mono (by simp)⟩
  | some r =>
    refine completes_replied (o := execPlanActivate m s) rfl rfl h (exactly_of_eq hw) ((checked_pass hpass).trans (hbad r hre))
      (by simp [planRefused, refusalWords]) fun u hdone hstatus hdata hsame hqueue =>
      ⟨nofun, fun q hq => ?_, (completed_sameBut (sameBut_refl [] s) hsame hqueue).mono (by simp)⟩
    obtain rfl := Option.some.inj hq
    exact ⟨hdone, hstatus, hdata, hsame .plan (by decide)⟩

theorem planAbort_unarms {s : State} {m : Nat} (h : Serves s m 0x0303 0) (hw : (boxOf s m).paramWords = 0) (hcounting : counting s = true)
    (hst : s.plan.stage = .armed) (hopen : ¬ (s.sf.closed = true ∧ s.plan.armedSf = s.sf.number + 1)) :
    Completes (.planAbort m) s fun t => Answers t m [] ∧ t.plan = { s.plan with stage := .loaded, armedSf := 0 } ∧ DoneAlone m [.plan] s t := by
  refine completes_served (o := execPlanAbort m s) rfl rfl h (noWords_of_eq hw) (checked_pass ?_) (by simp) fun u hu =>
    ⟨hu.answers, hu.same .plan (by decide), hu.doneAlone (withPlan_sameBut _ s) (by decide) (by decide)⟩
  intro c hc
  simp only [List.mem_cons, List.not_mem_nil, or_false] at hc
  rcases hc with rfl | rfl | rfl
  · exact hcounting
  · simp [hst]
  · simpa [or_iff_not_imp_left] using hopen

theorem planEdit_edits {s : State} {m n : Nat} {b : Mailbox} (h : Serves s m 0x0305 0) (hb : boxOf s m = b) (hn : prmN b 0 = n ∧ 1 ≤ n ∧ n ≤ 112)
    (hw : b.paramWords = n + 1) (hcoded : ((prms b 1 n).all changeEncoded) = true) (hd : domOn s 28 = true) (hst : s.plan.stage ≠ .armed) :
    Completes (.planEdit m) s fun t =>
      (boxOf t m).st = .done ∧ (boxOf t m).status = (editPlan (prms b 1 n) s).status
      ∧ (boxOf t m).data = boxData (editPlan (prms b 1 n) s).words ∧ t.plan = (editPlan (prms b 1 n) s).after.plan
      ∧ ((editPlan (prms b 1 n) s).status ≠ 0 → t.plan.stage = .empty) ∧ t.plan.active = s.plan.active
      ∧ SameBut [.plan, .clk, .mb, .irq, .out] s t := by
  subst hb
  obtain ⟨rfl, hrange⟩ := hn
  have hcount : (boxOf s m).paramWords - 1 = prmN (boxOf s m) 0 := by omega
  have hpass : ChecksPass (editChecks (boxOf s m) s) := by
    intro c hc
    simp only [editChecks, hcount, List.mem_append, List.mem_cons, List.not_mem_nil, or_false, List.mem_map, List.mem_range] at hc
    rcases hc with ((rfl | rfl) | ⟨i, hi, rfl⟩) | rfl | rfl
    · exact inRange_fst.2 hrange
    · simp [countIs, hw]
    · have hget : (prms (boxOf s m) 1 (prmN (boxOf s m) 0)).getD i 0 = (prms (boxOf s m) 1 (prmN (boxOf s m) 0))[i] := by simp [hi]
      simp only [hget]
      exact List.all_eq_true.1 hcoded _ (List.getElem_mem hi)
    · exact hd
    · simpa using hst
  have hbody : checked (editChecks (boxOf s m) s) s (editPlan (prms (boxOf s m) 1 ((boxOf s m).paramWords - 1)) s)
      = editPlan (prms (boxOf s m) 1 (prmN (boxOf s m) 0)) s := by rw [checked_pass hpass, hcount]
  have hstages := editPlan_stages (prms (boxOf s m) 1 (prmN (boxOf s m) 0)) s
  refine completes_replied (o := execPlanEdit m s) rfl rfl h ?_ hbody (hstages.length.trans (by decide)) fun u hdone hstatus hdata hsame hqueue => ?_
  · simp only [editWords, hw, decide_eq_true_eq]
    omega
  · have hplan := hsame .plan (by decide)
    rw [List.take_of_length_le (hstages.length.trans (by decide))] at hdata
    refine ⟨hdone, hstatus, hdata, hplan, fun hne => ?_, ?_, (completed_sameBut hstages.frame hsame hqueue).mono (by simp)⟩
    · rw [hplan]
      exact hstages.empty hne
    · rw [hplan]
      exact hstages.active

/-- One change planned and admitted, and its image armed (R389): the first refusal of the two is the answer. -/
def editThenArm (w : Word) (x : Nat) (s : State) : Reply :=
  let e := editPlan [w] s
  if e.status ≠ 0 then e
  else
    let a := armPlan (planId e.after.plan.staged) x e.after
    if a.status ≠ 0 then a else okay e.words a.after

theorem editThenArm_cases (w : Word) (x : Nat) (s : State) :
    let e := editPlan [w] s
    let a := armPlan (planId e.after.plan.staged) x e.after
    (editThenArm w x s).words.length ≤ 3 ∧ SameBut [.plan, .clk] s (editThenArm w x s).after
      ∧ (e.status ≠ 0 → editThenArm w x s = e) ∧ (e.status = 0 → a.status ≠ 0 → editThenArm w x s = a)
      ∧ (e.status = 0 → a.status = 0 → editThenArm w x s = okay e.words a.after) := by
  have hstages := editPlan_stages [w] s
  unfold editThenArm
  generalize editPlan [w] s = e at hstages ⊢
  obtain ⟨hlength, hframe⟩ := armPlan_frame (planId e.after.plan.staged) x e.after
  dsimp only
  generalize armPlan (planId e.after.plan.staged) x e.after = a at hlength hframe ⊢
  have hboth : SameBut [.plan, .clk] s a.after := (hstages.frame.trans hframe).mono (by simp)
  by_cases he : e.status = 0
  · by_cases ha : a.status = 0
    · simp [he, ha, okay, hstages.length, hboth]
    · simp [he, ha, hlength, hboth]
  · simp [he, hstages.length, hstages.frame]

theorem circuitSetClass_edits {s : State} {m c mode x : Nat} (h : Serves s m 0x0201 0) (hw : (boxOf s m).paramWords = 3)
    (hc : prmN (boxOf s m) 0 = c ∧ c ≤ 767) (hmode : prmN (boxOf s m) 1 = mode ∧ mode ≤ 3) (hx : prmN (boxOf s m) 2 = x ∧ x < 2 ^ 40)
    (havail : circuitAvailable s c = true) (hcounting : counting s = true) (hst : s.plan.stage ≠ .armed) :
    Completes (.circuitSetClass m) s fun t =>
      let e := editPlan [classChange s c mode] s
      let a := armPlan (planId e.after.plan.staged) x e.after
      (boxOf t m).st = .done
      ∧ (e.status ≠ 0 → (boxOf t m).status = e.status ∧ t.plan = e.after.plan)
      ∧ (e.status = 0 → a.status ≠ 0 → (boxOf t m).status = a.status ∧ t.plan = a.after.plan)
      ∧ (e.status = 0 → a.status = 0 → (boxOf t m).status = stOk ∧ (boxOf t m).data = boxData e.words ∧ t.plan = a.after.plan)
      ∧ SameBut [.plan, .clk, .mb, .irq, .out] s t := by
  obtain ⟨rfl, hc⟩ := hc
  obtain ⟨rfl, hmode⟩ := hmode
  obtain ⟨rfl, hx⟩ := hx
  have hpass : ChecksPass (classChecks (boxOf s m) s) := by
    intro k hk
    simp only [classChecks, List.mem_cons, List.not_mem_nil, or_false] at hk
    rcases hk with rfl | rfl | rfl | rfl | rfl | rfl
    · exact inRange_fst.2 ⟨Nat.zero_le _, hc⟩
    · exact inRange_fst.2 ⟨Nat.zero_le _, hmode⟩
    · exact decide_eq_true hx
    · exact havail
    · exact hcounting
    · simpa using hst
  obtain ⟨hlength, hframe, hedit, harm, hok⟩ :=
    editThenArm_cases (classChange s (prmN (boxOf s m) 0) (prmN (boxOf s m) 1)) (prmN (boxOf s m) 2) s
  refine completes_replied (o := execCircuitSetClass m s)
    (r := editThenArm (classChange s (prmN (boxOf s m) 0) (prmN (boxOf s m) 1)) (prmN (boxOf s m) 2) s) rfl rfl h (exactly_of_eq hw)
    (checked_pass hpass) (hlength.trans (by decide)) fun u hdone hstatus hdata hsame hqueue => ?_
  have hplan := hsame .plan (by decide)
  rw [List.take_of_length_le (hlength.trans (by decide))] at hdata
  refine ⟨hdone, fun he => ?_, fun he ha => ?_, fun he ha => ?_, (completed_sameBut hframe hsame hqueue).mono (by simp)⟩
  · rw [hedit he] at hstatus hplan
    exact ⟨hstatus, hplan⟩
  · rw [harm he ha] at hstatus hplan
    exact ⟨hstatus, hplan⟩
  · rw [hok he ha] at hstatus hplan hdata
    exact ⟨hstatus, hdata, hplan⟩

theorem planRead_copies {s : State} {m : Nat} (h : Serves s m 0x0306 0) (hw : (boxOf s m).paramWords = 0) (hd : domOn s 28 = true)
    (hplan : s.plan.active ≠ []) :
    Completes (.planRead m) s fun t => ∃ off, Answers t m [BitVec.ofNat 64 off, BitVec.ofNat 64 (8 * s.plan.active.length)]
      ∧ t.mem = { s.mem with near := memWriteWords s.mem.near off s.plan.active } ∧ SameBut [.clk, .mem, .mb, .irq, .out] s t := by
  have hframe : SameBut [.clk, .mem, .mb] s (nearResult m s.plan.active s).2 := by
    intro g hg; cases g <;> simp_all [Group.same, nearResult, drawFree]
  refine completes_served (o := execPlanRead m s) rfl rfl h (noWords_of_eq hw) (checked_pass ?_) (by simp [nearResult]) fun u hu =>
    ⟨_, hu.answers, hu.same .mem (by decide), (hu.sameBut hframe).mono (by simp)⟩
  simp [nearOn, hd, hplan]

theorem planStageWrite_writes {s : State} {m off : Nat} {b : Mailbox} (h : Serves s m 0x0307 0) (hb : boxOf s m = b)
    (hw : 1 ≤ b.paramWords ∧ b.paramWords ≤ 119) (hoff : prmN b 0 = off) (hrange : off % 8 = 0 ∧ off + 8 * (b.paramWords - 1) ≤ 262144)
    (hd : domOn s 28 = true) (hadm : admitting s = false) :
    Completes (.planStageWrite m) s fun t =>
      Answers t m [] ∧ t.mem = { s.mem with planStage := memWriteWords s.mem.planStage off (prms b 1 (b.paramWords - 1)) } ∧ DoneAlone m [.mem] s t := by
  subst hb hoff
  refine completes_served (o := execPlanStageWrite m s) rfl rfl h (decide_eq_true hw) (checked_pass ?_) (by simp) fun u hu =>
    ⟨hu.answers, hu.same .mem (by decide), hu.doneAlone (withMem_sameBut _ s) (by decide) (by decide)⟩
  simp [nearOn, hrange, hd, hadm]

theorem planSaveBoot_begins {s : State} {m : Nat} (h : Serves s m 0x0308 0) (hw : (boxOf s m).paramWords = 0) (hplan : s.plan.active ≠ [])
    (hidle : flashBusy s = false) :
    Completes (.planSaveBoot m) s fun t =>
      Answers t m [] ∧ t.mb.background = s.mb.background ++ [.planSave s.plan.active] ∧ SameBut [.mb, .irq, .out] s t := by
  refine completes_served (o := execPlanSaveBoot m s) rfl rfl h (noWords_of_eq hw) (checked_pass ?_) (by simp) fun u hu =>
    ⟨hu.answers, hu.background, (hu.sameBut (addBackground_sameBut _ s)).mono (by simp)⟩
  simp [hplan, hidle]

/-- Settles O10: each clause is what one command of the plan does where its own checks pass. -/
theorem planCommands : Obligations.PlanCommands :=
  ⟨fun _ _ _ h hw hd hst himg => planLoad_submits h hw hd hst himg,
    fun _ _ _ _ h hw hpid hx hcounting hplan hopen => planActivate_arms h hw hpid hx hcounting hplan hopen,
    fun _ _ h hw hcounting hst hopen => planAbort_unarms h hw hcounting hst hopen,
    fun s m h hw => completes_readout (o := execPlanStatus m s) rfl rfl h (noWords_of_eq hw) rfl (by simp),
    fun _ _ _ _ h hb hn hw hcoded hd hst => planEdit_edits h hb hn hw hcoded hd hst,
    fun _ _ _ _ _ h hw hc hmode hx havail hcounting hst => circuitSetClass_edits h hw hc hmode hx havail hcounting hst,
    fun _ _ h hw hd hplan => planRead_copies h hw hd hplan,
    fun _ _ _ _ h hb hw hoff hrange hd hadm => planStageWrite_writes h hb hw hoff hrange hd hadm,
    fun _ _ h hw hplan hidle => planSaveBoot_begins h hw hplan hidle⟩

end Sys2Proof.Machine
end

section
/-! SUPPORT. The readouts of circuits: what each delivers for a CSET, and the counters that its read clears (R384, R385, R389). -/
namespace Sys2Proof.Machine

theorem circuitsOf_length (b : Mailbox) (i : Nat) : (circuitsOf b i).length ≤ 768 := (List.length_filter_le _ _).trans (by simp)

theorem csetExists_fst {s : State} {b : Mailbox} {i : Nat} (h : ∀ c ∈ circuitsOf b i, circuitAvailable s c = true) : (csetExists s b i).1 = true := by
  simpa only [csetExists, List.all_eq_true] using h

/-- A readout of the circuits of a CSET delivers `k` words for each of them, and clears the counters that it reads (R385). -/
theorem completes_csetReadout {i : Instr} {op m k : Nat} {s : State} {ok : Nat → Bool × Nat × Nat} {ws : Nat → List Word} {ks : List Ctr}
    {cs : List Nat} {o : Result} (ho : exec i s = o) (hi : o = csetReadout op m s ok ws ks) (h : Serves s m op 0)
    (hw : (boxOf s m).paramWords = 12) (hcs : cs = circuitsOf (boxOf s m) 0) (hav : ∀ c ∈ cs, circuitAvailable s c = true)
    (hok : ∀ c ∈ cs, (ok c).1 = true) (hd : domOn s 28 = true) (hlen : ∀ c, (ws c).length = k) (hk : k ≤ 64) :
    Completes i s fun t =>
      Delivers s t m (cs.flatMap ws) ∧ CircuitsChange cs (fun _ => clearCtrs ks) s t ∧ SameBut [.circ, .clk, .mem, .mb, .irq, .out] s t := by
  have hnodup : cs.Nodup := hcs ▸ circuitsOf_nodup _ 0
  have hcount : cs.length ≤ 768 := hcs ▸ circuitsOf_length _ 0
  have hpass : ChecksPass (csetExists s (boxOf s m) 0 :: cs.map ok) := by
    intro c hc
    rcases List.mem_cons.1 hc with rfl | hc
    · exact csetExists_fst (hcs ▸ hav)
    · obtain ⟨x, hx, rfl⟩ := List.mem_map.1 hc
      exact hok x hx
  refine completes_delivered (e := cs.foldl (fun t c => modCirc c (clearCtrs ks) t) s) (ws := cs.flatMap ws) ho hi h (exactly_of_eq hw) ?_ (.inr hd) ?_
    (circ_foldl_sameBut (fun _ => clearCtrs ks) _ s) (by decide) (by decide) fun u hu hframe hsame =>
      ⟨hu, circuits_change hnodup (hsame .circ (by decide)), hframe.mono (by simp)⟩
  · rw [hcs] at hpass ⊢
    exact checked_pass hpass
  · rw [length_flatMap_const ws k _ hlen]
    have := Nat.mul_le_mul hk hcount
    omega

theorem circuitChaffMap_answers {s : State} {m c clear : Nat} (h : Serves s m 0x023A 0) (hw : (boxOf s m).paramWords = 2)
    (hc : prmN (boxOf s m) 0 = c ∧ c ≤ 767) (hclear : prmN (boxOf s m) 1 = clear ∧ clear ≤ 1) (hav : circuitAvailable s c = true) :
    Completes (.circuitChaffMap m) s fun t =>
      Answers t m (binWords (circOf s c) ++ [(circOf s c).noisy, BitVec.ofNat 64 (circOf s c).sinceHalving])
      ∧ (clear = 1 → circOf t c = { circOf s c with bins := [], noisy := 0, sinceHalving := 0 }) ∧ (clear = 0 → t.circ = s.circ)
      ∧ (∀ k, k ≠ c → circOf t k = circOf s k) ∧ DoneAlone m [.circ] s t := by
  obtain ⟨rfl, hc⟩ := hc
  obtain ⟨rfl, hclear⟩ := hclear
  have hpass : ChecksPass [inRange (boxOf s m) 0 0 767, inRange (boxOf s m) 1 0 1, (circuitAvailable s (prmN (boxOf s m) 0), stResource, 0)] := by
    simp [ChecksPass, inRange, hc, hclear, hav]
  by_cases h1 : prmN (boxOf s m) 1 = 1
  · refine completes_served (o := execCircuitChaffMap m s)
      (e := setCirc (prmN (boxOf s m) 0) { circOf s (prmN (boxOf s m) 0) with bins := [], noisy := 0, sinceHalving := 0 } s)
      (ws := binWords (circOf s (prmN (boxOf s m) 0)) ++ [(circOf s (prmN (boxOf s m) 0)).noisy, BitVec.ofNat 64 (circOf s (prmN (boxOf s m) 0)).sinceHalving])
      rfl rfl h (exactly_of_eq hw) ((checked_pass hpass).trans (by rw [if_pos h1])) (by simp [binWords]) fun u hu => ?_
    have hcirc := hu.same .circ (by decide)
    exact ⟨hu.answers, fun _ => (circOf_congr hcirc _).trans (circOf_setCirc _ _ s), fun h0 => absurd h0 (by omega),
      fun k hk => (circOf_congr hcirc k).trans (circOf_setCirc_ne _ k _ s hk), hu.doneAlone (setCirc_sameBut _ _ s) (by decide) (by decide)⟩
  · refine completes_served (o := execCircuitChaffMap m s) (e := s)
      (ws := binWords (circOf s (prmN (boxOf s m) 0)) ++ [(circOf s (prmN (boxOf s m) 0)).noisy, BitVec.ofNat 64 (circOf s (prmN (boxOf s m) 0)).sinceHalving])
      rfl rfl h (exactly_of_eq hw) ((checked_pass hpass).trans (by rw [if_neg h1])) (by simp [binWords]) fun u hu => ?_
    have hcirc := hu.same .circ (by decide)
    exact ⟨hu.answers, fun h' => absurd h' h1, fun _ => hcirc, fun k _ => circOf_congr hcirc k, hu.doneAlone (sameBut_refl _ s) (by decide) (by decide)⟩

/-- Settles O11: seven readouts of a CSET differ in their words and counters alone; the map and the relays are read by themselves. -/
theorem circuitReadouts : Obligations.CircuitReadouts := by
  refine ⟨fun s m cs h hw hcs hav hd => ?_, fun s m cs h hw hcs hav hd => ?_, fun s m cs h hw hcs hav hd => ?_,
    fun s m cs h hw hcs hav hfeed hd => ?_, fun s m cs h hw hcs hav hd => ?_, fun s m cs h hw hcs hav hd => ?_,
    fun s m cs h hw hcs hav hd => ?_, fun s m cs h hw hcs hav hd => ?_,
    fun s m c clear h hw hc hclear hav => circuitChaffMap_answers h hw hc hclear hav, fun s m h hw hlen => ?_⟩
  · exact completes_csetReadout (o := execCircuitRxStatus m s) (ks := []) (k := 11) rfl rfl h hw hcs hav (fun _ _ => rfl) hd (fun _ => rfl) (by decide)
  · exact completes_csetReadout (o := execCircuitRxCounters m s) (k := 10) rfl rfl h hw hcs hav (fun _ _ => rfl) hd (fun _ => rfl) (by decide)
  · exact completes_csetReadout (o := execCircuitCaStatus m s) (k := 6) rfl rfl h hw hcs hav (fun _ _ => rfl) hd (fun _ => rfl) (by decide)
  · exact completes_csetReadout (o := execCircuitCdStatus m s) (k := 17) rfl rfl h hw hcs hav hfeed hd (fun _ => rfl) (by decide)
  · exact completes_csetReadout (o := execCircuitCodeCounters m s) (k := 2) rfl rfl h hw hcs hav (fun _ _ => rfl) hd (fun _ => rfl) (by decide)
  · exact completes_csetReadout (o := execCircuitTxStatus m s) (k := 8) rfl rfl h hw hcs hav (fun _ _ => rfl) hd (fun _ => rfl) (by decide)
  · exact completes_csetReadout (o := execCircuitMacCounters m s) (k := 5) rfl rfl h hw hcs hav (fun _ _ => rfl) hd (fun _ => rfl) (by decide)
  · exact completes_csetReadout (o := execEndpointLinkCounters m s) (k := 7) rfl rfl h hw hcs hav (fun _ _ => rfl) hd (fun _ => rfl) (by decide)
  · exact completes_readout (o := execCircuitRelayStatus m s) rfl rfl h (noWords_of_eq hw) rfl (by simp; omega)

end Sys2Proof.Machine
end

section
/-! SUPPORT. The settings of circuits: what a SETTINGS command leaves of the circuits of its CSET, of the ports that hold them and of the device
(R384, R389). -/
namespace Sys2Proof.Machine

/-- A SETTINGS command of a CSET makes one change on each of its circuits, and no other (R384). -/
theorem completes_csetConfig {i : Instr} {op m : Nat} {rows : List (Int × Int)} {s : State} {b : Mailbox} {ok : Nat → Bool × Nat × Nat}
    {f : (Nat → Option Int) → Circuit → Circuit} {cs : List Nat} {o : Result} (ho : exec i s = o) (hi : o = csetConfig op rows m s ok f)
    (h : Serves s m op 0) (hb : boxOf s m = b) (hw : 13 ≤ b.paramWords) (hcs : cs = circuitsOf b 0) (hav : ∀ c ∈ cs, circuitAvailable s c = true)
    (hok : ∀ c ∈ cs, (ok c).1 = true) (hrows : ChecksPass (settingsOk b 12 rows)) :
    Completes i s fun t =>
      Answers t m [] ∧ CircuitsChange cs (fun _ => f (settingOf b 12 rows.length)) s t ∧ DoneAlone m [.circ] s t := by
  have hnodup : cs.Nodup := hcs ▸ circuitsOf_nodup _ 0
  have hpass : ChecksPass (settingsOk b 12 rows ++ csetExists s b 0 :: cs.map ok) := by
    refine checksPass_append hrows fun c hc => ?_
    rcases List.mem_cons.1 hc with rfl | hc
    · exact csetExists_fst (hcs ▸ hav)
    · obtain ⟨x, hx, rfl⟩ := List.mem_map.1 hc
      exact hok x hx
  refine completes_served (e := cs.foldl (fun t c => modCirc c (f (settingOf b 12 rows.length)) t) s) (ws := []) ho hi h
    (decide_eq_true (hb ▸ hw)) ?_ (Nat.zero_le _) fun u hu => ⟨hu.answers, circuits_change hnodup (hu.same .circ (by decide)),
      hu.doneAlone (circ_foldl_sameBut (fun _ => f (settingOf b 12 rows.length)) _ s) (by decide) (by decide)⟩
  rw [hb]
  rw [hcs] at hpass ⊢
  exact checked_pass hpass

/-! The receive front's settings, whose rows are of circuits, of the device and of ports (R145). -/

theorem nodup_eraseDups {α : Type} [BEq α] [LawfulBEq α] : ∀ l : List α, l.eraseDups.Nodup
  | [] => List.nodup_nil
  | a :: l => by
    rw [List.eraseDups_cons, List.nodup_cons]
    exact ⟨by simp, nodup_eraseDups _⟩
  termination_by l => l.length
  decreasing_by exact Nat.lt_succ_of_le (List.length_filter_le _ _)

theorem portsHolding_nodup (cs : List Nat) : (portsHolding cs).Nodup := nodup_eraseDups _

/-- A setting of the ports of a list, where it was selected. -/
def portsSet (o : Option Int) (f : Int → Port → Port) (ps : List Nat) (t : State) : State :=
  match o with
  | some v => storePorts ps (fun _ x => f v x) t
  | none => t

theorem portsSet_sameBut (o : Option Int) (f : Int → Port → Port) (ps : List Nat) (t : State) : SameBut [.port, .keep] t (portsSet o f ps t) := by
  cases o with
  | none => exact sameBut_refl _ t
  | some v => exact storePorts_sameBut ps _ t

theorem portOf_portsSet (o : Option Int) (f : Int → Port → Port) {ps : List Nat} (t : State) (h : ps.Nodup) (p : Nat) :
    portOf (portsSet o f ps t) p = if p ∈ ps then pick o (fun v => f v (portOf t p)) (portOf t p) else portOf t p := by
  cases o with
  | none => simp [portsSet, pick]
  | some v => exact portOf_storePorts _ t h p

theorem storePorts_rest (ps : List Nat) (f : Nat → Port → Port) (s : State) : { (storePorts ps f s).port with port := s.port.port } = s.port := by
  have hrest : ∀ (t : State) (z : Tab Port), { (storePorts ps f t).port with port := z } = { t.port with port := z } := by
    induction ps with
    | nil => exact fun _ _ => rfl
    | cons q ps ih =>
      intro t z
      have hstep : (mpHold (portSettingWord q) 0x0117 (portSettings (f q (portOf t q))) (modPort q (f q) t)).port = (modPort q (f q) t).port :=
        mpHold_sameBut _ _ _ _ .port (by decide)
      refine (ih _ z).trans ?_
      rw [hstep]
      rfl
  exact hrest s s.port.port

theorem portsSet_rest (o : Option Int) (f : Int → Port → Port) (ps : List Nat) (t : State) :
    { (portsSet o f ps t).port with port := t.port.port } = t.port := by
  cases o with
  | none => rfl
  | some v => exact storePorts_rest ps _ t

/-- SELF_GUARD of the device, where it was selected, and its word queued (R145). -/
def selfGuardSet (o : Option Int) (t : State) : State :=
  match o with
  | some v => mpHold (settingWordOf 0x0230) 0x0230 [v] { t with circ := { t.circ with selfGuard := v.toNat } }
  | none => t

theorem selfGuardSet_sameBut (o : Option Int) (t : State) : SameBut [.circ, .keep] t (selfGuardSet o t) := by
  cases o with
  | none => exact sameBut_refl _ t
  | some v =>
    have hcirc (x : Circuits) : SameBut [.circ] t { t with circ := x } := by
      intro g hg; cases g <;> simp_all [Group.same]
    exact ((hcirc _).trans (mpHold_sameBut _ _ _ _)).mono (by simp)

theorem selfGuardSet_circ (o : Option Int) (t : State) :
    (selfGuardSet o t).circ = { t.circ with selfGuard := pick o Int.toNat t.circ.selfGuard } := by
  cases o with
  | none => rfl
  | some v => exact mpHold_sameBut _ _ _ _ .circ (by decide)

/-- A circuit with the receive-front settings that were selected, and the circuits of a set so set (R145). -/
def rxWanted (b : Mailbox) (x : Circuit) : Circuit := { x with want := rxSettings (settingOf b 12 11) x.want }
def rxCircuits (b : Mailbox) (cs : List Nat) (s : State) : State := cs.foldl (fun t c => modCirc c (rxWanted b) t) s

theorem rxCircuits_sameBut (b : Mailbox) (cs : List Nat) (s : State) : SameBut [.circ] s (rxCircuits b cs s) :=
  circ_foldl_sameBut (fun _ => rxWanted b) cs s

theorem rxCircuits_rest (b : Mailbox) (cs : List Nat) (s : State) : { (rxCircuits b cs s).circ with circuit := s.circ.circuit } = s.circ :=
  circ_foldl_rest (fun _ => rxWanted b) cs s

theorem rxCircuits_selfGuard (b : Mailbox) (cs : List Nat) (s : State) : (rxCircuits b cs s).circ.selfGuard = s.circ.selfGuard := by
  have h := congrArg Circuits.selfGuard (rxCircuits_rest b cs s)
  exact h

/-- All that `circuit.rx_config` leaves (R145). -/
def rxConfigEffect (b : Mailbox) (cs : List Nat) (s : State) : State :=
  portsSet (settingOf b 12 11 10) (fun v x => { x with rxFs := v.toNat }) (portsHolding cs)
    (selfGuardSet (settingOf b 12 11 9) (rxCircuits b cs s))

theorem rxConfigEffect_circ (b : Mailbox) (cs : List Nat) (s : State) : (rxConfigEffect b cs s).circ =
    { (rxCircuits b cs s).circ with
      selfGuard := pick (settingOf b 12 11 9) Int.toNat s.circ.selfGuard } := by
  refine (portsSet_sameBut _ _ _ _ .circ (by decide)).trans ((selfGuardSet_circ _ _).trans ?_)
  rw [rxCircuits_selfGuard]

theorem rxConfigEffect_port (b : Mailbox) (cs : List Nat) (s : State) :
    (selfGuardSet (settingOf b 12 11 9) (rxCircuits b cs s)).port
      = s.port :=
  (selfGuardSet_sameBut _ _ .port (by decide)).trans (rxCircuits_sameBut b cs s .port (by decide))

theorem rxConfigEffect_sameBut (b : Mailbox) (cs : List Nat) (s : State) : SameBut [.circ, .port, .keep] s (rxConfigEffect b cs s) :=
  (((rxCircuits_sameBut b cs s).trans (selfGuardSet_sameBut _ _)).trans (portsSet_sameBut _ _ _ _)).mono (by simp)

/-- A port setting whose words are not worn may be stored where it was selected. -/
theorem settable {o : Option Int} {s : State} {ps : List Nat} (h : o.isSome = true → ∀ p ∈ ps, worn s (portSettingWord p) = false) :
    (o.isNone || writable s (ps.map portSettingWord)) = true := by
  cases o with
  | none => rfl
  | some v => simpa [writable] using h rfl

theorem circuitRxConfig_sets {s : State} {m : Nat} {b : Mailbox} {cs : List Nat} (h : Serves s m 0x0230 0) (hb : boxOf s m = b) (hw : 13 ≤ b.paramWords)
    (hcs : cs = circuitsOf b 0) (hav : ∀ c ∈ cs, circuitAvailable s c = true)
    (hrows : ChecksPass (settingsOk b 12 [(-48, -24), (1, 6), (8, 32), (0, 8), (0, 3), (6, 30), (30, 80), (20, 80), (3, 12), (0, 20), (360, 560)]))
    (hguard : (settingOf b 12 11 9).isSome = true → worn s (settingWordOf 0x0230) = false)
    (hlevel : (settingOf b 12 11 10).isSome = true → ∀ p ∈ portsHolding cs, worn s (portSettingWord p) = false) :
    Completes (.circuitRxConfig m) s fun t => Answers t m []
      ∧ (∀ c, circOf t c = if c ∈ cs then rxWanted b (circOf s c) else circOf s c)
      ∧ { t.circ with circuit := s.circ.circuit } = { s.circ with selfGuard := pick (settingOf b 12 11 9) Int.toNat s.circ.selfGuard }
      ∧ (∀ p, portOf t p = if p ∈ portsHolding cs then { portOf s p with rxFs := pick (settingOf b 12 11 10) Int.toNat (portOf s p).rxFs } else portOf s p)
      ∧ { t.port with port := s.port.port } = s.port ∧ DoneAlone m [.circ, .port, .keep] s t := by
  have hnodup : cs.Nodup := hcs ▸ circuitsOf_nodup _ 0
  have hguarded : ((settingOf b 12 11 9).isNone || !worn s (settingWordOf 0x0230)) = true := by
    cases hset : settingOf b 12 11 9 with
    | none => rfl
    | some v => simp [hguard (by simp [hset])]
  refine completes_served (o := execCircuitRxConfig m s) (e := rxConfigEffect b cs s) (ws := []) rfl rfl h (decide_eq_true (hb ▸ hw)) ?_
    (Nat.zero_le _) fun u hu => ?_
  · rw [hb]
    refine (checked_pass (checksPass_append hrows ?_)).trans ?_
    · intro c hc
      simp only [List.mem_cons, List.not_mem_nil, or_false] at hc
      rcases hc with rfl | rfl
      · exact csetExists_fst (hcs ▸ hav)
      · rw [← hcs]
        simp only [hguarded, settable hlevel, Bool.and_true]
    · rw [← hcs]
      rfl
  · have hcirc := (hu.same .circ (by decide)).trans (rxConfigEffect_circ b cs s)
    have hport := hu.same .port (by decide)
    have hbefore := rxConfigEffect_port b cs s
    refine ⟨hu.answers, fun c => ?_, ?_, fun p => ?_, ?_, hu.doneAlone (rxConfigEffect_sameBut b cs s) (by decide) (by decide)⟩
    · refine Eq.trans ?_ (circOf_foldl (fun _ => rxWanted b) cs s hnodup c)
      unfold circOf
      rw [hcirc]
      rfl
    · rw [hcirc]
      exact congrArg (fun x : Circuits => { x with selfGuard := pick (settingOf b 12 11 9) Int.toNat s.circ.selfGuard })
        (rxCircuits_rest b cs s)
    · rw [portOf_congr hport]
      refine (portOf_portsSet _ _ _ (portsHolding_nodup cs) p).trans ?_
      rw [portOf_congr hbefore]
      cases settingOf b 12 11 10 <;> rfl
    · rw [hport, ← hbefore]
      exact portsSet_rest _ _ _ _

/-- What `circuit.agc` makes of a circuit (R128, R146). -/
def agcSet (mode step : Nat) (x : Circuit) : Circuit :=
  if mode = 1 then command step false { x with agc := .fixed, inBand := 0 }
  else if x.agc = .fixed then { x with agc := .acquire, inBand := 0 }
  else x

theorem circuitAgc_sets {s : State} {m mode step : Nat} {cs : List Nat} (h : Serves s m 0x0233 0) (hw : (boxOf s m).paramWords = 14)
    (hcs : cs = circuitsOf (boxOf s m) 0) (hmode : prmN (boxOf s m) 12 = mode ∧ mode ≤ 1) (hstep : prmN (boxOf s m) 13 = step ∧ step ≤ 47)
    (hav : ∀ c ∈ cs, circuitAvailable s c = true) :
    Completes (.circuitAgc m) s fun t => Answers t m []
      ∧ CircuitsChange cs (fun _ => agcSet mode step) s t
      ∧ DoneAlone m [.circ] s t := by
  obtain ⟨rfl, hmode⟩ := hmode
  obtain ⟨rfl, hstep⟩ := hstep
  have hnodup : cs.Nodup := hcs ▸ circuitsOf_nodup _ 0
  refine completes_served (o := execCircuitAgc m s) (e := cs.foldl (fun t c => modCirc c (agcSet (prmN (boxOf s m) 12) (prmN (boxOf s m) 13)) t) s) (ws := []) rfl rfl h (exactly_of_eq hw) ?_
    (Nat.zero_le _) fun u hu => ⟨hu.answers, circuits_change hnodup (hu.same .circ (by decide)),
      hu.doneAlone (circ_foldl_sameBut (fun _ => agcSet (prmN (boxOf s m) 12) (prmN (boxOf s m) 13)) _ s) (by decide) (by decide)⟩
  refine (checked_pass ?_).trans (by rw [← hcs]; rfl)
  intro c hc
  simp only [List.mem_cons, List.not_mem_nil, or_false] at hc
  rcases hc with rfl | rfl | rfl
  · exact inRange_fst.2 ⟨Nat.zero_le _, hmode⟩
  · exact inRange_fst.2 ⟨Nat.zero_le _, hstep⟩
  · exact csetExists_fst (hcs ▸ hav)

theorem circuitCdRetrain_answers {s : State} {m full : Nat} {cs : List Nat} (h : Serves s m 0x0239 0) (hw : (boxOf s m).paramWords = 13)
    (hcs : cs = circuitsOf (boxOf s m) 0) (hfull : prmN (boxOf s m) 12 = full ∧ full ≤ 1)
    (hav : ∀ c ∈ cs, circuitAvailable s c = true ∧ isFeed s c = true) :
    Completes (.circuitCdRetrain m) s fun t => Answers t m [] ∧ Leaves s (cs.foldl (fun t c => retrainLink (full == 1) c t) s) t := by
  obtain ⟨rfl, hfull⟩ := hfull
  refine completes_served (o := execCircuitCdRetrain m s) (e := cs.foldl (fun t c => retrainLink (prmN (boxOf s m) 12 == 1) c t) s) (ws := [])
    rfl rfl h (exactly_of_eq hw) ?_ (Nat.zero_le _) fun u hu => ⟨hu.answers, hu.leaves⟩
  refine (checked_pass ?_).trans (by rw [hcs])
  intro c hc
  simp only [List.mem_cons, List.mem_map] at hc
  rcases hc with rfl | rfl | ⟨x, hx, rfl⟩
  · exact inRange_fst.2 ⟨Nat.zero_le _, hfull⟩
  · exact csetExists_fst (hcs ▸ fun c hc => (hav c hc).1)
  · exact (hav x (hcs ▸ hx)).2

/-- Settles O12: four commands are SETTINGS of circuits alone; the receive front's has rows of the device and of ports too. -/
theorem circuitSettings : Obligations.CircuitSettings := by
  refine ⟨fun s m b cs h hb hw hcs hav hrows => ?_, fun s m b cs h hb hw hcs hav hfeed hrows => ?_, fun s m b cs h hb hw hcs hav hrows => ?_,
    fun s m b cs h hb hw hcs hav hrows => ?_,
    fun s m b cs h hb hw hcs hav hrows hguard hlevel => circuitRxConfig_sets h hb hw hcs hav hrows hguard hlevel,
    fun s m mode step cs h hw hcs hmode hstep hav => circuitAgc_sets h hw hcs hmode hstep hav,
    fun s m full cs h hw hcs hfull hav => circuitCdRetrain_answers h hw hcs hfull hav⟩
  · exact completes_csetConfig (o := execCircuitCaConfig m s) rfl rfl h hb hw hcs hav (fun _ _ => rfl) hrows
  · exact completes_csetConfig (o := execCircuitCdConfig m s) rfl rfl h hb hw hcs hav hfeed hrows
  · exact completes_csetConfig (o := execCircuitChaffConfig m s) rfl rfl h hb hw hcs hav (fun _ _ => rfl) hrows
  · exact completes_csetConfig (o := execCircuitBeaconConfig m s) rfl rfl h hb hw hcs hav (fun _ _ => rfl) hrows

end Sys2Proof.Machine
end

section
/-! SUPPORT. Densities, filters and notches of a circuit, relays between circuits and the crosstalk survey (R117, R190, R215, R252, R253, R255). -/
namespace Sys2Proof.Machine

/-- All that `circuit.tx_config` leaves (R252, R253). -/
def txConfigEffect (b : Mailbox) (cs : List Nat) (s : State) : State :=
  portsSet (settingOf b 12 4 3) (fun v x => { x with txFs := v.toNat }) (portsHolding cs)
    (cs.foldl (fun t c => modCirc c (withPsd (settingOf b 12 4)) t) s)

theorem txConfigEffect_sameBut (b : Mailbox) (cs : List Nat) (s : State) : SameBut [.circ, .port, .keep] s (txConfigEffect b cs s) :=
  ((circ_foldl_sameBut (fun _ => withPsd (settingOf b 12 4)) cs s).trans (portsSet_sameBut _ _ _ _)).mono (by simp)

theorem circuitTxConfig_sets {s : State} {m : Nat} {b : Mailbox} {cs others : List Nat} {fs : Nat → Nat} (h : Serves s m 0x023D 0) (hb : boxOf s m = b)
    (hw : 13 ≤ b.paramWords) (hcs : cs = circuitsOf b 0) (hav : ∀ c ∈ cs, circuitAvailable s c = true)
    (hrows : ChecksPass (settingsOk b 12 [(-180, -110), (-180, -110), (-180, -110), (0, 160)]))
    (hcaps : ∀ k ∈ [0, 1, 2], (settingOf b 12 4 k).isSome = true → ∀ c ∈ cs,
      (capsKept s c (wantedPsd (withPsd (settingOf b 12 4) (circOf s c))) (wantedFilters (circOf s c))).getD k true = true)
    (hfs : fs = fun c => pick (settingOf b 12 4 3) Int.toNat (portOf s (c / 24)).txFs)
    (hlevel : ∀ c ∈ cs, levelKept s c (fs c) (wantedPsd (withPsd (settingOf b 12 4) (circOf s c)))
      (wantedFilters (withPsd (settingOf b 12 4) (circOf s c))) = true)
    (hothers : others = (if (settingOf b 12 4 3).isSome then (activeCircuits s).filter (fun c => (portsHolding cs).contains (c / 24) && !cs.contains c) else []))
    (hlevels : ∀ c ∈ others, levelKept s c (fs c) (wantedPsd (circOf s c)) (wantedFilters (circOf s c)) = true)
    (hworn : (settingOf b 12 4 3).isSome = true → ∀ p ∈ portsHolding cs, worn s (portSettingWord p) = false) :
    Completes (.circuitTxConfig m) s fun t =>
      Answers t m [] ∧ CircuitsChange cs (fun _ => withPsd (settingOf b 12 4)) s t
      ∧ (∀ p, portOf t p = if p ∈ portsHolding cs then { portOf s p with txFs := pick (settingOf b 12 4 3) Int.toNat (portOf s p).txFs } else portOf s p)
      ∧ { t.port with port := s.port.port } = s.port ∧ DoneAlone m [.circ, .port, .keep] s t := by
  subst hfs
  have hnodup : cs.Nodup := hcs ▸ circuitsOf_nodup _ 0
  refine completes_served (o := execCircuitTxConfig m s) (e := txConfigEffect b cs s) (ws := []) rfl rfl h (decide_eq_true (hb ▸ hw)) ?_
    (Nat.zero_le _) fun u hu => ?_
  · rw [hb, ← hcs]
    refine (checked_pass (checksPass_append (checksPass_append hrows fun c hc => ?_) fun c hc => ?_)).trans rfl <;>
      simp only [List.mem_cons, List.mem_map, List.mem_range, List.not_mem_nil, or_false] at hc
    · rcases hc with rfl | ⟨k, hk, rfl⟩
      · exact csetExists_fst (hcs ▸ hav)
      · cases hset : settingOf b 12 4 k with
        | none => rfl
        | some v => simpa using hcaps k (by simp; omega) (by simp [hset])
    rcases hc with rfl | rfl
    · rw [← hothers]
      simp only [List.all_append, List.all_map, Function.comp_def, Bool.and_eq_true, List.all_eq_true]
      exact ⟨hlevel, hlevels⟩
    · exact settable hworn
  · have hport := hu.same .port (by decide)
    have hbefore := circ_foldl_sameBut (fun _ => withPsd (settingOf b 12 4)) cs s .port (by decide)
    refine ⟨hu.answers, circuits_change hnodup ((hu.same .circ (by decide)).trans (portsSet_sameBut _ _ _ _ .circ (by decide))), fun p => ?_, ?_,
      hu.doneAlone (txConfigEffect_sameBut b cs s) (by decide) (by decide)⟩
    · rw [portOf_congr hport]
      refine (portOf_portsSet _ _ _ (portsHolding_nodup cs) p).trans ?_
      rw [portOf_congr hbefore]
      cases settingOf b 12 4 3 <;> rfl
    · refine Eq.trans ?_ hbefore
      rw [hport, ← hbefore]
      exact portsSet_rest _ _ _ _

/-- One circuit written alone: it reads as written, and no other circuit changes. -/
theorem completes_circuitSet {i : Instr} {op owner m c : Nat} {words : Nat → Bool} {s : State} {x : Circuit} {ws : List Word} {body : Mailbox → Reply}
    {o : Result} (ho : exec i s = o) (hi : o = mailboxCommand op owner words m s body) (h : Serves s m op owner)
    (hw : words (boxOf s m).paramWords = true) (hb : body (boxOf s m) = okay ws (setCirc c x s)) (hl : ws.length ≤ 120) :
    Completes i s fun t =>
      Answers t m ws ∧ circOf t c = x ∧ (∀ j, j ≠ c → circOf t j = circOf s j) ∧ DoneAlone m [.circ] s t :=
  completes_served ho hi h hw hb hl fun u hu => by
    have hcirc := hu.same .circ (by decide)
    exact ⟨hu.answers, (circOf_congr hcirc c).trans (circOf_setCirc c x s), fun j hj => (circOf_congr hcirc j).trans (circOf_setCirc_ne c j x s hj),
      hu.doneAlone (setCirc_sameBut c x s) (by decide) (by decide)⟩

theorem circuitTxFilter_sets {s : State} {m c k : Nat} {b : Mailbox} {f : Filter} {fs : List Filter} (h : Serves s m 0x023E 0) (hb : boxOf s m = b)
    (hw : b.paramWords = 8) (hc : prmN b 0 = c ∧ c ≤ 767) (hk : prmN b 1 = k ∧ k ≤ 2) (hoff : prmN b 2 ≤ 1 ∧ fieldOf (prm b 7) 47 0 = 0)
    (hav : circuitAvailable s c = true) (hf : f = (if prmN b 2 = 1 then none else some (filterTaps b))) (hfs : fs = (wantedFilters (circOf s c)).set k f)
    (hkept : (capsKept s c (wantedPsd (circOf s c)) fs).getD k true = true
      ∧ levelKept s c (portOf s (c / 24)).txFs (wantedPsd (circOf s c)) fs = true) :
    Completes (.circuitTxFilter m) s fun t =>
      Answers t m [] ∧ circOf t c = { circOf s c with filtersDue := some (fs.getD 0 none, fs.getD 1 none, fs.getD 2 none) }
      ∧ (∀ j, j ≠ c → circOf t j = circOf s j) ∧ DoneAlone m [.circ] s t := by
  obtain ⟨rfl, hc⟩ := hc
  obtain ⟨rfl, hk⟩ := hk
  obtain ⟨hoff, hzero⟩ := hoff
  obtain ⟨hcaps, hlevel⟩ := hkept
  subst hfs hf
  refine completes_circuitSet (o := execCircuitTxFilter m s) (ws := []) rfl rfl h (exactly_of_eq (hb ▸ hw)) ?_ (Nat.zero_le _)
  rw [hb]
  refine checked_pass ?_
  intro c hc'
  simp only [List.mem_cons, List.not_mem_nil, or_false] at hc'
  rcases hc' with rfl | rfl | rfl | rfl | rfl | rfl
  · exact inRange_fst.2 ⟨Nat.zero_le _, hc⟩
  · exact inRange_fst.2 ⟨Nat.zero_le _, hk⟩
  · exact inRange_fst.2 ⟨Nat.zero_le _, hoff⟩
  · simp [hzero]
  · exact hav
  · simp only [hcaps, hlevel, Bool.and_self]

theorem circuitNotch_sets {s : State} {m c act : Nat} {b : Mailbox} {n : Notch} {new : List Notch} (h : Serves s m 0x023F 0) (hb : boxOf s m = b)
    (hw : b.paramWords = 4) (hc : prmN b 0 = c ∧ c ≤ 767) (hact : prmN b 1 = act ∧ 1 ≤ act ∧ act ≤ 2) (hn : n = { lo := prmN b 2, width := prmN b 3 })
    (hrange : 160 ≤ n.lo ∧ 5 ≤ n.width ∧ n.width ≤ 400 ∧ n.lo + n.width ≤ 10000) (hav : circuitAvailable s c = true)
    (hnew : new = (if act = 2 then (wantedNotches (circOf s c)).filter (· != n) else if (wantedNotches (circOf s c)).contains n then wantedNotches (circOf s c) else wantedNotches (circOf s c) ++ [n]))
    (hsections : sectionsOf s.circ.profile new ≤ 24) :
    Completes (.circuitNotch m) s fun t =>
      Answers t m [BitVec.ofNat 64 (sectionsOf s.circ.profile new)]
      ∧ circOf t c = { circOf s c with notchesDue := if new = (circOf s c).notches then none else some new }
      ∧ (∀ j, j ≠ c → circOf t j = circOf s j) ∧ DoneAlone m [.circ] s t := by
  obtain ⟨rfl, hc⟩ := hc
  obtain ⟨rfl, hact1, hact2⟩ := hact
  obtain ⟨hlo, hw5, hw400, htop⟩ := hrange
  subst hn
  dsimp only at hlo hw5 hw400 htop
  refine completes_circuitSet (o := execCircuitNotch m s) (ws := [_]) rfl rfl h (exactly_of_eq (hb ▸ hw)) ?_ (by simp)
  rw [hb]
  dsimp only
  rw [← hnew]
  refine checked_pass ?_
  intro c hc'
  simp only [List.mem_cons, List.not_mem_nil, or_false] at hc'
  rcases hc' with rfl | rfl | rfl | rfl | rfl | rfl | rfl
  · exact inRange_fst.2 ⟨Nat.zero_le _, hc⟩
  · exact inRange_fst.2 ⟨hact1, hact2⟩
  · exact inRange_fst.2 ⟨hlo, by omega⟩
  · exact inRange_fst.2 ⟨hw5, hw400⟩
  · exact decide_eq_true htop
  · exact hav
  · exact decide_eq_true hsections

theorem circuitRelay_sets {s : State} {m a d act : Nat} (h : Serves s m 0x0240 0) (hw : (boxOf s m).paramWords = 3)
    (ha : prmN (boxOf s m) 0 = a ∧ a ≤ 767) (hd : prmN (boxOf s m) 1 = d ∧ d ≤ 767) (hact : prmN (boxOf s m) 2 = act)
    (hok : (act = 1 ∧ circuitAvailable s a = true ∧ circuitAvailable s d = true ∧ isFeed s a = false ∧ isFeed s d = false
        ∧ s.port.relays.length < 16 ∧ relayTo s d = none)
      ∨ (act = 2 ∧ circuitAvailable s a = true ∧ circuitAvailable s d = true ∧ (a, d) ∈ s.port.relays)) :
    Completes (.circuitRelay m) s fun t =>
      Answers t m []
      ∧ t.port = { s.port with relays := if act = 1 then s.port.relays ++ [(a, d)] else s.port.relays.filter (· != (a, d)) }
      ∧ DoneAlone m [.port] s t := by
  obtain ⟨rfl, ha⟩ := ha
  obtain ⟨rfl, hd⟩ := hd
  have hport (x : Ports) : SameBut [.port] s { s with port := x } := by
    intro g hg; cases g <;> simp_all [Group.same]
  subst hact
  refine completes_served (o := execCircuitRelay m s) (ws := []) rfl rfl h (exactly_of_eq hw) (checked_pass ?_) (Nat.zero_le _)
    fun u hu => ⟨hu.answers, hu.same .port (by decide), hu.doneAlone (hport _) (by decide) (by decide)⟩
  intro c hc'
  simp only [List.mem_cons, List.not_mem_nil, or_false] at hc'
  rcases hok with ⟨hadd, hva, hvd, hfa, hfd, hroom, hfree⟩ | ⟨hremove, hva, hvd, hthere⟩
  · rcases hc' with rfl | rfl | rfl | rfl | rfl | rfl <;> simp [inRange, *]
  · rcases hc' with rfl | rfl | rfl | rfl | rfl | rfl <;> simp [inRange, *]

theorem circuitXtSurvey_begins {s : State} {m g : Nat} (h : Serves s m 0x0236 0) (hw : (boxOf s m).paramWords = 1)
    (hg : prmN (boxOf s m) 0 = g ∧ g ≤ 15) (hvariant : isH s = true → g < 8) (hd : domOn s 28 = true)
    (hseats : ((seatsOf s.plan.active).any fun w => placeActive w / 16 == g) = true) :
    Completes (.circuitXtSurvey m) s fun t => ∃ near, Answers t m [BitVec.ofNat 64 near]
      ∧ t.mb.background = s.mb.background ++ [.xtSurvey g near s.sf.number] ∧ SameBut [.clk, .mb, .irq, .out] s t := by
  obtain ⟨rfl, hg⟩ := hg
  have hgroup : (!(isH s && decide (8 ≤ prmN (boxOf s m) 0))) = true := by
    cases hh : isH s with
    | false => rfl
    | true => simpa using hvariant hh
  refine completes_served (o := execCircuitXtSurvey m s) rfl rfl h (exactly_of_eq hw) (checked_pass ?_) (by simp) fun u hu =>
    ⟨_, hu.answers, hu.background, (hu.sameBut ((drawFree_sameBut s).trans (addBackground_sameBut _ _))).mono (by simp)⟩
  intro c hc
  simp only [List.mem_cons, List.not_mem_nil, or_false] at hc
  rcases hc with rfl | rfl | rfl | rfl
  · exact inRange_fst.2 ⟨Nat.zero_le _, hg⟩
  · exact hgroup
  · exact hd
  · exact hseats

/-- Settles O13: each clause is what one command leaves where its checks pass. -/
theorem circuitShapingAndRelays : Obligations.CircuitShapingAndRelays :=
  ⟨fun _ _ _ _ _ _ h hb hw hcs hav hrows hcaps hfs hlevel hothers hlevels hworn =>
      circuitTxConfig_sets h hb hw hcs hav hrows hcaps hfs hlevel hothers hlevels hworn,
    fun _ _ _ _ _ _ _ h hb hw hc hk hoff hav hf hfs hkept => circuitTxFilter_sets h hb hw hc hk hoff hav hf hfs hkept,
    fun _ _ _ _ _ _ _ h hb hw hc hact hn hrange hav hnew hsections => circuitNotch_sets h hb hw hc hact hn hrange hav hnew hsections,
    fun _ _ _ _ _ h hw ha hd hact hok => circuitRelay_sets h hw ha hd hact hok,
    fun _ _ _ h hw hg hvariant hd hseats => circuitXtSurvey_begins h hw hg hvariant hd hseats⟩

end Sys2Proof.Machine
end

section
/-! SUPPORT. The commands of the endpoints: a record that an EP word names, reports in the near store, and what each command leaves of the records and
of the link settings (R289, R303, R313, R316, R392). -/
namespace Sys2Proof.Machine

/-! A report in the near store (R385, R424). -/

/-- The state with a report's words at the offset that the firmware picks. -/
def reportPlaced (m : Nat) (ws : List Word) (s : State) : State := (nearResult m ws s).2

theorem reportPlaced_sameBut (m : Nat) (ws : List Word) (s : State) : SameBut [.clk, .mem, .mb] s (reportPlaced m ws s) := by
  intro g hg; cases g <;> simp_all [Group.same, reportPlaced, nearResult, drawFree]

/-- A served command that leaves a report in the near store answers the offset, where the words then lie. -/
theorem completes_reported {gs : List Group} {i : Instr} {op owner m : Nat} {words : Nat → Bool} {s e : State} {ws : List Word} {body : Mailbox → Reply}
    {P : State → Prop} {o : Result} (ho : exec i s = o) (hi : o = mailboxCommand op owner words m s body) (h : Serves s m op owner)
    (hw : words (boxOf s m).paramWords = true) (hb : body (boxOf s m) = nearReport m ws e) (he : SameBut gs s e) (hmem : Group.mem ∉ gs)
    (hp : ∀ u off, Answers u m [BitVec.ofNat 64 off] → u.mem = { s.mem with near := memWriteWords s.mem.near off ws } →
      SameBut [.clk, .mem, .mb, .irq, .out, .pending] e u → SameBut (.clk :: .mem :: .mb :: .irq :: .out :: gs) s u → P u) :
    Completes i s P := by
  refine completes_served ho hi h hw (e := reportPlaced m ws e) (ws := [_]) (hb.trans rfl) (by simp) fun u hu =>
    hp u _ hu.answers ((hu.same .mem (by decide)).trans ?_) (((reportPlaced_sameBut m ws e).trans hu.same).mono (by simp))
      ((hu.sameBut (he.trans (reportPlaced_sameBut m ws e))).mono (by simp; tauto))
  rw [← he .mem hmem]
  rfl

/-! Records. -/

theorem insertRecord_length (r : Record) (l : List Record) : (insertRecord r l).length = l.length + 1 := by
  induction l with
  | nil => rfl
  | cons x xs ih =>
    unfold insertRecord
    split
    · rfl
    · exact congrArg (· + 1) ih

theorem circuitRecords_length (s : State) (c : Nat) : (circuitRecords s c).length ≤ s.link.records.length := by
  have hsorted : ∀ l : List Record, (l.foldr insertRecord []).length = l.length := by
    intro l
    induction l with
    | nil => rfl
    | cons r rs ih => exact (insertRecord_length r _).trans (congrArg (· + 1) ih)
  exact (hsorted _).trans_le (List.length_filter_le _ _)

/-- The EP word names a record of a circuit that is available (R384, R392). -/
theorem epChecks_pass {s : State} {b : Mailbox} {i : Nat} {w : Word} {r : Record} (hp : prm b i = w)
    (hw : w.toNat < 2 ^ 22 ∧ epCircuit w < 768 ∧ circuitAvailable s (epCircuit w) = true) (hr : namedRecord s w = some r) :
    ChecksPass (epChecks s b i) := by
  subst hp
  obtain ⟨hcoded, hcircuit, havail⟩ := hw
  intro c hc
  simp only [epChecks, List.mem_cons, List.not_mem_nil, or_false] at hc
  rcases hc with rfl | rfl | rfl | rfl
  · exact decide_eq_true hcoded
  · exact decide_eq_true hcircuit
  · exact havail
  · simp [hr]

theorem endpointList_delivers {s : State} {m c i : Nat} (h : Serves s m 0x0401 0) (hw : (boxOf s m).paramWords = 2)
    (hc : prmN (boxOf s m) 0 = c ∧ c ≤ 767 ∧ circuitAvailable s c = true) (hi : prmN (boxOf s m) 1 = i ∧ i ≤ 16383) (hd : domOn s 28 = true)
    (hcount : s.link.records.length ≤ 16384) :
    Completes (.endpointList m) s fun t =>
      Delivers s t m (((circuitRecords s c).drop i).flatMap (listWords s)) ∧ SameBut [.clk, .mem, .mb, .irq, .out] s t := by
  obtain ⟨rfl, hc, havail⟩ := hc
  obtain ⟨rfl, hi⟩ := hi
  refine completes_delivered (o := execEndpointList m s) rfl rfl h (exactly_of_eq hw) (checked_pass ?_) (.inr hd) ?_ (sameBut_refl [] s)
    (by decide) (by decide) fun u hu hframe _ => ⟨hu, hframe⟩
  · simp [inRange, scalarIs, hc, hi, havail]
  · rw [length_flatMap_const _ 6 _ fun _ => rfl, List.length_drop]
    have := circuitRecords_length s (prmN (boxOf s m) 0)
    omega

theorem endpointStatus_answers {s : State} {m : Nat} {w : Word} {r : Record} (h : Serves s m 0x0402 0) (hw : (boxOf s m).paramWords = 1)
    (hp : prm (boxOf s m) 0 = w) (hcoded : w.toNat < 2 ^ 22 ∧ epCircuit w < 768 ∧ circuitAvailable s (epCircuit w) = true)
    (hr : namedRecord s w = some r) : Completes (.endpointStatus m) s fun t => Answers t m (recordWords s r) ∧ DoneAlone m [] s t := by
  refine completes_readout (o := execEndpointStatus m s) rfl rfl h (exactly_of_eq hw) ((checked_pass (epChecks_pass hp hcoded hr)).trans ?_)
    (by simp [recordWords, epIdWords])
  rw [hp, hr]

theorem endpointEvict_marks {s : State} {m : Nat} {w : Word} {r : Record} (h : Serves s m 0x0403 0) (hw : (boxOf s m).paramWords = 1)
    (hp : prm (boxOf s m) 0 = w) (hcoded : w.toNat < 2 ^ 22 ∧ epCircuit w < 768 ∧ circuitAvailable s (epCircuit w) = true)
    (hr : namedRecord s w = some r) :
    Completes (.endpointEvict m) s fun t => Answers t m [] ∧ Leaves s (evict r s) t
      ∧ (r.state ≠ .active → t.link = { s.link with records := s.link.records.map fun x => if x.epId = r.epId then { x with leaving := true } else x }) := by
  refine completes_served (o := execEndpointEvict m s) (e := evict r s) (ws := []) rfl rfl h (exactly_of_eq hw)
    ((checked_pass (epChecks_pass hp hcoded hr)).trans (by rw [hp, hr])) (Nat.zero_le _) fun u hu => ⟨hu.answers, hu.leaves, fun hst => ?_⟩
  rw [hu.same .link (by decide), evict, if_neg hst]
  rfl

theorem endpointReaddress_starts {s : State} {m : Nat} {w : Word} {r : Record} (h : Serves s m 0x0404 0) (hw : (boxOf s m).paramWords = 1)
    (hp : prm (boxOf s m) 0 = w) (hcoded : w.toNat < 2 ^ 22 ∧ epCircuit w < 768 ∧ circuitAvailable s (epCircuit w) = true)
    (hr : namedRecord s w = some r) (hst : r.state = .active) :
    Completes (.endpointReaddress m) s fun t => Answers t m [] ∧ Leaves s (startReaddress r.epId s) t := by
  refine completes_served (o := execEndpointReaddress m s) (e := startReaddress r.epId s) (ws := []) rfl rfl h (exactly_of_eq hw)
    ((checked_pass (epChecks_pass hp hcoded hr)).trans ?_) (Nat.zero_le _) fun u hu => ⟨hu.answers, hu.leaves⟩
  rw [hp, hr]
  exact if_pos hst

/-! Repeaters (R313). -/

theorem mem_prms {b : Mailbox} {i n : Nat} {v : Word} : v ∈ prms b i n ↔ ∃ j, j < n ∧ prm b (i + j) = v := by
  simp [prms]

/-- The checks of `endpoint.set_repeater` on the words that its parameters hold, but for those of its far endpoints' records. -/
theorem repeaterChecks_pass {s : State} {b : Mailbox} {n lo least : Nat} {w : Word} {r : Record} (hw : b.paramWords = 4 + n) (hn : least ≤ n ∧ n ≤ 8)
    (hp : prm b 0 = w) (hact : 1 ≤ prmN b 1 ∧ prmN b 1 ≤ 2) (hslot : lo ≤ prmN b 2 ∧ prmN b 2 < nFixOf s.sf.mainsNom) (hcount : prmN b 3 = n)
    (hcoded : w.toNat < 2 ^ 22 ∧ epCircuit w < 768 ∧ circuitAvailable s (epCircuit w) = true) (hr : namedRecord s w = some r)
    (hfar : ∀ v ∈ prms b 4 n, v.toNat < 2 ^ 22 ∧ circuitAvailable s (epCircuit v) = true) :
    ChecksPass ([epOk b 0, inRange b 1 1 2, inRange b 2 lo (nFixOf s.sf.mainsNom - 1), inRange b 3 least 8, countIs b (4 + n)]
      ++ ((List.range n).map fun i => epOk b (4 + i)) ++ epChecks s b 0
      ++ [((prms b 4 n).all fun v => circuitAvailable s (epCircuit v), stResource, 0)]) := by
  subst hp
  refine checksPass_append (checksPass_append (checksPass_append ?_ ?_) (epChecks_pass rfl hcoded hr)) (checksPass_one ?_)
  · intro c hc
    simp only [List.mem_cons, List.not_mem_nil, or_false] at hc
    rcases hc with rfl | rfl | rfl | rfl | rfl
    · exact decide_eq_true hcoded.1
    · exact inRange_fst.2 hact
    · exact inRange_fst.2 ⟨hslot.1, by omega⟩
    · exact inRange_fst.2 ⟨by omega, by omega⟩
    · simp [countIs, hw]
  · intro c hc
    obtain ⟨i, hi, rfl⟩ := List.mem_map.1 hc
    exact decide_eq_true (hfar _ (mem_prms.2 ⟨i, List.mem_range.1 hi, rfl⟩)).1
  · exact List.all_eq_true.2 fun v hv => (hfar v hv).2

theorem endpointSetRepeater_ends {s : State} {m n : Nat} {b : Mailbox} {w : Word} {r : Record} (h : Serves s m 0x0405 0) (hb : boxOf s m = b)
    (hw : b.paramWords = 4 + n ∧ prmN b 3 = n ∧ n ≤ 8) (hp : prm b 0 = w) (hact : prmN b 1 = 2 ∧ prmN b 2 < nFixOf s.sf.mainsNom)
    (hcoded : ∀ i, i ≤ n → ∀ v, v = (if i = 0 then w else prm b (3 + i)) →
      v.toNat < 2 ^ 22 ∧ epCircuit v < 768 ∧ circuitAvailable s (epCircuit v) = true)
    (hr : namedRecord s w = some r) (hfeed : isFeed s r.circuit = false) :
    Completes (.endpointSetRepeater m) s fun t => Answers t m [] ∧ Leaves s (setRepeater r.epId 0 [] s) t := by
  obtain ⟨hwords, hcount, hn⟩ := hw
  obtain ⟨hremove, hslot⟩ := hact
  have hfar : ∀ v ∈ prms b 4 n, v.toNat < 2 ^ 22 ∧ circuitAvailable s (epCircuit v) = true := by
    intro v hv
    obtain ⟨j, hj, rfl⟩ := mem_prms.1 hv
    obtain ⟨hsmall, _, havail⟩ := hcoded (j + 1) (by omega) (prm b (4 + j)) (by rw [if_neg (by omega), show 3 + (j + 1) = 4 + j by omega])
    exact ⟨hsmall, havail⟩
  have hpass := repeaterChecks_pass (lo := 0) (least := 0) hwords ⟨Nat.zero_le _, hn⟩ hp ⟨by omega, by omega⟩ ⟨Nat.zero_le _, hslot⟩ hcount
    (hcoded 0 (Nat.zero_le _) w (if_pos rfl).symm) hr hfar
  refine completes_served (o := execEndpointSetRepeater m s) (e := setRepeater r.epId 0 [] s) (ws := []) rfl rfl h
    (decide_eq_true (by rw [hb]; omega)) ?_ (Nat.zero_le _) fun u hu => ⟨hu.answers, hu.leaves⟩
  rw [hb]
  dsimp only
  rw [hcount, hremove, hp, hr]
  refine (checked_pass (checksPass_append hpass fun c hc => absurd hc (by simp))).trans ?_
  simp [hfeed]

theorem endpointSetRepeater_assigns {s : State} {m n : Nat} {b : Mailbox} {w : Word} {r : Record} {fars : List Record} (h : Serves s m 0x0405 0)
    (hb : boxOf s m = b) (hw : b.paramWords = 4 + n ∧ prmN b 3 = n ∧ 1 ≤ n ∧ n ≤ 8)
    (hp : prm b 0 = w ∧ w.toNat < 2 ^ 22 ∧ epCircuit w < 768 ∧ circuitAvailable s (epCircuit w) = true)
    (hact : prmN b 1 = 1 ∧ 64 ≤ prmN b 2 ∧ prmN b 2 < nFixOf s.sf.mainsNom) (hr : namedRecord s w = some r)
    (hable : isFeed s r.circuit = false ∧ r.caps / 128 % 2 = 1 ∧ viaOf s r = none) (hnamed : (prms b 4 n).map (namedRecord s) = fars.map some)
    (hcoded : ∀ v ∈ prms b 4 n, v.toNat < 2 ^ 22 ∧ epCircuit v < 768 ∧ circuitAvailable s (epCircuit v) = true ∧ epCircuit v = r.circuit ∧ epAddr v ≠ epAddr w)
    (hfree : ∀ x ∈ fars, x.repeats = false ∧ ∀ y, viaOf s x = some y → y.epId = r.epId) :
    Completes (.endpointSetRepeater m) s fun t => Answers t m [] ∧ Leaves s (setRepeater r.epId (prmN b 2) (fars.map (·.epId)) s) t := by
  obtain ⟨hwords, hcount, hn1, hn8⟩ := hw
  obtain ⟨hp, hepw⟩ := hp
  obtain ⟨hadd, hlow, hslot⟩ := hact
  obtain ⟨hfeed, hcaps, hvia⟩ := hable
  have hfound : ∀ v ∈ prms b 4 n, ∃ x ∈ fars, namedRecord s v = some x := by
    intro v hv
    have hmem : namedRecord s v ∈ fars.map some := hnamed ▸ List.mem_map_of_mem hv
    obtain ⟨x, hx, he⟩ := List.mem_map.1 hmem
    exact ⟨x, hx, he.symm⟩
  have hids : (prms b 4 n).filterMap (fun v => (namedRecord s v).map (·.epId)) = fars.map (·.epId) := by
    have := congrArg (List.filterMap fun o : Option Record => o.map (·.epId)) hnamed
    simpa [List.filterMap_map, Function.comp_def] using this
  have hpass := repeaterChecks_pass (lo := 64) (least := 1) hwords ⟨hn1, hn8⟩ hp ⟨by omega, by omega⟩ ⟨hlow, hslot⟩ hcount hepw hr
    fun v hv => ⟨(hcoded v hv).1, (hcoded v hv).2.2.1⟩
  refine completes_served (o := execEndpointSetRepeater m s) (e := setRepeater r.epId (prmN b 2) (fars.map (·.epId)) s) (ws := []) rfl rfl h
    (decide_eq_true (by rw [hb]; omega)) ?_ (Nat.zero_le _) fun u hu => ⟨hu.answers, hu.leaves⟩
  rw [hb]
  dsimp only
  rw [hcount, hadd, hp, hr]
  refine (checked_pass (checksPass_append hpass fun c hc => ?_)).trans ?_
  · obtain ⟨v, hv, rfl⟩ := List.mem_map.1 hc
    obtain ⟨x, _, hx⟩ := hfound v hv
    simp [hx]
  · have hgood : ¬((prms b 4 n).any fun v => epCircuit v != r.circuit || epAddr v == epAddr w
        || (match namedRecord s v with
            | some x => x.repeats || (viaOf s x).any (·.epId != r.epId)
            | none => true)) = true := by
      rw [List.any_eq_true]
      rintro ⟨v, hv, hbad⟩
      obtain ⟨x, hmem, hx⟩ := hfound v hv
      obtain ⟨_, _, _, hsame, hother⟩ := hcoded v hv
      obtain ⟨hrep, hown⟩ := hfree x hmem
      simp only [hsame, bne_self_eq_false, beq_eq_false_iff_ne.2 hother, hx, hrep, Bool.false_or, Option.any_eq_true, bne_iff_ne] at hbad
      obtain ⟨y, hy, hne⟩ := hbad
      exact hne (hown y hy)
    rw [hids]
    refine (if_neg (by simp [hfeed])).trans ((if_neg (by decide)).trans (if_neg ?_))
    rintro (h0 | hsome | hbad)
    · omega
    · simp [hvia] at hsome
    · exact hgood hbad

/-! Snapshots, the deny list and the link settings (R193, R295, R316). -/

theorem snapChecks_pass {s : State} {b : Mailbox} {w : Word} {r : Record} (hp : prm b 0 = w) (hact : 1 ≤ prmN b 1 ∧ prmN b 1 ≤ 2)
    (hcoded : w.toNat < 2 ^ 22 ∧ epCircuit w < 768 ∧ circuitAvailable s (epCircuit w) = true) (hr : namedRecord s w = some r) (hd : domOn s 28 = true) :
    ChecksPass ([epOk b 0, inRange b 1 1 2] ++ epChecks s b 0 ++ [nearOn s]) := by
  refine checksPass_append (checksPass_append ?_ (epChecks_pass hp hcoded hr)) (checksPass_one hd)
  intro c hc
  simp only [List.mem_cons, List.not_mem_nil, or_false] at hc
  rcases hc with rfl | rfl
  · exact decide_eq_true ((congrArg BitVec.toNat hp).trans_lt hcoded.1)
  · exact inRange_fst.2 hact

theorem endpointCaSnapshot_reports {s : State} {m : Nat} {w : Word} {r : Record} (h : Serves s m 0x0420 0) (hw : (boxOf s m).paramWords = 2)
    (hp : prm (boxOf s m) 0 = w) (hact : prmN (boxOf s m) 1 = 1)
    (hcoded : w.toNat < 2 ^ 22 ∧ epCircuit w < 768 ∧ circuitAvailable s (epCircuit w) = true) (hr : namedRecord s w = some r) (hd : domOn s 28 = true) :
    Completes (.endpointCaSnapshot m) s fun t => ∃ off, Answers t m [BitVec.ofNat 64 off]
      ∧ t.mem = { s.mem with near := memWriteWords s.mem.near off (snapWords r) } ∧ SameBut [.clk, .mem, .mb, .irq, .out] s t := by
  refine completes_reported (o := execEndpointCaSnapshot m s) (e := s) (ws := snapWords r) rfl rfl h (exactly_of_eq hw)
    ((checked_pass (snapChecks_pass hp ⟨by omega, by omega⟩ hcoded hr hd)).trans ?_) (sameBut_refl [] s) (by decide)
    fun u off ha hmem _ hframe => ⟨off, ha, hmem, hframe⟩
  rw [hp, hr]
  exact if_pos hact

theorem endpointCaSnapshot_drops {s : State} {m : Nat} {w : Word} {r : Record} (h : Serves s m 0x0420 0) (hw : (boxOf s m).paramWords = 2)
    (hp : prm (boxOf s m) 0 = w) (hact : prmN (boxOf s m) 1 = 2)
    (hcoded : w.toNat < 2 ^ 22 ∧ epCircuit w < 768 ∧ circuitAvailable s (epCircuit w) = true) (hr : namedRecord s w = some r) (hd : domOn s 28 = true) :
    Completes (.endpointCaSnapshot m) s fun t => Answers t m []
      ∧ t.link = { s.link with records := s.link.records.map fun x => if x.epId = r.epId then { x with snap := {} } else x } ∧ DoneAlone m [.link] s t := by
  refine completes_served (o := execEndpointCaSnapshot m s) (e := modRecordId r.epId (fun r => { r with snap := {} }) s) (ws := []) rfl rfl h
    (exactly_of_eq hw) ((checked_pass (snapChecks_pass hp ⟨by omega, by omega⟩ hcoded hr hd)).trans ?_) (Nat.zero_le _)
    fun u hu => ⟨hu.answers, hu.same .link (by decide), hu.doneAlone (modRecordId_sameBut _ _ s) (by decide) (by decide)⟩
  rw [hp, hr]
  exact if_neg (by omega)

/-- The deny list after `endpoint.deny` (R295). -/
def deniedAfter (act : Nat) (d : Nat × Nat) (l : List (Nat × Nat)) : List (Nat × Nat) :=
  if act = 2 then l.filter (· != d) else if l.contains d then l else l ++ [d]

theorem mem_deniedAfter_self {act : Nat} (d : Nat × Nat) (l : List (Nat × Nat)) : d ∈ deniedAfter act d l ↔ act ≠ 2 := by
  unfold deniedAfter
  split
  · simp_all
  · split <;> simp_all

theorem mem_deniedAfter_of_ne {act : Nat} {d e : Nat × Nat} (l : List (Nat × Nat)) (h : e ≠ d) : e ∈ deniedAfter act d l ↔ e ∈ l := by
  unfold deniedAfter
  split
  · simp [h]
  · split <;> simp [h]

theorem endpointDeny_sets {s : State} {m : Nat} {b : Mailbox} {d : Nat × Nat} (h : Serves s m 0x0408 0) (hb : boxOf s m = b) (hw : b.paramWords = 4)
    (hc : prmN b 0 ≤ 767 ∧ circuitAvailable s (prmN b 0) = true) (hact : prmN b 3 = 1 ∨ prmN b 3 = 2) (hd : d = (prmN b 0, epIdOf b 1)) :
    Completes (.endpointDeny m) s fun t =>
      Answers t m [] ∧ (prmN b 3 = 1 → d ∈ t.link.denied) ∧ (prmN b 3 = 2 → d ∉ t.link.denied)
      ∧ (∀ e, e ≠ d → (e ∈ t.link.denied ↔ e ∈ s.link.denied)) ∧ { t.link with denied := s.link.denied } = s.link ∧ DoneAlone m [.link] s t := by
  subst hb hd
  have hlink (x : Links) : SameBut [.link] s { s with link := x } := by
    intro g hg; cases g <;> simp_all [Group.same]
  refine completes_served (o := execEndpointDeny m s)
    (e := { s with link := { s.link with denied := deniedAfter (prmN (boxOf s m) 3) (prmN (boxOf s m) 0, epIdOf (boxOf s m) 1) s.link.denied } })
    (ws := []) rfl rfl h (exactly_of_eq hw) (checked_pass ?_) (Nat.zero_le _) fun u hu => ?_
  · intro c hmem
    simp only [List.mem_cons, List.not_mem_nil, or_false] at hmem
    rcases hmem with rfl | rfl | rfl
    · exact inRange_fst.2 ⟨Nat.zero_le _, hc.1⟩
    · exact inRange_fst.2 ⟨by omega, by omega⟩
    · exact hc.2
  · have hl := hu.same .link (by decide)
    refine ⟨hu.answers, fun h1 => ?_, fun h2 => ?_, fun e he => ?_, ?_, hu.doneAlone (hlink _) (by decide) (by decide)⟩ <;> rw [hl]
    · exact (mem_deniedAfter_self _ _).2 (by omega)
    · exact fun hin => (mem_deniedAfter_self _ _).1 hin h2
    · exact mem_deniedAfter_of_ne _ he

/-- All that `endpoint.link_config` leaves: each circuit's settings, and their word queued (R440). -/
def linkConfigEffect (new : Nat → Settings) (cs : List Nat) (s : State) : State :=
  cs.foldl (fun t c => mpWrite (linkWord c) (linkValue (new c)) (modCirc c (fun x => { x with want := new c }) t)) s

theorem linkConfigEffect_circ (new : Nat → Settings) (cs : List Nat) {s t : State} (h : s.circ = t.circ) :
    (linkConfigEffect new cs s).circ = (cs.foldl (fun t c => modCirc c ((fun c x => { x with want := new c }) c) t) t).circ := by
  induction cs generalizing s t with
  | nil => exact h
  | cons c cs ih =>
    refine ih ((mpWrite_sameBut _ _ _ .circ (by decide)).trans ?_)
    simp only [modCirc, setCirc, circOf, h]

theorem linkConfigEffect_sameBut (new : Nat → Settings) (cs : List Nat) (s : State) : SameBut [.circ, .keep] s (linkConfigEffect new cs s) :=
  foldl_sameBut (fun _ _ => ((modCirc_sameBut _ _ _).trans (mpWrite_sameBut _ _ _)).mono (by simp)) cs s

theorem endpointLinkConfig_sets {s : State} {m : Nat} {b : Mailbox} {cs : List Nat} (h : Serves s m 0x0407 0) (hb : boxOf s m = b) (hw : 13 ≤ b.paramWords)
    (hcs : cs = circuitsOf b 0) (hav : ∀ c ∈ cs, circuitAvailable s c = true)
    (hrows : ChecksPass (settingsOk b 12 [(1, 65535), (16, 1024), (1, 64), (1, 256)]))
    (hratio : ∀ c ∈ cs, 4 * (linkSettings (settingOf b 12 4) (circOf s c).want).servicePeriod ≤ (linkSettings (settingOf b 12 4) (circOf s c).want).liveness)
    (hworn : ∀ c ∈ cs, worn s (linkWord c) = false) :
    Completes (.endpointLinkConfig m) s fun t =>
      Answers t m [] ∧ CircuitsChange cs (fun _ x => { x with want := linkSettings (settingOf b 12 4) x.want }) s t ∧ DoneAlone m [.circ, .keep] s t := by
  have hnodup : cs.Nodup := hcs ▸ circuitsOf_nodup _ 0
  refine completes_served (o := execEndpointLinkConfig m s) (e := linkConfigEffect (fun c => linkSettings (settingOf b 12 4) (circOf s c).want) cs s)
    (ws := []) rfl rfl h (decide_eq_true (hb ▸ hw)) ?_ (Nat.zero_le _) fun u hu => ⟨hu.answers,
      circuits_change (g := fun c x => { x with want := linkSettings (settingOf b 12 4) (circOf s c).want }) hnodup
        ((hu.same .circ (by decide)).trans (linkConfigEffect_circ _ cs rfl)),
      hu.doneAlone (linkConfigEffect_sameBut _ cs s) (by decide) (by decide)⟩
  rw [hb, ← hcs]
  refine (checked_pass (checksPass_append hrows fun c hc => ?_)).trans rfl
  simp only [List.mem_cons, List.not_mem_nil, or_false] at hc
  rcases hc with rfl | rfl | rfl
  · exact csetExists_fst (hcs ▸ hav)
  · simp only [Bool.or_eq_true, List.all_eq_true, decide_eq_true_eq]
    exact .inl hratio
  · simpa [writable] using hworn

/-- Settles O14: each clause is what one command of the endpoints does where its checks pass. -/
theorem endpointCommands : Obligations.EndpointCommands :=
  ⟨fun _ _ _ _ h hw hc hi hd hcount => endpointList_delivers h hw hc hi hd hcount,
    fun _ _ _ _ h hw hp hcoded hr => endpointStatus_answers h hw hp hcoded hr,
    fun _ _ _ _ h hw hp hcoded hr => endpointEvict_marks h hw hp hcoded hr,
    fun _ _ _ _ h hw hp hcoded hr hst => endpointReaddress_starts h hw hp hcoded hr hst,
    fun _ _ _ _ _ _ h hb hw hp hact hcoded hr hfeed => endpointSetRepeater_ends h hb hw hp hact hcoded hr hfeed,
    fun _ _ _ _ _ _ _ h hb hw hp hact hr hable hnamed hcoded hfree => endpointSetRepeater_assigns h hb hw hp hact hr hable hnamed hcoded hfree,
    fun _ _ _ _ h hw hp hact hcoded hr hd => endpointCaSnapshot_reports h hw hp hact hcoded hr hd,
    fun _ _ _ _ h hw hp hact hcoded hr hd => endpointCaSnapshot_drops h hw hp hact hcoded hr hd,
    fun _ _ _ _ h hb hw hc hact hd => endpointDeny_sets h hb hw hc hact hd,
    fun _ _ _ _ h hb hw hcs hav hrows hratio hworn => endpointLinkConfig_sets h hb hw hcs hav hrows hratio hworn⟩

end Sys2Proof.Machine
end

section
/-! SUPPORT. The commands of the time service: settings due at the next second, the HOST source's offsets, and the reports (R322 to R344, R485). -/
namespace Sys2Proof.Machine

/-- A device-wide setting whose word is not worn comes into force as `t` has it, and its word is queued (R386, R439). -/
theorem completes_setting {gs : List Group} {i : Instr} {op owner m : Nat} {words : Nat → Bool} {s t : State} {vs : List Int} {body : Mailbox → Reply}
    {P : State → Prop} {o : Result} (ho : exec i s = o) (hi : o = mailboxCommand op owner words m s body) (h : Serves s m op owner)
    (hw : words (boxOf s m).paramWords = true) (hworn : worn s (settingWordOf op) = false) (hb : body (boxOf s m) = storeSetting op vs s t)
    (ht : SameBut gs s t) (hkeep : Group.keep ∉ gs) (hclk : Group.clk ∉ gs) (hmb : Group.mb ∉ gs) (hirq : Group.irq ∉ gs)
    (hp : ∀ u, Answers u m [] → SameBut [.keep, .mb, .irq, .out, .pending] t u → u.keep = (mpHold (settingWordOf op) op vs s).keep →
      DoneAlone m (gs ++ [.keep]) s u → P u) : Completes i s P := by
  refine completes_served ho hi h hw (hb.trans (storeSetting_ok vs _ hworn)) (by simp) fun u hu => hp u hu.answers ?_ ?_ ?_
  · exact ((mpHold_sameBut _ _ _ _).trans hu.same).mono (by simp)
  · exact (hu.same .keep (by decide)).trans (mpHold_keep_congr _ _ _ (ht .keep hkeep) (ht .clk hclk))
  · exact hu.doneAlone (ht.trans (mpHold_sameBut _ _ _ _)) (by simp [hmb]) (by simp [hirq])

theorem timeStatus_answers {s : State} {m : Nat} (h : Serves s m 0x0501 0) (hw : (boxOf s m).paramWords = 0) :
    Completes (.timeStatus m) s fun t =>
      Answers t m ([tkuStatus s, BitVec.ofInt 64 s.tku.freqAdj, sourceStatus s 1, sourceStatus s 2, sourceStatus s 3, sourceStatus s 4,
          (match bTku s with
           | some b => BitVec.ofNat 64 b
           | none => BitVec.ofNat 64 18446744073709551615)]
        ++ (match liveModel s with
            | some x => modelWords x
            | none => [0, 0, 0, 0])
        ++ [twoCounts s.tku.switches s.tku.jumps, twoCounts s.tku.todErr s.tku.todMismatch, fieldAt 63 32 s.tku.steps])
      ∧ t.tku = { s.tku with switches := 0, jumps := 0, todErr := 0, todMismatch := 0, steps := 0 } ∧ DoneAlone m [.tku] s t := by
  refine completes_served (o := execTimeStatus m s) rfl rfl h (noWords_of_eq hw) rfl ?_ fun u hu =>
    ⟨hu.answers, hu.same .tku (by decide), hu.doneAlone (withTku_sameBut _ s) (by decide) (by decide)⟩
  cases liveModel s <;> simp [modelWords]

theorem timeSourceConfig_sets {s : State} {m : Nat} {b : Mailbox} {n : TimeSettings} (h : Serves s m 0x0502 0) (hb : boxOf s m = b)
    (hw : 1 ≤ b.paramWords) (hrows : ChecksPass (settingsOk b 0 timeRows)) (hprio : (settingOf b 0 16 0).all priorityOk = true)
    (hn : n = timeSettings (settingOf b 0 16) (s.tku.settingsDue.getD s.tku.settings)) (hworn : worn s (settingWordOf 0x0502) = false) :
    Completes (.timeSourceConfig m) s fun t =>
      Answers t m [] ∧ t.tku = { s.tku with settingsDue := some n }
      ∧ t.keep = (mpHold (settingWordOf 0x0502) 0x0502 (settingInts n) s).keep ∧ DoneAlone m [.tku, .keep] s t := by
  subst hb hn
  exact completes_setting (o := execTimeSourceConfig m s) rfl rfl h (decide_eq_true hw) hworn
    (checked_pass (checksPass_append hrows (checksPass_one hprio))) (withTku_sameBut _ s) (by decide) (by decide) (by decide) (by decide)
    fun u ha hsame hkeep hdone => ⟨ha, hsame .tku (by decide), hkeep, hdone⟩

theorem timeSetTai_sets {s : State} {m : Nat} {b : Mailbox} (h : Serves s m 0x0503 0) (hb : boxOf s m = b) (hw : b.paramWords = 4)
    (hrange : prmN b 0 < 2 ^ 48 ∧ prmN b 1 < 65536 ∧ prmN b 2 ≤ 2 ∧ prmN b 3 < 2 ^ 48) (hst : s.tku.state = .acquire) :
    Completes (.timeSetTai m) s fun t =>
      Answers t m []
      ∧ t.tku = { s.tku with taiDue := some (prmN b 0), utcOffset := signedOf 16 (prmN b 1), leap := prmN b 2, leapAt := prmN b 3 }
      ∧ DoneAlone m [.tku] s t := by
  subst hb
  obtain ⟨h0, h1, h2, h3⟩ := hrange
  refine completes_served (o := execTimeSetTai m s) rfl rfl h (exactly_of_eq hw) (checked_pass ?_) (by simp) fun u hu =>
    ⟨hu.answers, hu.same .tku (by decide), hu.doneAlone (withTku_sameBut _ s) (by decide) (by decide)⟩
  intro c hc
  simp only [List.mem_cons, List.not_mem_nil, or_false] at hc
  rcases hc with rfl | rfl | rfl | rfl | rfl
  · exact decide_eq_true h0
  · exact decide_eq_true h1
  · exact inRange_fst.2 ⟨Nat.zero_le _, h2⟩
  · exact decide_eq_true h3
  · simp [hst]

/-- A jump of the phase ends the source's qualification, and leaves what it last reported (R324). -/
theorem srcOf_jumpCheck (k : Nat) (s : State) : (srcOf (jumpCheck k s) k).phase = (srcOf s k).phase
    ∧ (srcOf (jumpCheck k s) k).bound = (srcOf s k).bound ∧ (srcOf (jumpCheck k s) k).traceable = (srcOf s k).traceable := by
  unfold jumpCheck
  dsimp only
  split
  · rw [srcOf_congr (raise_sameBut _ _ _ .tku (by decide))]
    have hjump : srcOf (tkuEvent 1 { (setSrc k { srcOf s k with qualified := false, run := 0, disq := true, disqAt := s.clk.now, eligibleFor := 0, hadLoss := true } s) with
          tku := { (setSrc k { srcOf s k with qualified := false, run := 0, disq := true, disqAt := s.clk.now, eligibleFor := 0, hadLoss := true } s).tku with
            jumps := sat32 (setSrc k { srcOf s k with qualified := false, run := 0, disq := true, disqAt := s.clk.now, eligibleFor := 0, hadLoss := true } s).tku.jumps 1 } }) k
        = { srcOf s k with qualified := false, run := 0, disq := true, disqAt := s.clk.now, eligibleFor := 0, hadLoss := true } := srcOf_setSrc k _ s
    rw [hjump]
    exact ⟨rfl, rfl, rfl⟩
  · exact ⟨rfl, rfl, rfl⟩

/-- What an offset makes of the HOST source, before its phase is checked for a jump (R322, R325). -/
def hostReport (sec : Nat) (offset : Int) (bound : Nat) (trace : Bool) (s : State) : Source :=
  let x := srcOf s 4
  let run := if x.disq || decide (s.tku.settings.hostMaxBound < bound) then 0
    else if x.lastSec.any fun l => l + 1 == sec then x.run + 1 else 1
  { x with run := run, qualified := x.qualified || decide (4 ≤ run), phase := - offset, bound := bound, fresh := true, traceable := trace, lastSec := some sec, lastAt := s.clk.now }

theorem srcOf_hostOffset (sec : Nat) (offset : Int) (bound : Nat) (trace : Bool) (s : State) : (srcOf (hostOffset sec offset bound trace s) 4).phase = - offset
    ∧ (srcOf (hostOffset sec offset bound trace s) 4).bound = bound ∧ (srcOf (hostOffset sec offset bound trace s) 4).traceable = trace := by
  have hset := srcOf_setSrc 4 (hostReport sec offset bound trace s) s
  obtain ⟨hphase, hbound, htrace⟩ := srcOf_jumpCheck 4 (setSrc 4 (hostReport sec offset bound trace s) s)
  rw [hset] at hphase hbound htrace
  exact ⟨hphase, hbound, htrace⟩

theorem timeHostOffset_takes {s : State} {m : Nat} {b : Mailbox} (h : Serves s m 0x0504 0) (hb : boxOf s m = b) (hw : b.paramWords = 3)
    (hrange : prmN b 0 < 2 ^ 48 ∧ fieldOf (prm b 2) 62 32 = 0) (hlate : s.tku.devUs ≤ 1000000 * (prmN b 0 + 2)) :
    Completes (.timeHostOffset m) s fun t => Answers t m []
      ∧ Leaves s (hostOffset (prmN b 0) (intOf (prm b 1)) (fieldOf (prm b 2) 31 0) (bitOf (prm b 2) 63) s) t
      ∧ (srcOf t 4).phase = - intOf (prm b 1) ∧ (srcOf t 4).bound = fieldOf (prm b 2) 31 0 ∧ (srcOf t 4).traceable = bitOf (prm b 2) 63 := by
  subst hb
  refine completes_served (o := execTimeHostOffset m s)
    (e := hostOffset (prmN (boxOf s m) 0) (intOf (prm (boxOf s m) 1)) (fieldOf (prm (boxOf s m) 2) 31 0) (bitOf (prm (boxOf s m) 2) 63) s) (ws := [])
    rfl rfl h (exactly_of_eq hw) (checked_pass ?_) (Nat.zero_le _) fun u hu => ⟨hu.answers, hu.leaves, ?_⟩
  · intro c hc
    simp only [List.mem_cons, List.not_mem_nil, or_false] at hc
    rcases hc with rfl | rfl | rfl
    · exact decide_eq_true hrange.1
    · simp [hrange.2]
    · exact decide_eq_true hlate
  · rw [srcOf_congr (hu.same .tku (by decide))]
    exact srcOf_hostOffset _ _ _ _ s

theorem timeResync_acquires {s : State} {m : Nat} (h : Serves s m 0x0505 0) (hw : (boxOf s m).paramWords = 0) :
    Completes (.timeResync m) s fun t =>
      Answers t m [] ∧ t.tku = { s.tku with state := .acquire, acqRun := 0, trackRun := 0, lockedFor := 0 } ∧ DoneAlone m [.tku] s t :=
  completes_served (o := execTimeResync m s) (e := toAcquire s) (ws := []) rfl rfl h (noWords_of_eq hw) rfl (Nat.zero_le _) fun _ hu =>
    ⟨hu.answers, hu.same .tku (by decide), hu.doneAlone (withTku_sameBut _ s) (by decide) (by decide)⟩

theorem timeEvidenceRing_names {s : State} {m n : Nat} {base : Word} (h : Serves s m 0x0506 1) (hw : (boxOf s m).paramWords = 2)
    (hbase : prm (boxOf s m) 0 = base ∧ base.toNat % 4096 = 0)
    (hn : prmN (boxOf s m) 1 = n ∧ n ∈ [16, 32, 64, 128, 256, 512, 1024, 2048, 4096, 8192, 16384, 32768, 65536]) (hd : domOn s 28 = true) :
    Completes (.timeEvidenceRing m) s fun t =>
      Answers t m [] ∧ t.ev = { s.ev with named := true, base := base, count := n, prod := 0, cons := 0, due := [] } ∧ DoneAlone m [.ev] s t := by
  obtain ⟨rfl, haligned⟩ := hbase
  obtain ⟨rfl, hcount⟩ := hn
  have hev (x : Evidence) : SameBut [.ev] s { s with ev := x } := by
    intro g hg; cases g <;> simp_all [Group.same]
  refine completes_served (o := execTimeEvidenceRing m s) (ws := []) rfl rfl h (exactly_of_eq hw) (checked_pass ?_) (Nat.zero_le _) fun u hu =>
    ⟨hu.answers, hu.same .ev (by decide), hu.doneAlone (hev _) (by decide) (by decide)⟩
  intro c hc
  simp only [List.mem_cons, List.not_mem_nil, or_false] at hc
  rcases hc with rfl | rfl | rfl
  · exact beq_iff_eq.2 haligned
  · exact List.contains_iff_mem.2 hcount
  · exact hd

theorem insertWord_length (key : Word → Nat) (w : Word) (l : List Word) : (insertWord key w l).length = l.length + 1 := by
  induction l with
  | nil => rfl
  | cons x xs ih =>
    unfold insertWord
    split
    · rfl
    · exact congrArg (· + 1) ih

theorem sortWords_length (key : Word → Nat) (ws : List Word) : (sortWords key ws).length = ws.length := by
  induction ws with
  | nil => rfl
  | cons w ws ih => exact (insertWord_length key w _).trans (congrArg (· + 1) ih)

theorem length_flatMap_le {α β : Type} (f : α → List β) (k : Nat) (l : List α) (h : ∀ x, (f x).length ≤ k) : (l.flatMap f).length ≤ k * l.length := by
  induction l with
  | nil => exact Nat.le_refl 0
  | cons a l ih =>
    rw [List.flatMap_cons, List.length_append, List.length_cons, Nat.mul_succ]
    have := h a
    omega

theorem timeEndpointStatus_delivers {s : State} {m n : Nat} {b : Mailbox} (h : Serves s m 0x0507 0) (hb : boxOf s m = b)
    (hn : prmN b 0 = n ∧ 1 ≤ n ∧ n ≤ 112) (hw : b.paramWords = n + 1)
    (hcoded : ∀ w ∈ prms b 1 n, w.toNat < 2 ^ 22 ∧ circuitAvailable s (epCircuit w) = true ∧ (namedRecord s w).isSome = true) (hd : domOn s 28 = true) :
    Completes (.timeEndpointStatus m) s fun t =>
      Delivers s t m ((sortWords BitVec.toNat (prms b 1 n)).flatMap fun w => ((namedRecord s w).map (rangeWords s)).getD [])
      ∧ SameBut [.clk, .mem, .mb, .irq, .out] s t := by
  subst hb
  obtain ⟨rfl, hlow, hhigh⟩ := hn
  refine completes_delivered (o := execTimeEndpointStatus m s) rfl rfl h (decide_eq_true (by omega))
    (checked_pass (checksPass_append (checksPass_append ?_ ?_) ?_)) (.inr hd) ?_ (sameBut_refl [] s) (by decide) (by decide)
    fun u hu hframe _ => ⟨hu, hframe⟩
  · intro c hc
    simp only [List.mem_cons, List.not_mem_nil, or_false] at hc
    rcases hc with rfl | rfl
    · exact inRange_fst.2 ⟨hlow, hhigh⟩
    · simp [countIs, hw]
  · intro c hc
    obtain ⟨i, hi, rfl⟩ := List.mem_map.1 hc
    exact decide_eq_true (hcoded _ (mem_prms.2 ⟨i, List.mem_range.1 hi, rfl⟩)).1
  · intro c hc
    simp only [List.mem_cons, List.not_mem_nil, or_false] at hc
    rcases hc with rfl | rfl
    · exact List.all_eq_true.2 fun w hw => (hcoded w hw).2.1
    · exact List.all_eq_true.2 fun w hw => (hcoded w hw).2.2
  · have hle := length_flatMap_le (fun w => ((namedRecord s w).map (rangeWords s)).getD []) 6 (sortWords BitVec.toNat (prms (boxOf s m) 1 (prmN (boxOf s m) 0)))
      fun w => by cases namedRecord s w <;> simp [rangeWords]
    rw [sortWords_length, show (prms (boxOf s m) 1 (prmN (boxOf s m) 0)).length = prmN (boxOf s m) 0 by simp [prms]] at hle
    omega

/-- The ranging periods and reject limits that `time.range_config` has due (R344). -/
def rangesDue (b : Mailbox) (cs : List Nat) (s : State) : Tab Nat × Tab Nat :=
  let old := s.link.rangeDue.getD (s.link.rangePeriod, s.link.rangeReject)
  (match settingOf b 12 2 0 with
    | some v => cs.foldl (fun t c => tabPut 64 t c v.toNat) old.1
    | none => old.1,
   match settingOf b 12 2 1 with
    | some v => cs.foldl (fun t c => tabPut 10 t c v.toNat) old.2
    | none => old.2)

theorem timeRangeConfig_sets {s : State} {m : Nat} {b : Mailbox} {cs : List Nat} (h : Serves s m 0x0508 0) (hb : boxOf s m = b) (hw : 13 ≤ b.paramWords)
    (hcs : cs = circuitsOf b 0) (hav : ∀ c ∈ cs, circuitAvailable s c = true) (hrows : ChecksPass (settingsOk b 12 [(4, 4096), (2, 100)]))
    (hworn : worn s (settingWordOf 0x0508) = false) :
    Completes (.timeRangeConfig m) s fun t => Answers t m []
      ∧ t.link.rangeDue = some
        (match settingOf b 12 2 0 with
          | some v => cs.foldl (fun t c => tabPut 64 t c v.toNat) (s.link.rangeDue.getD (s.link.rangePeriod, s.link.rangeReject)).1
          | none => (s.link.rangeDue.getD (s.link.rangePeriod, s.link.rangeReject)).1,
         match settingOf b 12 2 1 with
          | some v => cs.foldl (fun t c => tabPut 10 t c v.toNat) (s.link.rangeDue.getD (s.link.rangePeriod, s.link.rangeReject)).2
          | none => (s.link.rangeDue.getD (s.link.rangePeriod, s.link.rangeReject)).2)
      ∧ { t.link with rangeDue := s.link.rangeDue } = s.link ∧ DoneAlone m [.link, .keep] s t := by
  have hlink (x : Links) : SameBut [.link] s { s with link := x } := by
    intro g hg; cases g <;> simp_all [Group.same]
  refine completes_setting (o := execTimeRangeConfig m s) (vs := rangeInts (rangesDue b cs s)) (t := { s with link := { s.link with rangeDue := some (rangesDue b cs s) } })
    rfl rfl h (decide_eq_true (hb ▸ hw)) hworn ?_ (hlink _) (by decide) (by decide) (by decide) (by decide)
    fun u ha hsame hkeep hdone => ⟨ha, ?_, ?_, hdone⟩
  · rw [hb, ← hcs]
    refine (checked_pass (checksPass_append hrows fun c hc => ?_)).trans rfl
    rw [List.mem_singleton.1 hc]
    exact csetExists_fst (hcs ▸ hav)
  · rw [hsame .link (by decide)]
    rfl
  · rw [hsame .link (by decide)]

theorem timeModel_reads {s : State} {m : Nat} (h : Serves s m 0x0509 0) (hw : (boxOf s m).paramWords = 1) (hact : prmN (boxOf s m) 0 = 1) :
    Completes (.timeModel m) s fun t =>
      Answers t m (match liveModel s with
        | some x => modelWords x
        | none => [0, 0, 0, 0]) ∧ DoneAlone m [] s t := by
  refine completes_readout (o := execTimeModel m s) rfl rfl h (exactly_of_eq hw) ((checked_pass ?_).trans ?_) ?_
  · simp [inRange, scalarIs, hact]
  · rw [hact]
    rfl
  · cases liveModel s <;> simp [modelWords]

theorem timeModel_clears {s : State} {m : Nat} (h : Serves s m 0x0509 0) (hw : (boxOf s m).paramWords = 1) (hact : prmN (boxOf s m) 0 = 2)
    (hworn : ∀ w ∈ [256, 257, 258, 259, 260], worn s w = false) :
    Completes (.timeModel m) s fun t =>
      Answers t m [] ∧ t.tku = { s.tku with model := none } ∧ (∀ w ∈ [256, 257, 258, 259, 260], keepQueued t w = 0) ∧ DoneAlone m [.tku, .keep] s t := by
  have hwritable : writable s [256, 257, 258, 259, 260] = true := by simpa [writable] using hworn
  refine completes_served (o := execTimeModel m s) (e := mpWrites (atWords 256 [0, 0, 0, 0, 0]) { s with tku := { s.tku with model := none } }) (ws := [])
    rfl rfl h (exactly_of_eq hw) ((checked_pass ?_).trans ?_) (Nat.zero_le _) fun u hu => ⟨hu.answers, ?_, fun w hw => ?_, ?_⟩
  · simp [inRange, scalarIs, hact, hwritable]
  · rw [hact]
    rfl
  · exact (hu.same .tku (by decide)).trans (mpWrites_sameBut _ _ .tku (by decide))
  · rw [keepQueued_congr (hu.same .keep (by decide))]
    have hzero (i : Nat) (hi : i < 5) :=
      mpWrites_at (atWords 256 [0, 0, 0, 0, 0]) { s with tku := { s.tku with model := none } } 256 (by decide) i hi
    simp only [List.mem_cons, List.not_mem_nil, or_false] at hw
    rcases hw with rfl | rfl | rfl | rfl | rfl
    · exact hzero 0 (by decide)
    · exact hzero 1 (by decide)
    · exact hzero 2 (by decide)
    · exact hzero 3 (by decide)
    · exact hzero 4 (by decide)
  · exact hu.doneAlone (((withTku_sameBut _ s).trans (mpWrites_sameBut _ _)).mono (by simp)) (by decide) (by decide)

theorem timePeerConfig_sets {s : State} {m : Nat} {roles : List Nat} (h : Serves s m 0x050A 0) (hw : (boxOf s m).paramWords = 1)
    (hcoded : prmN (boxOf s m) 0 < 65536) (hroles : roles = priorityCodes (prmN (boxOf s m) 0)) (hrange : ∀ r ∈ roles, r ≤ 2)
    (hworn : worn s (settingWordOf 0x050A) = false) :
    Completes (.timePeerConfig m) s fun t =>
      Answers t m [] ∧ t.tku = { s.tku with peerRoleDue := some roles }
      ∧ t.keep = (mpHold (settingWordOf 0x050A) 0x050A (roles.map Int.ofNat) s).keep ∧ DoneAlone m [.tku, .keep] s t := by
  subst hroles
  refine completes_setting (o := execTimePeerConfig m s) rfl rfl h (exactly_of_eq hw) hworn (checked_pass ?_) (withTku_sameBut _ s) (by decide) (by decide)
    (by decide) (by decide) fun u ha hsame hkeep hdone => ⟨ha, hsame .tku (by decide), hkeep, hdone⟩
  intro c hc
  simp only [List.mem_cons, List.not_mem_nil, or_false] at hc
  rcases hc with rfl | rfl
  · exact decide_eq_true hcoded
  · exact List.all_eq_true.2 fun r hr => decide_eq_true (hrange r hr)

/-- Settles O15: each clause is what one command of the time service leaves where its checks pass. -/
theorem timeCommands : Obligations.TimeCommands :=
  ⟨fun _ _ h hw => timeStatus_answers h hw,
    fun _ _ _ _ h hb hw hrows hprio hn hworn => timeSourceConfig_sets h hb hw hrows hprio hn hworn,
    fun _ _ _ h hb hw hrange hst => timeSetTai_sets h hb hw hrange hst,
    fun _ _ _ h hb hw hrange hlate => timeHostOffset_takes h hb hw hrange hlate,
    fun _ _ h hw => timeResync_acquires h hw,
    fun _ _ _ _ h hw hbase hn hd => timeEvidenceRing_names h hw hbase hn hd,
    fun _ _ _ _ h hb hn hw hcoded hd => timeEndpointStatus_delivers h hb hn hw hcoded hd,
    fun _ _ _ _ h hb hw hcs hav hrows hworn => timeRangeConfig_sets h hb hw hcs hav hrows hworn,
    fun _ _ h hw hact => timeModel_reads h hw hact,
    fun _ _ h hw hact hworn => timeModel_clears h hw hact hworn,
    fun _ _ _ h hw hcoded hroles hrange hworn => timePeerConfig_sets h hw hcoded hroles hrange hworn⟩

end Sys2Proof.Machine
end

section
/-! SUPPORT. The region profile and the superframe timer's settings (R250, R259, R263, R288, R507). -/
namespace Sys2Proof.Machine

/-! What a profile that comes into force leaves of the region's own fields. -/

/-- The profile in force, the one due and the lock. -/
def regionOf (s : State) : Nat × Option (Nat × Nat) × Bool := (s.circ.profile, s.circ.profileDue, s.circ.locked)

theorem regionOf_congr {s t : State} (h : t.circ = s.circ) : regionOf t = regionOf s := by unfold regionOf; rw [h]

@[simp] theorem regionOf_modCirc (c : Nat) (f : Circuit → Circuit) (s : State) : regionOf (modCirc c f s) = regionOf s := rfl
@[simp] theorem regionOf_modFeed (c : Nat) (f : Feed → Feed) (s : State) : regionOf (modFeed c f s) = regionOf s := rfl
@[simp] theorem regionOf_modRecords (f : Record → Record) (s : State) : regionOf (modRecords f s) = regionOf s := rfl
@[simp] theorem regionOf_dropOpen (c : Nat) (s : State) : regionOf (dropOpen c s) = regionOf s := rfl

@[simp] theorem regionOf_enterFeedPhase (c : Nat) (ph : FeedPhase) (s : State) : regionOf (enterFeedPhase c ph s) = regionOf s := by
  unfold enterFeedPhase
  dsimp only
  split <;> rfl

@[simp] theorem regionOf_retrain (c : Nat) (s : State) : regionOf (retrain c s) = regionOf s := by simp [retrain, beginTraining]

@[simp] theorem regionOf_retrainUp (c : Nat) (s : State) : regionOf (retrainUp c s) = regionOf s := by
  unfold retrainUp
  split <;> simp

theorem regionOf_foldl {α : Type} {f : State → α → State} (h : ∀ t a, regionOf (f t a) = regionOf t) (l : List α) (s : State) :
    regionOf (l.foldl f s) = regionOf s := by
  induction l generalizing s with
  | nil => rfl
  | cons a l ih => exact (ih _).trans (h s a)

/-- A profile that comes into force is then the profile, with none due and the lock as it was (R250). -/
theorem regionOf_applyProfile (p : Nat) (s : State) : regionOf (applyProfile p s) = (p, none, s.circ.locked) := by
  unfold applyProfile
  dsimp only
  split
  · rfl
  · refine (regionOf_congr (mpHold_sameBut _ _ _ _ .circ (by decide))).trans ((regionOf_foldl (fun t c => ?_) _ _).trans rfl)
    split <;> simp

theorem withCirc_sameBut (x : Circuits) (s : State) : SameBut [.circ] s { s with circ := x } := by
  intro g hg; cases g <;> simp_all [Group.same]

/-- The checks of `device.set_region` on a mailbox that the lock does not bar, with the profile's superframe far enough ahead (R508). -/
theorem regionChecks_pass {s : State} {m : Nat} {b : Mailbox} (hp : prmN b 0 ∈ [0, 1, 2, 15]) (hx : prmN b 1 < 2 ^ 40) (hlock : prmN b 2 ≤ 1)
    (hlocked : s.circ.locked = true → 24 ≤ m) (hahead : counting s = true → s.sf.number + 16 ≤ prmN b 1) (hworn : worn s (settingWordOf 0x0120) = false) :
    ChecksPass [scalarIs b 0 15 [0, 1, 2, 15].contains, sfOk b 1, inRange b 2 0 1, (!(s.circ.locked && decide (m < 24)), stResource, 0),
      (!(counting s && decide (prmN b 1 < s.sf.number + 16)), stBusy, 0), (!worn s (settingWordOf 0x0120), stWorn, 0)] := by
  intro c hc
  simp only [List.mem_cons, List.not_mem_nil, or_false] at hc
  rcases hc with rfl | rfl | rfl | rfl | rfl | rfl
  · exact List.contains_iff_mem.2 hp
  · exact decide_eq_true hx
  · exact inRange_fst.2 ⟨Nat.zero_le _, hlock⟩
  · cases hl : s.circ.locked with
    | false => rfl
    | true => simpa using hlocked hl
  · cases hcount : counting s with
    | false => rfl
    | true => simpa using hahead hcount
  · simp [hworn]

theorem deviceSetRegion_due {s : State} {m p x lock : Nat} (h : Serves s m 0x0120 0) (hw : (boxOf s m).paramWords = 3)
    (hp : prmN (boxOf s m) 0 = p ∧ p ∈ [0, 1, 2, 15]) (hx : prmN (boxOf s m) 1 = x ∧ x < 2 ^ 40 ∧ s.sf.number + 16 ≤ x)
    (hlock : prmN (boxOf s m) 2 = lock ∧ lock ≤ 1) (hlocked : s.circ.locked = true → 24 ≤ m) (hcount : counting s = true)
    (hworn : worn s (settingWordOf 0x0120) = false) :
    Completes (.deviceSetRegion m) s fun t => Answers t m []
      ∧ t.circ = { s.circ with locked := lock == 1, profileDue := some (p, x) }
      ∧ t.keep = (mpHold (settingWordOf 0x0120) 0x0120 (regionSetting s.circ.profile (lock == 1)) s).keep ∧ DoneAlone m [.circ, .keep] s t := by
  obtain ⟨rfl, hp⟩ := hp
  obtain ⟨rfl, hx, hahead⟩ := hx
  obtain ⟨rfl, hlock⟩ := hlock
  refine completes_served (o := execDeviceSetRegion m s)
    (e := mpHold (settingWordOf 0x0120) 0x0120 (regionSetting s.circ.profile (prmN (boxOf s m) 2 == 1))
      { s with circ := { s.circ with locked := prmN (boxOf s m) 2 == 1, profileDue := some (prmN (boxOf s m) 0, prmN (boxOf s m) 1) } })
    (ws := []) rfl rfl h (exactly_of_eq hw) ((checked_pass (regionChecks_pass hp hx hlock hlocked (fun _ => hahead) hworn)).trans ?_)
    (Nat.zero_le _) fun u hu => ⟨hu.answers, ?_, ?_, ?_⟩
  · simp only [hcount, if_true]
  · exact (hu.same .circ (by decide)).trans (mpHold_sameBut _ _ _ _ .circ (by decide))
  · exact (hu.same .keep (by decide)).trans (mpHold_keep_congr _ _ _ rfl rfl)
  · exact hu.doneAlone (((withCirc_sameBut _ s).trans (mpHold_sameBut _ _ _ _)).mono (by simp)) (by decide) (by decide)

theorem deviceSetRegion_atOnce {s : State} {m p x lock : Nat} (h : Serves s m 0x0120 0) (hw : (boxOf s m).paramWords = 3)
    (hp : prmN (boxOf s m) 0 = p ∧ p ∈ [0, 1, 2, 15]) (hx : prmN (boxOf s m) 1 = x ∧ x < 2 ^ 40)
    (hlock : prmN (boxOf s m) 2 = lock ∧ lock ≤ 1) (hlocked : s.circ.locked = true → 24 ≤ m) (hcount : counting s = false)
    (hworn : worn s (settingWordOf 0x0120) = false) :
    Completes (.deviceSetRegion m) s fun t => Answers t m []
      ∧ t.circ.profile = p ∧ t.circ.profileDue = none ∧ t.circ.locked = (lock == 1)
      ∧ Leaves s (mpHold (settingWordOf 0x0120) 0x0120 (regionSetting p (lock == 1)) (applyProfile p { s with circ := { s.circ with locked := lock == 1 } })) t := by
  obtain ⟨rfl, hp⟩ := hp
  obtain ⟨rfl, hx⟩ := hx
  obtain ⟨rfl, hlock⟩ := hlock
  refine completes_served (o := execDeviceSetRegion m s)
    (e := mpHold (settingWordOf 0x0120) 0x0120 (regionSetting (prmN (boxOf s m) 0) (prmN (boxOf s m) 2 == 1))
      (applyProfile (prmN (boxOf s m) 0) { s with circ := { s.circ with locked := prmN (boxOf s m) 2 == 1 } }))
    (ws := []) rfl rfl h (exactly_of_eq hw)
    ((checked_pass (regionChecks_pass hp hx hlock hlocked (fun hc => absurd hc (by simp [hcount])) hworn)).trans ?_)
    (Nat.zero_le _) fun u hu => ?_
  · simp only [hcount, Bool.false_eq_true, if_false]
  · have hregion : regionOf u = (prmN (boxOf s m) 0, none, prmN (boxOf s m) 2 == 1) :=
      (regionOf_congr ((hu.same .circ (by decide)).trans (mpHold_sameBut _ _ _ _ .circ (by decide)))).trans (regionOf_applyProfile _ _)
    obtain ⟨hprofile, hdue⟩ := Prod.ext_iff.1 hregion
    obtain ⟨hdue, hlocked⟩ := Prod.ext_iff.1 hdue
    exact ⟨hu.answers, hprofile, hdue, hlocked, hu.leaves⟩

/-! The superframe timer (R263, R288). -/

/-- The checks of `device.sf_config` on rows, a REF_LIST and an anchor that are in range. -/
theorem sfChecks_pass {s : State} {b : Mailbox} {refW : Word} {mains : Nat} {anchor : Int} {i d : Nat}
    (hrows : ChecksPass (settingsOk b 0 [(0, 1), (-9223372036854775808, 9223372036854775807), (-9223372036854775808, 9223372036854775807)]))
    (hrefs : (settingOf b 0 3 1).isSome = true → ChecksPass (refChecks s refW i)) (hanchor : 0 ≤ anchor ∧ anchor < lNomOf mains)
    (hmains : mains = s.sf.mainsDue.getD s.sf.mainsNom ∨ activeCircuits s = []) :
    ChecksPass (settingsOk b 0 [(0, 1), (-9223372036854775808, 9223372036854775807), (-9223372036854775808, 9223372036854775807)]
      ++ (if (settingOf b 0 3 1).isSome then refChecks s refW i else [])
      ++ [(decide (0 ≤ anchor ∧ anchor < lNomOf mains), stRange, d),
          (mains == s.sf.mainsDue.getD s.sf.mainsNom || (activeCircuits s).isEmpty, stBusy, 0)]) := by
  refine checksPass_append (checksPass_append hrows ?_) fun c hc => ?_
  · split
    · next hsome => exact hrefs hsome
    · exact fun c hc => absurd hc List.not_mem_nil
  · simp only [List.mem_cons, List.not_mem_nil, or_false] at hc
    rcases hc with rfl | rfl
    · exact decide_eq_true hanchor
    · rcases hmains with hm | hidle
      · simp [hm]
      · simp [hidle]

theorem deviceSfConfig_repeats {s : State} {m : Nat} {b : Mailbox} {refW : Word} {mains : Nat} {refs : List Nat} {anchor : Int} (h : Serves s m 0x0122 0)
    (hb : boxOf s m = b) (hw : 1 ≤ b.paramWords)
    (hrows : ChecksPass (settingsOk b 0 [(0, 1), (-9223372036854775808, 9223372036854775807), (-9223372036854775808, 9223372036854775807)]))
    (hrefW : refW = prm b (1 + (maskRows (prm b 0) 1).length))
    (hrefs : (settingOf b 0 3 1).isSome = true → ChecksPass (refChecks s refW (1 + (maskRows (prm b 0) 1).length)))
    (hm : mains = pick (settingOf b 0 3 0) (fun v => if v = 1 then 60 else 50) (s.sf.mainsDue.getD s.sf.mainsNom))
    (hr : refs = pick (settingOf b 0 3 1) (fun _ => refCircuits refW) s.sf.refList) (ha : anchor = pick (settingOf b 0 3 2) id s.sf.anchor)
    (hanchor : 0 ≤ anchor ∧ anchor < lNomOf mains)
    (hsame : mains = s.sf.mainsDue.getD s.sf.mainsNom ∧ refs = s.sf.refList ∧ anchor = s.sf.anchor) (hworn : worn s (settingWordOf 0x0122) = false) :
    Completes (.deviceSfConfig m) s fun t => Answers t m [] ∧ t.keep = (mpHold (settingWordOf 0x0122) 0x0122 (sfSetting mains refs anchor) s).keep
      ∧ DoneAlone m [.keep] s t := by
  refine completes_setting (gs := []) (o := execDeviceSfConfig m s) (vs := sfSetting mains refs anchor) (t := s) rfl rfl h (decide_eq_true (hb ▸ hw)) hworn ?_
    (sameBut_refl _ s) (by decide) (by decide) (by decide) (by decide) fun u ha _ hkeep hdone => ⟨ha, hkeep, hdone⟩
  rw [hb]
  dsimp only
  rw [← hrefW, ← hm, ← hr, ← ha, if_pos hsame]
  exact checked_pass (sfChecks_pass hrows hrefs hanchor (.inl hsame.1))

theorem deviceSfConfig_changes {s : State} {m : Nat} {b : Mailbox} {refW : Word} {mains : Nat} {refs : List Nat} {anchor : Int} (h : Serves s m 0x0122 0)
    (hb : boxOf s m = b) (hw : 1 ≤ b.paramWords)
    (hrows : ChecksPass (settingsOk b 0 [(0, 1), (-9223372036854775808, 9223372036854775807), (-9223372036854775808, 9223372036854775807)]))
    (hrefW : refW = prm b (1 + (maskRows (prm b 0) 1).length))
    (hrefs : (settingOf b 0 3 1).isSome = true → ChecksPass (refChecks s refW (1 + (maskRows (prm b 0) 1).length)))
    (hm : mains = pick (settingOf b 0 3 0) (fun v => if v = 1 then 60 else 50) (s.sf.mainsDue.getD s.sf.mainsNom))
    (hr : refs = pick (settingOf b 0 3 1) (fun _ => refCircuits refW) s.sf.refList) (ha : anchor = pick (settingOf b 0 3 2) id s.sf.anchor)
    (hanchor : 0 ≤ anchor ∧ anchor < lNomOf mains)
    (hnew : ¬ (mains = s.sf.mainsDue.getD s.sf.mainsNom ∧ refs = s.sf.refList ∧ anchor = s.sf.anchor))
    (hmains : mains = s.sf.mainsDue.getD s.sf.mainsNom ∨ activeCircuits s = []) (hworn : worn s (settingWordOf 0x0122) = false) :
    Completes (.deviceSfConfig m) s fun t => Answers t m [] ∧ t.sf = (sfChange mains refs anchor s).sf
      ∧ Leaves s (mpHold (settingWordOf 0x0122) 0x0122 (sfSetting mains refs anchor) (sfChange mains refs anchor s)) t := by
  refine completes_served (o := execDeviceSfConfig m s)
    (e := mpHold (settingWordOf 0x0122) 0x0122 (sfSetting mains refs anchor) (sfChange mains refs anchor s)) (ws := []) rfl rfl h
    (decide_eq_true (hb ▸ hw)) ?_ (Nat.zero_le _) fun u hu =>
      ⟨hu.answers, (hu.same .sf (by decide)).trans (mpHold_sameBut _ _ _ _ .sf (by decide)), hu.leaves⟩
  rw [hb]
  dsimp only
  rw [← hrefW, ← hm, ← hr, ← ha, if_neg hnew]
  exact (checked_pass (sfChecks_pass hrows hrefs hanchor hmains)).trans (storeSetting_ok _ _ hworn)

theorem deviceSfStatus_answers {s : State} {m : Nat} (h : Serves s m 0x0123 0) (hw : (boxOf s m).paramWords = 0) :
    Completes (.deviceSfStatus m) s fun t =>
      Answers t m [fieldAt 63 62 (sfCode s.sf.state) ||| fieldAt 39 0 s.sf.number, fieldAt 63 48 s.sf.len ||| fieldAt 47 38 (s.sf.ref.getD 0x3FF),
        BitVec.ofInt 64 (if s.sf.state = .free then 0 else tick256 s.sf.phi),
        BitVec.ofInt 64 (if s.sf.period = 0 then 256 * lNom s else tick256 s.sf.period), twoCounts s.sf.lockLoss s.sf.refSwitch]
      ∧ t.sf = { s.sf with lockLoss := 0, refSwitch := 0 } ∧ DoneAlone m [.sf] s t :=
  completes_served (o := execDeviceSfStatus m s) rfl rfl h (noWords_of_eq hw) rfl (by simp) fun _ hu =>
    ⟨hu.answers, hu.same .sf (by decide), hu.doneAlone (withSf_sameBut _ s) (by decide) (by decide)⟩

/-- Settles O16: a profile is due or taken at once as superframes are counted or not; the timer's settings repeat or change those in force. -/
theorem deviceConfiguration : Obligations.DeviceConfiguration :=
  ⟨fun _ _ _ _ _ h hw hp hx hlock hlocked hcount hworn => deviceSetRegion_due h hw hp hx hlock hlocked hcount hworn,
    fun _ _ _ _ _ h hw hp hx hlock hlocked hcount hworn => deviceSetRegion_atOnce h hw hp hx hlock hlocked hcount hworn,
    fun s m h hw => completes_readout (o := execDeviceRegionStatus m s) rfl rfl h (noWords_of_eq hw) rfl (by simp),
    fun _ _ _ _ _ _ _ h hb hw hrows hrefW hrefs hm hr ha hanchor hsame hworn =>
      deviceSfConfig_repeats h hb hw hrows hrefW hrefs hm hr ha hanchor hsame hworn,
    fun _ _ _ _ _ _ _ h hb hw hrows hrefW hrefs hm hr ha hanchor hnew hmains hworn =>
      deviceSfConfig_changes h hb hw hrows hrefW hrefs hm hr ha hanchor hnew hmains hworn,
    fun _ _ h hw => deviceSfStatus_answers h hw⟩

end Sys2Proof.Machine
end

section
/-! SUPPORT. The rings' settings and status, the steering of frames, circuit keys and the LDPC pool's status (R240, R360 to R365, R420, R507). -/
namespace Sys2Proof.Machine

/-! `device.ring_config` (R363 to R365). -/

/-- All that `device.ring_config` leaves: the ring's settings and state, and a transmit ring's express doorbell. -/
def ringConfigured (rx : Bool) (q : Nat) (b : Mailbox) (s : State) : State :=
  let t := setRing rx q (ringEnable (prmN b 10 == 1) (takeRing (ringAsked rx b) (ringOf rx s q))) s
  if rx then t else { t with host := { t.host with xdb := bindXdb q (ringAsked rx b).xdb t.host.xdb } }

theorem ringConfigured_sameBut (rx : Bool) (q : Nat) (b : Mailbox) (s : State) : SameBut [.host] s (ringConfigured rx q b s) := by
  cases rx with
  | true => exact setRing_sameBut true q _ s
  | false => exact withHost_sameBut _ s

theorem ringOf_ringConfigured (rx : Bool) (q : Nat) (b : Mailbox) (s : State) :
    ringOf rx (ringConfigured rx q b s) q = ringEnable (prmN b 10 == 1) (takeRing (ringAsked rx b) (ringOf rx s q)) := by
  cases rx with
  | true => exact ringOf_setRing true q _ s
  | false => exact ringOf_setRing false q _ s

theorem ringOf_ringConfigured_ne {rx y : Bool} {q r : Nat} (b : Mailbox) (s : State) (h : (y, r) ≠ (rx, q)) :
    ringOf y (ringConfigured rx q b s) r = ringOf y s r := by
  by_cases hy : y = rx
  · subst hy
    have hr : r ≠ q := fun hr => h (by rw [hr])
    cases y with
    | true => exact ringOf_setRing_ne true _ s hr
    | false => exact ringOf_setRing_ne false _ s hr
  · cases y <;> cases rx
    · exact absurd rfl hy
    · rfl
    · rfl
    · exact absurd rfl hy

theorem ringConfigured_host (rx : Bool) (q : Nat) (b : Mailbox) (s : State) :
    (ringConfigured rx q b s).host.xdb = (if rx then s.host.xdb else bindXdb q (ringAsked rx b).xdb s.host.xdb)
      ∧ { (ringConfigured rx q b s).host with rx := s.host.rx, tx := s.host.tx, xdb := s.host.xdb } = s.host := by
  cases rx <;> exact ⟨rfl, rfl⟩

/-- The sizes that a ring may have are 64 times a power of two (R364). -/
theorem ringSize_listed : ∀ v ∈ [64, 128, 256, 512, 1024, 2048, 4096, 8192, 16384, 32768, 65536],
    ((List.range 11).any fun k => v == 64 * 2 ^ k) = true := by decide

/-- The express doorbell that a ring asks for is free or its own (R363). -/
def xdbFree (s : State) (q : Nat) (o : Option Nat) : Bool :=
  match o with
  | none => true
  | some k => (match tabGet none s.host.xdb k with
    | none => true
    | some r => r == q)

theorem xdbFree_asked {s : State} {q : Nat} {rx : Bool} {b : Mailbox}
    (h : rx = true ∨ prmN b 8 = 0xFF ∨ tabGet none s.host.xdb (prmN b 8) = none ∨ tabGet none s.host.xdb (prmN b 8) = some q) :
    xdbFree s q (ringAsked rx b).xdb = true := by
  by_cases hnone : rx = true ∨ prmN b 8 = 0xFF
  · have hx : (ringAsked rx b).xdb = none := if_pos hnone
    rw [hx]
    rfl
  · have hx : (ringAsked rx b).xdb = some (prmN b 8) := if_neg hnone
    rw [hx]
    rcases h with hrx | hff | hfree | hown
    · exact absurd (.inl hrx) hnone
    · exact absurd (.inr hff) hnone
    · simp [xdbFree, hfree]
    · simp [xdbFree, hown]

theorem deviceRingConfig_sets {s : State} {m q : Nat} {rx : Bool} {b : Mailbox} (h : Serves s m 0x0130 1) (hb : boxOf s m = b) (hw : b.paramWords = 11)
    (hq : prmN b 0 = (if rx then 1 else 0) ∧ prmN b 1 = q ∧ q ≤ 255) (hbase : prmN b 2 % 4096 = 0 ∧ inHdm s (prmN b 2) (32 * prmN b 3) = false)
    (hsize : prmN b 3 ∈ [64, 128, 256, 512, 1024, 2048, 4096, 8192, 16384, 32768, 65536]) (hwb : prmN b 4 % 8 = 0 ∧ inHdm s (prmN b 4) 8 = false)
    (hmod : prmN b 5 ≤ 63 ∧ 1 ≤ prmN b 6 ∧ prmN b 6 ≤ 256 ∧ prmN b 7 ≤ 1023) (hxdb : rx = true ∨ prmN b 8 ≤ 15 ∨ prmN b 8 = 0xFF)
    (hbits : prmN b 9 ≤ (if rx then 1 else 0) ∧ prmN b 10 ≤ 1) (hup : domOn s 28 = true ∧ s.host.up = true)
    (hst : (ringOf rx s q).state = .disabled ∨ sameRing (ringOf rx s q) (ringAsked rx b) = true)
    (hfree : rx = true ∨ prmN b 8 = 0xFF ∨ tabGet none s.host.xdb (prmN b 8) = none ∨ tabGet none s.host.xdb (prmN b 8) = some q) :
    Completes (.deviceRingConfig m) s fun t => Answers t m []
      ∧ ringOf rx t q = ringEnable (prmN b 10 == 1) (takeRing (ringAsked rx b) (ringOf rx s q))
      ∧ (∀ y r, (y, r) ≠ (rx, q) → ringOf y t r = ringOf y s r)
      ∧ t.host.xdb = (if rx then s.host.xdb else bindXdb q (ringAsked rx b).xdb s.host.xdb)
      ∧ { t.host with rx := s.host.rx, tx := s.host.tx, xdb := s.host.xdb } = s.host ∧ DoneAlone m [.host] s t := by
  obtain ⟨hkind, rfl, hq⟩ := hq
  have hrx : (prmN b 0 == 1) = rx := by rw [hkind]; cases rx <;> rfl
  refine completes_served (o := execDeviceRingConfig m s) (e := ringConfigured rx (prmN b 1) b s) (ws := []) rfl rfl h (exactly_of_eq (hb ▸ hw)) ?_
    (Nat.zero_le _) fun u hu => ?_
  · rw [hb]
    dsimp only
    rw [hrx]
    refine (checked_pass fun c hc => ?_).trans (by cases rx <;> rfl)
    simp only [List.mem_cons, List.not_mem_nil, or_false] at hc
    rcases hc with rfl | rfl | rfl | rfl | rfl | rfl | rfl | rfl | rfl | rfl | rfl | rfl | rfl | rfl
    · exact inRange_fst.2 ⟨Nat.zero_le _, by rw [hkind]; split <;> decide⟩
    · exact inRange_fst.2 ⟨Nat.zero_le _, hq⟩
    · simp [hbase]
    · exact ringSize_listed _ hsize
    · simp [hwb]
    · exact inRange_fst.2 ⟨Nat.zero_le _, hmod.1⟩
    · exact inRange_fst.2 ⟨hmod.2.1, hmod.2.2.1⟩
    · exact inRange_fst.2 ⟨Nat.zero_le _, hmod.2.2.2⟩
    · simpa [scalarIs] using hxdb
    · exact inRange_fst.2 ⟨Nat.zero_le _, hbits.1⟩
    · exact inRange_fst.2 ⟨Nat.zero_le _, hbits.2⟩
    · simp [hup]
    · rcases hst with hd | hs
      · simp [hd]
      · simp [hs]
    · exact xdbFree_asked hfree
  · have hhost := hu.same .host (by decide)
    obtain ⟨hx, hrest⟩ := ringConfigured_host rx (prmN b 1) b s
    refine ⟨hu.answers, (ringOf_congr hhost rx _).trans (ringOf_ringConfigured rx _ b s), fun y r hne =>
      (ringOf_congr hhost y r).trans (ringOf_ringConfigured_ne b s hne), (congrArg HostLink.xdb hhost).trans hx, ?_,
      hu.doneAlone (ringConfigured_sameBut rx _ b s) (by decide) (by decide)⟩
    rw [hhost]
    exact hrest

/-- What `device.ring_status` clears: a receive ring's RX_NOBUF (R364). -/
def ringRead (rx : Bool) (q : Nat) (s : State) : State := if rx then modRxRing q (fun x => { x with noBuf := 0 }) s else s

theorem ringRead_sameBut (rx : Bool) (q : Nat) (s : State) : SameBut [.host] s (ringRead rx q s) := by
  cases rx with
  | true => exact modRxRing_sameBut q (fun x => { x with noBuf := 0 }) s
  | false => exact sameBut_refl _ s

theorem ringOf_ringRead (rx : Bool) (q : Nat) (s : State) :
    ringOf rx (ringRead rx q s) q = (if rx then { ringOf rx s q with noBuf := 0 } else ringOf rx s q) := by
  cases rx with
  | true => exact ringOf_setRing true q _ s
  | false => rfl

theorem deviceRingStatus_answers {s : State} {m q : Nat} {rx : Bool} (h : Serves s m 0x0131 1) (hw : (boxOf s m).paramWords = 2)
    (hq : prmN (boxOf s m) 0 = (if rx then 1 else 0) ∧ prmN (boxOf s m) 1 = q ∧ q ≤ 255) :
    Completes (.deviceRingStatus m) s fun t =>
      Answers t m [fieldAt 63 62 (ringCode (ringOf rx s q).state) ||| fieldAt 61 56 (ringOf rx s q).cause ||| fieldAt 47 32 (ringOf rx s q).tail
          ||| fieldAt 31 16 (ringOf rx s q).head ||| fieldAt 15 0 (if rx then ringHeld s q else (ringOf rx s q).accepted),
        fieldAt 63 32 (ringOf rx s q).noBuf]
      ∧ ringOf rx t q = (if rx then { ringOf rx s q with noBuf := 0 } else ringOf rx s q) ∧ DoneAlone m [.host] s t := by
  obtain ⟨hkind, rfl, hq⟩ := hq
  have hrx : (prmN (boxOf s m) 0 == 1) = rx := by rw [hkind]; cases rx <;> rfl
  refine completes_served (o := execDeviceRingStatus m s) (e := ringRead rx (prmN (boxOf s m) 1) s) (ws := [_, _]) rfl rfl h (exactly_of_eq hw) ?_ (by simp)
    fun u hu => ⟨hu.answers, (ringOf_congr (hu.same .host (by decide)) rx _).trans (ringOf_ringRead rx _ s),
      hu.doneAlone (ringRead_sameBut rx _ s) (by decide) (by decide)⟩
  dsimp only
  rw [hrx]
  refine (checked_pass fun c hc => ?_).trans rfl
  simp only [List.mem_cons, List.not_mem_nil, or_false] at hc
  rcases hc with rfl | rfl
  · exact inRange_fst.2 ⟨Nat.zero_le _, by rw [hkind]; split <;> decide⟩
  · exact inRange_fst.2 ⟨Nat.zero_le _, hq⟩

theorem deviceRxSteer_sets {s : State} {m c a r : Nat} (h : Serves s m 0x0132 1) (hw : (boxOf s m).paramWords = 3)
    (hc : prmN (boxOf s m) 0 = c ∧ c ≤ 767 ∧ circuitAvailable s c = true) (ha : prmN (boxOf s m) 1 = a ∧ (1 ≤ a ∧ a ≤ 0xEFF ∨ a = 0xFFF))
    (hr : prmN (boxOf s m) 2 = r ∧ (r ≤ 255 ∨ r = 0xFFF ∨ r = 0xFFFF)) :
    Completes (.deviceRxSteer m) s fun t =>
      Answers t m [] ∧ tabGet none t.host.steer (c * 4096 + a) = (if r ≤ 255 then some r else none)
      ∧ (∀ k, k ≠ c * 4096 + a → tabGet none t.host.steer k = tabGet none s.host.steer k) ∧ { t.host with steer := s.host.steer } = s.host
      ∧ DoneAlone m [.host] s t := by
  obtain ⟨rfl, hc, havail⟩ := hc
  obtain ⟨rfl, ha⟩ := ha
  obtain ⟨rfl, hr⟩ := hr
  refine completes_served (o := execDeviceRxSteer m s) (ws := []) rfl rfl h (exactly_of_eq hw) (checked_pass ?_) (Nat.zero_le _) fun u hu => ?_
  · intro c hmem
    simp only [List.mem_cons, List.not_mem_nil, or_false] at hmem
    rcases hmem with rfl | rfl | rfl | rfl
    · exact inRange_fst.2 ⟨Nat.zero_le _, hc⟩
    · simpa [scalarIs] using ha
    · simpa [scalarIs, or_assoc] using hr
    · exact havail
  · have hhost := hu.same .host (by decide)
    refine ⟨hu.answers, ?_, fun k hk => ?_, ?_, hu.doneAlone (withHost_sameBut _ s) (by decide) (by decide)⟩ <;> rw [hhost]
    · exact tabGet_tabPut_self _ _ _ _
    · exact tabGet_tabPut_ne _ _ _ _ _ hk

/-- The new key made under the next epoch, the endpoints of a set told of it, and the set's rotation to it noted (R420). -/
def keyMade (k epoch : Nat) (s : State) : State :=
  makeKey k epoch (mpWrite 1602 (BitVec.ofNat 64 epoch) { s with sec := { s.sec with epochCount := epoch } })
def keyTold (k start : Nat) (cs : List Nat) (u : State) : State := (activeOf u cs).foldl (fun v ep => sendControl ep (keyUpdateWords v k start) v) u
def keyRotates (k start : Nat) (cs : List Nat) (v : State) : State :=
  { v with sec := { v.sec with rotations := v.sec.rotations ++ [{ circuits := cs, keyIdx := k, startSf := start }] } }

theorem securityCircuitKey_rotates {s : State} {m k epoch : Nat} {cs : List Nat} (h : Serves s m 0x0603 0) (hw : (boxOf s m).paramWords = 13)
    (hact : prmN (boxOf s m) 12 = 1) (hcs : cs = circuitsOf (boxOf s m) 0) (hav : ∀ c ∈ cs, circuitAvailable s c = true)
    (hd : domOn s 28 = true ∧ domOn s 29 = true) (hk : freeKey s = some k) (he : epoch = s.sec.epochCount + 1 ∧ s.sec.epochCount < 4294967295)
    (hworn : worn s 1602 = false) :
    Completes (.securityCircuitKey m) s fun t => Answers t m [BitVec.ofNat 64 epoch]
      ∧ (∃ u v : State, u = makeKey k epoch (mpWrite 1602 (BitVec.ofNat 64 epoch) { s with sec := { s.sec with epochCount := epoch } })
        ∧ v = (activeOf u cs).foldl (fun v ep => sendControl ep (keyUpdateWords v k (s.sf.number + 16)) v) u
        ∧ Leaves s { v with sec := { v.sec with rotations := v.sec.rotations ++ [{ circuits := cs, keyIdx := k, startSf := s.sf.number + 16 }] } } t) := by
  obtain ⟨rfl, hepoch⟩ := he
  have hpass : ChecksPass [inRange (boxOf s m) 12 1 1, csetExists s (boxOf s m) 0, (domOn s 28 && domOn s 29, stResource, 0), ((freeKey s).isSome, stBusy, 0),
      (decide (s.sec.epochCount < 4294967295), 0x21, 0), (!worn s 1602, stWorn, 0)] := by
    intro c hc
    simp only [List.mem_cons, List.not_mem_nil, or_false] at hc
    rcases hc with rfl | rfl | rfl | rfl | rfl | rfl
    · exact inRange_fst.2 ⟨hact.ge, hact.le⟩
    · exact csetExists_fst (hcs ▸ hav)
    · simp [hd]
    · simp [hk]
    · exact decide_eq_true hepoch
    · simp [hworn]
  refine completes_served (o := execSecurityCircuitKey m s)
    (e := keyRotates k (s.sf.number + 16) cs (keyTold k (s.sf.number + 16) cs (keyMade k (s.sec.epochCount + 1) s)))
    (ws := [BitVec.ofNat 64 (s.sec.epochCount + 1)]) rfl rfl h (exactly_of_eq hw) ((checked_pass hpass).trans ?_) (by simp)
    fun u hu => ⟨hu.answers, keyMade k (s.sec.epochCount + 1) s, keyTold k (s.sf.number + 16) cs (keyMade k (s.sec.epochCount + 1) s), rfl, rfl, hu.leaves⟩
  rw [← hcs, hk]
  rfl

/-! The LDPC pool (R240). -/

theorem setDecoder_sameBut (d : Nat) (x : Decoder) (s : State) : SameBut [.ldpc] s (setDecoder d x s) := by
  intro g hg; cases g <;> simp_all [Group.same, setDecoder]

/-- The counts of the decoders of a list read and cleared. -/
def decodersCleared (ds : List Nat) (s : State) : State := ds.foldl (fun t d => setDecoder d { decoderOf t d with decoded := 0 } t) s

theorem decodersCleared_sameBut (ds : List Nat) (s : State) : SameBut [.ldpc] s (decodersCleared ds s) :=
  foldl_sameBut (fun _ _ => setDecoder_sameBut _ _ _) ds s

theorem decodersCleared_depth (ds : List Nat) (s : State) : (decodersCleared ds s).ldpc.depth = s.ldpc.depth := by
  induction ds generalizing s with
  | nil => rfl
  | cons d ds ih => exact ih _

theorem decoderOf_decodersCleared {ds : List Nat} {s : State} {d : Nat} (h : d ∈ ds ∨ (decoderOf s d).decoded = 0) :
    decoderOf (decodersCleared ds s) d = { decoderOf s d with decoded := 0 } := by
  induction ds generalizing s with
  | nil =>
    rcases h with h | h
    · exact absurd h List.not_mem_nil
    · rw [← h]
      rfl
  | cons a ds ih =>
    by_cases ha : d = a
    · subst ha
      have hset := decoderOf_setDecoder d { decoderOf s d with decoded := 0 } s
      have hrest := ih (s := setDecoder d { decoderOf s d with decoded := 0 } s) (.inr (by rw [hset]))
      rw [hset] at hrest
      exact hrest
    · have hset := decoderOf_setDecoder_ne a d { decoderOf s a with decoded := 0 } s ha
      have hrest := ih (s := setDecoder a { decoderOf s a with decoded := 0 } s) (by rw [hset]; simpa [ha] using h)
      rw [hset] at hrest
      exact hrest

theorem ldpcStatus_answers {s : State} {m : Nat} (h : Serves s m 0x0830 0) (hw : (boxOf s m).paramWords = 0) :
    Completes (.ldpcStatus m) s fun t =>
      Answers t m ((List.range 34).flatMap (fun d =>
          [BitVec.ofNat 64 (decCode (decoderOf s d).state), twoCounts (decoderOf s d).decoded 0, bitAt 0 (decoderOf s d).lastOk])
        ++ [BitVec.ofNat 64 s.ldpc.depth])
      ∧ t.ldpc.depth = 0 ∧ (∀ d < 34, decoderOf t d = { decoderOf s d with decoded := 0 }) ∧ DoneAlone m [.ldpc] s t := by
  have hldpc (x : Ldpc) : SameBut [.ldpc] s { s with ldpc := x } := by
    intro g hg; cases g <;> simp_all [Group.same]
  refine completes_served (o := execLdpcStatus m s) (e := decodersCleared (List.range 34) { s with ldpc := { s.ldpc with depth := 0 } })
    (ws := (List.range 34).flatMap (fun d =>
          [BitVec.ofNat 64 (decCode (decoderOf s d).state), twoCounts (decoderOf s d).decoded 0, bitAt 0 (decoderOf s d).lastOk])
        ++ [BitVec.ofNat 64 s.ldpc.depth]) rfl rfl h (noWords_of_eq hw) rfl ?_ fun u hu => ?_
  · rw [List.length_append, length_flatMap_const _ 3 _ fun _ => rfl, List.length_range]
    simp
  · have hpool := hu.same .ldpc (by decide)
    refine ⟨hu.answers, ?_, fun d hd => (decoderOf_congr hpool d).trans (decoderOf_decodersCleared (.inl (List.mem_range.2 hd))),
      hu.doneAlone (((hldpc _).trans (decodersCleared_sameBut _ _)).mono (by simp)) (by decide) (by decide)⟩
    rw [hpool]
    exact decodersCleared_depth _ _

/-- Settles O17: each clause is what one command of the rings, the keys or the pool does where its checks pass. -/
theorem ringsAndKeys : Obligations.RingsAndKeys :=
  ⟨fun _ _ _ _ _ h hb hw hq hbase hsize hwb hmod hxdb hbits hup hst hfree =>
      deviceRingConfig_sets h hb hw hq hbase hsize hwb hmod hxdb hbits hup hst hfree,
    fun _ _ _ _ h hw hq => deviceRingStatus_answers h hw hq, fun _ _ _ _ _ h hw hc ha hr => deviceRxSteer_sets h hw hc ha hr,
    fun _ _ _ _ _ h hw hact hcs hav hd hk he hworn => securityCircuitKey_rotates h hw hact hcs hav hd hk he hworn,
    fun _ _ h hw => ldpcStatus_answers h hw⟩

end Sys2Proof.Machine
end

section
/-! SUPPORT. The baseboard's MCTP requests: words written into and read from a mailbox, doorbells, and the control messages (R396, R397). -/
namespace Sys2Proof.Machine

/-! Words written into a mailbox's data (R378, R379). -/

/-- One data word of a mailbox replaced, and the first `n` of a list from word `off` on. -/
def dataPut (m k : Nat) (v : Word) (s : State) : State := setBox m { boxOf s m with data := tabPut 0 (boxOf s m).data k v } s
def dataWritten (m off : Nat) (ws : List Word) (n : Nat) (s : State) : State :=
  (List.range n).foldl (fun u j => dataPut m (off + j) (ws.getD j 0) u) s

theorem boxOf_dataPut (m k : Nat) (v : Word) (s : State) :
    boxOf (dataPut m k v s) m = { boxOf s m with data := tabPut 0 (boxOf s m).data k v } := boxOf_setBox m _ s
theorem boxOf_dataPut_ne {m q : Nat} (k : Nat) (v : Word) (s : State) (h : q ≠ m) : boxOf (dataPut m k v s) q = boxOf s q := boxOf_setBox_ne m q _ s h

theorem dataWritten_succ (m off : Nat) (ws : List Word) (n : Nat) (s : State) :
    dataWritten m off ws (n + 1) s = dataPut m (off + n) (ws.getD n 0) (dataWritten m off ws n s) := by
  simp [dataWritten, List.range_succ]

theorem dataWritten_sameBut (m off : Nat) (ws : List Word) (n : Nat) (s : State) : SameBut [.mb] s (dataWritten m off ws n s) :=
  foldl_sameBut (fun _ _ => setBox_sameBut _ _ _) _ s

theorem boxOf_dataWritten_ne {m q : Nat} (off : Nat) (ws : List Word) (n : Nat) (s : State) (h : q ≠ m) :
    boxOf (dataWritten m off ws n s) q = boxOf s q := by
  induction n with
  | zero => rfl
  | succ n ih => rw [dataWritten_succ, boxOf_dataPut_ne _ _ _ h, ih]

theorem st_dataWritten (m off : Nat) (ws : List Word) (n : Nat) (s : State) : (boxOf (dataWritten m off ws n s) m).st = (boxOf s m).st := by
  induction n with
  | zero => rfl
  | succ n ih => rw [dataWritten_succ, boxOf_dataPut]; exact ih

theorem data_dataWritten {m off : Nat} {ws : List Word} {n j : Nat} (s : State) (h : j < n) :
    tabGet 0 (boxOf (dataWritten m off ws n s) m).data (off + j) = ws.getD j 0 := by
  induction n with
  | zero => exact absurd h (Nat.not_lt_zero j)
  | succ n ih =>
    rw [dataWritten_succ, boxOf_dataPut]
    rcases Nat.lt_succ_iff_lt_or_eq.1 h with hj | rfl
    · exact (tabGet_tabPut_ne _ _ _ _ _ (by omega)).trans (ih hj)
    · exact tabGet_tabPut_self _ _ _ _

/-- Word `8 + k` of an unlocked mailbox is its data word `k` (R378). -/
theorem mctpWord_data {m k : Nat} {v : Word} {s : State} (hk : k < 120) (h : boxLocked (boxOf s m) = false) : mctpWord m (8 + k) v s = dataPut m k v s := by
  unfold mctpWord boxWrite
  rw [if_neg (by omega)]
  dsimp only
  rw [h, if_neg (by decide), if_neg (by omega), if_pos (by omega), show (8 * (8 + k) - 0x40) / 8 = k by omega]
  rfl

theorem mctpWords_written {m off n : Nat} {ws : List Word} {s : State} (hn : off + n ≤ 120) (h : boxLocked (boxOf s m) = false) :
    (List.range n).foldl (fun u j => mctpWord m (8 + off + j) (ws.getD j 0) u) s = dataWritten m off ws n s := by
  induction n with
  | zero => rfl
  | succ n ih =>
    have hopen : boxLocked (boxOf (dataWritten m off ws n s) m) = false := by
      unfold boxLocked at h ⊢
      rw [st_dataWritten]
      exact h
    rw [List.range_succ, List.foldl_append, ih (by omega), dataWritten_succ]
    refine Eq.trans ?_ (mctpWord_data (by omega) hopen)
    simp [Nat.add_assoc]

theorem readBox_data (b : Mailbox) {k : Nat} (h : k < 120) : readBox b (8 * (8 + k)) = tabGet 0 b.data k := by
  unfold readBox
  rw [if_neg (by omega), if_neg (by omega), if_neg (by omega), if_pos (by omega), show (8 * (8 + k) - 0x40) / 8 = k by omega]

theorem wordsWith_length (f : List Byte → Word) (n : Nat) (bs : List Byte) : (wordsWith f n bs).length = n := by
  induction n generalizing bs with
  | zero => rfl
  | succ n ih => exact congrArg (· + 1) (ih _)

/-! Requests and their responses (R397). -/

theorem toNat_ofNat8 {n : Nat} (h : n < 256) : (BitVec.ofNat 8 n).toNat = n := by simp [Nat.mod_eq_of_lt h]

theorem mctpReply_sameBut (op r : Nat) (ws : List Word) (s : State) : SameBut [.out] s (mctpReply op r ws s) := emit_sameBut _ s

/-- A request's response is sent. -/
theorem mctpReply_sent {op r : Nat} {ws : List Word} {s e t : State} (h : Becomes s (mctpReply op r ws e) t) :
    .mctp (BitVec.ofNat 8 (op % 128 + 128) :: BitVec.ofNat 8 r :: ws.flatMap bytesBE) ∈ t.out :=
  h.2.2.1 _ (by simp [mctpReply, emit])

theorem exec_mctpWrite_ok {s : State} {body : List Byte} (h : mctpResult 1 body s = 0) : exec (.mctpWrite body) s = commit s (mctpReply 1 0 []
    ((List.range (wordsWith wordBE (mctpWords body) (body.drop 4)).length).foldl (fun t i => mctpWord (24 + (body.getD 1 0).toNat)
      ((body.getD 2 0).toNat + i) ((wordsWith wordBE (mctpWords body) (body.drop 4)).getD i 0) t) s)) :=
  congrArg (commit s) (if_neg (by rw [h]; decide))

theorem mctpWrite_leaves {s : State} {body : List Byte} {ws : List Word} (h : mctpResult 1 body s = 0)
    (hws : ws = wordsWith wordBE (mctpWords body) (body.drop 4)) :
    Completes (.mctpWrite body) s fun t => Leaves s (mctpReply 1 0 [] ((List.range ws.length).foldl
      (fun u j => mctpWord (24 + (body.getD 1 0).toNat) ((body.getD 2 0).toNat + j) (ws.getD j 0) u) s)) t := by
  subst hws
  exact completes_of_exec (exec_mctpWrite_ok h) fun t ⟨hsame, _, _, hpending⟩ => ⟨hsame.mono (by simp), hpending⟩

theorem mctpResult_write {s : State} {i off n : Nat} {data : List Byte} (hlen : data.length = 8 * n) (hi : i < 4) (hn : 1 ≤ n ∧ n ≤ 14) (hoff : off + n ≤ 120)
    (hopen : boxLocked (boxOf s (24 + i)) = false) :
    mctpResult 1 ([1, BitVec.ofNat 8 i, BitVec.ofNat 8 (8 + off), BitVec.ofNat 8 n] ++ data) s = 0 := by
  have hwords : mctpWords ([1, BitVec.ofNat 8 i, BitVec.ofNat 8 (8 + off), BitVec.ofNat 8 n] ++ data) = n := toNat_ofNat8 (by omega)
  unfold mctpResult
  rw [hwords]
  have hbox : (24 + (([1, BitVec.ofNat 8 i, BitVec.ofNat 8 (8 + off), BitVec.ofNat 8 n] ++ data).getD 1 0).toNat) = 24 + i :=
    congrArg (24 + ·) (toNat_ofNat8 (by omega))
  have hat : (([1, BitVec.ofNat 8 i, BitVec.ofNat 8 (8 + off), BitVec.ofNat 8 n] ++ data).getD 2 0).toNat = 8 + off := toNat_ofNat8 (by omega)
  dsimp only
  rw [hbox, hat, if_neg, if_neg, if_neg, if_neg]
  · simp [hopen]
  · omega
  · omega
  · simp [hlen]
    omega

theorem mctpWrite_writes {s : State} {i off n : Nat} {data body : List Byte}
    (hbody : body = [1, BitVec.ofNat 8 i, BitVec.ofNat 8 (8 + off), BitVec.ofNat 8 n] ++ data) (hlen : data.length = 8 * n)
    (hrange : i < 4 ∧ 1 ≤ n ∧ n ≤ 14 ∧ off + n ≤ 120) (hopen : boxLocked (boxOf s (24 + i)) = false) :
    Completes (.mctpWrite body) s fun t =>
      (∀ j < n, readBox (boxOf t (24 + i)) (8 * (8 + (off + j))) = (wordsWith wordBE n data).getD j 0)
      ∧ (∀ q, q ≠ 24 + i → boxOf t q = boxOf s q) ∧ Out.mctp [0x81, 0] ∈ t.out ∧ Alone [.mb] s t := by
  subst hbody
  obtain ⟨hi, hn1, hn14, hoff⟩ := hrange
  have hexec := exec_mctpWrite_ok (mctpResult_write hlen hi ⟨hn1, hn14⟩ hoff hopen)
  have hwords : mctpWords ([1, BitVec.ofNat 8 i, BitVec.ofNat 8 (8 + off), BitVec.ofNat 8 n] ++ data) = n := toNat_ofNat8 (by omega)
  have hbox : (24 + (([1, BitVec.ofNat 8 i, BitVec.ofNat 8 (8 + off), BitVec.ofNat 8 n] ++ data).getD 1 0).toNat) = 24 + i :=
    congrArg (24 + ·) (toNat_ofNat8 (by omega))
  have hat : (([1, BitVec.ofNat 8 i, BitVec.ofNat 8 (8 + off), BitVec.ofNat 8 n] ++ data).getD 2 0).toNat = 8 + off := toNat_ofNat8 (by omega)
  have hdata : ([1, BitVec.ofNat 8 i, BitVec.ofNat 8 (8 + off), BitVec.ofNat 8 n] ++ data).drop 4 = data := rfl
  rw [hwords, hbox, hat, hdata, wordsWith_length, mctpWords_written hoff hopen] at hexec
  refine completes_of_exec hexec fun t ht => ?_
  have hmb := ht.1 .mb (by decide)
  refine ⟨fun j hj => ?_, fun q hq => (boxOf_congr hmb q).trans (boxOf_dataWritten_ne _ _ _ s hq), mctpReply_sent ht,
    alone_becomes (alone_of_sameBut (gs := [.mb]) ?_ (by decide)) ht⟩
  · rw [readBox_data _ (by omega), boxOf_congr hmb]
    exact data_dataWritten s hj
  · exact ((dataWritten_sameBut _ _ _ _ s).trans (mctpReply_sameBut _ _ _ _)).mono (by simp)

theorem mctpResult_read {s : State} {i off n : Nat} (h : i < 4 ∧ 1 ≤ n ∧ n ≤ 14 ∧ off + n ≤ 128) :
    mctpResult 2 [2, BitVec.ofNat 8 i, BitVec.ofNat 8 off, BitVec.ofNat 8 n] s = 0 := by
  obtain ⟨hi, hn1, hn14, hoff⟩ := h
  have hwords : mctpWords [2, BitVec.ofNat 8 i, BitVec.ofNat 8 off, BitVec.ofNat 8 n] = n := toNat_ofNat8 (by omega)
  have hbox : (24 + ([2, BitVec.ofNat 8 i, BitVec.ofNat 8 off, BitVec.ofNat 8 n].getD 1 0).toNat) = 24 + i := congrArg (24 + ·) (toNat_ofNat8 (by omega))
  have hat : ([2, BitVec.ofNat 8 i, BitVec.ofNat 8 off, BitVec.ofNat 8 n].getD 2 0).toNat = off := toNat_ofNat8 (by omega)
  unfold mctpResult
  rw [hwords, hbox, hat]
  dsimp only
  rw [if_neg (by simp), if_neg (by omega), if_neg (by omega), if_neg (by simp)]

theorem mctpRead_answers {s : State} {i off n : Nat} (h : i < 4 ∧ 1 ≤ n ∧ n ≤ 14 ∧ off + n ≤ 128) :
    Completes (.mctpRead [2, BitVec.ofNat 8 i, BitVec.ofNat 8 off, BitVec.ofNat 8 n]) s fun t =>
      Out.mctp ([0x82, 0] ++ ((List.range n).map fun j => readBox (boxOf s (24 + i)) (8 * (off + j))).flatMap bytesBE) ∈ t.out ∧ Alone [] s t := by
  have hwords : mctpWords [2, BitVec.ofNat 8 i, BitVec.ofNat 8 off, BitVec.ofNat 8 n] = n := toNat_ofNat8 (by omega)
  have hbox : (24 + ([2, BitVec.ofNat 8 i, BitVec.ofNat 8 off, BitVec.ofNat 8 n].getD 1 0).toNat) = 24 + i := congrArg (24 + ·) (toNat_ofNat8 (by omega))
  have hat : ([2, BitVec.ofNat 8 i, BitVec.ofNat 8 off, BitVec.ofNat 8 n].getD 2 0).toNat = off := toNat_ofNat8 (by omega)
  have hexec : exec (.mctpRead [2, BitVec.ofNat 8 i, BitVec.ofNat 8 off, BitVec.ofNat 8 n]) s = commit s (mctpReply 2 0
      ((List.range (mctpWords [2, BitVec.ofNat 8 i, BitVec.ofNat 8 off, BitVec.ofNat 8 n])).map fun j =>
        readBox (boxOf s (24 + ([2, BitVec.ofNat 8 i, BitVec.ofNat 8 off, BitVec.ofNat 8 n].getD 1 0).toNat))
          (8 * (([2, BitVec.ofNat 8 i, BitVec.ofNat 8 off, BitVec.ofNat 8 n].getD 2 0).toNat + j))) s) :=
    congrArg (commit s) (if_neg (by rw [mctpResult_read h]; decide))
  rw [hwords, hbox, hat] at hexec
  exact completes_of_exec hexec fun t ht => ⟨mctpReply_sent ht, alone_becomes (alone_of_sameBut (mctpReply_sameBut _ _ _ s) (by decide)) ht⟩

theorem mctpDoorbell_acts {s : State} {i : Nat} {act off n : Byte} (hi : i < 4) :
    Completes (.mctpDoorbell [3, BitVec.ofNat 8 i, off, n, act]) s fun t =>
      Out.mctp [0x83, 0] ∈ t.out ∧ SameBut [.irq, .out, .pending] (boxAct (24 + i) (act.toNat % 4) s) t ∧ t.pending = s.pending := by
  have hbox : (24 + ([3, BitVec.ofNat 8 i, off, n, act].getD 1 0).toNat) = 24 + i := congrArg (24 + ·) (toNat_ofNat8 (by omega))
  have hresult : mctpResult 3 [3, BitVec.ofNat 8 i, off, n, act] s = 0 := by
    unfold mctpResult
    rw [hbox]
    dsimp only
    rw [if_neg (by simp), if_neg (by omega), if_neg (by simp), if_neg (by simp)]
  have hexec : exec (.mctpDoorbell [3, BitVec.ofNat 8 i, off, n, act]) s
      = commit s (mctpReply 3 0 [] (boxAct (24 + ([3, BitVec.ofNat 8 i, off, n, act].getD 1 0).toNat) (act.toNat % 4) s)) :=
    congrArg (commit s) (if_neg (by rw [hresult]; decide))
  rw [hbox] at hexec
  exact completes_of_exec hexec fun t ht => ⟨mctpReply_sent ht, ((mctpReply_sameBut _ _ _ _).trans ht.1).mono (by simp), ht.2.2.2⟩

theorem mctp_refused {s : State} {op r : Nat} {body : List Byte} {i : Instr}
    (hop : op = 1 ∧ i = .mctpWrite body ∨ op = 2 ∧ i = .mctpRead body ∨ op = 3 ∧ i = .mctpDoorbell body) (hr : mctpResult op body s = r) (hne : r ≠ 0) :
    Completes i s fun t => Out.mctp [BitVec.ofNat 8 ((body.getD 0 0).toNat % 128 + 128), BitVec.ofNat 8 r] ∈ t.out ∧ Alone [] s t := by
  have hexec : exec i s = commit s (mctpReply (body.getD 0 0).toNat r [] s) := by
    subst hr
    rcases hop with ⟨rfl, rfl⟩ | ⟨rfl, rfl⟩ | ⟨rfl, rfl⟩
    · exact congrArg (commit s) (if_pos hne)
    · exact congrArg (commit s) (if_pos hne)
    · exact congrArg (commit s) (if_pos hne)
  exact completes_of_exec hexec fun t ht => ⟨mctpReply_sent ht, alone_becomes (alone_of_sameBut (mctpReply_sameBut _ _ _ s) (by decide)) ht⟩

/-! Control messages (R396). -/

theorem setEndpointId_stores {s : State} {eid : Nat} (h : eid < 256) : Completes (.setEndpointId eid) s fun t =>
    t.irq.eid = eid ∧ SameBut [.irq, .out] s t ∧ { t.irq with eid := s.irq.eid, msix := s.irq.msix } = s.irq := by
  refine completes_of_exec (e := emit (.mctp (Config.mctpControl 1 [BitVec.ofNat 8 eid])) { s with irq := { s.irq with eid := eid % 256 } }) rfl
    fun t ht => ?_
  have hirq := ht.2.1
  refine ⟨?_, (becomes_same ((withIrq_sameBut _ s).trans (emit_sameBut _ _)) ht).mono (by simp), ?_⟩
  · rw [hirq]
    exact Nat.mod_eq_of_lt h
  · rw [hirq]
    rfl

/-- A control message that is only answered changes nothing but what was sent. -/
theorem completes_mctpAnswer {i : Instr} {s : State} {bs : List Byte} (h : exec i s = commit s (emit (.mctp bs) s)) :
    Completes i s fun t => Out.mctp bs ∈ t.out ∧ Alone [] s t :=
  completes_of_exec h fun _ ht =>
    ⟨ht.2.2.1 _ (by simp [emit]), alone_becomes (alone_of_sameBut (emit_sameBut _ s) (by decide)) ht⟩

/-- Settles O18: the three requests, accepted and refused, and the five control messages. -/
theorem baseboardRequests : Obligations.BaseboardRequests :=
  ⟨fun _ _ _ _ _ _ hbody hlen hrange hopen => mctpWrite_writes hbody hlen hrange hopen, fun _ _ _ h hws => mctpWrite_leaves h hws,
    fun _ _ _ _ h => mctpRead_answers h, fun _ _ _ _ _ hi => mctpDoorbell_acts hi, fun _ _ _ _ _ hop hr hne => mctp_refused hop hr hne,
    fun _ _ h => setEndpointId_stores h, fun _ => completes_mctpAnswer rfl, fun _ => completes_mctpAnswer rfl, fun _ => completes_mctpAnswer rfl,
    fun _ => completes_mctpAnswer rfl⟩

end Sys2Proof.Machine
end

section
/-! SUPPORT. The management cores: the journal, the watchdog's takeover, and the boot of a core from a bank (R376, R377, R400 to R403). -/
namespace Sys2Proof.Machine

/-! Cores in the state. -/

theorem coreOf_congr {s t : State} (h : t.mp = s.mp) (k : Nat) : coreOf t k = coreOf s k := by unfold coreOf; rw [h]

theorem coreOf_setCore (k : Nat) (c : Core) (s : State) : coreOf (setCore k c s) k = c := by
  unfold coreOf setCore
  split <;> rfl

theorem coreOf_setCore_other {k j : Nat} (c : Core) (s : State) (h : k = 0 ↔ j ≠ 0) : coreOf (setCore k c s) j = coreOf s j := by
  unfold coreOf setCore
  by_cases hk : k = 0
  · rw [if_pos hk, if_neg (h.1 hk), if_neg (h.1 hk)]
  · have hj : j = 0 := by by_contra hj; exact hk (h.2 hj)
    rw [if_neg hk, if_pos hj, if_pos hj]

theorem standbyIndex_le (s : State) : standbyIndex s ≤ 1 := by
  unfold standbyIndex
  split <;> omega

theorem withMp_rest (k : Nat) (c : Core) (s : State) (p : Nat) :
    { (setCore k c s).mp with coreA := s.mp.coreA, coreB := s.mp.coreB, journalApplied := p } = { s.mp with journalApplied := p } := by
  unfold setCore
  split <;> rfl

/-- A command that changes the management cores' group alone. -/
theorem completes_withMp {i : Instr} {s : State} {x : Mp} (h : exec i s = commit s { s with mp := x }) :
    Completes i s fun t => t.mp = x ∧ Alone [.mp] s t :=
  completes_of_exec h fun _ ht => ⟨ht.1 .mp (by decide), becomes_alone (withMp_sameBut x s) (by decide) ht⟩

theorem journalEntry_posts {s : State} (h : runningCode s ≠ 0) :
    Completes .journalEntry s fun t =>
      t.mp = { s.mp with journalPosted := s.mp.journalPosted + 1, journalApplied :=
        if (coreOf s (standbyIndex s)).role = .standby ∧ domOn s (standbyIndex s + 1) = true then s.mp.journalPosted + 1 else s.mp.journalApplied }
      ∧ Alone [.mp] s t := completes_withMp (congrArg (commit s) (if_neg h))

/-- The standby READY, with its journal applied (R377). -/
def standbyMadeReady (s : State) : State :=
  let t := setCore (standbyIndex s) { coreOf s (standbyIndex s) with ready := true } s
  { t with mp := { t.mp with journalApplied := s.mp.journalPosted } }

theorem standbyMadeReady_sameBut (s : State) : SameBut [.mp] s (standbyMadeReady s) :=
  ((setCore_sameBut _ _ s).trans (withMp_sameBut _ _)).mono (by simp)

theorem standbyReady_readies {s : State} (h : (coreOf s (standbyIndex s)).role = .standby ∧ domOn s (standbyIndex s + 1) = true) :
    Completes .standbyReady s fun t =>
      coreOf t (standbyIndex s) = { coreOf s (standbyIndex s) with ready := true } ∧ coreOf t (1 - standbyIndex s) = coreOf s (1 - standbyIndex s)
      ∧ t.mp.journalApplied = s.mp.journalPosted ∧ { t.mp with coreA := s.mp.coreA, coreB := s.mp.coreB, journalApplied := s.mp.journalApplied } = s.mp
      ∧ Alone [.mp] s t := by
  have hexec : exec .standbyReady s = commit s (standbyMadeReady s) := congrArg (commit s) (if_pos h)
  refine completes_of_exec hexec fun t ht => ?_
  have hmp := ht.1 .mp (by decide)
  have hle := standbyIndex_le s
  refine ⟨(coreOf_congr hmp _).trans (coreOf_setCore _ _ s), (coreOf_congr hmp _).trans (coreOf_setCore_other _ s (by omega)),
    congrArg Mp.journalApplied hmp, ?_, becomes_alone (standbyMadeReady_sameBut s) (by decide) ht⟩
  rw [hmp]
  exact withMp_rest _ _ s _

theorem watchdogKick_sets (s : State) : Completes .watchdogKick s fun t => t.mp = { s.mp with lastKick := s.clk.now } ∧ Alone [.mp] s t :=
  completes_withMp rfl

/-! The watchdog (R403). -/

/-- The core that runs no longer, after the other took over and its domain was power-cycled; and as the standby that it then is. -/
def failedCore (s : State) : Nat := if runningCode s = 2 then 1 else 0
def takenOver (s : State) : State :=
  powerCycle (failedCore s + 1) (setCore (failedCore s) { coreOf (switchCore 1 s) (failedCore s) with role := .standby, ready := false } (switchCore 1 s))
def failedStandsBy (s : State) : State :=
  setCore (failedCore s) { coreOf (takenOver s) (failedCore s) with role := .standby, bank := bootBank (takenOver s) } (takenOver s)

theorem exec_watchdog_ready {s : State} (h : runningCode s ≠ 0 ∧ s.mp.lastKick + 50000 ≤ s.clk.now) (hready : standbyReady s = true) :
    exec .watchdogExpiry s = commit s (match s.mp.armed with
      | some a => raise 0x0061 (1 - bootBank (raise 0x0060 (failedCore s + 1) (failedStandsBy s))) (beginTrial a.source
          { raise 0x0060 (failedCore s + 1) (failedStandsBy s) with mp := { (raise 0x0060 (failedCore s + 1) (failedStandsBy s)).mp with armed := none } })
      | none => if inTrial s then endOfTrial (raise 0x0060 (failedCore s + 1) (failedStandsBy s)) else raise 0x0060 (failedCore s + 1) (failedStandsBy s)) :=
by
  have hdue : ¬(runningCode s = 0 ∨ s.clk.now < s.mp.lastKick + 50000) := by omega
  exact congrArg (commit s) ((if_neg hdue).trans ((if_pos hready).trans (by cases s.mp.armed <;> rfl)))

/-- The failed core boots again as the running core: its work ends, and its domain is power-cycled (R403). -/
def coreDropped (s : State) : State := cancelRunning (dropAdmitting (aeadCoreLost (failedCore s + 1) s))
def coreReboots (s : State) : State :=
  powerCycle (failedCore s + 1) { coreDropped s with mp := { (coreDropped s).mp with serving := false, runner := failedCore s, lastKick := (coreDropped s).clk.now } }

theorem exec_watchdog_alone {s : State} (h : runningCode s ≠ 0 ∧ s.mp.lastKick + 50000 ≤ s.clk.now) (hready : standbyReady s = false) :
    exec .watchdogExpiry s = commit s (if inTrial s then endOfTrial (coreReboots s) else coreReboots s) := by
  have hdue : ¬(runningCode s = 0 ∨ s.clk.now < s.mp.lastKick + 50000) := by omega
  have hnone : ¬standbyReady s = true := by simp [hready]
  show execWatchdogExpiry s = _
  unfold execWatchdogExpiry
  dsimp only
  rw [if_neg hdue, if_neg hnone]
  unfold coreReboots coreDropped failedCore
  rfl

theorem becomes_leaves {s e t : State} (h : Becomes s e t) : Leaves s e t := ⟨h.1.mono (by simp), h.2.2.2⟩

theorem watchdogExpiry_takesOver {s : State} {old : Nat} (h : runningCode s ≠ 0 ∧ s.mp.lastKick + 50000 ≤ s.clk.now) (hready : standbyReady s = true)
    (hplain : s.mp.armed = none ∧ inTrial s = false) (hold : old = (if runningCode s = 2 then 1 else 0)) :
    Completes .watchdogExpiry s fun t => ∃ u,
      u = powerCycle (old + 1) (setCore old { coreOf (switchCore 1 s) old with role := .standby, ready := false } (switchCore 1 s))
      ∧ ∃ v, v = setCore old { coreOf u old with role := .standby, bank := bootBank u } u
      ∧ Logged 0x0060 (old + 1) v t ∧ SameBut [.irq, .out, .pending, .mem] v t ∧ t.pending = s.pending := by
  subst hold
  have hexec := exec_watchdog_ready h hready
  rw [hplain.1, hplain.2] at hexec
  exact completes_of_exec hexec fun t ht => ⟨takenOver s, rfl, failedStandsBy s, rfl, raise_logged _ _ ht.2.1,
    ((raise_sameBut _ _ _).trans ht.1).mono (by simp), ht.2.2.2⟩

theorem watchdogExpiry_handsOver {s : State} {old : Nat} {a : FwArmed} (h : runningCode s ≠ 0 ∧ s.mp.lastKick + 50000 ≤ s.clk.now)
    (hready : standbyReady s = true) (harmed : s.mp.armed = some a) (hold : old = (if runningCode s = 2 then 1 else 0)) :
    Completes .watchdogExpiry s fun t => ∃ u,
      u = powerCycle (old + 1) (setCore old { coreOf (switchCore 1 s) old with role := .standby, ready := false } (switchCore 1 s))
      ∧ ∃ v, v = raise 0x0060 (old + 1) (setCore old { coreOf u old with role := .standby, bank := bootBank u } u)
      ∧ Leaves s (raise 0x0061 (1 - bootBank v) (beginTrial a.source { v with mp := { v.mp with armed := none } })) t := by
  subst hold
  have hexec := exec_watchdog_ready h hready
  rw [harmed] at hexec
  exact completes_of_exec hexec fun t ht => ⟨takenOver s, rfl, raise 0x0060 (failedCore s + 1) (failedStandsBy s), rfl, becomes_leaves ht⟩

theorem watchdogExpiry_endsTrial {s : State} {old : Nat} (h : runningCode s ≠ 0 ∧ s.mp.lastKick + 50000 ≤ s.clk.now) (hready : standbyReady s = true)
    (htrial : s.mp.armed = none ∧ inTrial s = true) (hold : old = (if runningCode s = 2 then 1 else 0)) :
    Completes .watchdogExpiry s fun t => ∃ u,
      u = powerCycle (old + 1) (setCore old { coreOf (switchCore 1 s) old with role := .standby, ready := false } (switchCore 1 s))
      ∧ ∃ v, v = raise 0x0060 (old + 1) (setCore old { coreOf u old with role := .standby, bank := bootBank u } u)
      ∧ Leaves s (endOfTrial v) t := by
  subst hold
  have hexec := exec_watchdog_ready h hready
  rw [htrial.1, htrial.2] at hexec
  exact completes_of_exec hexec fun t ht => ⟨takenOver s, rfl, raise 0x0060 (failedCore s + 1) (failedStandsBy s), rfl, becomes_leaves ht⟩

theorem watchdogExpiry_boots {s : State} {old : Nat} (h : runningCode s ≠ 0 ∧ s.mp.lastKick + 50000 ≤ s.clk.now) (hready : standbyReady s = false)
    (hold : old = (if runningCode s = 2 then 1 else 0)) :
    Completes .watchdogExpiry s fun t => ∃ u v,
      u = cancelRunning (dropAdmitting (aeadCoreLost (old + 1) s))
      ∧ v = powerCycle (old + 1) { u with mp := { u.mp with serving := false, runner := old, lastKick := u.clk.now } }
      ∧ Leaves s (if inTrial s = true then endOfTrial v else v) t := by
  subst hold
  exact completes_of_exec (exec_watchdog_alone h hready) fun t ht => ⟨coreDropped s, coreReboots s, rfl, rfl, becomes_leaves ht⟩

/-! The boot (R376, R400). -/

/-- A bank that passes R399 and holds an image. -/
def bankGood (aOk bOk : Bool) (s : State) (b : Nat) : Bool :=
  (if b = 0 then aOk else bOk) && (bankOf s b).state != .empty && (bankOf s b).state != .invalid

/-- Core k, and the other where it is on, boot from a bank, and core k serves. -/
def bankStarted (k b : Nat) (s : State) : State :=
  let t := setCore k { coreOf s k with role := .running, ready := false, bank := b, fromStage := false, image := (bankOf s b).image } s
  let t := if domOn t (1 - k + 1) then
    setCore (1 - k) { coreOf t (1 - k) with role := .standby, ready := false, bank := b, image := (bankOf s b).image } t else t
  { t with mp := { t.mp with serving := true, lastKick := t.clk.now } }

theorem bankStarted_sameBut (k b : Nat) (s : State) : SameBut [.mp] s (bankStarted k b s) := by
  unfold bankStarted
  dsimp only
  split
  · exact (((setCore_sameBut _ _ s).trans (setCore_sameBut _ _ _)).trans (withMp_sameBut _ _)).mono (by simp)
  · exact ((setCore_sameBut _ _ s).trans (withMp_sameBut _ _)).mono (by simp)

theorem exec_bootDone {aOk bOk : Bool} {s : State} (hserving : s.mp.serving = false) (hon : domOn s (s.mp.runner + 1) = true) :
    exec (.mpBootDone aOk bOk) s = commit s (
      if bankGood aOk bOk s (bootBank s) then bankStarted s.mp.runner (bootBank s) s
      else if bankGood aOk bOk s (1 - bootBank s) then raise 0x0062 (bootBank s) (bankStarted s.mp.runner (1 - bootBank s) s)
      else
        let t := setCore 1 { coreOf s 1 with role := .off, ready := false } (setCore 0 { coreOf s 0 with role := .romLoader, ready := false } s)
        { t with mp := { t.mp with serving := true, runner := 0, lastKick := t.clk.now } }) :=
  congrArg (commit s) (if_neg (by simp [hserving, hon]))

theorem bankGood_of {aOk bOk : Bool} {s : State} {b : Nat} (hok : (if b = 0 then aOk else bOk) = true) (hempty : (bankOf s b).state ≠ .empty)
    (hinvalid : (bankOf s b).state ≠ .invalid) : bankGood aOk bOk s b = true := by simp [bankGood, hok, hempty, hinvalid]

theorem bankBad_of {aOk bOk : Bool} {s : State} {b : Nat}
    (h : (if b = 0 then aOk else bOk) = false ∨ (bankOf s b).state = .empty ∨ (bankOf s b).state = .invalid) : bankGood aOk bOk s b = false := by
  rcases h with h | h | h <;> simp [bankGood, h]

/-- What a core that boots from a bank leaves of the two cores. -/
theorem cores_bankStarted {k : Nat} (b : Nat) (s : State) (hk : k < 2) :
    coreOf (bankStarted k b s) k = { coreOf s k with role := .running, ready := false, bank := b, fromStage := false, image := (bankOf s b).image }
    ∧ coreOf (bankStarted k b s) (1 - k)
      = (if domOn s (2 - k) = true then { coreOf s (1 - k) with role := .standby, ready := false, bank := b, image := (bankOf s b).image }
         else coreOf s (1 - k)) := by
  have hother : coreOf (setCore k { coreOf s k with role := .running, ready := false, bank := b, fromStage := false, image := (bankOf s b).image } s) (1 - k)
      = coreOf s (1 - k) := coreOf_setCore_other _ s (by omega)
  have hdom : domOn (setCore k { coreOf s k with role := .running, ready := false, bank := b, fromStage := false, image := (bankOf s b).image } s) (1 - k + 1)
      = domOn s (2 - k) := by
    rw [show 1 - k + 1 = 2 - k by omega]
    unfold domOn domOf
    rw [setCore_pwr]
  unfold bankStarted
  dsimp only
  rw [hdom, hother]
  split
  · exact ⟨(coreOf_setCore_other _ _ (by omega)).trans (coreOf_setCore k _ s), coreOf_setCore _ _ _⟩
  · exact ⟨coreOf_setCore k _ s, hother⟩

theorem mp_bankStarted (k b : Nat) (s : State) : (bankStarted k b s).mp.serving = true ∧ (bankStarted k b s).mp.runner = s.mp.runner
    ∧ (bankStarted k b s).mp.lastKick = s.clk.now := by
  have hrunner : ∀ (j : Nat) (c : Core) (t : State), (setCore j c t).mp.runner = t.mp.runner := by
    intro j c t
    unfold setCore
    split <;> rfl
  unfold bankStarted
  dsimp only
  split <;> simp [hrunner]

theorem mpBootDone_boots {aOk bOk : Bool} {s : State} {k want bank : Nat} (hserving : s.mp.serving = false)
    (hk : k = s.mp.runner ∧ k < 2 ∧ domOn s (k + 1) = true) (hwant : want = bootBank s)
    (hbank : bank = want ∨ bank = 1 - want ∧ ((if want = 0 then aOk else bOk) = false ∨ (bankOf s want).state = .empty ∨ (bankOf s want).state = .invalid))
    (hgood : (if bank = 0 then aOk else bOk) = true ∧ (bankOf s bank).state ≠ .empty ∧ (bankOf s bank).state ≠ .invalid) :
    Completes (.mpBootDone aOk bOk) s fun t =>
      coreOf t k = { coreOf s k with role := .running, ready := false, bank := bank, fromStage := false, image := (bankOf s bank).image }
      ∧ coreOf t (1 - k) = (if domOn s (2 - k) = true then { coreOf s (1 - k) with role := .standby, ready := false, bank := bank, image := (bankOf s bank).image }
                            else coreOf s (1 - k))
      ∧ t.mp.serving = true ∧ t.mp.runner = k ∧ t.mp.lastKick = s.clk.now
      ∧ (bank ≠ want → Logged 0x0062 want s t) ∧ (bank = want → t.irq.log = s.irq.log)
      ∧ SameBut [.mp, .irq, .out, .mem] s t := by
  obtain ⟨rfl, hk2, hon⟩ := hk
  subst hwant
  have hexec := exec_bootDone (aOk := aOk) (bOk := bOk) hserving hon
  have hgood := bankGood_of hgood.1 hgood.2.1 hgood.2.2
  have hframe := bankStarted_sameBut s.mp.runner bank s
  obtain ⟨hself, hother⟩ := cores_bankStarted bank s hk2
  obtain ⟨hserves, hrunner, hkick⟩ := mp_bankStarted s.mp.runner bank s
  by_cases hsame : bank = bootBank s
  · subst hsame
    rw [if_pos hgood] at hexec
    refine completes_of_exec hexec fun t ht => ?_
    have hmp := ht.1 .mp (by decide)
    have hlog : t.irq.log = (bankStarted s.mp.runner (bootBank s) s).irq.log := by
      rw [ht.2.1]
    refine ⟨(coreOf_congr hmp _).trans hself, (coreOf_congr hmp _).trans hother, ?_, ?_, ?_, fun hne => absurd rfl hne, fun _ => ?_,
      (becomes_same hframe ht).mono (by simp)⟩
    · rw [hmp, hserves]
    · rw [hmp, hrunner]
    · rw [hmp, hkick]
    · rw [hlog, hframe .irq (by decide)]
  · obtain ⟨rfl, hbad⟩ := hbank.resolve_left hsame
    rw [if_neg (by simp [bankBad_of hbad]), if_pos hgood] at hexec
    refine completes_of_exec hexec fun t ht => ?_
    have hmp := (ht.1 .mp (by decide)).trans (raise_sameBut _ _ _ .mp (by decide))
    refine ⟨(coreOf_congr hmp _).trans hself, (coreOf_congr hmp _).trans hother, ?_, ?_, ?_,
      fun _ => logged_congr (hframe .irq (by decide)) (hframe .clk (by decide)) (raise_logged _ _ ht.2.1), fun heq => absurd heq hsame,
      (becomes_same (hframe.trans (raise_sameBut _ _ _)) ht).mono (by simp)⟩
    · rw [hmp, hserves]
    · rw [hmp, hrunner]
    · rw [hmp, hkick]

theorem mpBootDone_romLoader {aOk bOk : Bool} {s : State} {k : Nat} (hserving : s.mp.serving = false) (hk : k = s.mp.runner ∧ domOn s (k + 1) = true)
    (ha : aOk = false ∨ s.mp.bankA.state = .empty ∨ s.mp.bankA.state = .invalid) (hb : bOk = false ∨ s.mp.bankB.state = .empty ∨ s.mp.bankB.state = .invalid) :
    Completes (.mpBootDone aOk bOk) s fun t =>
      t.mp = { s.mp with coreA := { s.mp.coreA with role := .romLoader, ready := false }, coreB := { s.mp.coreB with role := .off, ready := false },
                         serving := true, runner := 0, lastKick := s.clk.now }
      ∧ Alone [.mp] s t := by
  obtain ⟨rfl, hon⟩ := hk
  have hbad : ∀ b, bankGood aOk bOk s b = false := by
    intro b
    by_cases h0 : b = 0
    · exact bankBad_of (by simpa [h0, bankOf] using ha)
    · exact bankBad_of (by simpa [h0, bankOf] using hb)
  have hexec := exec_bootDone (aOk := aOk) (bOk := bOk) hserving hon
  rw [if_neg (by simp [hbad]), if_neg (by simp [hbad])] at hexec
  exact completes_withMp hexec

/-- Settles O19: the journal and the watchdog's kick, the three takeovers, and the boot of a core. -/
theorem coresAndWatchdog : Obligations.CoresAndWatchdog :=
  ⟨fun _ h => journalEntry_posts h, fun _ h => standbyReady_readies h, fun s => watchdogKick_sets s,
    fun _ _ h hready hplain hold => watchdogExpiry_takesOver h hready hplain hold,
    fun _ _ _ h hready harmed hold => watchdogExpiry_handsOver h hready harmed hold,
    fun _ _ h hready htrial hold => watchdogExpiry_endsTrial h hready htrial hold, fun _ _ h hready hold => watchdogExpiry_boots h hready hold,
    fun _ _ _ _ _ _ hserving hk hwant hbank hgood => mpBootDone_boots hserving hk hwant hbank hgood,
    fun _ _ _ _ hserving hk ha hb => mpBootDone_romLoader hserving hk ha hb⟩

end Sys2Proof.Machine
end

section
/-! SUPPORT. The resets of `device.reset`, and the requests of `power.domain_set` that change a domain's state (R388, R450, R493). -/
namespace Sys2Proof.Machine

/-! What a lost core leaves of the rest (R403, R407). -/

theorem aeadFail_sameBut (a : AeadRun) (result : Nat) (s : State) : SameBut [.aead, .irq, .mem, .out] s (aeadFail a result s) :=
  ((aeadOutput_sameBut a.requester a.port.dst (List.replicate (aeadOutLen a.port) 0) s).trans (aeadEnd_leaves a result 0 _).1).mono (by simp)

theorem aeadCoreLost_sameBut (r : Nat) (s : State) : SameBut [.aead, .irq, .mem, .out] s (aeadCoreLost r s) := by
  have hpass : ∀ t : State, SameBut [.aead] t (if t.aead.owner = r then lockFree t else t) := fun t => by
    split
    · exact lockFree_sameBut t
    · exact sameBut_refl _ t
  unfold aeadCoreLost
  split
  · cases s.aead.run with
    | none => exact (hpass s).mono (by simp)
    | some a => exact ((aeadFail_sameBut a 0x04 s).trans (hpass _)).mono (by simp)
  · exact (withAead_sameBut _ s).mono (by simp)

theorem dropAdmitting_sameBut (s : State) : SameBut [.plan] s (dropAdmitting s) := by
  unfold dropAdmitting
  split
  · exact withPlan_sameBut _ s
  · exact sameBut_refl _ s

/-! RUNNING mailboxes cancelled (R380). -/

/-- One mailbox cancelled where it is RUNNING, and all those of a list. -/
def cancelOne (t : State) (m : Nat) : State := if (boxOf t m).st = .running then finish m 0x02 0 [] t else t
def cancelAll (ms : List Nat) (s : State) : State := ms.foldl cancelOne s

theorem boxOf_cancelOne_ne {m n : Nat} (s : State) (h : n ≠ m) : boxOf (cancelOne s m) n = boxOf s n := by
  unfold cancelOne
  split
  · exact boxOf_finish_ne m n _ _ _ s h
  · rfl

/-- A mailbox that is not RUNNING is not cancelled, and one that is ends DONE with CANCELLED. -/
theorem boxOf_cancelAll_idle {n : Nat} {ms : List Nat} {s : State} (h : (boxOf s n).st ≠ .running) : boxOf (cancelAll ms s) n = boxOf s n := by
  induction ms generalizing s with
  | nil => rfl
  | cons a ms ih =>
    have hone : boxOf (cancelOne s a) n = boxOf s n := by
      by_cases ha : n = a
      · subst ha
        exact congrArg (boxOf · n) (if_neg h)
      · exact boxOf_cancelOne_ne s ha
    exact (ih (s := cancelOne s a) (by rw [hone]; exact h)).trans hone

theorem boxOf_cancelAll_running {n : Nat} {ms : List Nat} {s : State} (hn : n ∈ ms) (h : (boxOf s n).st = .running) :
    (boxOf (cancelAll ms s) n).st = .done ∧ (boxOf (cancelAll ms s) n).status = stCancelled := by
  induction ms generalizing s with
  | nil => exact absurd hn List.not_mem_nil
  | cons a ms ih =>
    by_cases ha : n = a
    · subst ha
      have hone : boxOf (cancelOne s n) n = boxOf (finish n 0x02 0 [] s) n := congrArg (boxOf · n) (if_pos h)
      have hdone : (boxOf (cancelOne s n) n).st = .done ∧ (boxOf (cancelOne s n) n).status = stCancelled := by
        rw [hone, boxOf_finish]
        exact ⟨rfl, rfl⟩
      have hrest := boxOf_cancelAll_idle (ms := ms) (s := cancelOne s n) (n := n) (by rw [hdone.1]; decide)
      exact ⟨(congrArg Mailbox.st hrest).trans hdone.1, (congrArg Mailbox.status hrest).trans hdone.2⟩
    · exact ih (s := cancelOne s a) ((List.mem_cons.1 hn).resolve_left ha) (by rw [boxOf_cancelOne_ne s ha]; exact h)

/-! `device.reset` (R388, R493). -/

/-- The checks of `device.reset` in scope `k`. -/
theorem resetChecks_pass {s : State} {b : Mailbox} {k : Nat} (hk : 1 ≤ k ∧ k ≤ 3) (hp : prmN b 0 = k ∧ prm b 1 = 0x52455345)
    (hidle : updateInProgress s = false) :
    ChecksPass [inRange b 0 1 3, (prm b 1 == 0x52455345, stRange, 1), (!updateInProgress s, stState, 0)] := by
  intro c hc
  simp only [List.mem_cons, List.not_mem_nil, or_false] at hc
  rcases hc with rfl | rfl | rfl
  · exact inRange_fst.2 (by omega)
  · simp [hp.2]
  · simp [hidle]

/-- The mailbox command of `device.reset`, and what the whole command makes of the state it ends in. -/
def resetReply (scope : Nat) (s : State) (b : Mailbox) : Reply :=
  checked [inRange b 0 1 3, (prm b 1 == 0x52455345, stRange, 1), (!updateInProgress s, stState, 0)] s
    (okay [] (if scope = 1 then restartStandby s else s))

theorem exec_deviceReset {s u : State} {m : Nat} (h : Serves s m 0x0104 0) (hu : Answers u m [])
    (hnext : mailboxCommand 0x0104 0 (exactly 2) m s (resetReply (prmN (boxOf s m) 0) s) = .next u) :
    exec (.deviceReset m) s = (if prmN (boxOf s m) 0 = 3 then commit s (releaseReset (takeReset u))
      else if prmN (boxOf s m) 0 = 2 then commit s (restartCores u) else .next u) := by
  obtain ⟨hm, hrun, hop, -⟩ := h
  have hserved : m < 28 ∧ (boxOf s m).st = .running ∧ (boxOf s m).opcode = 0x0104 ∧ (boxOf u m).status = 0 := ⟨hm, hrun, hop, hu.2.1⟩
  show execDeviceReset m s = _
  unfold execDeviceReset
  dsimp only
  unfold resetReply at hnext
  rw [hnext]
  exact if_pos hserved

theorem deviceReset_served {s : State} {m k : Nat} (h : Serves s m 0x0104 0) (hw : (boxOf s m).paramWords = 2) (hk : 1 ≤ k ∧ k ≤ 3)
    (hp : prmN (boxOf s m) 0 = k ∧ prm (boxOf s m) 1 = 0x52455345) (hidle : updateInProgress s = false) :
    ∃ u, Served m [] s (if k = 1 then restartStandby s else s) u
      ∧ exec (.deviceReset m) s = (if k = 3 then commit s (releaseReset (takeReset u)) else if k = 2 then commit s (restartCores u) else .next u) := by
  obtain ⟨u, hnext, hu⟩ := served_next (body := resetReply (prmN (boxOf s m) 0) s) (ws := []) h (exactly_of_eq hw)
    (checked_pass (resetChecks_pass hk hp hidle)) (Nat.zero_le _)
  have hexec := exec_deviceReset h hu.answers hnext
  rw [hp.1] at hu hexec
  exact ⟨u, hu, hexec⟩

theorem deviceReset_standby {s : State} {m : Nat} (h : Serves s m 0x0104 0) (hw : (boxOf s m).paramWords = 2)
    (hp : prmN (boxOf s m) 0 = 1 ∧ prm (boxOf s m) 1 = 0x52455345) (hidle : updateInProgress s = false) :
    Completes (.deviceReset m) s fun t => Answers t m [] ∧ t.mp = (restartStandby s).mp ∧ DoneAlone m [.mp] s t := by
  obtain ⟨u, hu, hexec⟩ := deviceReset_served h hw (by decide) hp hidle
  exact ⟨u, hexec, hu.answers, hu.same .mp (by decide), hu.doneAlone (restartStandby_sameBut s) (by decide) (by decide)⟩

/-- The state that the restart of both cores starts from, before RUNNING mailboxes are cancelled. -/
def coresLost (u : State) : State := dropAdmitting (aeadCoreLost (runningCode u) u)

theorem coresLost_mb (u : State) : (coresLost u).mb = u.mb :=
  (dropAdmitting_sameBut _ .mb (by decide)).trans (aeadCoreLost_sameBut _ u .mb (by decide))

theorem cancelRunning_eq (s : State) : cancelRunning s = cancelAll (List.range 32) s := by
  unfold cancelRunning cancelAll
  rfl

theorem boxOf_restartCores (u : State) (n : Nat) : boxOf (restartCores u) n = boxOf (cancelAll (List.range 32) (coresLost u)) n := by
  have hmb : (restartCores u).mb = (cancelRunning (coresLost u)).mb := by
    unfold restartCores coresLost
    dsimp only
    exact restartStandby_sameBut _ .mb (by decide)
  rw [boxOf_congr hmb, cancelRunning_eq]

theorem deviceReset_cores {s : State} {m : Nat} (h : Serves s m 0x0104 0) (hw : (boxOf s m).paramWords = 2)
    (hp : prmN (boxOf s m) 0 = 2 ∧ prm (boxOf s m) 1 = 0x52455345) (hidle : updateInProgress s = false) :
    Completes (.deviceReset m) s fun t => ∃ u, Answers u m [] ∧ DoneAlone m [] s u ∧ Becomes s (restartCores u) t ∧ t.mp.serving = false ∧ Answers t m []
      ∧ ∀ n, n < 32 → n ≠ m → (boxOf s n).st = .running → (boxOf t n).st = .done ∧ (boxOf t n).status = stCancelled := by
  obtain ⟨u, hu, hexec⟩ := deviceReset_served h hw (by decide) hp hidle
  refine completes_of_exec (e := restartCores u) hexec fun t ht => ⟨u, hu.answers, hu.doneAlone (sameBut_refl [] s) (by decide) (by decide), ht, ?_, ?_,
    fun n hn hne hrun => ?_⟩
  · rw [ht.1 .mp (by decide)]
    rfl
  · have hlost : boxOf (coresLost u) m = boxOf u m := boxOf_congr (coresLost_mb u) m
    have hbox : boxOf t m = boxOf u m := by
      rw [boxOf_congr (ht.1 .mb (by decide)), boxOf_restartCores, boxOf_cancelAll_idle, hlost]
      rw [hlost, hu.answers.1]
      decide
    have ha := hu.answers
    unfold Answers at ha ⊢
    rw [hbox]
    exact ha
  · rw [boxOf_congr (ht.1 .mb (by decide)), boxOf_restartCores]
    refine boxOf_cancelAll_running (List.mem_range.2 hn) ?_
    rw [boxOf_congr (coresLost_mb u), hu.other n hne]
    exact hrun

theorem deviceReset_device {s : State} {m : Nat} (h : Serves s m 0x0104 0) (hw : (boxOf s m).paramWords = 2)
    (hp : prmN (boxOf s m) 0 = 3 ∧ prm (boxOf s m) 1 = 0x52455345) (hidle : updateInProgress s = false) :
    Completes (.deviceReset m) s fun t => ∃ u, Answers u m [] ∧ DoneAlone m [] s u ∧ Becomes s (releaseReset (takeReset u)) t
      ∧ t.clk.tick = 0 ∧ t.pins.resetReleased = true ∧ t.tku.state = .acquire := by
  obtain ⟨u, hu, hexec⟩ := deviceReset_served h hw (by decide) hp hidle
  refine completes_of_exec (e := releaseReset (takeReset u)) hexec fun t ht =>
    ⟨u, hu.answers, hu.doneAlone (sameBut_refl [] s) (by decide) (by decide), ht, ?_, ?_, ?_⟩
  · rw [ht.1 .clk (by decide)]
    rfl
  · rw [ht.1 .pins (by decide)]
    rfl
  · rw [ht.1 .tku (by decide)]
    rfl

/-! `power.domain_set` (R450). -/

theorem withPwr_sameBut (x : Power) (s : State) : SameBut [.pwr] s { s with pwr := x } := by
  intro g hg; cases g <;> simp_all [Group.same]
theorem setDom_sameBut (d : Nat) (x : Dom) (s : State) : SameBut [.pwr] s (setDom d x s) := withPwr_sameBut _ s

/-- A request that is accepted leaves what it makes of the state. -/
theorem completes_powerRequest {gs : List Group} {s e : State} {m d act : Nat} {P : State → Prop} (h : Serves s m 0x0901 0)
    (hw : (boxOf s m).paramWords = 2) (hp : prmN (boxOf s m) 0 = d ∧ d ≤ 29 ∧ prmN (boxOf s m) 1 = act) (hact : 1 ≤ act ∧ act ≤ 2)
    (hr : powerRequest d (act == 1) s = (0, e)) (he : SameBut gs s e) (hmb : Group.mb ∉ gs) (hirq : Group.irq ∉ gs)
    (hP : ∀ t, Answers t m [] → t.pwr = e.pwr → DoneAlone m gs s t → P t) : Completes (.powerDomainSet m) s P := by
  obtain ⟨rfl, hd, rfl⟩ := hp
  refine completes_served (o := execPowerDomainSet m s) (e := e) (ws := []) rfl rfl h (exactly_of_eq hw) ((checked_pass ?_).trans ?_) (Nat.zero_le _)
    fun u hu => hP u hu.answers (hu.same .pwr (by decide)) (hu.doneAlone he hmb hirq)
  · intro c hc
    simp only [List.mem_cons, List.not_mem_nil, or_false] at hc
    rcases hc with rfl | rfl
    · exact inRange_fst.2 ⟨Nat.zero_le _, hd⟩
    · exact inRange_fst.2 hact
  · dsimp only
    rw [hr]
    rfl

/-- A domain's own record changed, with what the sequencer then holds. -/
theorem completes_domainChange {s e : State} {m d act : Nat} {x : Dom} {w : Option Nat} {q : List (Nat × Bool)} (h : Serves s m 0x0901 0)
    (hw : (boxOf s m).paramWords = 2) (hp : prmN (boxOf s m) 0 = d ∧ d ≤ 29 ∧ prmN (boxOf s m) 1 = act) (hact : 1 ≤ act ∧ act ≤ 2)
    (hr : powerRequest d (act == 1) s = (0, e)) (he : e = { setDom d x s with pwr := { (setDom d x s).pwr with switching := w, waiting := q } }) :
    Completes (.powerDomainSet m) s fun t => Answers t m [] ∧ domOf t d = x ∧ (∀ f, f ≠ d → domOf t f = domOf s f) ∧ t.pwr.switching = w
      ∧ t.pwr.waiting = q ∧ DoneAlone m [.pwr] s t := by
  subst he
  refine completes_powerRequest h hw hp hact hr (withPwr_sameBut _ s) (by decide) (by decide) fun t ha hpwr hdone => ⟨ha, ?_, fun f hf => ?_, ?_, ?_, hdone⟩
  · exact (domOf_congr hpwr d).trans (domOf_setDom d x s)
  · exact (domOf_congr hpwr f).trans (domOf_setDom_ne d f x s hf)
  · rw [hpwr]
  · rw [hpwr]

/-- Settles O5: the three scopes of a reset, then the rows of R450. -/
theorem systemCommands : Obligations.SystemCommands := by
  refine ⟨fun _ _ h hw hp hidle => deviceReset_standby h hw hp hidle, fun _ _ h hw hp hidle => deviceReset_cores h hw hp hidle,
    fun _ _ h hw hp hidle => deviceReset_device h hw hp hidle, fun s m d h hw hp hseq hcyc hst => ?_, fun s m d h hw hp hseq hcyc hst => ?_,
    fun s m d h hw hp hseq hcyc ⟨hst, hpend, hsw, hq⟩ => ?_, fun s m d h hw hp hseq hcyc ⟨hst, hpend, hbusy⟩ => ?_, fun s m d h hw hp hseq hcyc hst => ?_,
    fun s m d h hw hp hseq hcyc ⟨hst, hdown⟩ => ?_, fun s m d h hw hp hseq hcyc ⟨hst, hdown⟩ => ?_⟩
  · refine completes_powerRequest (gs := []) (e := s) h hw hp (by decide) ?_ (sameBut_refl _ s) (by decide) (by decide) fun t ha _ hdone => ⟨ha, hdone⟩
    rcases hst with hst | ⟨hst, hpend⟩
    · simp [powerRequest, hseq, hcyc, hst]
    · simp [powerRequest, hseq, hcyc, hst, hpend]
  · refine completes_powerRequest (gs := []) (e := s) h hw hp (by decide) ?_ (sameBut_refl _ s) (by decide) (by decide) fun t ha _ hdone => ⟨ha, hdone⟩
    obtain ⟨hst | hst, hpend⟩ := hst <;> simp [powerRequest, hseq, hcyc, hst, hpend]
  · have hfree : seqFree s = true := by simp [seqFree, hseq, hsw, hq]
    refine completes_domainChange (e := beginUp d s) h hw hp (by decide) ?_ rfl
    rcases hst with hst | hst <;> simp [powerRequest, hseq, hcyc, hst, hpend, hfree]
  · have hfree : seqFree s = false := by
      rcases hbusy with hsw | hq
      · simp [seqFree, hseq, hsw]
      · simp [seqFree, hseq, hq]
    refine completes_domainChange (e := enqueue d true false (setDom d { domOf s d with pendUp := true } s)) h hw hp (by decide) ?_ rfl
    rcases hst with hst | hst <;> simp [powerRequest, hseq, hcyc, hst, hpend, hfree]
  · refine completes_domainChange (e := setDom d { domOf s d with pendUp := true } s) h hw hp (by decide) ?_ rfl
    rcases hst with hst | hst <;> simp [powerRequest, hseq, hcyc, hst]
  · refine completes_domainChange (e := beginDrain d s) h hw hp (by decide) ?_ rfl
    simp [powerRequest, hseq, hcyc, hst, hdown]
  · refine completes_domainChange (e := setDom d { domOf s d with pendDown := true } s) h hw hp (by decide) ?_ rfl
    simp [powerRequest, hseq, hcyc, hst, hdown]

end Sys2Proof.Machine
end

section
/-! SUPPORT. Background operations and how they end, the test of a cluster, and the capture ring (R190, R372, R381, R456). -/
namespace Sys2Proof.Machine

theorem withAge_sameBut (x : Ageing) (s : State) : SameBut [.age] s { s with age := x } := by
  intro g hg; cases g <;> simp_all [Group.same]

/-! The test of a cluster begun (R456). -/

/-- The state with the test of cluster c under way. -/
def testBegun (c : Nat) (s : State) : State := addBackground (.clusterTest c) { s with age := { s.age with testing := some (c, s.clk.now) } }

theorem testBegun_sameBut (c : Nat) (s : State) : SameBut [.age, .mb] s (testBegun c s) :=
  (withAge_sameBut _ s).trans (addBackground_sameBut _ _)

theorem clusterTest_begins {s : State} {m c : Nat} (h : Serves s m 0x0905 0) (hw : (boxOf s m).paramWords = 1) (hp : prmN (boxOf s m) 0 = c)
    (hc : c ≤ 271 ∧ clusterExists s c = true) (hon : domOn s (12 + c / 17) = true) (hused : (usedClusters s).contains c = false)
    (hfree : s.age.testing = none) :
    Completes (.ageingClusterTest m) s fun t =>
      Answers t m [] ∧ t.age = { s.age with testing := some (c, s.clk.now) } ∧ t.mb.background = s.mb.background ++ [.clusterTest c]
      ∧ SameBut [.age, .mb, .irq, .out] s t := by
  subst hp
  refine completes_served (o := execAgeingClusterTest m s) (e := testBegun (prmN (boxOf s m) 0) s) (ws := []) rfl rfl h (exactly_of_eq hw)
    (checked_pass ?_) (Nat.zero_le _) fun u hu =>
    ⟨hu.answers, hu.same .age (by decide), hu.background, (hu.sameBut (testBegun_sameBut _ s)).mono (by simp)⟩
  intro k hk
  simp only [List.mem_cons, List.not_mem_nil, or_false] at hk
  rcases hk with rfl | rfl | rfl | rfl | rfl
  · exact inRange_fst.2 ⟨Nat.zero_le _, hc.1⟩
  · exact hc.2
  · exact hon
  · exact congrArg (!·) hused
  · simp [hfree]

/-! The capture ring armed and frozen (R372). -/

/-- The ring armed as the parameters say. -/
def ringArmed (b : Mailbox) (s : State) : State :=
  { s with mem := { s.mem with cap := {
      armed := true, circuits := (prms b 1 (prmN b 0)).map fun w => (fieldOf w 9 0, fieldOf w 11 10), trigger := prmN b (prmN b 0 + 1)
      trigCircuit := prmN b (prmN b 0 + 2), postTicks := prmN b (prmN b 0 + 3) } } }

/-- What `diag.capture` then makes of the state: a command trigger fires at once. -/
def captureSet (b : Mailbox) (s : State) : State :=
  if prmN b (prmN b 0 + 1) = 0 then fireCapture (ringArmed b s) else ringArmed b s

theorem captureSet_sameBut (b : Mailbox) (s : State) : SameBut [.mem] s (captureSet b s) := by
  unfold captureSet
  split <;> exact withMem_sameBut _ s

theorem capture_armed {s : State} {m n : Nat} {b : Mailbox} (h : Serves s m 0x0840 0) (hb : boxOf s m = b) (hn : prmN b 0 = n ∧ 1 ≤ n ∧ n ≤ 16)
    (hw : b.paramWords = n + 4) (hcoded : ((prms b 1 n).all fun w => decide (w.toNat < 4096 ∧ fieldOf w 11 10 ≠ 0)) = true)
    (havail : ((prms b 1 n).all fun w => circuitAvailable s (fieldOf w 9 0)) = true)
    (htrig : [0, 0x0043, 0x0044, 0x0045, 0x0002, 0x0020, 0x0040].contains (prmN b (n + 1)) = true)
    (hrest : prmN b (n + 2) ≤ 767 ∧ circuitAvailable s (prmN b (n + 2)) = true ∧ prmN b (n + 3) ≤ 4294967295) :
    Completes (.diagCapture m) s fun t => Answers t m [] ∧ t.mem = (captureSet b s).mem ∧ DoneAlone m [.mem] s t := by
  obtain ⟨hn, hlo, hhi⟩ := hn
  subst hb hn
  refine completes_served (o := execDiagCapture m s) (e := captureSet (boxOf s m) s) (ws := []) rfl rfl h ?_ (checked_pass ?_) (Nat.zero_le _)
    fun u hu => ⟨hu.answers, hu.same .mem (by decide), hu.doneAlone (captureSet_sameBut _ s) (by decide) (by decide)⟩
  · simp only [decide_eq_true_eq]
    omega
  · intro k hk
    simp only [List.mem_cons, List.not_mem_nil, or_false] at hk
    rcases hk with rfl | rfl | rfl | rfl | rfl | rfl | rfl
    · exact inRange_fst.2 ⟨hlo, hhi⟩
    · simp [countIs, hw]
    · exact hcoded
    · exact Bool.and_eq_true_iff.2 ⟨havail, hrest.2.1⟩
    · exact htrig
    · exact inRange_fst.2 ⟨Nat.zero_le _, hrest.1⟩
    · exact inRange_fst.2 ⟨Nat.zero_le _, hrest.2.2⟩

theorem capture_frozen {s : State} {k : Nat} (harmed : s.mem.cap.armed = true) (hk : s.mem.cap.freezeAt = some k ∧ k ≤ s.clk.now) :
    Completes .captureFreeze s fun t =>
      t.mem = { s.mem with cap := { s.mem.cap with armed := false, frozen := true, freezeAt := none } } ∧ Alone [.mem] s t := by
  have hdue : (s.mem.cap.armed && s.mem.cap.freezeAt.any fun at_ => decide (at_ ≤ s.clk.now)) = true := by simp [harmed, hk.1, hk.2]
  refine completes_of_exec
    (e := { s with mem := { s.mem with cap := { s.mem.cap with armed := false, frozen := true, freezeAt := none } } })
    (congrArg (commit s) (if_pos hdue)) fun t ht => ⟨ht.1 .mem (by decide), becomes_alone (withMem_sameBut _ s) (by decide) ht⟩

/-! The ends of background operations (R190, R381, R401). -/

/-- The k-th background operation removed. -/
def backgroundEnded (k : Nat) (s : State) : State := { s with mb := { s.mb with background := s.mb.background.eraseIdx k } }

theorem backgroundEnded_sameBut (k : Nat) (s : State) : SameBut [.mb] s (backgroundEnded k s) := by
  intro g hg; cases g <;> simp_all [Group.same, backgroundEnded]

/-- What the end of an operation of a kind makes of the state. -/
def opEnded (k : Nat) (res : OpResult) (s : State) : Background → State
  | .xtSurvey g near n =>
    if s.sf.number < n + 48 then s
    else raise 0x0023 g { backgroundEnded k s with mem := { s.mem with near := memWriteWords s.mem.near near res.words } }
  | .planSave img => raise 0x0014 (planId img) { backgroundEnded k s with mp := { s.mp with bootPlan := img } }
  | .writeBank j =>
    let img := (bankOf s j).image
    let t := setBank j { state := if s.mp.stageTrial ∧ img = runningImage s then .trial else .valid, image := img } (backgroundEnded k s)
    raise 0x0063 j { t with mp := { t.mp with stageTrial := s.mp.stageTrial && img != runningImage s } }
  | .commitBank _ => backgroundEnded k s
  | .marginScan _ near => { backgroundEnded k s with mem := { s.mem with near := memWriteWords s.mem.near near res.words } }
  | .clusterTest c =>
    if s.age.testing.any (fun p => decide (s.clk.now < p.2 + s.sf.len)) then s else clusterTested c res.ok (backgroundEnded k s)

theorem exec_backgroundOpDone {s : State} {k : Nat} {g : Background} (res : OpResult) (h : s.mb.background[k]? = some g) :
    exec (.backgroundOpDone k res) s = commit s (opEnded k res s g) := by
  show execBackgroundOpDone k res s = _
  unfold execBackgroundOpDone
  rw [h]
  cases g <;> rfl

theorem exec_backgroundOpDone_none {s : State} {k : Nat} (res : OpResult) (h : s.mb.background[k]? = none) :
    exec (.backgroundOpDone k res) s = .next s := by
  refine Eq.trans ?_ (commit_self s)
  show execBackgroundOpDone k res s = _
  unfold execBackgroundOpDone
  rw [h]

/-- An end that logs an event after an effect on some groups. -/
theorem completes_ends {gs : List Group} {s e : State} {k code obj : Nat} {res : OpResult} {g : Background}
    (h : s.mb.background[k]? = some g) (he : opEnded k res s g = raise code obj e) (hs : SameBut gs s e) (hirq : Group.irq ∉ gs)
    (hclk : Group.clk ∉ gs) :
    Completes (.backgroundOpDone k res) s fun t =>
      SameBut [.irq, .mem, .out, .pending] e t ∧ t.mem.near = e.mem.near ∧ Logged code obj s t ∧ SameBut (.mem :: .irq :: .out :: gs) s t := by
  refine completes_of_exec (by rw [exec_backgroundOpDone res h, he]) fun t ht => ⟨?_, ?_, ?_, ?_⟩
  · exact ((raise_sameBut code obj e).trans ht.1).mono (by simp)
  · rw [ht.1 .mem (by decide)]
    exact raise_mem_near _ _ _
  · exact logged_congr (hs .irq hirq) (hs .clk hclk) (raise_logged code obj ht.2.1)
  · exact (becomes_same (hs.trans (raise_sameBut code obj e)) ht).mono (by simp; tauto)

theorem survey_ends {s : State} {k g near n : Nat} {res : OpResult} (h : s.mb.background[k]? = some (.xtSurvey g near n))
    (hold : n + 48 ≤ s.sf.number) :
    Completes (.backgroundOpDone k res) s fun t =>
      t.mb = { s.mb with background := s.mb.background.eraseIdx k } ∧ t.mem.near = memWriteWords s.mem.near near res.words ∧ Logged 0x0023 g s t
      ∧ SameBut [.mb, .mem, .irq, .out] s t :=
  (completes_ends h (if_neg (Nat.not_lt.2 hold)) ((backgroundEnded_sameBut k s).trans (withMem_sameBut _ _)) (by decide) (by decide)).imp
    fun t ⟨hsame, hnear, hlog, hrest⟩ => ⟨hsame .mb (by decide), hnear, hlog, hrest.mono (by simp)⟩

theorem planSave_ends {s : State} {k : Nat} {res : OpResult} {img : List Word} (h : s.mb.background[k]? = some (.planSave img)) :
    Completes (.backgroundOpDone k res) s fun t =>
      t.mb = { s.mb with background := s.mb.background.eraseIdx k } ∧ t.mp = { s.mp with bootPlan := img } ∧ Logged 0x0014 (planId img) s t
      ∧ t.mem.near = s.mem.near ∧ SameBut [.mb, .mp, .mem, .irq, .out] s t :=
  (completes_ends h rfl ((backgroundEnded_sameBut k s).trans (withMp_sameBut _ _)) (by decide) (by decide)).imp
    fun t ⟨hsame, hnear, hlog, hrest⟩ => ⟨hsame .mb (by decide), hsame .mp (by decide), hlog, hnear, hrest.mono (by simp)⟩

/-- The bank written and whether the trial staged still waits, in the management's state. -/
def bankWritten (j : Nat) (s : State) : Bank :=
  { state := if s.mp.stageTrial = true ∧ (bankOf s j).image = runningImage s then .trial else .valid, image := (bankOf s j).image }
def trialWritten (j : Nat) (s : State) : State :=
  let t := setBank j (bankWritten j s) s
  { t with mp := { t.mp with stageTrial := s.mp.stageTrial && (bankOf s j).image != runningImage s } }

theorem trialWritten_sameBut (j : Nat) (s : State) : SameBut [.mp] s (trialWritten j s) :=
  ((setBank_sameBut j _ s).trans (withMp_sameBut _ _)).mono (by simp)

theorem trialWritten_mp {j : Nat} (s : State) (hj : j ≤ 1) :
    bankOf (trialWritten j s) j = bankWritten j s ∧ bankOf (trialWritten j s) (1 - j) = bankOf s (1 - j)
    ∧ (trialWritten j s).mp.stageTrial = (s.mp.stageTrial && (bankOf s j).image != runningImage s)
    ∧ (trialWritten j s).mp = { s.mp with
        bankA := (trialWritten j s).mp.bankA, bankB := (trialWritten j s).mp.bankB, stageTrial := (trialWritten j s).mp.stageTrial } := by
  obtain rfl | rfl : j = 0 ∨ j = 1 := by omega
  · exact ⟨rfl, rfl, rfl, rfl⟩
  · exact ⟨rfl, rfl, rfl, rfl⟩

theorem bankOf_congr {s t : State} (h : t.mp = s.mp) (j : Nat) : bankOf t j = bankOf s j := by
  unfold bankOf
  rw [h]

theorem setBank_backgroundEnded (j k : Nat) (x : Bank) (s : State) : setBank j x (backgroundEnded k s) = backgroundEnded k (setBank j x s) := by
  unfold setBank
  split <;> rfl

theorem opEnded_writeBank (k j : Nat) (res : OpResult) (s : State) :
    opEnded k res s (.writeBank j) = raise 0x0063 j (backgroundEnded k (trialWritten j s)) := by
  show raise 0x0063 j { setBank j (bankWritten j s) (backgroundEnded k s) with
    mp := { (setBank j (bankWritten j s) (backgroundEnded k s)).mp with stageTrial := _ } } = _
  rw [setBank_backgroundEnded]
  rfl

theorem bankWrite_ends {s : State} {k j : Nat} {res : OpResult} (h : s.mb.background[k]? = some (.writeBank j)) (hj : j ≤ 1) :
    Completes (.backgroundOpDone k res) s fun t =>
      t.mb = { s.mb with background := s.mb.background.eraseIdx k } ∧ bankOf t j = bankWritten j s ∧ bankOf t (1 - j) = bankOf s (1 - j)
      ∧ t.mp.stageTrial = (s.mp.stageTrial && (bankOf s j).image != runningImage s)
      ∧ t.mp = { s.mp with bankA := t.mp.bankA, bankB := t.mp.bankB, stageTrial := t.mp.stageTrial } ∧ Logged 0x0063 j s t
      ∧ SameBut [.mb, .mp, .mem, .irq, .out] s t := by
  obtain ⟨hself, hother, hstage, hmp⟩ := trialWritten_mp s hj
  refine (completes_ends h (opEnded_writeBank k j res s) ((trialWritten_sameBut j s).trans (backgroundEnded_sameBut k _)) (by decide)
    (by decide)).imp fun t ⟨hsame, _, hlog, hrest⟩ => ?_
  have hmb : t.mb = (backgroundEnded k (trialWritten j s)).mb := hsame .mb (by decide)
  have hkept : (trialWritten j s).mb = s.mb := trialWritten_sameBut j s .mb (by decide)
  have hmpt : t.mp = (trialWritten j s).mp := hsame .mp (by decide)
  refine ⟨?_, (bankOf_congr hmpt j).trans hself, (bankOf_congr hmpt _).trans hother, ?_, ?_, hlog, hrest.mono (by simp)⟩
  · rw [hmb, ← hkept]
    rfl
  · rw [hmpt, hstage]
  · rw [hmpt]
    exact hmp

theorem commitBank_ends {s : State} {k j : Nat} {res : OpResult} (h : s.mb.background[k]? = some (.commitBank j)) :
    Completes (.backgroundOpDone k res) s fun t =>
      t.mb = { s.mb with background := s.mb.background.eraseIdx k } ∧ Alone [.mb] s t :=
  completes_of_exec (exec_backgroundOpDone res h) fun _ ht =>
    ⟨ht.1 .mb (by decide), becomes_alone (backgroundEnded_sameBut k s) (by decide) ht⟩

theorem marginScan_ends {s : State} {k l near : Nat} {res : OpResult} (h : s.mb.background[k]? = some (.marginScan l near)) :
    Completes (.backgroundOpDone k res) s fun t =>
      t.mb = { s.mb with background := s.mb.background.eraseIdx k }
      ∧ t.mem = { s.mem with near := memWriteWords s.mem.near near res.words } ∧ Alone [.mb, .mem] s t :=
  completes_of_exec (exec_backgroundOpDone res h) fun _ ht =>
    ⟨ht.1 .mb (by decide), ht.1 .mem (by decide),
      becomes_alone ((backgroundEnded_sameBut k s).trans (withMem_sameBut { s.mem with near := memWriteWords s.mem.near near res.words } _))
        (by decide) ht⟩

/-! The end of a cluster's test (R456). -/

/-- The event of the test's end, with no test under way. -/
def testEnded (c : Nat) (pass : Bool) (s : State) : State :=
  raise 0x0016 (c % 512 + (if pass then 65536 else 0)) { s with age := { s.age with testing := none } }

/-- The passes put down for the cluster. -/
def passesPut (c : Nat) (p : Nat × Nat) (s : State) : State := { s with age := { s.age with passes := tabPut (0, 0) s.age.passes c p } }

/-- The cluster back in service. -/
def clusterReturned (c : Nat) (s : State) : State :=
  let w := clusterWordOf s c false
  mpWrite w.1 w.2 { passesPut c (0, 0) s with plan := { s.plan with retired := s.plan.retired.filter (· != c) } }

theorem testEnded_age (c : Nat) (pass : Bool) (s : State) : (testEnded c pass s).age = { s.age with testing := none } := raise_age _ _ _

theorem clusterReturned_plan (c : Nat) (s : State) :
    (clusterReturned c s).plan = { s.plan with retired := s.plan.retired.filter (· != c) } := mpWrite_sameBut _ _ _ .plan (by decide)

theorem clusterReturned_age (c : Nat) (s : State) : (clusterReturned c s).age = (passesPut c (0, 0) s).age := mpWrite_sameBut _ _ _ .age (by decide)

theorem clusterReturned_sameBut (c : Nat) (s : State) : SameBut [.age, .plan, .keep] s (clusterReturned c s) := by
  intro g hg; cases g <;> simp_all [Group.same, clusterReturned, passesPut]

/-- Where the passes are kept, and where the third pass returns the cluster. -/
theorem clusterTested_eq {c : Nat} {ok : Bool} {s : State} {p : Nat × Nat} {keep third : Bool} (hp : p = tabGet (0, 0) s.age.passes c)
    (hkeep : keep = (!s.plan.retired.contains c || ok && decide (p.1 ≠ 0 ∧ s.clk.now < p.2 + 86400000000))) (hthird : third = decide (2 ≤ p.1)) :
    clusterTested c ok s =
      if keep = true then testEnded c ok s
      else if ok = true ∧ third = true then clusterReturned c (testEnded c ok s)
      else passesPut c (if ok = true ∧ third = false then (p.1 + 1, s.clk.now) else (0, 0)) (testEnded c ok s) := by
  subst hp hkeep hthird
  have hpasses : (testEnded c ok s).age.passes = s.age.passes := by rw [testEnded_age]
  unfold clusterTested
  cases hret : s.plan.retired.contains c with
  | false => rfl
  | true =>
    cases ok with
    | false => rfl
    | true =>
      simp only [Bool.not_true, Bool.false_eq_true, if_false, Bool.false_or, Bool.true_and, true_and, decide_eq_true_eq, decide_eq_false_iff_not]
      split
      · rfl
      · by_cases h2 : 2 ≤ (tabGet (0, 0) s.age.passes c).1
        · rw [if_pos h2, if_pos h2]
          rfl
        · rw [if_neg h2, if_neg h2, if_pos h2]
          rfl

theorem passesPut_sameBut (c : Nat) (p : Nat × Nat) (s : State) : SameBut [.age] s (passesPut c p s) := withAge_sameBut _ s

theorem testEnded_sameBut (c : Nat) (pass : Bool) (s : State) : SameBut [.age, .irq, .mem] s (testEnded c pass s) :=
  (withAge_sameBut _ s).trans (raise_sameBut _ _ _)

/-- What the end of a test leaves: the test, the passes, the service of the cluster, and the event. -/
theorem clusterTested_leaves {c : Nat} {ok : Bool} {s : State} {p : Nat × Nat} {keep third : Bool} (hp : p = tabGet (0, 0) s.age.passes c)
    (hkeep : keep = (!s.plan.retired.contains c || ok && decide (p.1 ≠ 0 ∧ s.clk.now < p.2 + 86400000000))) (hthird : third = decide (2 ≤ p.1)) :
    (clusterTested c ok s).age = { s.age with
        testing := none
        passes := if keep = true then s.age.passes
                  else tabPut (0, 0) s.age.passes c (if ok = true ∧ third = false then (p.1 + 1, s.clk.now) else (0, 0)) }
    ∧ (clusterTested c ok s).plan = (if keep = false ∧ ok = true ∧ third = true then { s.plan with retired := s.plan.retired.filter (· != c) }
        else s.plan)
    ∧ (¬ (keep = false ∧ ok = true ∧ third = true) → (clusterTested c ok s).keep = s.keep)
    ∧ (clusterTested c ok s).irq = (testEnded c ok s).irq ∧ SameBut [.age, .plan, .keep, .irq, .mem] s (clusterTested c ok s) := by
  have hage : (testEnded c ok s).age = { s.age with testing := none } := testEnded_age c ok s
  have hsame := testEnded_sameBut c ok s
  have hplan : (testEnded c ok s).plan = s.plan := hsame .plan (by decide)
  have hwords : (testEnded c ok s).keep = s.keep := hsame .keep (by decide)
  rw [clusterTested_eq hp hkeep hthird]
  cases hk : keep with
  | true =>
    refine ⟨by simp [hage], by simp [hplan], fun _ => by simp [hwords], rfl, hsame.mono (by simp)⟩
  | false =>
    rw [if_neg (by decide)]
    by_cases h3 : ok = true ∧ third = true
    · obtain ⟨rfl, rfl⟩ := h3
      refine ⟨?_, ?_, by simp, mpWrite_sameBut _ _ _ .irq (by decide), (hsame.trans (clusterReturned_sameBut c _)).mono (by simp)⟩
      · simp [clusterReturned_age, passesPut, hage]
      · simp [clusterReturned_plan, hplan]
    · rw [if_neg h3]
      refine ⟨?_, ?_, fun _ => hwords, rfl, (hsame.trans (passesPut_sameBut c _ _)).mono (by simp)⟩
      · simp [passesPut, hage]
      · simp [passesPut, hplan, h3]

theorem clusterTest_ends {s : State} {k c at_ : Nat} {res : OpResult} {p : Nat × Nat} {keep third : Bool}
    (h : s.mb.background[k]? = some (.clusterTest c)) (htest : s.age.testing = some (c, at_) ∧ at_ + s.sf.len ≤ s.clk.now)
    (hp : p = tabGet (0, 0) s.age.passes c)
    (hkeep : keep = (!s.plan.retired.contains c || res.ok && decide (p.1 ≠ 0 ∧ s.clk.now < p.2 + 86400000000))) (hthird : third = decide (2 ≤ p.1)) :
    Completes (.backgroundOpDone k res) s fun t =>
      t.mb = { s.mb with background := s.mb.background.eraseIdx k }
      ∧ t.age = { s.age with
          testing := none
          passes := if keep = true then s.age.passes
                    else tabPut (0, 0) s.age.passes c (if res.ok = true ∧ third = false then (p.1 + 1, s.clk.now) else (0, 0)) }
      ∧ t.plan = (if keep = false ∧ res.ok = true ∧ third = true then { s.plan with retired := s.plan.retired.filter (· != c) } else s.plan)
      ∧ (¬ (keep = false ∧ res.ok = true ∧ third = true) → t.keep = s.keep)
      ∧ Logged 0x0016 (c % 512 + (if res.ok then 65536 else 0)) s t ∧ SameBut [.mb, .age, .plan, .keep, .mem, .irq, .out] s t := by
  have hend : opEnded k res s (.clusterTest c) = clusterTested c res.ok (backgroundEnded k s) := by
    refine if_neg ?_
    simp [htest.1, htest.2]
  obtain ⟨hage, hplan, hwords, hirq, hsame⟩ := clusterTested_leaves (c := c) (ok := res.ok) (s := backgroundEnded k s) hp hkeep hthird
  refine completes_of_exec (by rw [exec_backgroundOpDone res h, hend]) fun t ht => ⟨?_, ?_, ?_, fun hn => ?_, ?_, ?_⟩
  · exact (ht.1 .mb (by decide)).trans (hsame .mb (by decide))
  · exact (ht.1 .age (by decide)).trans hage
  · exact (ht.1 .plan (by decide)).trans hplan
  · exact (ht.1 .keep (by decide)).trans (hwords hn)
  · refine logged_congr (r := { backgroundEnded k s with age := { s.age with testing := none } }) rfl rfl (raise_logged _ _ (m := t.irq.msix) ?_)
    rw [ht.2.1, hirq]
    rfl
  · exact (becomes_same ((backgroundEnded_sameBut k s).trans hsame) ht).mono (by simp)

/-! Ends that come too soon, or for nothing. -/

theorem backgroundOpDone_idle {s : State} {k : Nat} {res : OpResult}
    (h : s.mb.background[k]? = none ∨ (∃ g near n, s.mb.background[k]? = some (.xtSurvey g near n) ∧ s.sf.number < n + 48)
      ∨ (∃ c at_, s.mb.background[k]? = some (.clusterTest c) ∧ s.age.testing = some (c, at_) ∧ s.clk.now < at_ + s.sf.len)) :
    exec (.backgroundOpDone k res) s = .next s := by
  obtain hnone | ⟨g, near, n, hsome, hsoon⟩ | ⟨c, at_, hsome, htest, hsoon⟩ := h
  · exact exec_backgroundOpDone_none res hnone
  · exact (exec_backgroundOpDone res hsome).trans ((congrArg (commit s) (if_pos hsoon)).trans (commit_self s))
  · refine (exec_backgroundOpDone res hsome).trans ((congrArg (commit s) (if_pos ?_)).trans (commit_self s))
    simp [htest, hsoon]

/-- Settles O6. -/
theorem backgroundWork : Obligations.BackgroundWork := by
  unfold Obligations.BackgroundWork
  refine ⟨fun s m c h hw hp hc hon hused hfree => clusterTest_begins h hw hp hc hon hused hfree,
    fun s m n b h hb hn hw hcoded havail htrig hrest => ?_, fun s m n b h hb hn hw hcoded havail htrig hrest => ?_,
    fun s k harmed hk => capture_frozen harmed hk, fun s k res g near n h hold => survey_ends h hold, fun s k res img h => planSave_ends h,
    fun s k res j h hj => bankWrite_ends h hj, fun s k res j h => commitBank_ends h, fun s k res l near h => marginScan_ends h,
    fun s k res c at_ p keep third h htest hp hkeep hthird => clusterTest_ends h htest hp hkeep hthird, fun s k res h => backgroundOpDone_idle h⟩
  · have hne : prmN b (prmN b 0 + 1) ≠ 0 := by
      rw [hn.1]
      intro h0
      simp [h0] at htrig
    refine (capture_armed h hb hn hw hcoded havail ?_ hrest).imp fun t ⟨ha, hmem, hdone⟩ => ⟨ha, ?_, hdone⟩
    · simpa using Or.inr htrig
    · rw [hmem, captureSet, if_neg hne, ← hn.1]
      rfl
  · refine (capture_armed h hb hn hw hcoded havail ?_ hrest).imp fun t ⟨ha, hmem, hdone⟩ => ⟨ha, ?_, hdone⟩
    · simp [htrig]
    · have h0 : prmN b (prmN b 0 + 1) = 0 := by rw [hn.1, htrig]
      have hcap : (ringArmed b s).mem.cap.trigger = 0 := h0
      have hfire : (fireCapture (ringArmed b s)).mem = (fireCapture { ringArmed b s with
          mem := { s.mem with cap := { (ringArmed b s).mem.cap with trigger := 0 } } }).mem := by
        rw [← hcap]
        rfl
      rw [hmem, captureSet, if_pos h0, hfire, ← hn.1]
      rfl

end Sys2Proof.Machine
end

section
/-! SUPPORT. The AEAD engine's lock: who takes it when it is freed, what is left of the rest of the engine, and its idle release (R407 to R409). -/
namespace Sys2Proof.Machine

/-- A write to the engine's registers in D29 has its effect. -/
theorem commit_aead {s t : State} {r : Nat} (h : 1 ≤ r ∧ r ≤ 4 ∧ domOn s 29 = true) :
    onObject (decide (1 ≤ r ∧ r ≤ 4)) s (inDomain 29 s t) = commit s t := by
  unfold onObject inDomain
  rw [if_pos (decide_eq_true ⟨h.1, h.2.1⟩), if_pos h.2.2]

/-- A command that replaces the engine's record. -/
theorem completes_withAead {i : Instr} {s e : State} (h : exec i s = commit s e) (hs : SameBut [.aead] s e) :
    Completes i s fun t => t.aead = e.aead ∧ Alone [.aead] s t :=
  completes_of_exec h fun _ ht => ⟨ht.1 .aead (by decide), becomes_alone hs (by decide) ht⟩

/-! The requester that a freed lock goes to (R407, R408). -/

/-- The claim of the sequencer comes first, then the lowest queued requester. -/
def lockNext (s : State) : Option Nat := if s.aead.claim then some 3 else leastOf s.aead.queue

theorem lockFree_eq (s : State) :
    lockFree s = match lockNext s with
      | some q => lockGrant q { s with aead := { s.aead with owner := 0 } }
      | none => { s with aead := { s.aead with owner := 0 } } := by
  unfold lockFree lockNext
  cases s.aead.claim with
  | true => rfl
  | false => cases leastOf s.aead.queue <;> rfl

theorem lockFree_owner (s : State) : (lockFree s).aead.owner = (lockNext s).getD 0 := by
  rw [lockFree_eq]
  cases lockNext s <;> rfl

/-- What passing the lock leaves of the engine: all but the lock's own fields. -/
structure LockOnly (s t : State) : Prop where
  port : t.aead.port = s.aead.port
  slot : t.aead.slot = s.aead.slot
  run : t.aead.run = s.aead.run
  st : t.aead.st = s.aead.st
  result : t.aead.result = s.aead.result
  bytesDone : t.aead.bytesDone = s.aead.bytesDone
  idleReleases : t.aead.idleReleases = s.aead.idleReleases
  drbgRequests : t.aead.drbgRequests = s.aead.drbgRequests

theorem LockOnly.trans {s t u : State} (h : LockOnly s t) (k : LockOnly t u) : LockOnly s u :=
  ⟨k.port.trans h.port, k.slot.trans h.slot, k.run.trans h.run, k.st.trans h.st, k.result.trans h.result, k.bytesDone.trans h.bytesDone,
    k.idleReleases.trans h.idleReleases, k.drbgRequests.trans h.drbgRequests⟩

theorem lockFree_lockOnly (s : State) : LockOnly s (lockFree s) := by
  rw [lockFree_eq]
  cases lockNext s <;> exact ⟨rfl, rfl, rfl, rfl, rfl, rfl, rfl, rfl⟩

theorem lockRevoke_lockOnly (s : State) : LockOnly s (lockRevoke s) := by
  unfold lockRevoke
  split <;> exact ⟨rfl, rfl, rfl, rfl, rfl, rfl, rfl, rfl⟩

theorem lockFree_revoked (s : State) : (lockFree s).aead.revoked = s.aead.revoked := by
  rw [lockFree_eq]
  cases lockNext s <;> rfl

theorem lockNext_lockRevoke (s : State) : lockNext (lockRevoke s) = lockNext s := by
  unfold lockRevoke
  split <;> rfl

/-! REQUEST and RELEASE (R407). -/

theorem exec_lockRequest {s : State} {r : Nat} (hr : 1 ≤ r ∧ r ≤ 4 ∧ domOn s 29 = true) :
    exec (.aeadLockRequest r) s = commit s (lockRequest r s) := commit_aead hr

theorem exec_lockRelease {s : State} {r : Nat} (hr : 1 ≤ r ∧ r ≤ 4 ∧ domOn s 29 = true) :
    exec (.aeadLockRelease r) s = commit s (lockRelease r s) := commit_aead hr

theorem lockRequest_free {s : State} {r : Nat} (hr : 1 ≤ r) (hfree : s.aead.owner = 0 ∧ s.aead.claim = false) : lockRequest r s = lockGrant r s :=
  (if_neg (by omega)).trans (if_pos hfree)

theorem lockRequest_queued {s : State} {r : Nat} (hown : s.aead.owner ≠ 0 ∧ s.aead.owner ≠ r) :
    lockRequest r s = { s with aead := { s.aead with queue := if s.aead.queue.contains r then s.aead.queue else s.aead.queue ++ [r] } } := by
  refine (if_neg hown.2).trans ((if_neg fun h => hown.1 h.1).trans ?_)
  cases s.aead.queue.contains r <;> rfl

theorem lockRequest_own {s : State} {r : Nat} (hr : 1 ≤ r) (hown : s.aead.owner = r) :
    lockRequest r s = { s with aead := { s.aead with lastUse := s.clk.now } } :=
  (if_pos hown).trans (if_pos ⟨hown, by omega⟩)

theorem lockRequest_taken {s : State} {r : Nat} (hr : 1 ≤ r ∧ r ≤ 4 ∧ domOn s 29 = true) (hfree : s.aead.owner = 0 ∧ s.aead.claim = false) :
    Completes (.aeadLockRequest r) s fun t =>
      t.aead = { s.aead with
          owner := r, queue := s.aead.queue.filter (fun q => q != r), lastUse := s.clk.now
          grants := tabPut 0 s.aead.grants r (sat32 (tabGet 0 s.aead.grants r) 1) }
      ∧ Alone [.aead] s t :=
  completes_withAead (e := lockGrant r s) ((exec_lockRequest hr).trans (congrArg (commit s) (lockRequest_free hr.1 hfree))) (withAead_sameBut _ s)

theorem lockRequest_waits {s : State} {r : Nat} (hr : 1 ≤ r ∧ r ≤ 4 ∧ domOn s 29 = true) (hown : s.aead.owner ≠ 0 ∧ s.aead.owner ≠ r) :
    Completes (.aeadLockRequest r) s fun t =>
      t.aead = { s.aead with queue := if s.aead.queue.contains r then s.aead.queue else s.aead.queue ++ [r] } ∧ Alone [.aead] s t :=
  completes_withAead ((exec_lockRequest hr).trans (congrArg (commit s) (lockRequest_queued hown))) (withAead_sameBut _ s)

theorem lockRequest_again {s : State} {r : Nat} (hr : 1 ≤ r ∧ r ≤ 4 ∧ domOn s 29 = true) (hown : s.aead.owner = r) :
    Completes (.aeadLockRequest r) s fun t => t.aead = { s.aead with lastUse := s.clk.now } ∧ Alone [.aead] s t :=
  completes_withAead ((exec_lockRequest hr).trans (congrArg (commit s) (lockRequest_own hr.1 hown))) (withAead_sameBut _ s)

/-- The lock released by its owner, before it is passed on. -/
def lockLet (r : Nat) (s : State) : State := { s with aead := { s.aead with claim := s.aead.claim && r != 3 } }

theorem lockRelease_own {s : State} {r : Nat} (hown : s.aead.owner = r ∧ s.aead.st ≠ .running) : lockRelease r s = lockFree (lockLet r s) := by
  refine (if_pos hown).trans ?_
  have hclaim : (if r = 3 then false else s.aead.claim) = (s.aead.claim && r != 3) := by
    split
    · simp_all
    · simp_all
  rw [hclaim]
  rfl

theorem lockRelease_completes {s : State} {r : Nat} (hr : 1 ≤ r ∧ r ≤ 4 ∧ domOn s 29 = true) (hown : s.aead.owner = r ∧ s.aead.st ≠ .running) :
    Completes (.aeadLockRelease r) s fun t => t.aead = (lockFree (lockLet r s)).aead ∧ Alone [.aead] s t :=
  completes_withAead ((exec_lockRelease hr).trans (congrArg (commit s) (lockRelease_own hown)))
    (((withAead_sameBut _ s).trans (lockFree_sameBut _)).mono (by simp))

theorem lockRelease_passes {s : State} {r q : Nat} (hr : 1 ≤ r ∧ r ≤ 4 ∧ domOn s 29 = true) (hown : s.aead.owner = r ∧ s.aead.st ≠ .running)
    (hnext : (if s.aead.claim && r != 3 then some 3 else leastOf s.aead.queue) = some q) :
    Completes (.aeadLockRelease r) s fun t =>
      t.aead = { s.aead with
          claim := s.aead.claim && r != 3, owner := q, queue := s.aead.queue.filter (fun x => x != q)
          grants := tabPut 0 s.aead.grants q (sat32 (tabGet 0 s.aead.grants q) 1), lastUse := s.clk.now } ∧ Alone [.aead] s t := by
  refine (lockRelease_completes hr hown).imp fun t ⟨haead, halone⟩ => ⟨?_, halone⟩
  have hq : lockNext (lockLet r s) = some q := hnext
  rw [haead, lockFree_eq, hq]
  rfl

theorem lockRelease_frees {s : State} {r : Nat} (hr : 1 ≤ r ∧ r ≤ 4 ∧ domOn s 29 = true) (hown : s.aead.owner = r ∧ s.aead.st ≠ .running)
    (hnext : (if s.aead.claim && r != 3 then some 3 else leastOf s.aead.queue) = none) :
    Completes (.aeadLockRelease r) s fun t => t.aead = { s.aead with claim := s.aead.claim && r != 3, owner := 0 } ∧ Alone [.aead] s t := by
  refine (lockRelease_completes hr hown).imp fun t ⟨haead, halone⟩ => ⟨?_, halone⟩
  have hq : lockNext (lockLet r s) = none := hnext
  rw [haead, lockFree_eq, hq]
  rfl

theorem lockRelease_ignored {s : State} {r : Nat} (hr : 1 ≤ r ∧ r ≤ 4 ∧ domOn s 29 = true) (hown : s.aead.owner ≠ r ∨ s.aead.st = .running) :
    Completes (.aeadLockRelease r) s fun t => t = s :=
  completes_unchanged ((exec_lockRelease hr).trans (congrArg (commit s) (if_neg fun h => hown.elim (fun h1 => h1 h.1) h.2)))

/-! The idle release (R409). -/

/-- A result withdrawn leaves the engine alone but for the result itself. -/
theorem withdrawResult_lockOnly (r : Nat) (s : State) :
    (withdrawResult r s).aead = { s.aead with result := (withdrawResult r s).aead.result } := by
  have hout : (aeadOutput r (aeadPort s r).dst (List.replicate (aeadOutLen (aeadPort s r)) 0) s).aead = s.aead :=
    aeadOutput_sameBut _ _ _ s .aead (by decide)
  unfold withdrawResult
  split
  · dsimp only
    rw [hout]
  · rfl

theorem withdrawResult_sameBut (r : Nat) (s : State) : SameBut [.aead, .mem, .out] s (withdrawResult r s) := by
  unfold withdrawResult
  split
  · exact ((aeadOutput_sameBut _ _ _ s).trans (withAead_sameBut _ _)).mono (by simp)
  · exact sameBut_refl _ s

/-- What the idle release of requester r makes of the state before the lock passes on. -/
def idleLet (r : Nat) (s : State) : State :=
  let t := setAeadPort r (discardPort (aeadPort (withdrawResult r s) r)) (withdrawResult r s)
  { t with aead := { t.aead with idleReleases := sat32 t.aead.idleReleases 1 } }

theorem idleLet_sameBut (r : Nat) (s : State) : SameBut [.aead, .mem, .out] s (idleLet r s) :=
  ((withdrawResult_sameBut r s).trans ((withAead_sameBut _ _).trans (withAead_sameBut _ _))).mono (by simp)

theorem idleLet_aead (r : Nat) (s : State) :
    (idleLet r s).aead = { s.aead with
      result := (withdrawResult r s).aead.result, port := tabPut {} s.aead.port r (discardPort (aeadPort s r))
      idleReleases := sat32 s.aead.idleReleases 1 } := by
  have haead := withdrawResult_lockOnly r s
  have hport : aeadPort (withdrawResult r s) r = aeadPort s r := by
    unfold aeadPort
    rw [haead]
  unfold idleLet setAeadPort
  dsimp only
  rw [hport, haead]

/-- The state after the idle release. -/
def idleReleased (r : Nat) (s : State) : State := lockFree (lockRevoke (idleLet r s))

theorem idleReleased_sameBut (r : Nat) (s : State) : SameBut [.aead, .mem, .out] s (idleReleased r s) :=
  ((idleLet_sameBut r s).trans ((lockRevoke_sameBut _).trans (lockFree_sameBut _))).mono (by simp)

theorem idleReleased_lockOnly (r : Nat) (s : State) : LockOnly (idleLet r s) (idleReleased r s) :=
  (lockRevoke_lockOnly _).trans (lockFree_lockOnly _)

theorem idleReleased_owner {r : Nat} {s : State} (hclaim : s.aead.claim = false) :
    (idleReleased r s).aead.owner = (leastOf s.aead.queue).getD 0 := by
  unfold idleReleased
  rw [lockFree_owner, lockNext_lockRevoke, lockNext, idleLet_aead]
  dsimp only
  rw [hclaim]
  rfl

theorem idleReleased_revoked {r : Nat} {s : State} (hown : s.aead.owner = r) : (idleReleased r s).aead.revoked = (s.aead.revoked || r == 4) := by
  have howner : (idleLet r s).aead.owner = r := by rw [idleLet_aead]; exact hown
  have hrev : (idleLet r s).aead.revoked = s.aead.revoked := by rw [idleLet_aead]
  unfold idleReleased
  rw [lockFree_revoked, lockRevoke, howner]
  split
  · simp_all
  · simp_all

theorem exec_idleRelease {s : State} {r : Nat} (hr : r = 1 ∨ r = 2 ∨ r = 4) (hown : s.aead.owner = r) (hst : s.aead.st ≠ .running)
    (hidle : s.aead.lastUse + 10000 ≤ s.clk.now) : exec .aeadIdleRelease s = commit s (idleReleased r s) := by
  have hdue : ¬(s.aead.owner = 0 ∨ s.aead.owner = 3 ∨ s.aead.st = .running ∨ s.clk.now < s.aead.lastUse + 10000) := by
    rintro (h | h | h | h)
    · omega
    · omega
    · exact hst h
    · omega
  refine (congrArg (commit s) (if_neg hdue)).trans ?_
  rw [hown]
  rfl

theorem idleRelease_releases {s : State} {r : Nat}
    (hr : (r = 1 ∨ r = 2 ∨ r = 4) ∧ s.aead.owner = r ∧ s.aead.st ≠ .running ∧ s.aead.claim = false) (hidle : s.aead.lastUse + 10000 ≤ s.clk.now) :
    Completes .aeadIdleRelease s fun t =>
      aeadPort t r = discardPort (aeadPort s r) ∧ t.aead.idleReleases = sat32 s.aead.idleReleases 1
      ∧ t.aead.owner = (leastOf s.aead.queue).getD 0 ∧ t.aead.revoked = (s.aead.revoked || r == 4) ∧ t.aead.slot = s.aead.slot
      ∧ Alone [.aead, .mem] s t := by
  obtain ⟨hr, hown, hst, hclaim⟩ := hr
  have hlock := idleReleased_lockOnly r s
  have hlet := idleLet_aead r s
  refine completes_of_exec (exec_idleRelease hr hown hst hidle) fun t ht => ?_
  have haead : t.aead = (idleReleased r s).aead := ht.1 .aead (by decide)
  refine ⟨?_, ?_, ?_, ?_, ?_, alone_becomes (alone_of_sameBut ((idleReleased_sameBut r s).mono (by simp)) (by decide)) ht⟩
  · unfold aeadPort
    rw [haead, hlock.port, hlet]
    exact tabGet_tabPut_self _ _ _ _
  · rw [haead, hlock.idleReleases, hlet]
  · rw [haead, idleReleased_owner hclaim]
  · rw [haead, idleReleased_revoked hown]
  · rw [haead, hlock.slot, hlet]

/-- What is withdrawn of a DONE result that nobody read. -/
theorem withdrawResult_unread {s : State} {r : Nat} (h : s.aead.st = .done ∧ s.aead.statusRead = false) :
    (withdrawResult r s).aead.result = 4
    ∧ (withdrawResult r s).mem = (aeadOutput r (aeadPort s r).dst (List.replicate (aeadOutLen (aeadPort s r)) 0) s).mem := by
  unfold withdrawResult
  rw [if_pos h]
  exact ⟨rfl, rfl⟩

/-- Output of a requester other than the host lies in the near store. -/
theorem aeadOutput_near {r : Nat} {dst : Word} {bs : List Byte} (s : State) (hr : r ≠ 4) (hbs : bs ≠ []) :
    (aeadOutput r dst bs s).mem.near = memWrite s.mem.near dst.toNat bs := by
  unfold aeadOutput
  rw [if_neg (by simpa using hbs), if_neg hr]

theorem idleRelease_withdraws {s : State} {r : Nat}
    (hr : (r = 1 ∨ r = 2 ∨ r = 4) ∧ s.aead.owner = r ∧ s.aead.st ≠ .running ∧ s.aead.claim = false) (hidle : s.aead.lastUse + 10000 ≤ s.clk.now)
    (hunread : s.aead.st = .done ∧ s.aead.statusRead = false) :
    Completes .aeadIdleRelease s fun t =>
      t.aead.result = 4 ∧ (r ≠ 4 → 1 ≤ aeadOutLen (aeadPort s r) →
          t.mem.near = memWrite s.mem.near (aeadPort s r).dst.toNat (List.replicate (aeadOutLen (aeadPort s r)) 0))
      ∧ Alone [.aead, .mem] s t := by
  obtain ⟨hr, hown, hst, -⟩ := hr
  obtain ⟨hresult, hmem⟩ := withdrawResult_unread (r := r) hunread
  refine completes_of_exec (exec_idleRelease hr hown hst hidle) fun t ht => ⟨?_, fun hne hlen => ?_, ?_⟩
  · have haead : t.aead = (idleReleased r s).aead := ht.1 .aead (by decide)
    rw [haead, (idleReleased_lockOnly r s).result, idleLet_aead]
    exact hresult
  · have htm : t.mem = (withdrawResult r s).mem :=
      (ht.1 .mem (by decide)).trans (((lockRevoke_sameBut (idleLet r s)).trans (lockFree_sameBut _)) .mem (by decide))
    rw [htm, hmem, aeadOutput_near s hne]
    intro h0
    have hnil := congrArg List.length h0
    simp only [List.length_replicate, List.length_nil] at hnil
    omega
  · exact alone_becomes (alone_of_sameBut ((idleReleased_sameBut r s).mono (by simp)) (by decide)) ht

/-- Settles O24. -/
theorem aeadLock_settled : Obligations.AeadLock := by
  unfold Obligations.AeadLock
  exact ⟨fun s r hr hfree => lockRequest_taken hr hfree, fun s r hr hown => lockRequest_waits hr hown, fun s r hr hown => lockRequest_again hr hown,
    fun s r q hr hown hnext => lockRelease_passes hr hown hnext, fun s r hr hown hnext => lockRelease_frees hr hown hnext,
    fun s r hr hown => lockRelease_ignored hr hown, fun s r hr hidle => idleRelease_releases hr hidle,
    fun s r hr hidle hunread => idleRelease_withdraws hr hidle hunread⟩

end Sys2Proof.Machine
end

section
/-! SUPPORT. The starts of the AEAD engine's operations: the fields they take, the run they leave, and the counter that ENCRYPT and WRAP use
(R410 to R417). -/
namespace Sys2Proof.Machine

/-! A slot's counter used (R416, R417). -/

theorem queueMark_aead {k counter : Nat} {s t : State} (h : queueMark k counter s = some t) :
    t.aead = { s.aead with markNext := t.aead.markNext } := by
  unfold queueMark at h
  dsimp only at h
  split at h
  · exact nomatch h
  · obtain rfl := Option.some.inj h
    rfl

/-- What a counter used leaves of the engine: one slot's counter one higher, and where the next mark goes. -/
theorem useCounter_aead {k : Nat} {s t : State} (h : useCounter k s = some t) :
    t.aead = { (setSlot k { slotOf s k with counter := (slotOf s k).counter + 1 } s).aead with markNext := t.aead.markNext } := by
  unfold useCounter at h
  dsimp only at h
  split at h
  · exact nomatch h
  · split at h
    · exact queueMark_aead h
    · split at h
      · exact queueMark_aead h
      · obtain rfl := Option.some.inj h
        rfl

theorem slotOf_useCounter {k : Nat} {s t : State} (h : useCounter k s = some t) :
    slotOf t k = { slotOf s k with counter := (slotOf s k).counter + 1 } ∧ ∀ j, j ≠ k → slotOf t j = slotOf s j := by
  have hslot : t.aead.slot = tabPut {} s.aead.slot k { slotOf s k with counter := (slotOf s k).counter + 1 } := by
    rw [useCounter_aead h]
    rfl
  unfold slotOf at hslot ⊢
  rw [hslot]
  exact ⟨tabGet_tabPut_self _ _ _ _, fun j hj => tabGet_tabPut_ne _ _ _ _ _ hj⟩

/-- Where no mark is asked for, the counter alone rises. -/
theorem useCounter_unmarked {k : Nat} {s : State} (hmax : (slotOf s k).counter < 0xFFFFFFFFFFFFFFFF)
    (hmark : ((slotOf s k).counter + 1) % 1048576 ≠ 0
      ∧ ((slotOf s k).counter % 1048576 ≠ 0 ∨ markHeld s k ((slotOf s k).counter / 1048576) = true)) :
    useCounter k s = some (setSlot k { slotOf s k with counter := (slotOf s k).counter + 1 } s) := by
  refine (if_neg (Nat.not_le.2 hmax)).trans ((if_neg hmark.1).trans (if_neg ?_))
  rintro ⟨h0, hheld⟩
  exact hmark.2.elim (fun h => h h0) fun h => by rw [h] at hheld; exact absurd hheld (by decide)

theorem markHeld_congr {s t : State} (h : t.keep = s.keep) (k n : Nat) : markHeld t k n = markHeld s k n := by
  unfold markHeld savedMark cellOf
  rw [h]

/-! START (R410, R411). -/

/-- The engine running an operation. -/
def engineRuns (a : AeadRun) (s : State) : State :=
  { s with aead := { s.aead with st := .running, result := 0, bytesDone := 0, statusRead := false, run := some a } }

/-- The run of an operation whose fields are `p`, with the copy of its slot. -/
def startRun (r : Nat) (p : AeadPort) (s : State) : AeadRun :=
  { requester := r, port := p, key := (slotOf s p.slot).key.getD [], size := (slotOf s p.slot).size, epoch := (slotOf s p.slot).epoch }

/-- The state with the fields taken. -/
def fieldsTaken (r : Nat) (p : AeadPort) (s : State) : State := aeadTouch r (setAeadPort r p s)

theorem aeadTouch_sameBut (r : Nat) (s : State) : SameBut [.aead] s (aeadTouch r s) := by
  unfold aeadTouch
  split
  · exact withAead_sameBut _ s
  · exact sameBut_refl _ s

theorem aeadTouch_lockOnly (r : Nat) (s : State) : LockOnly s (aeadTouch r s) := by
  unfold aeadTouch
  split <;> exact ⟨rfl, rfl, rfl, rfl, rfl, rfl, rfl, rfl⟩

theorem fieldsTaken_sameBut (r : Nat) (p : AeadPort) (s : State) : SameBut [.aead] s (fieldsTaken r p s) :=
  ((withAead_sameBut _ s).trans (aeadTouch_sameBut r _)).mono (by simp)

theorem fieldsTaken_slot (r : Nat) (p : AeadPort) (s : State) : (fieldsTaken r p s).aead.slot = s.aead.slot :=
  (aeadTouch_lockOnly r (setAeadPort r p s)).slot

theorem fieldsTaken_run (r : Nat) (p : AeadPort) (s : State) : (fieldsTaken r p s).aead.run = s.aead.run :=
  (aeadTouch_lockOnly r (setAeadPort r p s)).run

theorem aeadPort_fieldsTaken (r : Nat) (p : AeadPort) (s : State) : aeadPort (fieldsTaken r p s) r = p := by
  have hport := (aeadTouch_lockOnly r (setAeadPort r p s)).port
  unfold aeadPort fieldsTaken
  rw [hport]
  exact tabGet_tabPut_self _ _ _ _

theorem slotOf_of_slot {s t : State} (h : t.aead.slot = s.aead.slot) (k : Nat) : slotOf t k = slotOf s k := by
  unfold slotOf
  rw [h]

/-- What a START by the owner makes of the state. -/
def startedState (op r : Nat) (p : AeadPort) (s : State) : State :=
  match aeadVerdict s r p with
  | some c => engineRuns { startRun r p s with verdict := some c } (fieldsTaken r p s)
  | none =>
    if usesCounter op then
      match useCounter p.slot (fieldsTaken r p s) with
      | none => engineRuns { startRun r p s with verdict := some 0x03 } (fieldsTaken r p s)
      | some u =>
        let h := fieldAt 63 32 (slotOf s p.slot).epoch ||| fieldAt 31 0 ((slotOf s p.slot).counter / 4294967296)
        let l := (slotOf s p.slot).counter % 4294967296
        engineRuns { startRun r p s with nonceH := h, nonceL := l } (setAeadPort r { p with nonceH := h, nonceL := l } u)
    else engineRuns { startRun r p s with nonceH := p.nonceH, nonceL := p.nonceL } (fieldsTaken r p s)

theorem aeadStart_eq {op r : Nat} {v : Word} {s : State} (hop : 1 ≤ op ∧ op ≤ 6) (hown : s.aead.owner = r ∧ s.aead.st ≠ .running) :
    aeadStart op r v s = startedState op r (ctlFields (aeadPort s r) op v) s := by
  refine (if_neg fun h => h.elim (fun h1 => h1 hown.1) hown.2).trans ?_
  rw [if_pos hop]
  rfl

theorem aeadStart_ignored {op r : Nat} {v : Word} {s : State} (h : s.aead.owner ≠ r ∨ s.aead.st = .running) : aeadStart op r v s = s := if_pos h

theorem engineRuns_sameBut (a : AeadRun) (s : State) : SameBut [.aead] s (engineRuns a s) := withAead_sameBut _ s

/-- An operation that takes no counter, or whose parameters decide its result, changes the engine alone. -/
theorem engineRuns_fieldsTaken_sameBut (a : AeadRun) (r : Nat) (p : AeadPort) (s : State) : SameBut [.aead] s (engineRuns a (fieldsTaken r p s)) :=
  ((fieldsTaken_sameBut r p s).trans (engineRuns_sameBut a _)).mono (by simp)

/-- What the run of a started operation is, whichever way it started. -/
theorem startedState_run (op r : Nat) (p : AeadPort) (s : State) :
    ∃ a, (startedState op r p s).aead.run = some a ∧ a.port = p ∧ a.requester = r ∧ a.key = (slotOf s p.slot).key.getD []
      ∧ a.epoch = (slotOf s p.slot).epoch ∧ a.size = (slotOf s p.slot).size := by
  unfold startedState
  split
  · exact ⟨_, rfl, rfl, rfl, rfl, rfl, rfl⟩
  · split
    · split <;> exact ⟨_, rfl, rfl, rfl, rfl, rfl, rfl⟩
    · exact ⟨_, rfl, rfl, rfl, rfl, rfl, rfl⟩

/-! The six operations. -/

/-- The command that starts an operation. -/
def Starts (op r : Nat) (v : Word) (i : Instr) : Prop :=
  1 ≤ op ∧ op ≤ 6 ∧ ∀ s, exec i s = onObject (decide (1 ≤ r ∧ r ≤ 4)) s (inDomain 29 s (aeadStart op r v s))

theorem encrypt_starts (r : Nat) (v : Word) : Starts 1 r v (.aeadEncrypt r v) := ⟨by decide, by decide, fun _ => rfl⟩
theorem decrypt_starts (r : Nat) (v : Word) : Starts 2 r v (.aeadDecrypt r v) := ⟨by decide, by decide, fun _ => rfl⟩
theorem wrap_starts (r : Nat) (v : Word) : Starts 3 r v (.aeadWrap r v) := ⟨by decide, by decide, fun _ => rfl⟩
theorem unwrap_starts (r : Nat) (v : Word) : Starts 4 r v (.aeadUnwrap r v) := ⟨by decide, by decide, fun _ => rfl⟩
theorem generate_starts (r : Nat) (v : Word) : Starts 5 r v (.aeadGenerate r v) := ⟨by decide, by decide, fun _ => rfl⟩
theorem joinMac_starts (r : Nat) (v : Word) : Starts 6 r v (.aeadJoinMac r v) := ⟨by decide, by decide, fun _ => rfl⟩

section
variable {op r : Nat} {v : Word} {i : Instr} {s : State} {p : AeadPort}

theorem Starts.exec (h : Starts op r v i) (hr : 1 ≤ r ∧ r ≤ 4 ∧ domOn s 29 = true) : exec i s = commit s (aeadStart op r v s) :=
  (h.2.2 s).trans (commit_aead hr)

theorem Starts.exec_own (h : Starts op r v i) (hr : 1 ≤ r ∧ r ≤ 4 ∧ domOn s 29 = true) (hown : s.aead.owner = r ∧ s.aead.st ≠ .running)
    (hp : p = ctlFields (aeadPort s r) op v) : Machine.exec i s = commit s (startedState op r p s) := by
  rw [h.exec hr, aeadStart_eq ⟨h.1, h.2.1⟩ hown, hp]

theorem Starts.ignored (h : Starts op r v i) (hr : 1 ≤ r ∧ r ≤ 4 ∧ domOn s 29 = true) (hown : s.aead.owner ≠ r ∨ s.aead.st = .running) :
    Completes i s fun t => t = s :=
  completes_unchanged ((h.exec hr).trans (congrArg (commit s) (aeadStart_ignored hown)))

/-- An operation that takes no counter starts with its port's nonce, or with the result that its parameters decide. -/
theorem Starts.plain (h : Starts op r v i) (hr : 1 ≤ r ∧ r ≤ 4 ∧ domOn s 29 = true) (hown : s.aead.owner = r ∧ s.aead.st ≠ .running)
    (hp : p = ctlFields (aeadPort s r) op v) (hplain : usesCounter op = false) :
    Completes i s fun t =>
      t.aead.st = .running ∧ t.aead.result = 0 ∧ t.aead.bytesDone = 0 ∧ aeadPort t r = p ∧ t.aead.slot = s.aead.slot
      ∧ (∃ a, t.aead.run = some a ∧ a.requester = r ∧ a.port = p ∧ a.key = ((slotOf s p.slot).key.getD []) ∧ a.epoch = (slotOf s p.slot).epoch
          ∧ a.verdict = aeadVerdict s r p ∧ (aeadVerdict s r p = none → a.nonceH = p.nonceH ∧ a.nonceL = p.nonceL))
      ∧ Alone [.aead] s t := by
  obtain ⟨a, hstate, hrun, hverdict, hnonce⟩ : ∃ a, startedState op r p s = engineRuns a (fieldsTaken r p s)
      ∧ { a with verdict := none, nonceH := 0, nonceL := 0 } = startRun r p s ∧ a.verdict = aeadVerdict s r p
      ∧ (aeadVerdict s r p = none → a.nonceH = p.nonceH ∧ a.nonceL = p.nonceL) := by
    unfold startedState
    cases aeadVerdict s r p with
    | some c => exact ⟨_, rfl, rfl, rfl, fun h => nomatch h⟩
    | none =>
      dsimp only
      rw [hplain]
      exact ⟨_, rfl, rfl, rfl, fun _ => ⟨rfl, rfl⟩⟩
  refine completes_of_exec (e := engineRuns a (fieldsTaken r p s)) ((h.exec_own hr hown hp).trans (congrArg (commit s) hstate)) fun t ht => ?_
  have haead : t.aead = (engineRuns a (fieldsTaken r p s)).aead := ht.1 .aead (by decide)
  refine ⟨by rw [haead]; rfl, by rw [haead]; rfl, by rw [haead]; rfl, ?_, ?_, ⟨a, by rw [haead]; rfl, ?_, ?_, ?_, ?_, hverdict, hnonce⟩,
    becomes_alone (engineRuns_fieldsTaken_sameBut a r p s) (by decide) ht⟩
  · unfold aeadPort
    rw [haead]
    exact aeadPort_fieldsTaken r p s
  · rw [haead]
    exact fieldsTaken_slot r p s
  · have hf := congrArg AeadRun.requester hrun; exact hf
  · have hf := congrArg AeadRun.port hrun; exact hf
  · have hf := congrArg AeadRun.key hrun; exact hf
  · have hf := congrArg AeadRun.epoch hrun; exact hf

/-- The run of an operation that took a counter, and the state in which it runs. -/
def countedRun (r : Nat) (p : AeadPort) (s : State) : AeadRun :=
  { startRun r p s with
    nonceH := fieldAt 63 32 (slotOf s p.slot).epoch ||| fieldAt 31 0 ((slotOf s p.slot).counter / 4294967296)
    nonceL := (slotOf s p.slot).counter % 4294967296 }
def countedState (r : Nat) (p : AeadPort) (s u : State) : State :=
  engineRuns (countedRun r p s) (setAeadPort r { p with nonceH := (countedRun r p s).nonceH, nonceL := (countedRun r p s).nonceL } u)

theorem countedState_sameBut (r : Nat) (p : AeadPort) (s u : State) : SameBut [.aead] u (countedState r p s u) :=
  ((withAead_sameBut _ u).trans (engineRuns_sameBut _ _)).mono (by simp)

theorem startedState_counted {u : State} (hc : usesCounter op = true) (hgood : aeadVerdict s r p = none)
    (huse : useCounter p.slot (fieldsTaken r p s) = some u) : startedState op r p s = countedState r p s u := by
  unfold startedState
  rw [hgood]
  dsimp only
  rw [hc, if_pos rfl, huse]
  rfl

/-- With good parameters and a counter left it takes the counter as its nonce. -/
theorem Starts.counted {u : State} {gs : List Group} (h : Starts op r v i) (hr : 1 ≤ r ∧ r ≤ 4 ∧ domOn s 29 = true)
    (hown : s.aead.owner = r ∧ s.aead.st ≠ .running) (hp : p = ctlFields (aeadPort s r) op v) (hc : usesCounter op = true)
    (hgood : aeadVerdict s r p = none) (huse : useCounter p.slot (fieldsTaken r p s) = some u) (hu : SameBut gs (fieldsTaken r p s) u)
    (hirq : Group.irq ∉ gs) (haeadIn : Group.aead ∈ gs) :
    Completes i s fun t =>
      t.aead.st = .running ∧ t.aead.result = 0
      ∧ slotOf t p.slot = { slotOf s p.slot with counter := (slotOf s p.slot).counter + 1 } ∧ (∀ k, k ≠ p.slot → slotOf t k = slotOf s k)
      ∧ (∃ a, t.aead.run = some a ∧ a.requester = r ∧ a.key = ((slotOf s p.slot).key.getD []) ∧ a.epoch = (slotOf s p.slot).epoch ∧ a.verdict = none
          ∧ a.nonceH = fieldAt 63 32 (slotOf s p.slot).epoch ||| fieldAt 31 0 ((slotOf s p.slot).counter / 4294967296)
          ∧ a.nonceL = (slotOf s p.slot).counter % 4294967296)
      ∧ t.keep = u.keep ∧ Alone gs s t := by
  obtain ⟨hself, hother⟩ := slotOf_useCounter huse
  have hslot := slotOf_of_slot (fieldsTaken_slot r p s)
  refine completes_of_exec (e := countedState r p s u) ((h.exec_own hr hown hp).trans (congrArg (commit s) (startedState_counted hc hgood huse)))
    fun t ht => ?_
  have haead : t.aead = (countedState r p s u).aead := ht.1 .aead (by decide)
  have hslots : t.aead.slot = u.aead.slot := by rw [haead]; rfl
  refine ⟨by rw [haead]; rfl, by rw [haead]; rfl, ?_, fun k hk => ?_, ⟨countedRun r p s, by rw [haead]; rfl, rfl, rfl, rfl, rfl, rfl, rfl⟩,
    (ht.1 .keep (by decide)).trans (countedState_sameBut r p s u .keep (by decide)), becomes_alone (gs := gs) ?_ hirq ht⟩
  · rw [slotOf_of_slot hslots, hself, hslot]
  · rw [slotOf_of_slot hslots, hother k hk, hslot]
  · refine ((fieldsTaken_sameBut r p s).trans (hu.trans (countedState_sameBut r p s u))).mono fun g hg => ?_
    simp only [List.mem_append, List.mem_cons, List.not_mem_nil, or_false] at hg
    rcases hg with rfl | hg | rfl
    · exact haeadIn
    · exact hg
    · exact haeadIn

theorem Starts.counted_marks {u : State} (h : Starts op r v i) (hr : 1 ≤ r ∧ r ≤ 4 ∧ domOn s 29 = true)
    (hown : s.aead.owner = r ∧ s.aead.st ≠ .running) (hp : p = ctlFields (aeadPort s r) op v) (hc : usesCounter op = true)
    (hgood : aeadVerdict s r p = none) (huse : useCounter p.slot (aeadTouch r (setAeadPort r p s)) = some u) :
    Completes i s fun t =>
      t.aead.st = .running ∧ t.aead.result = 0
      ∧ slotOf t p.slot = { slotOf s p.slot with counter := (slotOf s p.slot).counter + 1 } ∧ (∀ k, k ≠ p.slot → slotOf t k = slotOf s k)
      ∧ (∃ a, t.aead.run = some a ∧ a.requester = r ∧ a.key = ((slotOf s p.slot).key.getD []) ∧ a.epoch = (slotOf s p.slot).epoch ∧ a.verdict = none
          ∧ a.nonceH = fieldAt 63 32 (slotOf s p.slot).epoch ||| fieldAt 31 0 ((slotOf s p.slot).counter / 4294967296)
          ∧ a.nonceL = (slotOf s p.slot).counter % 4294967296)
      ∧ t.keep = u.keep ∧ Alone [.aead, .keep] s t :=
  h.counted hr hown hp hc hgood huse (useCounter_sameBut huse) (by decide) (by decide)

/-- Where R417 asks for no mark nothing is queued. -/
theorem Starts.counted_unmarked (h : Starts op r v i) (hr : 1 ≤ r ∧ r ≤ 4 ∧ domOn s 29 = true)
    (hown : s.aead.owner = r ∧ s.aead.st ≠ .running) (hp : p = ctlFields (aeadPort s r) op v) (hc : usesCounter op = true)
    (hgood : aeadVerdict s r p = none) (hmax : (slotOf s p.slot).counter < 0xFFFFFFFFFFFFFFFF)
    (hmark : ((slotOf s p.slot).counter + 1) % 1048576 ≠ 0
      ∧ ((slotOf s p.slot).counter % 1048576 ≠ 0 ∨ markHeld s p.slot ((slotOf s p.slot).counter / 1048576) = true)) :
    Completes i s fun t =>
      t.aead.st = .running ∧ t.aead.result = 0
      ∧ slotOf t p.slot = { slotOf s p.slot with counter := (slotOf s p.slot).counter + 1 } ∧ (∀ k, k ≠ p.slot → slotOf t k = slotOf s k)
      ∧ (∃ a, t.aead.run = some a ∧ a.requester = r ∧ a.key = ((slotOf s p.slot).key.getD []) ∧ a.epoch = (slotOf s p.slot).epoch ∧ a.verdict = none
          ∧ a.nonceH = fieldAt 63 32 (slotOf s p.slot).epoch ||| fieldAt 31 0 ((slotOf s p.slot).counter / 4294967296)
          ∧ a.nonceL = (slotOf s p.slot).counter % 4294967296)
      ∧ Alone [.aead] s t := by
  have hslot := slotOf_of_slot (fieldsTaken_slot r p s) p.slot
  have huse := useCounter_unmarked (k := p.slot) (s := fieldsTaken r p s) (by rw [hslot]; exact hmax)
    (by rw [hslot, markHeld_congr (fieldsTaken_sameBut r p s .keep (by decide))]; exact hmark)
  exact (h.counted hr hown hp hc hgood huse (setSlot_sameBut _ _ _) (by decide) (by decide)).imp
    fun t ⟨hst, hres, hself, hother, hrun, _, halone⟩ => ⟨hst, hres, hself, hother, hrun, halone⟩

/-- Where its parameters decide a result, or no counter or mark is left, that is the result it will end in. -/
theorem Starts.refused (h : Starts op r v i) (hr : 1 ≤ r ∧ r ≤ 4 ∧ domOn s 29 = true) (hown : s.aead.owner = r ∧ s.aead.st ≠ .running)
    (hp : p = ctlFields (aeadPort s r) op v) (hc : usesCounter op = true)
    (hbad : aeadVerdict s r p ≠ none ∨ useCounter p.slot (aeadTouch r (setAeadPort r p s)) = none) :
    Completes i s fun t =>
      t.aead.st = .running ∧ t.aead.slot = s.aead.slot
      ∧ (∃ a, t.aead.run = some a ∧ a.requester = r ∧ a.port = p ∧ a.verdict = some ((aeadVerdict s r p).getD 3))
      ∧ Alone [.aead] s t := by
  have hstate : startedState op r p s
      = engineRuns { startRun r p s with verdict := some ((aeadVerdict s r p).getD 3) } (fieldsTaken r p s) := by
    unfold startedState
    cases hver : aeadVerdict s r p with
    | some c => rfl
    | none =>
      have hnone : useCounter p.slot (fieldsTaken r p s) = none := hbad.resolve_left fun hn => hn hver
      dsimp only
      rw [hc, if_pos rfl, hnone]
      rfl
  refine completes_of_exec ((h.exec_own hr hown hp).trans (congrArg (commit s) hstate)) fun t ht => ?_
  have haead := ht.1 .aead (by decide)
  refine ⟨by rw [haead]; rfl, by rw [haead]; exact fieldsTaken_slot r p s, ⟨_, by rw [haead]; rfl, rfl, rfl, rfl⟩,
    becomes_alone (engineRuns_fieldsTaken_sameBut _ r p s) (by decide) ht⟩

end

/-- Settles O25. -/
theorem aeadStarts : Obligations.AeadStarts := by
  unfold Obligations.AeadStarts
  refine ⟨fun s r v p hr hown hp => (decrypt_starts r v).plain hr hown hp rfl, fun s r v p hr hown hp => (unwrap_starts r v).plain hr hown hp rfl,
    fun s r v p hr hown hp => (generate_starts r v).plain hr hown hp rfl, fun s r v p hr hown hp => (joinMac_starts r v).plain hr hown hp rfl,
    fun s r v p hr hown hp hgood hmax hmark => (encrypt_starts r v).counted_unmarked hr hown hp rfl hgood hmax hmark,
    fun s u r v p hr hown hp hgood huse => (encrypt_starts r v).counted_marks hr hown hp rfl hgood huse,
    fun s r v p hr hown hp hbad => (encrypt_starts r v).refused hr hown hp rfl hbad,
    fun s r v p hr hown hp hgood hmax hmark => (wrap_starts r v).counted_unmarked hr hown hp rfl hgood hmax hmark,
    fun s u r v p hr hown hp hgood huse => (wrap_starts r v).counted_marks hr hown hp rfl hgood huse,
    fun s r v p hr hown hp hbad => (wrap_starts r v).refused hr hown hp rfl hbad, fun s r v i hi hr hown => ?_⟩
  simp only [List.mem_cons, List.not_mem_nil, or_false] at hi
  rcases hi with rfl | rfl | rfl | rfl | rfl | rfl
  · exact (encrypt_starts r v).ignored hr hown
  · exact (decrypt_starts r v).ignored hr hown
  · exact (wrap_starts r v).ignored hr hown
  · exact (unwrap_starts r v).ignored hr hown
  · exact (generate_starts r v).ignored hr hown
  · exact (joinMac_starts r v).ignored hr hown

end Sys2Proof.Machine
end

section
/-! SUPPORT. How an operation of the AEAD engine ends, and how key slots are loaded and emptied (R410 to R415). -/
namespace Sys2Proof.Machine

/-! The end of an operation (R412). -/

/-- The engine with the operation's result, before the lock passes on. -/
def engineDone (result bytes : Nat) (s : State) : State :=
  { s with aead := { s.aead with st := .done, result := result, bytesDone := bytes, run := none, lastUse := s.clk.now } }

theorem engineDone_congr {s t : State} {result bytes : Nat} (h : t.aead = s.aead) : LockOnly (engineDone result bytes s) (engineDone result bytes t) := by
  unfold engineDone
  rw [h]
  exact ⟨rfl, rfl, rfl, rfl, rfl, rfl, rfl, rfl⟩

theorem aeadEnd_lockOnly (a : AeadRun) (result bytes : Nat) (s : State) : LockOnly (engineDone result bytes s) (aeadEnd a result bytes s) := by
  have hpass : ∀ t : State, LockOnly t (if t.aead.claim && t.aead.owner != 3 then lockFree (lockRevoke t) else t) := fun t => by
    split
    · exact (lockRevoke_lockOnly t).trans (lockFree_lockOnly _)
    · exact ⟨rfl, rfl, rfl, rfl, rfl, rfl, rfl, rfl⟩
  have hcause : LockOnly (engineDone result bytes s) (if a.requester = 4 then setCause 10 (engineDone result bytes s) else engineDone result bytes s) := by
    split <;> exact ⟨rfl, rfl, rfl, rfl, rfl, rfl, rfl, rfl⟩
  exact hcause.trans (hpass _)

/-- An operation that is not the host's raises no cause. -/
theorem aeadEnd_sameBut {a : AeadRun} (result bytes : Nat) (s : State) (ha : a.requester ≠ 4) : SameBut [.aead] s (aeadEnd a result bytes s) := by
  have hpass : ∀ t : State, SameBut [.aead] t (if t.aead.claim && t.aead.owner != 3 then lockFree (lockRevoke t) else t) := fun t => by
    split
    · exact ((lockRevoke_sameBut t).trans (lockFree_sameBut _)).mono (by simp)
    · exact sameBut_refl _ t
  unfold aeadEnd
  dsimp only
  rw [if_neg ha]
  exact ((withAead_sameBut _ s).trans (hpass _)).mono (by simp)

theorem aeadFail_lockOnly (a : AeadRun) (result : Nat) (s : State) : LockOnly (engineDone result 0 s) (aeadFail a result s) := by
  have hout : (aeadOutput a.requester a.port.dst (List.replicate (aeadOutLen a.port) 0) s).aead = s.aead :=
    aeadOutput_sameBut _ _ _ s .aead (by decide)
  exact (engineDone_congr hout).trans (aeadEnd_lockOnly a result 0 _)

/-- An operation that is not the host's ends with output in the near store. -/
theorem completes_ended_near {i : Instr} {a : AeadRun} {result bytes : Nat} {bs : List Byte} {s : State} (ha : a.requester ≠ 4)
    (h : exec i s = commit s (aeadEnd a result bytes (aeadOutput a.requester a.port.dst bs s))) :
    Completes i s fun t =>
      t.aead.st = .done ∧ t.aead.run = none ∧ t.aead.result = result ∧ t.aead.bytesDone = bytes ∧ t.aead.slot = s.aead.slot
      ∧ t.mem = (aeadOutput a.requester a.port.dst bs s).mem ∧ Alone [.aead, .mem] s t := by
  have hout := aeadOutput_sameBut a.requester a.port.dst bs s
  have hslots : (aeadOutput a.requester a.port.dst bs s).aead = s.aead := hout .aead (by decide)
  have hend := aeadEnd_sameBut result bytes (aeadOutput a.requester a.port.dst bs s) ha
  have hlock := aeadEnd_lockOnly a result bytes (aeadOutput a.requester a.port.dst bs s)
  refine completes_of_exec h fun t ht => ?_
  have haead := ht.1 .aead (by decide)
  exact ⟨by rw [haead]; exact hlock.st, by rw [haead]; exact hlock.run, by rw [haead]; exact hlock.result, by rw [haead]; exact hlock.bytesDone,
    by rw [haead]; exact ((engineDone_congr hslots).trans hlock).slot, (ht.1 .mem (by decide)).trans (hend .mem (by decide)),
    alone_becomes (alone_of_sameBut ((hout.trans hend).mono (by simp)) (by decide)) ht⟩

/-! What ends a RUNNING operation (R411, R412, R417). -/

section
variable {s : State} {res : AeadAccess} {a : AeadRun} {c : Nat} {bs : List Byte}

theorem opDone_decided (hrun : s.aead.run = some a ∧ marksPending s = false) (hv : a.verdict = some c) :
    exec (.aeadOpDone res) s = commit s (aeadFail a c s) := by
  show execAeadOpDone res s = _
  unfold execAeadOpDone
  rw [hrun.1]
  dsimp only
  rw [hrun.2, hv]
  rfl

theorem opDone_near (hrun : s.aead.run = some a ∧ marksPending s = false) (hv : a.verdict = none ∧ a.requester ≠ 4) :
    exec (.aeadOpDone res) s = commit s
      (if 67108864 < a.port.src.toNat + aeadInLen a.port ∨ 67108864 < a.port.dst.toNat + aeadOutLen a.port then aeadFail a 0x08 s
       else aeadWork a (memRead s.mem.near a.port.src.toNat (aeadInLen a.port)) s) := by
  show execAeadOpDone res s = _
  unfold execAeadOpDone
  rw [hrun.1]
  dsimp only
  rw [hrun.2, hv.1]
  exact congrArg (commit s) (if_neg hv.2)

theorem opDone_near_works (hrun : s.aead.run = some a ∧ marksPending s = false) (hv : a.verdict = none ∧ a.requester ≠ 4)
    (hin : a.port.src.toNat + aeadInLen a.port ≤ 67108864 ∧ a.port.dst.toNat + aeadOutLen a.port ≤ 67108864) :
    exec (.aeadOpDone res) s = commit s (aeadWork a (memRead s.mem.near a.port.src.toNat (aeadInLen a.port)) s) :=
  (opDone_near hrun hv).trans (congrArg (commit s) (if_neg (by omega)))

theorem opDone_host (hrun : s.aead.run = some a ∧ marksPending s = false) (hv : a.verdict = none ∧ a.requester = 4) :
    exec (.aeadOpDone res) s = commit s (match res.src with
      | none => aeadAccessFault a s
      | some bs => if res.dstOk then aeadWork a bs s else aeadAccessFault a s) := by
  show execAeadOpDone res s = _
  unfold execAeadOpDone
  rw [hrun.1]
  dsimp only
  rw [hrun.2, hv.1]
  exact congrArg (commit s) (if_pos hv.2)

theorem opDone_host_works (hrun : s.aead.run = some a ∧ marksPending s = false) (hv : a.verdict = none ∧ a.requester = 4)
    (hres : res.src = some bs ∧ res.dstOk = true) : exec (.aeadOpDone res) s = commit s (aeadWork a bs s) := by
  rw [opDone_host hrun hv, hres.1]
  exact congrArg (commit s) (if_pos hres.2)

theorem opDone_host_fails (hrun : s.aead.run = some a ∧ marksPending s = false) (hv : a.verdict = none ∧ a.requester = 4)
    (hres : res.src = none ∨ res.dstOk = false) : exec (.aeadOpDone res) s = commit s (aeadAccessFault a s) := by
  rw [opDone_host hrun hv]
  cases hsrc : res.src with
  | none => rfl
  | some bs =>
    have hdst : res.dstOk = false := hres.resolve_left (by simp [hsrc])
    exact congrArg (commit s) (if_neg (by simp [hdst]))

theorem opDone_waits (h : s.aead.run = none ∨ marksPending s = true) : exec (.aeadOpDone res) s = commit s s := by
  show execAeadOpDone res s = _
  unfold execAeadOpDone
  cases hrun : s.aead.run with
  | none => rfl
  | some a =>
    have hmarks : marksPending s = true := h.resolve_left (by simp [hrun])
    exact congrArg (commit s) (if_pos hmarks)

/-! The work of the operations (R411). -/

/-- The bytes sealed by ENCRYPT, and what DECRYPT and UNWRAP open. -/
theorem aeadWork_encrypt (hop : a.port.op = 1) :
    aeadWork a bs s = aeadEnd a 0 a.port.textLen (aeadOutput a.requester a.port.dst
      ((aeadSeal a.port.ccm a.key (a.nonceH.toNat * 4294967296 + a.nonceL) (bs.take a.port.adLen) ((bs.drop a.port.adLen).take a.port.textLen)
          a.port.tagLen).1
        ++ (aeadSeal a.port.ccm a.key (a.nonceH.toNat * 4294967296 + a.nonceL) (bs.take a.port.adLen) ((bs.drop a.port.adLen).take a.port.textLen)
          a.port.tagLen).2) s) := if_pos hop

/-- What lies at SRC opens, or does not. -/
def openedText (a : AeadRun) (bs : List Byte) : Option (List Byte) :=
  aeadOpen a.port.ccm a.key (a.nonceH.toNat * 4294967296 + a.nonceL) (bs.take a.port.adLen) ((bs.drop a.port.adLen).take a.port.textLen)
    (bs.drop (a.port.adLen + a.port.textLen))

theorem aeadWork_decrypt (hop : a.port.op = 2) :
    aeadWork a bs s = match openedText a bs with
      | none => aeadFail a 0x01 s
      | some o => aeadEnd a 0x00 a.port.textLen (aeadOutput a.requester a.port.dst o s) := by
  refine (if_neg ?_).trans (if_pos hop)
  rw [hop]
  decide

theorem aeadWork_unwrap (hop : a.port.op = 4) :
    aeadWork a bs s = match openedText a bs with
      | none => aeadFail a 0x01 s
      | some o => aeadEnd a 0x00 a.port.textLen
          (loadSlot a.port.target (keyOfBytes o) a.port.kSize a.port.kEpoch (floorOf a.requester a.port) s) := by
  refine (if_neg ?_).trans ((if_neg ?_).trans ((if_neg ?_).trans (if_pos hop))) <;> (rw [hop]; decide)

theorem aeadWork_generate (hop : a.port.op = 5) :
    aeadWork a bs s = aeadEnd a 0x00 0 (loadSlot a.port.target (drawDrbg (if a.port.kSize then 4 else 2) s).1 a.port.kSize a.port.kEpoch
      (floorOf a.requester a.port) (drawDrbg (if a.port.kSize then 4 else 2) s).2) := by
  refine (if_neg ?_).trans ((if_neg ?_).trans ((if_neg ?_).trans ((if_neg ?_).trans (if_pos hop)))) <;> (rw [hop]; decide)

/-! Key slots loaded (R414). -/

theorem slotOf_loadSlot (k : Nat) (key : List Word) (size : Bool) (epoch floor : Nat) (s : State) :
    slotOf (loadSlot k key size epoch floor s) k
      = { key := some key, size := size, epoch := epoch, counter := max (slotOf s k).counter floor } := slotOf_setSlot _ _ _

theorem slotOf_loadSlot_ne {k j : Nat} (key : List Word) (size : Bool) (epoch floor : Nat) (s : State) (h : j ≠ k) :
    slotOf (loadSlot k key size epoch floor s) j = slotOf s j := slotOf_setSlot_ne _ _ _ _ h

theorem slotOf_aeadEnd (result bytes k : Nat) (s : State) : slotOf (aeadEnd a result bytes s) k = slotOf s k :=
  slotOf_of_slot (aeadEnd_lockOnly a result bytes s).slot k

theorem slotOf_aeadFail (result k : Nat) (s : State) : slotOf (aeadFail a result s) k = slotOf s k :=
  slotOf_of_slot (aeadFail_lockOnly a result s).slot k

/-- An operation that ends by loading a slot. -/
theorem completes_loaded {i : Instr} {k result bytes epoch floor : Nat} {key : List Word} {size : Bool} {e : State}
    (h : exec i s = commit s (aeadEnd a result bytes (loadSlot k key size epoch floor e))) (he : e.aead.slot = s.aead.slot) :
    Completes i s fun t =>
      slotOf t k = { key := some key, size := size, epoch := epoch, counter := max (slotOf s k).counter floor }
      ∧ (∀ j, j ≠ k → slotOf t j = slotOf s j) ∧ t.aead.run = none := by
  refine completes_of_exec h fun t ht => ?_
  have haead := ht.1 .aead (by decide)
  refine ⟨?_, fun j hj => ?_, ?_⟩
  · rw [slotOf_congr haead, slotOf_aeadEnd, slotOf_loadSlot, slotOf_of_slot he]
  · rw [slotOf_congr haead, slotOf_aeadEnd, slotOf_loadSlot_ne _ _ _ _ _ hj, slotOf_of_slot he]
  · rw [haead]
    exact (aeadEnd_lockOnly a result bytes _).run

/-- The bytes that lie at SRC: the host's, or the near store's within its bounds. -/
theorem opDone_works (hrun : s.aead.run = some a ∧ marksPending s = false) (hv : a.verdict = none)
    (hhost : a.requester = 4 → res.src = some bs ∧ res.dstOk = true)
    (hnear : a.requester ≠ 4 → bs = memRead s.mem.near a.port.src.toNat (aeadInLen a.port)
      ∧ a.port.src.toNat + aeadInLen a.port ≤ 67108864 ∧ a.port.dst.toNat + aeadOutLen a.port ≤ 67108864) :
    exec (.aeadOpDone res) s = commit s (aeadWork a bs s) := by
  by_cases hr : a.requester = 4
  · exact opDone_host_works hrun ⟨hv, hr⟩ (hhost hr)
  · obtain ⟨rfl, hin⟩ := hnear hr
    exact opDone_near_works hrun ⟨hv, hr⟩ hin

theorem generate_loads (hrun : s.aead.run = some a ∧ marksPending s = false ∧ a.verdict = none ∧ a.port.op = opGenerate)
    (hhost : a.requester = 4 → res.src.isSome = true ∧ res.dstOk = true)
    (hnear : a.requester ≠ 4 → a.port.src.toNat ≤ 67108864 ∧ a.port.dst.toNat ≤ 67108864) :
    Completes (.aeadOpDone res) s fun t =>
      (∃ key, key.length = (if a.port.kSize then 4 else 2) ∧ slotOf t a.port.target = { slotOf s a.port.target with
        key := some key, size := a.port.kSize, epoch := a.port.kEpoch
        counter := max (slotOf s a.port.target).counter (if a.requester = 4 then 0 else a.port.floor.toNat) })
      ∧ (∀ j, j ≠ a.port.target → slotOf t j = slotOf s j) ∧ t.aead.run = none := by
  obtain ⟨hrun, hmarks, hv, hop⟩ := hrun
  have hlen : aeadInLen a.port = 0 ∧ aeadOutLen a.port = 0 := by
    unfold aeadInLen aeadOutLen
    rw [hop]
    exact ⟨rfl, rfl⟩
  have hexec : exec (.aeadOpDone res) s
      = commit s (aeadWork a (if a.requester = 4 then res.src.getD [] else memRead s.mem.near a.port.src.toNat (aeadInLen a.port)) s) := by
    refine opDone_works ⟨hrun, hmarks⟩ hv (fun hr => ?_) fun hr => ?_
    · obtain ⟨bs, hbs⟩ := Option.isSome_iff_exists.1 (hhost hr).1
      rw [if_pos hr, hbs]
      exact ⟨rfl, (hhost hr).2⟩
    · rw [if_neg hr, hlen.1, hlen.2]
      exact ⟨rfl, hnear hr⟩
  rw [aeadWork_generate hop] at hexec
  refine (completes_loaded hexec rfl).imp fun t ⟨hself, hrest⟩ => ⟨⟨_, ?_, hself⟩, hrest⟩
  exact (List.length_map _).trans List.length_range

theorem unwrap_ends {src : List Byte} (hrun : s.aead.run = some a ∧ marksPending s = false ∧ a.verdict = none ∧ a.port.op = opUnwrap)
    (hhost : a.requester = 4 → res.src = some src ∧ res.dstOk = true)
    (hnear : a.requester ≠ 4 → src = memRead s.mem.near a.port.src.toNat (aeadInLen a.port)
      ∧ a.port.src.toNat + aeadInLen a.port ≤ 67108864 ∧ a.port.dst.toNat ≤ 67108864) :
    (∀ key, openedText a src = some key → Completes (.aeadOpDone res) s fun t =>
      slotOf t a.port.target = { slotOf s a.port.target with
        key := some (keyOfBytes key), size := a.port.kSize, epoch := a.port.kEpoch
        counter := max (slotOf s a.port.target).counter (if a.requester = 4 then 0 else a.port.floor.toNat) }
      ∧ (∀ j, j ≠ a.port.target → slotOf t j = slotOf s j) ∧ t.aead.run = none)
    ∧ (openedText a src = none → Completes (.aeadOpDone res) s fun t => (∀ j, slotOf t j = slotOf s j) ∧ t.aead.run = none) := by
  obtain ⟨hrun, hmarks, hv, hop⟩ := hrun
  have hlen : aeadOutLen a.port = 0 := by
    unfold aeadOutLen
    rw [hop]
    rfl
  have hexec : exec (.aeadOpDone res) s = commit s (aeadWork a src s) :=
    opDone_works ⟨hrun, hmarks⟩ hv hhost fun hr => by rw [hlen]; exact hnear hr
  rw [aeadWork_unwrap hop] at hexec
  refine ⟨fun key ho => ?_, fun ho => ?_⟩
  · rw [ho] at hexec
    exact completes_loaded hexec rfl
  · rw [ho] at hexec
    refine completes_of_exec hexec fun t ht => ⟨fun j => ?_, ?_⟩
    · rw [slotOf_congr (ht.1 .aead (by decide)), slotOf_aeadFail]
    · rw [ht.1 .aead (by decide)]
      exact (aeadFail_lockOnly a 1 s).run

end

/-! Key registers (R410, R413 to R415). -/

section
variable {s : State} {r : Nat} {v : Word} {p : AeadPort}

theorem exec_keyWrite (hr : 1 ≤ r ∧ r ≤ 4 ∧ domOn s 29 = true) : exec (.aeadKeyWrite r v) s = commit s (keyLoad r v s) := commit_aead hr

theorem exec_keyZeroise (hr : 1 ≤ r ∧ r ≤ 4 ∧ domOn s 29 = true) : exec (.aeadKeyZeroise r v) s = commit s (keyErase r v s) := commit_aead hr

theorem aeadPort_congr {s t : State} (h : t.aead.port = s.aead.port) (r : Nat) : aeadPort t r = aeadPort s r := by
  unfold aeadPort
  rw [h]

/-- A key register's fields are taken alone where the requester may not load the slot. -/
theorem completes_fieldsTaken {i : Instr} (h : exec i s = commit s (fieldsTaken r p s)) :
    Completes i s fun t => t.aead.slot = s.aead.slot ∧ t.aead.run = s.aead.run ∧ aeadPort t r = p ∧ Alone [.aead] s t := by
  refine (completes_withAead h (fieldsTaken_sameBut r p s)).imp fun t ⟨haead, halone⟩ => ⟨?_, ?_, ?_, halone⟩
  · rw [haead, fieldsTaken_slot]
  · rw [haead, fieldsTaken_run]
  · rw [aeadPort_congr (congrArg Aead.port haead), aeadPort_fieldsTaken]

/-- And where it may, the slot is replaced. -/
theorem completes_slotSet {i : Instr} {k : Nat} {x : Slot} (h : exec i s = commit s (setSlot k x (fieldsTaken r p s))) :
    Completes i s fun t => slotOf t k = x ∧ (∀ j, j ≠ k → slotOf t j = slotOf s j) ∧ aeadPort t r = p ∧ t.aead.run = s.aead.run ∧ Alone [.aead] s t := by
  refine (completes_withAead h (((fieldsTaken_sameBut r p s).trans (setSlot_sameBut _ _ _)).mono (by simp))).imp
    fun t ⟨haead, halone⟩ => ⟨?_, fun j hj => ?_, ?_, ?_, halone⟩
  · rw [slotOf_congr haead, slotOf_setSlot]
  · rw [slotOf_congr haead, slotOf_setSlot_ne _ _ _ _ hj, slotOf_of_slot (fieldsTaken_slot r p s)]
  · rw [aeadPort_congr (congrArg Aead.port haead)]
    exact aeadPort_fieldsTaken r p s
  · rw [haead]
    exact fieldsTaken_run r p s

theorem keyWrite_loads (hr : 1 ≤ r ∧ r ≤ 4 ∧ domOn s 29 = true) (hp : p = kslotFields (aeadPort s r) v) (hmay : slotLoadable r p.kSel = true) :
    Completes (.aeadKeyWrite r v) s fun t =>
      slotOf t p.kSel = {
          key := some (if p.kSize then p.key else p.key.take 2), size := p.kSize, epoch := p.kEpoch
          counter := max (slotOf s p.kSel).counter (floorOf r p) }
      ∧ (∀ k, k ≠ p.kSel → slotOf t k = slotOf s k) ∧ aeadPort t r = p ∧ t.aead.run = s.aead.run ∧ Alone [.aead] s t := by
  subst hp
  refine completes_slotSet ((exec_keyWrite hr).trans (congrArg (commit s) ((if_pos hmay).trans ?_)))
  unfold loadSlot
  dsimp only
  rw [← slotOf_of_slot (fieldsTaken_slot r (kslotFields (aeadPort s r) v) s)]
  rfl

theorem keyWrite_denied (hr : 1 ≤ r ∧ r ≤ 4 ∧ domOn s 29 = true) (hp : p = kslotFields (aeadPort s r) v) (hmay : slotLoadable r p.kSel = false) :
    Completes (.aeadKeyWrite r v) s fun t => t.aead.slot = s.aead.slot ∧ t.aead.run = s.aead.run ∧ aeadPort t r = p ∧ Alone [.aead] s t := by
  subst hp
  exact completes_fieldsTaken ((exec_keyWrite hr).trans (congrArg (commit s) (if_neg (by simp [hmay]))))

theorem keyZeroise_denied (hr : 1 ≤ r ∧ r ≤ 4 ∧ domOn s 29 = true) (hp : p = kslotFields (aeadPort s r) v) (hmay : slotLoadable r p.kSel = false) :
    Completes (.aeadKeyZeroise r v) s fun t => t.aead.slot = s.aead.slot ∧ t.aead.run = s.aead.run ∧ aeadPort t r = p ∧ Alone [.aead] s t := by
  subst hp
  exact completes_fieldsTaken ((exec_keyZeroise hr).trans (congrArg (commit s) (if_neg (by simp [hmay]))))

/-- No operation on slot k runs: zeroising it empties the slot alone. -/
theorem zeroiseSlot_quiet {k : Nat} (h : ∀ a, s.aead.run = some a → a.port.slot ≠ k ∨ a.port.op = 5) :
    zeroiseSlot k s = setSlot k { slotOf s k with key := none } s := by
  unfold zeroiseSlot
  dsimp only
  have hrun : (setSlot k { slotOf s k with key := none } s).aead.run = s.aead.run := rfl
  rw [hrun]
  cases hsome : s.aead.run with
  | none => rfl
  | some a => exact if_neg fun ⟨hslot, hop⟩ => (h a hsome).elim (fun hne => hne hslot) fun h5 => hop h5

theorem zeroiseSlot_running {k : Nat} {a : AeadRun} (h : s.aead.run = some a ∧ a.port.slot = k ∧ a.port.op ≠ 5) :
    zeroiseSlot k s = aeadFail a 2 (setSlot k { slotOf s k with key := none } s) := by
  unfold zeroiseSlot
  dsimp only
  have hrun : (setSlot k { slotOf s k with key := none } s).aead.run = some a := h.1
  rw [hrun]
  exact if_pos ⟨h.2.1, h.2.2⟩

theorem keyErase_eq (hp : p = kslotFields (aeadPort s r) v) (hmay : slotLoadable r p.kSel = true) :
    keyErase r v s = zeroiseSlot p.kSel (fieldsTaken r p s) := by
  subst hp
  exact if_pos hmay

theorem keyZeroise_empties (hr : 1 ≤ r ∧ r ≤ 4 ∧ domOn s 29 = true) (hp : p = kslotFields (aeadPort s r) v)
    (hquiet : ∀ a, s.aead.run = some a → a.port.slot ≠ p.kSel ∨ a.port.op = 5) (hmay : slotLoadable r p.kSel = true) :
    Completes (.aeadKeyZeroise r v) s fun t =>
      slotOf t p.kSel = { slotOf s p.kSel with key := none } ∧ (∀ k, k ≠ p.kSel → slotOf t k = slotOf s k) ∧ aeadPort t r = p
      ∧ Alone [.aead] s t := by
  have hexec : exec (.aeadKeyZeroise r v) s = commit s (setSlot p.kSel { slotOf s p.kSel with key := none } (fieldsTaken r p s)) := by
    rw [exec_keyZeroise hr, keyErase_eq hp hmay, zeroiseSlot_quiet (by rw [fieldsTaken_run]; exact hquiet),
      slotOf_of_slot (fieldsTaken_slot r p s)]
  exact (completes_slotSet hexec).imp fun t ⟨hself, hother, hport, _, halone⟩ => ⟨hself, hother, hport, halone⟩

theorem keyZeroise_ends {a : AeadRun} (hr : 1 ≤ r ∧ r ≤ 4 ∧ domOn s 29 = true) (hp : p = kslotFields (aeadPort s r) v)
    (hrun : s.aead.run = some a ∧ a.port.slot = p.kSel ∧ a.port.op ≠ 5) (hmay : slotLoadable r p.kSel = true) :
    Completes (.aeadKeyZeroise r v) s fun t => ∃ u, u = aeadTouch r (setAeadPort r p s)
      ∧ Leaves s (aeadFail a 2 (setSlot p.kSel { slotOf u p.kSel with key := none } u)) t := by
  have hexec : exec (.aeadKeyZeroise r v) s
      = commit s (aeadFail a 2 (setSlot p.kSel { slotOf (fieldsTaken r p s) p.kSel with key := none } (fieldsTaken r p s))) := by
    rw [exec_keyZeroise hr, keyErase_eq hp hmay, zeroiseSlot_running (by rw [fieldsTaken_run]; exact hrun)]
  exact (completes_leaves hexec).imp fun t ht => ⟨_, rfl, ht⟩

end

/-! The random bit generator (R423). -/

theorem exec_healthFail {s : State} (hon : domOn s 29 = true) :
    exec .entropyHealthFail s = commit s { s with aead := { s.aead with drbgHalted := true } } := congrArg (commit s) (if_pos hon)

theorem exec_reseed {s : State} (hdue : domOn s 29 = true ∧ s.aead.drbgHalted = false ∧ 1048576 ≤ s.aead.drbgRequests) :
    exec .drbgReseed s = commit s { s with aead := { s.aead with drbgRequests := 0 } } :=
  congrArg (commit s) (if_pos (by simp [hdue]))

/-- Settles O26. -/
theorem aeadOperations : Obligations.AeadOperations := by
  unfold Obligations.AeadOperations
  refine ⟨fun s res a c hrun hv ha => ?_, fun s res a c hrun hv => completes_leaves ?_,
    fun s res a hrun hv hin => completes_leaves (opDone_near_works hrun hv hin), fun s res a bs o hrun hv hin hbs ho => ?_,
    fun s res a bs o hrun hv hin hbs ho => ?_, fun s res a bs hrun hv hin hbs ho => ?_,
    fun s res a bs hrun hv hres => completes_leaves (opDone_host_works hrun hv hres),
    fun s res a hrun hv hres => completes_leaves (opDone_host_fails hrun hv hres), fun s res h => completes_unchanged (opDone_waits h),
    fun s r v p hr hp hmay => (keyWrite_loads hr hp hmay).imp fun t ⟨hself, hother, hport, _, halone⟩ => ⟨hself, hother, hport, halone⟩,
    fun s r v p hr hp hmay => keyWrite_denied hr hp hmay, fun s r v p hr hp hquiet hmay => keyZeroise_empties hr hp hquiet hmay,
    fun s r v p hr hp hmay => keyZeroise_denied hr hp hmay, fun s r v p a hr hp hrun hmay => keyZeroise_ends hr hp hrun hmay,
    fun s hon => completes_withAead (exec_healthFail hon) (withAead_sameBut _ s),
    fun s hdue => completes_withAead (exec_reseed hdue) (withAead_sameBut _ s)⟩
  · exact (completes_ended_near ha.1 (opDone_decided hrun hv)).imp fun t ⟨hst, hnone, hres, hbytes, _, hrest⟩ => ⟨hst, hnone, hres, hbytes, hrest⟩
  · obtain hv | ⟨hnone, hr, rfl, hover⟩ := hv
    · exact opDone_decided hrun hv
    · exact (opDone_near hrun ⟨hnone, hr⟩).trans (congrArg (commit s) (if_pos hover))
  · obtain ⟨hnone, hr, _, hop⟩ := hv
    have hexec := (opDone_near_works (res := res) hrun ⟨hnone, hr⟩ hin).trans (congrArg (commit s) (aeadWork_encrypt hop))
    rw [← hbs, ← ho] at hexec
    exact completes_ended_near hr hexec
  · obtain ⟨hnone, hr, _, hop⟩ := hv
    have hexec := (opDone_near_works (res := res) hrun ⟨hnone, hr⟩ hin).trans (congrArg (commit s) (aeadWork_decrypt hop))
    rw [← hbs, openedText, ho] at hexec
    exact completes_ended_near hr hexec
  · obtain ⟨hnone, hr, _, hop⟩ := hv
    have hexec := (opDone_near_works (res := res) hrun ⟨hnone, hr⟩ hin).trans (congrArg (commit s) (aeadWork_decrypt hop))
    rw [← hbs, openedText, ho] at hexec
    exact completes_ended_near hr hexec

/-- The command that starts each operation code. -/
theorem starts_of_mem {op r : Nat} {v : Word} {i : Instr}
    (h : (op, i) ∈ [(1, .aeadEncrypt r v), (2, .aeadDecrypt r v), (3, .aeadWrap r v), (4, .aeadUnwrap r v), (5, .aeadGenerate r v),
      (6, .aeadJoinMac r v)]) : Starts op r v i := by
  simp only [List.mem_cons, Prod.mk.injEq, List.not_mem_nil, or_false] at h
  obtain ⟨rfl, rfl⟩ | ⟨rfl, rfl⟩ | ⟨rfl, rfl⟩ | ⟨rfl, rfl⟩ | ⟨rfl, rfl⟩ | ⟨rfl, rfl⟩ := h
  · exact encrypt_starts r v
  · exact decrypt_starts r v
  · exact wrap_starts r v
  · exact unwrap_starts r v
  · exact generate_starts r v
  · exact joinMac_starts r v

/-- Settles O49: loads go through one `loadSlot`, and a start copies the slot before anything else can reach it. -/
theorem keySlotLoads : Obligations.KeySlotLoads := by
  unfold Obligations.KeySlotLoads
  refine ⟨fun s r v h k hk => ?_, fun s res a hrun hdue => generate_loads hrun hdue.1 hdue.2, fun s res a src hrun hdue o ho => ?_,
    fun s r op v i h hi => ?_⟩
  · obtain ⟨hlo, hhi, hon, hmay⟩ := h
    subst hk
    exact (keyWrite_loads (p := kslotFields (aeadPort s r) v) ⟨hlo, hhi, hon⟩ rfl hmay).imp
      fun t ⟨hself, hother, _, hrun, halone⟩ => ⟨hself, hother, hrun, halone⟩
  · subst ho
    exact unwrap_ends hrun hdue.1 hdue.2
  · obtain ⟨hlo, hhi, hon, hown, hst⟩ := h
    have hstarts := starts_of_mem hi
    obtain ⟨a, hrun, hport, hreq, hkey, hepoch, hsize⟩ := startedState_run op r (ctlFields (aeadPort s r) op v) s
    refine completes_of_exec (hstarts.exec_own ⟨hlo, hhi, hon⟩ ⟨hown, hst⟩ rfl) fun t ht => ⟨a, ?_, ?_, hreq, hkey, hepoch, hsize⟩
    · rw [ht.1 .aead (by decide)]
      exact hrun
    · rw [hport]
      rfl

end Sys2Proof.Machine
end

section
/-! SUPPORT. The reports of security, ledger and supply, the join keys and zeroise (R385, R415, R421, R424, R452, R453). -/
namespace Sys2Proof.Machine

/-! Reports. -/

theorem attestReport_state (s : State) (nonce : List Word) : (attestReport s nonce).2 = (drawDrbg 6 s).2 := rfl

theorem attest_reports {s : State} {m : Nat} (h : Serves s m 0x0605 0) (hw : (boxOf s m).paramWords = 6) (hid : identFault s = false)
    (hd : domOn s 28 = true) :
    Completes (.securityAttest m) s fun t => ∃ off, Answers t m [BitVec.ofNat 64 off]
      ∧ t.mem = { s.mem with near := memWriteWords s.mem.near off (attestReport s (prms (boxOf s m) 0 6)).1 }
      ∧ t.aead = { s.aead with drbgRequests := s.aead.drbgRequests + 1 } ∧ SameBut [.clk, .aead, .mem, .mb, .irq, .out] s t := by
  refine completes_reported (o := execSecurityAttest m s) (e := (attestReport s (prms (boxOf s m) 0 6)).2)
    (ws := (attestReport s (prms (boxOf s m) 0 6)).1) rfl rfl h (exactly_of_eq hw) (checked_pass ?_)
    (by rw [attestReport_state]; exact drawDrbg_sameBut 6 s) (by decide) fun u off ha hmem hsame hframe => ⟨off, ha, hmem, ?_, hframe.mono (by simp)⟩
  · intro c hc
    simp only [List.mem_cons, List.not_mem_nil, or_false] at hc
    rcases hc with rfl | rfl
    · exact congrArg (!·) hid
    · exact hd
  · have haead : u.aead = (attestReport s (prms (boxOf s m) 0 6)).2.aead := hsame .aead (by decide)
    rw [haead, attestReport_state]
    rfl

theorem cert_reports {s : State} {m : Nat} (h : Serves s m 0x0606 0) (hw : (boxOf s m).paramWords = 0) (hd : domOn s 28 = true) :
    Completes (.securityCert m) s fun t => ∃ off, Answers t m [BitVec.ofNat 64 off]
      ∧ t.mem = { s.mem with
          near := memWriteWords s.mem.near off
            ((List.range 12).map (fun i => keepWord s (4 + i)) ++ (List.range 224).map (fun i => keepWord s (32 + i))) }
      ∧ SameBut [.clk, .mem, .mb, .irq, .out] s t :=
  completes_reported (o := execSecurityCert m s) (e := s) rfl rfl h (noWords_of_eq hw)
    (checked_pass fun c hc => by rw [List.mem_singleton.1 hc]; exact hd) (sameBut_refl [] s) (by decide)
    fun _ off ha hmem _ hframe => ⟨off, ha, hmem, hframe⟩

/-- The six words of a sensor's ledger record; an absent record's state reads as no rule says. -/
def ledgerRow (s : State) (n : Nat) : List Word :=
  let x := tabGet {} s.age.sensors n
  [if ledgerPresent s n then BitVec.ofNat 64 (domCode (domOf s (sensorDomain n)).state) else BitVec.ofInt 64 (Config.derived 454 []),
   BitVec.ofInt 64 x.s, BitVec.ofInt 64 x.now, BitVec.ofInt 64 (ledgerFresh s n - x.now), BitVec.ofInt 64 x.rate, BitVec.ofInt 64 (x.needV / 100)]

/-- All the words of the ledger. -/
def ledgerReport (s : State) : List Word :=
  [BitVec.ofInt 64 (s.age.headroom / 100), BitVec.ofNat 64 s.age.worst, BitVec.ofNat 64 (tabGet {} s.age.sensors s.age.worst).yearsLeft]
    ++ (List.range 48).flatMap (ledgerRow s)

theorem ledgerReport_length (s : State) : (ledgerReport s).length = 3 + 48 * 6 := by
  unfold ledgerReport
  rw [List.length_append, length_flatMap_const _ 6 _ fun _ => rfl, List.length_range]
  rfl

theorem ledger_delivers {s : State} {m : Nat} (h : Serves s m 0x0904 0) (hw : (boxOf s m).paramWords = 0) (hd : domOn s 28 = true) :
    Completes (.ageingLedger m) s fun t => Delivers s t m (ledgerReport s) ∧ SameBut [.clk, .mem, .mb, .irq, .out] s t :=
  completes_delivered (o := execAgeingLedger m s) (ws := ledgerReport s) rfl rfl h (noWords_of_eq hw) rfl (.inr hd)
    (by rw [ledgerReport_length]; decide) (sameBut_refl [] s) (by decide) (by decide) fun _ hu hframe _ => ⟨hu, hframe⟩

/-- The two words of a regulator. -/
def regulatorRow (r : Regulator) : List Word :=
  [fieldAt 63 56 r.addr ||| fieldAt 55 40 r.vout ||| fieldAt 39 24 r.iout ||| fieldAt 23 16 r.temp, fieldAt 15 0 r.status]

theorem avsStatus_answers {s : State} {m : Nat} (h : Serves s m 0x0903 0) (hw : (boxOf s m).paramWords = 0) (hregs : s.avs.regs.length ≤ 57) :
    Completes (.powerAvsStatus m) s fun t =>
      Answers t m ([BitVec.ofNat 64 (s.avs.setPoint * 5 / 2), BitVec.ofNat 64 (avsState s), BitVec.ofInt 64 s.avs.sMin,
          BitVec.ofNat 64 s.avs.sMinSensor, BitVec.ofInt 64 (s.age.headroom / 100)] ++ s.avs.regs.flatMap regulatorRow)
      ∧ DoneAlone m [] s t := by
  refine completes_readout (o := execPowerAvsStatus m s) rfl rfl h (noWords_of_eq hw) rfl ?_
  show (_ ++ s.avs.regs.flatMap regulatorRow).length ≤ 120
  rw [List.length_append, length_flatMap_const _ 2 _ fun _ => rfl]
  simp only [List.length_cons, List.length_nil]
  omega

/-! Slots zeroised (R415). -/

theorem zeroiseSlot_sameBut (k : Nat) (s : State) : SameBut [.aead, .irq, .mem, .out] s (zeroiseSlot k s) := by
  unfold zeroiseSlot
  dsimp only
  split
  · split
    · exact ((setSlot_sameBut _ _ _).trans (aeadFail_sameBut _ _ _)).mono (by simp)
    · exact (setSlot_sameBut _ _ _).mono (by simp)
  · exact (setSlot_sameBut _ _ _).mono (by simp)

theorem zeroiseSlot_slot (k : Nat) (s : State) :
    (zeroiseSlot k s).aead.slot = (setSlot k { slotOf s k with key := none } s).aead.slot := by
  unfold zeroiseSlot
  dsimp only
  split
  · split
    · exact (aeadFail_lockOnly _ _ _).slot
    · rfl
  · rfl

theorem slotOf_zeroiseSlot (k : Nat) (s : State) : slotOf (zeroiseSlot k s) k = { slotOf s k with key := none } := by
  rw [slotOf_of_slot (zeroiseSlot_slot k s), slotOf_setSlot]

theorem slotOf_zeroiseSlot_ne {k j : Nat} (s : State) (h : j ≠ k) : slotOf (zeroiseSlot k s) j = slotOf s j := by
  rw [slotOf_of_slot (zeroiseSlot_slot k s), slotOf_setSlot_ne _ _ _ _ h]

/-- Several slots zeroised. -/
def zeroiseSlots (ks : List Nat) (s : State) : State := ks.foldl (fun t i => zeroiseSlot i t) s

theorem zeroiseSlots_sameBut (ks : List Nat) (s : State) : SameBut [.aead, .irq, .mem, .out] s (zeroiseSlots ks s) :=
  foldl_sameBut (fun t k => zeroiseSlot_sameBut k t) ks s

theorem zeroiseSlots_key {k : Nat} {ks : List Nat} {s : State} (h : k ∈ ks ∨ (slotOf s k).key = none) : (slotOf (zeroiseSlots ks s) k).key = none := by
  induction ks generalizing s with
  | nil => exact h.resolve_left List.not_mem_nil
  | cons j ks ih =>
    refine ih (s := zeroiseSlot j s) ?_
    by_cases hkj : k = j
    · subst hkj
      exact .inr (congrArg Slot.key (slotOf_zeroiseSlot k s))
    · exact h.imp (fun hm => (List.mem_cons.1 hm).resolve_left hkj) fun hn => (congrArg Slot.key (slotOf_zeroiseSlot_ne s hkj)).trans hn

/-! Join keys (R421). -/

section
variable {s : State} {m : Nat} {b : Mailbox}

/-- The endpoint's join key replaced. -/
def joinKeyPut (id : Nat) (key : List Word) (s : State) : State := { s with sec := { s.sec with joinKeys := tabPut [] s.sec.joinKeys id key } }

theorem joinKeyPut_sameBut (id : Nat) (key : List Word) (s : State) : SameBut [.sec] s (joinKeyPut id key s) := withSec_sameBut _ s

theorem joinKey_deleted (h : Serves s m 0x0602 0) (hb : boxOf s m = b) (hw : b.paramWords = 8) (hact : prmN b 2 = 2) :
    Completes (.securityJoinKey m) s fun t =>
      Answers t m [] ∧ t.sec = { s.sec with joinKeys := tabPut [] s.sec.joinKeys (epIdOf b 0) [] } ∧ DoneAlone m [.sec] s t := by
  subst hb
  exact completes_served (o := execSecurityJoinKey m s) (e := joinKeyPut (epIdOf (boxOf s m) 0) [] s) (ws := []) rfl rfl h (exactly_of_eq hw)
    ((checked_pass fun c hc => by rw [List.mem_singleton.1 hc]; exact inRange_fst.2 (by omega)).trans (if_pos hact)) (Nat.zero_le _)
    fun u hu => ⟨hu.answers, hu.same .sec (by decide), hu.doneAlone (joinKeyPut_sameBut _ _ s) (by decide) (by decide)⟩

theorem joinKey_refused (h : Serves s m 0x0602 0) (hb : boxOf s m = b) (hw : b.paramWords = 8) (hact : prmN b 2 = 1)
    (hprov : (slotOf s 0).key = none) : Completes (.securityJoinKey m) s fun t => Refuses t m 0x15 ∧ t.sec = s.sec ∧ t.aead = s.aead := by
  subst hb
  refine (completes_refused (o := execSecurityJoinKey m s) (st := 0x15) (d := 0) rfl rfl h (exactly_of_eq hw)
    ((checked_pass fun c hc => by rw [List.mem_singleton.1 hc]; exact inRange_fst.2 (by omega)).trans ((if_neg (by omega)).trans ?_))).imp
    fun t ⟨href, _, hdone⟩ => ⟨href, hdone.1 .sec (by decide), hdone.1 .aead (by decide)⟩
  rw [hprov]

/-- The key of the join wrapped under STORE's key with its counter. -/
def joinWrapped (s : State) (key : List Word) (b : Mailbox) (bs : List Byte) : List Word :=
  let w := aeadSeal false key ((slotOf s 1).epoch * 18446744073709551616 + (slotOf s 1).counter) (bytesBE (prm b 0) ++ bytesBE (prm b 1)) bs 16
  BitVec.ofNat 64 (slotOf s 1).counter :: keyOfBytes (w.1 ++ w.2)

theorem joinKey_kept {u : State} {k key : List Word} {bs : List Byte} (h : Serves s m 0x0602 0) (hb : boxOf s m = b) (hw : b.paramWords = 8)
    (hact : prmN b 2 = 1) (hkeys : (slotOf s 0).key = some k ∧ (slotOf s 1).key = some key)
    (hopen : aeadOpen false k (0xFFFFFFF0 * 18446744073709551616 + prmN b 3) (bytesBE (prm b 0) ++ bytesBE (prm b 1))
      (bytesBE (prm b 4) ++ bytesBE (prm b 5)) (bytesBE (prm b 6) ++ bytesBE (prm b 7)) = some bs) (huse : useCounter 1 s = some u) :
    Completes (.securityJoinKey m) s fun t =>
      Answers t m [] ∧ (slotOf t 2).key = none ∧ (slotOf s 1).counter < (slotOf t 1).counter
      ∧ t.sec.joinKeys = tabPut [] s.sec.joinKeys (epIdOf b 0) (joinWrapped s key b bs) := by
  subst hb
  refine completes_served (o := execSecurityJoinKey m s)
    (e := zeroiseSlot 2 (joinKeyPut (epIdOf (boxOf s m) 0) (joinWrapped s key (boxOf s m) bs) u)) (ws := []) rfl rfl h (exactly_of_eq hw)
    ((checked_pass fun c hc => by rw [List.mem_singleton.1 hc]; exact inRange_fst.2 (by omega)).trans ((if_neg (by omega)).trans ?_))
    (Nat.zero_le _) fun t ht => ?_
  · rw [hkeys.1]
    dsimp only
    rw [hopen, huse, hkeys.2]
    rfl
  have hslot := fun j => slotOf_congr (ht.same .aead (by decide)) j
  refine ⟨ht.answers, ?_, ?_, ?_⟩
  · rw [hslot, slotOf_zeroiseSlot]
  · have hone : slotOf (joinKeyPut (epIdOf (boxOf s m) 0) (joinWrapped s key (boxOf s m) bs) u) 1 = slotOf u 1 := rfl
    rw [hslot, slotOf_zeroiseSlot_ne _ (by decide), hone, (slotOf_useCounter huse).1]
    exact Nat.lt_succ_self _
  · have hsec : t.sec = (joinKeyPut (epIdOf (boxOf s m) 0) (joinWrapped s key (boxOf s m) bs) u).sec :=
      (ht.same .sec (by decide)).trans (zeroiseSlot_sameBut 2 _ .sec (by decide))
    have hkept : u.sec = s.sec := useCounter_sameBut huse .sec (by decide)
    rw [hsec, joinKeyPut, hkept]

/-! `security.zeroise` (R415). -/

theorem zeroiseOne_checks {k : Nat} (hp : prmN b 0 = k) (hk : k < 32) :
    ChecksPass [scalarIs b 0 0xFF (fun k => decide (k < 32 ∨ k = 0xFF)),
      (prmN b 0 != 0xFF || writable s [3584, 3585, 3586, 3587], stWorn, 0)] := by
  intro c hc
  simp only [List.mem_cons, List.not_mem_nil, or_false] at hc
  rcases hc with rfl | rfl
  · exact decide_eq_true (.inl (hp ▸ hk))
  · have hne : prmN b 0 ≠ 0xFF := by omega
    simp [hne]

theorem zeroiseOne_served {k : Nat} (h : Serves s m 0x0604 0) (hw : (boxOf s m).paramWords = 1) (hp : prmN (boxOf s m) 0 = k) (hk : k < 32) :
    Completes (.securityZeroise m) s fun t => Served m [] s (zeroiseSlot k s) t := by
  refine completes_served (o := execSecurityZeroise m s) (e := zeroiseSlot k s) (ws := []) rfl rfl h (exactly_of_eq hw)
    ((checked_pass (zeroiseOne_checks hp hk)).trans ?_) (Nat.zero_le _) fun t ht => ht
  have hne : prmN (boxOf s m) 0 ≠ 0xFF := by omega
  refine (if_neg hne).trans ?_
  rw [hp]

theorem zeroiseOne_empties {k : Nat} (h : Serves s m 0x0604 0) (hw : (boxOf s m).paramWords = 1) (hp : prmN (boxOf s m) 0 = k) (hk : k < 32) :
    Completes (.securityZeroise m) s fun t => Answers t m [] ∧ (slotOf t k).key = none ∧ Leaves s (zeroiseSlot k s) t :=
  (zeroiseOne_served h hw hp hk).imp fun t ht => ⟨ht.answers, by
    rw [slotOf_congr (ht.same .aead (by decide)), slotOf_zeroiseSlot], ht.leaves⟩

theorem zeroiseOne_quiet {k : Nat} (h : Serves s m 0x0604 0) (hw : (boxOf s m).paramWords = 1) (hp : prmN (boxOf s m) 0 = k) (hk : k < 32)
    (hrun : s.aead.run = none) :
    Completes (.securityZeroise m) s fun t =>
      Answers t m [] ∧ slotOf t k = { slotOf s k with key := none } ∧ (∀ j, j ≠ k → slotOf t j = slotOf s j) ∧ DoneAlone m [.aead] s t := by
  refine (zeroiseOne_served h hw hp hk).imp fun t ht => ?_
  have hslot := fun j => slotOf_congr (ht.same .aead (by decide)) j
  refine ⟨ht.answers, by rw [hslot, slotOf_zeroiseSlot], fun j hj => by rw [hslot, slotOf_zeroiseSlot_ne s hj], ?_⟩
  rw [zeroiseSlot_quiet fun a ha => by rw [hrun] at ha; exact nomatch ha] at ht
  exact ht.doneAlone (setSlot_sameBut _ _ s) (by decide) (by decide)

/-- The words of the sealed PROV_KEY queued as zero. -/
def provWords : List (Nat × Word) := [(3584, 0), (3585, 0), (3586, 0), (3587, 0)]

/-- Every slot zeroised, the join keys deleted and the sealed PROV_KEY's words queued as zero. -/
def allZeroised (s : State) : State :=
  mpWrites provWords { zeroiseSlots (List.range 32) s with sec := { (zeroiseSlots (List.range 32) s).sec with joinKeys := [] } }

theorem provWords_at (i : Nat) (h : i < provWords.length) : provWords[i].1 = 3584 + i ∧ provWords[i].2 = 0 := by
  have hi : i < 4 := h
  obtain rfl | rfl | rfl | rfl : i = 0 ∨ i = 1 ∨ i = 2 ∨ i = 3 := by omega
  · exact ⟨rfl, rfl⟩
  · exact ⟨rfl, rfl⟩
  · exact ⟨rfl, rfl⟩
  · exact ⟨rfl, rfl⟩

theorem keepQueued_provWords (s : State) {i : Nat} (h : i < 4) : keepQueued (mpWrites provWords s) (3584 + i) = 0 :=
  (mpWrites_at provWords s 3584 (fun j hj => (provWords_at j hj).1) i h).trans (provWords_at i h).2

theorem zeroiseAll_checks (hp : prmN b 0 = 0xFF) (hworn : ∀ w ∈ [3584, 3585, 3586, 3587], worn s w = false) :
    ChecksPass [scalarIs b 0 0xFF (fun k => decide (k < 32 ∨ k = 0xFF)),
      (prmN b 0 != 0xFF || writable s [3584, 3585, 3586, 3587], stWorn, 0)] := by
  intro c hc
  simp only [List.mem_cons, List.not_mem_nil, or_false] at hc
  rcases hc with rfl | rfl
  · exact decide_eq_true (.inr hp)
  · refine Bool.or_eq_true_iff.2 (.inr (List.all_eq_true.2 fun w hw => ?_))
    rw [hworn w hw]
    rfl

theorem zeroiseAll_served (h : Serves s m 0x0604 0) (hw : (boxOf s m).paramWords = 1) (hp : prmN (boxOf s m) 0 = 0xFF)
    (hworn : ∀ w ∈ [3584, 3585, 3586, 3587], worn s w = false) :
    Completes (.securityZeroise m) s fun t =>
      Answers t m [] ∧ t.sec.joinKeys = [] ∧ (∀ k, k < 32 → (slotOf t k).key = none) ∧ (∀ w ∈ [3584, 3585, 3586, 3587], keepQueued t w = 0)
      ∧ Leaves s (allZeroised s) t := by
  refine completes_served (o := execSecurityZeroise m s) (e := allZeroised s) (ws := []) rfl rfl h (exactly_of_eq hw)
    ((checked_pass (zeroiseAll_checks hp hworn)).trans ((if_pos hp).trans rfl)) (Nat.zero_le _)
    fun t ht => ⟨ht.answers, ?_, fun k hk => ?_, fun w hw => ?_, ht.leaves⟩
  · have hsec : t.sec = _ := (ht.same .sec (by decide)).trans (mpWrites_sameBut provWords _ .sec (by decide))
    rw [hsec]
  · have haead : t.aead = (zeroiseSlots (List.range 32) s).aead :=
      (ht.same .aead (by decide)).trans (mpWrites_sameBut provWords _ .aead (by decide))
    rw [slotOf_congr haead]
    exact zeroiseSlots_key (.inl (List.mem_range.2 hk))
  · rw [keepQueued_congr (ht.same .keep (by decide)), allZeroised]
    simp only [List.mem_cons, List.not_mem_nil, or_false] at hw
    obtain ⟨i, hi, rfl⟩ : ∃ i, i < 4 ∧ w = 3584 + i := ⟨w - 3584, by omega, by omega⟩
    exact keepQueued_provWords _ hi

end

/-- Settles O7. -/
theorem securityAndLedgerReports : Obligations.SecurityAndLedgerReports := by
  unfold Obligations.SecurityAndLedgerReports
  exact ⟨fun s m h hw hid hd => attest_reports h hw hid hd, fun s m h hw hd => cert_reports h hw hd,
    fun s m h hw hd => (ledger_delivers h hw hd).imp fun t ht => ⟨fun _ => Config.derived 454 [], ht⟩,
    fun s m h hw hregs => avsStatus_answers h hw hregs, fun s m b h hb hw hact => joinKey_deleted h hb hw hact,
    fun s u m b k key bs h hb hw hact hkeys hopen huse => joinKey_kept h hb hw hact hkeys hopen huse,
    fun s m b h hb hw hact hprov => joinKey_refused h hb hw hact hprov, fun s m k h hw hp hk hrun => zeroiseOne_quiet h hw hp hk hrun,
    fun s m k h hw hp hk => zeroiseOne_empties h hw hp hk, fun s m h hw hp hworn => zeroiseAll_served h hw hp hworn⟩

end Sys2Proof.Machine
end

section
/-! SUPPORT. The check units, the pipeline counters, the link's encryption keys and its attestation (R374, R424, R430 to R432). -/
namespace Sys2Proof.Machine

theorem chkOf_setChk (u : Nat) (x : ChkUnit) (s : State) : chkOf (setChk u x s) u = x := tabGet_tabPut_self _ _ _ _

theorem chkOf_setChk_ne {u k : Nat} (x : ChkUnit) (s : State) (h : k ≠ u) : chkOf (setChk u x s) k = chkOf s k := tabGet_tabPut_ne _ _ _ _ _ h

theorem withChk_sameBut (x : Chk) (s : State) : SameBut [.chk] s { s with chk := x } := by
  intro g hg; cases g <;> simp_all [Group.same]

theorem chkOf_congr {s t : State} (h : t.chk = s.chk) (u : Nat) : chkOf t u = chkOf s u := by
  unfold chkOf
  rw [h]

/-- A command that replaces a unit where it is the writer's own. -/
theorem completes_chkUnit {i : Instr} {s : State} {fw : Bool} {u : Nat} {x : ChkUnit} (hu : u < 8 ∧ domOn s 29 = true)
    (h : exec i s = onObject (u < 8) s (inDomain 29 s (if chkMine fw u then setChk u x s else s))) :
    Completes i s fun t =>
      chkOf t u = (if chkMine fw u = true then x else chkOf s u) ∧ (∀ k, k ≠ u → chkOf t k = chkOf s k)
      ∧ { t.chk with units := s.chk.units } = s.chk ∧ Alone [.chk] s t := by
  have hexec : exec i s = commit s (if chkMine fw u then setChk u x s else s) := by
    rw [h, onObject, if_pos (decide_eq_true hu.1), inDomain, if_pos hu.2]
  split at hexec
  · rename_i hmine
    refine completes_of_exec hexec fun t ht => ?_
    have hchk : t.chk = (setChk u x s).chk := ht.1 .chk (by decide)
    refine ⟨?_, fun k hk => ?_, by rw [hchk]; rfl, becomes_alone (withChk_sameBut _ s) (by decide) ht⟩
    · rw [chkOf_congr hchk, chkOf_setChk, if_pos hmine]
    · rw [chkOf_congr hchk, chkOf_setChk_ne x s hk]
  · rename_i hmine
    refine (completes_unchanged hexec).imp fun t ht => ?_
    subst ht
    exact ⟨(if_neg hmine).symm, fun _ _ => rfl, rfl, sameBut_refl _ _, rfl⟩

theorem pipeCounters_read {s : State} (hon : domOn s 29 = true) :
    Completes .chkPipeCntRead s fun t => Out.read [chkPipeCnt s] ∈ t.out ∧ t.chk = { s.chk with failAll := 0, only := 0 } ∧ Alone [.chk] s t := by
  refine completes_of_exec (e := emit (.read [chkPipeCnt s]) { s with chk := { s.chk with failAll := 0, only := 0 } })
    (congrArg (commit s) (if_pos hon)) fun t ht => ⟨ht.2.2.1 _ (by simp [emit]), ht.1 .chk (by decide), ?_⟩
  exact alone_becomes (alone_of_sameBut (((withChk_sameBut _ s).trans (emit_sameBut _ _)).mono (by simp)) (by decide)) ht

/-- A command that replaces the host link's record. -/
theorem completes_withHost {i : Instr} {s : State} {x : HostLink} (h : exec i s = commit s { s with host := x }) :
    Completes i s fun t => t.host = x ∧ Alone [.host] s t :=
  completes_of_exec h fun _ ht => ⟨ht.1 .host (by decide), becomes_alone (withHost_sameBut x s) (by decide) ht⟩

/-- The state in which an SPDM request has been answered with measurements `m`. -/
def spdmAnswered (body : List Byte) (m : List Word) (s : State) : State :=
  emit (.spdm (m ++ (attestSign (body ++ wordsBytes m) s).1)) (drawDrbg 6 s).2

theorem spdm_answered {s : State} {body : List Byte} {m : List Word} (h : s.host.up = true ∧ runningCode s ≠ 0)
    (hm : m = (runningImage s).hash ++ (s.plan.active.drop (s.plan.active.length - 6)).take 6) :
    Completes (.spdmRequest body) s fun t =>
      Out.spdm (m ++ (attestSign (body ++ wordsBytes m) s).1) ∈ t.out ∧ t.clk = { s.clk with free := s.clk.free + 6 }
      ∧ t.aead = { s.aead with drbgRequests := s.aead.drbgRequests + 1 } ∧ Alone [.clk, .aead] s t := by
  have hserved : (s.host.up && runningCode s != 0) = true := by simp [h.1, h.2]
  have hexec : exec (.spdmRequest body) s = commit s (spdmAnswered body m s) := by
    rw [hm]
    exact congrArg (commit s) (if_pos hserved)
  refine completes_of_exec hexec fun t ht => ⟨ht.2.2.1 _ ?_, ht.1 .clk (by decide), ht.1 .aead (by decide), ?_⟩
  · simp [spdmAnswered, emit]
  · exact alone_becomes (alone_of_sameBut (((drawDrbg_sameBut 6 s).trans (emit_sameBut _ _)).mono (by simp)) (by decide)) ht

/-- Settles O27. -/
theorem checkUnitsAndLinkKeys : Obligations.CheckUnitsAndLinkKeys := by
  unfold Obligations.CheckUnitsAndLinkKeys
  refine ⟨fun s fw u hu => completes_chkUnit hu rfl, fun s fw u v hu => completes_chkUnit hu rfl, fun s hon => pipeCounters_read hon, fun s hup => ?_,
    fun s hup => ?_, fun s body m h hm => spdm_answered h hm⟩
  · exact completes_withHost (x := { s.host with ideActive := true, ideFailed := false })
      (congrArg (commit s) (if_pos (by simp [hup.1, hup.2])))
  · exact completes_withHost (x := { s.host with ideActive := false, ideFailed := true })
      (congrArg (commit s) (if_pos (by simp [hup.1, hup.2.1, hup.2.2])))

end Sys2Proof.Machine
end

section
/-! SUPPORT. Writes of single registers, and the general register write that is the same command at their offsets (R475, R477, R480 to R485). -/
namespace Sys2Proof.Machine

theorem withKeep_sameBut (x : Keep) (s : State) : SameBut [.keep] s { s with keep := x } := by
  intro g hg; cases g <;> simp_all [Group.same]

/-! INT_CAUSE, INT_MASK, MB_DONE_MAP, EVENT_VECTOR and EV_CONS (R480 to R485). -/

/-- A write of the interrupt state: what it leaves, and the signal where PENDING stays non-zero. -/
theorem completes_irqWrite {i : Instr} {s : State} {x : Irq} (h : exec i s = commitWrite { s with irq := x }) (hmsix : x.msix = s.irq.msix) :
    Completes i s fun t => t.irq = { x with msix := t.irq.msix } ∧ SameBut [.irq, .out] s t ∧ (intPending t ≠ 0 → Signals s t) := by
  unfold Completes
  rw [h]
  refine completes_write fun u hsame hirq hsignals => ⟨hirq, (withIrq_sameBut x s).trans hsame |>.mono (by simp), fun hpending => ?_⟩
  have hsig := hsignals (by rw [← intPending_congr (hsame.mono (by simp)) hirq]; exact hpending)
  unfold Signals at hsig ⊢
  dsimp only at hsig
  rwa [hmsix] at hsig

theorem eventVectorWrite_leaves (s : State) (v : Word) :
    Completes (.eventVectorWrite v) s fun t => t.irq = { s.irq with vector := fieldOf v 5 0 } ∧ SameBut [.irq] s t :=
  completes_still (e := vectorWrite v s) rfl rfl rfl ⟨rfl, withIrq_sameBut _ s⟩

theorem evConsWrite_taken {s : State} {v : Word} (hon : domOn s 28 = true) :
    Completes (.evConsWrite v) s fun t =>
      if ringUse s.ev.prod (fieldOf v 31 0) ≤ s.ev.count then t.ev = { s.ev with cons := fieldOf v 31 0 } ∧ Alone [.ev] s t else CauseSet 12 s t := by
  have hexec : exec (.evConsWrite v) s = commit s (evConsWrite v s) := congrArg (commit s) (if_pos hon)
  unfold evConsWrite at hexec
  split
  · rename_i hfits
    rw [if_pos hfits] at hexec
    have hsame : SameBut [.ev] s { s with ev := { s.ev with cons := fieldOf v 31 0 } } := by
      intro g hg; cases g <;> simp_all [Group.same]
    exact completes_of_exec hexec fun t ht => ⟨ht.1 .ev (by decide), becomes_alone hsame (by decide) ht⟩
  · rename_i hfits
    rw [if_neg hfits] at hexec
    exact (completes_causeSet hexec (sameBut_refl _ s)).imp fun t ht => ht.2

/-! The general register write (R9, R350, R475, R477). -/

/-- The blocks of BAR0 lie below the MSI-X table. -/
theorem blockDomain_lt {off d : Nat} (h : blockDomain off = some d) : off < 0x11080 := by
  by_contra hge
  have hnone : blockDomain off = none := by
    unfold blockDomain
    iterate 6 rw [if_neg (by omega)]
  rw [hnone] at h
  exact nomatch h

theorem spaceWrite_block {s : State} {v : Word} {off d : Nat} (hd : blockDomain off = some d) (h8 : off % 8 = 0) :
    spaceWrite 4 off 8 v s = inDomain d s (bar0Write 4 off v s) := by
  have hlt := blockDomain_lt hd
  unfold spaceWrite
  rw [if_neg (by omega), if_neg (by omega), hd]
  exact if_neg (by simp)

theorem exec_blockWrite {s : State} {v : Word} {off d : Nat} (hd : blockDomain off = some d) (h8 : off % 8 = 0)
    (hnot : off ∉ [0x1000, 0x1008, 0x1018]) : exec (.registerWrite 4 0 off 8 v) s = commit s (inDomain d s (bar0Write 4 off v s)) := by
  simp only [List.mem_cons, List.not_mem_nil, or_false, not_or] at hnot
  obtain ⟨hcause, hmask, hmap⟩ := hnot
  rw [← spaceWrite_block hd h8]
  show execRegisterWrite 4 0 off 8 v s = _
  unfold execRegisterWrite
  rw [if_neg (by decide), if_neg (by decide), if_neg (by omega), if_neg (by omega), if_neg (by omega)]

/-- In an ENABLED block it has the register's effect. -/
theorem exec_blockWrite_on {s : State} {v : Word} {off d : Nat} (hd : blockDomain off = some d) (h8 : off % 8 = 0)
    (hnot : off ∉ [0x1000, 0x1008, 0x1018]) (hon : domOn s d = true) :
    exec (.registerWrite 4 0 off 8 v) s = commit s (bar0Write 4 off v s) :=
  (exec_blockWrite hd h8 hnot).trans (congrArg (commit s) (if_pos hon))

theorem completes_blockWrite {gs : List Group} {s e : State} {v : Word} {off d : Nat} (hreg : bar0Write 4 off v s = e) (hs : SameBut gs s e)
    (hirq : Group.irq ∉ gs) (hd : blockDomain off = some d) (h8 : off % 8 = 0) (hnot : off ∉ [0x1000, 0x1008, 0x1018]) (hon : domOn s d = true) :
    Completes (.registerWrite 4 0 off 8 v) s fun t => SameBut [.irq, .out, .pending] e t ∧ Alone gs s t :=
  completes_of_exec (by rw [exec_blockWrite_on hd h8 hnot hon, hreg]) fun _ ht => ⟨ht.1, becomes_alone hs hirq ht⟩

theorem blockWrite_off {s : State} {v : Word} {off d : Nat} (hd : blockDomain off = some d ∧ off % 8 = 0 ∧ off ∉ [0x1000, 0x1008, 0x1018])
    (hoff : domOn s d = false) : Completes (.registerWrite 4 0 off 8 v) s fun t => CauseSet 12 s t := by
  obtain ⟨hd, h8, hnot⟩ := hd
  have hexec : exec (.registerWrite 4 0 off 8 v) s = commit s (setCause 12 s) :=
    (exec_blockWrite hd h8 hnot).trans (congrArg (commit s) (if_neg (by simp [hoff])))
  exact (completes_causeSet hexec (sameBut_refl _ s)).imp fun t ht => ht.2

theorem bar0Write_evCons (s : State) (v : Word) : bar0Write 4 0x8058 v s = evConsWrite v s := by
  unfold bar0Write
  iterate 12 rw [if_neg (by decide)]
  rw [if_pos rfl]

theorem bar0Write_ledger (s : State) (v : Word) :
    bar0Write 4 0x8000 v s = { s with pair := { s.pair with ledger := s.pair.ledger &&& ~~~ v } } := by
  unfold bar0Write
  iterate 11 rw [if_neg (by decide)]
  rw [if_pos rfl]

theorem bar0Write_domEvent (s : State) (v : Word) :
    bar0Write 4 0x7010 v s = { s with pwr := { s.pwr with domEvent := s.pwr.domEvent &&& ~~~ v } } := by
  unfold bar0Write
  iterate 10 rw [if_neg (by decide)]
  rw [if_pos rfl]

theorem bar0Write_keepAddr (s : State) (v : Word) : bar0Write 4 0x5000 v s = { s with keep := { s.keep with addr := fieldOf v 11 0 } } := by
  unfold bar0Write
  iterate 6 rw [if_neg (by decide)]
  rw [if_pos rfl]

theorem bar0Write_bulkAddr (s : State) (v : Word) :
    bar0Write 4 0x2000 v s = { s with mem := { s.mem with
      target := if 1 ≤ fieldOf v 63 60 ∧ fieldOf v 63 60 ≤ 6 then fieldOf v 63 60 else s.mem.target, offset := fieldOf v 35 0 } } := by
  unfold bar0Write
  rw [if_neg (by decide), if_pos rfl]

theorem registerWrite_interrupts {s : State} {v : Word} (hon : domOn s 0 = true) :
    exec (.registerWrite 4 0 0x1000 8 v) s = exec (.intCauseWrite v) s ∧ exec (.registerWrite 4 0 0x1008 8 v) s = exec (.intMaskWrite v) s
    ∧ exec (.registerWrite 4 0 0x1018 8 v) s = exec (.mbDoneMapWrite v) s ∧ exec (.registerWrite 4 0 0x1010 8 v) s = exec (.eventVectorWrite v) s
    ∧ exec (.registerWrite 4 0 0x8058 8 v) s = exec (.evConsWrite v) s :=
  ⟨rfl, rfl, rfl, exec_blockWrite_on (d := 0) rfl rfl (by decide) hon, by
    rw [exec_blockWrite (d := 28) (by decide) (by decide) (by decide), bar0Write_evCons]
    rfl⟩

/-! Doorbells at their offsets (R483). -/

/-- From 0x10000 on BAR0 holds the doorbells. -/
theorem bar0Write_doorbells {s : State} {v : Word} {off : Nat} (h : 0x10000 ≤ off) :
    bar0Write 4 off v s = if off < 0x10800 then doorbell false ((off - 0x10000) / 8) v s
      else if off < 0x11000 then doorbell true ((off - 0x10800) / 8) v s
      else if off < 0x11080 then xdbPost ((off - 0x11000) / 8) v s else s := by
  unfold bar0Write
  iterate 13 rw [if_neg (by omega)]
  by_cases h1 : off < 0x10800
  · rw [if_pos ⟨h, h1⟩, if_pos h1]
  · rw [if_neg (by omega), if_neg h1]
    by_cases h2 : off < 0x11000
    · rw [if_pos ⟨by omega, h2⟩, if_pos h2]
    · rw [if_neg (by omega), if_neg h2]
      by_cases h3 : off < 0x11080
      · rw [if_pos ⟨by omega, h3⟩, if_pos h3]
      · rw [if_neg (by omega), if_neg h3]

theorem blockDomain_doorbells {off : Nat} (h : 0x10000 ≤ off ∧ off < 0x11080) : blockDomain off = some 28 := by
  unfold blockDomain
  iterate 5 rw [if_neg (by omega)]
  exact if_pos h

theorem exec_doorbellWrite {s : State} {v : Word} {off : Nat} (h : 0x10000 ≤ off ∧ off < 0x11080) (h8 : off % 8 = 0) :
    exec (.registerWrite 4 0 off 8 v) s = commit s (inDomain 28 s (bar0Write 4 off v s)) :=
  exec_blockWrite (blockDomain_doorbells h) h8 (by simp only [List.mem_cons, List.not_mem_nil, or_false]; omega)

theorem registerWrite_doorbells {s : State} {v : Word} {q : Nat} (hq : q < 256) :
    exec (.registerWrite 4 0 (0x10000 + 8 * q) 8 v) s = exec (.txDbWrite q v) s
    ∧ exec (.registerWrite 4 0 (0x10800 + 8 * q) 8 v) s = exec (.rxDbWrite q v) s
    ∧ (q < 16 → exec (.registerWrite 4 0 (0x11000 + 8 * q) 8 v) s = exec (.xdbWrite q v) s) := by
  refine ⟨?_, ?_, fun hx => ?_⟩
  · have hindex : (0x10000 + 8 * q - 0x10000) / 8 = q := by omega
    rw [exec_doorbellWrite (by omega) (by omega), bar0Write_doorbells (by omega), if_pos (by omega), hindex]
    exact (onObject_true (decide_eq_true hq)).symm
  · have hindex : (0x10800 + 8 * q - 0x10800) / 8 = q := by omega
    rw [exec_doorbellWrite (by omega) (by omega), bar0Write_doorbells (by omega), if_neg (by omega), if_pos (by omega), hindex]
    exact (onObject_true (decide_eq_true hq)).symm
  · have hindex : (0x11000 + 8 * q - 0x11000) / 8 = q := by omega
    rw [exec_doorbellWrite (by omega) (by omega), bar0Write_doorbells (by omega), if_neg (by omega), if_neg (by omega), if_pos (by omega), hindex]
    exact (onObject_true (decide_eq_true hx)).symm

/-! Writes that change nothing (R9, R350, R379). -/

theorem spaceWrite_ignored {s : State} {v : Word} {off bytes agent : Nat} (htab : off < 0xF0000 ∨ 0xF0400 ≤ off)
    (h : bytes ≠ 8 ∨ off % 8 ≠ 0 ∨ blockDomain off = none ∨ agent ≠ 4 ∧ (off < 0x3000 ∨ 0x5000 ≤ off)) : spaceWrite agent off bytes v s = s := by
  unfold spaceWrite
  rw [if_neg (by omega)]
  by_cases hshort : bytes ≠ 8 ∨ off % 8 ≠ 0
  · exact if_pos hshort
  · rw [if_neg hshort]
    have hrest : blockDomain off = none ∨ agent ≠ 4 ∧ (off < 0x3000 ∨ 0x5000 ≤ off) := by
      obtain h | h | h := h
      · exact absurd (.inl h) hshort
      · exact absurd (.inr h) hshort
      · exact h
    cases hd : blockDomain off with
    | none => rfl
    | some d =>
      obtain ⟨hagent, hout⟩ := hrest.resolve_left (by simp [hd])
      refine if_pos ⟨hagent, ?_⟩
      rw [decide_eq_false (by omega)]
      rfl

theorem bar2Write_ignored {s : State} {v : Word} {off bytes : Nat} (hbulk : off < 0x8000 ∨ 0x9000 ≤ off)
    (h : bytes ≠ 8 ∨ off % 8 ≠ 0 ∨ 0x6000 ≤ off) : bar2Write off bytes v s = s := (if_neg (by omega)).trans (if_pos h)

theorem registerWrite_ignored {s : State} {v : Word} {off bytes bar agent : Nat} (ha : 1 ≤ agent ∧ agent ≤ 4)
    (h : (bar = 0 ∧ (off < 0xF0000 ∨ 0xF0400 ≤ off)
        ∧ (bytes ≠ 8 ∨ off % 8 ≠ 0 ∨ blockDomain off = none ∨ agent ≠ 4 ∧ (off < 0x3000 ∨ 0x5000 ≤ off)) ∧ off ∉ [0x1000, 0x1008, 0x1018])
      ∨ bar = 2 ∧ (off < 0x8000 ∨ 0x9000 ≤ off) ∧ (agent ≠ 4 ∨ bytes ≠ 8 ∨ off % 8 ≠ 0 ∨ 0x6000 ≤ off)) :
    Completes (.registerWrite agent bar off bytes v) s fun t => t = s := by
  refine completes_unchanged ?_
  show execRegisterWrite agent bar off bytes v s = _
  unfold execRegisterWrite
  have hvalid : (!decide (1 ≤ agent ∧ agent ≤ 4) || !decide (bar = 0 ∨ bar = 2)) = false := by
    have hbar : bar = 0 ∨ bar = 2 := h.imp And.left And.left
    simp [ha, hbar]
  rw [hvalid, if_neg (by decide)]
  obtain ⟨rfl, htab, hno, hnot⟩ | ⟨rfl, hbulk, hno⟩ := h
  · simp only [List.mem_cons, List.not_mem_nil, or_false, not_or] at hnot
    obtain ⟨hcause, hmask, hmap⟩ := hnot
    rw [if_neg (by decide), if_neg (by omega), if_neg (by omega), if_neg (by omega), spaceWrite_ignored htab hno]
  · rw [if_pos rfl]
    refine congrArg (commit s) ?_
    split
    · exact bar2Write_ignored hbulk (hno.resolve_left (by omega))
    · rfl

/-- Settles O20. -/
theorem registerWrites : Obligations.RegisterWrites := by
  unfold Obligations.RegisterWrites
  refine ⟨fun s v => completes_irqWrite (x := (causeWrite v s).irq) rfl rfl, fun s v => completes_irqWrite (x := (maskWrite v s).irq) rfl rfl,
    fun s v => completes_irqWrite (x := (doneMapWrite v s).irq) rfl rfl, fun s v => eventVectorWrite_leaves s v, fun s v hon => evConsWrite_taken hon,
    fun s v hon => registerWrite_interrupts hon, fun s v q hq => registerWrite_doorbells hq, fun s v hon => ?_, fun s v hon => ?_, fun s v hon => ?_,
    fun s v hon => ?_, fun s v off d hd hoff => blockWrite_off hd hoff, fun s v off bytes bar agent ha h => registerWrite_ignored ha h⟩
  · exact (completes_blockWrite (d := 28) (bar0Write_bulkAddr s v) (withMem_sameBut _ s) (by decide) (by decide) (by decide) (by decide) hon).imp
      fun _ ⟨hsame, halone⟩ => ⟨hsame .mem (by decide), halone⟩
  · exact (completes_blockWrite (d := 0) (bar0Write_keepAddr s v) (withKeep_sameBut _ s) (by decide) (by decide) (by decide) (by decide) hon).imp
      fun _ ⟨hsame, halone⟩ => ⟨hsame .keep (by decide), halone⟩
  · exact (completes_blockWrite (d := 0) (bar0Write_domEvent s v) (withPwr_sameBut _ s) (by decide) (by decide) (by decide) (by decide) hon).imp
      fun _ ⟨hsame, halone⟩ => ⟨hsame .pwr (by decide), halone⟩
  · exact (completes_blockWrite (d := 28) (bar0Write_ledger s v) (withPair_sameBut _ s) (by decide) (by decide) (by decide) (by decide) hon).imp
      fun _ ⟨hsame, halone⟩ => ⟨hsame .pair (by decide), halone⟩

end Sys2Proof.Machine
end

section
/-! SUPPORT. The keep store's host window, and how a queued write starts, lands and is refused (R435 to R443, R493). -/
namespace Sys2Proof.Machine

section
variable {i : Instr} {s : State} {x : Keep}

/-- A command that replaces the keep store's record. -/
theorem completes_withKeep (h : exec i s = commit s { s with keep := x }) : Completes i s fun t => t.keep = x ∧ Alone [.keep] s t :=
  completes_of_exec h fun _ ht => ⟨ht.1 .keep (by decide), becomes_alone (withKeep_sameBut x s) (by decide) ht⟩

/-- One that also reports KS_DONE. -/
theorem completes_withKeepDone (h : exec i s = commit s (setCause 11 { s with keep := x })) :
    Completes i s fun t => t.keep = x ∧ CauseSet 11 { s with keep := x } t := by
  refine completes_of_exec h fun t ht => ⟨ht.1 .keep (by decide), ht.2.1, fun g hg => ?_⟩
  have hsame := ht.1 g
  have hqueue := ht.2.2.2
  cases g <;> simp_all [Group.same]

/-- And one that also answers a read. -/
theorem completes_withKeepRead {w : Word} (h : exec i s = commit s (emit (.read [w]) { s with keep := x })) :
    Completes i s fun t => Out.read [w] ∈ t.out ∧ t.keep = x ∧ Alone [.keep] s t := by
  refine completes_of_exec h fun t ht => ⟨ht.2.2.1 _ (by simp [emit]), ht.1 .keep (by decide), ?_⟩
  exact alone_becomes (alone_of_sameBut (((withKeep_sameBut x s).trans (emit_sameBut _ _)).mono (by simp)) (by decide)) ht

end

section
variable {s : State} {v : Word}

/-! The host window (R442, R443). -/

theorem ksDataWrite_queued (hbusy : ksBusy s = false) (hmay : hostMayWrite s.keep.addr = true) :
    Completes (.ksDataWrite v) s fun t =>
      t.keep = { s.keep with hostQ := [{ source := .host, word := s.keep.addr, value := v, since := s.clk.now }] } ∧ Alone [.keep] s t :=
  completes_withKeep (congrArg (commit s) ((if_neg (by simp [hbusy])).trans (if_neg (by simp [hmay]))))

theorem ksDataWrite_busy (hbusy : ksBusy s = true) :
    Completes (.ksDataWrite v) s fun t => t.keep = { s.keep with result := 1 } ∧ Alone [.keep] s t :=
  completes_withKeep (x := { s.keep with result := 1 }) (congrArg (commit s) (if_pos hbusy))

theorem ksDataWrite_denied (hbusy : ksBusy s = false) (hmay : hostMayWrite s.keep.addr = false) :
    Completes (.ksDataWrite v) s fun t => t.keep = { s.keep with result := 3 } ∧ CauseSet 11 { s with keep := { s.keep with result := 3 } } t :=
  completes_withKeepDone (x := { s.keep with result := 3 })
    (congrArg (commit s) ((if_neg (by simp [hbusy])).trans (if_pos (by simp [hmay]))))

theorem ksDataRead_sealed (h : hostSealed s.keep.addr = true) :
    Completes .ksDataRead s fun t => Out.read [0] ∈ t.out ∧ t.keep = { s.keep with result := 4 } ∧ Alone [.keep] s t :=
  completes_withKeepRead (x := { s.keep with result := 4 }) (congrArg (commit s) (if_pos h))

theorem ksDataRead_answers (h : hostSealed s.keep.addr = false) :
    Completes .ksDataRead s fun t => Out.read [keepWord s s.keep.addr] ∈ t.out
      ∧ t.keep = { s.keep with result := if (cellOf s s.keep.addr).corrupt then 5 else 0 } ∧ Alone [.keep] s t :=
  completes_withKeepRead (x := { s.keep with result := if (cellOf s s.keep.addr).corrupt then 5 else 0 })
    (congrArg (commit s) (if_neg (by simp [h])))

/-! The start of a write (R436, R438, R440, R442). -/

/-- What starting the next write makes of the state: the write in progress, or its refusal. -/
def keepStarted (w : KeepWrite) (k : Keep) (s : State) : State :=
  if worn s w.word then keepRefuse w 0x02 { s with keep := k }
  else if !keepOwned w.source w.word then keepRefuse w 0x03 { s with keep := k }
  else if w.source = .host ∧ isProvKey w.word = true ∧ keepWord s w.word ≠ 0 then keepRefuse w 0x03 { s with keep := k }
  else { s with keep := { k with active := some w, startedAt := s.clk.now } }

variable {w : KeepWrite} {k : Keep}

theorem exec_keepWriteStart (hidle : s.keep.active = none ∧ s.pins.rails.vppKeep = true) (hnext : keepNext s.keep = some (w, k)) :
    exec .keepWriteStart s = commit s (keepStarted w k s) := by
  show execKeepWriteStart s = _
  unfold execKeepWriteStart
  rw [hidle.1, hidle.2, hnext]
  rfl

theorem keepRefuse_host (code : Nat) (h : w.source = .host) :
    keepRefuse w code { s with keep := k } = setCause 11 { s with keep := { k with result := code } } := if_pos h

theorem keepRefuse_own (code : Nat) (h : w.source ≠ .host) : keepRefuse w code { s with keep := k } = { s with keep := k } := if_neg h

theorem keepStarted_worn (h : worn s w.word = true) : keepStarted w k s = keepRefuse w 0x02 { s with keep := k } := if_pos h

theorem keepStarted_foreign (hworn : worn s w.word = false) (h : keepOwned w.source w.word = false) :
    keepStarted w k s = keepRefuse w 0x03 { s with keep := k } := (if_neg (by simp [hworn])).trans (if_pos (by simp [h]))

theorem keepStarted_owned (hworn : worn s w.word = false) (h : keepOwned w.source w.word = true) :
    keepStarted w k s = if w.source = .host ∧ isProvKey w.word = true ∧ keepWord s w.word ≠ 0 then keepRefuse w 0x03 { s with keep := k }
      else { s with keep := { k with active := some w, startedAt := s.clk.now } } := (if_neg (by simp [hworn])).trans (if_neg (by simp [h]))

theorem keepWriteStart_starts (hidle : s.keep.active = none ∧ s.pins.rails.vppKeep = true) (hnext : keepNext s.keep = some (w, k))
    (hmay : worn s w.word = false ∧ keepOwned w.source w.word = true) (hprov : w.source = .host → isProvKey w.word = true → keepWord s w.word = 0) :
    Completes .keepWriteStart s fun t => t.keep = { k with active := some w, startedAt := s.clk.now } ∧ Alone [.keep] s t := by
  refine completes_withKeep ((exec_keepWriteStart hidle hnext).trans (congrArg (commit s) ((keepStarted_owned hmay.1 hmay.2).trans (if_neg ?_))))
  exact fun h => h.2.2 (hprov h.1 h.2.1)

theorem keepWriteStart_denied (hidle : s.keep.active = none ∧ s.pins.rails.vppKeep = true) (hnext : keepNext s.keep = some (w, k))
    (hmay : worn s w.word = false ∧ (keepOwned w.source w.word = false ∨ isProvKey w.word = true ∧ keepWord s w.word ≠ 0)) (hhost : w.source = .host) :
    Completes .keepWriteStart s fun t => t.keep = { k with result := 3 } ∧ CauseSet 11 { s with keep := { k with result := 3 } } t := by
  obtain ⟨hworn, hdenied⟩ := hmay
  have hrefused : keepStarted w k s = keepRefuse w 0x03 { s with keep := k } := by
    cases howned : keepOwned w.source w.word with
    | false => exact keepStarted_foreign hworn howned
    | true => exact (keepStarted_owned hworn howned).trans (if_pos ⟨hhost, hdenied.resolve_left (by simp [howned])⟩)
  exact completes_withKeepDone (x := { k with result := 3 })
    ((exec_keepWriteStart hidle hnext).trans (congrArg (commit s) (hrefused.trans (keepRefuse_host 0x03 hhost))))

/-! The end of a write (R435 to R437). -/

/-- The keep store once the write in progress has landed. -/
def keepLanded (w : KeepWrite) (k : Keep) : Keep := { k with active := none, cells := keepLand w k.cells }

theorem exec_keepWriteDone (h : s.keep.active = some w ∧ s.keep.startedAt + 20 ≤ s.clk.now) :
    exec .keepWriteDone s = commit s (if w.source = .host then setCause 11 { s with keep := { keepLanded w s.keep with result := 0 } }
      else { s with keep := keepLanded w s.keep }) := by
  show execKeepWriteDone s = _
  unfold execKeepWriteDone
  rw [h.1]
  exact congrArg (commit s) (if_neg (by omega))

/-- The word written holds the new value, and every other word stays. -/
theorem cells_keepLanded {t : State} (howned : keepOwned w.source w.word = true) (hcells : t.keep.cells = keepLand w s.keep.cells) :
    cellOf t w.word = { value := w.value, wear := (cellOf s w.word).wear + 1, corrupt := false, holds := heldAfter w (cellOf s w.word) }
    ∧ ∀ x, x ≠ w.word → cellOf t x = cellOf s x := by
  unfold cellOf
  rw [hcells, keepLand, if_pos howned]
  exact ⟨tabGet_tabPut_self _ _ _ _, fun x hx => tabGet_tabPut_ne _ _ _ _ _ hx⟩

theorem keepWriteDone_host (h : s.keep.active = some w ∧ s.keep.startedAt + 20 ≤ s.clk.now) (howned : keepOwned w.source w.word = true)
    (hhost : w.source = .host) :
    Completes .keepWriteDone s fun t =>
      cellOf t w.word = { value := w.value, wear := (cellOf s w.word).wear + 1, corrupt := false, holds := heldAfter w (cellOf s w.word) }
      ∧ (∀ x, x ≠ w.word → cellOf t x = cellOf s x) ∧ t.keep.active = none ∧ t.keep.result = 0 ∧ t.irq.cause = s.irq.cause ||| bitAt 11 true
      ∧ SameBut [.keep, .irq, .out] s t := by
  refine (completes_withKeepDone (x := { keepLanded w s.keep with result := 0 })
    ((exec_keepWriteDone h).trans (congrArg (commit s) (if_pos hhost)))).imp fun t ⟨hkeep, hirq, hframe⟩ => ?_
  obtain ⟨hself, hother⟩ := cells_keepLanded (s := s) (t := t) howned (by rw [hkeep]; rfl)
  exact ⟨hself, hother, by rw [hkeep]; rfl, by rw [hkeep], by rw [hirq], ((withKeep_sameBut _ s).trans hframe).mono (by simp)⟩

theorem keepWriteDone_own (h : s.keep.active = some w ∧ s.keep.startedAt + 20 ≤ s.clk.now) (howned : keepOwned w.source w.word = true)
    (hhost : w.source ≠ .host) :
    Completes .keepWriteDone s fun t =>
      cellOf t w.word = { value := w.value, wear := (cellOf s w.word).wear + 1, corrupt := false, holds := heldAfter w (cellOf s w.word) }
      ∧ (∀ x, x ≠ w.word → cellOf t x = cellOf s x) ∧ t.keep.active = none ∧ t.keep.result = s.keep.result ∧ Alone [.keep] s t := by
  refine (completes_withKeep ((exec_keepWriteDone h).trans (congrArg (commit s) (if_neg hhost)))).imp fun t ⟨hkeep, halone⟩ => ?_
  obtain ⟨hself, hother⟩ := cells_keepLanded (s := s) (t := t) howned (by rw [hkeep]; rfl)
  exact ⟨hself, hother, by rw [hkeep]; rfl, by rw [hkeep]; rfl, halone⟩

/-! A write that waited too long (R493). -/

theorem exec_keepWriteWaitTimeout (hidle : s.keep.active = none ∧ s.pins.rails.vppKeep = false) (hnext : keepNext s.keep = some (w, k))
    (hlate : w.since + 100000 < s.clk.now) : exec .keepWriteWaitTimeout s = commit s (keepRefuse w 0x02 { s with keep := k }) := by
  show execKeepWriteWaitTimeout s = _
  unfold execKeepWriteWaitTimeout
  rw [hidle.1, hidle.2, hnext]
  exact congrArg (commit s) ((if_neg (by decide)).trans (if_neg (Nat.not_le.2 hlate)))

end

/-- Settles O22. -/
theorem keepStoreWindow : Obligations.KeepStoreWindow := by
  unfold Obligations.KeepStoreWindow
  refine ⟨fun s v hbusy hmay => ksDataWrite_queued hbusy hmay, fun s v hbusy => ksDataWrite_busy hbusy,
    fun s v hbusy hmay => ksDataWrite_denied hbusy hmay, fun s h => ksDataRead_sealed h, fun s h => ksDataRead_answers h,
    fun s w k hidle hnext hmay hprov => keepWriteStart_starts hidle hnext hmay hprov, fun s w k hidle hnext hworn hhost => ?_,
    fun s w k hidle hnext hworn hhost => ?_, fun s w k hidle hnext hmay hhost => keepWriteStart_denied hidle hnext hmay hhost,
    fun s w k hidle hnext hmay hhost => ?_, fun s w h howned hhost => keepWriteDone_host h howned hhost,
    fun s w h howned hhost => keepWriteDone_own h howned hhost, fun s w k hidle hnext hlate hhost => ?_, fun s w k hidle hnext hlate hhost => ?_⟩
  · exact completes_withKeepDone (x := { k with result := 2 })
      ((exec_keepWriteStart hidle hnext).trans (congrArg (commit s) ((keepStarted_worn hworn).trans (keepRefuse_host 0x02 hhost))))
  · exact completes_withKeep ((exec_keepWriteStart hidle hnext).trans (congrArg (commit s) ((keepStarted_worn hworn).trans (keepRefuse_own 0x02 hhost))))
  · exact completes_withKeep
      ((exec_keepWriteStart hidle hnext).trans (congrArg (commit s) ((keepStarted_foreign hmay.1 hmay.2).trans (keepRefuse_own 0x03 hhost))))
  · exact completes_withKeepDone (x := { k with result := 2 })
      ((exec_keepWriteWaitTimeout hidle hnext hlate).trans (congrArg (commit s) (keepRefuse_host 0x02 hhost)))
  · exact completes_withKeep ((exec_keepWriteWaitTimeout hidle hnext hlate).trans (congrArg (commit s) (keepRefuse_own 0x02 hhost)))

end Sys2Proof.Machine
end

section
/-! SUPPORT. What the power-up and the loss of a domain leave alone, and the domains' transitions (R446 to R450). -/
namespace Sys2Proof.Machine

/-! What initialising a domain leaves alone (R447, R448). -/

/-- Ports, lanes and the time service's port change, with what is sent and the free values: no instant does. -/
def PortsOnly (s t : State) : Prop := SameBut [.port, .tku, .out, .clk] s t ∧ t.clk.now = s.clk.now

theorem portsOnly_refl (s : State) : PortsOnly s s := ⟨sameBut_refl _ s, rfl⟩

theorem PortsOnly.trans {s t u : State} (h : PortsOnly s t) (k : PortsOnly t u) : PortsOnly s u :=
  ⟨(h.1.trans k.1).mono (by simp), k.2.trans h.2⟩

theorem portsOnly_modPort (p : Nat) (f : Port → Port) (s : State) : PortsOnly s (modPort p f s) := ⟨(modPort_sameBut p f s).mono (by simp), rfl⟩

theorem beginBring_portsOnly (k : Bring) (p : Nat) (s : State) : PortsOnly s (beginBring k p s) := by
  rw [beginBring_eq]
  refine ⟨((leavePort_sameBut p _ s).trans (startTry_sameBut p _ _)).mono (by simp), ?_⟩
  rw [startTry_eq]
  have hsent : (sendTrain p (tryBegun p (bringGen k (portOf s p)) (leavePort p (bringingUp k) s))).clk
      = (tryBegun p (bringGen k (portOf s p)) (leavePort p (bringingUp k) s)).clk := sendTrain_sameBut p _ .clk (by decide)
  have hleft : (leavePort p (bringingUp k) s).clk = s.clk := leavePort_sameBut p _ s .clk (by decide)
  have hbegun : (tryBegun p (bringGen k (portOf s p)) (leavePort p (bringingUp k) s)).clk = (drawFree (leavePort p (bringingUp k) s)).2.clk :=
    modLanes_sameBut p _ _ .clk (by decide)
  have hnow : (drawFree (leavePort p (bringingUp k) s)).2.clk.now = (leavePort p (bringingUp k) s).clk.now := rfl
  rw [hsent, hbegun, hnow, hleft]

/-- A bring-up of kind `k` asked for, a waiting retrain not looked at. -/
def bringAsked (k : Bring) (p : Nat) (s : State) : State :=
  if !s.plan.activated ∨ (portOf s p).state = .bringup then beginBring k p s
  else
    let t := modPort p (fun x => { x with waiting := some k }) s
    match bringing s p with
    | [] => if nextWaiting t (kindOf p) = some p then beginBring k p t else t
    | q :: _ =>
      if k = .retrain ∧ (portOf s q).bring = .probe then
        beginBring k p (modPort q (fun x => { x with state := .dormant, probing := true, gen := 0, waiting := some .probe }) t)
      else t

theorem requestBring_eq (k : Bring) (p : Nat) (s : State) :
    requestBring k p s = bringAsked (if (portOf s p).waiting = some .retrain then .retrain else k) p s := rfl

theorem bringAsked_portsOnly (k : Bring) (p : Nat) (s : State) : PortsOnly s (bringAsked k p s) := by
  have hwaits := portsOnly_modPort p (fun x => { x with waiting := some k }) s
  unfold bringAsked
  split
  · exact beginBring_portsOnly k p s
  · dsimp only
    cases bringing s p with
    | nil =>
      dsimp only
      split
      · exact hwaits.trans (beginBring_portsOnly k p _)
      · exact hwaits
    | cons q qs =>
      dsimp only
      split
      · exact hwaits.trans ((portsOnly_modPort q _ _).trans (beginBring_portsOnly k p _))
      · exact hwaits

/-- The ports of an octet asked to come up (R87). -/
def octetRises (d : Nat) (s : State) : State :=
  (octetPorts (d - 4)).foldl (fun t p => if portExists s p then requestBring .full p t else t) s

theorem foldl_portsOnly {α : Type} {f : State → α → State} (h : ∀ t a, PortsOnly t (f t a)) (l : List α) (s : State) : PortsOnly s (l.foldl f s) := by
  induction l generalizing s with
  | nil => exact portsOnly_refl s
  | cons a l ih => exact (h s a).trans (ih _)

theorem octetRises_portsOnly (d : Nat) (s : State) : PortsOnly s (octetRises d s) :=
  foldl_portsOnly (fun t p => by
    split
    · rw [requestBring_eq]
      exact bringAsked_portsOnly _ p t
    · exact portsOnly_refl t) _ s

theorem loadSlot_sameBut (k : Nat) (key : List Word) (size : Bool) (epoch floor : Nat) (s : State) :
    SameBut [.aead] s (loadSlot k key size epoch floor s) := setSlot_sameBut _ _ s

theorem loadSlot_clk (k : Nat) (key : List Word) (size : Bool) (epoch floor : Nat) (s : State) : (loadSlot k key size epoch floor s).clk = s.clk :=
  loadSlot_sameBut k key size epoch floor s .clk (by decide)

theorem mpWrites_clk (l : List (Nat × Word)) (s : State) : (mpWrites l s).clk = s.clk := mpWrites_sameBut l s .clk (by decide)

theorem drawDrbg_now (n : Nat) (s : State) : (drawDrbg n s).2.clk.now = s.clk.now := rfl

theorem drawStore_sameBut (s : State) : SameBut [.aead, .clk, .keep] s (drawStore s) := by
  unfold drawStore
  split
  · exact ((drawDrbg_sameBut 4 s).trans ((mpWrites_sameBut _ _).trans (loadSlot_sameBut _ _ _ _ _ _))).mono (by decide)
  · exact (loadSlot_sameBut _ _ _ _ _ s).mono (by decide)

theorem drawStore_now (s : State) : (drawStore s).clk.now = s.clk.now := by
  unfold drawStore
  split
  · rw [loadSlot_clk, mpWrites_clk, drawDrbg_now]
  · rw [loadSlot_clk]

/-- The check units and the engine as D29's power-up finds them, with PROV_KEY where its words hold one. -/
def engineReset (s : State) : State :=
  let s1 := { s with
    chk := {}
    aead := { markNext := s.aead.markNext,
              slot := (List.range 32).foldl (fun t k => tabPut {} t k { counter := resumedCounter s k }) ([] : Tab Slot) } }
  match sealedKey s1 3584 with
  | some k => loadSlot 0 k true 0 0 s1
  | none => s1

theorem engineReset_sameBut (s : State) : SameBut [.chk, .aead] s (engineReset s) := by
  unfold engineReset
  dsimp only
  split
  · exact ((withChk_sameBut {} s).trans ((withAead_sameBut _ _).trans (loadSlot_sameBut _ _ _ _ _ _))).mono (by decide)
  · exact (withChk_sameBut {} s).trans (withAead_sameBut _ _)

theorem powerUpD29_eq (s : State) : powerUpD29 s = restoreKeys (drawStore (engineReset s)) := by
  unfold powerUpD29 engineReset
  rfl

theorem powerUpD29_sameBut (s : State) : SameBut [.chk, .aead, .clk, .keep] s (powerUpD29 s) := by
  rw [powerUpD29_eq]
  exact ((engineReset_sameBut s).trans ((drawStore_sameBut _).trans (restoreKeys_sameBut _))).mono (by decide)

theorem powerUpD29_now (s : State) : (powerUpD29 s).clk.now = s.clk.now := by
  have hrestored : (restoreKeys (drawStore (engineReset s))).clk = (drawStore (engineReset s)).clk := restoreKeys_sameBut _ .clk (by decide)
  have hreset : (engineReset s).clk = s.clk := engineReset_sameBut s .clk (by decide)
  rw [powerUpD29_eq, hrestored, drawStore_now, hreset]

/-- The near store's regions and the superframe number as D28's power-up leaves them. -/
def granaryReady (s : State) : State :=
  let t := rewriteRegions (resumeNumber s)
  if t.mem.busyDue then { t with mem := { t.mem with err := true, errCode := 4, busyDue := false } } else t

theorem rewriteRegions_sameBut (s : State) : SameBut [.mem, .out] s (rewriteRegions s) := by
  intro g hg; cases g <;> simp_all [Group.same, rewriteRegions]

theorem resumeNumber_sameBut (s : State) : SameBut [.sf, .keep] s (resumeNumber s) :=
  (withSf_sameBut _ s).trans (mpWrite_sameBut _ _ _)

theorem granaryReady_sameBut (s : State) : SameBut [.mem, .out, .sf, .keep] s (granaryReady s) := by
  unfold granaryReady
  dsimp only
  split
  · exact ((resumeNumber_sameBut s).trans ((rewriteRegions_sameBut _).trans (withMem_sameBut _ _))).mono (by decide)
  · exact ((resumeNumber_sameBut s).trans (rewriteRegions_sameBut _)).mono (by decide)

/-- The groups that initialising a domain may reach. -/
def initGroups : List Group := [.port, .tku, .out, .clk, .chk, .aead, .keep, .mem, .sf]

theorem initDomain_sameBut (d : Nat) (s : State) : SameBut initGroups s (initDomain d s) := by
  unfold initDomain
  split
  · exact (powerUpD29_sameBut s).mono (by decide)
  · split
    · exact (octetRises_portsOnly d s).1.mono (by decide)
    · split
      · exact (granaryReady_sameBut s).mono (by decide)
      · exact sameBut_refl _ s

theorem initDomain_now (d : Nat) (s : State) : (initDomain d s).clk.now = s.clk.now := by
  unfold initDomain
  split
  · exact powerUpD29_now s
  · split
    · exact (octetRises_portsOnly d s).2
    · split
      · exact congrArg Clock.now (granaryReady_sameBut s .clk (by decide))
      · rfl

theorem initDomain_octet {d : Nat} (s : State) (h : 4 ≤ d ∧ d ≤ 11) : initDomain d s = octetRises d s := (if_neg (by omega)).trans (if_pos h)

theorem initDomain_none {d : Nat} (s : State) (h : 12 ≤ d ∧ d < 28 ∨ d < 4) : initDomain d s = s :=
  (if_neg (by omega)).trans ((if_neg (by omega)).trans (if_neg (by omega)))

/-! What the loss of a domain's contents leaves alone (R446, R449). -/

/-- The groups that the loss of a domain may reach. -/
def lossGroups : List Group := [.mp, .aead, .irq, .mem, .out, .link, .air, .host, .port, .tku, .circ, .plan, .feed, .pair, .ev, .sf, .ldpc, .sec, .age, .mb, .chk]

theorem octetLost_sameBut (k : Nat) (s : State) : SameBut [.port, .tku] s (octetLost k s) := by
  have hports : ∀ x : Ports, SameBut [.port] s { s with port := x } := fun x => by
    intro g hg; cases g <;> simp_all [Group.same]
  exact ((hports _).trans ((afterPorts_sameBut s _).trans (passTurn_sameBut s _))).mono (by decide)

theorem groupLost_sameBut (g : Nat) (s : State) : SameBut [.circ, .plan] s (groupLost g s) := by
  have hreplaced : ∀ (c : Circuits) (x : Plans), SameBut [.circ, .plan] s { s with circ := c, plan := x } := fun c x => by
    intro g hg; cases g <;> simp_all [Group.same]
  unfold groupLost
  exact hreplaced _ _

theorem coreLost_sameBut (d : Nat) (s : State) :
    SameBut [.aead, .irq, .mem, .out, .mp] s
      (let k := d - 1
       let t := setCore k { takeovers := (coreOf s k).takeovers, lastCause := (coreOf s k).lastCause } (aeadCoreLost d s)
       if t.mp.runner = k then { t with mp := { t.mp with serving := false } } else t) := by
  have hcore : ∀ x : Core, SameBut [.aead, .irq, .mem, .out, .mp] s (setCore (d - 1) x (aeadCoreLost d s)) := fun x =>
    (aeadCoreLost_sameBut d s).trans (setCore_sameBut _ _ _)
  dsimp only
  split
  · exact ((hcore _).trans (withMp_sameBut _ _)).mono (by decide)
  · exact hcore _

theorem d28Lost_sameBut (s : State) : SameBut lossGroups s (d28Lost s) := by
  intro g hg; cases g <;> simp_all [Group.same, d28Lost, lossGroups]

theorem loseDomain_sameBut (d : Nat) (s : State) : SameBut lossGroups s (loseDomain d s) := by
  unfold loseDomain
  split
  · exact (coreLost_sameBut d s).mono (by decide)
  · split
    · exact ((linkLost_sameBut s).trans (withIrq_sameBut _ _)).mono (by decide)
    · split
      · exact (octetLost_sameBut _ s).mono (by decide)
      · split
        · exact (groupLost_sameBut _ s).mono (by decide)
        · split
          · exact d28Lost_sameBut s
          · split
            · exact ((withChk_sameBut {} s).trans (withAead_sameBut _ _)).mono (by decide)
            · exact sameBut_refl _ s

/-- What the drain of a domain leaves alone (R449). -/
theorem returnAllFrames_sameBut (s : State) : SameBut [.air, .link, .pair, .host, .out] s (returnAllFrames s) := by
  have hcleared : ∀ (a : Air) (l : Links), SameBut [.air, .link] s { s with air := a, link := l } := fun a l => by
    intro g hg; cases g <;> simp_all [Group.same]
  exact (hcleared _ _).trans (returnFrames_sameBut _ _ _)

theorem drainWork_sameBut (d : Nat) (s : State) : SameBut [.air, .link, .pair, .host, .out, .port, .tku] s (drainWork d s) := by
  unfold drainWork
  split
  · exact (returnAllFrames_sameBut s).mono (by decide)
  · split
    · exact (linkLost_sameBut s).mono (by decide)
    · split
      · exact (octetLost_sameBut _ s).mono (by decide)
      · exact sameBut_refl _ s

theorem drainWork_none {d : Nat} (s : State) (h : 12 ≤ d ∧ d ≠ 28 ∨ d < 3) : drainWork d s = s :=
  (if_neg (by omega)).trans ((if_neg (by omega)).trans (if_neg (by omega)))

end Sys2Proof.Machine
end

section
/-! SUPPORT. The domains' transitions: power-good, its time-out, the sequencer's next request, the end of a drain and of a power-down (R446 to R450). -/
namespace Sys2Proof.Machine

theorem domOf_of_dom {s t : State} (h : t.pwr.dom = s.pwr.dom) (d : Nat) : domOf t d = domOf s d := by
  unfold domOf
  rw [h]

/-! The end of a switching (R447, R448). -/

/-- With no sequence to go on with, the sequencer is free. -/
theorem switchEnd_idle {s : State} (h : s.pwr.seqRunning = false ∨ s.pwr.seqRest = []) :
    switchEnd s = { s with pwr := { s.pwr with switching := none, switchDoneAt := s.clk.now } } := by
  unfold switchEnd seqNext
  dsimp only
  cases hrest : s.pwr.seqRest with
  | nil => rfl
  | cons d r => exact if_neg (by rw [h.resolve_right (by simp [hrest])]; decide)

/-- A running sequence goes on with its next domain. -/
theorem switchEnd_next {s : State} {e : Nat} {ds : List Nat} (h : s.pwr.seqRunning = true) (hrest : s.pwr.seqRest = e :: ds) :
    switchEnd s = beginUp e { s with pwr := { s.pwr with switching := none, switchDoneAt := s.clk.now, seqRest := ds } } := by
  unfold switchEnd seqNext
  dsimp only
  rw [hrest]
  exact if_pos h

theorem beginUp_dom (d : Nat) (s : State) :
    (beginUp d s).pwr.dom = (setDom d { domOf s d with state := .poweringUp, pendUp := false, since := s.clk.now } s).pwr.dom := rfl

theorem beginDown_dom (d : Nat) (s : State) :
    (beginDown d s).pwr.dom = (setDom d { domOf s d with state := .poweringDown, drained := false, since := s.clk.now } s).pwr.dom := rfl

theorem domOf_beginUp (d : Nat) (s : State) :
    domOf (beginUp d s) d = { domOf s d with state := .poweringUp, pendUp := false, since := s.clk.now } := by
  rw [domOf_of_dom (beginUp_dom d s), domOf_setDom]

theorem domOf_beginUp_ne {d k : Nat} (s : State) (h : k ≠ d) : domOf (beginUp d s) k = domOf s k := by
  rw [domOf_of_dom (beginUp_dom d s), domOf_setDom_ne _ _ _ _ h]

theorem domOf_beginDown (d : Nat) (s : State) :
    domOf (beginDown d s) d = { domOf s d with state := .poweringDown, drained := false, since := s.clk.now } := by
  rw [domOf_of_dom (beginDown_dom d s), domOf_setDom]

theorem domOf_beginDown_ne {d k : Nat} (s : State) (h : k ≠ d) : domOf (beginDown d s) k = domOf s k := by
  rw [domOf_of_dom (beginDown_dom d s), domOf_setDom_ne _ _ _ _ h]

/-- What a command leaves whose effect ends a switching, with no sequence to go on with. -/
theorem completes_switchEnd {i : Instr} {s r : State} (h : exec i s = commit s (switchEnd r)) (hidle : r.pwr.seqRunning = false ∨ r.pwr.seqRest = []) :
    Completes i s fun t => t.pwr = { r.pwr with switching := none, switchDoneAt := r.clk.now } ∧ SameBut [.pwr, .irq, .out, .pending] r t
      ∧ (SameBut [.pwr] s r → Alone [.pwr] s t) := by
  rw [switchEnd_idle hidle] at h
  refine completes_of_exec h fun t ht => ⟨ht.1 .pwr (by decide), ((withPwr_sameBut _ r).trans ht.1).mono (by simp), fun hr => ?_⟩
  exact becomes_alone ((hr.trans (withPwr_sameBut _ r)).mono (by simp)) (by decide) ht

/-- And with a sequence that goes on with domain e. -/
theorem completes_switchNext {i : Instr} {s r : State} {e d : Nat} {ds : List Nat} (h : exec i s = commit s (switchEnd r))
    (hseq : r.pwr.seqRunning = true ∧ r.pwr.seqRest = e :: ds) (hd : d ≠ e) :
    Completes i s fun t => t.pwr.switching = some e ∧ t.pwr.seqRest = ds ∧ (domOf t e).state = .poweringUp ∧ domOf t d = domOf r d := by
  rw [switchEnd_next hseq.1 hseq.2] at h
  refine completes_of_exec h fun t ht => ?_
  have hpwr := ht.1 .pwr (by decide)
  refine ⟨by rw [hpwr]; rfl, by rw [hpwr]; rfl, ?_, ?_⟩
  · rw [domOf_congr hpwr]
    exact congrArg Dom.state (domOf_beginUp e _)
  · rw [domOf_congr hpwr]
    exact domOf_beginUp_ne _ hd

/-! Power-good (R448). -/

/-- A domain whose power-up has ended: ENABLED, or draining where a Down was accepted meanwhile. -/
def upEnded (now d : Nat) (u : State) : State :=
  let t := domEnds d .enabled u
  let t := setDom d { domOf t d with cycling := false, since := now } t
  if (domOf t d).pendDown then beginDrain d t else t

theorem domOf_domEnds (d : Nat) (st : DomState) (u : State) :
    domOf (domEnds d st u) d = { domOf u d with state := st, inPlace := false, drained := false } := domOf_setDom d _ u

theorem domOf_domEnds_ne {d k : Nat} (st : DomState) (u : State) (h : k ≠ d) : domOf (domEnds d st u) k = domOf u k := domOf_setDom_ne d k _ u h

theorem upEnded_self (d : Nat) (u : State) :
    domOf (upEnded u.clk.now d u) d = { domOf u d with
      state := if (domOf u d).pendDown then .draining else .enabled
      pendDown := false, inPlace := false, drained := false, cycling := false, since := u.clk.now } := by
  unfold upEnded
  dsimp only
  rw [domOf_setDom, domOf_domEnds]
  cases hdown : (domOf u d).pendDown with
  | true =>
    rw [if_pos rfl]
    show domOf (setDom d _ _) d = _
    rw [domOf_setDom, domOf_setDom]
    rfl
  | false =>
    rw [if_neg (by decide), domOf_setDom]
    simp [← hdown]

theorem upEnded_ne {now d k : Nat} (u : State) (h : k ≠ d) : domOf (upEnded now d u) k = domOf u k := by
  unfold upEnded
  dsimp only
  split
  · rw [beginDrain, domOf_setDom_ne _ _ _ _ h, domOf_setDom_ne _ _ _ _ h, domOf_domEnds_ne _ _ h]
  · rw [domOf_setDom_ne _ _ _ _ h, domOf_domEnds_ne _ _ h]

theorem upEnded_pwr (now d : Nat) (u : State) :
    (upEnded now d u).pwr = { u.pwr with dom := (upEnded now d u).pwr.dom, domEvent := u.pwr.domEvent ||| bitAt d true } := by
  unfold upEnded
  dsimp only
  split <;> rfl

theorem upEnded_sameBut (now d : Nat) (u : State) : SameBut [.pwr] u (upEnded now d u) := by
  have hended : SameBut [.pwr] u (domEnds d .enabled u) := ((setDom_sameBut d _ u).trans (withPwr_sameBut _ _)).mono (by simp)
  unfold upEnded
  dsimp only
  split
  · exact (hended.trans ((setDom_sameBut d _ _).trans (setDom_sameBut d _ _))).mono (by simp)
  · exact (hended.trans (setDom_sameBut d _ _)).mono (by simp)

section
variable {s : State} {d e : Nat} {ds : List Nat}

theorem exec_powerGood (hd : 1 ≤ d ∧ d < 30)
    (h : s.pwr.switching = some d ∧ (domOf s d).state = .poweringUp ∧ railsFor s.pins.rails d = true) :
    exec (.powerGood d) s = commit s (switchEnd (upEnded s.clk.now d (initDomain d s))) := by
  show execPowerGood d s = _
  unfold execPowerGood
  rw [if_pos h]
  exact onObject_true (decide_eq_true hd)

/-- The domain that is initialised and ENABLED, whose power record initialisation leaves (R448). -/
theorem upEnded_initDomain (d : Nat) (s : State) :
    domOf (upEnded s.clk.now d (initDomain d s)) d = { domOf s d with
      state := if (domOf s d).pendDown then .draining else .enabled
      pendDown := false, inPlace := false, drained := false, cycling := false, since := s.clk.now } := by
  have h := upEnded_self d (initDomain d s)
  rwa [initDomain_now, domOf_congr (initDomain_sameBut d s .pwr (by decide))] at h

theorem powerGood_enables
    (h : 1 ≤ d ∧ d < 30 ∧ s.pwr.switching = some d ∧ (domOf s d).state = .poweringUp ∧ railsFor s.pins.rails d = true)
    (hidle : s.pwr.seqRunning = false ∨ s.pwr.seqRest = []) :
    Completes (.powerGood d) s fun t =>
      domOf t d = { domOf s d with
        state := if (domOf s d).pendDown then .draining else .enabled
        pendDown := false, inPlace := false, drained := false, cycling := false, since := s.clk.now }
      ∧ (∀ k, k ≠ d → domOf t k = domOf s k) ∧ t.pwr.switching = none ∧ t.pwr.waiting = s.pwr.waiting
      ∧ t.pwr.domEvent = s.pwr.domEvent ||| bitAt d true ∧ t.pins = s.pins ∧ t.host = s.host ∧ t.link = s.link ∧ t.circ = s.circ ∧ t.plan = s.plan
      ∧ (12 ≤ d ∧ d < 28 ∨ d < 4 → Alone [.pwr] s t) := by
  obtain ⟨hlo, hhi, hready⟩ := h
  have hinit := initDomain_sameBut d s
  have hpwr : (initDomain d s).pwr = s.pwr := hinit .pwr (by decide)
  have hended := upEnded_pwr s.clk.now d (initDomain d s)
  rw [hpwr] at hended
  refine (completes_switchEnd (exec_powerGood ⟨hlo, hhi⟩ hready) (by rw [hended]; exact hidle)).imp fun t ⟨ht, hsame, halone⟩ => ?_
  have hframe := hinit.trans ((upEnded_sameBut s.clk.now d _).trans hsame)
  have hdom : ∀ k, domOf t k = domOf (upEnded s.clk.now d (initDomain d s)) k := domOf_of_dom (by rw [ht])
  refine ⟨?_, fun k hk => ?_, by rw [ht], by rw [ht, hended], by rw [ht, hended], hframe .pins (by decide), hframe .host (by decide),
    hframe .link (by decide), hframe .circ (by decide), hframe .plan (by decide), fun hd => halone ?_⟩
  · rw [hdom, upEnded_initDomain]
  · rw [hdom, upEnded_ne _ hk, domOf_congr hpwr]
  · have hsolo := upEnded_sameBut s.clk.now d (initDomain d s)
    rwa [initDomain_none s hd] at hsolo ⊢

theorem powerGood_next
    (h : 1 ≤ d ∧ d < 30 ∧ s.pwr.switching = some d ∧ (domOf s d).state = .poweringUp ∧ railsFor s.pins.rails d = true)
    (hseq : s.pwr.seqRunning = true ∧ s.pwr.seqRest = e :: ds ∧ e ≠ d) :
    Completes (.powerGood d) s fun t =>
      t.pwr.switching = some e ∧ t.pwr.seqRest = ds ∧ (domOf t e).state = .poweringUp
      ∧ (domOf t d).state = (if (domOf s d).pendDown then .draining else .enabled) := by
  obtain ⟨hlo, hhi, hready⟩ := h
  have hpwr : (initDomain d s).pwr = s.pwr := initDomain_sameBut d s .pwr (by decide)
  have hended := upEnded_pwr s.clk.now d (initDomain d s)
  rw [hpwr] at hended
  refine (completes_switchNext (e := e) (ds := ds) (d := d) (exec_powerGood ⟨hlo, hhi⟩ hready) (by rw [hended]; exact ⟨hseq.1, hseq.2.1⟩)
    (Ne.symm hseq.2.2)).imp fun t ⟨hsw, hrest, hup, hself⟩ => ⟨hsw, hrest, hup, ?_⟩
  rw [hself, upEnded_initDomain]

/-! A power-good that does not come (R448). -/

/-- A domain whose power-up has failed. -/
def upFailed (d : Nat) (u : State) : State :=
  let t := domEnds d .fault u
  setDom d { domOf t d with pendDown := false, cycling := false } t

theorem upFailed_self (d : Nat) (u : State) :
    domOf (upFailed d u) d = { domOf u d with state := .fault, pendDown := false, inPlace := false, drained := false, cycling := false } := by
  unfold upFailed
  dsimp only
  rw [domOf_setDom, domOf_domEnds]

theorem upFailed_ne {k : Nat} (u : State) (h : k ≠ d) : domOf (upFailed d u) k = domOf u k := by
  unfold upFailed
  dsimp only
  rw [domOf_setDom_ne _ _ _ _ h, domOf_domEnds_ne _ _ h]

theorem upFailed_pwr (d : Nat) (u : State) :
    (upFailed d u).pwr = { u.pwr with dom := (upFailed d u).pwr.dom, domEvent := u.pwr.domEvent ||| bitAt d true } := rfl

theorem domEnds_sameBut (d : Nat) (st : DomState) (u : State) : SameBut [.pwr] u (domEnds d st u) :=
  ((setDom_sameBut d _ u).trans (withPwr_sameBut _ _)).mono (by simp)

theorem upFailed_sameBut (d : Nat) (u : State) : SameBut [.pwr] u (upFailed d u) :=
  ((domEnds_sameBut d .fault u).trans (setDom_sameBut d _ _)).mono (by simp)

theorem exec_powerGoodTimeout (hd : 1 ≤ d ∧ d < 30) (h : s.pwr.switching = some d ∧ (domOf s d).state = .poweringUp)
    (hdue : (domOf s d).inPlace = false ∧ (domOf s d).since + 2 * switchTicks d ≤ s.clk.now) :
    exec (.powerGoodTimeout d) s = commit s (switchEnd (upFailed d (loseDomain d s))) := by
  show execPowerGoodTimeout d s = _
  unfold execPowerGoodTimeout
  rw [if_pos ⟨h.1, h.2, hdue.1, hdue.2⟩]
  exact onObject_true (decide_eq_true hd)

theorem powerGoodTimeout_fails (h : 1 ≤ d ∧ d < 30 ∧ s.pwr.switching = some d ∧ (domOf s d).state = .poweringUp)
    (hdue : (domOf s d).inPlace = false ∧ (domOf s d).since + 2 * switchTicks d ≤ s.clk.now) (hidle : s.pwr.seqRunning = false ∨ s.pwr.seqRest = []) :
    Completes (.powerGoodTimeout d) s fun t =>
      domOf t d = { domOf s d with state := .fault, pendDown := false, inPlace := false, drained := false, cycling := false }
      ∧ (∀ k, k ≠ d → domOf t k = domOf s k) ∧ t.pwr.switching = none ∧ t.pwr.waiting = s.pwr.waiting
      ∧ t.pwr.domEvent = s.pwr.domEvent ||| bitAt d true ∧ t.pins = s.pins ∧ t.keep = s.keep ∧ t.clk = s.clk ∧ t.avs = s.avs := by
  obtain ⟨hlo, hhi, hready⟩ := h
  have hlost := loseDomain_sameBut d s
  have hpwr : (loseDomain d s).pwr = s.pwr := hlost .pwr (by decide)
  have hended := upFailed_pwr d (loseDomain d s)
  rw [hpwr] at hended
  refine (completes_switchEnd (exec_powerGoodTimeout ⟨hlo, hhi⟩ hready hdue) (by rw [hended]; exact hidle)).imp fun t ⟨ht, hsame, _⟩ => ?_
  have hframe := hlost.trans ((upFailed_sameBut d _).trans hsame)
  have hdom : ∀ k, domOf t k = domOf (upFailed d (loseDomain d s)) k := domOf_of_dom (by rw [ht])
  refine ⟨?_, fun k hk => ?_, by rw [ht], by rw [ht, hended], by rw [ht, hended], hframe .pins (by decide), hframe .keep (by decide),
    hframe .clk (by decide), hframe .avs (by decide)⟩
  · rw [hdom, upFailed_self, domOf_congr hpwr]
  · rw [hdom, upFailed_ne _ hk, domOf_congr hpwr]

theorem powerGoodTimeout_next (h : 1 ≤ d ∧ d < 30 ∧ s.pwr.switching = some d ∧ (domOf s d).state = .poweringUp)
    (hdue : (domOf s d).inPlace = false ∧ (domOf s d).since + 2 * switchTicks d ≤ s.clk.now)
    (hseq : s.pwr.seqRunning = true ∧ s.pwr.seqRest = e :: ds ∧ e ≠ d) :
    Completes (.powerGoodTimeout d) s fun t =>
      t.pwr.switching = some e ∧ t.pwr.seqRest = ds ∧ (domOf t e).state = .poweringUp ∧ (domOf t d).state = .fault := by
  obtain ⟨hlo, hhi, hready⟩ := h
  have hpwr : (loseDomain d s).pwr = s.pwr := loseDomain_sameBut d s .pwr (by decide)
  have hended := upFailed_pwr d (loseDomain d s)
  rw [hpwr] at hended
  refine (completes_switchNext (e := e) (ds := ds) (d := d) (exec_powerGoodTimeout ⟨hlo, hhi⟩ hready hdue)
    (by rw [hended]; exact ⟨hseq.1, hseq.2.1⟩) (Ne.symm hseq.2.2)).imp fun t ⟨hsw, hrest, hup, hself⟩ => ⟨hsw, hrest, hup, ?_⟩
  rw [hself, upFailed_self]

theorem powerGood_ignored
    (h : 1 ≤ d ∧ d < 30 ∧ (s.pwr.switching ≠ some d ∨ (domOf s d).state ≠ .poweringUp ∨ railsFor s.pins.rails d = false)) :
    Completes (.powerGood d) s fun t => t = s := by
  obtain ⟨hlo, hhi, hnot⟩ := h
  refine completes_unchanged ((onObject_true (decide_eq_true ⟨hlo, hhi⟩)).trans (congrArg (commit s) (if_neg ?_)))
  rintro ⟨hsw, hst, hrails⟩
  simp [hsw, hst, hrails] at hnot

theorem powerGoodTimeout_ignored
    (h : 1 ≤ d ∧ d < 30 ∧ (s.pwr.switching ≠ some d ∨ (domOf s d).state ≠ .poweringUp ∨ (domOf s d).inPlace = true
      ∨ s.clk.now < (domOf s d).since + 2 * switchTicks d)) : Completes (.powerGoodTimeout d) s fun t => t = s := by
  obtain ⟨hlo, hhi, hnot⟩ := h
  refine completes_unchanged ((onObject_true (decide_eq_true ⟨hlo, hhi⟩)).trans (congrArg (commit s) (if_neg ?_)))
  rintro ⟨hsw, hst, hin, hdue⟩
  have hlt : ¬ s.clk.now < (domOf s d).since + 2 * switchTicks d := Nat.not_lt.2 hdue
  simp [hsw, hst, hin, hlt] at hnot

/-! A domain called back (R450). -/

/-- What a drained domain that an Up called back leaves: ENABLED, its waiting requests dropped. -/
theorem calledBack_leaves (d : Nat) (s : State) :
    domOf (calledBack d s) d = { domOf s d with state := .enabled, pendUp := false, inPlace := false, drained := false }
    ∧ (∀ k, k ≠ d → domOf (calledBack d s) k = domOf s k) ∧ (calledBack d s).pwr.domEvent = s.pwr.domEvent ||| bitAt d true
    ∧ (calledBack d s).pwr.switching = s.pwr.switching ∧ (calledBack d s).pwr.waiting = (s.pwr.waiting.filter fun p => p.1 != d)
    ∧ SameBut [.pwr, .port, .tku, .out, .clk] s (calledBack d s) := by
  let u : State := { s with pwr := { s.pwr with waiting := s.pwr.waiting.filter fun p => p.1 != d } }
  have hback : SameBut [.port, .tku, .out, .clk] (domEnds d .enabled (setDom d { domOf u d with pendUp := false } u)) (calledBack d s) := by
    unfold calledBack
    dsimp only
    split
    · rename_i hoctet
      rw [initDomain_octet _ hoctet]
      exact (octetRises_portsOnly d _).1
    · exact sameBut_refl _ _
  have hpwr := hback .pwr (by decide)
  refine ⟨?_, fun k hk => ?_, by rw [hpwr]; rfl, by rw [hpwr]; rfl, by rw [hpwr]; rfl, ?_⟩
  · rw [domOf_congr hpwr, domOf_domEnds, domOf_setDom]
    rfl
  · rw [domOf_congr hpwr, domOf_domEnds_ne _ _ hk, domOf_setDom_ne _ _ _ _ hk]
    rfl
  · exact ((withPwr_sameBut _ s).trans ((setDom_sameBut d _ _).trans ((domEnds_sameBut d _ _).trans hback))).mono (by simp)

theorem waiting_filtered {l : List (Nat × Bool)} : ∀ p ∈ (l.filter fun p => p.1 != d), p.1 ≠ d := fun p hp => by
  have := (List.mem_filter.1 hp).2
  simpa using this

/-! The sequencer's next request (R448). -/

theorem exec_domainSwitchStart {up : Bool} {r : List (Nat × Bool)}
    (h : s.pwr.seqRunning = false ∧ s.pwr.switching = none ∧ s.pwr.waiting = (d, up) :: r) :
    exec .domainSwitchStart s = commit s
      (if up then beginUp d { s with pwr := { s.pwr with waiting := r } }
       else if (domOf s d).pendUp ∧ (domOf s d).state = .draining then calledBack d { s with pwr := { s.pwr with waiting := r } }
       else beginDown d { s with pwr := { s.pwr with waiting := r } }) := by
  show execDomainSwitchStart s = _
  unfold execDomainSwitchStart
  rw [h.1, h.2.1, h.2.2]
  rfl

/-- A domain set, with the sequencer on it. -/
theorem completes_begins {i : Instr} {x : Dom} {r : State} (h : exec i s = commit s { setDom d x r with pwr := { (setDom d x r).pwr with switching := some d } })
    (hr : SameBut [.pwr] s r) (hdom : r.pwr.dom = s.pwr.dom) :
    Completes i s fun t => t.pwr.waiting = r.pwr.waiting ∧ t.pwr.switching = some d ∧ t.pwr.domEvent = r.pwr.domEvent ∧ domOf t d = x
      ∧ (∀ k, k ≠ d → domOf t k = domOf s k) ∧ Alone [.pwr] s t := by
  refine completes_of_exec h fun t ht => ?_
  have hpwr := ht.1 .pwr (by decide)
  refine ⟨by rw [hpwr]; rfl, by rw [hpwr], by rw [hpwr]; rfl, ?_, fun k hk => ?_, ?_⟩
  · rw [domOf_congr hpwr]
    exact domOf_setDom d x r
  · rw [domOf_congr hpwr]
    exact (domOf_setDom_ne d k x r hk).trans (domOf_of_dom hdom k)
  · exact becomes_alone ((hr.trans ((setDom_sameBut d x r).trans (withPwr_sameBut _ _))).mono (by simp)) (by decide) ht

theorem switchStart_takes {up : Bool} {r : List (Nat × Bool)} (h : s.pwr.seqRunning = false ∧ s.pwr.switching = none ∧ s.pwr.waiting = (d, up) :: r)
    (hnot : up = true ∨ (domOf s d).pendUp = false ∨ (domOf s d).state ≠ .draining) :
    Completes .domainSwitchStart s fun t =>
      t.pwr.waiting = r ∧ t.pwr.switching = some d ∧ t.pwr.domEvent = s.pwr.domEvent
      ∧ domOf t d = (if up then { domOf s d with state := .poweringUp, pendUp := false, since := s.clk.now }
          else { domOf s d with state := .poweringDown, drained := false, since := s.clk.now })
      ∧ (∀ k, k ≠ d → domOf t k = domOf s k) ∧ Alone [.pwr] s t := by
  have hexec := exec_domainSwitchStart h
  cases up with
  | true => exact completes_begins (r := { s with pwr := { s.pwr with waiting := r } }) hexec (withPwr_sameBut _ s) rfl
  | false =>
    have hdown : ¬((domOf s d).pendUp = true ∧ (domOf s d).state = .draining) := by
      rintro ⟨hup, hst⟩
      simp [hup, hst] at hnot
    rw [if_neg (by decide), if_neg hdown] at hexec
    exact completes_begins (r := { s with pwr := { s.pwr with waiting := r } }) hexec (withPwr_sameBut _ s) rfl

theorem switchStart_callsBack {r : List (Nat × Bool)} (h : s.pwr.seqRunning = false ∧ s.pwr.switching = none ∧ s.pwr.waiting = (d, false) :: r)
    (hback : (domOf s d).pendUp = true ∧ (domOf s d).state = .draining) :
    Completes .domainSwitchStart s fun t =>
      domOf t d = { domOf s d with state := .enabled, pendUp := false, inPlace := false, drained := false } ∧ (∀ k, k ≠ d → domOf t k = domOf s k)
      ∧ t.pwr.domEvent = s.pwr.domEvent ||| bitAt d true ∧ t.pwr.switching = none ∧ (∀ p ∈ t.pwr.waiting, p.1 ≠ d) ∧ t.mem.near = s.mem.near := by
  have hexec := exec_domainSwitchStart h
  rw [if_neg (by decide), if_pos hback] at hexec
  obtain ⟨hself, hother, hevent, hsw, hwait, hframe⟩ := calledBack_leaves d { s with pwr := { s.pwr with waiting := r } }
  refine completes_of_exec hexec fun t ht => ?_
  have hpwr := ht.1 .pwr (by decide)
  refine ⟨(domOf_congr hpwr d).trans hself, fun k hk => (domOf_congr hpwr k).trans (hother k hk), ?_, ?_, ?_, ?_⟩
  · rw [hpwr, hevent]
  · rw [hpwr, hsw]
    exact h.2.1
  · rw [hpwr, hwait]
    exact waiting_filtered
  · have hmem : t.mem = s.mem := (ht.1 .mem (by decide)).trans (hframe .mem (by decide))
    rw [hmem]

theorem switchStart_ignored (h : s.pwr.seqRunning = true ∨ s.pwr.switching ≠ none ∨ s.pwr.waiting = []) :
    Completes .domainSwitchStart s fun t => t = s := by
  refine completes_unchanged ?_
  show execDomainSwitchStart s = _
  unfold execDomainSwitchStart
  cases hrun : s.pwr.seqRunning with
  | true => rfl
  | false =>
    cases hsw : s.pwr.switching with
    | some e => rfl
    | none =>
      have hnil : s.pwr.waiting = [] := by simpa [hrun, hsw] using h
      rw [hnil]

/-! The end of a drain (R449, R450). -/

theorem exec_drainEnd_done (hd : 1 ≤ d ∧ d < 30)
    (h : (domOf s d).state = .draining ∧ (domOf s d).drained = false ∧ drainBusy d s = false ∧ (domOf s d).since < s.clk.now) :
    exec (.drainEnd d) s = commit s
      (if (domOf s d).pendUp then calledBack d (drainWork d s)
       else if seqFree s then beginDown d (drainWork d s)
       else enqueue d false false (setDom d { domOf s d with drained := true } (drainWork d s))) := by
  have hpwr : (drainWork d s).pwr = s.pwr := drainWork_sameBut d s .pwr (by decide)
  have hfree : seqFree (drainWork d s) = seqFree s := by
    unfold seqFree
    rw [hpwr]
  show execDrainEnd d s = _
  unfold execDrainEnd
  dsimp only
  rw [if_neg (by simp [h.2.1]), if_pos h, domOf_congr hpwr, hfree]
  exact onObject_true (decide_eq_true hd)

theorem linkLost_down (h : d = 3) : (drainWork d s).host.up = false := by
  subst h
  rfl

theorem drainEnd_powersDown
    (h : 1 ≤ d ∧ d < 30 ∧ (domOf s d).state = .draining ∧ (domOf s d).drained = false ∧ (domOf s d).pendUp = false ∧ drainBusy d s = false)
    (hdue : (domOf s d).since < s.clk.now) (hfree : seqFree s = true) :
    Completes (.drainEnd d) s fun t =>
      t.pwr.switching = some d ∧ domOf t d = { domOf s d with state := .poweringDown, since := s.clk.now } ∧ t.pwr.waiting = s.pwr.waiting
      ∧ (∀ k, k ≠ d → domOf t k = domOf s k) ∧ t.pwr.domEvent = s.pwr.domEvent ∧ (d = 3 → t.host.up = false)
      ∧ (12 ≤ d ∧ d ≠ 28 ∨ d < 3 → Alone [.pwr] s t) := by
  obtain ⟨hlo, hhi, hst, hdrained, hup, hbusy⟩ := h
  have hexec := exec_drainEnd_done ⟨hlo, hhi⟩ ⟨hst, hdrained, hbusy, hdue⟩
  rw [if_neg (by simp [hup]), if_pos hfree] at hexec
  have hwork := drainWork_sameBut d s
  have hpwr : (drainWork d s).pwr = s.pwr := hwork .pwr (by decide)
  have hclk : (drainWork d s).clk = s.clk := hwork .clk (by decide)
  refine completes_of_exec hexec fun t ht => ?_
  have htp := ht.1 .pwr (by decide)
  refine ⟨by rw [htp]; rfl, ?_, ?_, fun k hk => ?_, ?_, fun h3 => ?_, fun hnone => ?_⟩
  · rw [domOf_congr htp]
    refine (domOf_beginDown d _).trans ?_
    simp only [domOf_congr hpwr, hclk, hdrained]
  · rw [htp, ← hpwr]
    rfl
  · rw [domOf_congr htp]
    exact (domOf_beginDown_ne _ hk).trans (domOf_congr hpwr k)
  · rw [htp, ← hpwr]
    rfl
  · have hhost : t.host = (drainWork d s).host := ht.1 .host (by decide)
    rw [hhost, linkLost_down h3]
  · refine becomes_alone (gs := [.pwr]) ?_ (by decide) ht
    rw [drainWork_none s hnone]
    exact ((setDom_sameBut d _ s).trans (withPwr_sameBut _ _)).mono (by simp)

theorem drainEnd_waits
    (h : 1 ≤ d ∧ d < 30 ∧ (domOf s d).state = .draining ∧ (domOf s d).drained = false ∧ (domOf s d).pendUp = false ∧ drainBusy d s = false)
    (hdue : (domOf s d).since < s.clk.now) (hfree : seqFree s = false) :
    Completes (.drainEnd d) s fun t =>
      t.pwr.switching = s.pwr.switching ∧ domOf t d = { domOf s d with drained := true } ∧ t.pwr.waiting = s.pwr.waiting ++ [(d, false)]
      ∧ (∀ k, k ≠ d → domOf t k = domOf s k) ∧ t.pwr.domEvent = s.pwr.domEvent ∧ (d = 3 → t.host.up = false)
      ∧ (12 ≤ d ∧ d ≠ 28 ∨ d < 3 → Alone [.pwr] s t) := by
  obtain ⟨hlo, hhi, hst, hdrained, hup, hbusy⟩ := h
  have hexec := exec_drainEnd_done ⟨hlo, hhi⟩ ⟨hst, hdrained, hbusy, hdue⟩
  rw [if_neg (by simp [hup]), if_neg (by simp [hfree])] at hexec
  have hpwr : (drainWork d s).pwr = s.pwr := drainWork_sameBut d s .pwr (by decide)
  refine completes_of_exec hexec fun t ht => ?_
  have htp := ht.1 .pwr (by decide)
  refine ⟨?_, ?_, ?_, fun k hk => ?_, ?_, fun h3 => ?_, fun hnone => ?_⟩
  · rw [htp, ← hpwr]
    rfl
  · rw [domOf_congr htp]
    exact domOf_setDom d _ _
  · rw [htp, ← hpwr]
    rfl
  · rw [domOf_congr htp]
    exact (domOf_setDom_ne d k _ _ hk).trans (domOf_congr hpwr k)
  · rw [htp, ← hpwr]
    rfl
  · have hhost : t.host = (drainWork d s).host := ht.1 .host (by decide)
    rw [hhost, linkLost_down h3]
  · refine becomes_alone (gs := [.pwr]) ?_ (by decide) ht
    rw [drainWork_none s hnone]
    exact ((setDom_sameBut d _ s).trans (withPwr_sameBut _ _)).mono (by simp)

theorem drainEnd_callsBack (h : 1 ≤ d ∧ d < 30 ∧ (domOf s d).state = .draining ∧ (domOf s d).pendUp = true)
    (hdue : (domOf s d).drained = true ∨ drainBusy d s = false ∧ (domOf s d).since < s.clk.now) :
    Completes (.drainEnd d) s fun t =>
      domOf t d = { domOf s d with state := .enabled, pendUp := false, inPlace := false, drained := false } ∧ (∀ k, k ≠ d → domOf t k = domOf s k)
      ∧ t.pwr.domEvent = s.pwr.domEvent ||| bitAt d true ∧ t.pwr.switching = s.pwr.switching ∧ (∀ p ∈ t.pwr.waiting, p.1 ≠ d) := by
  obtain ⟨hlo, hhi, hst, hup⟩ := h
  obtain ⟨u, hu, hexec⟩ : ∃ u, u.pwr = s.pwr ∧ exec (.drainEnd d) s = commit s (calledBack d u) := by
    cases hdrained : (domOf s d).drained with
    | true =>
      refine ⟨s, rfl, ?_⟩
      show execDrainEnd d s = _
      unfold execDrainEnd
      rw [if_pos ⟨hst, hdrained, hup⟩]
      exact onObject_true (decide_eq_true ⟨hlo, hhi⟩)
    | false =>
      have hwork := hdue.resolve_left (by simp [hdrained])
      exact ⟨drainWork d s, drainWork_sameBut d s .pwr (by decide),
        (exec_drainEnd_done ⟨hlo, hhi⟩ ⟨hst, hdrained, hwork.1, hwork.2⟩).trans (congrArg (commit s) (if_pos hup))⟩
  obtain ⟨hself, hother, hevent, hsw, hwait, -⟩ := calledBack_leaves d u
  refine completes_of_exec hexec fun t ht => ?_
  have hpwr := ht.1 .pwr (by decide)
  refine ⟨?_, fun k hk => ?_, ?_, ?_, ?_⟩
  · rw [domOf_congr hpwr, hself, domOf_congr hu]
  · rw [domOf_congr hpwr, hother k hk, domOf_congr hu]
  · rw [hpwr, hevent, hu]
  · rw [hpwr, hsw, hu]
  · rw [hpwr, hwait]
    exact waiting_filtered

theorem drainEnd_ignored (hd : 1 ≤ d ∧ d < 30)
    (h : (domOf s d).state ≠ .draining ∨ (domOf s d).drained = true ∧ (domOf s d).pendUp = false
      ∨ (domOf s d).drained = false ∧ (drainBusy d s = true ∨ s.clk.now ≤ (domOf s d).since)) : Completes (.drainEnd d) s fun t => t = s := by
  refine completes_unchanged ((onObject_true (decide_eq_true hd)).trans (congrArg (commit s) ((if_neg ?_).trans (if_neg ?_))))
  · rintro ⟨hst, hdrained, hup⟩
    simp [hst, hdrained, hup] at h
  · rintro ⟨hst, hdrained, hbusy, hdue⟩
    have hlt : ¬ s.clk.now ≤ (domOf s d).since := Nat.not_le.2 hdue
    simp [hst, hdrained, hbusy, hlt] at h

/-! The end of a power-down (R449, R450). -/

/-- A domain that has powered down, its waiting Up in the queue. -/
def downEnded (d : Nat) (u : State) : State :=
  let t := if (domOf u d).cycling then setDom d { domOf u d with state := .off } u else domEnds d .off u
  if (domOf u d).pendUp || (domOf u d).cycling then enqueue d true (domOf u d).cycling t else t

theorem downEnded_self (d : Nat) (u : State) :
    domOf (downEnded d u) d
      = (if (domOf u d).cycling then { domOf u d with state := .off } else { domOf u d with state := .off, inPlace := false, drained := false }) := by
  have hoff : domOf (if (domOf u d).cycling then setDom d { domOf u d with state := .off } u else domEnds d .off u) d
      = (if (domOf u d).cycling then { domOf u d with state := .off } else { domOf u d with state := .off, inPlace := false, drained := false }) := by
    split
    · exact domOf_setDom d _ u
    · exact domOf_domEnds d .off u
  unfold downEnded
  dsimp only
  split
  · exact hoff
  · exact hoff

theorem downEnded_ne {k : Nat} (u : State) (h : k ≠ d) : domOf (downEnded d u) k = domOf u k := by
  have hoff : domOf (if (domOf u d).cycling then setDom d { domOf u d with state := .off } u else domEnds d .off u) k = domOf u k := by
    split
    · exact domOf_setDom_ne d k _ u h
    · exact domOf_domEnds_ne .off u h
  unfold downEnded
  dsimp only
  split
  · exact hoff
  · exact hoff

theorem downEnded_pwr (d : Nat) (u : State) :
    (downEnded d u).pwr = { u.pwr with
      dom := (downEnded d u).pwr.dom
      domEvent := if (domOf u d).cycling then u.pwr.domEvent else u.pwr.domEvent ||| bitAt d true
      waiting := if (domOf u d).cycling then (d, true) :: u.pwr.waiting else if (domOf u d).pendUp then u.pwr.waiting ++ [(d, true)] else u.pwr.waiting } := by
  unfold downEnded
  dsimp only
  cases (domOf u d).cycling with
  | true =>
    rw [Bool.or_true]
    rfl
  | false =>
    cases (domOf u d).pendUp <;> rfl

theorem downEnded_sameBut (d : Nat) (u : State) : SameBut [.pwr] u (downEnded d u) := by
  have hoff : SameBut [.pwr] u (if (domOf u d).cycling then setDom d { domOf u d with state := .off } u else domEnds d .off u) := by
    split
    · exact setDom_sameBut d _ u
    · exact domEnds_sameBut d .off u
  unfold downEnded
  dsimp only
  split
  · exact (hoff.trans (withPwr_sameBut _ _)).mono (by simp)
  · exact hoff

theorem exec_powerDownDone (hd : 1 ≤ d ∧ d < 30)
    (h : s.pwr.switching = some d ∧ (domOf s d).state = .poweringDown ∧ (domOf s d).since + 1 + switchTicks d ≤ s.clk.now) :
    exec (.powerDownDone d) s = commit s (switchEnd (downEnded d (loseDomain d s))) := by
  have hdom : domOf (loseDomain d s) d = domOf s d := domOf_congr (loseDomain_sameBut d s .pwr (by decide)) d
  show execPowerDownDone d s = _
  unfold execPowerDownDone
  dsimp only
  rw [if_pos h, downEnded, hdom]
  exact onObject_true (decide_eq_true hd)

theorem powerDownDone_off (h : 1 ≤ d ∧ d < 30 ∧ s.pwr.switching = some d ∧ (domOf s d).state = .poweringDown)
    (hdue : (domOf s d).since + 1 + switchTicks d ≤ s.clk.now) (hidle : s.pwr.seqRunning = false ∨ s.pwr.seqRest = []) :
    Completes (.powerDownDone d) s fun t =>
      domOf t d = (if (domOf s d).cycling then { domOf s d with state := .off } else { domOf s d with state := .off, inPlace := false, drained := false })
      ∧ (∀ k, k ≠ d → domOf t k = domOf s k) ∧ t.pwr.switching = none
      ∧ t.pwr.domEvent = (if (domOf s d).cycling then s.pwr.domEvent else s.pwr.domEvent ||| bitAt d true)
      ∧ t.pwr.waiting = (if (domOf s d).cycling then (d, true) :: s.pwr.waiting else if (domOf s d).pendUp then s.pwr.waiting ++ [(d, true)] else s.pwr.waiting)
      ∧ t.pins = s.pins ∧ t.keep = s.keep ∧ t.clk = s.clk ∧ t.avs = s.avs := by
  obtain ⟨hlo, hhi, hready⟩ := h
  have hlost := loseDomain_sameBut d s
  have hpwr : (loseDomain d s).pwr = s.pwr := hlost .pwr (by decide)
  have hended := downEnded_pwr d (loseDomain d s)
  rw [hpwr, domOf_congr hpwr] at hended
  refine (completes_switchEnd (exec_powerDownDone ⟨hlo, hhi⟩ ⟨hready.1, hready.2, hdue⟩) (by rw [hended]; exact hidle)).imp fun t ⟨ht, hsame, _⟩ => ?_
  have hframe := hlost.trans ((downEnded_sameBut d _).trans hsame)
  have hdom : ∀ k, domOf t k = domOf (downEnded d (loseDomain d s)) k := domOf_of_dom (by rw [ht])
  refine ⟨?_, fun k hk => ?_, by rw [ht], by rw [ht, hended], by rw [ht, hended], hframe .pins (by decide), hframe .keep (by decide),
    hframe .clk (by decide), hframe .avs (by decide)⟩
  · rw [hdom, downEnded_self, domOf_congr hpwr]
  · rw [hdom, downEnded_ne _ hk, domOf_congr hpwr]

theorem powerDownDone_ignored
    (h : 1 ≤ d ∧ d < 30 ∧ (s.pwr.switching ≠ some d ∨ (domOf s d).state ≠ .poweringDown ∨ s.clk.now < (domOf s d).since + 1 + switchTicks d)) :
    Completes (.powerDownDone d) s fun t => t = s := by
  obtain ⟨hlo, hhi, hnot⟩ := h
  refine completes_unchanged ((onObject_true (decide_eq_true ⟨hlo, hhi⟩)).trans (congrArg (commit s) (if_neg ?_)))
  rintro ⟨hsw, hst, hdue⟩
  have hlt : ¬ s.clk.now < (domOf s d).since + 1 + switchTicks d := Nat.not_lt.2 hdue
  simp [hsw, hst, hlt] at hnot

end

/-- Settles O29. -/
theorem domainTransitions : Obligations.DomainTransitions := by
  unfold Obligations.DomainTransitions
  exact ⟨fun s d h hidle => powerGood_enables h hidle, fun s d e ds h hseq => powerGood_next h hseq,
    fun s d e ds h hdue hseq => powerGoodTimeout_next h hdue hseq, fun s d h hdue hidle => powerGoodTimeout_fails h hdue hidle,
    fun s d h => powerGood_ignored h, fun s d h => powerGoodTimeout_ignored h, fun s d up r h hnot => switchStart_takes h hnot,
    fun s d r h hback => switchStart_callsBack h hback, fun s h => switchStart_ignored h, fun s d h hdue hfree => drainEnd_powersDown h hdue hfree,
    fun s d h hdue hfree => drainEnd_waits h hdue hfree, fun s d h hdue => drainEnd_callsBack h hdue, fun s d hd h => drainEnd_ignored hd h,
    fun s d h hdue hidle => powerDownDone_off h hdue hidle, fun s d h => powerDownDone_ignored h⟩

end Sys2Proof.Machine
end

section
/-! SUPPORT. The adaptive supply: the measurement round, the bus and the limit (R451, R452, R454). -/
namespace Sys2Proof.Machine

theorem withAvs_sameBut (x : Avs) (s : State) : SameBut [.avs] s { s with avs := x } := by
  intro g hg
  cases g <;> simp_all [Group.same]

section
variable {i : Instr} {s : State} {x : Avs} {a : Out}

/-- A command that replaces the adaptive supply's record. -/
theorem completes_withAvs (h : exec i s = commit s { s with avs := x }) : Completes i s fun t => t.avs = x ∧ Alone [.avs] s t :=
  completes_of_exec h fun _ ht => ⟨ht.1 .avs (by decide), becomes_alone (withAvs_sameBut x s) (by decide) ht⟩

/-- One that also writes on the bus. -/
theorem completes_withAvsSent (h : exec i s = commit s (emit a { s with avs := x })) :
    Completes i s fun t => t.avs = x ∧ a ∈ t.out ∧ Alone [.avs] s t :=
  completes_changes h (((withAvs_sameBut x s).trans (emit_sameBut a _)).mono (by simp)) (by decide) fun _ ht hout halone =>
    ⟨ht .avs (by decide), hout _ List.mem_cons_self, halone⟩

end

/-! A measurement round (R451). -/

/-- The record with the junction temperature and its site from the hottest sensor, where one is live. -/
def temperatureTaken (a : Avs) : Option SensorObs → Avs
  | some h => { a with tj := h.temp, site := h.sensor }
  | none => a

/-- The set point after a round whose least slack is `slack`. -/
def roundPoint (s : State) (slack : Int) : Nat :=
  if s.avs.running && !s.avs.busFault && !avsHeld s then avsStep s.avs.setPoint slack else s.avs.setPoint

/-- The record after a round whose least slack is that of `o`. -/
def roundTaken (s : State) (o : SensorObs) (a : Avs) : Avs :=
  { a with
    sMin := o.slack, sMinSensor := o.sensor, setPoint := roundPoint s o.slack
    limitSince := if roundPoint s o.slack = 320 ∧ o.slack < avsTarget then some (s.avs.limitSince.getD s.clk.now) else none
    stepAt := if roundPoint s o.slack = s.avs.setPoint then s.avs.stepAt else some s.clk.now }

section
variable {s : State} {obs : List SensorObs} {o h : SensorObs}

theorem exec_avsMeasurement (hleast : leastSlack (loopObs s obs) = some o) (hhot : hottest (liveObs s obs) = some h) :
    exec (.avsMeasurement obs) s = commit s
      (if roundPoint s o.slack = s.avs.setPoint then { s with avs := roundTaken s o (temperatureTaken s.avs (some h)) }
       else emit (.avs (roundPoint s o.slack)) { s with avs := roundTaken s o (temperatureTaken s.avs (some h)) }) := by
  show execAvsMeasurement obs s = _
  unfold execAvsMeasurement
  dsimp only
  rw [hleast, hhot]
  rfl

theorem exec_avsMeasurement_none (hleast : leastSlack (loopObs s obs) = none) :
    exec (.avsMeasurement obs) s = commit s { s with avs := temperatureTaken s.avs (hottest (liveObs s obs)) } := by
  show execAvsMeasurement obs s = _
  unfold execAvsMeasurement
  dsimp only
  rw [hleast]
  cases hottest (liveObs s obs) <;> rfl

/-- A round leaves the record it takes, and moves a new set point on the bus. -/
theorem avsMeasurement_leaves (hleast : leastSlack (loopObs s obs) = some o) (hhot : hottest (liveObs s obs) = some h) :
    Completes (.avsMeasurement obs) s fun t => t.avs = roundTaken s o (temperatureTaken s.avs (some h))
      ∧ (roundPoint s o.slack ≠ s.avs.setPoint → .avs (roundPoint s o.slack) ∈ t.out) ∧ Alone [.avs] s t := by
  have hexec := exec_avsMeasurement hleast hhot
  by_cases hstay : roundPoint s o.slack = s.avs.setPoint
  · rw [if_pos hstay] at hexec
    exact (completes_withAvs hexec).imp fun t ⟨havs, halone⟩ => ⟨havs, fun hmoved => absurd hstay hmoved, halone⟩
  · rw [if_neg hstay] at hexec
    exact (completes_withAvsSent hexec).imp fun t ⟨havs, hout, halone⟩ => ⟨havs, fun _ => hout, halone⟩

theorem avsMeasurement_steps (hround : leastSlack (loopObs s obs) = some o ∧ hottest (liveObs s obs) = some h) :
    Completes (.avsMeasurement obs) s fun t =>
      t.avs.sMin = o.slack ∧ t.avs.sMinSensor = o.sensor ∧ t.avs.tj = h.temp ∧ t.avs.site = h.sensor
      ∧ t.avs.setPoint = (if (s.avs.running && !s.avs.busFault && !avsHeld s) = true then
          (if o.slack < 192 ∧ s.avs.setPoint < 320 then s.avs.setPoint + 1 else if 256 < o.slack ∧ 280 < s.avs.setPoint then s.avs.setPoint - 1 else s.avs.setPoint)
          else s.avs.setPoint)
      ∧ t.avs.limitSince = (if t.avs.setPoint = 320 ∧ o.slack < 192 then some (s.avs.limitSince.getD s.clk.now) else none)
      ∧ t.avs.stepAt = (if t.avs.setPoint = s.avs.setPoint then s.avs.stepAt else some s.clk.now)
      ∧ (t.avs.setPoint ≠ s.avs.setPoint → .avs t.avs.setPoint ∈ t.out) ∧ t.avs.busFault = s.avs.busFault ∧ t.avs.running = s.avs.running ∧ Alone [.avs] s t := by
  refine (avsMeasurement_leaves hround.1 hround.2).imp fun t ⟨havs, hout, halone⟩ => ?_
  rw [havs]
  exact ⟨rfl, rfl, rfl, rfl, rfl, rfl, rfl, hout, rfl, rfl, halone⟩

theorem avsMeasurement_unadmitted (hleast : leastSlack (loopObs s obs) = none) :
    Completes (.avsMeasurement obs) s fun t =>
      (∀ h, hottest (liveObs s obs) = some h → t.avs = { s.avs with tj := h.temp, site := h.sensor })
      ∧ (hottest (liveObs s obs) = none → t.avs = s.avs) ∧ Alone [.avs] s t := by
  refine (completes_withAvs (exec_avsMeasurement_none hleast)).imp fun t ⟨havs, halone⟩ => ⟨fun h hhot => ?_, fun hnone => ?_, halone⟩
  · rw [havs, hhot]
    rfl
  · rw [havs, hnone]
    rfl

/-! The bus (R452). -/

theorem avsBusRetry_writes {acked : Bool} (hfault : s.avs.busFault = true) :
    Completes (.avsBusRetry acked) s fun t => t.avs = { s.avs with busFault := !acked } ∧ .avs s.avs.setPoint ∈ t.out ∧ Alone [.avs] s t :=
  completes_withAvsSent (x := { s.avs with busFault := !acked }) (congrArg (commit s) (if_pos hfault))

theorem avsBusRetry_idle {acked : Bool} (hfault : s.avs.busFault = false) : Completes (.avsBusRetry acked) s fun t => t = s :=
  completes_unchanged (congrArg (commit s) (if_neg (by simp [hfault])))

/-! The limit (R454). -/

/-- The limit's second has passed: the set point has stood at 0.800 V, with S_MIN below target. -/
def atLimit (s : State) : Bool := s.avs.limitSince.any (fun a => decide (a + 1000000 ≤ s.clk.now)) && s.avs.setPoint == 320

theorem exec_avsAtLimitExpiry (s : State) : exec .avsAtLimitExpiry s = commit s (if atLimit s then ageingLimit s.avs.sMinSensor s else s) := rfl

theorem atLimit_eq {a : Nat} (h : s.avs.limitSince = some a) : atLimit s = (decide (a + 1000000 ≤ s.clk.now) && s.avs.setPoint == 320) := by
  rw [atLimit, h, Option.any_some]

theorem avsAtLimitExpiry_raises {a : Nat}
    (hlimit : s.avs.limitSince = some a ∧ a + 1000000 ≤ s.clk.now ∧ s.avs.setPoint = 320 ∧ s.age.limitRaised = false) :
    Completes .avsAtLimitExpiry s fun t =>
      t.age = { s.age with limitRaised := true } ∧ Logged 0x0070 s.avs.sMinSensor s t ∧ SameBut [.age, .irq, .mem, .out] s t := by
  obtain ⟨hsince, hdue, hpoint, hfirst⟩ := hlimit
  have hraised : ageingLimit s.avs.sMinSensor s = raise 0x0070 s.avs.sMinSensor { s with age := { s.age with limitRaised := true } } :=
    if_neg (by simp [hfirst])
  have hexec : exec .avsAtLimitExpiry s = commit s (raise 0x0070 s.avs.sMinSensor { s with age := { s.age with limitRaised := true } }) :=
    by rw [exec_avsAtLimitExpiry, if_pos (by rw [atLimit_eq hsince, decide_eq_true hdue, hpoint]; rfl), hraised]
  have hage := withAge_sameBut { s.age with limitRaised := true } s
  refine completes_of_exec hexec fun t ht => ⟨?_, ?_, (becomes_same (hage.trans (raise_sameBut _ _ _)) ht).mono (by simp)⟩
  · exact (ht.1 .age (by decide)).trans (raise_sameBut _ _ _ .age (by decide))
  · exact logged_congr (hage .irq (by decide)) (hage .clk (by decide)) (raise_logged 0x0070 s.avs.sMinSensor ht.2.1)

theorem avsAtLimitExpiry_waits
    (hnot : (∀ a, s.avs.limitSince = some a → s.clk.now < a + 1000000) ∨ s.avs.setPoint ≠ 320 ∨ s.age.limitRaised = true) :
    Completes .avsAtLimitExpiry s fun t => t = s := by
  refine completes_unchanged ((exec_avsAtLimitExpiry s).trans (congrArg (commit s) ?_))
  rcases hnot with hsoon | hpoint | hraised
  · refine if_neg ?_
    cases hsince : s.avs.limitSince with
    | none => simp [atLimit, hsince]
    | some a =>
      rw [atLimit_eq hsince, decide_eq_false (Nat.not_le.2 (hsoon a hsince))]
      simp
  · exact if_neg (by simp [atLimit, hpoint])
  · split
    · exact if_pos hraised
    · rfl

end

/-- Settles O31. -/
theorem adaptiveSupply : Obligations.AdaptiveSupply := by
  unfold Obligations.AdaptiveSupply
  exact ⟨fun s obs o h hround => avsMeasurement_steps hround, fun s obs hleast => avsMeasurement_unadmitted hleast,
    fun s => completes_withAvs (x := { s.avs with busFault := true }) rfl,
    fun s regs => completes_withAvs (x := { s.avs with regs := regs.take 8 }) rfl, fun s acked hfault => avsBusRetry_writes hfault,
    fun s acked hfault => avsBusRetry_idle hfault, fun s a hlimit => avsAtLimitExpiry_raises hlimit, fun s hnot => avsAtLimitExpiry_waits hnot⟩

end Sys2Proof.Machine
end

section
/-! SUPPORT. The rails, the supply and clock monitors, and the thermal trip (R488, R493 to R496). -/
namespace Sys2Proof.Machine

/-! A domain forced to a state (R493). -/

/-- The state a domain that is forced to `st` takes: an absent one stays, and one that is OFF is not in FAULT for a lost rail. -/
def forced (st x : DomState) : DomState := if x = .absent ∨ (x = .off ∧ st = .fault) then x else st

theorem forced_forced (st x : DomState) : forced st (forced st x) = forced st x := by
  cases st <;> cases x <;> rfl

/-- What forcing a domain changes: its contents' groups and its power record. -/
def forcedGroups : List Group := .pwr :: lossGroups

theorem loseDomain_pwr (d : Nat) (s : State) : (loseDomain d s).pwr = s.pwr := loseDomain_sameBut d s .pwr (by decide)

theorem setDom_pwr (d : Nat) (x : Dom) (s : State) : (setDom d x s).pwr = { s.pwr with dom := (setDom d x s).pwr.dom } := rfl

theorem forceDomain_pwr (st : DomState) (s : State) (d : Nat) :
    (forceDomain st s d).pwr = { s.pwr with dom := (forceDomain st s d).pwr.dom } := by
  unfold forceDomain
  split
  · rfl
  · exact (setDom_pwr d _ _).trans (by rw [loseDomain_pwr])

theorem forceDomain_state (st : DomState) (s : State) (d k : Nat) :
    (domOf (forceDomain st s d) k).state = if k = d then forced st (domOf s k).state else (domOf s k).state := by
  unfold forceDomain forced
  by_cases hk : k = d
  · subst hk
    rw [if_pos rfl]
    split
    · rfl
    · rw [domOf_setDom]
  · rw [if_neg hk]
    split
    · rfl
    · rw [domOf_setDom_ne _ _ _ _ hk, domOf_congr (loseDomain_pwr d s)]

theorem forceDomain_sameBut (st : DomState) (s : State) (d : Nat) : SameBut forcedGroups s (forceDomain st s d) := by
  unfold forceDomain
  split
  · exact sameBut_refl _ s
  · exact ((loseDomain_sameBut d s).trans (setDom_sameBut d _ _)).mono (by decide)

theorem domDone_sameBut (d : Nat) (s : State) : SameBut [.pwr] s (domDone d s) := withPwr_sameBut _ s

/-- A fold that changes the state of each domain by `g`, on the domains it goes through and no others. -/
theorem foldl_state {f : State → Nat → State} {g : Nat → DomState → DomState}
    (hf : ∀ t d k, (domOf (f t d) k).state = if k = d then g k (domOf t k).state else (domOf t k).state) (hg : ∀ k x, g k (g k x) = g k x)
    (ds : List Nat) (s : State) (k : Nat) :
    (domOf (ds.foldl f s) k).state = if k ∈ ds then g k (domOf s k).state else (domOf s k).state := by
  induction ds generalizing s with
  | nil => rfl
  | cons d ds ih =>
    rw [List.foldl_cons, ih, hf]
    by_cases hk : k = d
    · simp [hk, hg]
    · simp [hk]

theorem mem_switched (d : Nat) : d ∈ switched ↔ 1 ≤ d ∧ d < 30 := by
  unfold switched
  simp only [List.mem_map, List.mem_range]
  exact ⟨fun ⟨a, ha, he⟩ => by omega, fun h => ⟨d - 1, by omega, by omega⟩⟩

/-! The end of a switching, for the domains the sequence does not go on with. -/

theorem switchEnd_sameBut (s : State) : SameBut [.pwr] s (switchEnd s) := by
  have hfreed : ∀ x : Power, SameBut [.pwr] s (seqNext { s with pwr := x }) := fun x => by
    unfold seqNext
    split
    · exact withPwr_sameBut x s
    · split
      · exact ((withPwr_sameBut _ s).trans ((setDom_sameBut _ _ _).trans (withPwr_sameBut _ _))).mono (by simp)
      · exact withPwr_sameBut x s
  exact hfreed _

theorem switchEnd_cases (s : State) :
    (s.pwr.seqRunning = false ∨ s.pwr.seqRest = []) ∨ ∃ e ds, s.pwr.seqRunning = true ∧ s.pwr.seqRest = e :: ds := by
  cases hrun : s.pwr.seqRunning with
  | false => exact .inl (.inl rfl)
  | true =>
    cases hrest : s.pwr.seqRest with
    | nil => exact .inl (.inr rfl)
    | cons e ds => exact .inr ⟨e, ds, rfl, rfl⟩

theorem switchEnd_domEvent (s : State) : (switchEnd s).pwr.domEvent = s.pwr.domEvent := by
  rcases switchEnd_cases s with hidle | ⟨e, ds, hrun, hrest⟩
  · rw [switchEnd_idle hidle]
  · rw [switchEnd_next hrun hrest]
    rfl

theorem switchEnd_state {s : State} {d : Nat} (h : s.pwr.seqRunning = true → s.pwr.seqRest.head? ≠ some d) :
    (domOf (switchEnd s) d).state = (domOf s d).state := by
  rcases switchEnd_cases s with hidle | ⟨e, ds, hrun, hrest⟩
  · rw [switchEnd_idle hidle]
    rfl
  · have hother : d ≠ e := fun he => h hrun (by rw [hrest, he]; rfl)
    rw [switchEnd_next hrun hrest, domOf_beginUp_ne _ hother]
    rfl

/-! A lane or HBM rail (R493). -/

/-- The domains that the loss of a rail takes to FAULT with DONE_d: those it feeds that are on or in transition. -/
def railHits (r : Rail) (s : State) : List Nat :=
  (railFeeds r).filter fun d => (domOf s d).state != .absent && (domOf s d).state != .off && (domOf s d).state != .fault

theorem mem_railHits {r : Rail} {s : State} {d : Nat} :
    d ∈ railHits r s ↔ d ∈ railFeeds r ∧ (domOf s d).state ≠ .absent ∧ (domOf s d).state ≠ .off ∧ (domOf s d).state ≠ .fault := by
  simp [railHits, and_assoc]

/-- One domain to FAULT, with DONE_d. -/
def toFault (s : State) (d : Nat) : State := domDone d (forceDomain .fault s d)

theorem toFault_sameBut (s : State) (d : Nat) : SameBut forcedGroups s (toFault s d) :=
  ((forceDomain_sameBut .fault s d).trans (domDone_sameBut d _)).mono (by decide)

theorem toFault_state (s : State) (d k : Nat) :
    (domOf (toFault s d) k).state = if k = d then forced .fault (domOf s k).state else (domOf s k).state := forceDomain_state .fault s d k

theorem toFault_pwr (s : State) (d : Nat) :
    (toFault s d).pwr = { s.pwr with dom := (toFault s d).pwr.dom, domEvent := s.pwr.domEvent ||| bitAt d true } := by
  show { (forceDomain .fault s d).pwr with domEvent := (forceDomain .fault s d).pwr.domEvent ||| bitAt d true } = _
  rw [forceDomain_pwr]
  rfl

theorem foldl_toFault_pwr (ds : List Nat) (s : State) :
    (ds.foldl toFault s).pwr = { s.pwr with dom := (ds.foldl toFault s).pwr.dom, domEvent := (ds.foldl toFault s).pwr.domEvent } := by
  induction ds generalizing s with
  | nil => rfl
  | cons d ds ih =>
    rw [List.foldl_cons, ih, toFault_pwr]

theorem foldl_toFault_kept {ds : List Nat} {s : State} {d : Nat} (h : bitOf s.pwr.domEvent d = true) :
    bitOf (ds.foldl toFault s).pwr.domEvent d = true := by
  induction ds generalizing s with
  | nil => exact h
  | cons e ds ih =>
    refine ih ?_
    rw [toFault_pwr]
    by_cases he : d = e
    · subst he
      simp [bitOf, bitAt] at h ⊢
      exact .inl h
    · exact (bitOf_or_bitAt_ne _ e d he).trans h

theorem foldl_toFault_done {ds : List Nat} {s : State} {d : Nat} (hd : d < 64) (h : d ∈ ds) :
    bitOf (ds.foldl toFault s).pwr.domEvent d = true := by
  induction ds generalizing s with
  | nil => simp at h
  | cons e ds ih =>
    rcases List.mem_cons.1 h with rfl | hrest
    · refine foldl_toFault_kept (s := toFault s d) ?_
      rw [toFault_pwr]
      exact bitOf_or_bitAt _ d hd
    · exact ih hrest

/-- The waiting requests of domains that a lost rail has hit are dropped, but for a power-cycle's Up. -/
def waitingDropped (ds : List Nat) (t : State) : State :=
  { t with pwr := { t.pwr with waiting := t.pwr.waiting.filter fun p => !ds.contains p.1 || p.2 } }

/-- A switching of one of the domains is cut. -/
def switchingCut (ds : List Nat) (t : State) : Bool :=
  match t.pwr.switching with
  | some d => ds.contains d
  | none => false

/-- What the loss of a rail leaves: its domains in FAULT, their waiting requests dropped, and a switching of one of them ended. -/
def railLost (ds : List Nat) (s : State) : State :=
  if switchingCut ds (ds.foldl toFault s) then switchEnd (waitingDropped ds (ds.foldl toFault s)) else waitingDropped ds (ds.foldl toFault s)

/-- The state with a rail marked as out of range. -/
def railGone (r : Rail) (s : State) : State := { s with pins := { s.pins with rails := railOut r s.pins.rails } }

theorem exec_railRemoved {r : Rail} (s : State) (hr : r = .vddLane ∨ r = .vddLaneHv ∨ r = .vddHbm ∨ r = .vddqHbm ∨ r = .vddIo) :
    exec (.railRemoved r) s = commit s (railLost (railHits r s) (railGone r s)) := by
  rcases hr with rfl | rfl | rfl | rfl | rfl <;> rfl

theorem railLost_cases (ds : List Nat) (s : State) :
    railLost ds s = switchEnd (waitingDropped ds (ds.foldl toFault s)) ∨ railLost ds s = waitingDropped ds (ds.foldl toFault s) := by
  unfold railLost
  split
  · exact .inl rfl
  · exact .inr rfl

theorem foldl_toFault_sameBut (ds : List Nat) (s : State) : SameBut forcedGroups s (ds.foldl toFault s) :=
  foldl_sameBut (fun t d => toFault_sameBut t d) ds s

theorem waitingDropped_sameBut (ds : List Nat) (t : State) : SameBut [.pwr] t (waitingDropped ds t) := withPwr_sameBut _ t

theorem railLost_sameBut (ds : List Nat) (s : State) : SameBut forcedGroups s (railLost ds s) := by
  have hleft := (foldl_toFault_sameBut ds s).trans (waitingDropped_sameBut ds _)
  rcases railLost_cases ds s with h | h
  · rw [h]
    exact (hleft.trans (switchEnd_sameBut _)).mono (by decide)
  · rw [h]
    exact hleft.mono (by decide)

theorem railLost_domEvent (ds : List Nat) (s : State) : (railLost ds s).pwr.domEvent = (ds.foldl toFault s).pwr.domEvent := by
  rcases railLost_cases ds s with h | h
  · rw [h, switchEnd_domEvent]
    rfl
  · rw [h]
    rfl

theorem railLost_state {ds : List Nat} {s : State} {d : Nat} (h : s.pwr.seqRunning = true → s.pwr.seqRest.head? ≠ some d) :
    (domOf (railLost ds s) d).state = (domOf (ds.foldl toFault s) d).state := by
  have hpwr := foldl_toFault_pwr ds s
  rcases railLost_cases ds s with hcut | hgoes
  · rw [hcut, switchEnd_state (by unfold waitingDropped; rw [hpwr]; exact h)]
    rfl
  · rw [hgoes]
    rfl

theorem railFeeds_lt {r : Rail} {d : Nat} (h : d ∈ railFeeds r) : d < 64 := by
  cases r <;> simp [railFeeds] at h <;> omega

theorem railRemoved_faults {s : State} {r : Rail} (hr : r = .vddLane ∨ r = .vddLaneHv ∨ r = .vddHbm ∨ r = .vddqHbm) :
    Completes (.railRemoved r) s fun t =>
      (∀ d, (s.pwr.seqRunning = true → s.pwr.seqRest.head? ≠ some d) →
        (domOf t d).state = if (railFeeds r).contains d && (domOf s d).state != .absent && (domOf s d).state != .off then .fault else (domOf s d).state)
      ∧ (∀ d, (railFeeds r).contains d = true → (domOf s d).state ≠ .absent → (domOf s d).state ≠ .off → (domOf s d).state ≠ .fault →
          bitOf t.pwr.domEvent d = true)
      ∧ t.pins = { s.pins with rails := railOut r s.pins.rails } ∧ t.keep = s.keep ∧ t.clk = s.clk ∧ t.avs = s.avs ∧ t.pending = s.pending := by
  refine completes_of_exec (exec_railRemoved s (by tauto)) fun t ht => ?_
  have hpwr := ht.1 .pwr (by decide)
  have hframe := railLost_sameBut (railHits r s) (railGone r s)
  have hall := hframe.trans ht.1
  refine ⟨fun d hd => ?_, fun d hfed habsent hoff hfault => ?_, hall .pins (by decide), hall .keep (by decide), hall .clk (by decide),
    hall .avs (by decide), ht.2.2.2⟩
  · rw [domOf_congr hpwr, railLost_state (s := railGone r s) hd, foldl_state toFault_state fun _ x => forced_forced .fault x]
    show (if d ∈ railHits r s then forced .fault (domOf s d).state else (domOf s d).state) = _
    simp only [mem_railHits, forced]
    cases hst : (domOf s d).state <;> simp
  · rw [hpwr, railLost_domEvent]
    have hhit : d ∈ railHits r s := mem_railHits.2 ⟨by simpa using hfed, habsent, hoff, hfault⟩
    exact foldl_toFault_done (railFeeds_lt (by simpa using hfed)) hhit

/-! VDD_IO, and the monitors (R494, R495). -/

theorem withPins_sameBut (x : Pins) (s : State) : SameBut [.pins] s { s with pins := x } := by
  intro g hg
  cases g <;> simp_all [Group.same]

/-- A command that replaces the board's conditions. -/
theorem completes_withPins {i : Instr} {s : State} {x : Pins} (h : exec i s = commit s { s with pins := x }) :
    Completes i s fun t => t.pins = x ∧ Alone [.pins] s t :=
  completes_of_exec h fun _ ht => ⟨ht.1 .pins (by decide), becomes_alone (withPins_sameBut x s) (by decide) ht⟩

theorem filter_all {α : Type} (l : List α) : (l.filter fun _ => true) = l := List.filter_eq_self.2 fun _ _ => rfl

/-- A rail that feeds no domain is lost. -/
theorem railLost_nil (s : State) : railLost [] s = s := by
  have huncut : switchingCut [] s = false := by
    unfold switchingCut
    split <;> rfl
  have hwaiting : (s.pwr.waiting.filter fun p => !([] : List Nat).contains p.1 || p.2) = s.pwr.waiting := filter_all _
  rw [railLost, List.foldl_nil, huncut, if_neg (by decide), waitingDropped, hwaiting]

theorem railRemoved_vddIo (s : State) :
    Completes (.railRemoved .vddIo) s fun t => t.pins = { s.pins with rails := railOut .vddIo s.pins.rails } ∧ Alone [.pins] s t :=
  completes_withPins ((exec_railRemoved s (by simp)).trans (congrArg (commit s) (railLost_nil _)))

theorem oscInLoss_acquires (s : State) :
    Completes .oscInLoss s fun t => t.pins = { s.pins with oscPresent := false, oscSince := none, oscLostAt := some s.clk.now }
      ∧ t.tku = { s.tku with state := .acquire, acqRun := 0, trackRun := 0, lockedFor := 0 } ∧ Alone [.pins, .tku] s t := by
  refine completes_of_exec (e := toAcquire { s with pins := { s.pins with oscPresent := false, oscSince := none, oscLostAt := some s.clk.now } }) rfl
    fun t ht => ⟨ht.1 .pins (by decide), ht.1 .tku (by decide), ?_⟩
  exact becomes_alone ((withPins_sameBut _ s).trans (withTku_sameBut _ _)) (by decide) ht

/-! VPP_KEEP and VDD_AON (R435, R493). -/

theorem keepCut_sameBut (s : State) : SameBut [.keep, .clk] s (keepCut s) := by
  unfold keepCut
  split
  · exact sameBut_refl _ s
  · have hdrawn := (drawFree_sameBut s).trans (withKeep_sameBut { (drawFree s).2.keep with active := none } _)
    dsimp only
    split
    · exact (hdrawn.trans (withKeep_sameBut _ _)).mono (by simp)
    · exact hdrawn.mono (by simp)

/-- A write in progress that is cut leaves the old value or the new one. -/
theorem keepCut_keep (s : State) :
    (keepCut s).keep = { s.keep with active := none }
      ∨ ∃ k, s.keep.active = some k ∧ (keepCut s).keep = { s.keep with active := none, cells := keepLand k s.keep.cells } := by
  unfold keepCut
  cases hactive : s.keep.active with
  | none =>
    left
    dsimp only
    rw [← hactive]
  | some k =>
    dsimp only
    split
    · exact .inr ⟨k, rfl, rfl⟩
    · exact .inl rfl

theorem keepCut_active (s : State) : (keepCut s).keep.active = none := by
  rcases keepCut_keep s with h | ⟨k, -, h⟩ <;> rw [h]

theorem railRemoved_vppKeep (s : State) :
    Completes (.railRemoved .vppKeep) s fun t =>
      t.pins = { s.pins with rails := railOut .vppKeep s.pins.rails } ∧ t.keep.active = none
      ∧ (t.keep = { s.keep with active := none } ∨ ∃ k, s.keep.active = some k ∧ t.keep = { s.keep with active := none, cells := keepLand k s.keep.cells })
      ∧ Alone [.pins, .keep, .clk] s t := by
  have hframe := (withPins_sameBut { s.pins with rails := railOut .vppKeep s.pins.rails } s).trans (keepCut_sameBut _)
  refine completes_of_exec (e := keepCut { s with pins := { s.pins with rails := railOut .vppKeep s.pins.rails } }) rfl fun t ht => ?_
  have hkeep : t.keep = _ := ht.1 .keep (by decide)
  rw [hkeep]
  exact ⟨(ht.1 .pins (by decide)).trans (keepCut_sameBut _ .pins (by decide)), keepCut_active _, keepCut_keep _, becomes_alone hframe (by decide) ht⟩

/-- What the loss of VDD_AON leaves before the settings are loaded again. -/
def aonLost (s : State) : State :=
  { (default : State) with
    clk := { free := s.clk.free }
    pins := { rails := s.pins.rails, resetReleased := false, oscPresent := s.pins.oscPresent, oscSince := s.pins.oscSince.map fun _ => 0 }
    keep := { cells := s.keep.cells }
    mp := { bankA := endTrial s.mp.bankA, bankB := endTrial s.mp.bankB, bootPlan := s.mp.bootPlan }
    age := { day := s.age.day }
    aead := { markNext := s.aead.markNext }
    out := s.out, pending := s.pending }

theorem powerLost_eq (s : State) : powerLost s = loadSettings (aonLost (keepCut s)) := rfl

/-- What is loaded again at a power-up leaves these as they are. -/
theorem loadSettings_leaves (s : State) :
    (loadSettings s).keep = s.keep ∧ (loadSettings s).mb = s.mb ∧ (loadSettings s).mem = s.mem ∧ (loadSettings s).chk = s.chk
      ∧ (loadSettings s).feed = s.feed ∧ (loadSettings s).pair = s.pair ∧ (loadSettings s).pins = s.pins ∧ (loadSettings s).clk = s.clk
      ∧ (loadSettings s).irq = s.irq ∧ (loadSettings s).host.up = s.host.up ∧ (loadSettings s).host.tx = s.host.tx
      ∧ (loadSettings s).host.rx = s.host.rx ∧ (loadSettings s).plan.active = s.plan.active ∧ (loadSettings s).link.records = s.link.records :=
  ⟨rfl, rfl, rfl, rfl, rfl, rfl, rfl, rfl, rfl, rfl, rfl, rfl, rfl, rfl⟩

theorem railRemoved_vddAon (s : State) :
    Completes (.railRemoved .vddAon) s fun t =>
      (∀ w, cellOf t w = cellOf s w ∨ ∃ k, s.keep.active = some k ∧ t.keep.cells = keepLand k s.keep.cells) ∧ t.keep.active = none ∧ t.keep.mpQ = []
      ∧ t.keep.hostQ = [] ∧ t.mb = {} ∧ t.mem = {} ∧ t.chk = {} ∧ t.feed = {} ∧ t.pair = {} ∧ t.pins.resetReleased = false ∧ t.clk.tick = 0
      ∧ t.irq.cause = 0 ∧ t.irq.log = [] ∧ t.host.up = false ∧ t.host.tx = [] ∧ t.host.rx = [] ∧ t.plan.active = [] ∧ t.link.records = [] := by
  have hcut := keepCut_keep { s with pins := { s.pins with rails := railOut .vddAon s.pins.rails } }
  refine completes_of_exec (e := powerLost { s with pins := { s.pins with rails := railOut .vddAon s.pins.rails } }) rfl fun t ht => ?_
  rw [powerLost_eq] at ht
  revert ht hcut
  generalize keepCut { s with pins := { s.pins with rails := railOut .vddAon s.pins.rails } } = c
  intro hcut ht
  obtain ⟨hkeep, hmb, hmem, hchk, hfeed, hpair, hpins, hclk, hirq, hup, htx, hrx, hplan, hrecords⟩ := loadSettings_leaves (aonLost c)
  have hkept : t.keep = { cells := c.keep.cells } := (ht.1 .keep (by decide)).trans hkeep
  have hhost : t.host = _ := ht.1 .host (by decide)
  have hplans : t.plan = _ := ht.1 .plan (by decide)
  have hlinks : t.link = _ := ht.1 .link (by decide)
  have hpin : t.pins = _ := (ht.1 .pins (by decide)).trans hpins
  have hclock : t.clk = _ := (ht.1 .clk (by decide)).trans hclk
  have hsignals := ht.2.1
  rw [hirq] at hsignals
  refine ⟨fun w => ?_, by rw [hkept], by rw [hkept], by rw [hkept], (ht.1 .mb (by decide)).trans hmb, (ht.1 .mem (by decide)).trans hmem,
    (ht.1 .chk (by decide)).trans hchk, (ht.1 .feed (by decide)).trans hfeed, (ht.1 .pair (by decide)).trans hpair, by rw [hpin]; rfl,
    by rw [hclock]; rfl, by rw [hsignals]; rfl, by rw [hsignals]; rfl, by rw [hhost]; exact hup, by rw [hhost]; exact htx, by rw [hhost]; exact hrx,
    by rw [hplans]; exact hplan, by rw [hlinks]; exact hrecords⟩
  rcases hcut with hold | ⟨k, hactive, hnew⟩
  · left
    unfold cellOf
    rw [hkept, hold]
  · right
    exact ⟨k, hactive, by rw [hkept, hnew]⟩

/-! VDD_CORE and VDD_SRAM (R493). -/

/-- The end of a reset taken while the sequence runs: the banks' trials and the registers of D0. -/
def sequenceReset (t : State) : State :=
  resetD0 { t with mp := { t.mp with bankA := endTrial t.mp.bankA, bankB := endTrial t.mp.bankB }, clk := { t.clk with awaitFirst := true } }

theorem takeReset_sequence {s : State} (h : (s.pwr.seqRunning && s.pwr.seqStarted) = true) :
    takeReset s = sequenceReset (switched.foldl (forceDomain .off) s) := by
  unfold takeReset
  dsimp only
  rw [if_pos h]
  rfl

theorem domOf_sequenceReset (t : State) (d : Nat) : domOf (sequenceReset t) d = domOf t d := rfl

theorem sequenceReset_leaves (t : State) : (sequenceReset t).pins = t.pins ∧ (sequenceReset t).keep.cells = t.keep.cells
    ∧ (sequenceReset t).pwr.seqRunning = true ∧ (sequenceReset t).pwr.seqStarted = false ∧ (sequenceReset t).mb = {} := ⟨rfl, rfl, rfl, rfl, rfl⟩

theorem domOf_releaseReset (t : State) (d : Nat) : domOf (releaseReset t) d = domOf t d := rfl

/-- A state in which every switched domain is OFF and D0 has been reset. -/
structure CoreLost (s t : State) : Prop where
  state : ∀ d, 1 ≤ d → d < 30 → (domOf t d).state = if (domOf s d).state = .absent then .absent else .off
  pins : t.pins = s.pins
  seq : t.pwr.seqRunning = true ∧ t.pwr.seqStarted = false
  mb : t.mb = {}
  cells : t.keep.cells = s.keep.cells

theorem foldl_forceDomain_sameBut (st : DomState) (ds : List Nat) (s : State) : SameBut forcedGroups s (ds.foldl (forceDomain st) s) :=
  foldl_sameBut (fun t d => forceDomain_sameBut st t d) ds s

theorem takeReset_coreLost {s : State} (h : (s.pwr.seqRunning && s.pwr.seqStarted) = true) : CoreLost s (takeReset s) := by
  have hframe := foldl_forceDomain_sameBut .off switched s
  have hkeep : (switched.foldl (forceDomain .off) s).keep = s.keep := hframe .keep (by decide)
  have hpins : (switched.foldl (forceDomain .off) s).pins = s.pins := hframe .pins (by decide)
  rw [takeReset_sequence h]
  obtain ⟨hpinned, hcells, hruns, hstarts, hboxes⟩ := sequenceReset_leaves (switched.foldl (forceDomain .off) s)
  refine { state := fun d hlo hhi => ?_, pins := hpinned.trans hpins, seq := ⟨hruns, hstarts⟩, mb := hboxes, cells := by rw [hcells, hkeep] }
  rw [domOf_sequenceReset, foldl_state (forceDomain_state .off) fun _ x => forced_forced .off x, if_pos ((mem_switched d).2 ⟨hlo, hhi⟩)]
  unfold forced
  cases (domOf s d).state <;> rfl

theorem CoreLost.release {s t : State} (h : CoreLost s t) (hpins : s.pins.resetReleased = true) : CoreLost s (releaseReset t) where
  state := fun d hlo hhi => by rw [domOf_releaseReset]; exact h.state d hlo hhi
  pins := by
    show { t.pins with resetReleased := true } = s.pins
    rw [h.pins, ← hpins]
  seq := ⟨rfl, rfl⟩
  mb := rfl
  cells := h.cells

/-- The state in which the loss of VDD_CORE or VDD_SRAM is taken: the start-up sequence counts as begun. -/
def sequenceBegun (s : State) : State := { s with pwr := { s.pwr with seqRunning := true, seqStarted := true } }

theorem coreRailLost_eq (s : State) :
    coreRailLost s = if s.pins.resetReleased then releaseReset (takeReset (sequenceBegun s)) else takeReset (sequenceBegun s) := rfl

theorem coreRailLost_coreLost (s : State) : CoreLost (sequenceBegun s) (coreRailLost s) := by
  have htaken : CoreLost (sequenceBegun s) (takeReset (sequenceBegun s)) := takeReset_coreLost rfl
  rw [coreRailLost_eq]
  split
  · next hreleased => exact htaken.release hreleased
  · exact htaken

theorem coreRailLost_released {s : State} (h : s.pins.resetReleased = true) :
    (coreRailLost s).clk.tick = 0 ∧ (coreRailLost s).clk.awaitFirst = true ∧ (coreRailLost s).tku.state = .acquire := by
  rw [coreRailLost_eq, if_pos h]
  exact ⟨rfl, rfl, rfl⟩

theorem railRemoved_core {s : State} {r : Rail} (hr : r = .vddCore ∨ r = .vddSram) :
    Completes (.railRemoved r) s fun t =>
      (∀ d, 1 ≤ d → d < 30 → (domOf t d).state = if (domOf s d).state = .absent then .absent else .off)
      ∧ t.pins = { s.pins with rails := railOut r s.pins.rails } ∧ t.pwr.seqRunning = true ∧ t.pwr.seqStarted = false ∧ t.mb = {}
      ∧ (s.pins.resetReleased = true → t.clk.tick = 0 ∧ t.clk.awaitFirst = true ∧ t.tku.state = .acquire) ∧ t.keep.cells = s.keep.cells := by
  have hexec : exec (.railRemoved r) s = commit s (coreRailLost { s with pins := { s.pins with rails := railOut r s.pins.rails } }) := by
    rcases hr with rfl | rfl <;> rfl
  have hlost := coreRailLost_coreLost { s with pins := { s.pins with rails := railOut r s.pins.rails } }
  refine completes_of_exec hexec fun t ht => ?_
  have hpwr := ht.1 .pwr (by decide)
  have hclk : t.clk = _ := ht.1 .clk (by decide)
  have htku : t.tku = _ := ht.1 .tku (by decide)
  have hkeep : t.keep = _ := ht.1 .keep (by decide)
  refine ⟨fun d hlo hhi => ?_, (ht.1 .pins (by decide)).trans hlost.pins, ?_, ?_, (ht.1 .mb (by decide)).trans hlost.mb, fun hreleased => ?_, ?_⟩
  · rw [domOf_congr hpwr]
    exact hlost.state d hlo hhi
  · rw [hpwr]
    exact hlost.seq.1
  · rw [hpwr]
    exact hlost.seq.2
  · rw [hclk, htku]
    exact coreRailLost_released (s := { s with pins := { s.pins with rails := railOut r s.pins.rails } }) hreleased
  · rw [hkeep]
    exact hlost.cells

/-! The thermal trip (R496). -/

/-- The switch of one domain, powered in `s`, opens. -/
def tripOpens (s t : State) (d : Nat) : State := if domPowered (domOf s d).state then domDone d (forceDomain .off t d) else t

/-- The state a domain in `x` takes, whose state in the tripped device was `y`. -/
def tripped (y x : DomState) : DomState := if domPowered y then forced .off x else x

theorem tripped_tripped (y x : DomState) : tripped y (tripped y x) = tripped y x := by
  unfold tripped
  split
  · exact forced_forced .off x
  · rfl

theorem tripOpens_state (s t : State) (d k : Nat) :
    (domOf (tripOpens s t d) k).state = if k = d then tripped (domOf s k).state (domOf t k).state else (domOf t k).state := by
  unfold tripOpens tripped
  by_cases hk : k = d
  · subst hk
    rw [if_pos rfl]
    split
    · exact (forceDomain_state .off t k k).trans (if_pos rfl)
    · rfl
  · rw [if_neg hk]
    split
    · exact (forceDomain_state .off t d k).trans (if_neg hk)
    · rfl

theorem tripOpens_sameBut (s t : State) (d : Nat) : SameBut forcedGroups t (tripOpens s t d) := by
  unfold tripOpens
  split
  · exact ((forceDomain_sameBut .off t d).trans (domDone_sameBut d _)).mono (by decide)
  · exact sameBut_refl _ t

/-- What the trip leaves. -/
def thermTripped (s : State) : State :=
  let t := switched.foldl (tripOpens s) s
  { t with pins := { t.pins with thermTrip := true }, pwr := { t.pwr with switching := none, waiting := [], seqRest := [] } }

theorem exec_thermalTrip {s : State} {site : Nat} (hsite : site < 49) :
    exec (.thermalTrip site) s = commit s (if domPowered (domOf s (sensorDomain site)).state then thermTripped s else s) :=
  onObject_true (decide_eq_true hsite)

theorem thermalTrip_opens {s : State} {site : Nat} (h : site < 49 ∧ domPowered (domOf s (sensorDomain site)).state = true) :
    Completes (.thermalTrip site) s fun t =>
      (∀ d, 1 ≤ d → d < 30 → (domOf t d).state = if domPowered (domOf s d).state then .off else (domOf s d).state)
      ∧ t.pins = { s.pins with thermTrip := true } ∧ t.pwr.switching = none ∧ t.pwr.waiting = [] ∧ t.pwr.seqRest = [] ∧ t.keep = s.keep ∧ t.clk = s.clk := by
  have hexec := exec_thermalTrip (s := s) h.1
  rw [if_pos h.2] at hexec
  have hframe := foldl_sameBut (tripOpens_sameBut s) switched s
  have hpins : (switched.foldl (tripOpens s) s).pins = s.pins := hframe .pins (by decide)
  refine completes_of_exec hexec fun t ht => ?_
  have hpwr := ht.1 .pwr (by decide)
  have hpinned : t.pins = { (switched.foldl (tripOpens s) s).pins with thermTrip := true } := ht.1 .pins (by decide)
  refine ⟨fun d hlo hhi => ?_, by rw [hpinned, hpins], by rw [hpwr]; rfl, by rw [hpwr]; rfl, by rw [hpwr]; rfl,
    (ht.1 .keep (by decide)).trans (hframe .keep (by decide)), (ht.1 .clk (by decide)).trans (hframe .clk (by decide))⟩
  rw [domOf_congr hpwr]
  show (domOf (switched.foldl (tripOpens s) s) d).state = _
  rw [foldl_state (g := fun k x => tripped (domOf s k).state x) (tripOpens_state s) fun k x => tripped_tripped _ x,
    if_pos ((mem_switched d).2 ⟨hlo, hhi⟩)]
  unfold tripped forced
  cases (domOf s d).state <;> rfl

theorem thermalTrip_ignored {s : State} {site : Nat} (h : site < 49 ∧ domPowered (domOf s (sensorDomain site)).state = false) :
    Completes (.thermalTrip site) s fun t => t = s :=
  completes_unchanged ((exec_thermalTrip h.1).trans (congrArg (commit s) (if_neg (by simp [h.2]))))

/-! ALERT_N's lapse (R495). -/

/-- The board's conditions once ALERT_N's causes of 1 s ago have lapsed. -/
def alertLapsed (s : State) : Pins :=
  { s.pins with
    vddFlagAt := s.pins.vddFlagAt.filter fun a => decide (s.clk.now < a + 1000000)
    oscLostAt := s.pins.oscLostAt.filter fun a => decide (s.clk.now < a + 1000000) }

theorem exec_alertNRelease (s : State) : exec .alertNRelease s = commit s { s with pins := alertLapsed s } := rfl

theorem alertNRelease_lapses (s : State) :
    Completes .alertNRelease s fun t => t.pins.vddFlagAt = s.pins.vddFlagAt.filter (fun a => decide (s.clk.now < a + 1000000))
      ∧ t.pins.oscLostAt = s.pins.oscLostAt.filter (fun a => decide (s.clk.now < a + 1000000))
      ∧ { t.pins with vddFlagAt := s.pins.vddFlagAt, oscLostAt := s.pins.oscLostAt } = s.pins ∧ Alone [.pins] s t := by
  refine (completes_withPins (exec_alertNRelease s)).imp fun t ⟨hpins, halone⟩ => ?_
  rw [hpins]
  exact ⟨rfl, rfl, rfl, halone⟩

/-- Settles O30. -/
theorem railsAndSupervision : Obligations.RailsAndSupervision := by
  unfold Obligations.RailsAndSupervision
  exact ⟨fun s r hr => railRemoved_faults hr, fun s r hr => railRemoved_core hr, railRemoved_vddAon, railRemoved_vddIo, railRemoved_vppKeep,
    fun s => completes_withPins (x := { s.pins with vddFlagAt := some s.clk.now }) rfl, oscInLoss_acquires,
    fun s => completes_withPins (x := { s.pins with oscPresent := true, oscSince := some s.clk.now }) rfl, alertNRelease_lapses,
    fun s site h => thermalTrip_opens h, fun s site h => thermalTrip_ignored h⟩

end Sys2Proof.Machine
end

section
/-! SUPPORT. What the keep store holds and the write in progress: what no command but the keep store's own changes (R435 to R438). -/
namespace Sys2Proof.Machine

/-- The words of the keep store and the write in progress. -/
def stored (s : State) : Tab Cell × Option KeepWrite := (s.keep.cells, s.keep.active)

@[simp] theorem stored_fold (s : State) : (s.keep.cells, s.keep.active) = stored s := rfl

section
variable (clk : Clock) (pins : Pins) (pwr : Power) (avs : Avs) (age : Ageing) (keep : Keep) (chk : Chk) (mb : Mailboxes) (mp : Mp) (irq : Irq)
  (aead : Aead) (sec : Sec) (host : HostLink) (mem : Memory) (pair : Pair) (tku : Tku) (ev : Evidence) (sf : Sf) (plan : Plans) (port : Ports)
  (circ : Circuits) (feed : Feeds) (ldpc : Ldpc) (link : Links) (air : Air) (out : List Out) (pending : List Instr)

@[simp] theorem stored_mk : stored ⟨clk, pins, pwr, avs, age, keep, chk, mb, mp, irq, aead, sec, host, mem, pair, tku, ev, sf, plan, port, circ, feed, ldpc, link,
    air, out, pending⟩ = (keep.cells, keep.active) := rfl

end

theorem stored_of_sameBut {gs : List Group} {s t : State} (h : SameBut gs s t) (hkeep : Group.keep ∉ gs) : stored t = stored s := by
  have hsame : t.keep = s.keep := h .keep hkeep
  unfold stored
  rw [hsame]

@[simp] theorem stored_ite (c : Prop) [Decidable c] (s t : State) : stored (if c then s else t) = if c then stored s else stored t := apply_ite stored c s t

@[simp] theorem stored_foldl {α : Type} {f : State → α → State} (h : ∀ t a, stored (f t a) = stored t) (l : List α) (s : State) :
    stored (l.foldl f s) = stored s := by
  induction l generalizing s with
  | nil => rfl
  | cons a l ih => exact (ih _).trans (h s a)

end Sys2Proof.Machine
end

section
/-! SUPPORT. The functions of the machine that leave what the keep store holds and its write in progress, in the order of the model's files. -/
namespace Sys2Proof.Machine

/-! Of Machine/Ops. -/

@[simp] theorem stored_emit (o : Out) (s : State) : stored (emit o s) = stored s := rfl
@[simp] theorem stored_backInv (a n : Nat) (s : State) : stored (backInv a n s) = stored s := by unfold backInv; simp
@[simp] theorem stored_signalVector (v : Nat) (s : State) : stored (signalVector v s) = stored s := by unfold signalVector; simp
@[simp] theorem stored_drawFree (s : State) : stored (drawFree s).2 = stored s := rfl
@[simp] theorem stored_fireCapture (s : State) : stored (fireCapture s) = stored s := rfl
@[simp] theorem stored_raise (code obj : Nat) (s : State) : stored (raise code obj s) = stored s := by unfold raise; simp
@[simp] theorem stored_setCause (bit : Nat) (s : State) : stored (setCause bit s) = stored s := rfl
@[simp] theorem stored_inDomain (d : Nat) {s t : State} (h : stored t = stored s) : stored (inDomain d s t) = stored s := by
  unfold inDomain
  simp only [stored_ite, stored_setCause, h, ite_self]
@[simp] theorem stored_setPort (p : Nat) (x : Port) (s : State) : stored (setPort p x s) = stored s := rfl
@[simp] theorem stored_setLane (l : Nat) (x : Lane) (s : State) : stored (setLane l x s) = stored s := rfl
@[simp] theorem stored_modPort (p : Nat) (f : Port → Port) (s : State) : stored (modPort p f s) = stored s := rfl
@[simp] theorem stored_modLane (l : Nat) (f : Lane → Lane) (s : State) : stored (modLane l f s) = stored s := rfl
@[simp] theorem stored_mpWrite (w : Nat) (v : Word) (s : State) : stored (mpWrite w v s) = stored s := by unfold mpWrite; simp
@[simp] theorem stored_mpHold (w op : Nat) (vs : List Int) (s : State) : stored (mpHold w op vs s) = stored s := by unfold mpHold; simp
@[simp] theorem stored_mpWrites (l : List (Nat × Word)) (s : State) : stored (mpWrites l s) = stored s := by
  induction l generalizing s with
  | nil => rfl
  | cons a l ih => exact (ih _).trans (stored_mpWrite a.1 a.2 s)
@[simp] theorem stored_setCore (k : Nat) (c : Core) (s : State) : stored (setCore k c s) = stored s := by unfold setCore; simp
@[simp] theorem stored_setDom (d : Nat) (x : Dom) (s : State) : stored (setDom d x s) = stored s := rfl
@[simp] theorem stored_domDone (d : Nat) (s : State) : stored (domDone d s) = stored s := rfl
@[simp] theorem stored_setBox (m : Nat) (b : Mailbox) (s : State) : stored (setBox m b s) = stored s := rfl
@[simp] theorem stored_finish (m status detail : Nat) (ws : List Word) (s : State) : stored (finish m status detail ws s) = stored s := by
  unfold finish
  simp
@[simp] theorem stored_cancelRunning (s : State) : stored (cancelRunning s) = stored s := by unfold cancelRunning; simp

/-! Of Machine/CheckUnits. -/

@[simp] theorem stored_setChk (u : Nat) (x : ChkUnit) (s : State) : stored (setChk u x s) = stored s := rfl
@[simp] theorem stored_chkBegin (fw : Bool) (u : Nat) (s : State) : stored (chkBegin fw u s) = stored s := by unfold chkBegin; simp
@[simp] theorem stored_chkTake (fw : Bool) (u : Nat) (v : Word) (s : State) : stored (chkTake fw u v s) = stored s := by unfold chkTake; simp
@[simp] theorem stored_readIn (d : Nat) (w : Word) {s t : State} (h : stored t = stored s) : stored (readIn d w s t) = stored s := by
  unfold readIn
  simp only [stored_ite, stored_setCause, stored_emit, h, ite_self]

/-! Of Machine/KeepStore. -/

@[simp] theorem stored_ksResult (code : Nat) (done : Bool) (s : State) : stored (ksResult code done s) = stored s := by unfold ksResult; simp
@[simp] theorem stored_ksHostWrite (v : Word) (s : State) : stored (ksHostWrite v s) = stored s := by unfold ksHostWrite; simp
@[simp] theorem stored_keepRefuse (w : KeepWrite) (code : Nat) (s : State) : stored (keepRefuse w code s) = stored s := by unfold keepRefuse; simp

/-! Of Machine/Aead. -/

@[simp] theorem stored_setAeadPort (r : Nat) (p : AeadPort) (s : State) : stored (setAeadPort r p s) = stored s := rfl
@[simp] theorem stored_setSlot (k : Nat) (x : Slot) (s : State) : stored (setSlot k x s) = stored s := rfl
@[simp] theorem stored_lockGrant (r : Nat) (s : State) : stored (lockGrant r s) = stored s := rfl
@[simp] theorem stored_lockFree (s : State) : stored (lockFree s) = stored s := by
  unfold lockFree
  repeat' split
  all_goals simp
@[simp] theorem stored_lockRevoke (s : State) : stored (lockRevoke s) = stored s := by unfold lockRevoke; simp
@[simp] theorem stored_aeadTouch (r : Nat) (s : State) : stored (aeadTouch r s) = stored s := by unfold aeadTouch; simp
@[simp] theorem stored_lockClaim (s : State) : stored (lockClaim s) = stored s := by unfold lockClaim; simp
@[simp] theorem stored_lockRequest (r : Nat) (s : State) : stored (lockRequest r s) = stored s := by unfold lockRequest; simp
@[simp] theorem stored_lockRelease (r : Nat) (s : State) : stored (lockRelease r s) = stored s := by unfold lockRelease; simp
theorem stored_queueMark {k counter : Nat} {s t : State} (h : queueMark k counter s = some t) : stored t = stored s := by
  unfold queueMark at h
  dsimp only at h
  split at h
  · exact absurd h (by simp)
  · exact Option.some.inj h ▸ rfl
theorem stored_useCounter {k : Nat} {s t : State} (h : useCounter k s = some t) : stored t = stored s := by
  unfold useCounter at h
  dsimp only at h
  split at h
  · exact absurd h (by simp)
  · split at h
    · exact (stored_queueMark h).trans (stored_setSlot _ _ s)
    · split at h
      · exact (stored_queueMark h).trans (stored_setSlot _ _ s)
      · exact Option.some.inj h ▸ stored_setSlot _ _ s

@[simp] theorem stored_counterUsed (k : Nat) (s : State) : stored ((useCounter k s).getD s) = stored s := by
  cases h : useCounter k s with
  | none => rfl
  | some t => exact stored_useCounter h

@[simp] theorem stored_aeadStart (op r : Nat) (v : Word) (s : State) : stored (aeadStart op r v s) = stored s := by
  have htaken : ∀ x : AeadPort, stored (aeadTouch r (setAeadPort r x s)) = stored s := fun x => (stored_aeadTouch r _).trans (stored_setAeadPort r x s)
  unfold aeadStart
  split
  · rfl
  · dsimp only
    split
    · exact htaken _
    · split
      · split
        · exact htaken _
        · next hdrawn => exact (stored_useCounter hdrawn).trans (htaken _)
      · exact htaken _
@[simp] theorem stored_loadSlot (k : Nat) (key : List Word) (size : Bool) (epoch floor : Nat) (s : State) : stored (loadSlot k key size epoch floor s) = stored s :=
  rfl
@[simp] theorem stored_drawDrbg (n : Nat) (s : State) : stored (drawDrbg n s).2 = stored s := rfl
@[simp] theorem stored_attestSign (msg : List Byte) (s : State) : stored (attestSign msg s).2 = stored s := rfl
@[simp] theorem stored_aeadOutput (r : Nat) (dst : Word) (bs : List Byte) (s : State) : stored (aeadOutput r dst bs s) = stored s := by
  unfold aeadOutput
  simp
@[simp] theorem stored_aeadEnd (a : AeadRun) (result bytes : Nat) (s : State) : stored (aeadEnd a result bytes s) = stored s := by
  unfold aeadEnd
  simp
@[simp] theorem stored_aeadFail (a : AeadRun) (result : Nat) (s : State) : stored (aeadFail a result s) = stored s := by unfold aeadFail; simp
@[simp] theorem stored_aeadAccessFault (a : AeadRun) (s : State) : stored (aeadAccessFault a s) = stored s := by unfold aeadAccessFault; simp
@[simp] theorem stored_aeadWork (a : AeadRun) (src : List Byte) (s : State) : stored (aeadWork a src s) = stored s := by
  unfold aeadWork
  dsimp only
  repeat' split
  all_goals simp
@[simp] theorem stored_keyLoad (r : Nat) (v : Word) (s : State) : stored (keyLoad r v s) = stored s := by unfold keyLoad; simp
@[simp] theorem stored_zeroiseSlot (k : Nat) (s : State) : stored (zeroiseSlot k s) = stored s := by unfold zeroiseSlot; dsimp only; split <;> simp
@[simp] theorem stored_keyErase (r : Nat) (v : Word) (s : State) : stored (keyErase r v s) = stored s := by unfold keyErase; simp
@[simp] theorem stored_withdrawResult (r : Nat) (s : State) : stored (withdrawResult r s) = stored s := by unfold withdrawResult; simp
@[simp] theorem stored_aeadCoreLost (r : Nat) (s : State) : stored (aeadCoreLost r s) = stored s := by
  unfold aeadCoreLost
  repeat' split
  all_goals simp
@[simp] theorem stored_drawStore (s : State) : stored (drawStore s) = stored s := by
  unfold drawStore
  split
  · exact (stored_loadSlot _ _ _ _ _ _).trans ((stored_mpWrites _ _).trans (stored_drawDrbg 4 s))
  · exact stored_loadSlot _ _ _ _ _ _
@[simp] theorem stored_restoreKey (s : State) (k : Nat) : stored (restoreKey s k) = stored s := by
  unfold restoreKey
  dsimp only
  repeat' split
  all_goals simp
@[simp] theorem stored_restoreKeys (s : State) : stored (restoreKeys s) = stored s := by unfold restoreKeys; simp
@[simp] theorem stored_powerUpD29 (s : State) : stored (powerUpD29 s) = stored s := by unfold powerUpD29; dsimp only; split <;> simp

/-! Of Machine/HostFrames. -/

@[simp] theorem stored_setTxRing (q : Nat) (x : Ring) (s : State) : stored (setTxRing q x s) = stored s := rfl
@[simp] theorem stored_setRxRing (q : Nat) (x : Ring) (s : State) : stored (setRxRing q x s) = stored s := rfl
@[simp] theorem stored_modTxRing (q : Nat) (f : Ring → Ring) (s : State) : stored (modTxRing q f s) = stored s := rfl
@[simp] theorem stored_modRxRing (q : Nat) (f : Ring → Ring) (s : State) : stored (modRxRing q f s) = stored s := rfl
@[simp] theorem stored_completeTx (f : TxFrame) (status : Nat) (s : State) : stored (completeTx f status s) = stored s := by unfold completeTx; simp
@[simp] theorem stored_dropOutgoing (p : Outgoing → Bool) (s : State) : stored (dropOutgoing p s) = stored s := rfl
@[simp] theorem stored_returnFrames (fs : List TxFrame) (status : Nat) (s : State) : stored (returnFrames fs status s) = stored s := by
  unfold returnFrames
  simp
@[simp] theorem stored_returnCircuit (c status : Nat) (s : State) : stored (returnCircuit c status s) = stored s := by unfold returnCircuit; simp
@[simp] theorem stored_returnAllFrames (s : State) : stored (returnAllFrames s) = stored s := by unfold returnAllFrames; simp

/-! Of Machine/Registers. -/

@[simp] theorem stored_boxWrite (m off : Nat) (v : Word) (s : State) : stored (boxWrite m off v s) = stored s := by unfold boxWrite; simp
@[simp] theorem stored_aeadWrite (r off : Nat) (v : Word) (s : State) : stored (aeadWrite r off v s) = stored s := by unfold aeadWrite; simp
@[simp] theorem stored_chkWrite (u off : Nat) (v : Word) (s : State) : stored (chkWrite u off v s) = stored s := by unfold chkWrite; simp
@[simp] theorem stored_unmaskVector (v : Nat) (s : State) : stored (unmaskVector v s) = stored s := by unfold unmaskVector; simp
@[simp] theorem stored_msixWrite (off bytes : Nat) (v : Word) (s : State) : stored (msixWrite off bytes v s) = stored s := by unfold msixWrite; simp
@[simp] theorem stored_causeWrite (v : Word) (s : State) : stored (causeWrite v s) = stored s := rfl
@[simp] theorem stored_maskWrite (v : Word) (s : State) : stored (maskWrite v s) = stored s := rfl
@[simp] theorem stored_doneMapWrite (v : Word) (s : State) : stored (doneMapWrite v s) = stored s := rfl
@[simp] theorem stored_vectorWrite (v : Word) (s : State) : stored (vectorWrite v s) = stored s := rfl
@[simp] theorem stored_evConsWrite (v : Word) (s : State) : stored (evConsWrite v s) = stored s := by unfold evConsWrite; simp

/-! Of Machine/Tku. -/

@[simp] theorem stored_latchCapture (sub : Nat) (s : State) : stored (latchCapture sub s) = stored s := rfl
@[simp] theorem stored_tcapWrite (v : Word) (sub : Nat) (s : State) : stored (tcapWrite v sub s) = stored s := by unfold tcapWrite; simp
@[simp] theorem stored_setSrc (k : Nat) (x : Source) (s : State) : stored (setSrc k x s) = stored s := rfl
@[simp] theorem stored_setLabels (i : Nat) (x : Labels) (s : State) : stored (setLabels i x s) = stored s := rfl
@[simp] theorem stored_tkuEvent (b : Nat) (s : State) : stored (tkuEvent b s) = stored s := rfl
@[simp] theorem stored_toAcquire (s : State) : stored (toAcquire s) = stored s := rfl
@[simp] theorem stored_sourceLost (k : Nat) (s : State) : stored (sourceLost k s) = stored s := rfl
@[simp] theorem stored_afterPorts (s t : State) : stored (afterPorts s t) = stored t := by unfold afterPorts; simp
@[simp] theorem stored_partnerReports (q qual selected : Nat) (s : State) : stored (partnerReports q qual selected s) = stored s := by
  unfold partnerReports
  simp
@[simp] theorem stored_jumpCheck (k : Nat) (s : State) : stored (jumpCheck k s) = stored s := by unfold jumpCheck; simp
@[simp] theorem stored_todLabel (i sec qual : Nat) (s : State) : stored (todLabel i sec qual s) = stored s := rfl
@[simp] theorem stored_selects (k : Nat) (s : State) : stored (selects k s) = stored s := by unfold selects; simp
@[simp] theorem stored_freeFreq (s : State) : stored (freeFreq s).2 = stored s := rfl
@[simp] theorem stored_enterHoldover (bound : Option Nat) (trace : Bool) (s : State) : stored (enterHoldover bound trace s) = stored s := by
  unfold enterHoldover
  simp
@[simp] theorem stored_peerSecond (s : State) : stored (peerSecond s) = stored s := by unfold peerSecond; simp
@[simp] theorem stored_countSecond (s : State) : stored (countSecond s) = stored s := by
  unfold countSecond
  dsimp only
  rw [stored_foldl fun t i => stored_setLabels i _ t, stored_foldl fun t k => stored_setSrc k _ t]
@[simp] theorem stored_tkuTransition (bound : Option Nat) (trace : Bool) (s : State) : stored (tkuTransition bound trace s) = stored s := by
  unfold tkuTransition
  split <;> simp
@[simp] theorem stored_logFreq (s : State) : stored (logFreq s) = stored s := rfl
@[simp] theorem stored_steerFreq (s : State) : stored (steerFreq s) = stored s := by
  unfold steerFreq
  repeat' split
  all_goals simp
@[simp] theorem stored_enterRole (r : PairRole) (s : State) : stored (enterRole r s) = stored s := rfl
@[simp] theorem stored_applyPeerRoles (roles : List Nat) (s : State) : stored (applyPeerRoles roles s) = stored s := by unfold applyPeerRoles; simp
@[simp] theorem stored_settingsSecond (s : State) : stored (settingsSecond s) = stored s := by
  unfold settingsSecond
  dsimp only
  repeat' split
  all_goals simp

/-! Of Machine/PortOps. -/

@[simp] theorem stored_modLanes (p : Nat) (f : Lane → Lane) (s : State) : stored (modLanes p f s) = stored s := rfl
@[simp] theorem stored_sendMessage (p mtype : Nat) (ws : List Word) (s : State) : stored (sendMessage p mtype ws s) = stored s := rfl
@[simp] theorem stored_answered (p mtype : Nat) (s : State) : stored (answered p mtype s) = stored s := rfl
@[simp] theorem stored_sendPortConfig (p : Nat) (s : State) : stored (sendPortConfig p s) = stored s := rfl
@[simp] theorem stored_sendChanConfig (p : Nat) (s : State) : stored (sendChanConfig p s) = stored s := rfl
@[simp] theorem stored_beginMeasure (p : Nat) (s : State) : stored (beginMeasure p s) = stored s := rfl
@[simp] theorem stored_calNext (s : State) : stored (calNext s) = stored s := by
  unfold calNext
  repeat' split
  all_goals simp
@[simp] theorem stored_passTurn (s t : State) : stored (passTurn s t) = stored t := by unfold passTurn; simp
@[simp] theorem stored_sendTrainLane (p : Nat) (s : State) (l : Nat) : stored (sendTrainLane p s l) = stored s := by unfold sendTrainLane; simp
@[simp] theorem stored_sendTrain (p : Nat) (s : State) : stored (sendTrain p s) = stored s := by unfold sendTrain; simp
@[simp] theorem stored_enterPhase (p : Nat) (ph : Phase) (s : State) : stored (enterPhase p ph s) = stored s := rfl
@[simp] theorem stored_startTry (p gen : Nat) (s : State) : stored (startTry p gen s) = stored s := by unfold startTry; simp
@[simp] theorem stored_beginBring (k : Bring) (p : Nat) (s : State) : stored (beginBring k p s) = stored s := by unfold beginBring; simp
@[simp] theorem stored_requestBring (k : Bring) (p : Nat) (s : State) : stored (requestBring k p s) = stored s := by
  unfold requestBring
  repeat' split
  all_goals simp
@[simp] theorem stored_calibrate (p : Nat) (s : State) : stored (calibrate p s) = stored s := by unfold calibrate; simp
@[simp] theorem stored_bringupDone (p : Nat) (s : State) : stored (bringupDone p s) = stored s := by unfold bringupDone; simp
@[simp] theorem stored_failDormant (p reason : Nat) (s : State) : stored (failDormant p reason s) = stored s := by unfold failDormant; simp
@[simp] theorem stored_failTry (p reason : Nat) (s : State) : stored (failTry p reason s) = stored s := by unfold failTry; simp
@[simp] theorem stored_storePresets (p : Nat) (s : State) : stored (storePresets p s) = stored s := by unfold storePresets; simp
@[simp] theorem stored_stepCount (p lane : Nat) (s : State) : stored (stepCount p lane s) = stored s := by
  unfold stepCount
  dsimp only
  split <;> simp
@[simp] theorem stored_exitPhase (p : Nat) (s : State) : stored (exitPhase p s) = stored s := by
  unfold exitPhase
  dsimp only
  repeat' split
  all_goals simp
@[simp] theorem stored_advancePhase (p : Nat) (s : State) : stored (advancePhase p s) = stored s := by unfold advancePhase; simp

/-! Of Machine/DomainOps. -/

@[simp] theorem stored_linkLost (s : State) : stored (linkLost s) = stored s := rfl
@[simp] theorem stored_octetLost (k : Nat) (s : State) : stored (octetLost k s) = stored s := by unfold octetLost; simp
@[simp] theorem stored_groupLost (g : Nat) (s : State) : stored (groupLost g s) = stored s := rfl
@[simp] theorem stored_d28Lost (s : State) : stored (d28Lost s) = stored s := rfl
@[simp] theorem stored_loseDomain (d : Nat) (s : State) : stored (loseDomain d s) = stored s := by unfold loseDomain; simp
@[simp] theorem stored_rewriteRegions (s : State) : stored (rewriteRegions s) = stored s := stored_of_sameBut (rewriteRegions_sameBut s) (by decide)
@[simp] theorem stored_resumeNumber (s : State) : stored (resumeNumber s) = stored s := by
  unfold resumeNumber
  dsimp only
  rw [stored_mpWrite, stored_mk, stored_fold]
@[simp] theorem stored_initDomain (d : Nat) (s : State) : stored (initDomain d s) = stored s := by unfold initDomain; simp

/-! Of Machine/Power. -/

@[simp] theorem stored_beginUp (d : Nat) (s : State) : stored (beginUp d s) = stored s := rfl
@[simp] theorem stored_beginDown (d : Nat) (s : State) : stored (beginDown d s) = stored s := rfl
@[simp] theorem stored_seqNext (s : State) : stored (seqNext s) = stored s := by unfold seqNext; split <;> simp
@[simp] theorem stored_enqueue (d : Nat) (up ahead : Bool) (s : State) : stored (enqueue d up ahead s) = stored s := rfl
@[simp] theorem stored_switchEnd (s : State) : stored (switchEnd s) = stored s := by unfold switchEnd; simp
@[simp] theorem stored_beginDrain (d : Nat) (s : State) : stored (beginDrain d s) = stored s := rfl
@[simp] theorem stored_domEnds (d : Nat) (st : DomState) (s : State) : stored (domEnds d st s) = stored s := rfl
@[simp] theorem stored_calledBack (d : Nat) (s : State) : stored (calledBack d s) = stored s := by unfold calledBack; simp
@[simp] theorem stored_drainWork (d : Nat) (s : State) : stored (drainWork d s) = stored s := by unfold drainWork; simp
@[simp] theorem stored_forceDomain (st : DomState) (s : State) (d : Nat) : stored (forceDomain st s d) = stored s := by unfold forceDomain; simp
@[simp] theorem stored_resetD0 (s : State) : stored (resetD0 s) = stored s := rfl
@[simp] theorem stored_takeReset (s : State) : stored (takeReset s) = stored s := by unfold takeReset; simp
@[simp] theorem stored_releaseReset (s : State) : stored (releaseReset s) = stored s := rfl
@[simp] theorem stored_coreRailLost (s : State) : stored (coreRailLost s) = stored s := by unfold coreRailLost; simp
@[simp] theorem stored_powerRequest (d : Nat) (up : Bool) (s : State) : stored (powerRequest d up s).2 = stored s := by
  unfold powerRequest
  dsimp only
  repeat' split
  all_goals simp
@[simp] theorem stored_powerCycle (d : Nat) (s : State) : stored (powerCycle d s) = stored s := by unfold powerCycle; simp

/-! Of Machine/Avs. -/

@[simp] theorem stored_hourlySensor (s : State) (m : MeanObs) : stored (hourlySensor s m) = stored s := by unfold hourlySensor; simp
@[simp] theorem stored_ageingLimit (sensor : Nat) (s : State) : stored (ageingLimit sensor s) = stored s := by unfold ageingLimit; simp
@[simp] theorem stored_ledgerWrite (j : Nat) (s : State) (n : Nat) : stored (ledgerWrite j s n) = stored s := by
  unfold ledgerWrite
  dsimp only
  split
  · rfl
  · exact stored_mpWrites _ s

/-! Of Machine/Operands. -/

@[simp] theorem stored_nearResult (m : Nat) (ws : List Word) (s : State) : stored (nearResult m ws s).2 = stored s := rfl
@[simp] theorem stored_complete (m : Nat) {s : State} {r : Reply} (h : stored r.after = stored s) : stored (complete m s r) = stored s := by
  unfold complete
  simp only [stored_ite, stored_finish, stored_nearResult, h, ite_self]

/-! Of Machine/Admission. -/

@[simp] theorem stored_retireCluster (c : Nat) (s : State) : stored (retireCluster c s) = stored s := by unfold retireCluster; simp
@[simp] theorem stored_clusterTested (c : Nat) (pass : Bool) (s : State) : stored (clusterTested c pass s) = stored s := by unfold clusterTested; simp
@[simp] theorem stored_abandonTest (s : State) : stored (abandonTest s) = stored s := by unfold abandonTest; split <;> simp
@[simp] theorem stored_substitute (a c : Nat) (s : State) : stored (substitute a c s) = stored s := by unfold substitute; split <;> simp
@[simp] theorem stored_failingCluster (s : State) (c : Nat) : stored (failingCluster s c) = stored s := by
  unfold failingCluster
  repeat' split
  all_goals simp
@[simp] theorem stored_noteOverruns (s : State) : stored (noteOverruns s) = stored s := rfl
@[simp] theorem stored_overrunBoundary (fresh : List Nat) (s : State) : stored (overrunBoundary fresh s) = stored s := by unfold overrunBoundary; simp
@[simp] theorem stored_retireUnmapped (s : State) : stored (retireUnmapped s) = stored s := by unfold retireUnmapped; simp
@[simp] theorem stored_takeEffect (img : List Word) (s : State) : stored (takeEffect img s) = stored s := by unfold takeEffect; simp
@[simp] theorem stored_planSwap (s : State) : stored (planSwap s) = stored s := by unfold planSwap; simp
@[simp] theorem stored_noteSubst (before s : State) : stored (noteSubst before s) = stored s := by unfold noteSubst; simp
@[simp] theorem stored_underOld (s : State) : stored (underOld s) = stored s := by unfold underOld; split <;> simp
@[simp] theorem stored_planClose (s : State) : stored (planClose s) = stored s := by
  unfold planClose
  repeat' split
  all_goals simp

/-! Of Machine/LocalMem. -/

@[simp] theorem stored_routeSamples (c k : Nat) (xs : List Int) (s : State) : stored (routeSamples c k xs s) = stored s := rfl

/-! Of Machine/Front. -/

@[simp] theorem stored_setCirc (c : Nat) (x : Circuit) (s : State) : stored (setCirc c x s) = stored s := rfl
@[simp] theorem stored_modCirc (c : Nat) (f : Circuit → Circuit) (s : State) : stored (modCirc c f s) = stored s := rfl
@[simp] theorem stored_queueWords (c cls entry lift rate now first : Nat) (ws : List (List Int)) (s : State) : stored (queueWords c cls entry lift rate now first ws s) = stored s :=
  rfl
@[simp] theorem stored_openEntry (e : Entry) (s : State) : stored (openEntry e s) = stored s := rfl
@[simp] theorem stored_modEntry (id : Nat) (f : Entry → Entry) (s : State) : stored (modEntry id f s) = stored s := rfl
@[simp] theorem stored_request (c now : Nat) (s : State) : stored (request c now s) = stored s := by unfold request; split <;> simp
@[simp] theorem stored_payloadT (c now : Nat) (s : State) : stored (payloadT c now s) = stored s := by unfold payloadT; simp
@[simp] theorem stored_serveQueues (now : Nat) (blocked lost : Nat → Bool) (s : State) : stored (serveQueues now blocked lost s).2 = stored s := by
  unfold serveQueues
  generalize qualIndices s = l
  have hall : ∀ acc : List Nat × State, stored acc.2 = stored s → stored (l.foldl (fun acc a =>
    let t := acc.2
    if booked t a now || blocked a then acc
    else match tabGet [] t.plan.queue a with
      | [] => acc
      | e :: q => if (circOf t e.1).cls != .measured || lost e.1 then acc else (acc.1 ++ [e.1], { t with plan := { t.plan with queue := tabPut [] t.plan.queue a q } })) acc).2 = stored s := by
    induction l with
    | nil => exact fun _ h => h
    | cons a l ih =>
      intro acc h
      refine ih _ ?_
      dsimp only
      split
      · exact h
      · split
        · exact h
        · split
          · exact h
          · exact h
  exact hall _ rfl
@[simp] theorem stored_payloadA (c now : Nat) (inp : SeatIn) (s : State) : stored (payloadA c now inp s) = stored s := by unfold payloadA; simp
@[simp] theorem stored_openIfNew (c : Nat) (before after : Receiver) (cls addr : Nat) (s : State) : stored (openIfNew c before after cls addr s).1 = stored s := by
  unfold openIfNew
  split <;> simp
@[simp] theorem stored_receive (i : RxIn) (lost : Abandoned) (served trigger : Bool) (s : State) : stored (receive i lost served trigger s).2 = stored s := by
  unfold receive
  simp
@[simp] theorem stored_measuredTick (c now : Nat) (lost : Abandoned) (served : Bool) (s : State) : stored (measuredTick c now lost served s).2 = stored s := by
  unfold measuredTick
  dsimp only
  repeat' split
  all_goals simp
@[simp] theorem stored_selfTick (c now : Nat) (s : State) : stored (selfTick c now s) = stored s := rfl
@[simp] theorem stored_staleTick (c now : Nat) (lost : Abandoned) (s : State) : stored (staleTick c now lost s).2 = stored s := by
  unfold staleTick
  dsimp only
  repeat' split
  all_goals simp
@[simp] theorem stored_sharedTick (c now : Nat) (lost : Abandoned) (served : Bool) (s : State) : stored (sharedTick c now lost served s).2 = stored s := by
  unfold sharedTick
  split <;> simp

/-! Of Machine/Feed. -/

@[simp] theorem stored_setFeed (c : Nat) (x : Feed) (s : State) : stored (setFeed c x s) = stored s := rfl
@[simp] theorem stored_modFeed (c : Nat) (f : Feed → Feed) (s : State) : stored (modFeed c f s) = stored s := rfl
@[simp] theorem stored_enterFeedPhase (c : Nat) (ph : FeedPhase) (s : State) : stored (enterFeedPhase c ph s) = stored s := by
  unfold enterFeedPhase
  simp
@[simp] theorem stored_dropOpen (c : Nat) (s : State) : stored (dropOpen c s) = stored s := rfl
@[simp] theorem stored_beginTraining (c : Nat) (st : FeedState) (fast : Bool) (s : State) : stored (beginTraining c st fast s) = stored s := by
  unfold beginTraining
  simp
@[simp] theorem stored_train (c : Nat) (s : State) : stored (train c s) = stored s := by unfold train; simp
@[simp] theorem stored_retrain (c : Nat) (s : State) : stored (retrain c s) = stored s := by unfold retrain; simp
@[simp] theorem stored_trainFails (c : Nat) (s : State) : stored (trainFails c s) = stored s := by unfold trainFails; simp
@[simp] theorem stored_trainWord (c : Nat) (w : Word) (s : State) : stored (trainWord c w s) = stored s := by
  unfold trainWord
  dsimp only
  repeat' split
  all_goals simp
@[simp] theorem stored_switchExit (c : Nat) (s : State) : stored (switchExit c s) = stored s := by unfold switchExit; simp
@[simp] theorem stored_phaseTimeout (c : Nat) (s : State) : stored (phaseTimeout c s) = stored s := by
  unfold phaseTimeout
  dsimp only
  repeat' split
  all_goals simp
@[simp] theorem stored_feedSoft (c now : Nat) (soft : List Int) (s : State) : stored (feedSoft c now soft s) = stored s := rfl
@[simp] theorem stored_feedTick (c now : Nat) (lost : Abandoned) (s : State) : stored (feedTick c now lost s) = stored s := by unfold feedTick; simp

/-! Of Machine/Records. -/

@[simp] theorem stored_modRecords (f : Record → Record) (s : State) : stored (modRecords f s) = stored s := rfl
@[simp] theorem stored_modRecordAt (c a : Nat) (f : Record → Record) (s : State) : stored (modRecordAt c a f s) = stored s := rfl
@[simp] theorem stored_modRecordId (id : Nat) (f : Record → Record) (s : State) : stored (modRecordId id f s) = stored s := rfl
@[simp] theorem stored_uplinkLost (c a : Nat) (s : State) : stored (uplinkLost c a s) = stored s := rfl
@[simp] theorem stored_grantLost (c : Nat) (q : Seat) (s : State) : stored (grantLost c q s) = stored s := by unfold grantLost; simp
@[simp] theorem stored_syncMse (c a : Nat) (m : Option Int) (mse : Int) (s : State) : stored (syncMse c a m mse s) = stored s := by
  unfold syncMse
  split
  · rfl
  · split
    · exact (stored_modCirc _ _ _).trans (stored_modRecordAt c a _ s)
    · rfl
@[simp] theorem stored_prefetchSeats (next : Nat) (s : State) : stored (prefetchSeats next s) = stored s :=
  stored_foldl (fun t _ => stored_modCirc _ _ t) _ s
@[simp] theorem stored_commitSnap (e : Entry) (s : State) : stored (commitSnap e s) = stored s := by unfold commitSnap; split <;> simp
@[simp] theorem stored_seatOutcome (c now : Nat) (news : SeatNews) (before : Circuit) (s : State) : stored (seatOutcome c now news before s) = stored s := by
  unfold seatOutcome
  split
  · rfl
  · next q _ =>
    have harrived : ∀ (p : Prop) [Decidable p] (f : Record → Record), stored (if p then modRecordAt c q.grant.addr f s else s) = stored s := by
      intro p _ f
      simp only [stored_ite, stored_modRecordAt, ite_self]
    dsimp only
    split <;> split <;> simp only [stored_modRecordAt, stored_grantLost, stored_syncMse, harrived]

/-! Of Machine/Outbox. -/

@[simp] theorem stored_wrapUnder (k : Nat) (ad key : List Byte) (s : State) : stored (wrapUnder k ad key s).2 = stored s := stored_counterUsed k s
@[simp] theorem stored_sealFrame (r : Record) (f : Frame) (s : State) : stored (sealFrame r f s).2 = stored s := by
  unfold sealFrame
  split
  · next hdrawn =>
    split
    · exact stored_useCounter hdrawn
    · rfl
  · rfl
@[simp] theorem stored_protect (r : Record) (f : Frame) (s : State) : stored (protect r f s).2 = stored s := by unfold protect; split <;> simp
@[simp] theorem stored_joinsFollow (c : Nat) (s : State) : stored (joinsFollow c s) = stored s := rfl
@[simp] theorem stored_watchJoin (c : Nat) (x : Circuit) (s : State) : stored (watchJoin c x s) = stored s := by unfold watchJoin; simp
@[simp] theorem stored_sendOut (c : Nat) (f : Frame) (text : Option (List Byte)) (o : Outgoing) (way : Way) (s : State) : stored (sendOut c f text o way s) = stored s := by
  unfold sendOut
  split <;> simp

/-! Of Machine/Downlink. -/

@[simp] theorem stored_sendFirst (ep : Nat) (w : Waiting) (r : Record) (s : State) : stored (sendFirst ep w r s) = stored s := by
  unfold sendFirst
  simp
@[simp] theorem stored_pumpFrom (n ep : Nat) (s : State) : stored (pumpFrom n ep s) = stored s := by
  induction n generalizing s with
  | zero => rfl
  | succ n ih =>
    unfold pumpFrom
    split
    · rfl
    · split
      · rfl
      · split
        · exact (ih _).trans (stored_sendFirst ep _ _ s)
        · rfl
@[simp] theorem stored_pump (ep : Nat) (s : State) : stored (pump ep s) = stored s := stored_pumpFrom _ ep s
@[simp] theorem stored_queueDown (ep : Nat) (w : Waiting) (s : State) : stored (queueDown ep w s) = stored s := by unfold queueDown; simp
@[simp] theorem stored_sendControl (ep : Nat) (ws : List Word) (s : State) : stored (sendControl ep ws s) = stored s := by unfold sendControl; simp
@[simp] theorem stored_sendTime (ep : Nat) (ws : List Word) (s : State) : stored (sendTime ep ws s) = stored s := by unfold sendTime; simp
@[simp] theorem stored_sendRelay (ep : Nat) (s : State) : stored (sendRelay ep s) = stored s := by unfold sendRelay; split <;> simp
@[simp] theorem stored_refreshRelays (old s : State) : stored (refreshRelays old s) = stored s := by unfold refreshRelays; simp
@[simp] theorem stored_setRoute (ep : Nat) (via : Option Nat) (s : State) : stored (setRoute ep via s) = stored s := rfl
@[simp] theorem stored_sendAck (ep : Nat) (s : State) : stored (sendAck ep s) = stored s := by unfold sendAck; split <;> simp
@[simp] theorem stored_toRing (f : RxFrame) (s : State) : stored (toRing f s) = stored s := rfl
@[simp] theorem stored_toRings (fs : List RxFrame) (s : State) : stored (toRings fs s) = stored s := stored_foldl (fun t f => stored_toRing f t) fs s
@[simp] theorem stored_releaseHeld (ep : Nat) (s : State) : stored (releaseHeld ep s) = stored s := by unfold releaseHeld; split <;> simp
@[simp] theorem stored_release (c : Nat) (a : Option Nat) (s : State) : stored (release c a s) = stored s := by unfold release; split <;> simp
@[simp] theorem stored_startReaddress (ep : Nat) (s : State) : stored (startReaddress ep s) = stored s := by
  unfold startReaddress
  repeat' split
  all_goals simp
@[simp] theorem stored_wakeRecord (ep wake : Nat) (s : State) : stored (wakeRecord ep wake s) = stored s := by unfold wakeRecord; simp
@[simp] theorem stored_deleteRecord (ep : Nat) (s : State) : stored (deleteRecord ep s) = stored s := by unfold deleteRecord; split <;> simp
@[simp] theorem stored_absentRecord (ep : Nat) (s : State) : stored (absentRecord ep s) = stored s := by unfold absentRecord; split <;> simp

/-! Of Machine/Ranging. -/

@[simp] theorem stored_sendTimeCorr (ep : Nat) (d theta : Int) (s : State) : stored (sendTimeCorr ep d theta s) = stored s := by
  unfold sendTimeCorr
  simp
@[simp] theorem stored_sendFeedTime (ep : Nat) (s : State) : stored (sendFeedTime ep s) = stored s := by
  unfold sendFeedTime
  repeat' split
  all_goals simp
@[simp] theorem stored_sendTimeInfo (ep : Nat) (s : State) : stored (sendTimeInfo ep s) = stored s := by unfold sendTimeInfo; simp
@[simp] theorem stored_rangeMiss (ep : Nat) (s : State) : stored (rangeMiss ep s) = stored s := rfl
@[simp] theorem stored_rangeResult (ep : Nat) (d theta : Int) (s : State) : stored (rangeResult ep d theta s) = stored s := by
  unfold rangeResult
  repeat' split
  all_goals simp
@[simp] theorem stored_feedLoop (c : Nat) (s : State) : stored (feedLoop c s) = stored s := by unfold feedLoop; dsimp only; split <;> simp

/-! Of Machine/Evidence. -/

@[simp] theorem stored_todAccepted (body : List Byte) (s : State) : stored (todAccepted body s) = stored s := by unfold todAccepted; simp
@[simp] theorem stored_recordDue (s : State) : stored (recordDue s) = stored s := rfl
@[simp] theorem stored_applyTai (s : State) : stored (applyTai s) = stored s := by unfold applyTai; split <;> simp
@[simp] theorem stored_ppsOut (s : State) : stored (ppsOut s) = stored s := by unfold ppsOut; simp
@[simp] theorem stored_resumeRecords (s : State) : stored (resumeRecords s) = stored s := by unfold resumeRecords; simp
@[simp] theorem stored_recordOf (s : State) (draft : List Word) : stored (recordOf s draft).2 = stored s := by unfold recordOf; split <;> simp
@[simp] theorem stored_produce (draft : List Word) (s : State) : stored (produce draft s).2 = stored s := by unfold produce; simp
@[simp] theorem stored_dropRecord (s : State) : stored (dropRecord s) = stored s := by unfold dropRecord; split <;> simp

/-! Of Machine/MailboxCore. -/

@[simp] theorem stored_boxPost (m : Nat) (s : State) : stored (boxPost m s) = stored s := by unfold boxPost; dsimp only; split <;> simp
@[simp] theorem stored_boxRelease (m : Nat) (s : State) : stored (boxRelease m s) = stored s := by unfold boxRelease; simp
@[simp] theorem stored_boxCancel (m : Nat) (s : State) : stored (boxCancel m s) = stored s := by unfold boxCancel; simp
@[simp] theorem stored_boxAct (m act : Nat) (s : State) : stored (boxAct m act s) = stored s := by unfold boxAct; simp
@[simp] theorem stored_mctpReply (op result : Nat) (ws : List Word) (s : State) : stored (mctpReply op result ws s) = stored s := rfl
@[simp] theorem stored_mctpWord (m off : Nat) (v : Word) (s : State) : stored (mctpWord m off v s) = stored s := by unfold mctpWord; simp
@[simp] theorem stored_setBank (k : Nat) (b : Bank) (s : State) : stored (setBank k b s) = stored s := by unfold setBank; simp
@[simp] theorem stored_dropAdmitting (s : State) : stored (dropAdmitting s) = stored s := by unfold dropAdmitting; simp
@[simp] theorem stored_switchCore (cause : Nat) (s : State) : stored (switchCore cause s) = stored s := by unfold switchCore; simp
@[simp] theorem stored_beginTrial (source : Nat) (s : State) : stored (beginTrial source s) = stored s := by unfold beginTrial; simp
@[simp] theorem stored_endOfTrial (s : State) : stored (endOfTrial s) = stored s := by unfold endOfTrial; simp

/-! Of Machine/CmdSystem. -/

@[simp] theorem stored_restartStandby (s : State) : stored (restartStandby s) = stored s := by unfold restartStandby; simp
@[simp] theorem stored_restartCores (s : State) : stored (restartCores s) = stored s := by unfold restartCores; simp
@[simp] theorem stored_addBackground (g : Background) (s : State) : stored (addBackground g s) = stored s := rfl
@[simp] theorem stored_granaryWrite (a : Nat) (bs : List Byte) (s : State) : stored (granaryWrite a bs s) = stored s := rfl
@[simp] theorem stored_ownWrite (a : Nat) (bs : List Byte) (s : State) : stored (ownWrite a bs s) = stored s := by unfold ownWrite; simp
@[simp] theorem stored_stageWrite (off : Nat) (bs : List Byte) (s : State) : stored (stageWrite off bs s) = stored s := by unfold stageWrite; simp
@[simp] theorem stored_attestReport (s : State) (nonce : List Word) : stored (attestReport s nonce).2 = stored s := rfl

/-! Of Machine/LaneRows. -/

@[simp] theorem stored_enterTest (p pattern : Nat) (s : State) : stored (enterTest p pattern s) = stored s := by
  unfold enterTest
  dsimp only
  rw [stored_foldl fun t l => stored_emit _ t, stored_drawFree, stored_modLanes, stored_passTurn, stored_afterPorts, stored_modPort]
@[simp] theorem stored_announceTest (p pattern : Nat) (s : State) : stored (announceTest p pattern s) = stored s :=
  stored_foldl (fun t _ => stored_foldl (fun t _ => stored_emit _ t) _ t) _ s
@[simp] theorem stored_startWaiting (ps : List Nat) (s : State) : stored (startWaiting ps s) = stored s := by
  unfold startWaiting
  repeat' split
  all_goals simp
@[simp] theorem stored_freeCells (p n : Nat) (s : State) : stored (freeCells p n s) = stored s := rfl
@[simp] theorem stored_resendOne (p : Nat) (s : State) (g : Message) : stored (resendOne p s g) = stored s := by unfold resendOne; simp

/-! Of Machine/CmdPort. -/

@[simp] theorem stored_setPortState (code p : Nat) (s : State) : stored (setPortState code p s) = stored s := by
  unfold setPortState
  dsimp only
  split <;> simp
@[simp] theorem stored_storePorts (ps : List Nat) (f : Nat → Port → Port) (s : State) : stored (storePorts ps f s) = stored s := by
  unfold storePorts
  simp

/-! Of Machine/PlanSwap. -/

@[simp] theorem stored_clearRepeater (c : Nat) (s : State) : stored (clearRepeater c s) = stored s := rfl
@[simp] theorem stored_enterFeed (c : Nat) (s : State) : stored (enterFeed c s) = stored s := by unfold enterFeed; simp
@[simp] theorem stored_leaveFeed (c : Nat) (s : State) : stored (leaveFeed c s) = stored s := by unfold leaveFeed; simp
@[simp] theorem stored_swapCircuit (old s : State) (c : Nat) : stored (swapCircuit old s c) = stored s := by unfold swapCircuit; simp
@[simp] theorem stored_settleSwap (s worked : State) : stored (settleSwap s worked) = stored worked := by unfold settleSwap; split <;> simp

/-! Of Machine/SfTimer. -/

@[simp] theorem stored_followRef (s : State) : stored (followRef s) = stored s := by unfold followRef; split <;> simp
@[simp] theorem stored_crossing (c : Nat) (at_ : Int) (s : State) : stored (crossing c at_ s) = stored s := by unfold crossing; simp

/-! Of Machine/Beacons. -/

@[simp] theorem stored_beaconHeads (start : Nat) (s : State) (p : Nat × Dealt) : stored (beaconHeads start s p) = stored s := by
  unfold beaconHeads
  simp
@[simp] theorem stored_dropHeads (start c : Nat) (s : State) : stored (dropHeads start c s) = stored s := rfl

/-! Of Machine/Shaping. -/

@[simp] theorem stored_trainNext (c : Nat) (s : State) : stored (trainNext c s) = stored s := rfl
@[simp] theorem stored_retrainUp (c : Nat) (s : State) : stored (retrainUp c s) = stored s := by unfold retrainUp; simp
@[simp] theorem stored_applyShaping (c : Nat) (s : State) : stored (applyShaping c s) = stored s := by unfold applyShaping; simp
@[simp] theorem stored_applyProfile (profile : Nat) (s : State) : stored (applyProfile profile s) = stored s := by unfold applyProfile; simp

/-! Of Machine/Transmit. -/

@[simp] theorem stored_noteBegun (o : Outgoing) (s : State) : stored (noteBegun o s) = stored s := by unfold noteBegun; split <;> simp
@[simp] theorem stored_castBegun (o : Outgoing) (due : Option Nat) (s : State) : stored (castBegun o due s).2 = stored s := by
  unfold castBegun
  split <;> simp
@[simp] theorem stored_castsDelivered (k : Nat) (s : State) : stored (castsDelivered k s) = stored s := by unfold castsDelivered; simp
@[simp] theorem stored_beginPpdu (k : Nat) (o : Outgoing) (s : State) : stored (beginPpdu k o s) = stored s := by unfold beginPpdu; simp
@[simp] theorem stored_beginNext (k c : Nat) (s : State) : stored (beginNext k c s) = stored s := by unfold beginNext; split <;> simp
theorem stored_gathered {α β : Type} {f : List β × State → α → List β × State} (h : ∀ e a, stored (f e a).2 = stored e.2) (l : List α) (e : List β × State) :
    stored (l.foldl f e).2 = stored e.2 := by
  induction l generalizing e with
  | nil => rfl
  | cons a l ih => exact (ih _).trans (h e a)

@[simp] theorem stored_toStreams (c : Nat) (s : State) : stored (toStreams c s) = stored s := by
  unfold toStreams
  dsimp only
  split
  · rfl
  · rw [stored_modCirc, stored_modFeed, stored_gathered]
    · rfl
    · exact fun e o => stored_castBegun o none e.2
@[simp] theorem stored_schedule (k : Nat) (s : State) (c : Nat) : stored (schedule k s c) = stored s := by unfold schedule; simp
@[simp] theorem stored_formDown (ovr : List (Nat × Nat)) (old : State) (j : Nat) (s : State) (c : Nat) : stored (formDown ovr old j s c) = stored s := by
  unfold formDown
  dsimp only
  split
  · exact stored_modCirc _ _ s
  · simp only [stored_ite, stored_modPort, stored_modCirc, ite_self]
@[simp] theorem stored_prepare (k : Nat) (old s : State) : stored (prepare k old s) = stored s := by
  unfold prepare
  dsimp only
  rw [stored_foldl fun t c => stored_modFeed c _ t, stored_foldl (stored_schedule k)]
  split
  · rw [stored_foldl (stored_beaconHeads k), stored_castsDelivered]
  · exact stored_castsDelivered k s
@[simp] theorem stored_formFrames (ovr : List (Nat × Nat)) (old s : State) : stored (formFrames ovr old s) = stored s := by unfold formFrames; simp

/-! Of Machine/Tick. -/

@[simp] theorem stored_landSamples (p : Nat) (ws : List Word) (s : State) : stored (landSamples p ws s) = stored s := by unfold landSamples; simp
@[simp] theorem stored_ledgerCheck (p tx rx fr held : Nat) (s : State) : stored (ledgerCheck p tx rx fr held s) = stored s := by
  unfold ledgerCheck
  dsimp only
  split <;> simp
@[simp] theorem stored_landCredits (p : Nat) (ws : List Word) (s : State) : stored (landCredits p ws s) = stored s := by unfold landCredits; simp
@[simp] theorem stored_landPath (p : Nat) (f : UpFrame) (s : State) : stored (landPath p f s) = stored s := by unfold landPath; split <;> simp
@[simp] theorem stored_landCrossing (p : Nat) (w : Word) (s : State) : stored (landCrossing p w s) = stored s := by unfold landCrossing; simp
@[simp] theorem stored_acceptFrame (p : Nat) (f : UpFrame) (s : State) : stored (acceptFrame p f s) = stored s := by unfold acceptFrame; simp
@[simp] theorem stored_noteSent (j c : Nat) (raw : List Int) (s : State) : stored (noteSent j c raw s) = stored s := by unfold noteSent; simp
@[simp] theorem stored_sendGain (j p ch : Nat) (s : State) : stored (sendGain j p ch s) = stored s := rfl
@[simp] theorem stored_launchFrame (s : State) (p : Nat) : stored (launchFrame s p) = stored s := by
  unfold launchFrame
  dsimp only
  split
  · rfl
  · rw [stored_foldl, stored_foldl fun t ch => stored_sendGain _ p ch t]
    · rfl
    · intro t r
      split
      · exact stored_noteSent _ _ _ t
      · rfl
@[simp] theorem stored_launchPeer (m : Nat) (ws : List Word) (s : State) : stored (launchPeer m ws s) = stored s := rfl
@[simp] theorem stored_moreCells (s : State) : stored (moreCells s) = stored s := by unfold moreCells; simp
@[simp] theorem stored_launchPeers (s : State) : stored (launchPeers s) = stored s := by
  unfold launchPeers
  dsimp only
  rw [stored_foldl, stored_foldl]
  · split
    · rfl
    · exact stored_moreCells s
  · exact fun t m => stored_launchPeer m _ _
  · exact fun t m => stored_launchPeer m _ t
@[simp] theorem stored_circuitTick (obs : TickObs) (now : Nat) (served : List Nat) (s : State) (c : Nat) : stored (circuitTick obs now served s c) = stored s := by
  unfold circuitTick
  simp
@[simp] theorem stored_tickWork (obs : TickObs) (s : State) : stored (tickWork obs s) = stored s := by unfold tickWork; simp
@[simp] theorem stored_advanceClock (s : State) : stored (advanceClock s) = stored s := rfl
@[simp] theorem stored_rotate (k : Nat) (s : State) (c : Nat) : stored (rotate k s c) = stored s := rfl
@[simp] theorem stored_countMissing (s : State) : stored (countMissing s) = stored s := by unfold countMissing; simp
@[simp] theorem stored_countLanes (os : List LaneObs) (s : State) : stored (countLanes os s) = stored s := by unfold countLanes; simp
@[simp] theorem stored_writeCapture (bs : List Byte) (s : State) : stored (writeCapture bs s) = stored s := by
  unfold writeCapture
  dsimp only
  rw [stored_mk, stored_fold, stored_ownWrite]
@[simp] theorem stored_captureTick (old s : State) : stored (captureTick old s) = stored s := by unfold captureTick; simp
@[simp] theorem stored_poisonRead (s : State) (line : Nat) : stored (poisonRead s line) = stored s := by
  unfold poisonRead
  dsimp only
  repeat' split
  all_goals simp
@[simp] theorem stored_eccMark (s : State) (line : Nat) : stored (eccMark s line) = stored s := rfl
@[simp] theorem stored_pairStrobe (s : State) : stored (pairStrobe s) = stored s := rfl
@[simp] theorem stored_raiseRange (p : Nat) (s : State) : stored (raiseRange p s) = stored s := by unfold raiseRange; simp

/-! Of Machine/LdpcRows. -/

@[simp] theorem stored_setDecoder (d : Nat) (x : Decoder) (s : State) : stored (setDecoder d x s) = stored s := rfl
@[simp] theorem stored_judgeFrame (c : Nat) (converged clean : Bool) (lenOk : Nat → Bool) (bytes : List Byte) (s : State) : stored (judgeFrame c converged clean lenOk bytes s).2 = stored s := by
  unfold judgeFrame
  dsimp only
  repeat' split
  all_goals simp
@[simp] theorem stored_acceptRx (c cls : Nat) (rssi snr eq : Int) (f : Frame) (s : State) : stored (acceptRx c cls rssi snr eq f s) = stored s := rfl
@[simp] theorem stored_finishEntry (e : Entry) (s : State) : stored (finishEntry e s) = stored s := by unfold finishEntry; dsimp only; split <;> simp
@[simp] theorem stored_blockFails (c : Nat) (xp : Bool) (s : State) : stored (blockFails c xp s) = stored s := rfl
@[simp] theorem stored_takeBlock (c : Nat) (bits : Option (List Bool)) (clean : Bool) (s : State) : stored (takeBlock c bits clean s) = stored s := by
  unfold takeBlock
  dsimp only
  repeat' split
  all_goals simp
@[simp] theorem stored_takeBlocks (n c : Nat) (s : State) : stored (takeBlocks n c s) = stored s := by
  induction n generalizing s with
  | zero => rfl
  | succ n ih =>
    unfold takeBlocks
    dsimp only
    split
    · rfl
    · exact (ih _).trans (stored_takeBlock c _ _ _)
@[simp] theorem stored_deliverWord (w : Codeword) (d : Decoded) (s : State) : stored (deliverWord w d s) = stored s := by
  have hcounted := stored_modCirc w.circuit (fun x =>
    if d.iter = 24 then bump .cwIter24 (bump (if d.converged then .cwOk else .cwBad) x) else bump (if d.converged then .cwOk else .cwBad) x) s
  unfold deliverWord
  dsimp only
  generalize modCirc w.circuit _ s = t at hcounted ⊢
  split
  · split
    · exact hcounted
    · exact (stored_takeBlocks _ _ _).trans ((stored_setFeed _ _ _).trans hcounted)
  · split
    · exact (stored_modEntry _ _ _).trans hcounted
    · split
      · exact (stored_finishEntry _ _).trans ((stored_modEntry _ _ _).trans hcounted)
      · exact (stored_modEntry _ _ _).trans hcounted
@[simp] theorem stored_retireDecoder (d : Nat) (s : State) : stored (retireDecoder d s) = stored s := by
  unfold retireDecoder
  dsimp only
  repeat' split
  all_goals simp

/-! Of Machine/Uplink. -/

@[simp] theorem stored_arriveAt (f : RxFrame) (r : Record) (s : State) : stored (arriveAt f r s) = stored s := by unfold arriveAt; simp
@[simp] theorem stored_heard (f : RxFrame) (r : Record) (s : State) : stored (heard f r s) = stored s := by unfold heard; simp
@[simp] theorem stored_fromSender (f : RxFrame) (s : State) {act : Nat → State → State} (h : ∀ ep t, stored (act ep t) = stored t) : stored (fromSender f s act) = stored s := by
  unfold fromSender
  split
  · rfl
  · split
    · exact stored_modCirc _ _ s
    · exact (h _ _).trans (stored_heard f _ s)
@[simp] theorem stored_advanceBase (n ep : Nat) (s : State) : stored (advanceBase n ep s) = stored s := by
  induction n generalizing s with
  | zero => rfl
  | succ n ih =>
    unfold advanceBase
    split
    · rfl
    · split
      · exact (ih _).trans ((stored_toRings _ _).trans (stored_modRecordId _ _ s))
      · rfl
@[simp] theorem stored_classify (f : RxFrame) (data : Bool) (ep : Nat) (s : State) : stored (classify f data ep s).2 = stored s := by
  unfold classify
  split
  · rfl
  · dsimp only
    split
    · split
      · exact (stored_sendAck ep _).trans (stored_modCirc _ _ s)
      · split
        · exact stored_modRxRing _ _ s
        · split
          · exact (stored_sendAck ep _).trans ((stored_advanceBase _ _ _).trans (stored_modRecordId _ _ s))
          · exact (stored_advanceBase _ _ _).trans (stored_modRecordId _ _ s)
    · split
      · exact (stored_sendAck ep _).trans (stored_modCirc _ _ s)
      · exact stored_modCirc _ _ s
@[simp] theorem stored_toMp (f : RxFrame) (s : State) : stored (toMp f s) = stored s := rfl
@[simp] theorem stored_mpFrame (f : RxFrame) {act : Nat → State → State} (h : ∀ ep t, stored (act ep t) = stored t) (s : State) : stored (mpFrame f act s) = stored s := by
  refine stored_fromSender f s fun ep t => ?_
  dsimp only
  split
  · exact (h _ _).trans ((stored_toMp f _).trans (stored_classify f false ep t))
  · exact stored_classify f false ep t
@[simp] theorem stored_fallAsleep (ep : Nat) (s : State) : stored (fallAsleep ep s) = stored s := rfl
@[simp] theorem stored_takeAck (base : Nat) (map : Word) (ep : Nat) (s : State) : stored (takeAck base map ep s) = stored s := by
  unfold takeAck
  split <;> simp
@[simp] theorem stored_sleepAnswer (d ep : Nat) (s : State) : stored (sleepAnswer d ep s) = stored s := by unfold sleepAnswer; split <;> simp
@[simp] theorem stored_retryOne (ep : Nat) (x : Sent) (s : State) : stored (retryOne ep x s) = stored s := by
  unfold retryOne
  repeat' split
  all_goals simp

/-! Of Machine/Joins. -/

@[simp] theorem stored_sendJoin (c dest : Nat) (body : List Byte) (s : State) : stored (sendJoin c dest body s) = stored s := by unfold sendJoin; simp
@[simp] theorem stored_endJoin (c ep : Nat) (s : State) : stored (endJoin c ep s) = stored s := rfl
@[simp] theorem stored_challenge (j : Join) (s : State) : stored (challenge j s) = stored s := by unfold challenge; simp
@[simp] theorem stored_reject (c ep en reason : Nat) (s : State) : stored (reject c ep en reason s) = stored s := by unfold reject; simp
@[simp] theorem stored_joinRequest (f : RxFrame) (s : State) : stored (joinRequest f s) = stored s := by
  unfold joinRequest
  dsimp only
  repeat' split
  all_goals simp
@[simp] theorem stored_wrapStore (ad key : List Byte) (s : State) : stored (wrapStore ad key s).2 = stored s := by unfold wrapStore; simp
@[simp] theorem stored_sendAccept (r : Record) (key : List Word) (s : State) : stored (sendAccept r key s) = stored s :=
  (stored_sendJoin _ _ _ _).trans (stored_counterUsed 2 s)
@[simp] theorem stored_joinAccepted (j : Join) (s : State) : stored (joinAccepted j s) = stored s := by
  unfold joinAccepted
  dsimp only
  split <;> simp

/-! Of Machine/Rings. -/

@[simp] theorem stored_ringFault (rx : Bool) (q cause : Nat) (s : State) : stored (ringFault rx q cause s) = stored s := by unfold ringFault; simp
@[simp] theorem stored_hostFail (obj : Nat) (s : State) : stored (hostFail obj s) = stored s := by unfold hostFail; simp
@[simp] theorem stored_doorbell (rx : Bool) (q : Nat) (v : Word) (s : State) : stored (doorbell rx q v s) = stored s := by unfold doorbell; simp
@[simp] theorem stored_xdbPost (n : Nat) (v : Word) (s : State) : stored (xdbPost n v s) = stored s := by unfold xdbPost; split <;> simp
@[simp] theorem stored_sendBroadcast (f : TxFrame) (s : State) : stored (sendBroadcast f s) = stored s := by unfold sendBroadcast; simp
@[simp] theorem stored_queueHost (f : TxFrame) (s : State) : stored (queueHost f s) = stored s := by
  unfold queueHost
  repeat' split
  all_goals simp
@[simp] theorem stored_acceptTx (q : Nat) (s : State) : stored (acceptTx q s) = stored s := rfl
@[simp] theorem stored_dropJournal (q index : Nat) (s : State) : stored (dropJournal q index s) = stored s := rfl
@[simp] theorem stored_pastSeq (circuit dest n : Nat) (s : State) : stored (pastSeq circuit dest n s) = stored s := by unfold pastSeq; split <;> simp
@[simp] theorem stored_dropHeld (q index : Nat) (s : State) : stored (dropHeld q index s) = stored s := rfl
@[simp] theorem stored_journalTx (j : TxJournal) (s : State) : stored (journalTx j s) = stored s := by
  have hpast : ∀ c d : Nat, stored (j.seq.elim s fun n => pastSeq c d n s) = stored s := fun c d => by
    cases j.seq with
    | none => rfl
    | some n => exact stored_pastSeq _ _ n s
  unfold journalTx
  split
  · dsimp only
    split
    · exact (stored_completeTx _ _ _).trans ((stored_dropHeld _ _ _).trans (hpast _ _))
    · exact hpast _ _
  · dsimp only
    split
    · exact stored_dropJournal j.ring j.index s
    · exact stored_dropJournal j.ring j.index s
@[simp] theorem stored_journalRx (j : RxJournal) (s : State) : stored (journalRx j s) = stored s := rfl
@[simp] theorem stored_journalled (f : TxFrame) (s : State) : stored (journalled f s) = stored s := by unfold journalled; split <;> simp
@[simp] theorem stored_takeDesc (q : Nat) (d : DescFetch) (s : State) : stored (takeDesc q d s) = stored s := by unfold takeDesc; simp
@[simp] theorem stored_takeTurn (q : Nat) (s : State) : stored (takeTurn q s) = stored s := by unfold takeTurn; simp
@[simp] theorem stored_appendHistory (q : Nat) (f : RxFrame) (s : State) : stored (appendHistory q f s) = stored s := by unfold appendHistory; simp
@[simp] theorem stored_deliverInto (q : Nat) (w0 : Word) (f : RxFrame) (s : State) : stored (deliverInto q w0 f s) = stored s := by
  unfold deliverInto
  simp
@[simp] theorem stored_signalRing (rx : Bool) (q : Nat) (s : State) : stored (signalRing rx q s) = stored s := by unfold signalRing; simp
@[simp] theorem stored_bodyFailed (q : Nat) (s : State) : stored (bodyFailed q s) = stored s := by unfold bodyFailed; simp
@[simp] theorem stored_evidenceFailed (s : State) : stored (evidenceFailed s) = stored s := by unfold evidenceFailed; simp
@[simp] theorem stored_requestFailed (late : Bool) (req : HostRequest) (s : State) : stored (requestFailed late req s) = stored s := by
  unfold requestFailed
  repeat' split
  all_goals simp
@[simp] theorem stored_abandonRequests (s : State) : stored (abandonRequests s) = stored s := by unfold abandonRequests; split <;> simp
@[simp] theorem stored_refuseWrite (a : Nat) (s : State) : stored (refuseWrite a s) = stored s := by unfold refuseWrite; simp

/-! Of Machine/Bulk. -/

@[simp] theorem stored_bulkFail (code : Nat) (s : State) : stored (bulkFail code s) = stored s := by unfold bulkFail; simp
@[simp] theorem stored_bulkAdvance (off len : Nat) (s : State) : stored (bulkAdvance off len s) = stored s := by unfold bulkAdvance; simp
@[simp] theorem stored_bulkOff (s : State) : stored (bulkOff s) = stored s := rfl
@[simp] theorem stored_bulkWrite (off : Nat) (words : List Word) (s : State) : stored (bulkWrite off words s) = stored s := by unfold bulkWrite; simp

/-! Of Machine/CmdPlan. -/

@[simp] theorem stored_unstage (s : State) : stored (unstage s) = stored s := rfl
@[simp] theorem stored_stageImage (img : List Word) (s : State) : stored (stageImage img s) = stored s := rfl

/-! Of Machine/CmdCircuit. -/

@[simp] theorem stored_retrainLink (full : Bool) (c : Nat) (s : State) : stored (retrainLink full c s) = stored s := by unfold retrainLink; simp

/-! Of Machine/CmdDevice. -/

@[simp] theorem stored_sfChange (mains : Nat) (refs : List Nat) (anchor : Int) (s : State) : stored (sfChange mains refs anchor s) = stored s := by
  unfold sfChange
  dsimp only
  split <;> simp
@[simp] theorem stored_makeKey (k epoch : Nat) (s : State) : stored (makeKey k epoch s) = stored s := by unfold makeKey; simp

/-! Of Machine/CmdEndpoint. -/

@[simp] theorem stored_evict (r : Record) (s : State) : stored (evict r s) = stored s := by unfold evict; simp
@[simp] theorem stored_setRepeater (ep slot : Nat) (far : List Nat) (s : State) : stored (setRepeater ep slot far s) = stored s := by
  unfold setRepeater
  simp

/-! Of Machine/CmdTime. -/

@[simp] theorem stored_hostOffset (sec : Nat) (offset : Int) (bound : Nat) (trace : Bool) (s : State) : stored (hostOffset sec offset bound trace s) = stored s := by
  unfold hostOffset
  simp

/-! Of Machine/Scheduler. -/

@[simp] theorem stored_dropGrant (g : Grant) (s : State) : stored (dropGrant g s) = stored s := by unfold dropGrant; simp
@[simp] theorem stored_checkGrants (nFix : Nat) (gs taken : List Grant) (s : State) : stored (checkGrants nFix gs taken s).2 = stored s := by
  induction gs generalizing taken s with
  | nil => rfl
  | cons g gs ih =>
    unfold checkGrants
    split
    · exact ih _ s
    · exact (ih _ _).trans (stored_dropGrant g s)

/-! Of Machine/GrantLists. -/

@[simp] theorem stored_closeTimer (s : State) : stored (closeTimer s) = stored s := by unfold closeTimer; simp
@[simp] theorem stored_listForClose (s : State) : stored (listForClose s).2 = stored s := by
  unfold listForClose
  repeat' split
  all_goals simp
@[simp] theorem stored_firmwareClose (s : State) : stored (firmwareClose s) = stored s := by unfold firmwareClose; split <;> simp
@[simp] theorem stored_taggedFrame (ftype c : Nat) (body : Nat → Nat → List Byte) (s : State) : stored (taggedFrame ftype c body s).2 = stored s := by
  unfold taggedFrame
  dsimp only
  split
  · next hdrawn =>
    split
    · exact stored_useCounter hdrawn
    · rfl
  · rfl
@[simp] theorem stored_sendSheet (s : State) (p : Nat × Dealt) : stored (sendSheet s p) = stored s := by
  unfold sendSheet
  dsimp only
  repeat' split
  all_goals simp
@[simp] theorem stored_sendBeacon (s : State) (p : Nat × Dealt) : stored (sendBeacon s p) = stored s := by
  unfold sendBeacon
  dsimp only
  split <;> simp
@[simp] theorem stored_noteGrants (s : State) : stored (noteGrants s) = stored s := by
  unfold noteGrants
  dsimp only
  rw [stored_foldl (fun t c => stored_modCirc c _ t), stored_modRecords]
@[simp] theorem stored_sendBeacons (s : State) : stored (sendBeacons s) = stored s := by
  unfold sendBeacons
  dsimp only
  split
  · rfl
  · rw [stored_foldl stored_sendBeacon, stored_foldl stored_sendSheet, stored_noteGrants]
    exact stored_foldl (fun t p => (stored_dropHeads _ _ _).trans (stored_modCirc _ _ t)) _ _

/-! Of Machine/Pair. -/

@[simp] theorem stored_becomeStandby (s : State) : stored (becomeStandby s) = stored s := rfl
@[simp] theorem stored_resolveSplit (s : State) : stored (resolveSplit s) = stored s := by unfold resolveSplit; simp
@[simp] theorem stored_followSuperframe (w0 w2 : Word) (tag : Nat) (s : State) : stored (followSuperframe w0 w2 tag s) = stored s := by
  unfold followSuperframe
  simp
@[simp] theorem stored_peerRoles (w0 : Word) (s : State) : stored (peerRoles w0 s) = stored s := by unfold peerRoles; split <;> simp
@[simp] theorem stored_peerCells (q g : Nat) (ws : List Word) (s : State) : stored (peerCells q g ws s) = stored s := by unfold peerCells; simp
@[simp] theorem stored_takeKey (s : State) (k : PeerKey) : stored (takeKey s k) = stored s := by unfold takeKey; split <;> simp
@[simp] theorem stored_mirrorLoaded (s : State) : stored (mirrorLoaded s) = stored s := stored_foldl (fun t _ => stored_setSlot _ _ t) _ s
@[simp] theorem stored_checkpointKeys (s : State) : stored (checkpointKeys s) = stored s := by unfold checkpointKeys; simp
@[simp] theorem stored_takeHead (s : State) (h : PeerHead) : stored (takeHead s h) = stored s := by unfold takeHead; simp
@[simp] theorem stored_peerLanded (q : Nat) (s : State) : stored (peerLanded q s) = stored s := rfl
@[simp] theorem stored_pairStamps (q : Nat) (f : PeerFrame) (s : State) : stored (pairStamps q f s) = stored s := rfl
@[simp] theorem stored_timeStamps (q : Nat) (f : PeerFrame) (s : State) : stored (timeStamps q f s) = stored s := rfl
@[simp] theorem stored_acceptPeer (q : Nat) (f : PeerFrame) (s : State) : stored (acceptPeer q f s) = stored s := by
  unfold acceptPeer
  extract_lets w tag half heard asked reported pair counted told clk aligned journalled mirrored
  have hheard : stored heard = stored s := (stored_pairStamps q f _).trans ((stored_peerCells _ _ _ _).trans (stored_peerLanded q s))
  clear_value heard
  have hasked : stored asked = stored heard := (stored_ite _ _ _).trans (by rw [stored_checkpointKeys, ite_self])
  clear_value asked
  have hreported : stored reported = stored asked := stored_partnerReports _ _ _ _
  clear_value reported
  have hcounted : stored counted = stored reported := by
    unfold counted
    rw [stored_mk, stored_fold]
  clear_value counted
  have htold : stored told = stored counted := stored_peerRoles _ _
  clear_value told
  have haligned : stored aligned = stored told := (stored_ite _ _ _).trans (by rw [stored_mk, stored_fold, ite_self])
  clear_value aligned
  have hjournal : stored journalled = stored aligned :=
    (stored_foldl (fun t j => stored_journalRx j t) _ _).trans (stored_foldl (fun t j => stored_journalTx j t) _ _)
  clear_value journalled
  have hmirror : stored mirrored = stored journalled := by
    unfold mirrored
    refine stored_foldl ?_ _ _
    exact fun _ _ => rfl
  clear_value mirrored
  have hstays : stored told = stored s := by rw [htold, hcounted, hreported, hasked, hheard]
  split
  · rw [stored_foldl stored_takeHead, stored_followSuperframe, stored_foldl stored_takeKey, hmirror, hjournal, haligned, hstays]
  · exact hstays
@[simp] theorem stored_tkuTakeover (s : State) : stored (tkuTakeover s) = stored s := by
  have hsources : ∀ t : State, stored ([1, 2, 3, 4].foldl (fun t k => setSrc k { srcOf t k with fresh := false } t) t) = stored t :=
    stored_foldl (fun t k => stored_setSrc k _ t) _
  unfold tkuTakeover
  dsimp only
  split
  · rw [stored_selects, stored_mk, stored_fold, hsources, stored_tkuEvent]
    rfl
  · rw [stored_enterHoldover, stored_selects, hsources, stored_tkuEvent]
    rfl
  · rw [hsources, stored_tkuEvent]
    rfl
@[simp] theorem stored_sendHeld (s : State) : stored (sendHeld s) = stored s := by unfold sendHeld; simp
@[simp] theorem stored_takeOver (s : State) : stored (takeOver s) = stored s := by
  unfold takeOver
  dsimp only
  rw [stored_raise, stored_sendHeld, stored_foldl fun t c => stored_retrain c t, stored_foldl fun t ep => stored_rangeMiss ep t]
  exact (stored_mirrorLoaded _).trans ((stored_tkuTakeover _).trans (stored_enterRole _ s))

/-! Of Machine/RegWrite. -/

@[simp] theorem stored_boxDoorbell (m : Nat) (v : Word) (s : State) : stored (boxDoorbell m v s) = stored s := by unfold boxDoorbell; simp
@[simp] theorem stored_aeadPortWrite (r off : Nat) (v : Word) (s : State) : stored (aeadPortWrite r off v s) = stored s := by
  unfold aeadPortWrite
  simp
@[simp] theorem stored_chkPortWrite (agent u off : Nat) (v : Word) (s : State) : stored (chkPortWrite agent u off v s) = stored s := by
  unfold chkPortWrite
  simp
@[simp] theorem stored_bar0Write (agent off : Nat) (v : Word) (s : State) : stored (bar0Write agent off v s) = stored s := by unfold bar0Write; simp
@[simp] theorem stored_bar2Write (off bytes : Nat) (v : Word) (s : State) : stored (bar2Write off bytes v s) = stored s := by unfold bar2Write; simp
@[simp] theorem stored_spaceWrite (agent off bytes : Nat) (v : Word) (s : State) : stored (spaceWrite agent off bytes v s) = stored s := by
  unfold spaceWrite
  repeat' split
  all_goals simp

/-! Of Machine/Superframe. -/

@[simp] theorem stored_unusedGrant (s : State) (g : Grant) : stored (unusedGrant s g) = stored s := by unfold unusedGrant; split <;> simp
@[simp] theorem stored_endOfSuperframe (s : State) : stored (endOfSuperframe s) = stored s := by
  unfold endOfSuperframe
  dsimp only
  rw [stored_modRecords, stored_foldl fun t ep => stored_deleteRecord ep t, stored_foldl fun t ep => stored_rangeMiss ep t, stored_foldl stored_unusedGrant]
@[simp] theorem stored_changeCores (cause : Nat) (s : State) : stored (changeCores cause s) = stored s := by unfold changeCores; simp
@[simp] theorem stored_firmwareBoundary (n : Nat) (s : State) : stored (firmwareBoundary n s) = stored s := by
  unfold firmwareBoundary
  repeat' split
  all_goals simp
@[simp] theorem stored_swapBoundary (n : Nat) (s : State) : stored (swapBoundary n s) = stored s := by unfold swapBoundary; simp
@[simp] theorem stored_creditDue (s : State) (p : Nat) : stored (creditDue s p) = stored s := by unfold creditDue; simp
@[simp] theorem stored_hfCheck (s : State) : stored (hfCheck s) = stored s := by unfold hfCheck; simp
@[simp] theorem stored_circuitBoundary (s : State) (c : Nat) : stored (circuitBoundary s c) = stored s := by unfold circuitBoundary; simp
@[simp] theorem stored_moveKeys (r : Rotation) (s : State) : stored (moveKeys r s) = stored s := rfl
@[simp] theorem stored_dropKey (s : State) (k : Nat) : stored (dropKey s k) = stored s := by unfold dropKey; simp
@[simp] theorem stored_rotateKeys (s : State) : stored (rotateKeys s) = stored s := by
  unfold rotateKeys
  dsimp only
  split
  · rfl
  · rw [stored_foldl stored_dropKey, stored_foldl fun t r => stored_moveKeys r t]
    rfl
@[simp] theorem stored_ensureKeys (s : State) : stored (ensureKeys s) = stored s := by unfold ensureKeys; simp
@[simp] theorem stored_sendKeyUpdate (s : State) (ep : Nat) : stored (sendKeyUpdate s ep) = stored s := by unfold sendKeyUpdate; split <;> simp
@[simp] theorem stored_recordsBoundary (s : State) : stored (recordsBoundary s) = stored s := by unfold recordsBoundary; simp
@[simp] theorem stored_serveGrant (s : State) (g : Grant) : stored (serveGrant s g) = stored s := by
  unfold serveGrant
  dsimp only
  repeat' split
  all_goals simp
@[simp] theorem stored_regionBoundary (s : State) : stored (regionBoundary s) = stored s := by unfold regionBoundary; split <;> simp
@[simp] theorem stored_advanceSf (s : State) : stored (advanceSf s) = stored s := rfl
@[simp] theorem stored_releaseClaim (s : State) : stored (releaseClaim s) = stored s := by unfold releaseClaim; simp
@[simp] theorem stored_nextSuperframe (s : State) : stored (nextSuperframe s) = stored s := by unfold nextSuperframe; simp
@[simp] theorem stored_firstSuperframe (s : State) : stored (firstSuperframe s) = stored s := by unfold firstSuperframe; simp
@[simp] theorem stored_bootPlan (s : State) : stored (bootPlan s) = stored s := by
  unfold bootPlan
  dsimp only
  repeat' split
  all_goals simp

end Sys2Proof.Machine
end

section
/-! SUPPORT. The commands that leave what the keep store holds and its write in progress: all but those that start, land or cut a write. -/
namespace Sys2Proof.Machine

/-- A command that ends in a state with the same words in the keep store, the same write in progress and the same queue. -/
def Keeps (s : State) (r : Result) : Prop := ∀ t, r = .next t → stored t = stored s ∧ t.pending = s.pending

section
variable {s e : State}

@[simp] theorem stored_signalRise (s t : State) : stored (signalRise s t) = stored t := by unfold signalRise; simp

theorem keeps_next (h : stored e = stored s) (hqueue : e.pending = s.pending) : Keeps s (.next e) := by
  rintro t ⟨⟩
  exact ⟨h, hqueue⟩

theorem keeps_fault (f : Fault) : Keeps s (.fault f) := by
  rintro t ⟨⟩

theorem keeps_commit (h : stored e = stored s) : Keeps s (commit s e) :=
  keeps_next ((stored_signalRise s _).trans h) (signalRise_pending s _)

theorem keeps_commitWrite (h : stored e = stored s) (hqueue : e.pending = s.pending) : Keeps s (commitWrite e) := by
  unfold commitWrite
  split
  · exact keeps_next h hqueue
  · exact keeps_next ((stored_signalVector _ e).trans h) ((signalVector_pending _ e).trans hqueue)

theorem keeps_onObject {ok : Bool} (h : stored e = stored s) : Keeps s (onObject ok s e) := by
  unfold onObject
  split
  · exact keeps_commit h
  · exact keeps_fault _

theorem keeps_ite {c : Prop} [Decidable c] {r q : Result} (h : Keeps s r) (k : Keeps s q) : Keeps s (if c then r else q) := by
  split
  · exact h
  · exact k

/-! The replies of mailbox commands. -/

@[simp] theorem okay_after (ws : List Word) (t : State) : (okay ws t).after = t := rfl

@[simp] theorem refuse_after (status detail : Nat) (t : State) : (refuse status detail t).after = t := rfl

@[simp] theorem after_ite (c : Prop) [Decidable c] (r q : Reply) : (if c then r else q).after = if c then r.after else q.after := apply_ite Reply.after c r q

@[simp] theorem stored_checked (cs : List (Bool × Nat × Nat)) {r : Reply} (h : stored r.after = stored s) : stored (checked cs s r).after = stored s := by
  unfold checked
  split
  · rfl
  · exact h

@[simp] theorem stored_storeSetting (op : Nat) (vs : List Int) {t : State} (h : stored t = stored s) : stored (storeSetting op vs s t).after = stored s := by
  unfold storeSetting
  simp [h]

@[simp] theorem stored_nearReport (m : Nat) (ws : List Word) (s : State) : stored (nearReport m ws s).after = stored s := by
  unfold nearReport
  simp

@[simp] theorem stored_submit (img : List Word) (s : State) : stored (submit img s).after = stored s := by
  unfold submit
  split <;> simp

@[simp] theorem stored_editPlan (ws : List Word) (s : State) : stored (editPlan ws s).after = stored s := by
  unfold editPlan
  dsimp only
  split
  · simp
  · split <;> simp

@[simp] theorem stored_armPlan (pid sf : Nat) (s : State) : stored (armPlan pid sf s).after = stored s := by
  unfold armPlan
  refine stored_checked _ ?_
  split <;> rfl

theorem keeps_mailboxCommand {op owner m : Nat} {words : Nat → Bool} {body : Mailbox → Reply} (h : ∀ b, stored (body b).after = stored s) :
    Keeps s (mailboxCommand op owner words m s body) := by
  refine keeps_onObject ?_
  split
  · rfl
  · exact stored_complete m (stored_checked _ (h _))

theorem keeps_csetReadout (op m : Nat) (ok : Nat → Bool × Nat × Nat) (ws : Nat → List Word) (ks : List Ctr) : Keeps s (csetReadout op m s ok ws ks) :=
  keeps_mailboxCommand fun _ => stored_checked _ (by rw [okay_after, stored_foldl fun t c => stored_modCirc c _ t])

theorem keeps_csetConfig (op : Nat) (rows : List (Int × Int)) (m : Nat) (ok : Nat → Bool × Nat × Nat) (f : (Nat → Option Int) → Circuit → Circuit) :
    Keeps s (csetConfig op rows m s ok f) :=
  keeps_mailboxCommand fun _ => stored_checked _ (by rw [okay_after, stored_foldl fun t c => stored_modCirc c _ t])

/-! Frames from endpoints (R304, R305). -/

theorem keeps_controlRx (ctype : Nat) (f : RxFrame) {act : Nat → State → State} (h : ∀ ep t, stored (act ep t) = stored t) :
    Keeps s (controlRx ctype f act s) :=
  keeps_onObject ((stored_ite _ _ _).trans (by rw [stored_mpFrame f h, ite_self]))

theorem keeps_timeRx (ttype : Nat) (f : RxFrame) {act : Nat → State → State} (h : ∀ ep t, stored (act ep t) = stored t) :
    Keeps s (timeRx ttype f act s) :=
  keeps_onObject ((stored_ite _ _ _).trans (by rw [stored_mpFrame f h, ite_self]))

end

end Sys2Proof.Machine
end

section
/-! SUPPORT. Every command but three leaves what the keep store holds, its write in progress and the queue; those three start, land or cut a write. -/
namespace Sys2Proof.Machine

theorem stored_keepNext {s : State} {w : KeepWrite} {k : Keep} (h : keepNext s.keep = some (w, k)) : stored { s with keep := k } = stored s := by
  unfold keepNext at h
  split at h
  · cases h
    rfl
  · cases h
    rfl
  · cases h
    rfl
  · cases h

theorem keeps_deviceReset (m : Nat) (s : State) : Keeps s (execDeviceReset m s) := by
  have hserve : Keeps s (mailboxCommand 0x0104 0 (exactly 2) m s fun b =>
      checked [inRange b 0 1 3, (prm b 1 == 0x52455345, stRange, 1), (!updateInProgress s, stState, 0)] s
        (okay [] (if prmN (boxOf s m) 0 = 1 then restartStandby s else s))) :=
    keeps_mailboxCommand fun _ => stored_checked _ (by simp)
  unfold execDeviceReset
  dsimp only
  split
  · next t hserved =>
    obtain ⟨hstored, hqueue⟩ := hserve t hserved
    have hplain : Keeps s (.next t) := keeps_next hstored hqueue
    refine keeps_ite (keeps_ite (keeps_commit ?_) (keeps_ite (keeps_commit ?_) hplain)) hplain
    · rw [stored_releaseReset, stored_takeReset, hstored]
    · rw [stored_restartCores, hstored]
  · exact hserve

theorem keeps_circuitRxConfig (m : Nat) (s : State) : Keeps s (execCircuitRxConfig m s) := by
  refine keeps_mailboxCommand fun b => stored_checked _ ?_
  have hset := stored_foldl (fun t c => stored_modCirc c (fun x => { x with want := rxSettings (settingOf b 12 11) x.want }) t) (circuitsOf b 0) s
  rw [okay_after]
  generalize (circuitsOf b 0).foldl _ s = t at hset ⊢
  split <;> split <;> simp [hset]

theorem keeps_circuitTxConfig (m : Nat) (s : State) : Keeps s (execCircuitTxConfig m s) := by
  refine keeps_mailboxCommand fun b => stored_checked _ ?_
  have hset := stored_foldl (fun t c => stored_modCirc c (withPsd (settingOf b 12 4)) t) (circuitsOf b 0) s
  rw [okay_after]
  generalize (circuitsOf b 0).foldl _ s = t at hset ⊢
  cases settingOf b 12 4 3 with
  | none => exact hset
  | some v => exact (stored_storePorts _ _ t).trans hset

theorem keeps_endpointLinkConfig (m : Nat) (s : State) : Keeps s (execEndpointLinkConfig m s) := by
  refine keeps_mailboxCommand fun _ => stored_checked _ ?_
  rw [okay_after, stored_foldl fun t c => (stored_mpWrite _ _ _).trans (stored_modCirc c _ t)]

theorem keeps_securityStatus (m : Nat) (s : State) : Keeps s (execSecurityStatus m s) := by
  unfold execSecurityStatus
  refine keeps_mailboxCommand fun _ => ?_
  rw [okay_after, stored_mk, stored_fold]

theorem keeps_securityJoinKey (m : Nat) (s : State) : Keeps s (execSecurityJoinKey m s) := by
  refine keeps_mailboxCommand fun _ => stored_checked _ ?_
  split
  · rfl
  · split
    · rfl
    · split
      · rfl
      · split
        · rfl
        · next hdrawn => rw [okay_after, stored_zeroiseSlot, stored_mk, stored_fold, stored_useCounter hdrawn]

theorem keeps_ldpcStatus (m : Nat) (s : State) : Keeps s (execLdpcStatus m s) :=
  keeps_mailboxCommand fun _ => stored_foldl (fun t d => stored_setDecoder d _ t) _ _

theorem keeps_registerWrite (agent bar off bytes : Nat) (v : Word) (s : State) : Keeps s (execRegisterWrite agent bar off bytes v s) :=
  keeps_ite (keeps_fault _) (keeps_ite (keeps_commit (by simp)) (keeps_ite (keeps_commitWrite rfl rfl) (keeps_ite (keeps_commitWrite rfl rfl)
    (keeps_ite (keeps_commitWrite rfl rfl) (keeps_commit (stored_spaceWrite _ _ _ _ _))))))

theorem keeps_keepWriteWaitTimeout (s : State) : Keeps s (execKeepWriteWaitTimeout s) := by
  refine keeps_commit ?_
  split
  · rfl
  · split
    · rfl
    · next hnext =>
      split
      · rfl
      · exact (stored_keepRefuse _ _ _).trans (stored_keepNext hnext)

theorem keeps_tickStrobe (obs : TickObs) (s : State) : Keeps s (execTickStrobe obs s) := by
  refine keeps_commit ?_
  rw [stored_prefetchSeats, stored_launchPeers, stored_pairStrobe, stored_mk, stored_fold, stored_captureTick, stored_foldl (stored_rotate _), stored_countMissing,
    stored_foldl stored_launchFrame, stored_formFrames, stored_advanceClock, stored_settleSwap, stored_tickWork, stored_underOld, stored_countLanes,
    stored_foldl stored_poisonRead, stored_foldl stored_eccMark]

theorem keeps_mgmtFrameRx (f : RxFrame) (s : State) : Keeps s (execMgmtFrameRx f s) := by
  refine keeps_onObject ?_
  rw [stored_ite, stored_ite, stored_mpFrame f (fun _ _ => rfl), stored_fromSender f s fun _ t => stored_toMp f t, ite_self, ite_self]

theorem keeps_rangeReply (f : RxFrame) (u : Unit) (s : State) : Keeps s (execRangeReply f u s) := by
  refine keeps_onObject ?_
  rw [stored_ite, stored_fromSender, ite_self]
  intro ep t
  split
  · rfl
  · split
    · simp
    · simp
    · rfl

theorem keeps_turnReport (f : RxFrame) (s : State) : Keeps s (execTurnReport f s) := by
  refine keeps_timeRx _ _ fun ep t => ?_
  dsimp only
  split
  · exact stored_modFeed _ _ t
  · split
    · exact stored_modFeed _ _ t
    · exact (stored_modRecordId _ _ _).trans (stored_modFeed _ _ t)

theorem keeps_rangeReport (f : RxFrame) (s : State) : Keeps s (execRangeReport f s) := by
  refine keeps_timeRx _ _ fun ep t => ?_
  split
  · rfl
  · simp

theorem keeps_tkuSecond (s : State) : Keeps s (execTkuSecond s) := by
  have hqueue : (ppsOut s).pending = s.pending := by
    unfold ppsOut
    dsimp only
    split <;> rfl
  intro t ht
  have hkeeps : Keeps (ppsOut s) (execTkuSecond s) := keeps_commit (by simp)
  exact ⟨(hkeeps t ht).1.trans (stored_ppsOut s), (hkeeps t ht).2.trans hqueue⟩

/-- The commands of the mailboxes' tables (R387 to R393). -/
def servedByMailbox : Instr → Bool
  | .deviceIdentify _ | .deviceStatus _ | .deviceEvents _ | .deviceReset _ | .deviceHostMode _ | .portStatus _ | .portRetrain _ | .portSetState _
  | .portSetPreset _ | .clockSetSpread _ | .portFrameCounters _ | .portCalibrate _ | .portConfig _ | .deviceSetRegion _ | .deviceRegionStatus _
  | .deviceSfConfig _ | .deviceSfStatus _ | .deviceRingConfig _ | .deviceRingStatus _ | .deviceRxSteer _ | .deviceGranaryConfig _
  | .deviceEventVector _ | .circuitSetClass _ | .circuitRxConfig _ | .circuitRxStatus _ | .circuitRxCounters _ | .circuitAgc _ | .circuitCaStatus _
  | .circuitCaConfig _ | .circuitXtSurvey _ | .circuitCdConfig _ | .circuitCdStatus _ | .circuitCdRetrain _ | .circuitChaffMap _
  | .circuitChaffConfig _ | .circuitCodeCounters _ | .circuitTxConfig _ | .circuitTxFilter _ | .circuitNotch _ | .circuitRelay _
  | .circuitRelayStatus _ | .circuitTxStatus _ | .circuitBeaconConfig _ | .circuitMacCounters _ | .planLoad _ | .planActivate _ | .planAbort _
  | .planStatus _ | .planEdit _ | .planRead _ | .planStageWrite _ | .planSaveBoot _ | .endpointList _ | .endpointStatus _ | .endpointEvict _
  | .endpointReaddress _ | .endpointSetRepeater _ | .endpointLinkCounters _ | .endpointLinkConfig _ | .endpointDeny _ | .endpointCaSnapshot _
  | .timeStatus _ | .timeSourceConfig _ | .timeSetTai _ | .timeHostOffset _ | .timeResync _ | .timeEvidenceRing _ | .timeEndpointStatus _
  | .timeRangeConfig _ | .timeModel _ | .timePeerConfig _ | .securityStatus _ | .securityJoinKey _ | .securityCircuitKey _ | .securityZeroise _
  | .securityAttest _ | .securityCert _ | .firmwareStatus _ | .firmwareStageWrite _ | .firmwareVerify _ | .firmwareWriteBank _ | .firmwareActivate _
  | .firmwareCommit _ | .firmwareRevert _ | .firmwareSetBoot _ | .diagMpStatus _ | .diagNearRead _ | .lanePrbs _ | .laneMarginScan _
  | .laneCounters _ | .ldpcStatus _ | .diagCapture _ | .diagCaptureStatus _ | .powerDomainSet _ | .powerDomainStatus _ | .powerAvsStatus _
  | .ageingLedger _ | .ageingClusterTest _ => true
  | _ => false

/-- The commands that start, land or cut a write of the keep store (R435, R493). -/
def movesStore : Instr → Bool
  | .keepWriteStart => true
  | .keepWriteDone => true
  | .railRemoved _ => true
  | _ => false

/-- A command of a mailbox leaves the store and the queue. -/
theorem exec_keeps_mailbox (i : Instr) (s : State) (h : servedByMailbox i = true) : Keeps s (exec i s) := by
  unfold exec
  cases i with
  | deviceIdentify | deviceStatus | deviceRegionStatus | deviceSfStatus | circuitRelayStatus | planStatus | timeStatus | timeResync | firmwareStatus
  | diagMpStatus | diagCaptureStatus | powerDomainStatus | powerAvsStatus | ageingLedger => exact keeps_mailboxCommand fun _ => rfl
  | deviceEvents | deviceEventVector | circuitXtSurvey | planAbort | planRead | planStageWrite | timeSetTai | timeEvidenceRing | timeEndpointStatus
  | firmwareVerify | firmwareRevert | laneMarginScan | ageingClusterTest =>
    refine keeps_mailboxCommand fun _ => ?_
    dsimp only
    refine stored_checked _ ?_
    simp
  | deviceReset => exact keeps_deviceReset _ s
  | deviceHostMode | clockSetSpread | deviceGranaryConfig | timeSourceConfig | timeRangeConfig | timePeerConfig =>
    exact keeps_mailboxCommand fun _ => stored_checked _ (stored_storeSetting _ _ rfl)
  | portStatus | planSaveBoot | endpointList | diagNearRead => exact keeps_mailboxCommand fun _ => stored_checked _ rfl
  | portRetrain | portSetState | portSetPreset | portCalibrate | portConfig | deviceSetRegion | deviceSfConfig | deviceRingConfig | deviceRingStatus
  | circuitSetClass | circuitCdRetrain | circuitChaffMap | planLoad | planActivate | planEdit | timeHostOffset | timeModel | securityCircuitKey
  | securityZeroise | securityAttest | securityCert | firmwareStageWrite | firmwareWriteBank | firmwareActivate | firmwareCommit | firmwareSetBoot
  | lanePrbs | diagCapture | powerDomainSet => exact keeps_mailboxCommand fun _ => by simp
  | portFrameCounters => exact keeps_mailboxCommand fun _ => stored_checked _ (by rw [okay_after, stored_foldl fun t p => stored_modPort p _ t])
  | deviceRxSteer | circuitTxFilter | circuitNotch | circuitRelay | endpointSetRepeater | endpointDeny =>
    refine keeps_mailboxCommand fun _ => ?_
    dsimp only
    refine stored_checked _ ?_
    split <;> simp
  | circuitRxConfig => exact keeps_circuitRxConfig _ s
  | circuitRxStatus | circuitRxCounters | circuitCaStatus | circuitCdStatus | circuitCodeCounters | circuitTxStatus | circuitMacCounters
  | endpointLinkCounters => exact keeps_csetReadout _ _ _ _ _
  | circuitAgc => exact keeps_mailboxCommand fun _ => stored_checked _ (by rw [okay_after, stored_foldl fun t c => stored_modCirc c _ t])
  | circuitCaConfig | circuitCdConfig | circuitChaffConfig | circuitBeaconConfig => exact keeps_csetConfig _ _ _ _ _
  | circuitTxConfig => exact keeps_circuitTxConfig _ s
  | endpointStatus | endpointEvict | endpointReaddress =>
    refine keeps_mailboxCommand fun _ => stored_checked _ ?_
    split <;> simp
  | endpointLinkConfig => exact keeps_endpointLinkConfig _ s
  | endpointCaSnapshot =>
    refine keeps_mailboxCommand fun _ => stored_checked _ ?_
    split
    · rfl
    · simp
  | securityStatus => exact keeps_securityStatus _ s
  | securityJoinKey => exact keeps_securityJoinKey _ s
  | laneCounters => exact keeps_mailboxCommand fun _ => stored_checked _ (by rw [okay_after, stored_foldl fun t l => stored_modLane l _ t])
  | ldpcStatus => exact keeps_ldpcStatus _ s
  | _ => cases h

/-- So does every other command but those of the store. -/
theorem exec_keeps_other (i : Instr) (s : State) (h : servedByMailbox i = false) (hmoves : movesStore i = false) : Keeps s (exec i s) := by
  unfold exec
  cases i with
  | keepWriteStart | keepWriteDone | railRemoved => cases hmoves
  | mbPost | mbRelease | mbCancel | mailboxTimeout | txDbWrite | rxDbWrite | xdbWrite | gpioEdgeCapture | bulkDataRead | bulkDataWrite
  | aeadLockRequest | aeadLockRelease | aeadEncrypt | aeadDecrypt | aeadWrap | aeadUnwrap | aeadGenerate | aeadJoinMac | aeadKeyWrite
  | aeadKeyZeroise | chkStart | chkDataWrite | powerGood | powerGoodTimeout | drainEnd | powerDownDone | thermalTrip | overrunLimit | samplesLost
  | overload | receptionTimeout | upstreamTickFrame | portDegraded | portReadyAgain | portRebring | calMeasureDone | feIdentity | feCalReport
  | feAlarm | feAck | feMessageResend | blockLockAcquired | blockLockLost | bringupPhaseTimeout | signalDetected | dormantProbe | probeWindowEnd
  | peerFrame | timePeerFrame | dataFrameRx | ackRx | sleepReqRx | relayBeaconRx | joinReq | txDescFetch | msixModCount | msixModTicks | ringDrainEnd
  | cxlmemHostRead | cxlmemHostWrite | chaffAgeHalving | ppsInEdge | ppsInLoss | jumpDisqualifyEnd | cdTrainWord | cdSwitchExit | cdPhaseTimeout
  | cdTrainingTimeout | feedSearchRetry | linkLost | feedOverload | tapRevert | tapGuardFail | prbsCheckerLock | prbsLockLoss | msixVectorUnmask
  | aeadStatusRead => exact keeps_onObject (by simp)
  | mbTake | watchdogExpiry | aeadOpDone | avsMeasurement =>
    refine keeps_commit ?_
    repeat' split
    all_goals simp
  | backgroundOpDone | domainSwitchStart | ledgerHourlyUpdate | ldpcDispatch | ldpcKnownAnswerTest | retainExpiry | evidenceRecord | evLate
  | offBlockRead =>
    refine keeps_commit ?_
    split <;> simp
  | mctpWrite | mctpRead | mctpDoorbell | journalEntry | standbyReady | evConsWrite | tcapCapture | tcapDoneClear | tcapArmGpio | ksDataWrite
  | ksDataRead | aeadIdleRelease | entropyHealthFail | drbgReseed | resetNAssert | resetNRelease | sequenceStart | sequenceDone | avsBusRetry
  | ledgerDailyWrite | ledgerYearlySnapshot | avsAtLimitExpiry | captureFreeze | bringupQueueStart | peerMarkerMissing | followerTestExpiry
  | isolatedExpiry | candidateExpiry | checkpointComplete | hostRequestFailed | cxlCompletionTimeout | hostLinkUp | hostLinkDown | hotReset
  | h2dSnoop | ideMacFail | ideKeyProgram | spdmRequest | grantListHandover | grantListClose | grantListReuseExpiry | superframeBoundary
  | sfMarkWrite | endpointSummaryWrite | sfRefLost | todInMessage | peerSourceLoss | hostSourceLoss | modelWrite | recordSeqMarkWrite | mpBootDone
  | hdmDecoderCommit => exact keeps_commit (by simp)
  | setEndpointId | getEndpointId | getMctpVersionSupport | getMessageTypeSupport | getVendorDefinedMsgSupport | watchdogKick | eventVectorWrite
  | vddCoreWindowFlag | oscInLoss | oscInReturn | avsBusFault | pmbusPoll | todOutSend | alertNRelease => exact keeps_commit rfl
  | registerWrite => exact keeps_registerWrite _ _ _ _ _ s
  | intCauseWrite | intMaskWrite | mbDoneMapWrite => exact keeps_commitWrite rfl rfl
  | keepWriteWaitTimeout => exact keeps_keepWriteWaitTimeout s
  | chkPipeCntRead | ledgerCreditRead | pairStatusRead | hdmViolAddrRead | hdmViolCntRead => exact keeps_commit (stored_readIn _ _ rfl)
  | tickStrobe => exact keeps_tickStrobe _ s
  | qualLate | ldpcDecodeDone | reasmTimeout | joinChallengeTimeout | joinAbandon | ackTimerExpiry | sleepWake | rxFrameDeliver =>
    refine keeps_onObject ?_
    split <;> simp
  | noSync | trainWordReceived | joinResponse | gapSkip | pollAnswerTimeout | readdressTimeout | txTooLong =>
    refine keeps_onObject ?_
    repeat' split
    all_goals simp
  | mgmtFrameRx => exact keeps_mgmtFrameRx _ s
  | reportRx | leaveRx => exact keeps_controlRx _ _ fun ep t => stored_modRecordId ep _ t
  | rangeReply => exact keeps_rangeReply _ () s
  | turnReport => exact keeps_turnReport _ s
  | rangeReport => exact keeps_rangeReport _ s
  | quarantineExpiry | freqInLoss => exact keeps_onObject rfl
  | tkuSecond => exact keeps_tkuSecond s
  | peerExchange =>
    refine keeps_commit ?_
    dsimp only
    repeat' split
    all_goals simp
  | _ => cases h

/-- Every command but those of the store leaves the store and the queue. -/
theorem exec_keeps (i : Instr) (s : State) (h : movesStore i = false) : Keeps s (exec i s) := by
  cases hserved : servedByMailbox i with
  | true => exact exec_keeps_mailbox i s hserved
  | false => exact exec_keeps_other i s hserved h

end Sys2Proof.Machine
end

section
/-! SUPPORT. What any command makes of the keep store, and what follows for its wear counters and the block's invariant (R435, R436, R444, R493). -/
namespace Sys2Proof.Machine

/-- What a command may make of the cells and the write in progress: both stay; a write on a word that is not WORN starts; the write in progress
lands; or it is lost with the old value. -/
inductive StoreStep (s : State) : Tab Cell × Option KeepWrite → Prop
  | kept : StoreStep s (stored s)
  | started (k : KeepWrite) (hidle : s.keep.active = none) (hopen : worn s k.word = false) : StoreStep s (s.keep.cells, some k)
  | landed (k : KeepWrite) (hactive : s.keep.active = some k) : StoreStep s (keepLand k s.keep.cells, none)
  | lost : StoreStep s (s.keep.cells, none)

theorem storeStep_of_eq {s t : State} (h : stored t = stored s) : StoreStep s (stored t) := by
  rw [h]
  exact .kept

/-- The steps are those of the keep store's own record. -/
theorem StoreStep.of_keep {r s : State} {x : Tab Cell × Option KeepWrite} (h : StoreStep r x) (hkeep : r.keep = s.keep) : StoreStep s x := by
  have hstored : stored r = stored s := by
    unfold stored
    rw [hkeep]
  have hworn : ∀ w, worn r w = worn s w := fun w => by
    unfold worn cellOf
    rw [hkeep]
  cases h with
  | kept =>
    rw [hstored]
    exact .kept
  | started k hidle hopen =>
    rw [hkeep] at hidle ⊢
    exact .started k hidle ((hworn _).symm.trans hopen)
  | landed k hactive =>
    rw [hkeep] at hactive ⊢
    exact .landed k hactive
  | lost =>
    rw [hkeep]
    exact .lost

/-! The three commands of the store. -/

section
variable {s : State}

theorem keepStarted_storeStep {w : KeepWrite} {k : Keep} (hidle : s.keep.active = none) (hnext : keepNext s.keep = some (w, k)) :
    StoreStep s (stored (keepStarted w k s)) := by
  have htaken := stored_keepNext hnext
  have hrefused : ∀ code, StoreStep s (stored (keepRefuse w code { s with keep := k })) := fun code =>
    storeStep_of_eq ((stored_keepRefuse w code _).trans htaken)
  unfold keepStarted
  split
  · exact hrefused _
  · next hopen =>
    split
    · exact hrefused _
    · split
      · exact hrefused _
      · have hcells : k.cells = s.keep.cells := congrArg Prod.fst htaken
        rw [stored_mk, hcells]
        exact .started w hidle (by simpa using hopen)

theorem keepWriteStart_storeStep (s : State) : ∃ e, exec .keepWriteStart s = commit s e ∧ StoreStep s (stored e) := by
  refine ⟨_, rfl, ?_⟩
  split
  · exact .kept
  · next hfree =>
    have hidle : s.keep.active = none := by simpa using (show ¬ s.keep.active.isSome = true by simp_all)
    split
    · exact .kept
    · next hnext => exact keepStarted_storeStep hidle hnext

theorem keepWriteDone_storeStep (s : State) : ∃ e, exec .keepWriteDone s = commit s e ∧ StoreStep s (stored e) := by
  refine ⟨_, rfl, ?_⟩
  split
  · exact .kept
  · next w hactive =>
    split
    · exact .kept
    · dsimp only
      rw [stored_ite, stored_ksResult, ite_self, stored_mk]
      exact .landed w hactive

theorem keepCut_storeStep (s : State) : StoreStep s (stored (keepCut s)) := by
  unfold stored
  rcases keepCut_keep s with hold | ⟨k, hactive, hnew⟩
  · rw [hold]
    exact .lost
  · rw [hnew]
    exact .landed k hactive

theorem powerLost_storeStep (s : State) : StoreStep s (stored (powerLost s)) := by
  have hlost : stored (powerLost s) = stored (keepCut s) := by
    rw [powerLost_eq]
    exact Prod.ext rfl (keepCut_active s).symm
  rw [hlost]
  exact keepCut_storeStep s

theorem stored_toFault (s : State) (d : Nat) : stored (toFault s d) = stored s := by
  unfold toFault
  simp

theorem stored_railLost (ds : List Nat) (s : State) : stored (railLost ds s) = stored s := by
  have hleft : stored (waitingDropped ds (ds.foldl toFault s)) = stored s := stored_foldl stored_toFault ds s
  unfold railLost
  rw [stored_ite, stored_switchEnd, ite_self, hleft]

theorem railRemoved_storeStep (r : Rail) (s : State) : ∃ e, exec (.railRemoved r) s = commit s e ∧ StoreStep s (stored e) := by
  have hpins : stored (railGone r s) = stored s := rfl
  cases r with
  | vddCore => exact ⟨_, rfl, storeStep_of_eq ((stored_coreRailLost _).trans hpins)⟩
  | vddSram => exact ⟨_, rfl, storeStep_of_eq ((stored_coreRailLost _).trans hpins)⟩
  | vddAon => exact ⟨_, rfl, (powerLost_storeStep (railGone .vddAon s)).of_keep rfl⟩
  | vppKeep => exact ⟨_, rfl, (keepCut_storeStep (railGone .vppKeep s)).of_keep rfl⟩
  | vddLane | vddLaneHv | vddHbm | vddqHbm | vddIo =>
    exact ⟨_, exec_railRemoved s (by simp), storeStep_of_eq ((stored_railLost _ _).trans hpins)⟩

/-! Every command. -/

theorem storeStep_of_commit {i : Instr} {t : State} (heffect : ∃ e, exec i s = commit s e ∧ StoreStep s (stored e)) (h : exec i s = .next t) :
    StoreStep s (stored t) ∧ t.pending = s.pending := by
  obtain ⟨e, hexec, hstep⟩ := heffect
  obtain rfl := Host.Outcome.next.inj (hexec.symm.trans h)
  rw [stored_signalRise]
  exact ⟨hstep, signalRise_pending s _⟩

/-- Whatever the command, the store makes one of those steps, and the queue stays. -/
theorem exec_storeStep {i : Instr} {t : State} (h : exec i s = .next t) : StoreStep s (stored t) ∧ t.pending = s.pending := by
  cases hmoves : movesStore i with
  | false =>
    obtain ⟨hstored, hqueue⟩ := exec_keeps i s hmoves t h
    exact ⟨storeStep_of_eq hstored, hqueue⟩
  | true =>
    cases i with
    | keepWriteStart => exact storeStep_of_commit (keepWriteStart_storeStep s) h
    | keepWriteDone => exact storeStep_of_commit (keepWriteDone_storeStep s) h
    | railRemoved r => exact storeStep_of_commit (railRemoved_storeStep r s) h
    | _ => cases hmoves

/-! What a step makes of the words. -/

variable {t : State}

/-- The cells stay, or the write in progress lands in them. -/
theorem StoreStep.cells (h : StoreStep s (stored t)) :
    t.keep.cells = s.keep.cells ∨ ∃ k, s.keep.active = some k ∧ t.keep.cells = keepLand k s.keep.cells := by
  generalize hx : stored t = x at h
  have hcells : t.keep.cells = x.1 := congrArg Prod.fst hx
  rw [hcells]
  cases h with
  | kept => exact .inl rfl
  | started => exact .inl rfl
  | landed k hactive => exact .inr ⟨k, hactive, rfl⟩
  | lost => exact .inl rfl

theorem cellOf_of_cells (h : t.keep.cells = s.keep.cells) (w : Nat) : cellOf t w = cellOf s w := by
  unfold cellOf
  rw [h]

/-- A word stays, or the write in progress is on it, in a region its source owns, and has landed. -/
theorem StoreStep.cell (h : StoreStep s (stored t)) (w : Nat) :
    cellOf t w = cellOf s w ∨ ∃ k, s.keep.active = some k ∧ k.word = w ∧ keepOwned k.source w = true
      ∧ (cellOf t w).wear = (cellOf s w).wear + 1 ∧ (cellOf t w).value = k.value := by
  rcases h.cells with hsame | ⟨k, hactive, hlanded⟩
  · exact .inl (cellOf_of_cells hsame w)
  · cases howned : keepOwned k.source k.word with
    | false => exact .inl (cellOf_of_cells (hlanded.trans (if_neg (by simp [howned]))) w)
    | true =>
      obtain ⟨hself, hother⟩ := cells_keepLanded howned hlanded
      by_cases hw : w = k.word
      · subst hw
        exact .inr ⟨k, hactive, rfl, howned, by rw [hself], by rw [hself]⟩
      · exact .inl (hother w hw)

/-- A write in progress stays on a word that is not WORN. -/
theorem StoreStep.writeOpen (h : StoreStep s (stored t)) (hopen : WriteOpen s) : WriteOpen t := by
  generalize hx : stored t = x at h
  have hcells : t.keep.cells = x.1 := congrArg Prod.fst hx
  have hactive : t.keep.active = x.2 := congrArg Prod.snd hx
  intro k hk
  rw [hactive] at hk
  unfold worn
  cases h with
  | kept =>
    rw [cellOf_of_cells hcells]
    exact hopen k hk
  | started w _ hstarts =>
    rw [cellOf_of_cells hcells]
    cases hk
    exact hstarts
  | landed => cases hk
  | lost => cases hk

/-- A WORN word stays. -/
theorem StoreStep.worn_stays (h : StoreStep s (stored t)) (hopen : WriteOpen s) {w : Nat} (hworn : worn s w = true) : cellOf t w = cellOf s w := by
  rcases h.cell w with hsame | ⟨k, hactive, rfl, -, -⟩
  · exact hsame
  · exact absurd (hopen k hactive) (by simp [hworn])

theorem StoreStep.wear_le (h : StoreStep s (stored t)) (hopen : WriteOpen s) {w : Nat} (hwear : (cellOf s w).wear ≤ 100000) :
    (cellOf t w).wear ≤ 100000 := by
  rcases h.cell w with hsame | ⟨k, hactive, rfl, -, hrise, -⟩
  · rw [hsame]
    exact hwear
  · have hbelow := of_decide_eq_false (hopen k hactive)
    omega

end

/-! The store's own commands once more: what O50 says of them. -/

section
variable {s : State} {w : KeepWrite}

theorem keepWriteDone_counts (h : s.keep.active = some w ∧ keepOwned w.source w.word = true ∧ s.keep.startedAt + 20 ≤ s.clk.now) :
    Completes .keepWriteDone s fun t => (cellOf t w.word).wear = (cellOf s w.word).wear + 1 ∧ (cellOf t w.word).value = w.value := by
  obtain ⟨hactive, howned, hdue⟩ := h
  by_cases hhost : w.source = .host
  · exact (keepWriteDone_host ⟨hactive, hdue⟩ howned hhost).imp fun t ⟨hcell, _⟩ => by rw [hcell]; exact ⟨rfl, rfl⟩
  · exact (keepWriteDone_own ⟨hactive, hdue⟩ howned hhost).imp fun t ⟨hcell, _⟩ => by rw [hcell]; exact ⟨rfl, rfl⟩

theorem keepWriteStart_refusesWorn {k : Keep}
    (h : s.keep.active = none ∧ s.pins.rails.vppKeep = true ∧ keepNext s.keep = some (w, k) ∧ worn s w.word = true) :
    Completes .keepWriteStart s fun t => (∀ j, cellOf t j = cellOf s j) ∧ t.keep.active = none ∧ (w.source = .host → t.keep.result = 2) := by
  obtain ⟨hidle, hrail, hnext, hworn⟩ := h
  have htaken := stored_keepNext hnext
  have hcells : k.cells = s.keep.cells := congrArg Prod.fst htaken
  have hactive : k.active = none := (congrArg Prod.snd htaken).trans hidle
  have hexec := (exec_keepWriteStart ⟨hidle, hrail⟩ hnext).trans (congrArg (commit s) (keepStarted_worn hworn))
  by_cases hhost : w.source = .host
  · refine (completes_withKeepDone (hexec.trans (congrArg (commit s) (keepRefuse_host 0x02 hhost)))).imp fun t ⟨hkeep, _⟩ => ?_
    exact ⟨cellOf_of_cells (by rw [hkeep]; exact hcells), by rw [hkeep]; exact hactive, fun _ => by rw [hkeep]⟩
  · refine (completes_withKeep (hexec.trans (congrArg (commit s) (keepRefuse_own 0x02 hhost)))).imp fun t ⟨hkeep, _⟩ => ?_
    exact ⟨cellOf_of_cells (by rw [hkeep]; exact hcells), by rw [hkeep]; exact hactive, fun h => absurd h hhost⟩

end

/-- Settles O50: no command but KEEP_WRITE_DONE and a lost supply moves a word, and these land the one write in progress. -/
theorem keepStoreWear : Obligations.KeepStoreWear := by
  unfold Obligations.KeepStoreWear
  refine ⟨fun i s t w h => ?_, fun s w h => keepWriteDone_counts h, fun s w k h => keepWriteStart_refusesWorn h,
    fun s h => (ksDataRead_answers h.2).imp fun t ⟨hread, _⟩ => hread⟩
  obtain ⟨hstep, -⟩ := exec_storeStep h
  refine ⟨?_, ?_, fun hmoved => ?_, fun hopen hworn => hstep.worn_stays hopen hworn, fun hopen hwear => hstep.wear_le hopen hwear,
    fun hopen => hstep.writeOpen hopen⟩
  · rcases hstep.cell w with hsame | ⟨k, -, -, -, hrise, -⟩
    · rw [hsame]
    · omega
  · rcases hstep.cell w with hsame | ⟨k, -, -, -, hrise, -⟩
    · rw [hsame]
      omega
    · omega
  · obtain ⟨k, hactive, hword, -, hrise, hvalue⟩ := (hstep.cell w).resolve_left hmoved
    exact ⟨hrise, k, hactive, hword, hvalue⟩

/-! The invariant (R3, R435, R444). -/

/-- Nobody owns the identity region (R440). -/
theorem le_of_keepOwned {src : KeepSource} {w : Nat} (h : keepOwned src w = true) : 256 ≤ w := by
  cases src with
  | nonce =>
    have := of_decide_eq_true h
    omega
  | mp =>
    simp only [keepOwned, Bool.or_eq_true, decide_eq_true_eq] at h
    omega
  | host =>
    simp only [keepOwned, hostMayWrite, isProvKey, Bool.or_eq_true, decide_eq_true_eq] at h
    omega

theorem tabWf_keepLand (w : KeepWrite) {cells : Tab Cell} (h : tabWf {} cells = true) : tabWf {} (keepLand w cells) = true := by
  unfold keepLand
  split
  · exact tabWf_tabPut _ _ _ _ h
  · exact h

section
variable {s t : State}

theorem StoreStep.keepOk (h : StoreStep s (stored t)) (hok : KeepOk s) : KeepOk t := by
  unfold KeepOk
  rcases h.cells with hsame | ⟨k, -, hlanded⟩
  · rw [hsame]
    exact hok
  · rw [hlanded]
    exact tabWf_keepLand k hok

/-- The identity region stays. -/
theorem StoreStep.identity (h : StoreStep s (stored t)) {w : Nat} (hw : w < 256) : cellOf t w = cellOf s w := by
  rcases h.cell w with hsame | ⟨k, -, -, howned, -⟩
  · exact hsame
  · exact absurd (le_of_keepOwned howned) (by omega)

theorem StoreStep.isH_stays (h : StoreStep s (stored t)) : isH t = isH s :=
  congrArg (fun c : Cell => fieldOf c.value 14 7 == 2) (h.identity (w := 1) (by decide))

/-- A step takes the front of the queue away, and makes one of the store's steps. -/
theorem step_storeStep (h : step s = .next t) : StoreStep s (stored t) ∧ ∀ i ∈ t.pending, i ∈ s.pending := by
  unfold step at h
  split at h
  · cases h
    exact ⟨.kept, fun _ hi => hi⟩
  · next i q hqueue =>
    obtain ⟨hstep, hrest⟩ := exec_storeStep h
    rw [hqueue]
    exact ⟨hstep.of_keep rfl, fun j hj => List.mem_cons_of_mem i (by rwa [hrest] at hj)⟩

end

/-- Settles O53: a command changes cells by a landing write alone, which keeps the canonical form and spares the identity region. -/
theorem stepKeepsInvariant : Obligations.StepKeepsInvariant := by
  unfold Obligations.StepKeepsInvariant
  rintro s t ⟨⟨hkeep, hqueue⟩, hnext⟩
  obtain ⟨hstep, hrest⟩ := step_storeStep hnext
  refine ⟨⟨hstep.keepOk hkeep, fun i hi => ?_⟩, fun w hw => hstep.identity hw, hstep.isH_stays⟩
  rw [hstep.isH_stays]
  exact hqueue i (hrest i hi)

end Sys2Proof.Machine
end
